-- ==== Sys2Proof/Word.lean ====
section
/-! DEFINITION. The word types of the Kwenulos (R9, R46, R47, R48, R52, R54, R55). -/

namespace Sys2Proof

/-- One byte of memory (R9). -/
abbrev Byte := BitVec 8
/-- A scalar register, an address, a control register (R46, R61). -/
abbrev Word := BitVec 64
/-- One vector register: 512 bytes (R47). -/
abbrev VReg := BitVec 4096
/-- One mask register: 512 bits (R48). -/
abbrev MReg := BitVec 512
/-- The image of one accumulator tile: 128 × 96 words of 32 bits (R52). -/
abbrev Tile := BitVec 393216
/-- One scale register: 256 entries of one byte (R54). -/
abbrev KReg := BitVec 2048
/-- One twiddle register: 128 entries of 8 bytes (R55). -/
abbrev WReg := BitVec 8192
/-- One instruction line: 64 bytes, byte 0 in the low bits (R67). -/
abbrev Line := BitVec 512

end Sys2Proof
end

