-- ==== Sys2Proof/Machine/Bits.lean ====
section
/-! DEFINITION. Bit ranges, extension, elements of a register image, byte order, lists keyed by numbers and the sparse
canonical byte store: the plain helpers that the meanings share (R9, R47). -/

namespace Sys2Proof.Machine

/-- Bits [lo + w − 1 : lo] of a number. -/
def bits (x lo w : Nat) : Nat := (x >>> lo) % 2 ^ w
/-- Bit n of a number. -/
def bitOf (x n : Nat) : Bool := x.testBit n
/-- Bits [lo + w − 1 : lo] of a bit vector, as a number. -/
def fld {n : Nat} (x : BitVec n) (lo w : Nat) : Nat := (x.extractLsb' lo w).toNat
/-- Bit n of a bit vector. -/
def flag {n : Nat} (x : BitVec n) (i : Nat) : Bool := x.getLsbD i
/-- x with bits [lo + w − 1 : lo] replaced by v modulo 2^w. -/
def setFld {n : Nat} (x : BitVec n) (lo w v : Nat) : BitVec n :=
  (x &&& ~~~((BitVec.ofNat n (2 ^ w - 1)) <<< lo)) ||| ((BitVec.ofNat n (v % 2 ^ w)) <<< lo)
/-- 1 for true. -/
def b2n (b : Bool) : Nat := if b then 1 else 0
/-- A word from a number, modulo 2^64. -/
def word (n : Nat) : Word := BitVec.ofNat 64 n
/-- The value of the low w bits of x as a two's-complement number. -/
def sgn (w x : Nat) : Int := if w = 0 then 0 else if (x % 2 ^ w).testBit (w - 1) then (x % 2 ^ w : Nat) - (2 ^ w : Nat) else (x % 2 ^ w : Nat)
/-- The low w bits of a two's-complement number. -/
def unsgn (w : Nat) (i : Int) : Nat := (i % (2 ^ w : Nat)).toNat
/-- Sign extension from w bits to 64. -/
def sextW (w x : Nat) : Word := BitVec.ofInt 64 (sgn w x)
/-- Ceiling of a quotient. -/
def cdiv (a b : Nat) : Nat := (a + b - 1) / b
/-- Two ranges of bytes overlap. -/
def overlap (a la b lb : Nat) : Bool := decide (0 < la ∧ 0 < lb ∧ a < b + lb ∧ b < a + la)

/-- Element i of width w of a register image (R47). -/
def elem {n : Nat} (r : BitVec n) (w i : Nat) : Nat := (r.toNat >>> (w * i)) % 2 ^ w
/-- A register image with element i of width w replaced by x modulo 2^w (R47). -/
def setElem {n : Nat} (r : BitVec n) (w i x : Nat) : BitVec n := setFld r (w * i) w x
/-- A register image whose elements below c are replaced where f answers a value. -/
def mapElems {n : Nat} (r : BitVec n) (w : Nat) (f : Nat → Option Nat) : Nat → BitVec n
  | 0 => r
  | c + 1 =>
    match f c with
    | some x => setElem (mapElems r w f c) w c x
    | none => mapElems r w f c

/-- The little-endian number of a list of bytes (R9). -/
def leNat : List Byte → Nat
  | [] => 0
  | b :: bs => b.toNat + 256 * leNat bs
/-- The n little-endian bytes of a number (R9). -/
def leBytes : Nat → Nat → List Byte
  | 0, _ => []
  | n + 1, x => BitVec.ofNat 8 x :: leBytes n (x / 256)

/-- The entry of key k in a list of pairs. -/
def look {α : Type} (k : Nat) : List (Nat × α) → Option α
  | [] => none
  | (j, a) :: r => if j = k then some a else look k r
/-- The list with the entry of key k replaced, or added at the end. -/
def put {α : Type} (k : Nat) (a : α) : List (Nat × α) → List (Nat × α)
  | [] => [(k, a)]
  | (j, b) :: r => if j = k then (k, a) :: r else (j, b) :: put k a r
/-- The list without the entry of key k. -/
def drop {α : Type} (k : Nat) : List (Nat × α) → List (Nat × α)
  | [] => []
  | (j, b) :: r => if j = k then r else (j, b) :: drop k r

/-- The first element that satisfies a test. -/
def firstSat {α : Type} (p : α → Bool) : List α → Option α
  | [] => none
  | a :: r => if p a then some a else firstSat p r
/-- The first value that a function answers on a list. -/
def firstSome {α β : Type} (f : α → Option β) : List α → Option β
  | [] => none
  | a :: r => match f a with
    | some b => some b
    | none => firstSome f r
/-- The list with the first element that satisfies a test replaced. -/
def replFirst {α : Type} (p : α → Bool) (f : α → α) : List α → List α
  | [] => []
  | a :: r => if p a then f a :: r else a :: replFirst p f r
/-- The list without the first element that satisfies a test. -/
def dropFirst {α : Type} (p : α → Bool) : List α → List α
  | [] => []
  | a :: r => if p a then r else a :: dropFirst p r
/-- Element i of a list, or a default. -/
def nthD {α : Type} (d : α) : List α → Nat → α
  | [], _ => d
  | a :: _, 0 => a
  | _ :: r, i + 1 => nthD d r i
/-- The list with element i replaced, if there is one. -/
def setNth {α : Type} (x : α) : List α → Nat → List α
  | [], _ => []
  | _ :: r, 0 => x :: r
  | a :: r, i + 1 => a :: setNth x r i
/-- Fold over 0 … n − 1 in ascending order. -/
def forN {α : Type} (f : Nat → α → α) : Nat → α → α
  | 0, a => a
  | n + 1, a => f n (forN f n a)
/-- Fold over 0 … n − 1 that may stop with an error. -/
def forE {ε α : Type} (f : Nat → α → Except ε α) : Nat → α → Except ε α
  | 0, a => .ok a
  | n + 1, a => match forE f n a with
    | .ok b => f n b
    | .error e => .error e
/-- The numbers below n for which a test holds, in ascending order. -/
def below (p : Nat → Bool) (n : Nat) : List Nat := (List.range n).filter p
/-- How many numbers below n satisfy a test. -/
def countBelow (p : Nat → Bool) : Nat → Nat
  | 0 => 0
  | n + 1 => countBelow p n + b2n (p n)
/-- The largest number below n that satisfies a test. -/
def lastBelow (p : Nat → Bool) : Nat → Option Nat
  | 0 => none
  | n + 1 => if p n then some n else lastBelow p n
/-- The smallest number in [i, i + n) that satisfies a test. -/
def firstFrom (p : Nat → Bool) (i : Nat) : Nat → Option Nat
  | 0 => none
  | n + 1 => if p i then some i else firstFrom p (i + 1) n
/-- floor(log2 x) for x > 0, and 0 for 0. -/
def ilog2 (x : Nat) : Nat := x.log2

/-- The element of a list that ranks first. -/
def firstBy {α : Type} (lt : α → α → Bool) : List α → Option α
  | [] => none
  | a :: r => match firstBy lt r with
    | none => some a
    | some b => if lt b a then some b else some a

end Sys2Proof.Machine
end

