-- ==== Sys2Proof/Machine/Float.lean ====
section
/-! DEFINITION. Floating point by exact values rounded once (R15, R16, R33 to R39): the value of an encoding, exact sums
and products, division and square root, rounding with its flags, and the stochastic-rounding generators. -/

namespace Sys2Proof.Machine

/-! ## Flags: bit 6 MODRED, 5 BFPSAT, 4 NV, 3 DZ, 2 OF, 1 UF, 0 NX, the places of STATUS[47:41] (R17, R62) -/

/-- NV. -/
def fNV : Nat := 16
/-- DZ. -/
def fDZ : Nat := 8
/-- OF and NX: an overflow (R37). -/
def fOV : Nat := 5
/-- UF and NX. -/
def fUF : Nat := 3
/-- NX. -/
def fNX : Nat := 1
/-- BFPSAT. -/
def fBFP : Nat := 32
/-- MODRED. -/
def fMOD : Nat := 64

/-- An exact value: NaN (signalling or not), infinity, or (−1)^neg × m × 2^e. -/
inductive FV where
  | nan (sig : Bool)
  | inf (neg : Bool)
  | num (neg : Bool) (m : Nat) (e : Int)
  deriving DecidableEq, Repr

/-- A floating-point format (R15): width, mantissa bits, exponent of the least subnormal, largest finite magnitude as
m × 2^e, whether it has infinities, and its canonical NaN. -/
structure FF where
  w : Nat
  mant : Nat
  emin : Int
  maxM : Nat
  maxE : Int
  hasInf : Bool
  nan : Nat
  deriving DecidableEq, Repr

/-- The format of a code of R13; 0x9 to 0xC are no floating-point formats and stand for binary32. -/
def fmtOf : Nat → FF
  | 0 => ⟨64, 52, -1074, 2 ^ 53 - 1, 971, true, 0x7FF8000000000000⟩
  | 2 => ⟨16, 10, -24, 2 ^ 11 - 1, 5, true, 0x7E00⟩
  | 3 => ⟨16, 7, -133, 2 ^ 8 - 1, 120, true, 0x7FC0⟩
  | 4 => ⟨8, 3, -9, 14, 5, false, 0x7F⟩
  | 5 => ⟨8, 2, -16, 7, 13, true, 0x7E⟩
  | 6 => ⟨6, 2, -4, 7, 2, false, 0⟩
  | 7 => ⟨6, 3, -3, 15, -1, false, 0⟩
  | 8 => ⟨4, 1, -1, 3, 1, false, 0⟩
  | _ => ⟨32, 23, -149, 2 ^ 24 - 1, 104, true, 0x7FC00000⟩

/-- Whether the format has NaNs. -/
def FF.hasNan (f : FF) : Bool := f.nan != 0

/-- The value of an encoding (R15, R16). -/
def fval (f : FF) (b : Nat) : FV :=
  let x := b % 2 ^ f.w
  let neg := x.testBit (f.w - 1)
  let mag := x % 2 ^ (f.w - 1)
  let m := mag % 2 ^ f.mant
  let ef := mag / 2 ^ f.mant
  let emax := 2 ^ (f.w - 1 - f.mant) - 1
  if f.hasInf && ef == emax then (if m = 0 then .inf neg else .nan (!m.testBit (f.mant - 1)))
  else if !f.hasInf && f.hasNan && mag == f.nan then .nan false
  else if ef = 0 then .num neg m f.emin
  else .num neg (2 ^ f.mant + m) (f.emin + ef - 1)

/-- Whether a value is a NaN. -/
def FV.isNan : FV → Bool
  | .nan _ => true
  | _ => false
/-- Whether a value is a signalling NaN. -/
def FV.isSig : FV → Bool
  | .nan s => s
  | _ => false
/-- Whether a value is a zero. -/
def FV.isZero : FV → Bool
  | .num _ 0 _ => true
  | _ => false
/-- The sign of a value. -/
def FV.sign : FV → Bool
  | .nan _ => false
  | .inf n => n
  | .num n _ _ => n
/-- The value with its sign turned. -/
def FV.neg : FV → FV
  | .nan s => .nan s
  | .inf n => .inf (!n)
  | .num n m e => .num (!n) m e
/-- An integer as a value. -/
def FV.ofInt (i : Int) : FV := .num (decide (i < 0)) i.natAbs 0
/-- Zero. -/
def FV.zero : FV := .num false 0 0
/-- One. -/
def FV.one : FV := .num false 1 0

/-- The signed mantissa of a number at exponent e, when its own exponent is at or above e. -/
def alignTo (neg : Bool) (m : Nat) (e0 e : Int) : Int :=
  let v : Int := (m * 2 ^ (e0 - e).toNat : Nat)
  if neg then -v else v

/-- An exact sum, with NV where it is raised; an exact zero sum of opposite signs is +0, and −0 under RDN (R16). -/
def fadd (rm : Nat) : FV → FV → FV × Nat
  | .nan a, .nan b => (.nan false, if a || b then fNV else 0)
  | .nan a, _ => (.nan false, if a then fNV else 0)
  | _, .nan b => (.nan false, if b then fNV else 0)
  | .inf a, .inf b => if a = b then (.inf a, 0) else (.nan false, fNV)
  | .inf a, _ => (.inf a, 0)
  | _, .inf b => (.inf b, 0)
  | .num na ma ea, .num nb mb eb =>
    if ma = 0 ∧ mb = 0 then (.num (if na = nb then na else rm == 2) 0 0, 0)
    else
      let e := min ea eb
      let v := alignTo na ma ea e + alignTo nb mb eb e
      if v = 0 then (.num (rm == 2) 0 0, 0) else (.num (decide (v < 0)) v.natAbs e, 0)

/-- An exact product, with NV where it is raised. -/
def fmul : FV → FV → FV × Nat
  | .nan a, .nan b => (.nan false, if a || b then fNV else 0)
  | .nan a, _ => (.nan false, if a then fNV else 0)
  | _, .nan b => (.nan false, if b then fNV else 0)
  | .inf a, .inf b => (.inf (xor a b), 0)
  | .inf a, .num nb mb _ => if mb = 0 then (.nan false, fNV) else (.inf (xor a nb), 0)
  | .num na ma _, .inf b => if ma = 0 then (.nan false, fNV) else (.inf (xor na b), 0)
  | .num na ma ea, .num nb mb eb => (.num (xor na nb) (ma * mb) (ea + eb), 0)

/-- floor(log2 (n / d)) for positive n and d. -/
def ratLog (n d : Nat) : Int :=
  let k : Int := (ilog2 n : Int) - ilog2 d
  if (if 0 ≤ k then decide (n < d * 2 ^ k.toNat) else decide (n * 2 ^ (-k).toNat < d)) then k - 1 else k

/-- n / d × 2^e in units of 2^q, rounded to an integer under a mode, with whether it was inexact (R34, R36). -/
def roundUnits (rm : Nat) (neg : Bool) (draw n d : Nat) (e q : Int) : Nat × Bool :=
  let num := n * 2 ^ (e - q).toNat
  let den := d * 2 ^ (q - e).toNat
  let lo := num / den
  let r := num % den
  let up :=
    match rm with
    | 1 => false
    | 2 => neg && r != 0
    | 3 => !neg && r != 0
    | 4 => decide (draw < 65536 * r / den)
    | _ => decide (den < 2 * r) || (2 * r == den && lo % 2 == 1)
  (lo + b2n up, r != 0)

/-- What an overflow gives (R37): the encoding without its sign. -/
def overBits (f : FF) (rm : Nat) (sat neg : Bool) : Nat :=
  let mx := (f.maxE - f.emin).toNat * 2 ^ f.mant + f.maxM
  if sat then mx
  else if f.hasInf then
    (let inf := (2 ^ (f.w - 1 - f.mant) - 1) * 2 ^ f.mant
     match rm with
     | 1 => mx
     | 2 => if neg then inf else mx
     | 3 => if neg then mx else inf
     | _ => inf)
  else if f.hasNan then f.nan
  else mx

/-- A sign and a magnitude as an encoding; a NaN magnitude loses the sign. -/
def signed (f : FF) (neg : Bool) (mag : Nat) : Nat :=
  if f.hasNan && mag == f.nan then f.nan else if neg then 2 ^ (f.w - 1) + mag else mag

/-- n / d × 2^e, n > 0, rounded once to a format (R34), with its flags (R17, R37). -/
def roundRat (f : FF) (rm : Nat) (sat : Bool) (draw : Nat) (neg : Bool) (n d : Nat) (e : Int) : Nat × Nat :=
  let p := f.mant + 1
  let k := ratLog n d + e
  let q0 := k - f.mant
  let q := max q0 f.emin
  let r := roundUnits rm neg draw n d e q
  let tooBig := if f.maxE ≤ q then decide (f.maxM < r.1 * 2 ^ (q - f.maxE).toNat)
              else decide (f.maxM * 2 ^ (f.maxE - q).toNat < r.1)
  if tooBig then (signed f neg (overBits f rm sat neg), fOV)
  else
    let tiny := decide (k < f.emin + f.mant) &&
      !(decide (k + 1 = f.emin + f.mant) && decide (2 ^ p ≤ (roundUnits rm neg draw n d e q0).1))
    let mag := if r.1 = 0 then 0 else (q - f.emin).toNat * 2 ^ f.mant + r.1
    (if neg then 2 ^ (f.w - 1) + mag else mag, if r.2 then (if tiny then fUF else fNX) else 0)

/-- An exact value rounded once to a format: conversion under R37 with SAT, and every arithmetic result with SAT clear.
The flags are those of the rounding and of a replaced infinity; a signalling NaN's NV is the caller's. -/
def fround (f : FF) (rm : Nat) (sat : Bool) (draw : Nat) : FV → Nat × Nat
  | .nan _ => if f.hasNan then (f.nan, 0) else (0, fNV)
  | .inf neg =>
    if f.hasInf && !sat then (signed f neg ((2 ^ (f.w - 1 - f.mant) - 1) * 2 ^ f.mant), 0)
    else if f.hasNan && !f.hasInf && !sat then (f.nan, fNV)
    else (signed f neg (overBits f rm true neg), fNV)
  | .num neg m e =>
    if m = 0 then (if neg then 2 ^ (f.w - 1) else 0, 0) else roundRat f rm sat draw neg m 1 e

/-- SR counts as RNE wherever the form is no conversion (R33). -/
def arithRm (rm : Nat) : Nat := if rm = 4 then 0 else rm

/-- round(a + b) (R39). -/
def faddR (f : FF) (rm : Nat) (a b : FV) : Nat × Nat :=
  let s := fadd rm a b
  let r := fround f rm false 0 s.1
  (r.1, r.2 ||| s.2)
/-- round(a × b). -/
def fmulR (f : FF) (rm : Nat) (a b : FV) : Nat × Nat :=
  let s := fmul a b
  let r := fround f rm false 0 s.1
  (r.1, r.2 ||| s.2)
/-- round(a × b + c), one rounding; 0 × ∞ raises NV beside a quiet NaN addend too (DESIGN CHOICE, log 83). -/
def fmaR (f : FF) (rm : Nat) (a b c : FV) : Nat × Nat :=
  let p := fmul a b
  let s := fadd rm p.1 c
  let r := fround f rm false 0 s.1
  (r.1, r.2 ||| s.2 ||| p.2)
/-- round(a × b + c × d), one rounding (R39, R200). -/
def fma2R (f : FF) (rm : Nat) (a b c d : FV) : Nat × Nat :=
  let p := fmul a b
  let q := fmul c d
  let s := fadd rm p.1 q.1
  let r := fround f rm false 0 s.1
  (r.1, r.2 ||| s.2 ||| p.2 ||| q.2)
/-- round(a / b). -/
def fdivR (f : FF) (rm : Nat) (a b : FV) : Nat × Nat :=
  let sg := xor a.sign b.sign
  match a, b with
  | .nan x, .nan y => (f.nan, if x || y then fNV else 0)
  | .nan x, _ => (f.nan, if x then fNV else 0)
  | _, .nan y => (f.nan, if y then fNV else 0)
  | .inf _, .inf _ => (f.nan, fNV)
  | .inf _, _ => fround f rm false 0 (.inf sg)
  | .num _ _ _, .inf _ => fround f rm false 0 (.num sg 0 0)
  | .num _ ma ea, .num _ mb eb =>
    if mb = 0 then (if ma = 0 then (f.nan, fNV) else ((fround f rm false 0 (.inf sg)).1, fDZ))
    else if ma = 0 then fround f rm false 0 (.num sg 0 0)
    else roundRat f rm false 0 sg ma mb (ea - eb)

/-- The integer square root, from bit i down. -/
def isqrtGo (n : Nat) : Nat → Nat → Nat
  | 0, r => if (r + 1) * (r + 1) ≤ n then r + 1 else r
  | i + 1, r => isqrtGo n i (if (r + 2 ^ (i + 1)) * (r + 2 ^ (i + 1)) ≤ n then r + 2 ^ (i + 1) else r)
/-- floor(√n). -/
def isqrt (n : Nat) : Nat := isqrtGo n (ilog2 n / 2 + 1) 0

/-- round(√a): the root of m × 2^e is found to 70 bits with a sticky bit below, which no rounding of R34 can tell from the
exact root. -/
def fsqrtR (f : FF) (rm : Nat) (a : FV) : Nat × Nat :=
  match a with
  | .nan x => (f.nan, if x then fNV else 0)
  | .inf neg => if neg then (f.nan, fNV) else fround f rm false 0 (.inf false)
  | .num neg m e =>
    if m = 0 then fround f rm false 0 (.num neg 0 0)
    else if neg then (f.nan, fNV)
    else
      let sh : Nat := 140 + (if (e % 2) = 0 then 0 else 1)
      let n := m * 2 ^ sh
      let r := isqrt n
      let e' := (e - sh) / 2
      let sticky := b2n (decide (r * r < n))
      roundRat f rm false 0 false (2 * r + sticky) 1 (e' - 1)

/-- a < b for values that are no NaN. -/
def flt : FV → FV → Bool
  | .inf a, .inf b => a && !b
  | .inf a, _ => a
  | _, .inf b => !b
  | .num na ma ea, .num nb mb eb =>
    let e := min ea eb
    decide (alignTo na ma ea e < alignTo nb mb eb e)
  | _, _ => false
/-- a = b for values that are no NaN. -/
def feq (a b : FV) : Bool := !flt a b && !flt b a && !a.isNan && !b.isNan

/-- An integer rounded to a format (R38). -/
def fromInt (f : FF) (rm : Nat) (sat : Bool) (draw : Nat) (i : Int) : Nat × Nat := fround f rm sat draw (FV.ofInt i)

/-- A value rounded to an integer type of w bits (R38): saturating, NV on saturation, NX when a result in range differs. -/
def toIntR (w : Nat) (uns : Bool) (rm draw : Nat) : FV → Nat × Nat
  | .nan _ => (0, fNV)
  | .inf neg => (if uns then (if neg then 0 else 2 ^ w - 1) else (if neg then 2 ^ (w - 1) else 2 ^ (w - 1) - 1), fNV)
  | .num neg m e =>
    let r := if 0 ≤ e then (m * 2 ^ e.toNat, false) else roundUnits rm neg draw m 1 e 0
    let v : Int := if neg then -(r.1 : Int) else r.1
    let lo : Int := if uns then 0 else -((2 ^ (w - 1) : Nat) : Int)
    let hi : Int := if uns then ((2 ^ w : Nat) : Int) - 1 else ((2 ^ (w - 1) : Nat) : Int) - 1
    if v < lo then (unsgn w lo, fNV) else if hi < v then (unsgn w hi, fNV) else (unsgn w v, if r.2 then fNX else 0)

/-! ## Stochastic rounding (R35) -/

/-- One step of a generator. -/
def lfsrStep (s : Nat) : Nat := if s % 2 = 1 then (s / 2) ^^^ 0x80200003 else s / 2
/-- n steps: the draw so far, first output bit highest, and the state. -/
def lfsrDraw : Nat → Nat → Nat → Nat × Nat
  | 0, s, d => (d, s)
  | n + 1, s, d => lfsrDraw n (lfsrStep s) (2 * d + s % 2)
/-- A draw of a generator: its value and the new state. -/
def srDraw (s : Nat) : Nat × Nat := lfsrDraw 16 s 0
/-- The seed of generator i (R35). -/
def genSeed (seed i : Nat) : Nat :=
  let x := (seed % 2 ^ 32) ^^^ (((i + 1) * 0x9E3779B9) % 2 ^ 32)
  if x = 0 then 1 else x
/-- The 512 generators seeded. -/
def seedGens (seed : Nat) : BitVec 16384 := mapElems (0 : BitVec 16384) 32 (fun i => some (genSeed seed i)) 512

/-! ## Scales (R19, R20) -/

/-- An E8M0 scale. -/
def e8m0 (b : Nat) : FV := if b % 256 = 255 then .nan false else .num false 1 ((b % 256 : Nat) - 127)
/-- A UE4M3 scale. -/
def ue4m3 (b : Nat) : FV := if 128 ≤ b % 256 then .nan false else fval (fmtOf 4) (b % 128)
/-- A scale entry under SFMT. -/
def scaleVal (sfmt : Bool) (b : Nat) : FV := if sfmt then ue4m3 b else e8m0 b
/-- The value of a BPI container (R25). -/
def bpiVal (pln : Nat) (mid : Bool) (b : Nat) : FV :=
  FV.ofInt (sgn 8 b + (if mid && decide (pln < 8) then ((2 ^ (7 - pln) : Nat) : Int) else 0))
/-- The value of an MXINT8 element (R21). -/
def mxiVal (b : Nat) : FV :=
  let q := sgn 8 b
  .num (decide (q < 0)) q.natAbs (-6)

end Sys2Proof.Machine
end

