-- ==== Sys2Proof/Config.lean ====
section
/-! DEFINITION. What one part fixes, and the free values: opaque constants with no body, of which nothing can be proved.
Each is named in the assumption log. -/

namespace Sys2Proof.Config

/-- A fresh free value for each value of the state's counter `free` (assumption 5). -/
opaque freeValue : Nat → Nat
/-- The silicon stepping is State.stepping; the fused key hashes of R435 check 0x2: SHA3-384 of the Ed25519 and of the
ML-DSA-65 public key (assumption 30). -/
opaque keyHash : Bool → BitVec 384
/-- SHA3-384 of the boot ROM, fixed at manufacture (R436, assumption 30). -/
opaque romDigest : BitVec 384
/-- The operating-system image's acceptance from a drive, whose bytes lie outside the package (assumption 30). -/
opaque imageBytes : Nat → Nat → List Byte
/-- Where an approximated function lands inside its ulp bound (R142): function number, format, operand bits
(assumption 6). -/
opaque ulpPick : Nat → Nat → Nat → Nat
/-- Bytes of the save-area parts whose inner layout R379 does not give, for what the part holds and each offset in it
(assumption 24). -/
opaque areaByte {α : Type} : α → Nat → Byte
/-- This package's fabric identity, which CHUB names (R317, assumption 80). -/
opaque fabricId : BitVec 16
/-- The fabric port toward the package of a fabric identity (R320, assumption 80). -/
opaque fabricPort : Nat → BitVec 4
/-- Whether the firmware schedule of an image supports an OPC (R331, assumption 27). -/
opaque fwSupports : List Byte → Nat → Bool
/-- Whether the firmware schedule of an image faults on a chunk of a collective (R333, assumption 27): image, collective, chunk. -/
opaque fwFaults : List Byte → Nat → Nat → Bool

/-- The row of HBM, or the set of the cluster cache, that holds a physical address: unit code, address (R427, assumption 31). -/
opaque placeOf : Nat → Nat → Nat
/-- The pseudo-channel that holds a row of HBM, of the 64 of each of at most eight stacks (R335, R429, assumption 31). -/
opaque channelOf : Nat → BitVec 9
/-- The kind code by which the telemetry directory names a kind of counter (R432, assumption 32). -/
opaque tlmKind : Nat → Nat
/-- How far behind the directory's end the counters begin, in units of 16 bytes (R432, assumption 32). -/
opaque tlmGap : Nat
/-- Disabled ways of a set of the cluster cache (R429, assumption 31). -/
opaque spareWays : Nat
/-- The fused unique secret of the part (R438, assumption 30). -/
opaque secret : BitVec 256
/-- The two device identity private keys that stage 0 derives from the secret (R438, assumption 30). -/
opaque identityKeys : BitVec 256 → List Byte
/-- The two alias private keys that stage 1 derives from the secret with MREG0 and MREG1 (R438, assumption 30). -/
opaque aliasKeys : BitVec 256 → BitVec 384 → BitVec 384 → List Byte
/-- The alias certificates, signed with the identity keys, behind the identity certificates (R438, assumption 30). -/
opaque certificates : List Byte → List Byte → List Byte
/-- The two signatures of a message with the alias keys (R438, assumption 30). -/
opaque quoteSigs : List Byte → List Byte → List Byte

end Sys2Proof.Config
end

