-- ==== Sys2Proof/Fields.lean ====
section
/-! DEFINITION. The operand fields of an instruction, one structure for each tail layout of R78 together with the F7
field of its head (R76). The fields hold what the encoding holds; `WellFormed` says which values a form admits. -/

namespace Sys2Proof

/-- T2A: fD, B and A (R78). -/
structure OpA2 where
  d : BitVec 6
  a : BitVec 6
  b : BitVec 6
  deriving DecidableEq, Repr

/-- T2W: fD or the form code, and VAL (R78). -/
structure OpW2 where
  d : BitVec 6
  val : BitVec 16
  deriving DecidableEq, Repr

/-- T4I: fD, A and the signed immediate (R78). -/
structure OpI4 where
  d : BitVec 6
  a : BitVec 6
  imm : BitVec 20
  deriving DecidableEq, Repr

/-- T4L: fD, space, width code, base register and signed byte offset (R78). -/
structure OpL4 where
  d : BitVec 6
  spc : BitVec 3
  wid : BitVec 3
  base : BitVec 5
  off : BitVec 20
  deriving DecidableEq, Repr

/-- T4A: fD, space, size code, base, operand and compare registers (R78). -/
structure OpAM where
  d : BitVec 6
  spc : BitVec 3
  sz : BitVec 2
  base : BitVec 5
  val : BitVec 5
  cmp : BitVec 5
  deriving DecidableEq, Repr

/-- T4B: the compared registers, the line offset and the slot (R78). -/
structure OpB4 where
  a : BitVec 5
  b : BitVec 5
  loff : BitVec 17
  slot : BitVec 5
  deriving DecidableEq, Repr

/-- T4J: fD, the line offset and the slot (R78). -/
structure OpJ4 where
  d : BitVec 6
  loff : BitVec 27
  slot : BitVec 5
  deriving DecidableEq, Repr

/-- T4W: fD and a 32-bit immediate (R78). -/
structure OpW4 where
  d : BitVec 6
  imm : BitVec 32
  deriving DecidableEq, Repr

/-- T8W: fD and a 64-bit immediate (R78). -/
structure OpW8 where
  d : BitVec 6
  imm : BitVec 64
  deriving DecidableEq, Repr

/-- T4V: the form bit X, the modifier bits OP[5:4] where the major gives them a meaning (0 elsewhere), the registers,
the mask, the length and the cross-lane modifier (R78, R81). -/
structure OpV4 where
  x : Bool
  opx : BitVec 2
  d : BitVec 6
  a : BitVec 6
  b : BitVec 6
  c : BitVec 6
  msk : BitVec 3
  len : BitVec 3
  xl : BitVec 2
  deriving DecidableEq, Repr

/-- T4M: data register, space, base, index or stride register, mask and length (R78). -/
structure OpM4 where
  d : BitVec 6
  spc : BitVec 3
  base : BitVec 5
  ix : BitVec 6
  msk : BitVec 3
  len : BitVec 3
  deriving DecidableEq, Repr

/-- T4M as the tile loads and stores use it: tile, FP64 pair form, space and base (R171). -/
structure OpMT where
  d : BitVec 6
  f64 : Bool
  spc : BitVec 3
  base : BitVec 5
  deriving DecidableEq, Repr

/-- T8I: fD, start, step, mask and length (R78). -/
structure OpI8 where
  d : BitVec 6
  start : BitVec 24
  step : BitVec 24
  msk : BitVec 3
  len : BitVec 3
  deriving DecidableEq, Repr

/-- T8M: tile, formats, scale registers, operand registers, masks and lengths (R78, R168). -/
structure OpM8 where
  d : BitVec 6
  fa : BitVec 4
  fb : BitVec 4
  ka : BitVec 4
  kb : BitVec 4
  va : BitVec 6
  vb : BitVec 6
  ma : BitVec 3
  mb : BitVec 3
  la : BitVec 3
  lb : BitVec 3
  deriving DecidableEq, Repr

/-- T8G: fD, A, B, C, mask, length and IMM32 (R78). -/
structure OpG8 where
  d : BitVec 6
  a : BitVec 6
  b : BitVec 6
  c : BitVec 6
  msk : BitVec 3
  len : BitVec 3
  imm : BitVec 32
  deriving DecidableEq, Repr

/-- T8G as VAMO uses it: IMM32 holds OP, SZ, RET, BASE and SPC (R81, R161). -/
structure OpVA where
  d : BitVec 6
  a : BitVec 6
  b : BitVec 6
  c : BitVec 6
  msk : BitVec 3
  len : BitVec 3
  sz : BitVec 2
  ret : Bool
  base : BitVec 5
  spc : BitVec 3
  deriving DecidableEq, Repr

end Sys2Proof
end

