-- ==== Sys2Proof/Syntax.lean ====
section
/-! DEFINITION. The steps of the Kwenulos: one constructor for every row of spec/opcode_table.json. The rows that the
opcode maps R80 to R84 encode carry their operand fields; the other rows are events of the part, and their arguments
say which agent, place or outside input the event concerns (all natural numbers). -/

namespace Sys2Proof

inductive Instr where
  /-- NOP (R86): Occupies a slot, retires and changes no state other than the instruction address. -/
  | nop
  /-- ADD (R97): Writes g[A] + g[B] modulo 2^64 to gD. -/
  | add (o : OpA2)
  /-- SUB (R97): Writes g[A] - g[B] modulo 2^64 to gD. -/
  | sub (o : OpA2)
  /-- AND (R97): Writes the bitwise AND of g[A] and g[B] to gD. -/
  | and_ (o : OpA2)
  /-- OR (R97): Writes the bitwise OR of g[A] and g[B] to gD. -/
  | or_ (o : OpA2)
  /-- XOR (R97): Writes the bitwise XOR of g[A] and g[B] to gD. -/
  | xor_ (o : OpA2)
  /-- SLL (R97): Shifts g[A] left by g[B][5:0] into gD. -/
  | sll (o : OpA2)
  /-- SRL (R97): Shifts g[A] right by g[B][5:0] with zero fill into gD. -/
  | srl (o : OpA2)
  /-- SRA (R97): Shifts g[A] right by g[B][5:0] with sign fill into gD. -/
  | sra (o : OpA2)
  /-- SLT (R97): Writes 1 to gD when g[A] < g[B] as signed values, else 0. -/
  | slt (o : OpA2)
  /-- SLTU (R97): Writes 1 to gD when g[A] < g[B] as unsigned values, else 0. -/
  | sltu (o : OpA2)
  /-- MIN (R97): Writes the signed smaller of g[A] and g[B] to gD. -/
  | min (o : OpA2)
  /-- MAX (R97): Writes the signed larger of g[A] and g[B] to gD. -/
  | max (o : OpA2)
  /-- ADD_W (R98): Adds the low 32 bits of g[A] and g[B] and writes the sign-extended result. -/
  | addW (o : OpA2)
  /-- SUB_W (R98): Subtracts the low 32 bits and writes the sign-extended result. -/
  | subW (o : OpA2)
  /-- SLL_W (R98): 32-bit left shift by b[4:0], sign-extended. -/
  | sllW (o : OpA2)
  /-- SRL_W (R98): 32-bit logical right shift by b[4:0], sign-extended. -/
  | srlW (o : OpA2)
  /-- SRA_W (R98): 32-bit arithmetic right shift by b[4:0], sign-extended. -/
  | sraW (o : OpA2)
  /-- ADDI (R99): Writes g[A] plus the sign-extended 20-bit immediate to gD. -/
  | addi (o : OpI4)
  /-- ANDI (R99): Writes g[A] AND the sign-extended immediate to gD. -/
  | andi (o : OpI4)
  /-- ORI (R99): Writes g[A] OR the sign-extended immediate to gD. -/
  | ori (o : OpI4)
  /-- XORI (R99): Writes g[A] XOR the sign-extended immediate to gD. -/
  | xori (o : OpI4)
  /-- SLLI (R99): Shifts g[A] left by IMM[5:0]. -/
  | slli (o : OpI4)
  /-- SRLI (R99): Shifts g[A] right by IMM[5:0] with zero fill. -/
  | srli (o : OpI4)
  /-- SRAI (R99): Shifts g[A] right by IMM[5:0] with sign fill. -/
  | srai (o : OpI4)
  /-- SLTI (R99): Writes 1 when g[A] is less than the immediate as signed values. -/
  | slti (o : OpI4)
  /-- ADDI_W (R99): 32-bit add of g[A] and the immediate, sign-extended. -/
  | addiW (o : OpI4)
  /-- SLLI_W (R99): 32-bit left shift by IMM[4:0], sign-extended. -/
  | slliW (o : OpI4)
  /-- SRLI_W (R99): 32-bit logical right shift by IMM[4:0], sign-extended. -/
  | srliW (o : OpI4)
  /-- SRAI_W (R99): 32-bit arithmetic right shift by IMM[4:0], sign-extended. -/
  | sraiW (o : OpI4)
  /-- MUL (R100): Writes the low 64 bits of g[A] × g[B]. -/
  | mul (o : OpA2)
  /-- MULH (R100): Writes bits [127:64] of the signed product. -/
  | mulh (o : OpA2)
  /-- MULHU (R100): Writes bits [127:64] of the unsigned product. -/
  | mulhu (o : OpA2)
  /-- DIV (R100): Writes the signed quotient rounded toward zero, with fixed results for zero divisor and overflow. -/
  | div (o : OpA2)
  /-- DIVU (R100): Writes the unsigned quotient, all ones for a zero divisor. -/
  | divu (o : OpA2)
  /-- REM (R100): Writes the signed remainder with the dividend's sign. -/
  | rem (o : OpA2)
  /-- REMU (R100): Writes the unsigned remainder. -/
  | remu (o : OpA2)
  /-- MUL_W (R100): 32-bit multiply, sign-extended. -/
  | mulW (o : OpA2)
  /-- DIV_W (R100): 32-bit signed divide, sign-extended. -/
  | divW (o : OpA2)
  /-- DIVU_W (R100): 32-bit unsigned divide, sign-extended. -/
  | divuW (o : OpA2)
  /-- REM_W (R100): 32-bit signed remainder, sign-extended. -/
  | remW (o : OpA2)
  /-- REMU_W (R100): 32-bit unsigned remainder, sign-extended. -/
  | remuW (o : OpA2)
  /-- CLZ (R101): Counts the leading zero bits of g[A]. -/
  | clz (o : OpA2)
  /-- CTZ (R101): Counts the trailing zero bits of g[A]. -/
  | ctz (o : OpA2)
  /-- POPC (R101): Counts the set bits of g[A]. -/
  | popc (o : OpA2)
  /-- SEL (R102): Writes g[A] when g[C] is nonzero, else g[B]. -/
  | sel (o : OpV4)
  /-- LIMM_T4W (R103): Writes the sign-extended 32-bit immediate to gD. -/
  | limmT4w (o : OpW4)
  /-- LIMM_T8W (R103): Writes the 64-bit immediate to gD. -/
  | limmT8w (o : OpW8)
  /-- ADDPC (R104): Writes the instruction's own address plus a signed offset to gD. -/
  | addpc (o : OpW4)
  /-- LD (R105): Loads a value of the given width from device memory or a buffer, extended into gD, after the checks of R106. -/
  | ld (o : OpL4)
  /-- ST (R105): Stores the low bits of gD to device memory or a buffer after the checks of R106. -/
  | st (o : OpL4)
  /-- B_EQ (R112): Branches when g[A] = g[B]. -/
  | bEq (o : OpB4)
  /-- B_NE (R112): Branches when g[A] ≠ g[B]. -/
  | bNe (o : OpB4)
  /-- B_LT (R112): Branches when g[A] < g[B] signed. -/
  | bLt (o : OpB4)
  /-- B_GE (R112): Branches when g[A] ≥ g[B] signed. -/
  | bGe (o : OpB4)
  /-- B_LTU (R112): Branches when g[A] < g[B] unsigned. -/
  | bLtu (o : OpB4)
  /-- B_GEU (R112): Branches when g[A] ≥ g[B] unsigned. -/
  | bGeu (o : OpB4)
  /-- JMP (R113): Transfers to the named line and slot. -/
  | jmp (o : OpJ4)
  /-- CALL (R113): Writes the next instruction's address to gD and transfers. -/
  | call (o : OpJ4)
  /-- JMPR (R113): Transfers to the address in g[A] after writing the link to gD. -/
  | jmpr (o : OpA2)
  /-- LOOP (R114): Pushes a hardware loop entry, or skips the body when the count is zero. -/
  | loop (o : OpJ4)
  /-- VFETCH (R116): Enqueues a VP block that runs VL virtual processors from the named instruction. -/
  | vfetch (o : OpJ4)
  /-- VEND (R120): Parks the VP that reaches it; the block retires when every VP is parked. -/
  | vend
  /-- GETID (R123): Writes the selected identity coordinate to gD. -/
  | getid (o : OpW2)
  /-- CAPS (R124): Writes the capability word to gD. -/
  | caps (o : BitVec 6)
  /-- SYSRD (R125): Reads the named control register into gD. -/
  | sysrd (o : OpW2)
  /-- SYSWR (R125): Writes gD to the named control register under R61, R62 and R65. -/
  | syswr (o : OpW2)
  /-- HRET (R128): Returns from a local trap handler to EPC and clears INH. -/
  | hret
  /-- DSTOP (R127): Raises BREAKPOINT with EPC at the DSTOP. -/
  | dstop
  /-- WAITEV (R129): Suspends the slot until its event latch is set, then clears it. -/
  | waitev
  /-- CEDE (R130): Gives the other slot issue priority for 16 cycles. -/
  | cede
  /-- HALT (R130): Ends the thread after its engine commands retire. -/
  | halt
  /-- TRAP (R127): Raises SOFTWARE with SUB := code and EPC at the next instruction. -/
  | trap (o : OpW2)
  /-- VSETL (R136): Sets VL := min(g[A], VLMAX) and writes it to gD. -/
  | vsetl (o : OpA2)
  /-- VSETL_LQ (R136): Pops a length queue and sets VL from the popped count. -/
  | vsetlLq (o : OpA2)
  /-- VSETT (R137): Checks and sets VTYPE, clamps VL and returns VLMAX. -/
  | vsett (o : OpW4)
  /-- VIDX (R138): Writes the ramp START + i × STEP to active elements. -/
  | vidx (o : OpI8)
  /-- VADD (R139): Element-wise integer add. -/
  | vadd (o : OpV4)
  /-- VSUB (R139): Element-wise integer subtract. -/
  | vsub (o : OpV4)
  /-- VMUL (R139): Element-wise integer multiply, low bits. -/
  | vmul (o : OpV4)
  /-- VAND (R139): Element-wise AND. -/
  | vand (o : OpV4)
  /-- VOR (R139): Element-wise OR. -/
  | vor (o : OpV4)
  /-- VXOR (R139): Element-wise XOR. -/
  | vxor (o : OpV4)
  /-- VSLL (R139): Element-wise left shift. -/
  | vsll (o : OpV4)
  /-- VSRL (R139): Element-wise logical right shift. -/
  | vsrl (o : OpV4)
  /-- VSRA (R139): Element-wise arithmetic right shift. -/
  | vsra (o : OpV4)
  /-- VMIN (R139): Element-wise minimum, signed or unsigned. -/
  | vmin (o : OpV4)
  /-- VMAX (R139): Element-wise maximum, signed or unsigned. -/
  | vmax (o : OpV4)
  /-- VSADD (R139): Element-wise saturating add. -/
  | vsadd (o : OpV4)
  /-- VSSUB (R139): Element-wise saturating subtract. -/
  | vssub (o : OpV4)
  /-- VFADD (R140): Element-wise floating add, rounded once. -/
  | vfadd (o : OpV4)
  /-- VFSUB (R140): Element-wise floating subtract. -/
  | vfsub (o : OpV4)
  /-- VFMUL (R140): Element-wise floating multiply. -/
  | vfmul (o : OpV4)
  /-- VFDIV (R140): Element-wise floating divide. -/
  | vfdiv (o : OpV4)
  /-- VFMA (R140): Element-wise fused multiply-add. -/
  | vfma (o : OpV4)
  /-- VFMS (R140): Element-wise fused multiply-subtract. -/
  | vfms (o : OpV4)
  /-- VFMIN (R141): Element-wise floating minimum. -/
  | vfmin (o : OpV4)
  /-- VFMAX (R141): Element-wise floating maximum. -/
  | vfmax (o : OpV4)
  /-- VFSQRT (R140): Element-wise square root. -/
  | vfsqrt (o : OpV4)
  /-- VFABS (R140): Element-wise absolute value. -/
  | vfabs (o : OpV4)
  /-- VFEXP (R142): Element-wise exponential within the bound of R142. -/
  | vfexp (o : OpV4)
  /-- VFLOG (R142): Element-wise logarithm. -/
  | vflog (o : OpV4)
  /-- VFRCP (R142): Element-wise reciprocal. -/
  | vfrcp (o : OpV4)
  /-- VFRSQ (R142): Element-wise reciprocal square root. -/
  | vfrsq (o : OpV4)
  /-- VFTANH (R142): Element-wise hyperbolic tangent. -/
  | vftanh (o : OpV4)
  /-- VCVT (R144): Converts each active element between formats, with MX, BFP16 and stochastic-rounding rules. -/
  | vcvt (o : OpG8)
  /-- VCMP_EQ (R145): Integer equality compare into a mask. -/
  | vcmpEq (o : OpV4)
  /-- VCMP_NE (R145): Integer inequality compare into a mask. -/
  | vcmpNe (o : OpV4)
  /-- VCMP_LT (R145): Signed less-than compare into a mask. -/
  | vcmpLt (o : OpV4)
  /-- VCMP_GE (R145): Signed greater-or-equal compare into a mask. -/
  | vcmpGe (o : OpV4)
  /-- VCMP_LTU (R145): Unsigned less-than compare into a mask. -/
  | vcmpLtu (o : OpV4)
  /-- VCMP_GEU (R145): Unsigned greater-or-equal compare into a mask. -/
  | vcmpGeu (o : OpV4)
  /-- VFCMP_EQ (R145): Floating equality compare into a mask. -/
  | vfcmpEq (o : OpV4)
  /-- VFCMP_NE (R145): Floating inequality compare into a mask. -/
  | vfcmpNe (o : OpV4)
  /-- VFCMP_LT (R145): Floating less-than compare into a mask. -/
  | vfcmpLt (o : OpV4)
  /-- VFCMP_GE (R145): Floating greater-or-equal compare into a mask. -/
  | vfcmpGe (o : OpV4)
  /-- VFCMP_UN (R145): Unordered test into a mask. -/
  | vfcmpUn (o : OpV4)
  /-- VFCMP_ORD (R145): Ordered test into a mask. -/
  | vfcmpOrd (o : OpV4)
  /-- MAND (R146): Mask AND. -/
  | mand (o : OpA2)
  /-- MOR (R146): Mask OR. -/
  | mor (o : OpA2)
  /-- MXOR (R146): Mask XOR. -/
  | mxor (o : OpA2)
  /-- MANDN (R146): Mask AND-NOT. -/
  | mandn (o : OpA2)
  /-- MPOPC_LQ (R147): Pushes the mask's set-bit count into a length queue. -/
  | mpopcLq (o : OpA2)
  /-- MPOPC_G (R147): Returns the mask's set-bit count to gD. -/
  | mpopcG (o : OpA2)
  /-- VCOMP (R148): Compresses active elements to the front. -/
  | vcomp (o : OpV4)
  /-- VEXPD (R148): Expands leading elements to active positions. -/
  | vexpd (o : OpV4)
  /-- VSLUP (R148): Slides elements up by g[B]. -/
  | vslup (o : OpV4)
  /-- VSLDN (R148): Slides elements down by g[B]. -/
  | vsldn (o : OpV4)
  /-- VSHUF (R148): Gathers elements of A by index. -/
  | vshuf (o : OpV4)
  /-- VSPERM (R149): Applies a stride permutation by bit rotation. -/
  | vsperm (o : OpV4)
  /-- VMERGE (R148): Merges A and B under a mask at every position below VL. -/
  | vmerge (o : OpV4)
  /-- VMVX (R150): Returns element k of vA, sign-extended, to gD. -/
  | vmvx (o : OpA2)
  /-- VMVX_U (R150): Returns element k of vA, zero-extended, to gD. -/
  | vmvxU (o : OpA2)
  /-- VREDSUM (R151): Integer sum reduction into element 0. -/
  | vredsum (o : OpV4)
  /-- VREDMAX (R151): Integer maximum reduction. -/
  | vredmax (o : OpV4)
  /-- VREDMIN (R151): Integer minimum reduction. -/
  | vredmin (o : OpV4)
  /-- VFREDSUM (R41): Floating sum reduction by the fixed pairwise tree. -/
  | vfredsum (o : OpV4)
  /-- VFREDMAX (R151): Floating maximum reduction. -/
  | vfredmax (o : OpV4)
  /-- VFREDMIN (R151): Floating minimum reduction. -/
  | vfredmin (o : OpV4)
  /-- VARGMAX (R152): Value and index of the maximum. -/
  | vargmax (o : OpV4)
  /-- VARGMIN (R152): Value and index of the minimum. -/
  | vargmin (o : OpV4)
  /-- VSCAN (R153): Left-to-right prefix scan. -/
  | vscan (o : OpV4)
  /-- VSEGSUM (R153): Sums segments of active elements delimited by a head mask. -/
  | vsegsum (o : OpV4)
  /-- VSORTK (R154): Stable ascending sort of unsigned keys. -/
  | vsortk (o : OpV4)
  /-- VSORTK_P (R154): Stable key sort carrying a payload. -/
  | vsortkP (o : OpV4)
  /-- VUNIQ (R155): Marks run heads and compacts distinct keys. -/
  | vuniq (o : OpV4)
  /-- VLD (R156): Unit-stride or packed vector load. -/
  | vld (o : OpM4)
  /-- VLDS (R156): Strided vector load. -/
  | vlds (o : OpM4)
  /-- VLDX (R156): Indexed vector load. -/
  | vldx (o : OpM4)
  /-- VLDBP (R157): Bit-plane load of PLN planes. -/
  | vldbp (o : OpM4)
  /-- VLDK (R156): Loads scale-register entries. -/
  | vldk (o : OpM4)
  /-- VLDW (R156): Loads twiddle-register entries. -/
  | vldw (o : OpM4)
  /-- VST (R156): Unit-stride or packed vector store. -/
  | vst (o : OpM4)
  /-- VSTS (R156): Strided vector store. -/
  | vsts (o : OpM4)
  /-- VSTX (R156): Indexed vector store. -/
  | vstx (o : OpM4)
  /-- VSTBP (R157): Bit-plane store. -/
  | vstbp (o : OpM4)
  /-- VSCADD (R160): Return-free scatter-add of each active element at its home. -/
  | vscadd (o : OpM4)
  /-- VAMO_ADD (R162): Vector of indivisible integer adds. -/
  | vamoAdd (o : OpVA)
  /-- VAMO_AND (R162): Vector of indivisible ANDs. -/
  | vamoAnd (o : OpVA)
  /-- VAMO_OR (R162): Vector of indivisible ORs. -/
  | vamoOr (o : OpVA)
  /-- VAMO_XOR (R162): Vector of indivisible XORs. -/
  | vamoXor (o : OpVA)
  /-- VAMO_MIN (R162): Vector of indivisible signed minima. -/
  | vamoMin (o : OpVA)
  /-- VAMO_MAX (R162): Vector of indivisible signed maxima. -/
  | vamoMax (o : OpVA)
  /-- VAMO_MINU (R162): Vector of indivisible unsigned minima. -/
  | vamoMinu (o : OpVA)
  /-- VAMO_MAXU (R162): Vector of indivisible unsigned maxima. -/
  | vamoMaxu (o : OpVA)
  /-- VAMO_FADD (R162): Vector of indivisible binary32 adds. -/
  | vamoFadd (o : OpVA)
  /-- VAMO_BFADD (R162): Vector of indivisible BF16 adds at bank ALUs. -/
  | vamoBfadd (o : OpVA)
  /-- VAMO_SWAP (R162): Vector of indivisible swaps. -/
  | vamoSwap (o : OpVA)
  /-- VAMO_CAS (R162): Vector of indivisible compare-and-swaps. -/
  | vamoCas (o : OpVA)
  /-- OPACC (R169): One outer-product step accumulated into a tile. -/
  | opacc (o : OpM8)
  /-- OPSUB (R169): One outer-product step with negated products. -/
  | opsub (o : OpM8)
  /-- MZERO (R170): Takes a free physical tile and sets every element to +0. -/
  | mzero (o : BitVec 6)
  /-- MLDT (R171): Loads a tile image into a new physical tile. -/
  | mldt (o : OpMT)
  /-- MSTT (R171): Stores a tile image. -/
  | mstt (o : OpMT)
  /-- MROWV (R173): Moves a tile row into a vector register. -/
  | mrowv (o : OpV4)
  /-- MVROW (R173): Moves a vector register into a tile row. -/
  | mvrow (o : OpV4)
  /-- MCOLV (R173): Moves a tile column into a vector register. -/
  | mcolv (o : OpV4)
  /-- MVCOL (R173): Moves a vector register into a tile column. -/
  | mvcol (o : OpV4)
  /-- MCHAIN (R174): Replaces the function-node chain configuration at dispatch. -/
  | mchain (o : OpG8)
  /-- MDRAIN (R175): Drains a tile through the chain, converted, to memory. -/
  | mdrain (o : OpG8)
  /-- MDRAIN_STREAM (R176): Drains a tile through the chain as tokens to a stream port. -/
  | mdrainStream (o : OpG8)
  /-- MSETC (R177): Replaces a function node's constant at dispatch. -/
  | msetc (o : OpG8)
  /-- MTILE (R179): Expands into K/Kd outer-product steps from buffer panels. -/
  | mtile (o : OpG8)
  /-- BFY (R184): Radix-2 butterflies between two vector registers. -/
  | bfy (o : OpG8)
  /-- BPASS (R186): One butterfly pass over an A-buffer array, in place or to a port. -/
  | bpass (o : OpG8)
  /-- BPERM (R188): Rotation permutation of an array. -/
  | bperm (o : OpG8)
  /-- BPERM_REV (R188): Bit-reversal permutation of an array. -/
  | bpermRev (o : OpG8)
  /-- TWGEN_CPLX (R190): Generates complex twiddle entries. -/
  | twgenCplx (o : OpG8)
  /-- TWGEN_MOD (R190): Generates modular twiddle pairs. -/
  | twgenMod (o : OpG8)
  /-- BFPNORM (R191): Normalises BFP16 blocks into the stage-entry range. -/
  | bfpnorm (o : OpG8)
  /-- TXF (R192): Whole transform of N points in stages. -/
  | txf (o : OpG8)
  /-- NADD (R195): Modular add. -/
  | nadd (o : OpV4)
  /-- NSUB (R195): Modular subtract. -/
  | nsub (o : OpV4)
  /-- NMUL (R195): Modular multiply of two residues. -/
  | nmul (o : OpV4)
  /-- NMUL_W (R31): Modular multiply by a twiddle pair. -/
  | nmulW (o : OpV4)
  /-- NBFY (R196): Modular butterfly into vD and vD+1. -/
  | nbfy (o : OpV4)
  /-- NCRT (R197): Chinese-remainder combination into 64-bit results. -/
  | ncrt (o : OpV4)
  /-- NFROM (R195): Signed value to residue. -/
  | nfrom (o : OpV4)
  /-- NTO (R195): Residue to signed value. -/
  | nto (o : OpV4)
  /-- NMODSET (R198): Sets MODQ at commit. -/
  | nmodset (o : OpA2)
  /-- NCHK (R199): Traps MOD_BOUND when N × Ba × Bb ≥ (q-1)/2. -/
  | nchk (o : OpA2)
  /-- VCMUL (R200): Complex multiply of element pairs. -/
  | vcmul (o : OpV4)
  /-- VCMUL_CJ (R200): Complex multiply by the conjugate. -/
  | vcmulCj (o : OpV4)
  /-- GCFG (R221): Replaces every node's configuration. -/
  | gcfg (o : OpG8)
  /-- GSTART (R222): Checks, binds and starts the graph. -/
  | gstart (o : OpG8)
  /-- GSTOP (R224): Stops or tears down the graph by state. -/
  | gstop (o : OpG8)
  /-- GWAIT (R223): Holds commit until the graph is not running. -/
  | gwait (o : OpG8)
  /-- GRESET (R224): Empties and resets the graph. -/
  | greset (o : OpG8)
  /-- GNODE (R221): Replaces one node's configuration. -/
  | gnode (o : OpG8)
  /-- GSTAT (R225): Returns a port, node or graph status word. -/
  | gstat (o : OpA2)
  /-- GQUIET (R235): Returns the emptiness detector word. -/
  | gquiet (o : OpA2)
  /-- SUNB (R226): Unbinds a port and discards its flits. -/
  | sunb (o : OpG8)
  /-- SBIND_VEC (R226): Binds a vector-to-vector port. -/
  | sbindVec (o : OpG8)
  /-- SBIND_PAT (R226): Binds a port to an access pattern. -/
  | sbindPat (o : OpG8)
  /-- SBIND_NIN (R226): Binds a port to a node input. -/
  | sbindNin (o : OpG8)
  /-- SBIND_NOUT (R226): Binds a port to a node output. -/
  | sbindNout (o : OpG8)
  /-- SBIND_NBR (R227): Binds a port to a neighbour link. -/
  | sbindNbr (o : OpG8)
  /-- SBIND_RTR (R227): Binds a port to the die network. -/
  | sbindRtr (o : OpG8)
  /-- SBIND_BFY (R226): Binds a port to the butterfly unit output. -/
  | sbindBfy (o : OpG8)
  /-- SBIND_ARR (R226): Binds a port to the array result port. -/
  | sbindArr (o : OpG8)
  /-- SPAT (R228): Writes a pattern slot. -/
  | spat (o : OpG8)
  /-- SPUSHV (R230): Pushes active elements as tokens. -/
  | spushv (o : OpV4)
  /-- SPOPV (R230): Pops element tokens into a vector register. -/
  | spopv (o : OpV4)
  /-- SPOPK (R230): Pops tokens of any kind with a kind mask. -/
  | spopk (o : OpV4)
  /-- STOK (R231): Pushes one token of a given kind. -/
  | stok (o : OpA2)
  /-- SDONE (R231): Pushes done. -/
  | sdone (o : OpA2)
  /-- SRANK (R231): Sets a port's declared rank. -/
  | srank (o : OpA2)
  /-- SPOPG (R232): Pops one token into gD. -/
  | spopg (o : OpA2)
  /-- RSTAGE (R233): Sets a router stage on a die-network port. -/
  | rstage (o : OpG8)
  /-- CPY (R251): Strided copy. -/
  | cpy (o : OpG8)
  /-- CPYT (R252): Transposing copy. -/
  | cpyt (o : OpG8)
  /-- CPYG (R253): Row-gather copy. -/
  | cpyg (o : OpG8)
  /-- CPYZ (R255): LZ4 decode and CRC32C check copy. -/
  | cpyz (o : OpG8)
  /-- BARRIVE (R258): Enqueues a barrier arrival marker. -/
  | barrive (o : OpA2)
  /-- VLDG (R260): Gang strip load. -/
  | vldg (o : OpM4)
  /-- BRULE (R347): Loads a rule program into a slot. -/
  | brule (o : OpG8)
  /-- BWALK (R266): Starts one walk per active lane. -/
  | bwalk (o : OpG8)
  /-- HALLOC (R243): Gives a handle a buffer region. -/
  | halloc (o : OpA2)
  /-- HFREE (R243): Frees a handle's region. -/
  | hfree (o : OpA2)
  /-- HGIVE (R243): Releases a region and posts an offer. -/
  | hgive (o : OpA2)
  /-- HTAKE (R243): Takes an offered region and acquires. -/
  | htake (o : OpA2)
  /-- BINIT (R257): Initialises a barrier object. -/
  | binit (o : OpA2)
  /-- BEXPECT (R257): Adds bytes awaited to BREM. -/
  | bexpect (o : OpA2)
  /-- HWAIT (R245): Stalls until the handle is free, full or landed to n. -/
  | hwait (o : OpA2)
  /-- HSTAT (R245): Returns the handle word. -/
  | hstat (o : OpA2)
  /-- AMO_ADD (R110): Indivisible integer add at the home, returning the old value. -/
  | amoAdd (o : OpAM)
  /-- AMO_AND (R110): Indivisible AND at the home, returning the old value. -/
  | amoAnd (o : OpAM)
  /-- AMO_OR (R110): Indivisible OR at the home, returning the old value. -/
  | amoOr (o : OpAM)
  /-- AMO_XOR (R110): Indivisible XOR at the home, returning the old value. -/
  | amoXor (o : OpAM)
  /-- AMO_MIN (R110): Indivisible signed minimum at the home. -/
  | amoMin (o : OpAM)
  /-- AMO_MAX (R110): Indivisible signed maximum at the home. -/
  | amoMax (o : OpAM)
  /-- AMO_MINU (R110): Indivisible unsigned minimum at the home. -/
  | amoMinu (o : OpAM)
  /-- AMO_MAXU (R110): Indivisible unsigned maximum at the home. -/
  | amoMaxu (o : OpAM)
  /-- AMO_FADD (R110): Indivisible binary32 add rounded once in RNE at the home. -/
  | amoFadd (o : OpAM)
  /-- AMO_BFADD (R110): Indivisible BF16 add at a bank ALU home. -/
  | amoBfadd (o : OpAM)
  /-- AMO_SWAP (R110): Indivisible swap at the home, returning the old value. -/
  | amoSwap (o : OpAM)
  /-- AMO_CAS (R110): Indivisible compare-and-swap at the home, returning the old value. -/
  | amoCas (o : OpAM)
  /-- BWAIT (R257): Stalls until the phase bit changes, then acquires. -/
  | bwait (o : OpA2)
  /-- BTEST (R257): Returns the barrier's upper word, acquiring on a flip. -/
  | btest (o : OpA2)
  /-- GANGON (R259): Rendezvous forming a gang. -/
  | gangon (o : OpA2)
  /-- GANGOFF (R259): Rendezvous dissolving a gang. -/
  | gangoff (o : OpA2)
  /-- PHASE (R262): Release then acquire at the scope. -/
  | phase (o : BitVec 3)
  /-- FENCE_E (R262): Waits until older engine commands retire. -/
  | fenceE
  /-- NMFENCE (R262): Waits until return-free operations are performed. -/
  | nmfence
  /-- COLL (R264): Releases and starts a collective. -/
  | coll (o : OpA2)
  /-- CCWAIT (R264): Waits for the chunk counter or DONE, then acquires. -/
  | ccwait (o : OpA2)
  /-- CCREAD (R264): Acquires and returns the block STATUS. -/
  | ccread (o : OpA2)
  /-- TQPUSH (R268): Appends an item to a stage queue. -/
  | tqpush (o : OpA2)
  /-- TQPOP (R285): Pops or steals a stage-queue item. -/
  | tqpop (o : OpA2)
  /-- LAUNCH (R269): Queues a child launch. -/
  | launch (o : OpA2)
  /-- JOIN (R270): Waits for children and returns counts. -/
  | join (o : OpA2)
  /-- SQPOST (R271): Releases, forwards SQ entries, rings doorbell. -/
  | sqpost (o : OpA2)
  /-- CQPOLL (R271): Checks the CQ head phase, acquires and consumes. -/
  | cqpoll (o : OpA2)
  /-- VP_GROUP_ISSUE (R120): The vector unit issues one lane instruction for one diverged group of VPs, round-robin. -/
  | vpGroupIssue (cl core : Nat)
  /-- WAITEV_TIMEOUT (R129): 65,536 cycles after a WAITEV began, the event latch is set. -/
  | waitevTimeout (cl core slot : Nat)
  /-- MTILE_STEP (R179): The matrix channel applies one k-step of a running MTILE. -/
  | mtileStep (cl core : Nat)
  /-- TXF_STAGE (R192): The butterfly channel runs one stage of a running TXF. -/
  | txfStage (cl core : Nat)
  /-- SCANNER_FIRE (R213): A scanner emits the next coordinate/reference or stop. -/
  | scannerFire (cl core node : Nat)
  /-- JOINER_FIRE (R214): A joiner compares heads and acts by its table. -/
  | joinerFire (cl core node : Nat)
  /-- REPEATER_FIRE (R216): A repeater emits its held item per shape token. -/
  | repeaterFire (cl core node : Nat)
  /-- REDUCER_FIRE (R217): A reducer folds a value or emits at a stop. -/
  | reducerFire (cl core node : Nat)
  /-- FUNCTION_FIRE (R218): A function node applies its mode to one element. -/
  | functionFire (cl core node : Nat)
  /-- FETCH_REPLY (R218): A FETCH node's memory reply arrives and is emitted. -/
  | fetchReply (cl core node : Nat)
  /-- WRITER_FIRE (R219): A writer writes one element or SEG word. -/
  | writerFire (cl core node : Nat)
  /-- PATTERN_READ (R229): A reading pattern emits one element token. -/
  | patternRead (cl core port : Nat)
  /-- PATTERN_WRITE (R229): A writing pattern writes one element. -/
  | patternWrite (cl core port : Nat)
  /-- LINK_FLIT (R305): A flit crosses a neighbour link. -/
  | linkFlit (cl core link : Nat)
  /-- ROUTER_FLIT (R308): A flit enters a router queue; reduce, filter or multicast applies. -/
  | routerFlit (cl index : Nat)
  /-- FLIT_ARRIVE (R227): An arriving flit passes to a matching DIR 0 binding. -/
  | flitArrive (cl core port : Nat)
  /-- SLOT_CREDIT_RETURN (R235): A slot credit reaches its producer. -/
  | slotCreditReturn (cl core : Nat)
  /-- COPY_ELEMENT_LAND (R240): A copy element is written; LANDED rises and the barrier is debited. -/
  | copyElementLand (cl core qpos elem : Nat)
  /-- COPY_COMPLETE (R240): A copy completes; the handle turns full or free. -/
  | copyComplete (cl core qpos : Nat)
  /-- BARRIVE_FIRE (R258): The marker fires when stores are visible and decrements AREM. -/
  | barriveFire (cl core qpos : Nat)
  /-- VLDG_DELIVER (R260): The rank-0 strip lands in a member's register. -/
  | vldgDeliver (cl core : Nat)
  /-- COLL_CHUNK_COMPLETE (R333): A destination chunk is visible; the counter is written. -/
  | collChunkComplete (num : Nat)
  /-- COLL_TRAFFIC_TIMEOUT (R333): Needed traffic missing for 2^24 cycles ends the collective with code 3. -/
  | collTrafficTimeout (num : Nat)
  /-- ADVERTISEMENT_ARRIVE (R315): A rank's side-information advertisement reaches a hub. -/
  | advertisementArrive (num : Nat)
  /-- CODING_QUEUE_HEAD (R316): A block packet at the coding queue front is sent coded or uncoded. -/
  | codingQueueHead
  /-- CODED_PACKET_DECODE (R319): The receiver's hub decodes or parks a coded packet. -/
  | codedPacketDecode (index : Nat)
  /-- AWAITED_BLOCK_FILL (R319): An AWAITED block fills and parked packets decode. -/
  | awaitedBlockFill (index : Nat)
  /-- DECODE_TIMEOUT (R319): A parked packet times out after 2^20 cycles as SIDE_MISS. -/
  | decodeTimeout (index : Nat)
  /-- FALLBACK_REQUEST (R320): CHUB sends the original uncoded. -/
  | fallbackRequest (index : Nat)
  /-- CODED_ACK (R318): A receiver acknowledgement; both release the retransmit entry. -/
  | codedAck (index : Nat)
  /-- EXPERT_TOKEN_SEND (R325): A sender hub sends a token toward a chosen replica. -/
  | expertTokenSend (num replica : Nat)
  /-- ROW_REQUEST (R326): The arbiter grants or refuses a row. -/
  | rowRequest (index : Nat)
  /-- ROW_REFUSED (R326): A refusal returns; next replica tried or overflow. -/
  | rowRefused (index : Nat)
  /-- EXPERT_COMBINE_ROW (R328): A returned row is written at the origin. -/
  | expertCombineRow (num row : Nat)
  /-- HUB_TRANSLATION_FAULT (R446): A hub collective access faults; record written. -/
  | hubTranslationFault (num va : Nat)
  /-- WALK_STEP (R345): A walk executes one rule. -/
  | walkStep (index : Nat)
  /-- WALK_MIGRATE (R349): A walk is delivered to an engine of another stack. -/
  | walkMigrate (index : Nat)
  /-- MIGRATION_TIMEOUT (R349): Undelivered for 65,536 cycles; ends DROPPED. -/
  | migrationTimeout (index : Nat)
  /-- MOV_WAIT_TIMEOUT (R350): Waited 2^20 cycles on MOV; ends DROPPED. -/
  | movWaitTimeout (index : Nat)
  /-- BLOCK_MOV_ACK (R352): Base dies acknowledge MOV after loads finish. -/
  | blockMovAck (entry : Nat)
  /-- WALK_REGION_COMMIT (R343): Writing the high word commits a descriptor. -/
  | walkRegionCommit (ctx region high : Nat)
  /-- SLICE_OPERATION (R336): An operation arrives at a slice and is performed. -/
  | sliceOperation (index : Nat)
  /-- COMBINING_FILL (R338): The line read returns; waiting updates apply. -/
  | combiningFill (line : Nat)
  /-- COMBINING_RELEASE (R338): Clean-held 1,024 cycles; entry released. -/
  | combiningRelease (line : Nat)
  /-- RETURN_FREE_ACK (R340): A home acknowledges one element; RFOUT decrements. -/
  | returnFreeAck (cl core slot : Nat)
  /-- STAGE_AGE_EXPIRY (R282): A queue holds an item 1,024 cycles without pop. -/
  | stageAgeExpiry (cl core stage : Nat)
  /-- STAGE_INSTANCE_START (R282): The scheduler starts a stage instance. -/
  | stageInstanceStart (cl core stage : Nat)
  /-- INSTANCE_RETIRE (R283): After 2,048 cycles waiting on empty queues, an instance retires. -/
  | instanceRetire (cl core slot : Nat)
  /-- COMMAND_DISPATCH (R276): An engine dispatches its next command. -/
  | commandDispatch (cl core engine : Nat)
  /-- COMMAND_RETIRE (R275): A command retires; flags OR into STATUS. -/
  | commandRetire (cl core qpos : Nat)
  /-- MACRO_STOP (R287): A macro command stops at its stop point on request. -/
  | macroStop (cl core engine : Nat)
  /-- GROUP_START (R273): A group starts on a free allowed cluster. -/
  | groupStart
  /-- LAUNCH_ADMIT (R370): The hub admits the first-ranked candidate. -/
  | launchAdmit
  /-- LAUNCH_COMPLETE (R374): Ended launch waits for RFOUT, releases, writes record. -/
  | launchComplete (seq : Nat)
  /-- PREEMPT_REQUEST (R375): A pre-emption request stops commit; from 64 on it is the operating system's, of cluster cl modulo 64. -/
  | preemptRequest (cl : Nat)
  /-- NODE_CUT (R377): A node with markers is cut and saved. -/
  | nodeCut (cl core node : Nat)
  /-- GROUP_SAVE (R379): After the drain, state is written to save area; from 64 on a transfer fails, of cluster cl modulo 64. -/
  | groupSave (cl area : Nat)
  /-- GROUP_RESTORE (R376): A group is restored; from 64 on a transfer fails, on cluster cl modulo 64. -/
  | groupRestore (cl index : Nat)
  /-- LNQ_START (R367): Writing STATE 01 starts or restarts a queue. -/
  | lnqStart (queue value : Nat)
  /-- LNQ_DESTROY (R369): Writing STATE 11 destroys a queue. -/
  | lnqDestroy (queue : Nat)
  /-- LNQ_TAIL (R367): A TAIL write advances or records overrun. -/
  | lnqTail (queue value : Nat)
  /-- LNQ_PACKET_READ (R367): The hub reads the head packet. -/
  | lnqPacketRead (queue : Nat)
  /-- TRAP_RECORD_WRITE (R381): A pending record is written when room exists. -/
  | trapRecordWrite (cl core slot : Nat)
  /-- TRQ_CONSUME (R381): Host advances CONS. -/
  | trqConsume (value : Nat)
  /-- REPLAY (R384): Releases held commands and resumes at EPC. -/
  | replay (cl core slot ctx arg : Nat)
  /-- RESUME (R384): Discards held commands and resumes at address. -/
  | resume (cl core slot ctx arg : Nat)
  /-- STEP (R384): Commits one instruction and stops with BREAKPOINT. -/
  | stepOne (cl core slot ctx arg : Nat)
  /-- END (R384): Ends the stopped thread. -/
  | endThread (cl core slot ctx arg : Nat)
  /-- KILL (R378): Kills every thread of the context. -/
  | kill (ctx : Nat)
  /-- TLBINV_PAGE_64K (R397): Invalidates one 64 KiB page. -/
  | tlbinvPage64k (ctx va : Nat)
  /-- TLBINV_PAGE_128M (R397): Invalidates one 128 MiB page. -/
  | tlbinvPage128m (ctx va : Nat)
  /-- TLBINV_PAGE_256G (R397): Invalidates one 256 GiB page. -/
  | tlbinvPage256g (ctx va : Nat)
  /-- TLBINV_CONTEXT (R397): Invalidates a whole context. -/
  | tlbinvContext (ctx : Nat)
  /-- TLBINV_ALL (R397): Invalidates every context. -/
  | tlbinvAll
  /-- TLBINV_DONE (R397): Invalidation ends; AGE rises; BUSY clears. -/
  | tlbinvDone
  /-- HUSKIN (R399): Appends a freed frame stamped with AGE. -/
  | huskin (value : Nat)
  /-- HUSKOUT (R399): Read pops the oldest quiesced frame. -/
  | huskout
  /-- NVQ_START (R411): Writing STATE 01 starts a pair. -/
  | nvqStart (pair value : Nat)
  /-- NVQ_DESTROY (R415): Writing STATE 11 destroys a pair. -/
  | nvqDestroy (pair : Nat)
  /-- NVQ_DESTROY_DONE (R415): Pair returns to 00. -/
  | nvqDestroyDone (pair byHost : Nat)
  /-- DRIVE_ACCESS (R412): A drive access is translated or refused. -/
  | driveAccess (port addr size write data : Nat)
  /-- PEER_ACCESS_ARRIVE (R405): A peer access is admitted or refused. -/
  | peerAccessArrive (port kind addr size data : Nat)
  /-- ECC_CORRECTED (R423): A corrected error is logged. -/
  | eccCorrected (unit loc ctx : Nat)
  /-- ECC_UNCORRECTABLE (R424): Uncorrectable unit zero-filled and charged. -/
  | eccUncorrectable (unit loc cl core charged : Nat)
  /-- LINK_CRC_FAIL (R423): A CRC-failing flit is retransmitted. -/
  | linkCrcFail (unit port : Nat)
  /-- SELF_TEST_END (R428): A targeted test ends with a verdict. -/
  | selfTestEnd (unit loc mismatch : Nat)
  /-- WEAR_ROTATION (R429): After 2^43 cycles a spare swap is made. -/
  | wearRotation (cl : Nat)
  /-- HBM_SCRUB (R431): A scrub of a line. -/
  | hbmScrub (line verdict : Nat)
  /-- BUFFER_SCRUB (R431): A scrub of a buffer or cache granule. -/
  | bufferScrub (cl core unit granule verdict : Nat)
  /-- PHY_CALIBRATION (R431): HBM PHY channel calibration. -/
  | phyCalibration (channel : Nat)
  /-- SERDES_CALIBRATION (R431): Lane calibration. -/
  | serdesCalibration (port lane : Nat)
  /-- TELEMETRY_SNAPSHOT (R431): Counters copied every 2^20 cycles. -/
  | telemetrySnapshot
  /-- ELG_CONSUME (R426): Host advances error-log CONS or clears LOST. -/
  | elgConsume (value : Nat)
  /-- THERMAL_SAMPLE (R443): Sensor sampled; bands applied. -/
  | thermalSample (celsius : Nat)
  /-- THERMTRIP (R443): At 120 °C power is removed. -/
  | thermtrip (celsius : Nat)
  /-- THROTTLE_UPDATE (R442): Power averaged and level chosen. -/
  | throttleUpdate (level : Nat)
  /-- TRIM_STEP (R441): Trim moves one step. -/
  | trimStep (rail up : Nat)
  /-- POWER_UP (R440): Rails settle and reset released. -/
  | powerUp
  /-- RESET (R433): Reset starts the boot chain at stage 0. -/
  | resetPin (cause : Nat)
  /-- BOOT_STAGE (R435): A stage verifies, measures, runs next image. -/
  | bootStage (image agent : Nat)
  /-- HZLOAD (R437): Verifies and stages a hazel image. -/
  | hzload (value : Nat)
  /-- HZ_SLOT_REPLACE (R437): Staged image replaces slot. -/
  | hzSlotReplace
  /-- MREGXGO (R444): Extends an MREG register. -/
  | mregxgo (value : Nat)
  /-- REDFISH_QUOTE (R438): Agent returns signed quote. -/
  | redfishQuote (nonce : Nat)
  /-- ROLLBACK_ADVANCE (R435): Rollback counter raised via Redfish. -/
  | rollbackAdvance (kind value : Nat)
  /-- REGISTER_WRITE (R401): A host write to a register with no row of its own. -/
  | registerWrite (offset value : Nat)
  /-- PCIE_EQUALISATION (R431): A PCIe root port runs link equalisation as PCIe 6.0 requires, on its own schedule. -/
  | pcieEqualisation (port : Nat)
  deriving DecidableEq, Repr

end Sys2Proof
end

