-- ==== Sys2Proof/WellFormed.lean ====
section
/-! DEFINITION. Which operand fields a form admits outside a VP block (R74, R77 to R84 and the instruction pages): the
first reserved field of an instruction, if any, and what kind of field it is. -/

namespace Sys2Proof

/-- Why an encoding is not an instruction, the rows of R74 that raise ILLEGAL_INSTRUCTION. -/
inductive Reject where
  /-- the major opcode is unassigned (SUB 0x01) -/
  | unassigned
  /-- the tail class is not permitted for the major (SUB 0x02) -/
  | badTc
  /-- a reserved F7 value (SUB 0x03) -/
  | badF7
  /-- a reserved tail value (SUB 0x04) -/
  | badTail
  deriving DecidableEq, Repr

/-- The subcode of R74 for a rejected encoding. -/
def Reject.sub : Reject → BitVec 8
  | .unassigned => 0x01
  | .badTc => 0x02
  | .badF7 => 0x03
  | .badTail => 0x04

/-- The first listed defect whose condition holds. -/
def firstOf : List (Bool × Reject) → Option Reject
  | [] => none
  | (true, r) :: _ => some r
  | (false, _) :: rest => firstOf rest

/-- Bits [lo + w − 1 : lo] of IMM32 as a number. -/
def immf (i : BitVec 32) (lo w : Nat) : Nat := (i.extractLsb' lo w).toNat

/-- LEN codes 001 to 011 are reserved (R79). -/
def lenBad (l : BitVec 3) : Bool := l == 1#3 || l == 2#3 || l == 3#3

/-- SPC codes 100 to 111 are reserved (R79). -/
def spcBad (s : BitVec 3) : Bool := 4 ≤ s.toNat

/-- The register numbers of R61. -/
def sysRegListed (n : Nat) : Bool := n ≤ 0x0A || (0x10 ≤ n && n ≤ 0x12)

/-- The combinations of OP, SZ and SPC that R109 calls legal. -/
def amoLegal (op : Nat) (sz : BitVec 2) (spc : BitVec 3) : Bool :=
  if op == 8 then sz == 1#2
  else if op == 9 then sz == 0#2 && spc != 0#3
  else sz == 1#2 || sz == 2#2

/-- The 8-bit group of R166: format codes 0x4 to 0xA. -/
def fmt8 (f : Nat) : Bool := 4 ≤ f && f ≤ 0xA

/-- The operand format pairs of an outer product (R166). -/
def pairLegal (fa fb : Nat) : Bool := (fmt8 fa && fmt8 fb) || (fa == fb && fa ≤ 3)

/-- T8M of OPACC and OPSUB (R168); a format pair outside R166 is a reserved value (DESIGN CHOICE, log 82). -/
def OpM8.defect (o : OpM8) : Option Reject :=
  firstOf [(4 ≤ o.d.toNat, .badF7), (!pairLegal o.fa.toNat o.fb.toNat, .badTail),
    (o.fa == 0#4 && (o.va.toNat % 2 == 1), .badTail), (lenBad o.la || lenBad o.lb, .badTail)]

/-- T4L of LD and ST (R105). -/
def OpL4.defect (o : OpL4) (store : Bool) : Option Reject :=
  firstOf [(32 ≤ o.d.toNat, .badF7), (spcBad o.spc, .badTail),
    (o.wid == 7#3 || (store && 4 ≤ o.wid.toNat), .badTail)]

/-- T4A of AMO (R109). -/
def OpAM.defect (o : OpAM) (op : Nat) : Option Reject :=
  firstOf [(32 ≤ o.d.toNat, .badF7), (spcBad o.spc || !amoLegal op o.sz o.spc, .badTail),
    (op != 11 && o.cmp != 0#5, .badTail)]

/-- T8G of VAMO (R161). -/
def OpVA.defect (o : OpVA) (op : Nat) : Option Reject :=
  firstOf [(lenBad o.len || spcBad o.spc || !amoLegal op o.sz o.spc, .badTail), (op != 11 && o.c != 0#6, .badTail),
    (!o.ret && o.d != 0#6, .badTail), (32 ≤ o.base.toNat, .badTail)]

/-- Fields that only bear zero in a T8G form. -/
def OpG8.mlBad (o : OpG8) : Bool := o.msk != 0#3 || o.len != 0#3

/-- VCVT (R143): scale register, integer marks and the format fields. -/
def OpG8.defectVcvt (o : OpG8) : Option Reject :=
  let src := immf o.imm 0 4
  let tgt := immf o.imm 4 4
  let sInt := o.c.extractLsb' 0 1 == 1#1
  let tInt := o.c.extractLsb' 1 1 == 1#1
  let sUns := o.c.extractLsb' 2 1 == 1#1
  let tUns := o.c.extractLsb' 3 1 == 1#1
  let bad (i : Bool) (f : Nat) := if i then 3 < f else 0xC ≤ f
  let scaled (i : Bool) (f : Nat) := !i && ((4 ≤ f && f ≤ 9) || f == 0xB)
  firstOf [(bad sInt src || bad tInt tgt, .badTail), ((sUns && !sInt) || (tUns && !tInt), .badTail),
    (o.c.extractLsb' 4 2 != 0#2, .badTail), (16 ≤ o.b.toNat, .badTail),
    (o.b != 0#6 && !(scaled sInt src || scaled tInt tgt), .badTail), (lenBad o.len, .badTail),
    (o.imm.extractLsb' 14 18 != 0#18, .badTail), (5 ≤ immf o.imm 8 3, .badTail)]

/-- The function nodes that an MCHAIN tail names, in chain order, up to the first clear nibble (R174). -/
def chainNodes (imm : BitVec 32) : List (BitVec 3) :=
  (go 8 0)
where
  go : Nat → Nat → List (BitVec 3)
    | 0, _ => []
    | f + 1, n => if imm.extractLsb' (4 * n + 3) 1 == 1#1 then imm.extractLsb' (4 * n) 3 :: go f (n + 1) else []

/-- MCHAIN (R174): no node twice, nothing after the end. -/
def OpG8.defectMchain (o : OpG8) : Option Reject :=
  let ns := chainNodes o.imm
  firstOf [(o.d != 0#6, .badF7), (o.a != 0#6 || o.b != 0#6 || o.c != 0#6 || o.mlBad, .badTail),
    (o.imm.toNat / 16 ^ ns.length != 0, .badTail), (decide (¬ ns.Nodup), .badTail)]

/-- MDRAIN to memory or to a port (R175, R176). -/
def OpG8.defectMdrain (o : OpG8) (stream : Bool) : Option Reject :=
  firstOf [(o.d != 0#6, .badF7), (4 ≤ o.a.toNat || o.mlBad || o.imm.extractLsb' 10 22 != 0#22, .badTail),
    ((o.imm.extractLsb' 7 1 == 1#1) != stream, .badTail), (6 ≤ immf o.imm 0 4, .badTail),
    (stream && (o.b != 0#6 || immf o.imm 4 3 != 0 || 16 ≤ o.c.toNat), .badTail),
    (!stream && (o.c != 0#6 || immf o.imm 9 1 != 0 || 32 ≤ o.b.toNat || 4 ≤ immf o.imm 4 3), .badTail)]

/-- MSETC (R177). -/
def OpG8.defectMsetc (o : OpG8) : Option Reject :=
  firstOf [(o.d != 0#6, .badF7), (8 ≤ o.a.toNat || o.mlBad || 2 ≤ o.c.toNat, .badTail),
    (o.c == 0#6 && o.b != 0#6, .badTail), (o.c == 1#6 && (32 ≤ o.b.toNat || o.imm != 0#32), .badTail)]

/-- MTILE (R178, R180): the pairs of R166 without 0xA; another pair is a reserved value (log 82). -/
def OpG8.defectMtile (o : OpG8) : Option Reject :=
  let fa := immf o.imm 28 4
  let fb := immf o.imm 24 4
  firstOf [(4 ≤ o.d.toNat, .badF7), (32 ≤ o.a.toNat || 32 ≤ o.b.toNat || 32 ≤ o.c.toNat || o.mlBad, .badTail),
    (!pairLegal fa fb || fa == 0xA || fb == 0xA, .badTail), (immf o.imm 14 2 != 0, .badTail),
    (95 < immf o.imm 7 7 || (fa == 0 && 47 < immf o.imm 7 7), .badTail)]

/-- BFY (R184). -/
def OpG8.defectBfy (o : OpG8) : Option Reject :=
  let f := immf o.imm 0 4
  firstOf [(o.d != 0#6, .badF7), (o.a == o.b || 8 ≤ o.c.toNat || lenBad o.len, .badTail),
    (!(f == 1 || f == 2 || f == 3 || f == 0xB), .badTail), (f != 0xB && immf o.imm 19 4 != 0, .badTail),
    (immf o.imm 23 9 != 0, .badTail)]

/-- BPASS (R185). -/
def OpG8.defectBpass (o : OpG8) : Option Reject :=
  let f := immf o.imm 0 4
  let g2 := immf o.imm 5 1 == 1
  let n := immf o.imm 6 4
  let out := immf o.imm 14 1 == 1
  firstOf [(o.d != 0#6, .badF7), (32 ≤ o.a.toNat || 32 ≤ o.b.toNat || 8 ≤ o.c.toNat || o.mlBad, .badTail),
    (immf o.imm 21 11 != 0, .badTail), (n == 0 || 12 < n || n ≤ immf o.imm 10 4, .badTail),
    (!(f == 2 || f == 3 || f == 0xB || (!g2 && (f == 1 || f == 0xC))), .badTail),
    (immf o.imm 4 1 == 1 && (g2 || f == 0xC), .badTail), (immf o.imm 19 1 == 1 && f != 0xB, .badTail),
    (!out && (immf o.imm 20 1 == 1 || immf o.imm 15 4 != 0), .badTail),
    (out && !(f == 1 || f == 2 || f == 3), .badTail)]

/-- BPERM, rotation or bit reversal (R188). -/
def OpG8.defectBperm (o : OpG8) (rev : Bool) : Option Reject :=
  let f := immf o.imm 0 4
  let cpx := immf o.imm 4 1 == 1
  let n := immf o.imm 5 4
  firstOf [(o.d != 0#6, .badF7), (32 ≤ o.a.toNat || 32 ≤ o.b.toNat || 32 ≤ o.c.toNat || o.mlBad, .badTail),
    ((immf o.imm 9 1 == 1) != rev || (rev && o.c != 0#6) || immf o.imm 10 22 != 0, .badTail),
    (!(f == 1 || f == 2 || f == 3 || f == 0xB || f == 0xC) || n == 0 || 12 < n, .badTail),
    ((f == 1 && !cpx) || (f == 0xC && cpx), .badTail), (f == 0xB && n < (if cpx then 4 else 5), .badTail)]

/-- TWGEN (R190). -/
def OpG8.defectTwgen (o : OpG8) (modular : Bool) : Option Reject :=
  firstOf [(o.d != 0#6, .badF7), (8 ≤ o.a.toNat || 32 ≤ o.b.toNat || 32 ≤ o.c.toNat || o.mlBad, .badTail),
    ((immf o.imm 0 1 == 1) != modular || immf o.imm 1 7 != 0 || immf o.imm 15 17 != 0, .badTail)]

/-- BFPNORM (R191). -/
def OpG8.defectBfpnorm (o : OpG8) : Option Reject :=
  firstOf [(o.d != 0#6, .badF7), (32 ≤ o.a.toNat || o.b != 0#6 || o.c != 0#6 || o.mlBad, .badTail),
    (immf o.imm 0 4 != 0xB || immf o.imm 9 23 != 0 || immf o.imm 5 4 == 0 || 12 < immf o.imm 5 4, .badTail)]

/-- TXF (R192). -/
def OpG8.defectTxf (o : OpG8) : Option Reject :=
  let f := immf o.imm 0 4
  let n := immf o.imm 5 4
  firstOf [(o.d != 0#6, .badF7), (32 ≤ o.a.toNat || 32 ≤ o.b.toNat || 8 ≤ o.c.toNat || o.mlBad, .badTail),
    (!(f == 1 || f == 2 || f == 3 || f == 0xB || f == 0xC) || immf o.imm 9 23 != 0, .badTail),
    (n == 0 || 11 < n || (f == 0xC && immf o.imm 4 1 == 1) || (f == 0xB && n < 4), .badTail)]

/-- The graph-control forms (R220, R221): GCFG names a count, GCFG and GNODE an address and a space. -/
def OpG8.defectGraph (o : OpG8) (addr count : Bool) : Option Reject :=
  firstOf [(o.d != 0#6, .badF7), (o.b != 0#6 || o.c != 0#6 || o.mlBad, .badTail),
    (if addr then decide (32 ≤ o.a.toNat) || decide (4 ≤ immf o.imm 0 3) else o.a != 0#6 || immf o.imm 0 3 != 0, .badTail),
    (if count then immf o.imm 3 5 == 0 || decide (22 < immf o.imm 3 5) else immf o.imm 3 5 != 0, .badTail),
    (immf o.imm 8 24 != 0, .badTail)]

/-- The class of a node number (R209): 0 scanner, 1 joiner, 2 repeater, 3 reducer, 4 function, 5 writer. -/
def nodeClass (n : Nat) : Option Nat :=
  if n < 4 then some 0 else if n < 6 then some 1 else if n < 8 then some 2 else if n < 10 then some 3
  else if 16 ≤ n && n < 24 then some 4 else if 24 ≤ n && n < 28 then some 5 else none

/-- How many inputs a node class has (R211). -/
def classInputs : Nat → Nat
  | 0 => 1 | 1 => 4 | 2 => 2 | 3 => 1 | 4 => 2 | 5 => 1 | _ => 0

/-- How many outputs a node class has (R211). -/
def classOutputs : Nat → Nat
  | 0 => 2 | 1 => 3 | 2 => 1 | 3 => 1 | 4 => 1 | _ => 0

/-- The fields of an SBIND tail for a KIND, at commit (R226, R207). -/
def OpG8.defectSbind (o : OpG8) (kind : Nat) : Option Reject :=
  let tgt := immf o.imm 4 16
  let dir := immf o.imm 3 1
  let node := nodeClass (tgt % 32)
  let port := tgt / 32
  let tgtBad :=
    if kind == 0 then o.imm != 0#32
    else if kind == 1 || kind == 7 || kind == 8 then tgt != 0
    else if kind == 2 then decide (16 ≤ tgt)
    else if kind == 3 then node.isNone || decide (node.elim 0 classInputs ≤ port)
    else if kind == 4 then node.isNone || decide (node.elim 0 classOutputs ≤ port)
    else if kind == 5 then decide (4 ≤ tgt)
    else decide (8192 ≤ tgt)
  let dirBad := ((kind == 1 || kind == 3) && dir == 1) || ((kind == 4 || kind == 7 || kind == 8) && dir == 0)
  firstOf [(16 ≤ o.d.toNat, .badF7), (o.a != 0#6 || o.b != 0#6 || o.c != 0#6 || o.mlBad, .badTail),
    (immf o.imm 20 12 != 0 || tgtBad || dirBad, .badTail)]

/-- SPAT (R228). -/
def OpG8.defectSpat (o : OpG8) : Option Reject :=
  firstOf [(16 ≤ o.d.toNat, .badF7), (32 ≤ o.a.toNat || 32 ≤ o.b.toNat || 32 ≤ o.c.toNat || o.mlBad, .badTail),
    (4 ≤ immf o.imm 0 3 || immf o.imm 3 2 == 3 || immf o.imm 6 2 == 3 || immf o.imm 9 23 != 0, .badTail)]

/-- RSTAGE (R233). -/
def OpG8.defectRstage (o : OpG8) : Option Reject :=
  firstOf [(o.d != 0#6, .badF7), (32 ≤ o.a.toNat || 32 ≤ o.b.toNat || 16 ≤ o.c.toNat || o.mlBad, .badTail),
    (immf o.imm 14 18 != 0 || 4 ≤ immf o.imm 2 4, .badTail)]

/-- The copies (R246): 0 CPY, 1 CPYT, 2 CPYG, 3 CPYZ. -/
def OpG8.defectCopy (o : OpG8) (op : Nat) : Option Reject :=
  let sh := immf o.imm 6 1 == 1
  let dh := immf o.imm 7 1 == 1
  firstOf [(32 ≤ o.d.toNat, .badF7), (32 ≤ o.a.toNat || 32 ≤ o.b.toNat || 32 ≤ o.c.toNat, .badTail),
    (o.msk != 0#3 || lenBad o.len || (op == 3 && o.len != 0#3), .badTail),
    (immf o.imm 17 7 != 0 || (op != 2 && (immf o.imm 24 8 != 0 || immf o.imm 8 6 != 0)), .badTail),
    ((op != 3 && immf o.imm 14 3 != 0) || 4 ≤ immf o.imm 14 3, .badTail),
    ((sh && dh) || 4 ≤ immf o.imm 0 3 || 4 ≤ immf o.imm 3 3 || (sh && immf o.imm 0 3 != 0)
      || (dh && immf o.imm 3 3 != 0), .badTail)]

/-- BRULE (R266). -/
def OpG8.defectBrule (o : OpG8) : Option Reject :=
  firstOf [(32 ≤ o.d.toNat, .badF7), (32 ≤ o.a.toNat || o.b != 0#6 || o.c != 0#6 || o.mlBad, .badTail),
    (4 ≤ immf o.imm 12 3 || immf o.imm 15 17 != 0, .badTail)]

/-- BWALK (R266). -/
def OpG8.defectBwalk (o : OpG8) : Option Reject :=
  firstOf [(32 ≤ o.d.toNat, .badF7), (32 ≤ o.b.toNat || 32 ≤ o.c.toNat || lenBad o.len, .badTail),
    (immf o.imm 4 13 == 0 || 4096 < immf o.imm 4 13 || immf o.imm 18 14 != 0, .badTail)]

/-- The first reserved field of an instruction, outside a VP block; none for an instruction that may be executed and for
every event row. -/
def Instr.defect : Instr → Option Reject
  | .nop => none
  | .add o => firstOf [(32 ≤ o.d.toNat, .badF7), (32 ≤ o.a.toNat, .badTail), (32 ≤ o.b.toNat, .badTail)]
  | .sub o => firstOf [(32 ≤ o.d.toNat, .badF7), (32 ≤ o.a.toNat, .badTail), (32 ≤ o.b.toNat, .badTail)]
  | .and_ o => firstOf [(32 ≤ o.d.toNat, .badF7), (32 ≤ o.a.toNat, .badTail), (32 ≤ o.b.toNat, .badTail)]
  | .or_ o => firstOf [(32 ≤ o.d.toNat, .badF7), (32 ≤ o.a.toNat, .badTail), (32 ≤ o.b.toNat, .badTail)]
  | .xor_ o => firstOf [(32 ≤ o.d.toNat, .badF7), (32 ≤ o.a.toNat, .badTail), (32 ≤ o.b.toNat, .badTail)]
  | .sll o => firstOf [(32 ≤ o.d.toNat, .badF7), (32 ≤ o.a.toNat, .badTail), (32 ≤ o.b.toNat, .badTail)]
  | .srl o => firstOf [(32 ≤ o.d.toNat, .badF7), (32 ≤ o.a.toNat, .badTail), (32 ≤ o.b.toNat, .badTail)]
  | .sra o => firstOf [(32 ≤ o.d.toNat, .badF7), (32 ≤ o.a.toNat, .badTail), (32 ≤ o.b.toNat, .badTail)]
  | .slt o => firstOf [(32 ≤ o.d.toNat, .badF7), (32 ≤ o.a.toNat, .badTail), (32 ≤ o.b.toNat, .badTail)]
  | .sltu o => firstOf [(32 ≤ o.d.toNat, .badF7), (32 ≤ o.a.toNat, .badTail), (32 ≤ o.b.toNat, .badTail)]
  | .min o => firstOf [(32 ≤ o.d.toNat, .badF7), (32 ≤ o.a.toNat, .badTail), (32 ≤ o.b.toNat, .badTail)]
  | .max o => firstOf [(32 ≤ o.d.toNat, .badF7), (32 ≤ o.a.toNat, .badTail), (32 ≤ o.b.toNat, .badTail)]
  | .addW o => firstOf [(32 ≤ o.d.toNat, .badF7), (32 ≤ o.a.toNat, .badTail), (32 ≤ o.b.toNat, .badTail)]
  | .subW o => firstOf [(32 ≤ o.d.toNat, .badF7), (32 ≤ o.a.toNat, .badTail), (32 ≤ o.b.toNat, .badTail)]
  | .sllW o => firstOf [(32 ≤ o.d.toNat, .badF7), (32 ≤ o.a.toNat, .badTail), (32 ≤ o.b.toNat, .badTail)]
  | .srlW o => firstOf [(32 ≤ o.d.toNat, .badF7), (32 ≤ o.a.toNat, .badTail), (32 ≤ o.b.toNat, .badTail)]
  | .sraW o => firstOf [(32 ≤ o.d.toNat, .badF7), (32 ≤ o.a.toNat, .badTail), (32 ≤ o.b.toNat, .badTail)]
  | .addi o => firstOf [(32 ≤ o.d.toNat, .badF7), (32 ≤ o.a.toNat, .badTail)]
  | .andi o => firstOf [(32 ≤ o.d.toNat, .badF7), (32 ≤ o.a.toNat, .badTail)]
  | .ori o => firstOf [(32 ≤ o.d.toNat, .badF7), (32 ≤ o.a.toNat, .badTail)]
  | .xori o => firstOf [(32 ≤ o.d.toNat, .badF7), (32 ≤ o.a.toNat, .badTail)]
  | .slli o => firstOf [(32 ≤ o.d.toNat, .badF7), (32 ≤ o.a.toNat, .badTail), (64 ≤ o.imm.toNat, .badTail)]
  | .srli o => firstOf [(32 ≤ o.d.toNat, .badF7), (32 ≤ o.a.toNat, .badTail), (64 ≤ o.imm.toNat, .badTail)]
  | .srai o => firstOf [(32 ≤ o.d.toNat, .badF7), (32 ≤ o.a.toNat, .badTail), (64 ≤ o.imm.toNat, .badTail)]
  | .slti o => firstOf [(32 ≤ o.d.toNat, .badF7), (32 ≤ o.a.toNat, .badTail)]
  | .addiW o => firstOf [(32 ≤ o.d.toNat, .badF7), (32 ≤ o.a.toNat, .badTail)]
  | .slliW o => firstOf [(32 ≤ o.d.toNat, .badF7), (32 ≤ o.a.toNat, .badTail), (32 ≤ o.imm.toNat, .badTail)]
  | .srliW o => firstOf [(32 ≤ o.d.toNat, .badF7), (32 ≤ o.a.toNat, .badTail), (32 ≤ o.imm.toNat, .badTail)]
  | .sraiW o => firstOf [(32 ≤ o.d.toNat, .badF7), (32 ≤ o.a.toNat, .badTail), (32 ≤ o.imm.toNat, .badTail)]
  | .mul o => firstOf [(32 ≤ o.d.toNat, .badF7), (32 ≤ o.a.toNat, .badTail), (32 ≤ o.b.toNat, .badTail)]
  | .mulh o => firstOf [(32 ≤ o.d.toNat, .badF7), (32 ≤ o.a.toNat, .badTail), (32 ≤ o.b.toNat, .badTail)]
  | .mulhu o => firstOf [(32 ≤ o.d.toNat, .badF7), (32 ≤ o.a.toNat, .badTail), (32 ≤ o.b.toNat, .badTail)]
  | .div o => firstOf [(32 ≤ o.d.toNat, .badF7), (32 ≤ o.a.toNat, .badTail), (32 ≤ o.b.toNat, .badTail)]
  | .divu o => firstOf [(32 ≤ o.d.toNat, .badF7), (32 ≤ o.a.toNat, .badTail), (32 ≤ o.b.toNat, .badTail)]
  | .rem o => firstOf [(32 ≤ o.d.toNat, .badF7), (32 ≤ o.a.toNat, .badTail), (32 ≤ o.b.toNat, .badTail)]
  | .remu o => firstOf [(32 ≤ o.d.toNat, .badF7), (32 ≤ o.a.toNat, .badTail), (32 ≤ o.b.toNat, .badTail)]
  | .mulW o => firstOf [(32 ≤ o.d.toNat, .badF7), (32 ≤ o.a.toNat, .badTail), (32 ≤ o.b.toNat, .badTail)]
  | .divW o => firstOf [(32 ≤ o.d.toNat, .badF7), (32 ≤ o.a.toNat, .badTail), (32 ≤ o.b.toNat, .badTail)]
  | .divuW o => firstOf [(32 ≤ o.d.toNat, .badF7), (32 ≤ o.a.toNat, .badTail), (32 ≤ o.b.toNat, .badTail)]
  | .remW o => firstOf [(32 ≤ o.d.toNat, .badF7), (32 ≤ o.a.toNat, .badTail), (32 ≤ o.b.toNat, .badTail)]
  | .remuW o => firstOf [(32 ≤ o.d.toNat, .badF7), (32 ≤ o.a.toNat, .badTail), (32 ≤ o.b.toNat, .badTail)]
  | .clz o => firstOf [(32 ≤ o.d.toNat, .badF7), (32 ≤ o.a.toNat, .badTail), (o.b != 0#6, .badTail)]
  | .ctz o => firstOf [(32 ≤ o.d.toNat, .badF7), (32 ≤ o.a.toNat, .badTail), (o.b != 0#6, .badTail)]
  | .popc o => firstOf [(32 ≤ o.d.toNat, .badF7), (32 ≤ o.a.toNat, .badTail), (o.b != 0#6, .badTail)]
  | .sel o => firstOf [(32 ≤ o.d.toNat, .badF7), (o.x, .badF7), (o.opx != 0#2, .badTail), (32 ≤ o.a.toNat, .badTail), (32 ≤ o.b.toNat, .badTail), (32 ≤ o.c.toNat, .badTail), (o.xl != 0#2, .badTail), (o.msk != 0#3, .badTail), (o.len != 0#3, .badTail)]
  | .limmT4w o => firstOf [(32 ≤ o.d.toNat, .badF7)]
  | .limmT8w o => firstOf [(32 ≤ o.d.toNat, .badF7)]
  | .addpc o => firstOf [(32 ≤ o.d.toNat, .badF7)]
  | .ld o => o.defect false
  | .st o => o.defect true
  | .amoAdd o => o.defect 0
  | .amoAnd o => o.defect 1
  | .amoOr o => o.defect 2
  | .amoXor o => o.defect 3
  | .amoMin o => o.defect 4
  | .amoMax o => o.defect 5
  | .amoMinu o => o.defect 6
  | .amoMaxu o => o.defect 7
  | .amoFadd o => o.defect 8
  | .amoBfadd o => o.defect 9
  | .amoSwap o => o.defect 10
  | .amoCas o => o.defect 11
  | .bEq _ => none
  | .bNe _ => none
  | .bLt _ => none
  | .bGe _ => none
  | .bLtu _ => none
  | .bGeu _ => none
  | .jmp o => firstOf [(o.d != 0#6, .badF7)]
  | .call o => firstOf [(32 ≤ o.d.toNat, .badF7)]
  | .jmpr o => firstOf [(32 ≤ o.d.toNat, .badF7), (32 ≤ o.a.toNat, .badTail), (o.b != 0#6, .badTail)]
  | .loop o => firstOf [(32 ≤ o.d.toNat, .badF7)]
  | .vfetch o => firstOf [(o.d != 0#6, .badF7)]
  | .vend => none
  | .vpGroupIssue _ _ => none
  | .getid o => firstOf [(32 ≤ o.d.toNat, .badF7), (14 ≤ o.val.toNat || o.val == 8#16, .badTail)]
  | .caps o => firstOf [(32 ≤ o.toNat, .badF7)]
  | .sysrd o => firstOf [(32 ≤ o.d.toNat, .badF7), (!sysRegListed o.val.toNat, .badTail)]
  | .syswr o => firstOf [(32 ≤ o.d.toNat, .badF7), (!sysRegListed o.val.toNat, .badTail)]
  | .hret => none
  | .dstop => none
  | .waitev => none
  | .waitevTimeout _ _ _ => none
  | .cede => none
  | .halt => none
  | .trap o => firstOf [(o.d != 0#6, .badF7), (256 ≤ o.val.toNat, .badTail)]
  | .vsetl o => firstOf [(32 ≤ o.d.toNat, .badF7), (32 ≤ o.a.toNat, .badTail), (o.b != 0#6, .badTail)]
  | .vsetlLq o => firstOf [(32 ≤ o.d.toNat, .badF7), (4 ≤ o.a.toNat, .badTail), (o.b != 0#6, .badTail)]
  | .vsett o => firstOf [(32 ≤ o.d.toNat, .badF7), (o.imm.extractLsb' 26 6 != 0#6, .badTail)]
  | .vidx o => firstOf [(lenBad o.len, .badTail)]
  | .vadd o => firstOf [(o.opx != 0#2, .badTail), ((o.x && 32 ≤ o.b.toNat), .badTail), ((o.xl == 0#2 && o.c != 0#6), .badTail), (o.xl == 3#2 || (o.xl == 1#2 && o.x), .badTail), (lenBad o.len, .badTail)]
  | .vsub o => firstOf [(o.opx != 0#2, .badTail), ((o.x && 32 ≤ o.b.toNat), .badTail), ((o.xl == 0#2 && o.c != 0#6), .badTail), (o.xl == 3#2 || (o.xl == 1#2 && o.x), .badTail), (lenBad o.len, .badTail)]
  | .vmul o => firstOf [(o.opx != 0#2, .badTail), ((o.x && 32 ≤ o.b.toNat), .badTail), ((o.xl == 0#2 && o.c != 0#6), .badTail), (o.xl == 3#2 || (o.xl == 1#2 && o.x), .badTail), (lenBad o.len, .badTail)]
  | .vand o => firstOf [(o.opx != 0#2, .badTail), ((o.x && 32 ≤ o.b.toNat), .badTail), ((o.xl == 0#2 && o.c != 0#6), .badTail), (o.xl == 3#2 || (o.xl == 1#2 && o.x), .badTail), (lenBad o.len, .badTail)]
  | .vor o => firstOf [(o.opx != 0#2, .badTail), ((o.x && 32 ≤ o.b.toNat), .badTail), ((o.xl == 0#2 && o.c != 0#6), .badTail), (o.xl == 3#2 || (o.xl == 1#2 && o.x), .badTail), (lenBad o.len, .badTail)]
  | .vxor o => firstOf [(o.opx != 0#2, .badTail), ((o.x && 32 ≤ o.b.toNat), .badTail), ((o.xl == 0#2 && o.c != 0#6), .badTail), (o.xl == 3#2 || (o.xl == 1#2 && o.x), .badTail), (lenBad o.len, .badTail)]
  | .vsll o => firstOf [(o.opx != 0#2, .badTail), ((o.x && 32 ≤ o.b.toNat), .badTail), ((o.xl == 0#2 && o.c != 0#6), .badTail), (o.xl == 3#2 || (o.xl == 1#2 && o.x), .badTail), (lenBad o.len, .badTail)]
  | .vsrl o => firstOf [(o.opx != 0#2, .badTail), ((o.x && 32 ≤ o.b.toNat), .badTail), ((o.xl == 0#2 && o.c != 0#6), .badTail), (o.xl == 3#2 || (o.xl == 1#2 && o.x), .badTail), (lenBad o.len, .badTail)]
  | .vsra o => firstOf [(o.opx != 0#2, .badTail), ((o.x && 32 ≤ o.b.toNat), .badTail), ((o.xl == 0#2 && o.c != 0#6), .badTail), (o.xl == 3#2 || (o.xl == 1#2 && o.x), .badTail), (lenBad o.len, .badTail)]
  | .vmin o => firstOf [(o.opx.extractLsb' 0 1 == 1#1, .badTail), ((o.x && 32 ≤ o.b.toNat), .badTail), ((o.xl == 0#2 && o.c != 0#6), .badTail), (o.xl == 3#2 || (o.xl == 1#2 && o.x), .badTail), (lenBad o.len, .badTail)]
  | .vmax o => firstOf [(o.opx.extractLsb' 0 1 == 1#1, .badTail), ((o.x && 32 ≤ o.b.toNat), .badTail), ((o.xl == 0#2 && o.c != 0#6), .badTail), (o.xl == 3#2 || (o.xl == 1#2 && o.x), .badTail), (lenBad o.len, .badTail)]
  | .vsadd o => firstOf [(o.opx.extractLsb' 0 1 == 1#1, .badTail), ((o.x && 32 ≤ o.b.toNat), .badTail), ((o.xl == 0#2 && o.c != 0#6), .badTail), (o.xl == 3#2 || (o.xl == 1#2 && o.x), .badTail), (lenBad o.len, .badTail)]
  | .vssub o => firstOf [(o.opx.extractLsb' 0 1 == 1#1, .badTail), ((o.x && 32 ≤ o.b.toNat), .badTail), ((o.xl == 0#2 && o.c != 0#6), .badTail), (o.xl == 3#2 || (o.xl == 1#2 && o.x), .badTail), (lenBad o.len, .badTail)]
  | .vfadd o => firstOf [(o.opx != 0#2, .badTail), ((o.x && 32 ≤ o.b.toNat), .badTail), ((o.xl == 0#2 && o.c != 0#6), .badTail), (o.xl == 3#2 || (o.xl == 1#2 && o.x), .badTail), (lenBad o.len, .badTail)]
  | .vfsub o => firstOf [(o.opx != 0#2, .badTail), ((o.x && 32 ≤ o.b.toNat), .badTail), ((o.xl == 0#2 && o.c != 0#6), .badTail), (o.xl == 3#2 || (o.xl == 1#2 && o.x), .badTail), (lenBad o.len, .badTail)]
  | .vfmul o => firstOf [(o.opx != 0#2, .badTail), ((o.x && 32 ≤ o.b.toNat), .badTail), ((o.xl == 0#2 && o.c != 0#6), .badTail), (o.xl == 3#2 || (o.xl == 1#2 && o.x), .badTail), (lenBad o.len, .badTail)]
  | .vfdiv o => firstOf [(o.opx != 0#2, .badTail), ((o.x && 32 ≤ o.b.toNat), .badTail), ((o.xl == 0#2 && o.c != 0#6), .badTail), (o.xl == 3#2 || (o.xl == 1#2 && o.x), .badTail), (lenBad o.len, .badTail)]
  | .vfma o => firstOf [(o.opx != 0#2, .badTail), ((o.x && 32 ≤ o.b.toNat), .badTail), (o.xl != 0#2, .badTail), (lenBad o.len, .badTail)]
  | .vfms o => firstOf [(o.opx != 0#2, .badTail), ((o.x && 32 ≤ o.b.toNat), .badTail), (o.xl != 0#2, .badTail), (lenBad o.len, .badTail)]
  | .vfmin o => firstOf [(o.opx != 0#2, .badTail), ((o.x && 32 ≤ o.b.toNat), .badTail), ((o.xl == 0#2 && o.c != 0#6), .badTail), (o.xl == 3#2 || (o.xl == 1#2 && o.x), .badTail), (lenBad o.len, .badTail)]
  | .vfmax o => firstOf [(o.opx != 0#2, .badTail), ((o.x && 32 ≤ o.b.toNat), .badTail), ((o.xl == 0#2 && o.c != 0#6), .badTail), (o.xl == 3#2 || (o.xl == 1#2 && o.x), .badTail), (lenBad o.len, .badTail)]
  | .vfsqrt o => firstOf [(o.x, .badF7), (o.opx != 0#2, .badTail), (o.b != 0#6, .badTail), ((o.xl == 0#2 && o.c != 0#6), .badTail), (o.xl == 3#2 || (o.xl == 1#2 && o.x), .badTail), (lenBad o.len, .badTail)]
  | .vfabs o => firstOf [(o.x, .badF7), (o.opx != 0#2, .badTail), (o.b != 0#6, .badTail), ((o.xl == 0#2 && o.c != 0#6), .badTail), (o.xl == 3#2 || (o.xl == 1#2 && o.x), .badTail), (lenBad o.len, .badTail)]
  | .vfexp o => firstOf [(o.x, .badF7), (o.opx != 0#2, .badTail), (o.b != 0#6, .badTail), ((o.xl == 0#2 && o.c != 0#6), .badTail), (o.xl == 3#2 || (o.xl == 1#2 && o.x), .badTail), (lenBad o.len, .badTail)]
  | .vflog o => firstOf [(o.x, .badF7), (o.opx != 0#2, .badTail), (o.b != 0#6, .badTail), ((o.xl == 0#2 && o.c != 0#6), .badTail), (o.xl == 3#2 || (o.xl == 1#2 && o.x), .badTail), (lenBad o.len, .badTail)]
  | .vfrcp o => firstOf [(o.x, .badF7), (o.opx != 0#2, .badTail), (o.b != 0#6, .badTail), ((o.xl == 0#2 && o.c != 0#6), .badTail), (o.xl == 3#2 || (o.xl == 1#2 && o.x), .badTail), (lenBad o.len, .badTail)]
  | .vfrsq o => firstOf [(o.x, .badF7), (o.opx != 0#2, .badTail), (o.b != 0#6, .badTail), ((o.xl == 0#2 && o.c != 0#6), .badTail), (o.xl == 3#2 || (o.xl == 1#2 && o.x), .badTail), (lenBad o.len, .badTail)]
  | .vftanh o => firstOf [(o.x, .badF7), (o.opx != 0#2, .badTail), (o.b != 0#6, .badTail), ((o.xl == 0#2 && o.c != 0#6), .badTail), (o.xl == 3#2 || (o.xl == 1#2 && o.x), .badTail), (lenBad o.len, .badTail)]
  | .vcvt o => o.defectVcvt
  | .vcmpEq o => firstOf [(8 ≤ o.d.toNat, .badF7), (o.opx != 0#2, .badTail), ((o.x && 32 ≤ o.b.toNat), .badTail), ((o.xl == 0#2 && o.c != 0#6), .badTail), (o.xl == 3#2 || (o.xl == 1#2 && o.x), .badTail), (lenBad o.len, .badTail)]
  | .vcmpNe o => firstOf [(8 ≤ o.d.toNat, .badF7), (o.opx != 0#2, .badTail), ((o.x && 32 ≤ o.b.toNat), .badTail), ((o.xl == 0#2 && o.c != 0#6), .badTail), (o.xl == 3#2 || (o.xl == 1#2 && o.x), .badTail), (lenBad o.len, .badTail)]
  | .vcmpLt o => firstOf [(8 ≤ o.d.toNat, .badF7), (o.opx != 0#2, .badTail), ((o.x && 32 ≤ o.b.toNat), .badTail), ((o.xl == 0#2 && o.c != 0#6), .badTail), (o.xl == 3#2 || (o.xl == 1#2 && o.x), .badTail), (lenBad o.len, .badTail)]
  | .vcmpGe o => firstOf [(8 ≤ o.d.toNat, .badF7), (o.opx != 0#2, .badTail), ((o.x && 32 ≤ o.b.toNat), .badTail), ((o.xl == 0#2 && o.c != 0#6), .badTail), (o.xl == 3#2 || (o.xl == 1#2 && o.x), .badTail), (lenBad o.len, .badTail)]
  | .vcmpLtu o => firstOf [(8 ≤ o.d.toNat, .badF7), (o.opx != 0#2, .badTail), ((o.x && 32 ≤ o.b.toNat), .badTail), ((o.xl == 0#2 && o.c != 0#6), .badTail), (o.xl == 3#2 || (o.xl == 1#2 && o.x), .badTail), (lenBad o.len, .badTail)]
  | .vcmpGeu o => firstOf [(8 ≤ o.d.toNat, .badF7), (o.opx != 0#2, .badTail), ((o.x && 32 ≤ o.b.toNat), .badTail), ((o.xl == 0#2 && o.c != 0#6), .badTail), (o.xl == 3#2 || (o.xl == 1#2 && o.x), .badTail), (lenBad o.len, .badTail)]
  | .vfcmpEq o => firstOf [(8 ≤ o.d.toNat, .badF7), (o.opx != 0#2, .badTail), ((o.x && 32 ≤ o.b.toNat), .badTail), ((o.xl == 0#2 && o.c != 0#6), .badTail), (o.xl == 3#2 || (o.xl == 1#2 && o.x), .badTail), (lenBad o.len, .badTail)]
  | .vfcmpNe o => firstOf [(8 ≤ o.d.toNat, .badF7), (o.opx != 0#2, .badTail), ((o.x && 32 ≤ o.b.toNat), .badTail), ((o.xl == 0#2 && o.c != 0#6), .badTail), (o.xl == 3#2 || (o.xl == 1#2 && o.x), .badTail), (lenBad o.len, .badTail)]
  | .vfcmpLt o => firstOf [(8 ≤ o.d.toNat, .badF7), (o.opx != 0#2, .badTail), ((o.x && 32 ≤ o.b.toNat), .badTail), ((o.xl == 0#2 && o.c != 0#6), .badTail), (o.xl == 3#2 || (o.xl == 1#2 && o.x), .badTail), (lenBad o.len, .badTail)]
  | .vfcmpGe o => firstOf [(8 ≤ o.d.toNat, .badF7), (o.opx != 0#2, .badTail), ((o.x && 32 ≤ o.b.toNat), .badTail), ((o.xl == 0#2 && o.c != 0#6), .badTail), (o.xl == 3#2 || (o.xl == 1#2 && o.x), .badTail), (lenBad o.len, .badTail)]
  | .vfcmpUn o => firstOf [(8 ≤ o.d.toNat, .badF7), (o.opx != 0#2, .badTail), ((o.x && 32 ≤ o.b.toNat), .badTail), ((o.xl == 0#2 && o.c != 0#6), .badTail), (o.xl == 3#2 || (o.xl == 1#2 && o.x), .badTail), (lenBad o.len, .badTail)]
  | .vfcmpOrd o => firstOf [(8 ≤ o.d.toNat, .badF7), (o.opx != 0#2, .badTail), ((o.x && 32 ≤ o.b.toNat), .badTail), ((o.xl == 0#2 && o.c != 0#6), .badTail), (o.xl == 3#2 || (o.xl == 1#2 && o.x), .badTail), (lenBad o.len, .badTail)]
  | .mand o => firstOf [(8 ≤ o.d.toNat, .badF7), (8 ≤ o.a.toNat, .badTail), (8 ≤ o.b.toNat, .badTail)]
  | .mor o => firstOf [(8 ≤ o.d.toNat, .badF7), (8 ≤ o.a.toNat, .badTail), (8 ≤ o.b.toNat, .badTail)]
  | .mxor o => firstOf [(8 ≤ o.d.toNat, .badF7), (8 ≤ o.a.toNat, .badTail), (8 ≤ o.b.toNat, .badTail)]
  | .mandn o => firstOf [(8 ≤ o.d.toNat, .badF7), (8 ≤ o.a.toNat, .badTail), (8 ≤ o.b.toNat, .badTail)]
  | .mpopcLq o => firstOf [(4 ≤ o.d.toNat, .badF7), (8 ≤ o.a.toNat, .badTail), (o.b != 0#6, .badTail)]
  | .mpopcG o => firstOf [(32 ≤ o.d.toNat, .badF7), (8 ≤ o.a.toNat, .badTail), (o.b != 0#6, .badTail)]
  | .vcomp o => firstOf [(o.x, .badF7), (o.opx != 0#2, .badTail), (o.b != 0#6, .badTail), (o.c != 0#6, .badTail), (o.xl != 0#2, .badTail), (lenBad o.len, .badTail)]
  | .vexpd o => firstOf [(o.x, .badF7), (o.opx != 0#2, .badTail), (o.b != 0#6, .badTail), (o.c != 0#6, .badTail), (o.xl != 0#2, .badTail), (lenBad o.len, .badTail)]
  | .vslup o => firstOf [(!o.x, .badF7), (o.opx != 0#2, .badTail), (32 ≤ o.b.toNat, .badTail), (o.c != 0#6, .badTail), (o.xl != 0#2, .badTail), (lenBad o.len, .badTail)]
  | .vsldn o => firstOf [(!o.x, .badF7), (o.opx != 0#2, .badTail), (32 ≤ o.b.toNat, .badTail), (o.c != 0#6, .badTail), (o.xl != 0#2, .badTail), (lenBad o.len, .badTail)]
  | .vshuf o => firstOf [(o.opx != 0#2, .badTail), ((o.x && 32 ≤ o.b.toNat), .badTail), (o.c != 0#6, .badTail), (o.xl != 0#2, .badTail), (lenBad o.len, .badTail)]
  | .vsperm o => firstOf [(!o.x, .badF7), (o.opx != 0#2, .badTail), (32 ≤ o.b.toNat, .badTail), (o.c != 0#6, .badTail), (o.xl != 0#2, .badTail), (lenBad o.len, .badTail)]
  | .vmerge o => firstOf [(o.opx != 0#2, .badTail), ((o.x && 32 ≤ o.b.toNat), .badTail), (o.c != 0#6, .badTail), (o.xl != 0#2, .badTail), (lenBad o.len, .badTail)]
  | .vmvx o => firstOf [(32 ≤ o.d.toNat, .badF7), (32 ≤ o.b.toNat, .badTail)]
  | .vmvxU o => firstOf [(32 ≤ o.d.toNat, .badF7), (32 ≤ o.b.toNat, .badTail)]
  | .vredsum o => firstOf [(o.x, .badF7), (o.opx.extractLsb' 0 1 == 1#1, .badTail), (o.b != 0#6, .badTail), ((o.opx.extractLsb' 1 1 == 0#1 && o.c != 0#6), .badTail), (o.xl != 0#2, .badTail), (lenBad o.len, .badTail)]
  | .vredmax o => firstOf [(o.x, .badF7), (o.b != 0#6, .badTail), ((o.opx.extractLsb' 1 1 == 0#1 && o.c != 0#6), .badTail), (o.xl != 0#2, .badTail), (lenBad o.len, .badTail)]
  | .vredmin o => firstOf [(o.x, .badF7), (o.b != 0#6, .badTail), ((o.opx.extractLsb' 1 1 == 0#1 && o.c != 0#6), .badTail), (o.xl != 0#2, .badTail), (lenBad o.len, .badTail)]
  | .vfredsum o => firstOf [(o.x, .badF7), (o.opx.extractLsb' 0 1 == 1#1, .badTail), (o.b != 0#6, .badTail), ((o.opx.extractLsb' 1 1 == 0#1 && o.c != 0#6), .badTail), (o.xl != 0#2, .badTail), (lenBad o.len, .badTail)]
  | .vfredmax o => firstOf [(o.x, .badF7), (o.opx.extractLsb' 0 1 == 1#1, .badTail), (o.b != 0#6, .badTail), ((o.opx.extractLsb' 1 1 == 0#1 && o.c != 0#6), .badTail), (o.xl != 0#2, .badTail), (lenBad o.len, .badTail)]
  | .vfredmin o => firstOf [(o.x, .badF7), (o.opx.extractLsb' 0 1 == 1#1, .badTail), (o.b != 0#6, .badTail), ((o.opx.extractLsb' 1 1 == 0#1 && o.c != 0#6), .badTail), (o.xl != 0#2, .badTail), (lenBad o.len, .badTail)]
  | .vargmax o => firstOf [(o.x, .badF7), (o.b == o.d, .badTail), (o.opx != 0#2, .badTail), (o.c != 0#6, .badTail), (o.xl != 0#2, .badTail), (lenBad o.len, .badTail)]
  | .vargmin o => firstOf [(o.x, .badF7), (o.b == o.d, .badTail), (o.opx != 0#2, .badTail), (o.c != 0#6, .badTail), (o.xl != 0#2, .badTail), (lenBad o.len, .badTail)]
  | .vscan o => firstOf [(o.x, .badF7), (o.opx.extractLsb' 0 1 == 1#1, .badTail), (2 ≤ o.b.toNat, .badTail), ((o.opx.extractLsb' 1 1 == 0#1 && o.c != 0#6), .badTail), (o.xl != 0#2, .badTail), (lenBad o.len, .badTail)]
  | .vsegsum o => firstOf [(o.x, .badF7), (o.opx != 0#2, .badTail), (2 ≤ o.b.toNat, .badTail), (8 ≤ o.c.toNat, .badTail), (o.xl != 0#2, .badTail), (lenBad o.len, .badTail)]
  | .vsortk o => firstOf [(o.x, .badF7), (o.opx != 0#2, .badTail), (o.b != 0#6, .badTail), (o.c != 0#6, .badTail), (o.xl != 0#2, .badTail), (lenBad o.len, .badTail)]
  | .vsortkP o => firstOf [(o.x, .badF7), (o.d == o.c, .badTail), (o.opx != 0#2, .badTail), (o.xl != 0#2, .badTail), (lenBad o.len, .badTail)]
  | .vuniq o => firstOf [(o.x, .badF7), (o.opx != 0#2, .badTail), (o.b != 0#6, .badTail), (8 ≤ o.c.toNat, .badTail), (o.xl != 0#2, .badTail), (lenBad o.len, .badTail)]
  | .vld o => firstOf [(spcBad o.spc, .badTail), (o.ix != 0#6, .badTail), (lenBad o.len, .badTail)]
  | .vlds o => firstOf [(spcBad o.spc, .badTail), (32 ≤ o.ix.toNat, .badTail), (lenBad o.len, .badTail)]
  | .vldx o => firstOf [(spcBad o.spc, .badTail), (lenBad o.len, .badTail)]
  | .vldbp o => firstOf [(spcBad o.spc, .badTail), (32 ≤ o.ix.toNat, .badTail), (lenBad o.len, .badTail)]
  | .vldk o => firstOf [(16 ≤ o.d.toNat, .badF7), (spcBad o.spc, .badTail), (32 ≤ o.ix.toNat, .badTail), (lenBad o.len, .badTail)]
  | .vldw o => firstOf [(8 ≤ o.d.toNat, .badF7), (spcBad o.spc, .badTail), (o.ix != 0#6, .badTail), (lenBad o.len, .badTail)]
  | .vst o => firstOf [(spcBad o.spc, .badTail), (o.ix != 0#6, .badTail), (lenBad o.len, .badTail)]
  | .vsts o => firstOf [(spcBad o.spc, .badTail), (32 ≤ o.ix.toNat, .badTail), (lenBad o.len, .badTail)]
  | .vstx o => firstOf [(spcBad o.spc, .badTail), (lenBad o.len, .badTail)]
  | .vstbp o => firstOf [(spcBad o.spc, .badTail), (32 ≤ o.ix.toNat, .badTail), (lenBad o.len, .badTail)]
  | .vscadd o => firstOf [(spcBad o.spc, .badTail), (lenBad o.len, .badTail)]
  | .vamoAdd o => o.defect 0
  | .vamoAnd o => o.defect 1
  | .vamoOr o => o.defect 2
  | .vamoXor o => o.defect 3
  | .vamoMin o => o.defect 4
  | .vamoMax o => o.defect 5
  | .vamoMinu o => o.defect 6
  | .vamoMaxu o => o.defect 7
  | .vamoFadd o => o.defect 8
  | .vamoBfadd o => o.defect 9
  | .vamoSwap o => o.defect 10
  | .vamoCas o => o.defect 11
  | .opacc o => o.defect
  | .opsub o => o.defect
  | .mzero o => firstOf [(4 ≤ o.toNat, .badF7)]
  | .mldt o => firstOf [(4 ≤ o.d.toNat, .badF7), (spcBad o.spc, .badTail)]
  | .mstt o => firstOf [(4 ≤ o.d.toNat, .badF7), (spcBad o.spc, .badTail)]
  | .mrowv o => firstOf [(o.x, .badF7), (o.opx != 0#2, .badTail), (4 ≤ o.a.toNat, .badTail), (32 ≤ o.b.toNat, .badTail), (o.c != 0#6, .badTail), (o.xl != 0#2, .badTail), (lenBad o.len, .badTail)]
  | .mvrow o => firstOf [(o.x, .badF7), (o.opx != 0#2, .badTail), (4 ≤ o.a.toNat, .badTail), (32 ≤ o.b.toNat, .badTail), (o.c != 0#6, .badTail), (o.xl != 0#2, .badTail), (lenBad o.len, .badTail)]
  | .mcolv o => firstOf [(o.x, .badF7), (o.opx != 0#2, .badTail), (4 ≤ o.a.toNat, .badTail), (32 ≤ o.b.toNat, .badTail), (o.c != 0#6, .badTail), (o.xl != 0#2, .badTail), (lenBad o.len, .badTail)]
  | .mvcol o => firstOf [(o.x, .badF7), (o.opx != 0#2, .badTail), (4 ≤ o.a.toNat, .badTail), (32 ≤ o.b.toNat, .badTail), (o.c != 0#6, .badTail), (o.xl != 0#2, .badTail), (lenBad o.len, .badTail)]
  | .mchain o => o.defectMchain
  | .mdrain o => o.defectMdrain false
  | .mdrainStream o => o.defectMdrain true
  | .msetc o => o.defectMsetc
  | .mtile o => o.defectMtile
  | .mtileStep _ _ => none
  | .bfy o => o.defectBfy
  | .bpass o => o.defectBpass
  | .bperm o => o.defectBperm false
  | .bpermRev o => o.defectBperm true
  | .twgenCplx o => o.defectTwgen false
  | .twgenMod o => o.defectTwgen true
  | .bfpnorm o => o.defectBfpnorm
  | .txf o => o.defectTxf
  | .txfStage _ _ => none
  | .nadd o => firstOf [(o.x, .badF7), (o.opx != 0#2, .badTail), (o.c != 0#6, .badTail), (o.xl != 0#2, .badTail), (lenBad o.len, .badTail)]
  | .nsub o => firstOf [(o.x, .badF7), (o.opx != 0#2, .badTail), (o.c != 0#6, .badTail), (o.xl != 0#2, .badTail), (lenBad o.len, .badTail)]
  | .nmul o => firstOf [(o.x, .badF7), (o.opx != 0#2, .badTail), (o.c != 0#6, .badTail), (o.xl != 0#2, .badTail), (lenBad o.len, .badTail)]
  | .nmulW o => firstOf [(!o.x, .badF7), (o.opx != 0#2, .badTail), (8 ≤ o.b.toNat, .badTail), (o.c != 0#6, .badTail), (o.xl != 0#2, .badTail), (lenBad o.len, .badTail)]
  | .nbfy o => firstOf [(63 ≤ o.d.toNat, .badF7), (!o.x, .badF7), (o.opx != 0#2, .badTail), (8 ≤ o.b.toNat, .badTail), (o.xl != 0#2, .badTail), (lenBad o.len, .badTail)]
  | .ncrt o => firstOf [(o.x, .badF7), (o.opx != 0#2, .badTail), (o.xl != 0#2, .badTail), (lenBad o.len, .badTail)]
  | .nfrom o => firstOf [(o.x, .badF7), (o.opx != 0#2, .badTail), (o.b != 0#6, .badTail), (o.c != 0#6, .badTail), (o.xl != 0#2, .badTail), (lenBad o.len, .badTail)]
  | .nto o => firstOf [(o.x, .badF7), (o.opx != 0#2, .badTail), (o.b != 0#6, .badTail), (o.c != 0#6, .badTail), (o.xl != 0#2, .badTail), (lenBad o.len, .badTail)]
  | .nmodset o => firstOf [(o.d != 0#6, .badF7), (32 ≤ o.a.toNat, .badTail), (o.b != 0#6, .badTail)]
  | .nchk o => firstOf [(32 ≤ o.d.toNat, .badF7), (32 ≤ o.a.toNat, .badTail), (32 ≤ o.b.toNat, .badTail)]
  | .vcmul o => firstOf [(o.opx != 0#2, .badTail), ((o.x && 8 ≤ o.b.toNat), .badTail), (o.c != 0#6, .badTail), (o.xl != 0#2, .badTail), (lenBad o.len, .badTail)]
  | .vcmulCj o => firstOf [(o.opx != 0#2, .badTail), ((o.x && 8 ≤ o.b.toNat), .badTail), (o.c != 0#6, .badTail), (o.xl != 0#2, .badTail), (lenBad o.len, .badTail)]
  | .gcfg o => o.defectGraph true true
  | .gstart o => o.defectGraph false false
  | .gstop o => o.defectGraph false false
  | .gwait o => o.defectGraph false false
  | .greset o => o.defectGraph false false
  | .gnode o => o.defectGraph true false
  | .gstat o => firstOf [(32 ≤ o.d.toNat, .badF7), (32 ≤ o.a.toNat, .badTail), (o.b != 0#6, .badTail)]
  | .gquiet o => firstOf [(32 ≤ o.d.toNat, .badF7), (o.a != 0#6, .badTail), (o.b != 0#6, .badTail)]
  | .sunb o => o.defectSbind 0
  | .sbindVec o => o.defectSbind 1
  | .sbindPat o => o.defectSbind 2
  | .sbindNin o => o.defectSbind 3
  | .sbindNout o => o.defectSbind 4
  | .sbindNbr o => o.defectSbind 5
  | .sbindRtr o => o.defectSbind 6
  | .sbindBfy o => o.defectSbind 7
  | .sbindArr o => o.defectSbind 8
  | .spat o => o.defectSpat
  | .spushv o => firstOf [(16 ≤ o.d.toNat, .badF7), (o.x, .badF7), (o.opx != 0#2, .badTail), (o.b != 0#6, .badTail), (4 ≤ o.c.toNat, .badTail), (o.xl != 0#2, .badTail), (lenBad o.len, .badTail)]
  | .spopv o => firstOf [(16 ≤ o.d.toNat, .badF7), (o.x, .badF7), (o.opx != 0#2, .badTail), (8 ≤ o.b.toNat, .badTail), (o.c != 0#6, .badTail), (o.xl != 0#2, .badTail), (o.msk != 0#3, .badTail), (lenBad o.len, .badTail)]
  | .spopk o => firstOf [(16 ≤ o.d.toNat, .badF7), (o.x, .badF7), (o.opx != 0#2, .badTail), (8 ≤ o.a.toNat, .badTail), (8 ≤ o.b.toNat, .badTail), (o.xl != 0#2, .badTail), (o.msk != 0#3, .badTail), (lenBad o.len, .badTail)]
  | .stok o => firstOf [(16 ≤ o.d.toNat, .badF7), (32 ≤ o.a.toNat, .badTail), ((16 ≤ o.b.toNat || (4 ≤ o.b.toNat && o.b.toNat < 8)), .badTail)]
  | .sdone o => firstOf [(16 ≤ o.d.toNat, .badF7), (o.a != 0#6, .badTail), (o.b != 0#6, .badTail)]
  | .srank o => firstOf [(16 ≤ o.d.toNat, .badF7), (o.a != 0#6, .badTail), (8 ≤ o.b.toNat, .badTail)]
  | .spopg o => firstOf [(32 ≤ o.d.toNat, .badF7), (16 ≤ o.a.toNat, .badTail), (o.b != 0#6, .badTail)]
  | .rstage o => o.defectRstage
  | .scannerFire _ _ _ => none
  | .joinerFire _ _ _ => none
  | .repeaterFire _ _ _ => none
  | .reducerFire _ _ _ => none
  | .functionFire _ _ _ => none
  | .fetchReply _ _ _ => none
  | .writerFire _ _ _ => none
  | .patternRead _ _ _ => none
  | .patternWrite _ _ _ => none
  | .linkFlit _ _ _ => none
  | .routerFlit _ _ => none
  | .flitArrive _ _ _ => none
  | .slotCreditReturn _ _ => none
  | .cpy o => o.defectCopy 0
  | .cpyt o => o.defectCopy 1
  | .cpyg o => o.defectCopy 2
  | .cpyz o => o.defectCopy 3
  | .copyElementLand _ _ _ _ => none
  | .copyComplete _ _ _ => none
  | .halloc o => firstOf [(32 ≤ o.d.toNat, .badF7), (32 ≤ o.a.toNat, .badTail), (o.b != 0#6, .badTail)]
  | .hfree o => firstOf [(32 ≤ o.d.toNat, .badF7), (o.a != 0#6, .badTail), (o.b != 0#6, .badTail)]
  | .hgive o => firstOf [(32 ≤ o.d.toNat, .badF7), (32 ≤ o.a.toNat, .badTail), (o.b != 0#6, .badTail)]
  | .htake o => firstOf [(32 ≤ o.d.toNat, .badF7), (32 ≤ o.a.toNat, .badTail), (o.b != 0#6, .badTail)]
  | .hwait o => firstOf [(32 ≤ o.d.toNat, .badF7), (32 ≤ o.a.toNat, .badTail), (o.b != 0#6, .badTail)]
  | .hstat o => firstOf [(32 ≤ o.d.toNat, .badF7), (32 ≤ o.a.toNat, .badTail), (o.b != 0#6, .badTail)]
  | .binit o => firstOf [(32 ≤ o.d.toNat, .badF7), (32 ≤ o.a.toNat, .badTail), (5 ≤ o.b.toNat, .badTail)]
  | .bexpect o => firstOf [(32 ≤ o.d.toNat, .badF7), (32 ≤ o.a.toNat, .badTail), (o.b != 0#6, .badTail)]
  | .barrive o => firstOf [(32 ≤ o.d.toNat, .badF7), (32 ≤ o.a.toNat, .badTail), (5 ≤ o.b.toNat, .badTail)]
  | .bwait o => firstOf [(32 ≤ o.d.toNat, .badF7), (32 ≤ o.a.toNat, .badTail), (5 ≤ o.b.toNat, .badTail)]
  | .btest o => firstOf [(32 ≤ o.d.toNat, .badF7), (32 ≤ o.a.toNat, .badTail), (o.b != 0#6, .badTail)]
  | .barriveFire _ _ _ => none
  | .gangon o => firstOf [(32 ≤ o.d.toNat, .badF7), (32 ≤ o.a.toNat, .badTail), (o.b != 0#6, .badTail)]
  | .gangoff o => firstOf [(32 ≤ o.d.toNat, .badF7), (o.a != 0#6, .badTail), (o.b != 0#6, .badTail)]
  | .vldg o => firstOf [(spcBad o.spc, .badTail), (o.ix != 0#6, .badTail), (lenBad o.len, .badTail), (o.msk != 0#3 || o.len != 0#3, .badTail)]
  | .vldgDeliver _ _ => none
  | .phase o => firstOf [(5 ≤ o.toNat, .badF7)]
  | .fenceE => none
  | .nmfence => none
  | .coll o => firstOf [(32 ≤ o.d.toNat, .badF7), (32 ≤ o.a.toNat, .badTail), (32 ≤ o.b.toNat, .badTail)]
  | .ccwait o => firstOf [(32 ≤ o.d.toNat, .badF7), (32 ≤ o.a.toNat, .badTail), (32 ≤ o.b.toNat, .badTail)]
  | .ccread o => firstOf [(32 ≤ o.d.toNat, .badF7), (32 ≤ o.a.toNat, .badTail), (o.b != 0#6, .badTail)]
  | .collChunkComplete _ => none
  | .collTrafficTimeout _ => none
  | .advertisementArrive _ => none
  | .codingQueueHead => none
  | .codedPacketDecode _ => none
  | .awaitedBlockFill _ => none
  | .decodeTimeout _ => none
  | .fallbackRequest _ => none
  | .codedAck _ => none
  | .expertTokenSend _ _ => none
  | .rowRequest _ => none
  | .rowRefused _ => none
  | .expertCombineRow _ _ => none
  | .hubTranslationFault _ _ => none
  | .brule o => o.defectBrule
  | .bwalk o => o.defectBwalk
  | .walkStep _ => none
  | .walkMigrate _ => none
  | .migrationTimeout _ => none
  | .movWaitTimeout _ => none
  | .blockMovAck _ => none
  | .walkRegionCommit _ _ _ => none
  | .sliceOperation _ => none
  | .combiningFill _ => none
  | .combiningRelease _ => none
  | .returnFreeAck _ _ _ => none
  | .tqpush o => firstOf [(32 ≤ o.d.toNat, .badF7), (32 ≤ o.a.toNat, .badTail), (32 ≤ o.b.toNat, .badTail)]
  | .tqpop o => firstOf [(32 ≤ o.d.toNat, .badF7), (32 ≤ o.a.toNat, .badTail)]
  | .launch o => firstOf [(32 ≤ o.d.toNat, .badF7), (32 ≤ o.a.toNat, .badTail), (32 ≤ o.b.toNat, .badTail)]
  | .join o => firstOf [(32 ≤ o.d.toNat, .badF7), (32 ≤ o.a.toNat, .badTail)]
  | .sqpost o => firstOf [(32 ≤ o.d.toNat, .badF7), (32 ≤ o.a.toNat, .badTail), (32 ≤ o.b.toNat, .badTail)]
  | .cqpoll o => firstOf [(32 ≤ o.d.toNat, .badF7), (32 ≤ o.a.toNat, .badTail), (32 ≤ o.b.toNat, .badTail)]
  | .stageAgeExpiry _ _ _ => none
  | .stageInstanceStart _ _ _ => none
  | .instanceRetire _ _ _ => none
  | .commandDispatch _ _ _ => none
  | .commandRetire _ _ _ => none
  | .macroStop _ _ _ => none
  | .groupStart => none
  | .launchAdmit => none
  | .launchComplete _ => none
  | .preemptRequest _ => none
  | .nodeCut _ _ _ => none
  | .groupSave _ _ => none
  | .groupRestore _ _ => none
  | .lnqStart _ _ => none
  | .lnqDestroy _ => none
  | .lnqTail _ _ => none
  | .lnqPacketRead _ => none
  | .trapRecordWrite _ _ _ => none
  | .trqConsume _ => none
  | .replay _ _ _ _ _ => none
  | .resume _ _ _ _ _ => none
  | .stepOne _ _ _ _ _ => none
  | .endThread _ _ _ _ _ => none
  | .kill _ => none
  | .tlbinvPage64k _ _ => none
  | .tlbinvPage128m _ _ => none
  | .tlbinvPage256g _ _ => none
  | .tlbinvContext _ => none
  | .tlbinvAll => none
  | .tlbinvDone => none
  | .huskin _ => none
  | .huskout => none
  | .nvqStart _ _ => none
  | .nvqDestroy _ => none
  | .nvqDestroyDone _ _ => none
  | .driveAccess _ _ _ _ _ => none
  | .peerAccessArrive _ _ _ _ _ => none
  | .eccCorrected _ _ _ => none
  | .eccUncorrectable _ _ _ _ _ => none
  | .linkCrcFail _ _ => none
  | .selfTestEnd _ _ _ => none
  | .wearRotation _ => none
  | .hbmScrub _ _ => none
  | .bufferScrub _ _ _ _ _ => none
  | .phyCalibration _ => none
  | .serdesCalibration _ _ => none
  | .telemetrySnapshot => none
  | .elgConsume _ => none
  | .thermalSample _ => none
  | .thermtrip _ => none
  | .throttleUpdate _ => none
  | .trimStep _ _ => none
  | .powerUp => none
  | .resetPin _ => none
  | .bootStage _ _ => none
  | .hzload _ => none
  | .hzSlotReplace => none
  | .mregxgo _ => none
  | .redfishQuote _ => none
  | .rollbackAdvance _ _ => none
  | .registerWrite _ _ => none
  | .pcieEqualisation _ => none

/-- An instruction no field of which is reserved (R74, R91). -/
def Instr.WellFormed (i : Instr) : Prop := i.defect = none

/-- Whether an instruction is well formed, as a Boolean. -/
def Instr.wf (i : Instr) : Bool := i.defect.isNone

end Sys2Proof
end

