-- ==== Sys2Proof/Decode.lean ====
section
/-! DEFINITION. The encoding of the instructions (R68, R69, R74, R76 to R86): the decoder, total on every head and tail,
which rejects by name; after it the encoder, written from the same tables; and the reading of a row of
spec/opcode_table.json, whose bits are the tail's with the head above them. -/

namespace Sys2Proof

/-- The tail class of a head (R68). -/
def headTc (h : BitVec 16) : BitVec 2 := h.extractLsb' 14 2
/-- The major opcode of a head (R68). -/
def headMaj (h : BitVec 16) : BitVec 7 := h.extractLsb' 7 7
/-- The operand field of a head (R68). -/
def headF7 (h : BitVec 16) : BitVec 7 := h.extractLsb' 0 7
/-- The form bit X of fD, fT (R76). -/
def headX (h : BitVec 16) : Bool := h.extractLsb' 6 1 == 1#1
/-- The register field D of fD (R76). -/
def headD (h : BitVec 16) : BitVec 6 := h.extractLsb' 0 6

/-- The size in bytes of the tail that a head claims (R68, R69). -/
def tailSize (h : BitVec 16) : Nat :=
  match headTc h with
  | 0 => 0 | 1 => 2 | 2 => 4 | _ => 8

/-- T2A. -/
def OpA2.ofBits (h : BitVec 16) (t : BitVec 64) : OpA2 := ⟨headD h, t.extractLsb' 0 6, t.extractLsb' 6 6⟩
/-- T2W. -/
def OpW2.ofBits (h : BitVec 16) (t : BitVec 64) : OpW2 := ⟨headD h, t.extractLsb' 0 16⟩
/-- T4I. -/
def OpI4.ofBits (h : BitVec 16) (t : BitVec 64) : OpI4 := ⟨headD h, t.extractLsb' 22 6, t.extractLsb' 0 20⟩
/-- T4L. -/
def OpL4.ofBits (h : BitVec 16) (t : BitVec 64) : OpL4 :=
  ⟨headD h, t.extractLsb' 29 3, t.extractLsb' 26 3, t.extractLsb' 21 5, t.extractLsb' 0 20⟩
/-- T4A. -/
def OpAM.ofBits (h : BitVec 16) (t : BitVec 64) : OpAM :=
  ⟨headD h, t.extractLsb' 25 3, t.extractLsb' 23 2, t.extractLsb' 18 5, t.extractLsb' 13 5, t.extractLsb' 8 5⟩
/-- T4B. -/
def OpB4.ofBits (t : BitVec 64) : OpB4 :=
  ⟨t.extractLsb' 27 5, t.extractLsb' 22 5, t.extractLsb' 5 17, t.extractLsb' 0 5⟩
/-- T4J. -/
def OpJ4.ofBits (h : BitVec 16) (t : BitVec 64) : OpJ4 := ⟨headD h, t.extractLsb' 5 27, t.extractLsb' 0 5⟩
/-- T4W. -/
def OpW4.ofBits (h : BitVec 16) (t : BitVec 64) : OpW4 := ⟨headD h, t.extractLsb' 0 32⟩
/-- T8W. -/
def OpW8.ofBits (h : BitVec 16) (t : BitVec 64) : OpW8 := ⟨headD h, t⟩
/-- T4V; `opx` holds OP[5:4] in the majors that read them as modifiers and 0 elsewhere. -/
def OpV4.ofBits (h : BitVec 16) (t : BitVec 64) (opx : BitVec 2) : OpV4 :=
  ⟨headX h, opx, headD h, t.extractLsb' 8 6, t.extractLsb' 14 6, t.extractLsb' 20 6, t.extractLsb' 5 3,
    t.extractLsb' 2 3, t.extractLsb' 0 2⟩
/-- T4M. -/
def OpM4.ofBits (h : BitVec 16) (t : BitVec 64) : OpM4 :=
  ⟨headD h, t.extractLsb' 23 3, t.extractLsb' 18 5, t.extractLsb' 12 6, t.extractLsb' 5 3, t.extractLsb' 2 3⟩
/-- T4M of a tile transfer. -/
def OpMT.ofBits (h : BitVec 16) (t : BitVec 64) : OpMT :=
  ⟨headD h, t.extractLsb' 26 1 == 1#1, t.extractLsb' 23 3, t.extractLsb' 18 5⟩
/-- T8I. -/
def OpI8.ofBits (h : BitVec 16) (t : BitVec 64) : OpI8 :=
  ⟨headD h, t.extractLsb' 40 24, t.extractLsb' 16 24, t.extractLsb' 5 3, t.extractLsb' 2 3⟩
/-- T8M. -/
def OpM8.ofBits (h : BitVec 16) (t : BitVec 64) : OpM8 :=
  ⟨headD h, t.extractLsb' 60 4, t.extractLsb' 56 4, t.extractLsb' 52 4, t.extractLsb' 48 4, t.extractLsb' 42 6,
    t.extractLsb' 36 6, t.extractLsb' 33 3, t.extractLsb' 30 3, t.extractLsb' 27 3, t.extractLsb' 24 3⟩
/-- T8G. -/
def OpG8.ofBits (h : BitVec 16) (t : BitVec 64) : OpG8 :=
  ⟨headD h, t.extractLsb' 52 6, t.extractLsb' 46 6, t.extractLsb' 40 6, t.extractLsb' 37 3, t.extractLsb' 34 3,
    t.extractLsb' 0 32⟩
/-- T8G of VAMO. -/
def OpVA.ofBits (h : BitVec 16) (t : BitVec 64) : OpVA :=
  ⟨headD h, t.extractLsb' 52 6, t.extractLsb' 46 6, t.extractLsb' 40 6, t.extractLsb' 37 3, t.extractLsb' 34 3,
    t.extractLsb' 9 2, t.extractLsb' 8 1 == 1#1, t.extractLsb' 3 5, t.extractLsb' 0 3⟩

/-- An instruction, or the fault of a reserved encoding. -/
abbrev Decoded := Except Reject Instr

/-- Major 0x00. -/
def decode00 (h : BitVec 16) (_t : BitVec 64) (_lane : Bool) : Decoded :=
  if headTc h != 0#2 then .error .badTc
  else if headF7 h == 1#7 then .ok .nop else .error .badF7

/-- Major 0x01. -/
def decode01 (h : BitVec 16) (t : BitVec 64) (lane : Bool) : Decoded :=
  if headTc h != 1#2 then .error .badTc
  else if !lane && 32 ≤ (headD h).toNat then .error .badF7
  else match (t.extractLsb' 12 4).toNat with
  | 0 => if headX h then .ok (.addW (.ofBits h t)) else .ok (.add (.ofBits h t))
  | 1 => if headX h then .ok (.subW (.ofBits h t)) else .ok (.sub (.ofBits h t))
  | 2 => if headX h then .error .badF7 else .ok (.and_ (.ofBits h t))
  | 3 => if headX h then .error .badF7 else .ok (.or_ (.ofBits h t))
  | 4 => if headX h then .error .badF7 else .ok (.xor_ (.ofBits h t))
  | 5 => if headX h then .ok (.sllW (.ofBits h t)) else .ok (.sll (.ofBits h t))
  | 6 => if headX h then .ok (.srlW (.ofBits h t)) else .ok (.srl (.ofBits h t))
  | 7 => if headX h then .ok (.sraW (.ofBits h t)) else .ok (.sra (.ofBits h t))
  | 8 => if headX h then .error .badF7 else .ok (.slt (.ofBits h t))
  | 9 => if headX h then .error .badF7 else .ok (.sltu (.ofBits h t))
  | 10 => if headX h then .error .badF7 else .ok (.min (.ofBits h t))
  | 11 => if headX h then .error .badF7 else .ok (.max (.ofBits h t))
  | _ => .error .badTail

/-- Major 0x02: the reserved bits [21:20] of T4I come after the form bit X (log 71). -/
def decode02 (h : BitVec 16) (t : BitVec 64) (lane : Bool) : Decoded :=
  if headTc h != 2#2 then .error .badTc
  else if !lane && 32 ≤ (headD h).toNat then .error .badF7
  else match (t.extractLsb' 28 4).toNat with
  | 0 => tail20 t (if headX h then .addiW (.ofBits h t) else .addi (.ofBits h t))
  | 1 => if headX h then .error .badF7 else tail20 t (.andi (.ofBits h t))
  | 2 => if headX h then .error .badF7 else tail20 t (.ori (.ofBits h t))
  | 3 => if headX h then .error .badF7 else tail20 t (.xori (.ofBits h t))
  | 4 => tail20 t (if headX h then .slliW (.ofBits h t) else .slli (.ofBits h t))
  | 5 => tail20 t (if headX h then .srliW (.ofBits h t) else .srli (.ofBits h t))
  | 6 => tail20 t (if headX h then .sraiW (.ofBits h t) else .srai (.ofBits h t))
  | 7 => if headX h then .error .badF7 else tail20 t (.slti (.ofBits h t))
  | _ => .error .badTail
where
  /-- The reserved bits of T4I are 0. -/
  tail20 (t : BitVec 64) (i : Instr) : Decoded := if t.extractLsb' 20 2 != 0#2 then .error .badTail else .ok i

/-- Major 0x03. -/
def decode03 (h : BitVec 16) (t : BitVec 64) (lane : Bool) : Decoded :=
  if headTc h != 1#2 then .error .badTc
  else if !lane && 32 ≤ (headD h).toNat then .error .badF7
  else match (t.extractLsb' 12 4).toNat with
  | 0 => if headX h then .ok (.mulW (.ofBits h t)) else .ok (.mul (.ofBits h t))
  | 1 => if headX h then .error .badF7 else .ok (.mulh (.ofBits h t))
  | 2 => if headX h then .error .badF7 else .ok (.mulhu (.ofBits h t))
  | 3 => if headX h then .ok (.divW (.ofBits h t)) else .ok (.div (.ofBits h t))
  | 4 => if headX h then .ok (.divuW (.ofBits h t)) else .ok (.divu (.ofBits h t))
  | 5 => if headX h then .ok (.remW (.ofBits h t)) else .ok (.rem (.ofBits h t))
  | 6 => if headX h then .ok (.remuW (.ofBits h t)) else .ok (.remu (.ofBits h t))
  | _ => .error .badTail

/-- Major 0x04. -/
def decode04 (h : BitVec 16) (t : BitVec 64) (lane : Bool) : Decoded :=
  if headTc h != 1#2 then .error .badTc
  else if headX h then .error .badF7
  else if !lane && 32 ≤ (headD h).toNat then .error .badF7
  else match (t.extractLsb' 12 4).toNat with
  | 0 => .ok (.clz (.ofBits h t))
  | 1 => .ok (.ctz (.ofBits h t))
  | 2 => .ok (.popc (.ofBits h t))
  | _ => .error .badTail

/-- Major 0x05. -/
def decode05 (h : BitVec 16) (t : BitVec 64) (lane : Bool) : Decoded :=
  if headTc h != 2#2 then .error .badTc
  else if headX h then .error .badF7
  else if !lane && 32 ≤ (headD h).toNat then .error .badF7
  else match (t.extractLsb' 26 6).toNat with
  | 0 => .ok (.sel (.ofBits h t 0#2))
  | _ => .error .badTail

/-- Major 0x06. -/
def decode06 (h : BitVec 16) (t : BitVec 64) (_lane : Bool) : Decoded :=
  if headTc h == 2#2 then (if headX h then .error .badF7 else .ok (.limmT4w (.ofBits h t)))
  else if headTc h == 3#2 then (if headX h then .error .badF7 else .ok (.limmT8w (.ofBits h t)))
  else .error .badTc

/-- Major 0x07. -/
def decode07 (h : BitVec 16) (t : BitVec 64) (lane : Bool) : Decoded :=
  if headTc h != 2#2 then .error .badTc
  else if headX h then .error .badF7
  else if !lane && 32 ≤ (headD h).toNat then .error .badF7
  else .ok (.addpc (.ofBits h t))

/-- Major 0x08. -/
def decode08 (h : BitVec 16) (t : BitVec 64) (lane : Bool) : Decoded :=
  if headTc h != 2#2 then .error .badTc
  else if headX h then .error .badF7
  else if !lane && 32 ≤ (headD h).toNat then .error .badF7
  else if t.extractLsb' 20 1 != 0#1 then .error .badTail
  else .ok (.ld (.ofBits h t))

/-- Major 0x09. -/
def decode09 (h : BitVec 16) (t : BitVec 64) (lane : Bool) : Decoded :=
  if headTc h != 2#2 then .error .badTc
  else if headX h then .error .badF7
  else if !lane && 32 ≤ (headD h).toNat then .error .badF7
  else if t.extractLsb' 20 1 != 0#1 then .error .badTail
  else .ok (.st (.ofBits h t))

/-- Major 0x0A. -/
noncomputable def decode0A (h : BitVec 16) (t : BitVec 64) (lane : Bool) : Decoded :=
  if headTc h != 2#2 then .error .badTc
  else if headX h then .error .badF7
  else if !lane && 32 ≤ (headD h).toNat then .error .badF7
  else if t.extractLsb' 0 8 != 0#8 then .error .badTail
  else match (t.extractLsb' 28 4).toNat with
  | 0 => .ok (.amoAdd (.ofBits h t))
  | 1 => .ok (.amoAnd (.ofBits h t))
  | 2 => .ok (.amoOr (.ofBits h t))
  | 3 => .ok (.amoXor (.ofBits h t))
  | 4 => .ok (.amoMin (.ofBits h t))
  | 5 => .ok (.amoMax (.ofBits h t))
  | 6 => .ok (.amoMinu (.ofBits h t))
  | 7 => .ok (.amoMaxu (.ofBits h t))
  | 8 => .ok (.amoFadd (.ofBits h t))
  | 9 => .ok (.amoBfadd (.ofBits h t))
  | 10 => .ok (.amoSwap (.ofBits h t))
  | 11 => .ok (.amoCas (.ofBits h t))
  | _ => .error .badTail

/-- Major 0x0B. -/
def decode0B (h : BitVec 16) (t : BitVec 64) (_lane : Bool) : Decoded :=
  if headTc h != 2#2 then .error .badTc
  else if h.extractLsb' 0 4 != 0#4 then .error .badF7
  else match (h.extractLsb' 4 3).toNat with
  | 0 => .ok (.bEq (.ofBits t))
  | 1 => .ok (.bNe (.ofBits t))
  | 2 => .ok (.bLt (.ofBits t))
  | 3 => .ok (.bGe (.ofBits t))
  | 4 => .ok (.bLtu (.ofBits t))
  | 5 => .ok (.bGeu (.ofBits t))
  | _ => .error .badF7

/-- Major 0x0C. -/
def decode0C (h : BitVec 16) (t : BitVec 64) (lane : Bool) : Decoded :=
  if headTc h != 2#2 then .error .badTc
  else if headX h then .error .badF7
  else if !lane && 1 ≤ (headD h).toNat then .error .badF7
  else .ok (.jmp (.ofBits h t))

/-- Major 0x0D. -/
def decode0D (h : BitVec 16) (t : BitVec 64) (lane : Bool) : Decoded :=
  if headTc h != 2#2 then .error .badTc
  else if headX h then .error .badF7
  else if !lane && 32 ≤ (headD h).toNat then .error .badF7
  else .ok (.call (.ofBits h t))

/-- Major 0x0E. -/
def decode0E (h : BitVec 16) (t : BitVec 64) (lane : Bool) : Decoded :=
  if headTc h != 1#2 then .error .badTc
  else if headX h then .error .badF7
  else if !lane && 32 ≤ (headD h).toNat then .error .badF7
  else match (t.extractLsb' 12 4).toNat with
  | 0 => .ok (.jmpr (.ofBits h t))
  | _ => .error .badTail

/-- Major 0x0F. -/
def decode0F (h : BitVec 16) (t : BitVec 64) (lane : Bool) : Decoded :=
  if headTc h != 2#2 then .error .badTc
  else if headX h then .error .badF7
  else if !lane && 32 ≤ (headD h).toNat then .error .badF7
  else .ok (.loop (.ofBits h t))

/-- Major 0x10. -/
def decode10 (h : BitVec 16) (t : BitVec 64) (lane : Bool) : Decoded :=
  if headTc h != 2#2 then .error .badTc
  else if headX h then .error .badF7
  else if !lane && 1 ≤ (headD h).toNat then .error .badF7
  else .ok (.vfetch (.ofBits h t))

/-- Major 0x11. -/
def decode11 (h : BitVec 16) (_t : BitVec 64) (_lane : Bool) : Decoded :=
  if headTc h != 0#2 then .error .badTc
  else if headF7 h != 0#7 then .error .badF7
  else .ok .vend

/-- Major 0x12. -/
def decode12 (h : BitVec 16) (t : BitVec 64) (lane : Bool) : Decoded :=
  if headTc h != 1#2 then .error .badTc
  else if headX h then .error .badF7
  else if !lane && 32 ≤ (headD h).toNat then .error .badF7
  else .ok (.getid (.ofBits h t))

/-- Major 0x13. -/
def decode13 (h : BitVec 16) (_t : BitVec 64) (lane : Bool) : Decoded :=
  if headTc h != 0#2 then .error .badTc
  else if headX h then .error .badF7
  else if !lane && 32 ≤ (headD h).toNat then .error .badF7
  else .ok (.caps (headD h))

/-- Major 0x14. -/
def decode14 (h : BitVec 16) (t : BitVec 64) (lane : Bool) : Decoded :=
  if headTc h != 1#2 then .error .badTc
  else if !lane && 32 ≤ (headD h).toNat then .error .badF7
  else if headX h then .ok (.syswr (.ofBits h t)) else .ok (.sysrd (.ofBits h t))

/-- Major 0x1F. -/
def decode1F (h : BitVec 16) (t : BitVec 64) (_lane : Bool) : Decoded :=
  match (headF7 h).toNat with
  | 0 => if headTc h == 0#2 then .ok .hret else .error .badTc
  | 1 => if headTc h == 0#2 then .ok .dstop else .error .badTc
  | 2 => if headTc h == 0#2 then .ok .waitev else .error .badTc
  | 3 => if headTc h == 0#2 then .ok .cede else .error .badTc
  | 4 => if headTc h == 0#2 then .ok .halt else .error .badTc
  | 5 => if headTc h == 1#2 then .ok (.trap ⟨0#6, t.extractLsb' 0 16⟩) else .error .badTc
  | _ => .error .badF7

/-- Major 0x20. -/
def decode20 (h : BitVec 16) (t : BitVec 64) (lane : Bool) : Decoded :=
  if headTc h != 1#2 then .error .badTc
  else if headX h then .error .badF7
  else if !lane && 32 ≤ (headD h).toNat then .error .badF7
  else match (t.extractLsb' 12 4).toNat with
  | 0 => .ok (.vsetl (.ofBits h t))
  | 1 => .ok (.vsetlLq (.ofBits h t))
  | _ => .error .badTail

/-- Major 0x21. -/
def decode21 (h : BitVec 16) (t : BitVec 64) (lane : Bool) : Decoded :=
  if headTc h != 2#2 then .error .badTc
  else if headX h then .error .badF7
  else if !lane && 32 ≤ (headD h).toNat then .error .badF7
  else .ok (.vsett (.ofBits h t))

/-- Major 0x22. -/
def decode22 (h : BitVec 16) (t : BitVec 64) (_lane : Bool) : Decoded :=
  if headTc h != 3#2 then .error .badTc
  else if headX h then .error .badF7
  else if t.extractLsb' 8 8 != 0#8 || t.extractLsb' 0 2 != 0#2 then .error .badTail
  else .ok (.vidx (.ofBits h t))

/-- Major 0x23. -/
def decode23 (h : BitVec 16) (t : BitVec 64) (_lane : Bool) : Decoded :=
  if headTc h != 2#2 then .error .badTc
  else match (t.extractLsb' 26 4).toNat with
  | 0 => .ok (.vadd (.ofBits h t (t.extractLsb' 30 2)))
  | 1 => .ok (.vsub (.ofBits h t (t.extractLsb' 30 2)))
  | 2 => .ok (.vmul (.ofBits h t (t.extractLsb' 30 2)))
  | 3 => .ok (.vand (.ofBits h t (t.extractLsb' 30 2)))
  | 4 => .ok (.vor (.ofBits h t (t.extractLsb' 30 2)))
  | 5 => .ok (.vxor (.ofBits h t (t.extractLsb' 30 2)))
  | 6 => .ok (.vsll (.ofBits h t (t.extractLsb' 30 2)))
  | 7 => .ok (.vsrl (.ofBits h t (t.extractLsb' 30 2)))
  | 8 => .ok (.vsra (.ofBits h t (t.extractLsb' 30 2)))
  | 9 => .ok (.vmin (.ofBits h t (t.extractLsb' 30 2)))
  | 10 => .ok (.vmax (.ofBits h t (t.extractLsb' 30 2)))
  | 11 => .ok (.vsadd (.ofBits h t (t.extractLsb' 30 2)))
  | 12 => .ok (.vssub (.ofBits h t (t.extractLsb' 30 2)))
  | _ => .error .badTail

/-- Major 0x24. -/
def decode24 (h : BitVec 16) (t : BitVec 64) (_lane : Bool) : Decoded :=
  if headTc h != 2#2 then .error .badTc
  else match (t.extractLsb' 26 6).toNat with
  | 0 => .ok (.vfadd (.ofBits h t 0#2))
  | 1 => .ok (.vfsub (.ofBits h t 0#2))
  | 2 => .ok (.vfmul (.ofBits h t 0#2))
  | 3 => .ok (.vfdiv (.ofBits h t 0#2))
  | 4 => .ok (.vfma (.ofBits h t 0#2))
  | 5 => .ok (.vfms (.ofBits h t 0#2))
  | 6 => .ok (.vfmin (.ofBits h t 0#2))
  | 7 => .ok (.vfmax (.ofBits h t 0#2))
  | 8 => .ok (.vfsqrt (.ofBits h t 0#2))
  | 9 => .ok (.vfabs (.ofBits h t 0#2))
  | 16 => .ok (.vfexp (.ofBits h t 0#2))
  | 17 => .ok (.vflog (.ofBits h t 0#2))
  | 18 => .ok (.vfrcp (.ofBits h t 0#2))
  | 19 => .ok (.vfrsq (.ofBits h t 0#2))
  | 20 => .ok (.vftanh (.ofBits h t 0#2))
  | _ => .error .badTail

/-- Major 0x25. -/
def decode25 (h : BitVec 16) (t : BitVec 64) (_lane : Bool) : Decoded :=
  if headTc h != 3#2 then .error .badTc
  else if headX h then .error .badF7
  else if t.extractLsb' 32 2 != 0#2 then .error .badTail
  else match (t.extractLsb' 58 6).toNat with
  | 0 => .ok (.vcvt (.ofBits h t))
  | _ => .error .badTail

/-- Major 0x26. -/
def decode26 (h : BitVec 16) (t : BitVec 64) (lane : Bool) : Decoded :=
  if headTc h != 2#2 then .error .badTc
  else if !lane && 8 ≤ (headD h).toNat then .error .badF7
  else match (t.extractLsb' 26 6).toNat with
  | 0 => .ok (.vcmpEq (.ofBits h t 0#2))
  | 1 => .ok (.vcmpNe (.ofBits h t 0#2))
  | 2 => .ok (.vcmpLt (.ofBits h t 0#2))
  | 3 => .ok (.vcmpGe (.ofBits h t 0#2))
  | 4 => .ok (.vcmpLtu (.ofBits h t 0#2))
  | 5 => .ok (.vcmpGeu (.ofBits h t 0#2))
  | 8 => .ok (.vfcmpEq (.ofBits h t 0#2))
  | 9 => .ok (.vfcmpNe (.ofBits h t 0#2))
  | 10 => .ok (.vfcmpLt (.ofBits h t 0#2))
  | 11 => .ok (.vfcmpGe (.ofBits h t 0#2))
  | 12 => .ok (.vfcmpUn (.ofBits h t 0#2))
  | 13 => .ok (.vfcmpOrd (.ofBits h t 0#2))
  | _ => .error .badTail

/-- Major 0x27. -/
def decode27 (h : BitVec 16) (t : BitVec 64) (lane : Bool) : Decoded :=
  if headTc h != 1#2 then .error .badTc
  else if headX h then .error .badF7
  else if !lane && 8 ≤ (headD h).toNat then .error .badF7
  else match (t.extractLsb' 12 4).toNat with
  | 0 => .ok (.mand (.ofBits h t))
  | 1 => .ok (.mor (.ofBits h t))
  | 2 => .ok (.mxor (.ofBits h t))
  | 3 => .ok (.mandn (.ofBits h t))
  | _ => .error .badTail

/-- Major 0x28. -/
def decode28 (h : BitVec 16) (t : BitVec 64) (lane : Bool) : Decoded :=
  if headTc h != 1#2 then .error .badTc
  else if !lane && (if headX h then 32 else 4) ≤ (headD h).toNat then .error .badF7
  else match (t.extractLsb' 12 4).toNat with
  | 0 => if headX h then .ok (.mpopcG (.ofBits h t)) else .ok (.mpopcLq (.ofBits h t))
  | _ => .error .badTail

/-- Major 0x29. -/
def decode29 (h : BitVec 16) (t : BitVec 64) (_lane : Bool) : Decoded :=
  if headTc h != 2#2 then .error .badTc
  else match (t.extractLsb' 26 6).toNat with
  | 0 => .ok (.vcomp (.ofBits h t 0#2))
  | 1 => .ok (.vexpd (.ofBits h t 0#2))
  | 2 => .ok (.vslup (.ofBits h t 0#2))
  | 3 => .ok (.vsldn (.ofBits h t 0#2))
  | 4 => .ok (.vshuf (.ofBits h t 0#2))
  | 5 => .ok (.vsperm (.ofBits h t 0#2))
  | 6 => .ok (.vmerge (.ofBits h t 0#2))
  | _ => .error .badTail

/-- Major 0x2A. -/
def decode2A (h : BitVec 16) (t : BitVec 64) (lane : Bool) : Decoded :=
  if headTc h != 1#2 then .error .badTc
  else if !lane && 32 ≤ (headD h).toNat then .error .badF7
  else match (t.extractLsb' 12 4).toNat with
  | 0 => if headX h then .ok (.vmvxU (.ofBits h t)) else .ok (.vmvx (.ofBits h t))
  | _ => .error .badTail

/-- Major 0x2B. -/
def decode2B (h : BitVec 16) (t : BitVec 64) (_lane : Bool) : Decoded :=
  if headTc h != 2#2 then .error .badTc
  else if headX h then .error .badF7
  else match (t.extractLsb' 26 4).toNat with
  | 0 => .ok (.vredsum (.ofBits h t (t.extractLsb' 30 2)))
  | 1 => .ok (.vredmax (.ofBits h t (t.extractLsb' 30 2)))
  | 2 => .ok (.vredmin (.ofBits h t (t.extractLsb' 30 2)))
  | 3 => .ok (.vfredsum (.ofBits h t (t.extractLsb' 30 2)))
  | 4 => .ok (.vfredmax (.ofBits h t (t.extractLsb' 30 2)))
  | 5 => .ok (.vfredmin (.ofBits h t (t.extractLsb' 30 2)))
  | 6 => .ok (.vargmax (.ofBits h t (t.extractLsb' 30 2)))
  | 7 => .ok (.vargmin (.ofBits h t (t.extractLsb' 30 2)))
  | 8 => .ok (.vscan (.ofBits h t (t.extractLsb' 30 2)))
  | 9 => .ok (.vsegsum (.ofBits h t (t.extractLsb' 30 2)))
  | _ => .error .badTail

/-- Major 0x2C. -/
def decode2C (h : BitVec 16) (t : BitVec 64) (_lane : Bool) : Decoded :=
  if headTc h != 2#2 then .error .badTc
  else if headX h then .error .badF7
  else match (t.extractLsb' 26 6).toNat with
  | 0 => .ok (.vsortk (.ofBits h t 0#2))
  | 1 => .ok (.vuniq (.ofBits h t 0#2))
  | 32 => .ok (.vsortkP (.ofBits h t 0#2))
  | _ => .error .badTail

/-- Major 0x2D: D names a k register in VLDK and a w register in VLDW. -/
def decode2D (h : BitVec 16) (t : BitVec 64) (_lane : Bool) : Decoded :=
  if headTc h != 2#2 then .error .badTc
  else if headX h then .error .badF7
  else if (t.extractLsb' 26 6 == 4#6 && 16 ≤ (headD h).toNat) || (t.extractLsb' 26 6 == 5#6 && 8 ≤ (headD h).toNat) then .error .badF7
  else if t.extractLsb' 8 4 != 0#4 || t.extractLsb' 0 2 != 0#2 then .error .badTail
  else match (t.extractLsb' 26 6).toNat with
  | 0 => .ok (.vld (.ofBits h t))
  | 1 => .ok (.vlds (.ofBits h t))
  | 2 => .ok (.vldx (.ofBits h t))
  | 3 => .ok (.vldbp (.ofBits h t))
  | 4 => .ok (.vldk (.ofBits h t))
  | 5 => .ok (.vldw (.ofBits h t))
  | _ => .error .badTail

/-- Major 0x2E. -/
def decode2E (h : BitVec 16) (t : BitVec 64) (_lane : Bool) : Decoded :=
  if headTc h != 2#2 then .error .badTc
  else if headX h then .error .badF7
  else if t.extractLsb' 8 4 != 0#4 || t.extractLsb' 0 2 != 0#2 then .error .badTail
  else match (t.extractLsb' 26 6).toNat with
  | 0 => .ok (.vst (.ofBits h t))
  | 1 => .ok (.vsts (.ofBits h t))
  | 2 => .ok (.vstx (.ofBits h t))
  | 3 => .ok (.vstbp (.ofBits h t))
  | 4 => .ok (.vscadd (.ofBits h t))
  | _ => .error .badTail

/-- Major 0x2F. -/
def decode2F (h : BitVec 16) (t : BitVec 64) (_lane : Bool) : Decoded :=
  if headTc h != 3#2 then .error .badTc
  else if headX h then .error .badF7
  else if t.extractLsb' 58 6 != 0#6 || t.extractLsb' 32 2 != 0#2 || t.extractLsb' 15 17 != 0#17 then .error .badTail
  else match (t.extractLsb' 11 4).toNat with
  | 0 => .ok (.vamoAdd (.ofBits h t))
  | 1 => .ok (.vamoAnd (.ofBits h t))
  | 2 => .ok (.vamoOr (.ofBits h t))
  | 3 => .ok (.vamoXor (.ofBits h t))
  | 4 => .ok (.vamoMin (.ofBits h t))
  | 5 => .ok (.vamoMax (.ofBits h t))
  | 6 => .ok (.vamoMinu (.ofBits h t))
  | 7 => .ok (.vamoMaxu (.ofBits h t))
  | 8 => .ok (.vamoFadd (.ofBits h t))
  | 9 => .ok (.vamoBfadd (.ofBits h t))
  | 10 => .ok (.vamoSwap (.ofBits h t))
  | 11 => .ok (.vamoCas (.ofBits h t))
  | _ => .error .badTail

/-- Major 0x50. -/
def decode50 (h : BitVec 16) (t : BitVec 64) (lane : Bool) : Decoded :=
  if headTc h != 3#2 then .error .badTc
  else if !lane && 4 ≤ (headD h).toNat then .error .badF7
  else if t.extractLsb' 0 24 != 0#24 then .error .badTail
  else if headX h then .ok (.opsub (.ofBits h t)) else .ok (.opacc (.ofBits h t))

/-- Major 0x51. -/
def decode51 (h : BitVec 16) (_t : BitVec 64) (lane : Bool) : Decoded :=
  if headTc h != 0#2 then .error .badTc
  else if headX h then .error .badF7
  else if !lane && 4 ≤ (headD h).toNat then .error .badF7
  else .ok (.mzero (headD h))

/-- Major 0x52. -/
def decode52 (h : BitVec 16) (t : BitVec 64) (lane : Bool) : Decoded :=
  if headTc h != 2#2 then .error .badTc
  else if !lane && 4 ≤ (headD h).toNat then .error .badF7
  else if t.extractLsb' 27 5 != 0#5 || t.extractLsb' 0 18 != 0#18 then .error .badTail
  else if headX h then .ok (.mstt (.ofBits h t)) else .ok (.mldt (.ofBits h t))

/-- Major 0x53. -/
def decode53 (h : BitVec 16) (t : BitVec 64) (_lane : Bool) : Decoded :=
  if headTc h != 2#2 then .error .badTc
  else if headX h then .error .badF7
  else match (t.extractLsb' 26 6).toNat with
  | 0 => .ok (.mrowv (.ofBits h t 0#2))
  | 1 => .ok (.mvrow (.ofBits h t 0#2))
  | 2 => .ok (.mcolv (.ofBits h t 0#2))
  | 3 => .ok (.mvcol (.ofBits h t 0#2))
  | _ => .error .badTail

/-- Major 0x54. -/
def decode54 (h : BitVec 16) (t : BitVec 64) (lane : Bool) : Decoded :=
  if headTc h != 3#2 then .error .badTc
  else if headX h then .error .badF7
  else if !lane && 1 ≤ (headD h).toNat then .error .badF7
  else if t.extractLsb' 32 2 != 0#2 then .error .badTail
  else match (t.extractLsb' 58 6).toNat with
  | 0 => .ok (.mchain (.ofBits h t))
  | 1 => if t.extractLsb' 7 1 == 1#1 then .ok (.mdrainStream (.ofBits h t)) else .ok (.mdrain (.ofBits h t))
  | 2 => .ok (.msetc (.ofBits h t))
  | _ => .error .badTail

/-- Major 0x55. -/
def decode55 (h : BitVec 16) (t : BitVec 64) (lane : Bool) : Decoded :=
  if headTc h != 3#2 then .error .badTc
  else if headX h then .error .badF7
  else if !lane && 4 ≤ (headD h).toNat then .error .badF7
  else if t.extractLsb' 32 2 != 0#2 then .error .badTail
  else match (t.extractLsb' 58 6).toNat with
  | 0 => .ok (.mtile (.ofBits h t))
  | _ => .error .badTail

/-- Major 0x56. -/
def decode56 (h : BitVec 16) (t : BitVec 64) (lane : Bool) : Decoded :=
  if headTc h != 3#2 then .error .badTc
  else if headX h then .error .badF7
  else if !lane && 1 ≤ (headD h).toNat then .error .badF7
  else if t.extractLsb' 32 2 != 0#2 then .error .badTail
  else match (t.extractLsb' 58 6).toNat with
  | 0 => .ok (.bfy (.ofBits h t))
  | 1 => .ok (.bpass (.ofBits h t))
  | 2 => if t.extractLsb' 9 1 == 1#1 then .ok (.bpermRev (.ofBits h t)) else .ok (.bperm (.ofBits h t))
  | 3 => if t.extractLsb' 0 1 == 1#1 then .ok (.twgenMod (.ofBits h t)) else .ok (.twgenCplx (.ofBits h t))
  | 4 => .ok (.bfpnorm (.ofBits h t))
  | _ => .error .badTail

/-- Major 0x57. -/
def decode57 (h : BitVec 16) (t : BitVec 64) (lane : Bool) : Decoded :=
  if headTc h != 3#2 then .error .badTc
  else if headX h then .error .badF7
  else if !lane && 1 ≤ (headD h).toNat then .error .badF7
  else if t.extractLsb' 32 2 != 0#2 then .error .badTail
  else match (t.extractLsb' 58 6).toNat with
  | 0 => .ok (.txf (.ofBits h t))
  | _ => .error .badTail

/-- Major 0x58. -/
def decode58 (h : BitVec 16) (t : BitVec 64) (_lane : Bool) : Decoded :=
  if headTc h != 2#2 then .error .badTc
  else match (t.extractLsb' 26 6).toNat with
  | 0 => .ok (.nadd (.ofBits h t 0#2))
  | 1 => .ok (.nsub (.ofBits h t 0#2))
  | 2 => if headX h then .ok (.nmulW (.ofBits h t 0#2)) else .ok (.nmul (.ofBits h t 0#2))
  | 3 => .ok (.nbfy (.ofBits h t 0#2))
  | 4 => .ok (.ncrt (.ofBits h t 0#2))
  | 5 => .ok (.nfrom (.ofBits h t 0#2))
  | 6 => .ok (.nto (.ofBits h t 0#2))
  | _ => .error .badTail

/-- Major 0x59. -/
def decode59 (h : BitVec 16) (t : BitVec 64) (lane : Bool) : Decoded :=
  if headTc h != 1#2 then .error .badTc
  else if headX h then .error .badF7
  else if !lane && 1 ≤ (headD h).toNat then .error .badF7
  else match (t.extractLsb' 12 4).toNat with
  | 0 => .ok (.nmodset (.ofBits h t))
  | _ => .error .badTail

/-- Major 0x5A. -/
def decode5A (h : BitVec 16) (t : BitVec 64) (lane : Bool) : Decoded :=
  if headTc h != 1#2 then .error .badTc
  else if headX h then .error .badF7
  else if !lane && 32 ≤ (headD h).toNat then .error .badF7
  else match (t.extractLsb' 12 4).toNat with
  | 0 => .ok (.nchk (.ofBits h t))
  | _ => .error .badTail

/-- Major 0x5B. -/
def decode5B (h : BitVec 16) (t : BitVec 64) (_lane : Bool) : Decoded :=
  if headTc h != 2#2 then .error .badTc
  else match (t.extractLsb' 26 6).toNat with
  | 0 => .ok (.vcmul (.ofBits h t 0#2))
  | 1 => .ok (.vcmulCj (.ofBits h t 0#2))
  | _ => .error .badTail

/-- Major 0x60. -/
def decode60 (h : BitVec 16) (t : BitVec 64) (lane : Bool) : Decoded :=
  if headTc h != 3#2 then .error .badTc
  else if headX h then .error .badF7
  else if !lane && 1 ≤ (headD h).toNat then .error .badF7
  else if t.extractLsb' 32 2 != 0#2 then .error .badTail
  else match (t.extractLsb' 58 6).toNat with
  | 0 => .ok (.gcfg (.ofBits h t))
  | 1 => .ok (.gstart (.ofBits h t))
  | 2 => .ok (.gstop (.ofBits h t))
  | 3 => .ok (.gwait (.ofBits h t))
  | 4 => .ok (.greset (.ofBits h t))
  | 5 => .ok (.gnode (.ofBits h t))
  | _ => .error .badTail

/-- Major 0x61. -/
def decode61 (h : BitVec 16) (t : BitVec 64) (lane : Bool) : Decoded :=
  if headTc h != 1#2 then .error .badTc
  else if headX h then .error .badF7
  else if !lane && 32 ≤ (headD h).toNat then .error .badF7
  else match (t.extractLsb' 12 4).toNat with
  | 0 => .ok (.gstat (.ofBits h t))
  | 1 => .ok (.gquiet (.ofBits h t))
  | _ => .error .badTail

/-- Major 0x62. -/
def decode62 (h : BitVec 16) (t : BitVec 64) (lane : Bool) : Decoded :=
  if headTc h != 3#2 then .error .badTc
  else if headX h then .error .badF7
  else if !lane && 16 ≤ (headD h).toNat then .error .badF7
  else if t.extractLsb' 32 2 != 0#2 then .error .badTail
  else match (t.extractLsb' 58 6).toNat with
  | 0 => .ok (.sunb (.ofBits h t))
  | 1 => .ok (.sbindVec (.ofBits h t))
  | 2 => .ok (.sbindPat (.ofBits h t))
  | 3 => .ok (.sbindNin (.ofBits h t))
  | 4 => .ok (.sbindNout (.ofBits h t))
  | 5 => .ok (.sbindNbr (.ofBits h t))
  | 6 => .ok (.sbindRtr (.ofBits h t))
  | 7 => .ok (.sbindBfy (.ofBits h t))
  | 8 => .ok (.sbindArr (.ofBits h t))
  | _ => .error .badTail

/-- Major 0x63. -/
def decode63 (h : BitVec 16) (t : BitVec 64) (lane : Bool) : Decoded :=
  if headTc h != 3#2 then .error .badTc
  else if headX h then .error .badF7
  else if !lane && 16 ≤ (headD h).toNat then .error .badF7
  else if t.extractLsb' 32 2 != 0#2 then .error .badTail
  else match (t.extractLsb' 58 6).toNat with
  | 0 => .ok (.spat (.ofBits h t))
  | _ => .error .badTail

/-- Major 0x64. -/
def decode64 (h : BitVec 16) (t : BitVec 64) (lane : Bool) : Decoded :=
  if headTc h != 2#2 then .error .badTc
  else if headX h then .error .badF7
  else if !lane && 16 ≤ (headD h).toNat then .error .badF7
  else match (t.extractLsb' 26 6).toNat with
  | 0 => .ok (.spushv (.ofBits h t 0#2))
  | 1 => .ok (.spopv (.ofBits h t 0#2))
  | 2 => .ok (.spopk (.ofBits h t 0#2))
  | _ => .error .badTail

/-- Major 0x65. -/
def decode65 (h : BitVec 16) (t : BitVec 64) (lane : Bool) : Decoded :=
  if headTc h != 1#2 then .error .badTc
  else if headX h then .error .badF7
  else if !lane && 16 ≤ (headD h).toNat then .error .badF7
  else match (t.extractLsb' 12 4).toNat with
  | 0 => .ok (.stok (.ofBits h t))
  | 1 => .ok (.sdone (.ofBits h t))
  | 2 => .ok (.srank (.ofBits h t))
  | _ => .error .badTail

/-- Major 0x66. -/
def decode66 (h : BitVec 16) (t : BitVec 64) (lane : Bool) : Decoded :=
  if headTc h != 1#2 then .error .badTc
  else if headX h then .error .badF7
  else if !lane && 32 ≤ (headD h).toNat then .error .badF7
  else match (t.extractLsb' 12 4).toNat with
  | 0 => .ok (.spopg (.ofBits h t))
  | _ => .error .badTail

/-- Major 0x67. -/
def decode67 (h : BitVec 16) (t : BitVec 64) (lane : Bool) : Decoded :=
  if headTc h != 3#2 then .error .badTc
  else if headX h then .error .badF7
  else if !lane && 1 ≤ (headD h).toNat then .error .badF7
  else if t.extractLsb' 32 2 != 0#2 then .error .badTail
  else match (t.extractLsb' 58 6).toNat with
  | 0 => .ok (.rstage (.ofBits h t))
  | _ => .error .badTail

/-- Major 0x70. -/
def decode70 (h : BitVec 16) (t : BitVec 64) (lane : Bool) : Decoded :=
  if headTc h != 3#2 then .error .badTc
  else if headX h then .error .badF7
  else if !lane && 32 ≤ (headD h).toNat then .error .badF7
  else if t.extractLsb' 32 2 != 0#2 then .error .badTail
  else match (t.extractLsb' 58 6).toNat with
  | 0 => .ok (.cpy (.ofBits h t))
  | 1 => .ok (.cpyt (.ofBits h t))
  | 2 => .ok (.cpyg (.ofBits h t))
  | 3 => .ok (.cpyz (.ofBits h t))
  | _ => .error .badTail

/-- Major 0x71. -/
noncomputable def decode71 (h : BitVec 16) (t : BitVec 64) (lane : Bool) : Decoded :=
  if headTc h != 1#2 then .error .badTc
  else if headX h then .error .badF7
  else if !lane && 32 ≤ (headD h).toNat then .error .badF7
  else match (t.extractLsb' 12 4).toNat with
  | 0 => .ok (.halloc (.ofBits h t))
  | 1 => .ok (.hfree (.ofBits h t))
  | 2 => .ok (.hgive (.ofBits h t))
  | 3 => .ok (.htake (.ofBits h t))
  | 4 => .ok (.hwait (.ofBits h t))
  | 5 => .ok (.hstat (.ofBits h t))
  | _ => .error .badTail

/-- Major 0x72. -/
noncomputable def decode72 (h : BitVec 16) (t : BitVec 64) (lane : Bool) : Decoded :=
  if headTc h != 1#2 then .error .badTc
  else if headX h then .error .badF7
  else if !lane && 32 ≤ (headD h).toNat then .error .badF7
  else match (t.extractLsb' 12 4).toNat with
  | 0 => .ok (.binit (.ofBits h t))
  | 1 => .ok (.bexpect (.ofBits h t))
  | 2 => .ok (.barrive (.ofBits h t))
  | 3 => .ok (.bwait (.ofBits h t))
  | 4 => .ok (.btest (.ofBits h t))
  | _ => .error .badTail

/-- Major 0x73. -/
noncomputable def decode73 (h : BitVec 16) (t : BitVec 64) (lane : Bool) : Decoded :=
  if headTc h != 1#2 then .error .badTc
  else if headX h then .error .badF7
  else if !lane && 32 ≤ (headD h).toNat then .error .badF7
  else match (t.extractLsb' 12 4).toNat with
  | 0 => .ok (.gangon (.ofBits h t))
  | 1 => .ok (.gangoff (.ofBits h t))
  | _ => .error .badTail

/-- Major 0x74. -/
def decode74 (h : BitVec 16) (t : BitVec 64) (_lane : Bool) : Decoded :=
  if headTc h != 2#2 then .error .badTc
  else if headX h then .error .badF7
  else if t.extractLsb' 8 4 != 0#4 || t.extractLsb' 0 2 != 0#2 then .error .badTail
  else match (t.extractLsb' 26 6).toNat with
  | 0 => .ok (.vldg (.ofBits h t))
  | _ => .error .badTail

/-- Major 0x75. -/
noncomputable def decode75 (h : BitVec 16) (_t : BitVec 64) (_lane : Bool) : Decoded :=
  if headTc h != 0#2 then .error .badTc
  else if h.extractLsb' 3 1 != 0#1 then .error .badF7
  else match (h.extractLsb' 4 3).toNat with
  | 0 => .ok (.phase (h.extractLsb' 0 3))
  | 1 => if h.extractLsb' 0 3 == 0#3 then .ok .fenceE else .error .badF7
  | 2 => if h.extractLsb' 0 3 == 0#3 then .ok .nmfence else .error .badF7
  | _ => .error .badF7

/-- Major 0x76. -/
noncomputable def decode76 (h : BitVec 16) (t : BitVec 64) (lane : Bool) : Decoded :=
  if headTc h != 1#2 then .error .badTc
  else if headX h then .error .badF7
  else if !lane && 32 ≤ (headD h).toNat then .error .badF7
  else match (t.extractLsb' 12 4).toNat with
  | 0 => .ok (.coll (.ofBits h t))
  | 1 => .ok (.ccwait (.ofBits h t))
  | 2 => .ok (.ccread (.ofBits h t))
  | _ => .error .badTail

/-- Major 0x77. -/
def decode77 (h : BitVec 16) (t : BitVec 64) (lane : Bool) : Decoded :=
  if headTc h != 3#2 then .error .badTc
  else if headX h then .error .badF7
  else if !lane && 32 ≤ (headD h).toNat then .error .badF7
  else if t.extractLsb' 32 2 != 0#2 then .error .badTail
  else match (t.extractLsb' 58 6).toNat with
  | 0 => .ok (.brule (.ofBits h t))
  | 1 => .ok (.bwalk (.ofBits h t))
  | _ => .error .badTail

/-- Major 0x78. -/
noncomputable def decode78 (h : BitVec 16) (t : BitVec 64) (lane : Bool) : Decoded :=
  if headTc h != 1#2 then .error .badTc
  else if headX h then .error .badF7
  else if !lane && 32 ≤ (headD h).toNat then .error .badF7
  else match (t.extractLsb' 12 4).toNat with
  | 0 => .ok (.tqpush (.ofBits h t))
  | 1 => .ok (.tqpop (.ofBits h t))
  | 2 => .ok (.launch (.ofBits h t))
  | 3 => .ok (.join (.ofBits h t))
  | _ => .error .badTail

/-- Major 0x79. -/
noncomputable def decode79 (h : BitVec 16) (t : BitVec 64) (lane : Bool) : Decoded :=
  if headTc h != 1#2 then .error .badTc
  else if headX h then .error .badF7
  else if !lane && 32 ≤ (headD h).toNat then .error .badF7
  else match (t.extractLsb' 12 4).toNat with
  | 0 => .ok (.sqpost (.ofBits h t))
  | 1 => .ok (.cqpoll (.ofBits h t))
  | _ => .error .badTail

/-- The instruction of a head and its tail, or why there is none (R74): the major, the tail class, the operand field and
the tail, in that order, which R74 does not give (DESIGN CHOICE, log 71); major 0x1F has its order from R126. `lane` says that the fields are read under R117, where a six-bit field may name any number. -/
noncomputable def decodeRaw (h : BitVec 16) (t : BitVec 64) (lane : Bool) : Decoded :=
  match (headMaj h).toNat with
  | 0x00 => decode00 h t lane
  | 0x01 => decode01 h t lane
  | 0x02 => decode02 h t lane
  | 0x03 => decode03 h t lane
  | 0x04 => decode04 h t lane
  | 0x05 => decode05 h t lane
  | 0x06 => decode06 h t lane
  | 0x07 => decode07 h t lane
  | 0x08 => decode08 h t lane
  | 0x09 => decode09 h t lane
  | 0x0A => decode0A h t lane
  | 0x0B => decode0B h t lane
  | 0x0C => decode0C h t lane
  | 0x0D => decode0D h t lane
  | 0x0E => decode0E h t lane
  | 0x0F => decode0F h t lane
  | 0x10 => decode10 h t lane
  | 0x11 => decode11 h t lane
  | 0x12 => decode12 h t lane
  | 0x13 => decode13 h t lane
  | 0x14 => decode14 h t lane
  | 0x1F => decode1F h t lane
  | 0x20 => decode20 h t lane
  | 0x21 => decode21 h t lane
  | 0x22 => decode22 h t lane
  | 0x23 => decode23 h t lane
  | 0x24 => decode24 h t lane
  | 0x25 => decode25 h t lane
  | 0x26 => decode26 h t lane
  | 0x27 => decode27 h t lane
  | 0x28 => decode28 h t lane
  | 0x29 => decode29 h t lane
  | 0x2A => decode2A h t lane
  | 0x2B => decode2B h t lane
  | 0x2C => decode2C h t lane
  | 0x2D => decode2D h t lane
  | 0x2E => decode2E h t lane
  | 0x2F => decode2F h t lane
  | 0x50 => decode50 h t lane
  | 0x51 => decode51 h t lane
  | 0x52 => decode52 h t lane
  | 0x53 => decode53 h t lane
  | 0x54 => decode54 h t lane
  | 0x55 => decode55 h t lane
  | 0x56 => decode56 h t lane
  | 0x57 => decode57 h t lane
  | 0x58 => decode58 h t lane
  | 0x59 => decode59 h t lane
  | 0x5A => decode5A h t lane
  | 0x5B => decode5B h t lane
  | 0x60 => decode60 h t lane
  | 0x61 => decode61 h t lane
  | 0x62 => decode62 h t lane
  | 0x63 => decode63 h t lane
  | 0x64 => decode64 h t lane
  | 0x65 => decode65 h t lane
  | 0x66 => decode66 h t lane
  | 0x67 => decode67 h t lane
  | 0x70 => decode70 h t lane
  | 0x71 => decode71 h t lane
  | 0x72 => decode72 h t lane
  | 0x73 => decode73 h t lane
  | 0x74 => decode74 h t lane
  | 0x75 => decode75 h t lane
  | 0x76 => decode76 h t lane
  | 0x77 => decode77 h t lane
  | 0x78 => decode78 h t lane
  | 0x79 => decode79 h t lane
  | _ => .error .unassigned

/-- The majors that are assigned (R68) and whose forms a VP block does not permit (R118). -/
def majNotInBlock (n : Nat) : Bool :=
  n == 0x07 || n == 0x0A || (0x0D ≤ n && n ≤ 0x10) || n == 0x13 || n == 0x14 || (0x1F ≤ n && n ≤ 0x2F) || (0x50 ≤ n && n ≤ 0x5B)
    || (0x60 ≤ n && n ≤ 0x67) || (0x70 ≤ n && n ≤ 0x79)
/-- The instruction of a head and its tail inside a VP block, for the majors of R118. -/
def decodeLane (h : BitVec 16) (t : BitVec 64) : Decoded :=
  match (headMaj h).toNat with
  | 0x00 => decode00 h t true
  | 0x01 => decode01 h t true
  | 0x02 => decode02 h t true
  | 0x03 => decode03 h t true
  | 0x04 => decode04 h t true
  | 0x05 => decode05 h t true
  | 0x06 => decode06 h t true
  | 0x08 => decode08 h t true
  | 0x09 => decode09 h t true
  | 0x0B => decode0B h t true
  | 0x0C => decode0C h t true
  | 0x11 => decode11 h t true
  | 0x12 => decode12 h t true
  | _ => .error .unassigned

/-- The decoder of the control thread: an instruction no field of which is reserved, or the fault of R74. -/
noncomputable def decode (h : BitVec 16) (t : BitVec 64) : Decoded :=
  match decodeRaw h t false with
  | .error r => .error r
  | .ok i =>
    match i.defect with
    | none => .ok i
    | some r => .error r

/-- An encoded instruction: its head and its tail (of `tailSize` bytes, in the low bits). -/
structure Encoded where
  head : BitVec 16
  tail : BitVec 64
  deriving DecidableEq, Repr

/-- A head from its three fields (R68). -/
def mkHead (tc : BitVec 2) (maj : BitVec 7) (f7 : BitVec 7) : BitVec 16 := tc ++ maj ++ f7
/-- The fD layout (R76). -/
def mkFD (x : Bool) (d : BitVec 6) : BitVec 7 := (if x then 1#1 else 0#1) ++ d

/-- A head with fD and a T2A tail. -/
def OpA2.enc (o : OpA2) (maj : BitVec 7) (x : Bool) (op : BitVec 4) : Encoded :=
  ⟨mkHead 1 maj (mkFD x o.d), (op ++ o.b ++ o.a : BitVec 16).setWidth 64⟩
/-- A head with fD and a T2W tail. -/
def OpW2.enc (o : OpW2) (maj : BitVec 7) (x : Bool) : Encoded := ⟨mkHead 1 maj (mkFD x o.d), o.val.setWidth 64⟩
/-- A head with fD and a T4I tail. -/
def OpI4.enc (o : OpI4) (maj : BitVec 7) (x : Bool) (op : BitVec 4) : Encoded :=
  ⟨mkHead 2 maj (mkFD x o.d), (op ++ o.a ++ 0#2 ++ o.imm : BitVec 32).setWidth 64⟩
/-- A head with fD and a T4L tail. -/
def OpL4.enc (o : OpL4) (maj : BitVec 7) : Encoded :=
  ⟨mkHead 2 maj (mkFD false o.d), (o.spc ++ o.wid ++ o.base ++ 0#1 ++ o.off : BitVec 32).setWidth 64⟩
/-- A head with fD and a T4A tail. -/
def OpAM.enc (o : OpAM) (op : BitVec 4) : Encoded :=
  ⟨mkHead 2 0x0A (mkFD false o.d),
    (op ++ o.spc ++ o.sz ++ o.base ++ o.val ++ o.cmp ++ 0#8 : BitVec 32).setWidth 64⟩
/-- A head with fC and a T4B tail. -/
def OpB4.enc (o : OpB4) (cond : BitVec 3) : Encoded :=
  ⟨mkHead 2 0x0B (cond ++ 0#4), (o.a ++ o.b ++ o.loff ++ o.slot : BitVec 32).setWidth 64⟩
/-- A head with fD or f0 and a T4J tail. -/
def OpJ4.enc (o : OpJ4) (maj : BitVec 7) : Encoded :=
  ⟨mkHead 2 maj (mkFD false o.d), (o.loff ++ o.slot : BitVec 32).setWidth 64⟩
/-- A head with fD and a T4W tail. -/
def OpW4.enc (o : OpW4) (maj : BitVec 7) : Encoded := ⟨mkHead 2 maj (mkFD false o.d), o.imm.setWidth 64⟩
/-- A head with fD and a T8W tail. -/
def OpW8.enc (o : OpW8) (maj : BitVec 7) : Encoded := ⟨mkHead 3 maj (mkFD false o.d), o.imm⟩
/-- A head with fD and a T4V tail whose OP is `op`. -/
def OpV4.enc (o : OpV4) (maj : BitVec 7) (op : BitVec 6) : Encoded :=
  ⟨mkHead 2 maj (mkFD o.x o.d), (op ++ o.c ++ o.b ++ o.a ++ o.msk ++ o.len ++ o.xl : BitVec 32).setWidth 64⟩
/-- A head with fD and a T4M tail. -/
def OpM4.enc (o : OpM4) (maj : BitVec 7) (op : BitVec 6) : Encoded :=
  ⟨mkHead 2 maj (mkFD false o.d),
    (op ++ o.spc ++ o.base ++ o.ix ++ 0#4 ++ o.msk ++ o.len ++ 0#2 : BitVec 32).setWidth 64⟩
/-- A head with fT and the T4M tail of a tile transfer. -/
def OpMT.enc (o : OpMT) (x : Bool) : Encoded :=
  ⟨mkHead 2 0x52 (mkFD x o.d),
    (0#5 ++ (if o.f64 then 1#1 else 0#1) ++ o.spc ++ o.base ++ 0#18 : BitVec 32).setWidth 64⟩
/-- A head with fD and a T8I tail. -/
def OpI8.enc (o : OpI8) (maj : BitVec 7) : Encoded :=
  ⟨mkHead 3 maj (mkFD false o.d), (o.start ++ o.step ++ 0#8 ++ o.msk ++ o.len ++ 0#2 : BitVec 64)⟩
/-- A head with fT and a T8M tail. -/
def OpM8.enc (o : OpM8) (x : Bool) : Encoded :=
  ⟨mkHead 3 0x50 (mkFD x o.d),
    (o.fa ++ o.fb ++ o.ka ++ o.kb ++ o.va ++ o.vb ++ o.ma ++ o.mb ++ o.la ++ o.lb ++ 0#24 : BitVec 64)⟩
/-- A head with fD or f0 and a T8G tail. -/
def OpG8.enc (o : OpG8) (maj : BitVec 7) (op : BitVec 6) : Encoded :=
  ⟨mkHead 3 maj (mkFD false o.d), (op ++ o.a ++ o.b ++ o.c ++ o.msk ++ o.len ++ 0#2 ++ o.imm : BitVec 64)⟩
/-- A head with fD and the T8G tail of VAMO. -/
def OpVA.enc (o : OpVA) (op : BitVec 4) : Encoded :=
  ⟨mkHead 3 0x2F (mkFD false o.d),
    (0#6 ++ o.a ++ o.b ++ o.c ++ o.msk ++ o.len ++ 0#2 ++ 0#17 ++ op ++ o.sz ++ (if o.ret then 1#1 else 0#1) ++ o.base ++ o.spc : BitVec 64)⟩

/-- The head and tail of an instruction (R80 to R84); none for an event row, which no line holds. -/
def Instr.encode : Instr → Option Encoded
  | .nop => some (⟨mkHead 0 0x00 0x01, 0⟩)
  | .add o => some (o.enc 0x01 false 0)
  | .sub o => some (o.enc 0x01 false 1)
  | .and_ o => some (o.enc 0x01 false 2)
  | .or_ o => some (o.enc 0x01 false 3)
  | .xor_ o => some (o.enc 0x01 false 4)
  | .sll o => some (o.enc 0x01 false 5)
  | .srl o => some (o.enc 0x01 false 6)
  | .sra o => some (o.enc 0x01 false 7)
  | .slt o => some (o.enc 0x01 false 8)
  | .sltu o => some (o.enc 0x01 false 9)
  | .min o => some (o.enc 0x01 false 10)
  | .max o => some (o.enc 0x01 false 11)
  | .addW o => some (o.enc 0x01 true 0)
  | .subW o => some (o.enc 0x01 true 1)
  | .sllW o => some (o.enc 0x01 true 5)
  | .srlW o => some (o.enc 0x01 true 6)
  | .sraW o => some (o.enc 0x01 true 7)
  | .addi o => some (o.enc 0x02 false 0)
  | .andi o => some (o.enc 0x02 false 1)
  | .ori o => some (o.enc 0x02 false 2)
  | .xori o => some (o.enc 0x02 false 3)
  | .slli o => some (o.enc 0x02 false 4)
  | .srli o => some (o.enc 0x02 false 5)
  | .srai o => some (o.enc 0x02 false 6)
  | .slti o => some (o.enc 0x02 false 7)
  | .addiW o => some (o.enc 0x02 true 0)
  | .slliW o => some (o.enc 0x02 true 4)
  | .srliW o => some (o.enc 0x02 true 5)
  | .sraiW o => some (o.enc 0x02 true 6)
  | .mul o => some (o.enc 0x03 false 0)
  | .mulh o => some (o.enc 0x03 false 1)
  | .mulhu o => some (o.enc 0x03 false 2)
  | .div o => some (o.enc 0x03 false 3)
  | .divu o => some (o.enc 0x03 false 4)
  | .rem o => some (o.enc 0x03 false 5)
  | .remu o => some (o.enc 0x03 false 6)
  | .mulW o => some (o.enc 0x03 true 0)
  | .divW o => some (o.enc 0x03 true 3)
  | .divuW o => some (o.enc 0x03 true 4)
  | .remW o => some (o.enc 0x03 true 5)
  | .remuW o => some (o.enc 0x03 true 6)
  | .clz o => some (o.enc 0x04 false 0)
  | .ctz o => some (o.enc 0x04 false 1)
  | .popc o => some (o.enc 0x04 false 2)
  | .sel o => some (o.enc 0x05 0)
  | .limmT4w o => some (o.enc 0x06)
  | .limmT8w o => some (o.enc 0x06)
  | .addpc o => some (o.enc 0x07)
  | .ld o => some (o.enc 0x08)
  | .st o => some (o.enc 0x09)
  | .amoAdd o => some (o.enc 0)
  | .amoAnd o => some (o.enc 1)
  | .amoOr o => some (o.enc 2)
  | .amoXor o => some (o.enc 3)
  | .amoMin o => some (o.enc 4)
  | .amoMax o => some (o.enc 5)
  | .amoMinu o => some (o.enc 6)
  | .amoMaxu o => some (o.enc 7)
  | .amoFadd o => some (o.enc 8)
  | .amoBfadd o => some (o.enc 9)
  | .amoSwap o => some (o.enc 10)
  | .amoCas o => some (o.enc 11)
  | .bEq o => some (o.enc 0)
  | .bNe o => some (o.enc 1)
  | .bLt o => some (o.enc 2)
  | .bGe o => some (o.enc 3)
  | .bLtu o => some (o.enc 4)
  | .bGeu o => some (o.enc 5)
  | .jmp o => some (o.enc 0x0C)
  | .call o => some (o.enc 0x0D)
  | .jmpr o => some (o.enc 0x0E false 0)
  | .loop o => some (o.enc 0x0F)
  | .vfetch o => some (o.enc 0x10)
  | .vend => some (⟨mkHead 0 0x11 0x00, 0⟩)
  | .vpGroupIssue _ _ => none
  | .getid o => some (o.enc 0x12 false)
  | .caps o => some (⟨mkHead 0 0x13 (mkFD false o), 0⟩)
  | .sysrd o => some (o.enc 0x14 false)
  | .syswr o => some (o.enc 0x14 true)
  | .hret => some (⟨mkHead 0 0x1F 0x00, 0⟩)
  | .dstop => some (⟨mkHead 0 0x1F 0x01, 0⟩)
  | .waitev => some (⟨mkHead 0 0x1F 0x02, 0⟩)
  | .waitevTimeout _ _ _ => none
  | .cede => some (⟨mkHead 0 0x1F 0x03, 0⟩)
  | .halt => some (⟨mkHead 0 0x1F 0x04, 0⟩)
  | .trap o => some (⟨mkHead 1 0x1F 0x05, o.val.setWidth 64⟩)
  | .vsetl o => some (o.enc 0x20 false 0)
  | .vsetlLq o => some (o.enc 0x20 false 1)
  | .vsett o => some (o.enc 0x21)
  | .vidx o => some (o.enc 0x22)
  | .vadd o => some (o.enc 0x23 (o.opx ++ 0#4))
  | .vsub o => some (o.enc 0x23 (o.opx ++ 1#4))
  | .vmul o => some (o.enc 0x23 (o.opx ++ 2#4))
  | .vand o => some (o.enc 0x23 (o.opx ++ 3#4))
  | .vor o => some (o.enc 0x23 (o.opx ++ 4#4))
  | .vxor o => some (o.enc 0x23 (o.opx ++ 5#4))
  | .vsll o => some (o.enc 0x23 (o.opx ++ 6#4))
  | .vsrl o => some (o.enc 0x23 (o.opx ++ 7#4))
  | .vsra o => some (o.enc 0x23 (o.opx ++ 8#4))
  | .vmin o => some (o.enc 0x23 (o.opx ++ 9#4))
  | .vmax o => some (o.enc 0x23 (o.opx ++ 10#4))
  | .vsadd o => some (o.enc 0x23 (o.opx ++ 11#4))
  | .vssub o => some (o.enc 0x23 (o.opx ++ 12#4))
  | .vfadd o => some (o.enc 0x24 0)
  | .vfsub o => some (o.enc 0x24 1)
  | .vfmul o => some (o.enc 0x24 2)
  | .vfdiv o => some (o.enc 0x24 3)
  | .vfma o => some (o.enc 0x24 4)
  | .vfms o => some (o.enc 0x24 5)
  | .vfmin o => some (o.enc 0x24 6)
  | .vfmax o => some (o.enc 0x24 7)
  | .vfsqrt o => some (o.enc 0x24 8)
  | .vfabs o => some (o.enc 0x24 9)
  | .vfexp o => some (o.enc 0x24 16)
  | .vflog o => some (o.enc 0x24 17)
  | .vfrcp o => some (o.enc 0x24 18)
  | .vfrsq o => some (o.enc 0x24 19)
  | .vftanh o => some (o.enc 0x24 20)
  | .vcvt o => some (o.enc 0x25 0)
  | .vcmpEq o => some (o.enc 0x26 0)
  | .vcmpNe o => some (o.enc 0x26 1)
  | .vcmpLt o => some (o.enc 0x26 2)
  | .vcmpGe o => some (o.enc 0x26 3)
  | .vcmpLtu o => some (o.enc 0x26 4)
  | .vcmpGeu o => some (o.enc 0x26 5)
  | .vfcmpEq o => some (o.enc 0x26 8)
  | .vfcmpNe o => some (o.enc 0x26 9)
  | .vfcmpLt o => some (o.enc 0x26 10)
  | .vfcmpGe o => some (o.enc 0x26 11)
  | .vfcmpUn o => some (o.enc 0x26 12)
  | .vfcmpOrd o => some (o.enc 0x26 13)
  | .mand o => some (o.enc 0x27 false 0)
  | .mor o => some (o.enc 0x27 false 1)
  | .mxor o => some (o.enc 0x27 false 2)
  | .mandn o => some (o.enc 0x27 false 3)
  | .mpopcLq o => some (o.enc 0x28 false 0)
  | .mpopcG o => some (o.enc 0x28 true 0)
  | .vcomp o => some (o.enc 0x29 0)
  | .vexpd o => some (o.enc 0x29 1)
  | .vslup o => some (o.enc 0x29 2)
  | .vsldn o => some (o.enc 0x29 3)
  | .vshuf o => some (o.enc 0x29 4)
  | .vsperm o => some (o.enc 0x29 5)
  | .vmerge o => some (o.enc 0x29 6)
  | .vmvx o => some (o.enc 0x2A false 0)
  | .vmvxU o => some (o.enc 0x2A true 0)
  | .vredsum o => some (o.enc 0x2B (o.opx ++ 0#4))
  | .vredmax o => some (o.enc 0x2B (o.opx ++ 1#4))
  | .vredmin o => some (o.enc 0x2B (o.opx ++ 2#4))
  | .vfredsum o => some (o.enc 0x2B (o.opx ++ 3#4))
  | .vfredmax o => some (o.enc 0x2B (o.opx ++ 4#4))
  | .vfredmin o => some (o.enc 0x2B (o.opx ++ 5#4))
  | .vargmax o => some (o.enc 0x2B (o.opx ++ 6#4))
  | .vargmin o => some (o.enc 0x2B (o.opx ++ 7#4))
  | .vscan o => some (o.enc 0x2B (o.opx ++ 8#4))
  | .vsegsum o => some (o.enc 0x2B (o.opx ++ 9#4))
  | .vsortk o => some (o.enc 0x2C 0)
  | .vsortkP o => some (o.enc 0x2C 32)
  | .vuniq o => some (o.enc 0x2C 1)
  | .vld o => some (o.enc 0x2D 0)
  | .vlds o => some (o.enc 0x2D 1)
  | .vldx o => some (o.enc 0x2D 2)
  | .vldbp o => some (o.enc 0x2D 3)
  | .vldk o => some (o.enc 0x2D 4)
  | .vldw o => some (o.enc 0x2D 5)
  | .vst o => some (o.enc 0x2E 0)
  | .vsts o => some (o.enc 0x2E 1)
  | .vstx o => some (o.enc 0x2E 2)
  | .vstbp o => some (o.enc 0x2E 3)
  | .vscadd o => some (o.enc 0x2E 4)
  | .vamoAdd o => some (o.enc 0)
  | .vamoAnd o => some (o.enc 1)
  | .vamoOr o => some (o.enc 2)
  | .vamoXor o => some (o.enc 3)
  | .vamoMin o => some (o.enc 4)
  | .vamoMax o => some (o.enc 5)
  | .vamoMinu o => some (o.enc 6)
  | .vamoMaxu o => some (o.enc 7)
  | .vamoFadd o => some (o.enc 8)
  | .vamoBfadd o => some (o.enc 9)
  | .vamoSwap o => some (o.enc 10)
  | .vamoCas o => some (o.enc 11)
  | .opacc o => some (o.enc false)
  | .opsub o => some (o.enc true)
  | .mzero o => some (⟨mkHead 0 0x51 (mkFD false o), 0⟩)
  | .mldt o => some (o.enc false)
  | .mstt o => some (o.enc true)
  | .mrowv o => some (o.enc 0x53 0)
  | .mvrow o => some (o.enc 0x53 1)
  | .mcolv o => some (o.enc 0x53 2)
  | .mvcol o => some (o.enc 0x53 3)
  | .mchain o => some (o.enc 0x54 0)
  | .mdrain o => some (o.enc 0x54 1)
  | .mdrainStream o => some (o.enc 0x54 1)
  | .msetc o => some (o.enc 0x54 2)
  | .mtile o => some (o.enc 0x55 0)
  | .mtileStep _ _ => none
  | .bfy o => some (o.enc 0x56 0)
  | .bpass o => some (o.enc 0x56 1)
  | .bperm o => some (o.enc 0x56 2)
  | .bpermRev o => some (o.enc 0x56 2)
  | .twgenCplx o => some (o.enc 0x56 3)
  | .twgenMod o => some (o.enc 0x56 3)
  | .bfpnorm o => some (o.enc 0x56 4)
  | .txf o => some (o.enc 0x57 0)
  | .txfStage _ _ => none
  | .nadd o => some (o.enc 0x58 0)
  | .nsub o => some (o.enc 0x58 1)
  | .nmul o => some (o.enc 0x58 2)
  | .nmulW o => some (o.enc 0x58 2)
  | .nbfy o => some (o.enc 0x58 3)
  | .ncrt o => some (o.enc 0x58 4)
  | .nfrom o => some (o.enc 0x58 5)
  | .nto o => some (o.enc 0x58 6)
  | .nmodset o => some (o.enc 0x59 false 0)
  | .nchk o => some (o.enc 0x5A false 0)
  | .vcmul o => some (o.enc 0x5B 0)
  | .vcmulCj o => some (o.enc 0x5B 1)
  | .gcfg o => some (o.enc 0x60 0)
  | .gstart o => some (o.enc 0x60 1)
  | .gstop o => some (o.enc 0x60 2)
  | .gwait o => some (o.enc 0x60 3)
  | .greset o => some (o.enc 0x60 4)
  | .gnode o => some (o.enc 0x60 5)
  | .gstat o => some (o.enc 0x61 false 0)
  | .gquiet o => some (o.enc 0x61 false 1)
  | .sunb o => some (o.enc 0x62 0)
  | .sbindVec o => some (o.enc 0x62 1)
  | .sbindPat o => some (o.enc 0x62 2)
  | .sbindNin o => some (o.enc 0x62 3)
  | .sbindNout o => some (o.enc 0x62 4)
  | .sbindNbr o => some (o.enc 0x62 5)
  | .sbindRtr o => some (o.enc 0x62 6)
  | .sbindBfy o => some (o.enc 0x62 7)
  | .sbindArr o => some (o.enc 0x62 8)
  | .spat o => some (o.enc 0x63 0)
  | .spushv o => some (o.enc 0x64 0)
  | .spopv o => some (o.enc 0x64 1)
  | .spopk o => some (o.enc 0x64 2)
  | .stok o => some (o.enc 0x65 false 0)
  | .sdone o => some (o.enc 0x65 false 1)
  | .srank o => some (o.enc 0x65 false 2)
  | .spopg o => some (o.enc 0x66 false 0)
  | .rstage o => some (o.enc 0x67 0)
  | .scannerFire _ _ _ => none
  | .joinerFire _ _ _ => none
  | .repeaterFire _ _ _ => none
  | .reducerFire _ _ _ => none
  | .functionFire _ _ _ => none
  | .fetchReply _ _ _ => none
  | .writerFire _ _ _ => none
  | .patternRead _ _ _ => none
  | .patternWrite _ _ _ => none
  | .linkFlit _ _ _ => none
  | .routerFlit _ _ => none
  | .flitArrive _ _ _ => none
  | .slotCreditReturn _ _ => none
  | .cpy o => some (o.enc 0x70 0)
  | .cpyt o => some (o.enc 0x70 1)
  | .cpyg o => some (o.enc 0x70 2)
  | .cpyz o => some (o.enc 0x70 3)
  | .copyElementLand _ _ _ _ => none
  | .copyComplete _ _ _ => none
  | .halloc o => some (o.enc 0x71 false 0)
  | .hfree o => some (o.enc 0x71 false 1)
  | .hgive o => some (o.enc 0x71 false 2)
  | .htake o => some (o.enc 0x71 false 3)
  | .hwait o => some (o.enc 0x71 false 4)
  | .hstat o => some (o.enc 0x71 false 5)
  | .binit o => some (o.enc 0x72 false 0)
  | .bexpect o => some (o.enc 0x72 false 1)
  | .barrive o => some (o.enc 0x72 false 2)
  | .bwait o => some (o.enc 0x72 false 3)
  | .btest o => some (o.enc 0x72 false 4)
  | .barriveFire _ _ _ => none
  | .gangon o => some (o.enc 0x73 false 0)
  | .gangoff o => some (o.enc 0x73 false 1)
  | .vldg o => some (o.enc 0x74 0)
  | .vldgDeliver _ _ => none
  | .phase o => some (⟨mkHead 0 0x75 (0#4 ++ o), 0⟩)
  | .fenceE => some (⟨mkHead 0 0x75 0x10, 0⟩)
  | .nmfence => some (⟨mkHead 0 0x75 0x20, 0⟩)
  | .coll o => some (o.enc 0x76 false 0)
  | .ccwait o => some (o.enc 0x76 false 1)
  | .ccread o => some (o.enc 0x76 false 2)
  | .collChunkComplete _ => none
  | .collTrafficTimeout _ => none
  | .advertisementArrive _ => none
  | .codingQueueHead => none
  | .codedPacketDecode _ => none
  | .awaitedBlockFill _ => none
  | .decodeTimeout _ => none
  | .fallbackRequest _ => none
  | .codedAck _ => none
  | .expertTokenSend _ _ => none
  | .rowRequest _ => none
  | .rowRefused _ => none
  | .expertCombineRow _ _ => none
  | .hubTranslationFault _ _ => none
  | .brule o => some (o.enc 0x77 0)
  | .bwalk o => some (o.enc 0x77 1)
  | .walkStep _ => none
  | .walkMigrate _ => none
  | .migrationTimeout _ => none
  | .movWaitTimeout _ => none
  | .blockMovAck _ => none
  | .walkRegionCommit _ _ _ => none
  | .sliceOperation _ => none
  | .combiningFill _ => none
  | .combiningRelease _ => none
  | .returnFreeAck _ _ _ => none
  | .tqpush o => some (o.enc 0x78 false 0)
  | .tqpop o => some (o.enc 0x78 false 1)
  | .launch o => some (o.enc 0x78 false 2)
  | .join o => some (o.enc 0x78 false 3)
  | .sqpost o => some (o.enc 0x79 false 0)
  | .cqpoll o => some (o.enc 0x79 false 1)
  | .stageAgeExpiry _ _ _ => none
  | .stageInstanceStart _ _ _ => none
  | .instanceRetire _ _ _ => none
  | .commandDispatch _ _ _ => none
  | .commandRetire _ _ _ => none
  | .macroStop _ _ _ => none
  | .groupStart => none
  | .launchAdmit => none
  | .launchComplete _ => none
  | .preemptRequest _ => none
  | .nodeCut _ _ _ => none
  | .groupSave _ _ => none
  | .groupRestore _ _ => none
  | .lnqStart _ _ => none
  | .lnqDestroy _ => none
  | .lnqTail _ _ => none
  | .lnqPacketRead _ => none
  | .trapRecordWrite _ _ _ => none
  | .trqConsume _ => none
  | .replay _ _ _ _ _ => none
  | .resume _ _ _ _ _ => none
  | .stepOne _ _ _ _ _ => none
  | .endThread _ _ _ _ _ => none
  | .kill _ => none
  | .tlbinvPage64k _ _ => none
  | .tlbinvPage128m _ _ => none
  | .tlbinvPage256g _ _ => none
  | .tlbinvContext _ => none
  | .tlbinvAll => none
  | .tlbinvDone => none
  | .huskin _ => none
  | .huskout => none
  | .nvqStart _ _ => none
  | .nvqDestroy _ => none
  | .nvqDestroyDone _ _ => none
  | .driveAccess _ _ _ _ _ => none
  | .peerAccessArrive _ _ _ _ _ => none
  | .eccCorrected _ _ _ => none
  | .eccUncorrectable _ _ _ _ _ => none
  | .linkCrcFail _ _ => none
  | .selfTestEnd _ _ _ => none
  | .wearRotation _ => none
  | .hbmScrub _ _ => none
  | .bufferScrub _ _ _ _ _ => none
  | .phyCalibration _ => none
  | .serdesCalibration _ _ => none
  | .telemetrySnapshot => none
  | .elgConsume _ => none
  | .thermalSample _ => none
  | .thermtrip _ => none
  | .throttleUpdate _ => none
  | .trimStep _ _ => none
  | .powerUp => none
  | .resetPin _ => none
  | .bootStage _ _ => none
  | .hzload _ => none
  | .hzSlotReplace => none
  | .mregxgo _ => none
  | .redfishQuote _ => none
  | .rollbackAdvance _ _ => none
  | .registerWrite _ _ => none
  | .pcieEqualisation _ => none

/-- Whether a row of the table is an event, which no instruction line holds. -/
def Instr.isEvent (i : Instr) : Bool := i.encode.isNone

/-- The head and tail of a row numbered as spec/opcode_table.json numbers it: the tail in the low bits, the head above. -/
def tableHeadTail (nbits w : Nat) : BitVec 16 × BitVec 64 :=
  let tb := nbits - 16
  (BitVec.ofNat 16 (w >>> tb), BitVec.ofNat 64 (w % 2 ^ tb))

/-- The instruction that the decoder reads from a table row's bits; none where it refuses, and where the bits given are
not those of the head's tail class. -/
noncomputable def decodeTableWord (nbits w : Nat) : Option Instr :=
  let ht := tableHeadTail nbits w
  if nbits ≠ 16 + 8 * tailSize ht.1 then none
  else match decode ht.1 ht.2 with
    | .ok i => some i
    | .error _ => none

end Sys2Proof
end

