-- ==== Sys2Proof/Machine/Store.lean ====
section
/-! DEFINITION. A sparse byte store in one canonical form: cells of strictly rising address, none holding the byte that an
unlisted address reads as, which is 0 (DESIGN CHOICE, assumption 2: the spec gives no contents after power-on). Device
memory, the typed buffers and every overlay of the consistency model that means bytes at homes use it. -/

namespace Sys2Proof.Machine

/-- A sparse byte store. -/
abbrev Mem := List Host.Cell

/-- What an address reads as that no cell lists. -/
def Mem.blank : Byte := 0

/-- The byte at an address. -/
def Mem.get : Mem → Nat → Byte
  | [], _ => Mem.blank
  | (k, b) :: r, a => if k = a then b else if a < k then Mem.blank else Mem.get r a

/-- The store with one byte written, in canonical form again. -/
def Mem.set : Mem → Nat → Byte → Mem
  | [], a, x => if x = Mem.blank then [] else [(a, x)]
  | (k, b) :: r, a, x =>
    if a = k then (if x = Mem.blank then r else (a, x) :: r)
    else if a < k then (if x = Mem.blank then (k, b) :: r else (a, x) :: (k, b) :: r)
    else (k, b) :: Mem.set r a x

/-- Every cell lies above a bound, rises strictly and differs from the blank byte. -/
def Mem.wfFrom : Nat → Mem → Bool
  | _, [] => true
  | lo, (k, b) :: r => decide (lo ≤ k) && b != Mem.blank && Mem.wfFrom (k + 1) r

/-- The canonical form. -/
def Mem.wf (m : Mem) : Bool := Mem.wfFrom 0 m

/-- n bytes from an address, as a little-endian number (R9). -/
def Mem.read (m : Mem) (a : Nat) : Nat → Nat
  | 0 => 0
  | n + 1 => (m.get a).toNat + 256 * Mem.read m (a + 1) n

/-- n little-endian bytes of x written from an address (R9). -/
def Mem.write (m : Mem) (a x : Nat) : Nat → Mem
  | 0 => m
  | n + 1 => Mem.write (m.set a (BitVec.ofNat 8 x)) (a + 1) (x / 256) n

/-- A list of bytes written from an address. -/
def Mem.writeList (m : Mem) (a : Nat) : List Byte → Mem
  | [] => m
  | b :: bs => Mem.writeList (m.set a b) (a + 1) bs

/-- n bytes from an address. -/
def Mem.readList (m : Mem) (a : Nat) : Nat → List Byte
  | 0 => []
  | n + 1 => m.get a :: Mem.readList m (a + 1) n

/-- The cells from a to a + n − 1, as offsets from a. -/
def Mem.slice (m : Mem) (a n : Nat) : Mem :=
  (m.filter (fun c => decide (a ≤ c.1) && decide (c.1 < a + n))).map (fun c => (c.1 - a, c.2))

/-- The store with the n bytes from a replaced by those of another store, whose offset 0 comes to a. -/
def Mem.blit (m : Mem) (a n : Nat) (x : Mem) : Mem :=
  m.filter (fun c => decide (c.1 < a)) ++ (x.filter (fun c => decide (c.1 < n))).map (fun c => (c.1 + a, c.2))
    ++ m.filter (fun c => decide (a + n ≤ c.1))

/-- The store whose bytes are those of a number of n bytes. -/
def Mem.ofNat (n x : Nat) : Mem := Mem.write [] 0 x n

/-- Bytes whose values are known, newest first: a store buffer, a cache's dirty bytes, a thread's view. -/
abbrev Overlay := List Host.Cell

/-- The byte that an overlay gives an address, if it gives one. -/
def Overlay.get? : Overlay → Nat → Option Byte
  | [], _ => none
  | (k, b) :: r, a => if k = a then some b else Overlay.get? r a

/-- The overlay with one byte set. -/
def Overlay.set : Overlay → Nat → Byte → Overlay
  | [], a, x => [(a, x)]
  | (k, b) :: r, a, x => if k = a then (a, x) :: r else (k, b) :: Overlay.set r a x

/-- Every byte of one overlay set in another. -/
def Overlay.onto (x : Overlay) (y : Overlay) : Overlay := x.foldl (fun acc c => Overlay.set acc c.1 c.2) y

/-- Every byte of an overlay written to a store. -/
def Overlay.toMem (x : Overlay) (m : Mem) : Mem := x.foldl (fun acc c => Mem.set acc c.1 c.2) m

/-- The part of an overlay whose addresses satisfy a test. -/
def Overlay.part (p : Nat → Bool) (x : Overlay) : Overlay := x.filter (fun c => p c.1)

end Sys2Proof.Machine
end

