-- ==== Sys2Proof/Machine/CoreState.lean ====
section
/-! DEFINITION. The plain data that one core and its two thread slots hold: registers, queue, streams, graph, handles,
views. A field's docstring names what it is, its width, the rule of spec/ that names it and its value at reset. -/

namespace Sys2Proof.Machine

/-- What a thread slot is doing (R44, R384). -/
inductive Run where
  /-- no thread: the slot's state does not exist (R44) -/
  | vacant
  /-- the thread executes instructions -/
  | running
  /-- stopped at a trap record, pending or written, until an action of R384 -/
  | stopped
  deriving DecidableEq, Repr

/-- The place of a thread in its launch (R272, R274). -/
structure Thread where
  /-- unique thread number of the model, by which children are joined | - | R270 | 0 -/
  tid : Nat
  /-- launch sequence number | 32 | R123, R366 | 0 -/
  seq : Nat
  /-- group coordinates | 3 × 16 | R272 | 0 -/
  x : Nat
  y : Nat
  z : Nat
  /-- group counts | 3 × 16 | R123 | 0 -/
  nx : Nat
  ny : Nat
  nz : Nat
  /-- thread number in the group | 4 | R274 | 0 -/
  num : Nat
  /-- stage | 3 | R272 | 0 -/
  stage : Nat
  /-- threads per group | 5 | R274 | 0 -/
  nt : Nat
  /-- stages of the launch | 4 | R364 | 0 -/
  ns : Nat
  deriving DecidableEq, Repr

/-- One entry of the hardware-loop stack (R114). -/
structure LoopEnt where
  s : Word
  e : Word
  r : Word
  deriving DecidableEq, Repr

/-- A trap record before it is written (R382). -/
structure Record where
  code : Nat
  sub : Nat
  rpl : Bool
  qf : Bool
  fatal : Bool
  hub : Bool
  qpos : Nat
  ctx : Nat
  epc : Word
  seq : Nat
  cl : Nat
  core : Nat
  hi : Bool
  d0 : Word
  d1 : Word
  d2 : Word
  d3 : Word
  deriving DecidableEq, Repr

/-- One thread slot (R44). -/
structure Slot where
  /-- what the slot is doing | - | R44, R384 | vacant -/
  run : Run
  /-- place of its thread | - | R272 | all 0 -/
  th : Thread
  /-- address of the next instruction | 64 | R71 | DESIGN CHOICE 0 (log 3) -/
  pc : Word
  /-- address that follows the instruction being executed, in program order | 64 | R71, R113 | DESIGN CHOICE 0 (log 3) -/
  npc : Word
  /-- g0 to g31 | 32 × 64 | R46 | 0 (R44, at thread start) -/
  g : Vector Word 32
  /-- VL | 10 | R50 | 0 -/
  vl : Nat
  /-- VTYPE | 64 | R51 | 0x00800042 -/
  vtype : Word
  /-- STATUS | 64 | R62 | 0, SLOT the slot number -/
  status : Word
  /-- CAUSE | 64 | R63 | 0 -/
  cause : Word
  /-- EPC | 64 | R64 | 0 -/
  epc : Word
  /-- TRAPVEC | 64 | R64 | 0 -/
  trapvec : Word
  /-- GANG | 64 | R64 | 0 -/
  gang : Word
  /-- hardware-loop stack, innermost entry first | ≤ 4 × 192 | R114 | empty -/
  loops : List LoopEnt
  /-- stochastic-rounding generators, generator i at element i | 512 × 32 | R35, R44 | seeded from RNDSEED -/
  gens : BitVec 16384
  /-- event latch | 1 | R129 | clear -/
  latch : Bool
  /-- RFOUT, return-free operations in flight | 16 | R340 | 0 -/
  rfout : Nat
  /-- records that wait for room, oldest first | - | R381 | empty -/
  pend : List Record
  /-- the record the thread is stopped at, once written | - | R384 | none -/
  stop : Option Record
  /-- instruction lines already fetched | - | R73 | empty -/
  lines : List (Nat × Line)
  /-- fetched lines in which an uncorrectable error was found | - | R425 | empty -/
  badLines : List Nat
  /-- values that the thread's view has fixed since its last acquire | - | R300 | empty -/
  view : Overlay
  /-- number of that view: it rises where an acquire leaves a command that still reads the view before | - | R296, R300 | DESIGN CHOICE 0 (log 4): the model's own field -/
  ep : Nat
  /-- views before it, by number, that a command of the thread in flight still reads | - | R296, R300 | empty -/
  past : List (Nat × Overlay)
  /-- when the wait at the current WAITEV began | - | R129 | none -/
  since : Option Nat
  /-- queue positions of the commands older than the form at which the thread stalls | - | R133, R245, R262 | none -/
  behind : Option (List Nat)
  /-- when the wait at the current TQPOP began, or a stage queue of its stage last held an item | - | R283 | none -/
  popAt : Option Nat
  /-- the scheduler has retired the instance | 1 | R283 | false -/
  retired : Bool
  /-- commit one instruction and stop (STEP) | 1 | R384 | false -/
  stepping : Bool
  /-- VLDGs issued in the present gang | - | R260 | 0 -/
  strips : Nat
  /-- its instance was started under the closure row of R282 | 1 | R284 | false -/
  closer : Bool
  /-- it has popped or stolen an item | 1 | R284 | false -/
  popped : Bool
  deriving DecidableEq, Repr

/-- One token (R202). -/
structure Token where
  kind : Nat
  val : Nat
  deriving DecidableEq, Repr

/-- A flit: its tokens not yet taken, whether it is still assembled by the vector unit, how many tokens it carried and
which core is charged for them (R201, R203, R310). -/
structure Flit where
  toks : List Token
  filling : Bool
  n : Nat
  src : Nat
  deriving DecidableEq, Repr

/-- A router stage (R233). -/
structure RStage where
  mode : Nat
  rop : Nat
  mask : Nat
  cmp : Word
  deriving DecidableEq, Repr

/-- A pattern slot's contents (R228). -/
structure Pattern where
  base : Nat
  s0 : Int
  s1 : Int
  c0 : Nat
  c1 : Nat
  spc : Nat
  esz : Nat
  sx : Bool
  kind : Nat
  rk : Nat
  deriving DecidableEq, Repr

/-- One consuming input's grammar check (R204): whether done was seen, and the last token's kind. -/
structure Grammar where
  ended : Bool
  last : Option Nat
  deriving DecidableEq, Repr

/-- A range of the scoreboard (R295): space 0 device memory, 1 W, 2 A, 3 C. -/
structure Range where
  spc : Nat
  lo : Nat
  hi : Nat
  wr : Bool
  deriving DecidableEq, Repr

/-- One stream port (R59). -/
structure Port where
  kind : Nat
  dir : Nat
  rank : Nat
  target : Nat
  done : Bool
  flt : Bool
  /-- FIFO | 8 × 576 | R59, R207 | empty -/
  fifo : List Flit
  /-- a token has passed (R231) -/
  passed : Bool
  /-- the consumer's grammar check (R204) -/
  gram : Grammar
  /-- the slot that issued the binding (R206), and the view that its pattern reads (R296) -/
  hi : Bool
  ep : Nat
  /-- number of the binding: the flits of two bindings of one port are of different flows (R307, R308) -/
  bind : Nat
  /-- the pattern captured by the binding, with its position o, i and elements moved (R226, R229) -/
  pat : Option Pattern
  o : Nat
  i : Nat
  /-- pattern: 0 elements, 1 a stop is owed, 2 done is owed, 3 finished; 4 stopped at a fault that REPLAY repairs -/
  phase : Nat
  /-- the pattern's bounding range, while it is held in the scoreboard (R234) -/
  range : Option Range
  stage : RStage
  deriving DecidableEq, Repr

/-- One node of the node pool (R209 to R219, R377). -/
structure Node where
  /-- configuration word | 256 | R210 | unconfigured -/
  cfg : BitVec 256
  /-- address and space the word was loaded from | 56 | R206 | - -/
  from_ : Nat
  /-- captured constant | 32 | R222, R177 | - -/
  const : Nat
  /-- FIFOs of the inputs that another node feeds | 4 × 2 flits | R208 | empty -/
  ins : Vector (List Flit) 4
  /-- grammar checks of the inputs | 4 | R204 | - -/
  gram : Vector Grammar 4
  /-- state: 1 configured, 2 running, 3 frozen | 2 | R225 | - -/
  state : Nat
  /-- done emitted, or consumed by a writer | 1 | R225 | - -/
  done : Bool
  stalli : Bool
  stallo : Bool
  fsub : Nat
  fin : Nat
  /-- tokens emitted, or elements written | 24 | R225 | - -/
  count : Nat
  /-- scanner: the fibre in progress (reference x, next p, end e) | - | R377 | none -/
  fib : Option (Nat × Nat × Nat)
  /-- scanner: a stop of rank 0 is owed; reducer: acc is emitted and its stop is owed | 1 | R213, R217 | false -/
  owed : Bool
  /-- scanner in a root mode: what of reference 0 and done it has consumed | 2 | R377 | 0 -/
  root : Nat
  /-- joiner: elements (coordinate, reference token) of the current fibre of A, and of B, oldest first | 256 each | R215 | empty -/
  repA : List (Nat × Token)
  repB : List (Nat × Token)
  /-- joiner: index of the head in the fibre, for A and for B | - | R377 | 0 -/
  ixA : Nat
  ixB : Nat
  /-- joiner: elements of the fibre consumed in all | - | R215 | 0 -/
  nA : Nat
  nB : Nat
  /-- joiner: the last coordinate consumed of the fibre, for A and for B | 2 × 32 | R205 | none -/
  prevA : Option Nat
  prevB : Option Nat
  /-- repeater: the held item | - | R377 | none -/
  item : Option Token
  /-- reducer: accumulator | 32 | R377 | - -/
  acc : Nat
  /-- writer: element count n and fibre count f | 2 × 24 | R377 | 0 -/
  wn : Nat
  wf : Nat
  /-- FETCH: the reference whose read is outstanding | 32 | R218, R377 | none -/
  fetch : Option Nat
  /-- flags not yet reported (R218), as five bits NV DZ OF UF NX | 5 | R218 | 0 -/
  flags : Nat
  /-- a pre-emption marker has cut the node | 1 | R377 | false -/
  cut : Bool
  deriving DecidableEq, Repr

/-- The states of a core's graph (R220). -/
inductive GState where
  | none | idle | running | finished | frozen
  deriving DecidableEq, Repr

/-- The graph of a core (R220, R222). -/
structure Graph where
  /-- state | 3 | R220 | none -/
  state : GState
  /-- the reported faulting node | 5 | R225 | 0 -/
  fnode : Nat
  /-- a failure of the graph has written a record | 1 | R206 | false -/
  reported : Bool
  /-- slot that issued GSTART | 1 | R206 | 0 -/
  hi : Bool
  /-- rounding mode GSTART captured | 3 | R222 | 0 -/
  rm : Nat
  /-- ranges that the graph holds in the scoreboard (R222) -/
  ranges : List Range
  /-- node configurations | 22 × 256 | R209 | unconfigured -/
  nodes : List (Nat × Node)
  /-- ports that GSTART or a member names | - | R224 | empty -/
  ports : List Nat
  deriving DecidableEq, Repr

/-- A handle entry (R58, R239, R243). -/
structure Handle where
  /-- 0 free, 1 filling, 2 full, 3 draining -/
  state : Nat
  held : Bool
  holder : Nat
  /-- 0 none, 1 W, 2 A, 3 C -/
  buf : Nat
  bar : Bool
  cstat : Nat
  expect : Nat
  landed : Nat
  off : Nat
  len : Nat
  boff : Nat
  /-- the home core and handle of a proxy (R243) -/
  home : Option (Nat × Nat)
  deriving DecidableEq, Repr

/-- What a command reads and writes that orders it against commands of other engines (R163): v, m, a, k, w registers,
length queues, stream ports, handles, the chain configuration, the graph, the barrier objects that copy-engine forms
update (R304), the program slots (R347), and the generators: their seeding, and the draws of the matrix array (R65, R175). -/
inductive Res where
  | v (n : Nat) | m (n : Nat) | a (n : Nat) | k (n : Nat) | w (n : Nat) | lq (n : Nat) | s (n : Nat) | h (n : Nat)
  | chain | graph | bar | rules | gens | draw
  deriving DecidableEq, Repr

/-- The engines of a core (R276). -/
inductive Engine where
  | vec | mat | bfy | seq | copy
  deriving DecidableEq, Repr

/-- A virtual-processor block in progress (R116 to R121, R378). -/
structure VpBlock where
  /-- program counter of each VP below VL; none when parked -/
  pcs : List (Option Nat)
  /-- working values of v0 to v31 -/
  work : Vector VReg 32
  /-- lines the block has fetched -/
  lines : List (Nat × Line)
  /-- addresses still to be served in this round, ascending -/
  round : List Nat
  deriving DecidableEq, Repr

/-- One entry of the command queue (R275, R380). -/
structure Cmd where
  qpos : Nat
  hi : Bool
  /-- the view of its slot that it reads (R296) -/
  ep : Nat
  eng : Engine
  addr : Word
  ins : Instr
  /-- the values recorded at commit (R66) -/
  vl : Nat
  pops : List Nat
  vtype : Word
  modq : Nat
  ga : Word
  gb : Word
  gc : Word
  snap : Option (Vector Word 32)
  /-- TRACEPTR.ENA at commit (R125) -/
  ena : Bool
  disp : Bool
  done : Bool
  held : Bool
  faulted : Bool
  /-- a macro command that a pre-emption has stopped at its stop point (R287) -/
  paused : Bool
  resume : Nat
  /-- lengths popped at dispatch -/
  vls : List Nat
  /-- status bits to be ORed at retirement: [6:0] MODRED BFPSAT NV DZ OF UF NX, and the residue count -/
  flags : Nat
  mrs : Nat
  ranges : List Range
  /-- what it reads and writes that orders it against other engines (R163) -/
  rd : List Res
  wr : List Res
  block : Option VpBlock
  tile : Option Tile
  /-- an MDRAIN under SR that runs when the generators are reseeded: the sequences it draws from (R65) -/
  gens : Option (BitVec 16384)
  prog : List Nat
  /-- retire-trace data: length used, active positions, first and last address -/
  tr : Nat × Nat × Nat × Nat
  deriving DecidableEq, Repr

/-- A translation held by a TLB (R395). -/
structure TlbEnt where
  ctx : Nat
  va : Nat
  size : Nat
  leaf : Word
  deriving DecidableEq, Repr

/-- A flit on the die network (R306 to R308). -/
structure NetFlit where
  flit : Flit
  sCl : Nat
  sCore : Nat
  sPort : Nat
  /-- binding of the sending port (R307) -/
  sBind : Nat
  dCl : Nat
  dCore : Nat
  dPort : Nat
  /-- router the flit stands at, 0 to 39; arrived: it waits at the destination interface -/
  at_ : Nat
  arrived : Bool
  stage : RStage
  deriving DecidableEq, Repr

/-- The register files the two slots share (R44, R45). -/
structure Files where
  /-- v0 to v63 | 64 × 4096 | R47 | 0 -/
  v : Vector VReg 64
  /-- m1 to m7 (m0 reads as ones) | 8 × 512 | R48 | 0 -/
  m : Vector MReg 8
  /-- a0 to a3 | 4 × 393,216 | R52 | 0 -/
  a : Vector Tile 4
  /-- k0 to k15 | 16 × 2048 | R54 | 0 -/
  k : Vector KReg 16
  /-- w0 to w7 | 8 × 8192 | R55 | 0 -/
  w : Vector WReg 8
  /-- lq0 to lq3, oldest count first | 4 × 16 × 10 | R56 | empty -/
  lq : Vector (List Nat) 4
  /-- committed occupancy of lq0 to lq3 | 4 × 5 | R56 | 0 -/
  occ : Vector Nat 4
  /-- MODQ | 64 | R60 | 0x7FFF_FFFF -/
  modq : Word
  deriving DecidableEq, Repr

/-- The streams, patterns, graph and chain of a core (R59, R209, R228). -/
structure Streams where
  /-- s0 to s15 | 16 × (64 + FIFO) | R59 | unbound -/
  port : Vector Port 16
  /-- pattern slots | 16 | R228, R209 | unconfigured -/
  pat : Vector (Option Pattern) 16
  /-- graph and nodes | - | R220 | none -/
  graph : Graph
  /-- function-node chain | ≤ 8 × 3 | R174 | empty -/
  chain : List Nat
  /-- flits in the arriving direction of links 0 to 3 | 4 × 2 flits | R305 | empty -/
  link : Vector (List Flit) 4
  /-- bindings made so far | - | R307 | DESIGN CHOICE 0 (log 4): the model's own counter -/
  binds : Nat
  /-- tokens of flits taken whose credits are owed, with the core charged for them | - | R310, R235 | empty -/
  owed : List (Nat × Nat)
  deriving DecidableEq, Repr

/-- One core (R44, R45). -/
structure Core where
  s0 : Slot
  s1 : Slot
  f : Files
  /-- W buffer | 524,288 × 8 | R288 | DESIGN CHOICE every byte 0 (log 2) -/
  w : Mem
  /-- A buffer | 393,216 × 8 | R288 | DESIGN CHOICE every byte 0 (log 2) -/
  a : Mem
  /-- C buffer | 131,072 × 8 | R288 | DESIGN CHOICE every byte 0 (log 2) -/
  c : Mem
  /-- h0 to h31 with their regions | 32 × 64 | R58, R239 | free completion handles -/
  h : Vector Handle 32
  st : Streams
  /-- CTXID | 16 | R64 | DESIGN CHOICE 0 (log 3): set by the operating system -/
  ctxid : Word
  /-- ERRMARK | 32 | R64 | 0 -/
  errmark : Word
  /-- ERRCNT | 32 | R64 | 0 -/
  errcnt : Word
  /-- RNDSEED | 32 | R64 | DESIGN CHOICE 0 (log 3): set by the operating system -/
  rndseed : Word
  /-- TRACEPTR | 64 | R64 | ENA 1, else 0 -/
  traceptr : Word
  /-- retire trace | 1,024 × 256 | R387 | DESIGN CHOICE 0 (log 3) -/
  trace : List (Nat × BitVec 256)
  /-- command queue, oldest first | 256 entries | R275 | empty -/
  queue : List Cmd
  /-- next queue position | 16 | R275 | 0 -/
  qpos : Nat
  /-- this core's stores that have not reached the cluster cache | - | R297, R299 | empty -/
  own : Overlay
  /-- AGE when `own` last took its first byte | 48 | R398 | 0 -/
  ownAge : Nat
  /-- translations held by the core's TLBs | ≤ 160 | R395 | empty -/
  tlb : List TlbEnt
  /-- the launch whose per-core state the core holds, 0 for none | 32 | R44 | 0 -/
  launch : Nat
  /-- copy-check and copy-overflow counters | 2 × 64 | R255 | 0 -/
  copyChk : Nat
  copyOvf : Nat
  deriving DecidableEq, Repr

/-- No thread. -/
def Thread.zero : Thread := ⟨0, 0, 0, 0, 0, 0, 0, 0, 0, 0, 0, 0⟩

/-- VTYPE at thread start: PLN 8, FMT 0x1, SEW 10 (R51). -/
def vtypeStart : Word := 0x00800042

/-- A slot that holds no thread. -/
def Slot.fresh (hi : Bool) : Slot :=
  { run := .vacant, th := Thread.zero, pc := 0, npc := 0, g := Vector.replicate 32 0, vl := 0, vtype := vtypeStart,
    status := word (b2n hi), cause := 0, epc := 0, trapvec := 0, gang := 0, loops := [], gens := seedGens 0, latch := false,
    rfout := 0, pend := [], stop := none, lines := [], badLines := [], view := [], ep := 0, past := [], since := none, behind := none, popAt := none, retired := false, stepping := false,
    strips := 0, closer := false, popped := false }

/-- The register files at a launch's start on the core (R44). -/
def Files.fresh : Files :=
  { v := Vector.replicate 64 0, m := Vector.replicate 8 0, a := Vector.replicate 4 0, k := Vector.replicate 16 0,
    w := Vector.replicate 8 0, lq := Vector.replicate 4 [], occ := Vector.replicate 4 0, modq := 0x7FFF_FFFF }

/-- No stage (R233). -/
def RStage.none : RStage := ⟨0, 0, 0, 0⟩

/-- An unbound port. -/
def Port.unbound : Port :=
  { kind := 0, dir := 0, rank := 0, target := 0, done := false, flt := false, fifo := [], passed := false,
    gram := ⟨false, Option.none⟩, hi := false, ep := 0, bind := 0, pat := Option.none, o := 0, i := 0, phase := 0, range := Option.none,
    stage := RStage.none }

/-- A free completion handle (R239). -/
def Handle.free : Handle := ⟨0, false, 0, 0, false, 0, 0, 0, 0, 0, 0, Option.none⟩

/-- No graph (R220). -/
def Graph.empty : Graph := ⟨.none, 0, false, false, 0, [], [], []⟩

/-- Streams at a launch's start on the core (R44). -/
def Streams.fresh : Streams :=
  { port := Vector.replicate 16 Port.unbound, pat := Vector.replicate 16 Option.none, graph := Graph.empty, chain := [],
    link := Vector.replicate 4 [], binds := 0, owed := [] }

/-- A core that no launch has run on since reset. -/
def Core.fresh : Core :=
  { s0 := Slot.fresh false, s1 := Slot.fresh true, f := Files.fresh, w := [], a := [], c := [],
    h := Vector.replicate 32 Handle.free, st := Streams.fresh, ctxid := 0, errmark := 0, errcnt := 0, rndseed := 0,
    traceptr := 0x8000_0000_0000_0000, trace := [], queue := [], qpos := 0, own := [], ownAge := 0, tlb := [], launch := 0, copyChk := 0,
    copyOvf := 0 }

end Sys2Proof.Machine
end

