-- ==== Sys2Proof/Machine/HubState.lean ====
section
/-! DEFINITION. The plain data of a cluster, of the hub, of the base dies and of the package. -/

namespace Sys2Proof.Machine

/-- A group running on a cluster (R273). -/
structure Group where
  seq : Nat
  num : Nat
  order : Nat
  deriving DecidableEq, Repr

/-- A pending handle offer (R243): home core and handle, giver core and handle, taker core. -/
structure Offer where
  homeCore : Nat
  homeH : Nat
  giver : Nat
  giverH : Nat
  taker : Nat
  deriving DecidableEq, Repr

/-- A gang, or its open rendezvous (R259, R260): the word all members give, the slots that have arrived, whether it has
formed, the cores that have executed GANGOFF, and the strips fetched by rank 0 with the cores that took them. -/
structure Gang where
  wd : Word
  mem : List (Nat × Bool)
  formed : Bool
  off : List Nat
  /-- strip number, (register, SEW code), elements, cores that have taken it -/
  strips : List (Nat × (Nat × Nat) × List Nat × List Nat)
  deriving DecidableEq, Repr

/-- One cluster (R3, R273, R278). -/
structure Cluster where
  /-- the group that holds the cluster | - | R273 | none -/
  group : Option Group
  /-- stage queues, queue (core c, stage k) at 7c + k − 1, head first | 56 × 64 × 64 | R278 | empty -/
  stq : Vector (List Word) 56
  /-- when each stage queue last became nonempty, was popped or stolen from | 56 | R282 | 0 -/
  stqAt : Vector Nat 56
  /-- items discarded at the group's end | 32 | R284 | 0 -/
  dropped : Nat
  /-- stages for which no further instance starts | - | R284 | empty -/
  shut : List Nat
  /-- stages whose queues have closed | - | R280 | empty -/
  closed : List Nat
  /-- pending handle offers | - | R243 | empty -/
  offers : List Offer
  /-- gangs and open rendezvous | - | R259 | empty -/
  gangs : List Gang
  /-- dirty bytes of the cluster cache | - | R297 | empty -/
  dirty : Overlay
  /-- smallest tag of its bytes | 48 | R398 | 0 -/
  dirtyAge : Nat
  /-- core that last wrote each line with dirty bytes | - | R424 | empty -/
  dirtyBy : List (Nat × Nat)
  /-- shared TLB | ≤ 4,096 | R395 | empty -/
  tlb : List TlbEnt
  /-- when the scheduler last started an instance | - | R282 | never -/
  startedAt : Option Nat
  /-- a pre-emption request is outstanding | 1 | R375 | false -/
  preempt : Bool
  /-- physical core of each architectural core 0 to 7 | 8 × 4 | R429 | DESIGN CHOICE 0 to 7 (log 3) -/
  phys : List Nat
  /-- spare physical core, if not used up | 4 | R429 | 8 -/
  spare : Option Nat
  /-- physical cores to be withdrawn at the next swap point | - | R429 | empty -/
  toSwap : List Nat
  /-- time of the last wear rotation, and when each architectural core began to serve | - | R429 | 0 -/
  rotAt : Nat
  served : List Nat
  deriving DecidableEq, Repr

/-- A launch (R364 to R366, R373). -/
structure Launch where
  seq : Nat
  ctx : Nat
  code : Nat
  soff : List Nat
  param : Nat
  nx : Nat
  ny : Nat
  nz : Nat
  nt : Nat
  ns : Nat
  pri : Nat
  scope : Nat
  flags : Nat
  trapvec : Word
  cmpl : Nat
  fk : List Nat
  lk : List Nat
  mask : Nat
  /-- thread that launched it, and that thread's launch -/
  parent : Option (Nat × Nat)
  /-- launch queue it came from -/
  queue : Option Nat
  /-- when it arrived: the TAIL write that covers its packet, or the commit of its LAUNCH (R370) -/
  at_ : Nat
  /-- admission order -/
  order : Nat
  /-- linear number of the next group to start -/
  next : Nat
  dropped : Nat
  faulted : Bool
  killed : Bool
  /-- clusters its groups have run on -/
  ran : List Nat
  deriving DecidableEq, Repr

/-- An ended child not yet joined: thread that launched it, sequence number, END code (R270). -/
structure EndedKid where
  tid : Nat
  seq : Nat
  code : Nat
  deriving DecidableEq, Repr

/-- A launch queue's registers (R367, R368), the times of its TAIL writes and when its head became a candidate. -/
structure Lnq where
  ctl : Word
  base : Word
  fault : Word
  arr : List (Nat × Nat)
  headAt : Nat
  /-- the head packet, once the hub has read it whole and found it well-formed -/
  cand : Option Launch
  deriving DecidableEq, Repr

/-- An NVMe queue pair's registers (R411) and the commands forwarded without a completion entry yet. -/
structure Nvq where
  ctl : Word
  sq : Word
  cq : Word
  db : Word
  stat : Word
  flt : Word
  open_ : Nat
  deriving DecidableEq, Repr

/-- A group that was pre-empted and saved (R375, R379): its launch and number, its cluster record, its eight cores, its
save area's physical address and whether it was pinned to the cluster. -/
structure Saved where
  grp : Group
  cl : Nat
  pinned : Bool
  area : Nat
  clus : Cluster
  cores : List Core
  /-- flits of the die network between its own cores -/
  net : List NetFlit
  deriving DecidableEq, Repr

/-- Where a reference to a block of a collective points: source rank, destination rank or 0xFFFF, chunk, segment (R312). -/
structure BlockId where
  src : Nat
  dst : Nat
  chunk : Nat
  seg : Nat
  deriving DecidableEq, Repr

/-- A block packet, coded or not, with its receivers (R316, R317). -/
structure Packet where
  num : Nat
  gid : Nat
  rcv : Nat
  blk : BlockId
  data : List Byte
  /-- the second half of a coded packet: receiver, block and length; the data are then the exclusive or -/
  coded : Option (Nat × BlockId × Nat)
  len : Nat
  rtag : Nat
  /-- fabric identity of the hub that coded it; none for this hub -/
  chub : Option Nat
  /-- fabric port at which it came in; none for a packet of this package -/
  via : Option Nat
  /-- time it was parked, once parked -/
  parked : Option Nat
  deriving DecidableEq, Repr

/-- What hubs of a group send one another through their fabric ports, as Poest packets (R312, R315, R317, R320, R326 to R329,
R333). R317 gives the bytes of a block packet; of the others the rules name the contents (assumption 80). -/
inductive Poest where
  /-- a block packet: header flit and payload -/
  | block (bytes : List Byte)
  /-- a rank has joined a run: group, run, rank, what ranks must agree on, whether its side table is malformed -/
  | joined (gid num rank : Nat) (terms : List Nat) (bad : Bool)
  /-- the blocks that a rank holds or awaits -/
  | advert (gid num rank : Nat) (blocks : List BlockId)
  /-- acknowledgement of a coded packet: coding hub, tag, receiver -/
  | ack (chub tag rcv : Nat)
  /-- fallback request: coding hub, tag, receiver -/
  | fallback (chub tag rcv : Nat)
  /-- a row request with its token: sender, hosting rank asked, token, expert, bytes -/
  | row (gid num rank dst token expert : Nat) (data : List Byte)
  /-- the arbiter's answer to a row request: the row granted, or a refusal -/
  | answer (gid num rank token : Nat) (row : Option Nat)
  /-- a row that a hosting rank returns: rank of the token, token, hosting rank, row, bytes -/
  | back (gid num rank token host row : Nat) (data : List Byte)
  /-- a rank has finished an expert form -/
  | done (gid num rank : Nat)
  deriving DecidableEq, Repr

/-- What this hub knows of a rank on another package in a run (R315, R329, R333): its terms once it has joined, whether its side
table is malformed, its advertisement once arrived, whether it has finished. -/
structure FarRank where
  gid : Nat
  num : Nat
  rank : Nat
  terms : Option (List Nat)
  bad : Bool
  adv : Option (List BlockId)
  done : Bool
  deriving DecidableEq, Repr

/-- A fallback request (R320): tag, receiver, run and block of the original; the coding hub, none for this one; the port at
which it came, none for a receiver of this package. -/
structure Fall where
  tag : Nat
  rcv : Nat
  num : Nat
  blk : BlockId
  chub : Option Nat
  port : Option Nat
  deriving DecidableEq, Repr

/-- A side-store entry (R315): collective, rank, block, bytes once held. The list stands least recently used first. -/
structure SideEnt where
  num : Nat
  rank : Nat
  blk : BlockId
  data : Option (List Byte)
  deriving DecidableEq, Repr

/-- A retransmit-buffer entry (R318): tag, the two originals and the receivers that have not acknowledged. -/
structure Retr where
  tag : Nat
  p : Packet
  q : Packet
  owed : List Nat
  deriving DecidableEq, Repr

/-- A collective on one rank (R263 to R265, R333). -/
structure Coll where
  /-- hub collective number, shared by the ranks of one run of a group -/
  num : Nat
  rank : Nat
  /-- the number that its COLL wrote to g[D] and that records and THRARG name: `num`, unless a record of R446 came before the
  run was known -/
  id : Nat
  /-- the hub has not read and checked its block and tables yet: an access of them waits on a record (R446) -/
  boot : Bool
  gid : Nat
  /-- context, slot and launch that issued the COLL -/
  ctx : Nat
  cl : Nat
  core : Nat
  hi : Bool
  seq : Nat
  /-- address of the parameter block, and its fields -/
  blk : Nat
  opc : Nat
  dtype : Nat
  redop : Nat
  flags : Nat
  src : Nat
  dst : Nat
  count : Nat
  chunk : Nat
  root : Nat
  cntr : Nat
  expt : Nat
  ovfl : Nat
  sched : Nat
  /-- destination chunks counted -/
  done : Nat
  /-- AGE tag of its accesses (R398) -/
  tag : Nat
  /-- a record of R446 awaits an action -/
  wait : Bool
  /-- last time traffic of another rank arrived -/
  at_ : Nat
  /-- blocks that the rank has advertised; whether the advertisement has reached the hub (R315) -/
  adv : List BlockId
  advIn : Bool
  /-- block packets that the rank has sent to the coding queue; of an uncoded run, chunks sent to the ranks on other packages;
  of an expert dispatch, tokens sent -/
  sent : Nat
  /-- blocks delivered to this rank -/
  got : List BlockId
  /-- expert dispatch: tokens placed or overflowed; combine: tokens whose rows have been written -/
  tok : List Nat
  /-- rows granted of each HOST entry -/
  rows : List (Nat × Nat)
  /-- overflowed expert packets -/
  ovf : Nat
  /-- DONE is set; the error code; a side-information table that kept the rank from starting -/
  fin : Bool
  code : Nat
  bad : Bool
  deriving DecidableEq, Repr

/-- A row request of an expert dispatch on its way (R325 to R327): collective, sending rank, token, expert, the replica asked and those
that have been tried, and the refusal that it carries back. -/
structure RowReq where
  num : Nat
  rank : Nat
  token : Nat
  expert : Nat
  replica : Nat
  tried : List Nat
  refused : Bool
  /-- the rank asked, and the bytes that the request adds to the egress queue toward it -/
  dst : Nat
  bytes : Nat
  /-- it has left by a fabric port and waits for the answer -/
  sent : Bool
  /-- the token, in a request from another package -/
  data : Option (List Byte)
  deriving DecidableEq, Repr

/-- A rank of a collective group (R264): a context of this package, or a rank on another package. -/
inductive Rank where
  | here (ctx : Nat)
  | far (port : Nat)
  deriving DecidableEq, Repr

/-- A Bramble program slot (R347). -/
structure Prog where
  region : Nat
  rules : List Word
  deriving DecidableEq, Repr

/-- A walk in flight (R341), with what it carries. -/
structure Walk where
  k : Nat
  h : Nat
  p : Nat
  b : List Byte
  pc : Nat
  n : Nat
  cl : Nat
  core : Nat
  qpos : Nat
  lane : Nat
  prog : Prog
  ctx : Nat
  lim : Nat
  /-- stack of its engine -/
  stack : Nat
  /-- migration under way since, to the stack -/
  mig : Option (Nat × Nat)
  /-- waiting on a moving block since -/
  mov : Option Nat
  /-- block-table entry of its block: the one it read last, or waits for or moves to (R350) -/
  ent : Option Nat
  /-- its region or a block of it is gone, or a read of it was uncorrectable (R350) -/
  gone : Bool
  deriving DecidableEq, Repr

/-- A line held in a combining store (R338): whether its memory read has returned, and when it was last served. -/
structure Held where
  line : Nat
  filled : Bool
  since : Nat
  deriving DecidableEq, Repr

/-- A return-free operation on its way to its home (R160, R340): issuer, place, operation, width and operand. -/
structure SliceOp where
  cl : Nat
  core : Nat
  hi : Bool
  loc : Nat
  op : Nat
  w : Nat
  x : Nat
  cmp : Nat
  /-- thread and launch that issued it -/
  tid : Nat
  seq : Nat
  /-- AGE when it was translated (R398) -/
  tag : Nat
  /-- it has reached its slice and waits for the line's memory read (R338) -/
  waits : Bool
  /-- performed; the acknowledgement has not reached the slot yet -/
  acked : Bool
  deriving DecidableEq, Repr

/-- What leaves the package (R369, R413, R439, R443): interrupts of the host cluster, doorbells, pins. -/
inductive Out where
  | irq (source : Nat)
  | doorbell (port : Nat) (addr val : Nat)
  | driveLoad (port addr n : Nat)
  | driveStore (port addr n data : Nat)
  | thermtrip
  | quote (bytes : List Byte)
  | driveReply (ok : Bool) (data : Nat)
  | peerReply (ok : Bool) (data : Nat)
  | readReply (data : Nat)
  | hostError (source : Nat)
  | poest (port : Nat) (m : Poest)
  | pause (kind unit : Nat)
  deriving DecidableEq, Repr

/-- Launches, queues and traps at the hub (R366 to R387). -/
structure HubLaunch where
  /-- LNQCTL, LNQBASE, LNQFAULT of queues 0 to 63 | 64 × 192 | R367, R368 | LOGN 4, else 0 -/
  lnqs : List (Nat × Lnq)
  /-- child queue, head first | 1,024 | R373 | empty -/
  kids : List Launch
  /-- when the head of the child queue came to stand there | - | R370 | 0 -/
  kidAt : Nat
  /-- admitted launches | 64 | R370 | empty -/
  run : List Launch
  /-- ended children not yet joined | - | R270 | empty -/
  ended : List EndedKid
  /-- children of each thread: thread, sequence number | - | R270 | empty -/
  born : List (Nat × Nat)
  /-- launch sequence counter | 32 | R366 | DESIGN CHOICE 0 (log 3), the first number is 1 -/
  seq : Nat
  /-- thread counter and group-start counter of the model | - | R371 | 0 -/
  tid : Nat
  order : Nat
  /-- pre-empted groups | - | R376 | empty -/
  saved : List Saved
  /-- TRQBASE | 64 | R385 | 0 -/
  trqbase : Word
  /-- TRQIDX | 64 | R381 | PTAG 1, else 0 -/
  trqidx : Word
  /-- FATALPEND | 64 | R383 | 0 -/
  fatalpend : Word
  /-- THRACT | 64 | R385 | 0 -/
  thract : Word
  /-- THRARG | 64 | R385 | 0 -/
  thrarg : Word
  /-- DBGSEL | 64 | R385 | 0 -/
  dbgsel : Word
  /-- record sequence number | 63 | R382 | DESIGN CHOICE 0 (log 3) -/
  trqseq : Nat
  /-- records of R446 that wait for room, and those that wait for an action | - | R446 | empty -/
  hubPend : List Record
  hubStop : List Record
  deriving DecidableEq, Repr

/-- Translation, peers, storage at the hub (R395 to R415). -/
structure HubXlate where
  /-- CTXTAB0 to CTXTAB4095 | 4,096 × 64 | R408 | 0 -/
  ctxtab : List (Nat × Word)
  /-- TLBINV | 64 | R400 | 0 -/
  tlbinv : Word
  /-- AGE | 48 | R400 | 0 -/
  age : Nat
  /-- husk queue: frame word and stamp, oldest first | 4,096 | R399 | empty -/
  husk : List (Word × Nat)
  /-- HUSKSTAT.REFUSED | 1 | R400 | 0 -/
  huskRef : Bool
  /-- SHDBASE | 64 | R400 | 0 -/
  shdbase : Word
  /-- PXW0 to PXW63, low word at 2n, high word at 2n + 1 | 128 × 64 | R405 | 0 -/
  pxw : List (Nat × Word)
  /-- NVQ0 to NVQ1023 | 1,024 × 512 | R411 | LOGN 1, EP 1, else 0 -/
  nvqs : List (Nat × Nvq)
  /-- hub TLB | ≤ 1,024 | R395 | empty -/
  tlb : List TlbEnt
  /-- fabric ports that are up | 16 | R392, R423 | DESIGN CHOICE all up (log 3) -/
  up : BitVec 16
  /-- PCIe root ports that are up | 4 | R423 | DESIGN CHOICE all up (log 3) -/
  rootUp : BitVec 4
  /-- refusals in a row of the current flit of each fabric port, and from 16 on of each root port | 20 | R423 | 0 -/
  crc : List (Nat × Nat)
  /-- atomics and accesses from peers refused here (PEERREJ), in telemetry | 64 | R406 | 0 -/
  peerRej : Nat
  /-- export windows of the peer at each fabric port, as its operating system set them: port, low word, high word, the
  peer's port number for this package | - | R405, R406 | empty -/
  peerWin : List (Nat × Word × Word × Nat)
  deriving DecidableEq, Repr

/-- Collectives and the exchange at the hub (R312 to R334). -/
structure HubExch where
  /-- groups the operating system has registered: number, ranks in order | 65,536 | R263 | empty -/
  groups : List (Nat × List Rank)
  /-- collectives in progress | - | R264 | empty -/
  colls : List Coll
  /-- next hub collective number | 32 | R264 | DESIGN CHOICE 0 (log 3) -/
  num : Nat
  /-- side store | 2,048 × 4 KiB | R315 | empty -/
  side : List SideEnt
  /-- coding queue, front first | 64 | R316 | empty -/
  codeq : List Packet
  /-- coded packets that have arrived at a receiver's hub; those with `parked` set hold a decode-buffer entry | 256 | R319 | empty -/
  dec : List Packet
  /-- fallback requests that this hub is to answer, or that wait for another hub's original | - | R320 | empty -/
  fall : List Fall
  /-- acknowledgements on their way to the coding hub: tag and receiver | - | R318 | empty -/
  acks : List (Nat × Nat)
  /-- retransmit buffer | 4 MiB | R318 | empty -/
  retr : List Retr
  /-- next tag | 16 | R317 | 0 -/
  tag : Nat
  /-- row requests of expert dispatch on their way | - | R326 | empty -/
  rows : List RowReq
  /-- bytes in the egress queue toward each rank, as collective group and rank | - | R325 | 0 -/
  egress : List (Nat × Nat)
  /-- packets that have arrived at fabric ports, in order, as the packages there sent them: port, packet | - | R312 | empty -/
  inbox : List (Nat × Poest)
  /-- blocks of uncoded runs from ranks on other packages: run, receiver, block, bytes | - | R312 | empty -/
  blocks : List (Nat × Nat × BlockId × List Byte)
  /-- ranks on other packages in the runs here | - | R315, R329, R333 | empty -/
  far : List FarRank
  /-- CODEDTX, SIDEMISS, DTIMEOUT, FALLBACK, SEVICT, UNCSUB, EXPREJ, EXPOVF in this order | 8 × 64 | R323 | 0 -/
  ctr : Vector Nat 8
  deriving DecidableEq, Repr

/-- The base dies: slices and Bramble engines (R335 to R353), and the routers of the compute dies (R306). -/
structure BaseDie where
  /-- return-free operations not yet performed or acknowledged, in issue order | - | R337, R340 | empty -/
  ops : List SliceOp
  /-- lines held in combining stores | 64 a slice | R338 | empty -/
  held : List Held
  /-- walk-region descriptors, context × 16 + region: low and high word | 4,096 × 16 × 128 | R342, R343 | 0 -/
  regions : List (Nat × Word × Word)
  /-- low words written that wait for their high word | - | R343 | empty -/
  regLow : List (Nat × Word)
  /-- block table | 4,096 × 64 | R342 | 0 -/
  blocks : List (Nat × Word)
  /-- entries whose MOV = 1 the base dies have acknowledged | - | R352 | empty -/
  movAck : List Nat
  /-- program slots, context × 16 + slot | 4,096 × 16 × 16 × 64 | R347 | empty -/
  progs : List (Nat × Prog)
  /-- walks in flight | 128 × 32 | R341 | empty -/
  walks : List Walk
  /-- WALKS, STEPS, MIGRIN, DROPS of each stack | 8 × 4 × 64 | R353 | 0 -/
  ctr : List (Nat × Nat)
  /-- flits on the die networks, each router's queue in order | 40 × 5 × 8 flits | R306 | empty -/
  net : List NetFlit
  /-- FWD, COMB, FILT, MCAST of each router, at 4 × router + counter | 40 × 4 × 64 | R309 | 0 -/
  rctr : List (Nat × Nat)
  deriving DecidableEq, Repr

/-- Errors, repair, background work (R423 to R432). -/
structure Errors where
  /-- ELGBASE | 64 | R432 | 0 -/
  elgbase : Word
  /-- ELGIDX | 64 | R426 | PTAG 1, else 0 -/
  elgidx : Word
  /-- error-log sequence number | 63 | R426 | DESIGN CHOICE 0 (log 3) -/
  elgseq : Nat
  /-- CLOFF | 40 | R430 | fuse store: DESIGN CHOICE 0 (log 3) -/
  cloff : Nat
  /-- TLMBASE | 64 | R432 | 0 -/
  tlmbase : Word
  /-- telemetry counters by kind × 65,536 + instance | 64 each | R432 | 0 -/
  tlm : List (Nat × Nat)
  /-- units whose test is pending or running: unit, location | - | R427 | empty -/
  tests : List (Nat × Nat)
  /-- transient verdicts: unit, location, time | - | R428 | empty -/
  transient : List (Nat × Nat × Nat)
  /-- repair map of the fuse store: unit and location of each lasting repair | - | R428 | DESIGN CHOICE empty (log 3) -/
  repaired : List (Nat × Nat)
  /-- spares used so far: per kind of unit and place | - | R429 | 0 -/
  spares : List (Nat × Nat)
  /-- fabric ports at half width | 16 | R430 | 0 -/
  half : BitVec 16
  deriving DecidableEq, Repr

/-- Boot, measurement, power (R433 to R444). -/
structure Boot where
  /-- supply rails settled, in the order of R440 | 7 | R440 | DESIGN CHOICE all settled (log 3) -/
  powered : Bool
  /-- BOOTSTAT | 64 | R443 | 0 with LASTRESET kept on VAUX: DESIGN CHOICE power-on 0 (log 3) -/
  bootstat : Word
  /-- images of the next stage that have been accepted: TYPE 1, 5, 2, 3 | - | R433 | empty -/
  accepted : List Nat
  /-- MREG0 to MREG8 | 9 × 384 | R436 | 0 -/
  mreg : Vector (BitVec 384) 9
  /-- MREGXD0 to MREGXD5 | 6 × 64 | R444 | 0 -/
  mregxd : Vector Word 6
  /-- MREGXGO | 64 | R444 | 0 -/
  mregxgo : Word
  /-- rollback counters of TYPE 1 to 5 | 5 × 8 | R435 | fused: DESIGN CHOICE 0 (log 3) -/
  rollback : List (Nat × Nat)
  /-- HZLOADA | 64 | R444 | 0 -/
  hzloada : Word
  /-- HZLOADL | 64 | R444 | 0 -/
  hzloadl : Word
  /-- HZLOAD | 64 | R444 | 0 -/
  hzload : Word
  /-- HZSTAT | 64 | R444 | 0 -/
  hzstat : Word
  /-- firmware slots that hold an image: slot, image | 256 | R330 | empty -/
  hzslots : List (Nat × List Byte)
  /-- images kept in staging, by slot | - | R437 | none -/
  staged : List (Nat × List Byte)
  /-- address from which the hazel core beside the C0 attachment runs the management agent | 64 | R433 | held: none -/
  agentAt : Option Nat
  /-- the unique secret, while later code could read it | 256 | R438 | there: true -/
  secret : Bool
  /-- identity private keys, while they are there | - | R438 | none -/
  idKeys : Option (List Byte)
  /-- alias private keys, and the certificates | - | R438 | none -/
  aliasKeys : Option (List Byte × List Byte)
  /-- PWRCTL | 64 | R442 | LIMIT 1,600 -/
  pwrctl : Word
  /-- throttle level that the power limit asks for | 3 | R442 | 0 -/
  plevel : Nat
  /-- trim of VDD_C0 and VDD_C1 in mV, and the earliest time of the next step of each | 2 | R441 | 675 -/
  trim : List (Nat × Nat)
  /-- hottest samples: time, °C | - | R442 | empty -/
  temps : List (Nat × Nat)
  deriving DecidableEq, Repr

/-- No group. -/
def Cluster.fresh : Cluster :=
  { group := none, stq := Vector.replicate 56 [], stqAt := Vector.replicate 56 0, dropped := 0, shut := [], closed := [],
    offers := [], gangs := [], dirty := [], dirtyAge := 0, dirtyBy := [], tlb := [], startedAt := none, preempt := false, phys := [0, 1, 2, 3, 4, 5, 6, 7], spare := some 8,
    toSwap := [],    rotAt := 0, served := [0, 0, 0, 0, 0, 0, 0, 0] }

/-- A launch queue's registers at reset (R367, R368). -/
def Lnq.fresh : Lnq := ⟨0x0040_0000_0000_0000, 0, 0, [], 0, none⟩

/-- An NVMe pair's registers at reset (R411). -/
def Nvq.fresh : Nvq := ⟨0x0010_0000_0000_0000, 0, 0, 0, 0x0001_0000_0000_0000, 0, 0⟩

end Sys2Proof.Machine
end

