-- ==== Sys2Proof/Machine/State.lean ====
section
/-! DEFINITION. The state of a Kwenulos package: its cores, clusters, hub, base dies, memory, and the plain data that says
which party moves next; the state after reset; the faults and refusals of a step. -/

namespace Sys2Proof.Machine

/-- The two variants of the part (R4). -/
inductive Variant where
  | kwenulos | kwenulosS
  deriving DecidableEq, Repr

/-- Whose move the next step is, and what passes of time. The order of the parties and the moments at which caches, views
and TLBs change, which the spec leaves open (R12, R297, R300, R396), are data of the state. -/
inductive Turn where
  /-- the thread slot executes its next instruction -/
  | slot (cl core : Nat) (hi : Bool)
  /-- an event row of the table takes place -/
  | event (i : Instr)
  /-- n cycles pass -/
  | tick (n : Nat)
  /-- the stores that a core still holds reach its cluster's cache (R299) -/
  | drain (cl core : Nat)
  /-- the dirty bytes of a cluster's cache reach their homes (R297) -/
  | flush (cl : Nat)
  /-- a slot's view of one location is fixed now (R300) -/
  | fill (cl core : Nat) (hi : Bool) (loc : Nat)
  /-- a core's TLBs lose what they hold (R396) -/
  | tlbDrop (cl core : Nat)
  /-- a cluster's shared TLB loses what it holds (R396) -/
  | tlbDropClus (cl : Nat)
  /-- the hub's TLB loses what it holds (R396) -/
  | tlbDropHub
  /-- a slot's fetched lines are fetched afresh (R73) -/
  | lineDrop (cl core : Nat) (hi : Bool)
  deriving DecidableEq, Repr

/-- The machine stops. -/
inductive Fault where
  /-- An access to a physical address at or beyond the part's HBM, which does not exist: through a CTXTAB ROOT, a shadow
  ring or an export window that software placed there. Safe: the model stops where the spec gives no effect. -/
  | physicalHole
  deriving DecidableEq, Repr

/-- The model gives no meaning. -/
inductive Refusal where
  /-- An instruction that has no meaning yet. Safe. -/
  | notModelled (mnemonic : String)
  deriving DecidableEq, Repr

/-- The state of the package. -/
structure State where
  /-- variant of the part | - | R4 | DESIGN CHOICE Kwenulos (log 3) -/
  variant : Variant
  /-- STEPPING | 8 | R4 | DESIGN CHOICE 0 (log 3) -/
  stepping : Nat
  /-- cluster, core and slot whose instruction or command is in hand | 6 + 3 + 1 | R274 | 0, 0, slot 0 -/
  cl : Nat
  co : Nat
  hi : Bool
  /-- turns still to take place, first one next | - | R12 | DESIGN CHOICE empty (log 4) -/
  agenda : List Turn
  /-- engine commands run to their end at commit when nothing stands before them | 1 | R275 | DESIGN CHOICE true (log 4) -/
  eager : Bool
  /-- TIME, cycles since reset | 64 | R432 | 0 -/
  time : Nat
  /-- the model's counter of free values | - | - | DESIGN CHOICE 0 (log 5): the model's own field -/
  free : Nat
  /-- cores that differ from a fresh one, by 8 × cluster + core | 320 | R3 | none listed -/
  cores : List (Nat × Core)
  /-- clusters that differ from a fresh one | 40 | R3 | none listed -/
  clusters : List (Nat × Cluster)
  /-- device memory at its homes: local HBM, and the memory of the peer at fabric port p from (p + 1) × 2^52 | 2^52 × 8 each | R299, R388, R404 | DESIGN CHOICE every byte 0 (log 2) -/
  mem : Mem
  /-- stores released to the point of a compute die only | 2 | R298 | empty -/
  die0 : Overlay
  die1 : Overlay
  /-- smallest tags of their bytes | 48 | R398 | 0 -/
  dieAge0 : Nat
  dieAge1 : Nat
  /-- stores to peers released at device scope only | - | R298, R404 | empty -/
  peer : Overlay
  /-- smallest tag of its bytes | 48 | R398 | 0 -/
  peerAge : Nat
  hub : HubLaunch
  xl : HubXlate
  ex : HubExch
  bd : BaseDie
  er : Errors
  bt : Boot
  /-- what has left the package, newest first | - | R369, R413, R443 | empty -/
  out : List Out
  deriving DecidableEq, Repr

/-- The machine right after reset: every field at the value that the spec states, or that the assumption log names. -/
def State.reset : State :=
  { variant := .kwenulos, stepping := 0, cl := 0, co := 0, hi := false, agenda := [], eager := true, time := 0, free := 0,
    cores := [], clusters := [], mem := [], die0 := [], die1 := [], dieAge0 := 0, dieAge1 := 0, peer := [], peerAge := 0,
    hub := { lnqs := [], kids := [], kidAt := 0, run := [], ended := [], born := [], seq := 0, tid := 0, order := 0, saved := [],
             trqbase := 0, trqidx := 0x1000_0000, fatalpend := 0, thract := 0, thrarg := 0, dbgsel := 0, trqseq := 0,
             hubPend := [], hubStop := [] },
    xl := { ctxtab := [], tlbinv := 0, age := 0, husk := [], huskRef := false, shdbase := 0, pxw := [], nvqs := [],
            tlb := [], up := 0xFFFF, rootUp := 0xF, crc := [], peerRej := 0, peerWin := [] },
    ex := { groups := [], colls := [], num := 0, side := [], codeq := [], dec := [], fall := [], acks := [], retr := [],
            tag := 0, rows := [], egress := [], inbox := [], blocks := [], far := [], ctr := Vector.replicate 8 0 },
    bd := { ops := [], held := [], regions := [], regLow := [], blocks := [], movAck := [], progs := [], walks := [],
            ctr := [], net := [], rctr := [] },
    er := { elgbase := 0, elgidx := 0x0400_0000, elgseq := 0, cloff := 0, tlmbase := 0, tlm := [], tests := [],
            transient := [], repaired := [], spares := [], half := 0 },
    bt := { powered := true, bootstat := 0, accepted := [], mreg := Vector.replicate 9 0, mregxd := Vector.replicate 6 0,
            mregxgo := 0, rollback := [], hzloada := 0, hzloadl := 0, hzload := 0, hzstat := 0, hzslots := [],
            staged := [], agentAt := none, secret := true, idKeys := none, aliasKeys := none, pwrctl := 1600, plevel := 0, trim := [(675, 0), (675, 0)], temps := [] },
    out := [] }

end Sys2Proof.Machine
end

