-- ==== Sys2Proof/Machine/Ops.lean ====
section
/-! DEFINITION. The operations over registers and memory that every meaning shares: access to the current core and slot,
translation (R388 to R396), loads and stores under the phase consistency model (R297 to R304), instruction lines
(R67 to R75), retirement with hardware loops (R115), taking an exception (R63, R122, R381 to R383) and coming back. -/

namespace Sys2Proof.Machine

/-! ## Cores, slots, clusters -/

/-- Core co of cluster cl. -/
def State.coreAt (s : State) (cl co : Nat) : Core := (look (8 * cl + co) s.cores).getD Core.fresh
/-- The state with core co of cluster cl replaced. -/
def State.setCoreAt (s : State) (cl co : Nat) (c : Core) : State := { s with cores := put (8 * cl + co) c s.cores }
/-- The current core. -/
def State.core (s : State) : Core := s.coreAt s.cl s.co
/-- The state with the current core replaced. -/
def State.setCore (s : State) (c : Core) : State := s.setCoreAt s.cl s.co c
/-- The state with the current core changed. -/
def State.modCore (s : State) (f : Core → Core) : State := s.setCore (f s.core)
/-- A core's slot. -/
def Core.slot (c : Core) (hi : Bool) : Slot := if hi then c.s1 else c.s0
/-- The core with one slot replaced. -/
def Core.setSlot (c : Core) (hi : Bool) (x : Slot) : Core := if hi then { c with s1 := x } else { c with s0 := x }
/-- The current slot. -/
def State.slot (s : State) : Slot := s.core.slot s.hi
/-- The state with the current slot replaced. -/
def State.setSlot (s : State) (x : Slot) : State := s.setCore (s.core.setSlot s.hi x)
/-- The state with the current slot changed. -/
def State.modSlot (s : State) (f : Slot → Slot) : State := s.setSlot (f s.slot)
/-- Cluster k. -/
def State.clusAt (s : State) (k : Nat) : Cluster := (look k s.clusters).getD Cluster.fresh
/-- The state with cluster k replaced. -/
def State.setClusAt (s : State) (k : Nat) (c : Cluster) : State := { s with clusters := put k c s.clusters }
/-- The current cluster. -/
def State.clus (s : State) : Cluster := s.clusAt s.cl
/-- The state with the current cluster changed. -/
def State.modClus (s : State) (f : Cluster → Cluster) : State := s.setClusAt s.cl (f s.clus)
/-- The state with core co of cluster cl and one slot taken up. -/
def State.at_ (s : State) (cl co : Nat) (hi : Bool) : State := { s with cl := cl, co := co, hi := hi }
/-- Run on another core and come back to the present one. -/
def State.on (s : State) (cl co : Nat) (hi : Bool) (f : State → State) : State :=
  let t := f (s.at_ cl co hi)
  t.at_ s.cl s.co s.hi
/-- Every core's number that is listed. -/
def State.coreIds (s : State) : List Nat := s.cores.map (·.1)
/-- An output leaves the package. -/
def State.emit (s : State) (o : Out) : State := { s with out := o :: s.out }
/-- An interrupt of the host cluster. -/
def State.irq (s : State) (n : Nat) : State := s.emit (.irq n)

/-! ## Scalar registers (R46) -/

/-- g[n]: g0 reads as zero. -/
def Slot.getG (x : Slot) (n : Nat) : Word := if n = 0 then 0 else x.g[n]?.getD 0
/-- A write to gn; to g0 it is discarded. -/
def Slot.setG (x : Slot) (n : Nat) (v : Word) : Slot := if n = 0 then x else { x with g := x.g.setIfInBounds n v }
/-- g[n] of the current slot. -/
def State.g (s : State) {w : Nat} (n : BitVec w) : Word := s.slot.getG n.toNat
/-- A write to a g register of the current slot. -/
def State.setG (s : State) {w : Nat} (n : BitVec w) (v : Word) : State := s.modSlot (fun x => x.setG n.toNat v)

/-! ## Traps (R63) -/

/-- A trap on its way: cause, subcode, replayable, where EPC points when that is not the instruction itself, whether the
slot's EPC register is kept (R394), and the record's data words (R382). -/
structure Trap where
  code : Nat
  sub : Nat
  rpl : Bool := false
  epc : Option Word := none
  keepEpc : Bool := false
  d0 : Word := 0
  d1 : Word := 0
  d2 : Word := 0
  d3 : Word := 0
  deriving DecidableEq, Repr

/-- ILLEGAL_INSTRUCTION. -/
def Trap.ill (sub : Nat) : Trap := { code := 0x01, sub := sub }
/-- LINE_FORMAT. -/
def Trap.line (sub : Nat) : Trap := { code := 0x02, sub := sub }
/-- ILLEGAL_OPERAND. -/
def Trap.opnd (sub : Nat) : Trap := { code := 0x03, sub := sub }
/-- ILLEGAL_OPERAND of an engine: the record names the operand (R382, log 77). -/
def Trap.opndAt (sub x : Nat) : Trap := { Trap.opnd sub with d0 := word x }
/-- UNIT_ABSENT (R5). -/
def Trap.absent : Trap := { code := 0x04, sub := 0 }
/-- MISALIGNED. -/
def Trap.align (sub : Nat) : Trap := { code := 0x05, sub := sub }
/-- PERMISSION. -/
def Trap.perm (sub : Nat) : Trap := { code := 0x07, sub := sub }
/-- NOT_HOLDER. -/
def Trap.holder : Trap := { code := 0x09, sub := 0 }

/-- The causes that R63 marks local. -/
def causeLocal (code : Nat) : Bool := [0x01, 0x02, 0x03, 0x05, 0x09, 0x0A, 0x0B, 0x0D, 0x0F, 0x10].contains code

/-- Why a meaning did not reach its end. Each carries the state that then holds. -/
inductive Stop where
  /-- a trap, to be taken by the current slot -/
  | trap (t : Trap) (s : State)
  /-- the instruction does not commit now and is executed again -/
  | stall (s : State)
  /-- the machine stops -/
  | fault (f : Fault)
  /-- no meaning -/
  | refuse (r : Refusal)

/-- A meaning in progress. -/
abbrev M := Except Stop

/-- Raise a trap unless a condition holds. -/
def need (c : Bool) (t : Trap) (s : State) : M Unit := if c then .ok () else .error (.trap t s)

/-- STATUS.INH (R62). -/
def Slot.inh (x : Slot) : Bool := flag x.status 3
/-- STATUS.LTE (R62). -/
def Slot.lte (x : Slot) : Bool := flag x.status 8
/-- STATUS.ERRPOL (R62). -/
def Slot.errpol (x : Slot) : Bool := flag x.status 9

/-- The CAUSE word (R63). -/
def causeWord (t : Trap) (qf : Bool) (qpos : Nat) : Word :=
  word ((if qf then (qpos % 65536) <<< 48 else 0) + (b2n t.rpl <<< 31) + (b2n qf <<< 30) + ((t.sub % 256) <<< 8)
    + t.code % 256)

/-- Whether a slot takes a cause at TRAPVEC (R122). -/
def Slot.takesLocally (x : Slot) (code : Nat) : Bool :=
  causeLocal code && x.lte && !x.inh && fld x.trapvec 6 58 != 0

/-- The record of a trap of the current slot (R382, R383). -/
def State.mkRecord (s : State) (t : Trap) (epc : Word) (qf : Bool) (qpos : Nat) : Record :=
  { code := t.code, sub := t.sub, rpl := t.rpl, qf := qf, fatal := s.slot.inh && !(t.keepEpc && t.rpl), hub := false,
    qpos := qpos, ctx := fld s.core.ctxid 0 16, epc := epc, seq := s.slot.th.seq, cl := s.cl, core := s.co, hi := s.hi,
    d0 := t.d0, d1 := t.d1, d2 := t.d2, d3 := t.d3 }

/-- TAKING A TRAP of the control thread (QF = 0; R63, R75, R96, R122): at TRAPVEC when the slot takes the cause locally,
else the record goes to the device trap queue and the thread stops. -/
def State.takeTrap (s : State) (t : Trap) : State :=
  let x := s.slot
  let epc := t.epc.getD x.pc
  let x' := { x with cause := causeWord t false 0, epc := if t.keepEpc then x.epc else epc, since := none, behind := none,
                     popAt := none }
  if x.takesLocally t.code then
    s.setSlot { x' with status := setFld x.status 3 1 1, pc := setFld x.trapvec 0 6 0 }
  else
    s.setSlot { x' with run := .stopped, pend := x.pend ++ [s.mkRecord t epc false 0] }

/-- RETURN FROM A LOCAL TRAP (R128): INH clears and the thread continues at EPC. -/
def State.leaveTrap (s : State) : State :=
  s.modSlot (fun x => { x with status := setFld x.status 3 1 0, pc := x.epc })

/-! ## Retirement and hardware loops (R114, R115) -/

/-- The end of a loop body: the stack and the next address after the instruction at pc has committed (R115). -/
def loopEnd (pc npc : Word) : List LoopEnt → List LoopEnt × Word
  | [] => ([], npc)
  | t :: r =>
    if t.e = pc then
      (if t.r - 1 = 0 then loopEnd pc npc r else ({ t with r := t.r - 1 } :: r, t.s))
    else (t :: r, npc)

/-- The stack after a taken B or JMP to an address (R115). -/
def loopLeave (target : Word) : List LoopEnt → List LoopEnt
  | [] => []
  | t :: r => if t.s.ule target && target.ule t.e then t :: r else loopLeave target r

/-- The thread stands at an address; under STEP it stops there with BREAKPOINT (R384). -/
def State.arrive (s : State) (pc : Word) : State :=
  let s := s.modSlot (fun x => { x with pc := pc, since := none, behind := none, popAt := none })
  if s.slot.stepping then
    let s := s.modSlot (fun x => { x with stepping := false })
    let t : Trap := { code := 0x10, sub := 0x01 }
    s.modSlot (fun x => { x with run := .stopped, cause := causeWord t false 0, epc := pc,
                                 pend := x.pend ++ [s.mkRecord t pc false 0] })
  else s

/-- The instruction commits without transferring control. -/
def State.retire (s : State) : State :=
  let r := loopEnd s.slot.pc s.slot.npc s.slot.loops
  (s.modSlot (fun x => { x with loops := r.1 })).arrive r.2

/-- What a meaning in progress comes to: the next state, a trap taken, an instruction that waits while time passes, or a
stop of the machine. -/
def finish : M State → Host.Outcome State Fault Refusal
  | .ok s => .next s
  | .error (.trap t s) => .next (s.takeTrap t)
  | .error (.stall s) => .next { s with time := s.time + 1 }
  | .error (.fault f) => .fault f
  | .error (.refuse r) => .refused r

/-- A meaning of the control thread that does not transfer: its effect, then retirement. -/
def commit (s : State) (f : State → M State) : Host.Outcome State Fault Refusal :=
  finish (do let t ← f s; pure t.retire)

/-! ## The part (R4, R388) -/

/-- Whether the part is the full Kwenulos. -/
def State.full (s : State) : Bool := s.variant == .kwenulos
/-- Bytes of local HBM. -/
def State.hbm (s : State) : Nat := (if s.full then 384 else 192) * 2 ^ 30
/-- Clusters of the part. -/
def State.nclus (s : State) : Nat := if s.full then 40 else 20
/-- The capability word (R4). -/
def State.caps (s : State) : Word :=
  word ((if s.full then 1 else 2) <<< 56 + (s.stepping % 256) <<< 48 +
    (if s.full then 0xA22120000000 + 0x1F else 0x512110000000 + 0x10))

/-! ## Translation (R388 to R396) -/

/-- Access kinds. -/
inductive Acc where
  | rd | wr | atm | fx
  deriving DecidableEq, Repr

/-- The forms that R392 step 5 distinguishes. -/
inductive Form where
  | scalar | fetch | other
  deriving DecidableEq, Repr

/-- Where an access goes. -/
inductive Place where
  | mem (loc : Nat)
  | mgmt (off : Nat)
  | drive (port addr : Nat)
  deriving DecidableEq, Repr

/-- The page size of a leaf at a level (R388). -/
def pageSize : Nat → Nat
  | 0 => 2 ^ 16
  | 1 => 2 ^ 27
  | _ => 2 ^ 38

/-- Whether an entry with V = 1 is malformed (R391). -/
def entryBad (hbm level : Nat) (e : Word) : Bool :=
  if flag e 1 then
    fld e 52 12 != 0 || fld e 2 12 != 0 || level == 0 || decide (hbm ≤ fld e 14 38 * 2 ^ 14)
  else
    let ap := fld e 13 3
    let tgt := fld e 52 4
    let addr := fld e 16 36 * 2 ^ 16
    fld e 56 8 != 0 || fld e 5 6 != 0 || level == 3 || (ap == 0 && decide (hbm ≤ addr)) || addr % pageSize level != 0
      || (flag e 3 && !flag e 2) || (flag e 12 && ap != 1) || ((ap == 0 || ap == 2) && tgt != 0)
      || (ap == 3 && 3 < tgt) || (flag e 4 && ap != 0) || 4 ≤ ap
      || (ap == 2 && decide (2 ^ 30 < addr + pageSize level))

/-- The byte address of the entry of a level within its table. -/
def entryOff (level va : Nat) : Nat :=
  8 * (match level with
    | 3 => bits va 49 5
    | 2 => bits va 38 11
    | 1 => bits va 27 11
    | _ => bits va 16 11)

/-- The result of a walk: the leaf and its level, or the fault's subcode and the entry at which it stopped. -/
inductive WalkRes where
  | leaf (e : Word) (level : Nat)
  | bad (sub : Nat) (e : Word)
  | hole
  deriving DecidableEq, Repr

/-- The walk of R388 and steps 1 and 2 of R392, from a level down; it reads the homes (R396). -/
def State.walk (s : State) (va : Nat) : Nat → Nat → WalkRes
  | level, table =>
    if s.hbm ≤ table then .hole
    else
      let e := word (s.mem.read (table + entryOff level va) 8)
      if !flag e 0 then .bad 0x01 e
      else if entryBad s.hbm level e then .bad 0x02 e
      else if flag e 1 then
        (match level with
        | 0 => .bad 0x02 e
        | l + 1 => State.walk s va l (fld e 14 38 * 2 ^ 14))
      else .leaf e level

/-- The entry of a TLB that covers an address. -/
def tlbFind (tlb : List TlbEnt) (ctx va : Nat) : Option TlbEnt :=
  firstSat (fun e => e.ctx == ctx && decide (e.va ≤ va) && decide (va < e.va + e.size)) tlb

/-- A TLB without the entry that covers an address. -/
def tlbDropAt (tlb : List TlbEnt) (ctx va : Nat) : List TlbEnt :=
  tlb.filter (fun e => !(e.ctx == ctx && decide (e.va ≤ va) && decide (va < e.va + e.size)))

/-- The translation of an address in a registered context (R408): what a TLB holds, or a walk. -/
def State.lookup (s : State) (tlb : List TlbEnt) (ctx va : Nat) : Except WalkRes (TlbEnt × Bool) :=
  let t := (look ctx s.xl.ctxtab).getD 0
  if !flag t 63 || 4096 ≤ ctx then .error (.bad 0x01 0)
  else
    match tlbFind tlb ctx va with
    | some e => .ok (e, false)
    | none =>
      match s.walk va 3 (fld t 8 44 * 2 ^ 8) with
      | .leaf e l => .ok (⟨ctx, va - va % pageSize l, pageSize l, e⟩, true)
      | r => .error r

/-- Steps 3 to 7 of R392 on a leaf: the fault's cause and subcode, if a check fails. -/
def leafCheck (up : BitVec 16) (e : Word) (acc : Acc) (form : Form) : Option (Nat × Nat) :=
  let ap := fld e 13 3
  let tgt := fld e 52 4
  if ap == 1 && !flag up tgt then some (0x06, 0x03)
  else if flag e 11 && (acc == .wr || acc == .atm) then some (0x06, 0x04)
  else if (form == .fetch && ap != 0) || (2 ≤ ap && (form == .other || acc == .atm)) then some (0x07, 0x06)
  else match acc with
    | .rd => if flag e 2 then none else some (0x07, 0x03)
    | .wr => if flag e 3 then none else some (0x07, 0x04)
    | .fx => if flag e 4 then none else some (0x07, 0x05)
    | .atm =>
      if !(flag e 2 && flag e 3) then some (0x07, 0x04)
      else if ap == 1 && !flag e 12 then some (0x08, 0x00) else none

/-- Where a leaf sends an address. -/
def leafPlace (t : TlbEnt) (va : Nat) : Place :=
  let a := fld t.leaf 16 36 * 2 ^ 16 + (va - t.va)
  match fld t.leaf 13 3 with
  | 0 => .mem a
  | 1 => .mem ((fld t.leaf 52 4 + 1) * 2 ^ 52 + a)
  | 2 => .mgmt a
  | _ => .drive (fld t.leaf 52 4) a

/-- The access code of D2 (R382). -/
def accCode : Acc → Nat
  | .rd => 0 | .wr => 1 | .atm => 2 | .fx => 0

/-- The trap of a failed translation (R382, R392). -/
def xlTrap (code sub va : Nat) (acc : Acc) (e : Word) : Trap :=
  { code := code, sub := sub, rpl := code == 0x06 || code == 0x08, d0 := word va, d2 := word (accCode acc), d3 := e }

/-- The TLBs of the current core and of its cluster changed (R393, R395). -/
def State.modTlbs (s : State) (f : List TlbEnt → List TlbEnt) : State :=
  (s.modCore (fun c => { c with tlb := f c.tlb })).modClus (fun k => { k with tlb := f k.tlb })
/-- TRANSLATION of one access of the current core in its context (R388, R392, R393, R395): the place, with the leaf kept
in the core's and the cluster's TLB, or the fault, with the leaf dropped from both where R393 says so. -/
def State.xlate (s : State) (va : Nat) (acc : Acc) (form : Form) : M (Place × State) :=
  if 2 ^ 54 ≤ va then .error (.trap { Trap.perm 0x01 with d0 := word va, d2 := word (accCode acc) } s)
  else
    let ctx := fld s.core.ctxid 0 16
    match s.lookup (s.core.tlb ++ s.clus.tlb) ctx va with
    | .error .hole => .error (.fault .physicalHole)
    | .error (.bad sub e) => .error (.trap (xlTrap 0x06 sub va acc e) s)
    | .error (.leaf _ _) => .error (.fault .physicalHole)
    | .ok (t, new) =>
      match leafCheck s.xl.up t.leaf acc form with
      | some (code, sub) =>
        let s' := if code = 0x06 ∧ sub = 0x03 then s else s.modTlbs (fun l => tlbDropAt l ctx va)
        .error (.trap (xlTrap code sub va acc t.leaf) s')
      | none => .ok (leafPlace t va, if new then s.modTlbs (t :: ·) else s)

/-- TRANSLATION at the hub on a context's behalf (R392, R395): the place, or the cause, subcode and entry of the fault. -/
def State.xlateHub (s : State) (ctx va : Nat) (acc : Acc) : Except (Nat × Nat × Word) (Place × State) :=
  if 2 ^ 54 ≤ va then .error (0x07, 0x01, 0)
  else
    match s.lookup s.xl.tlb ctx va with
    | .error (.bad sub e) => .error (0x06, sub, e)
    | .error _ => .error (0x06, 0x01, 0)
    | .ok (t, new) =>
      match leafCheck s.xl.up t.leaf acc .other with
      | some (code, sub) =>
        .error (code, sub, t.leaf)
      | none => .ok (leafPlace t va, if new then { s with xl := { s.xl with tlb := t :: s.xl.tlb } } else s)

/-- The hub's TLB without a leaf that denied an access: the replay walks again (R393, R396). -/
def State.hubDrop (s : State) (ctx va : Nat) (acc : Acc) : State :=
  match (tlbFind s.xl.tlb ctx va).bind (fun t => leafCheck s.xl.up t.leaf acc .other) with
  | some (code, sub) => if code = 0x06 ∧ sub = 0x03 then s else { s with xl := { s.xl with tlb := tlbDropAt s.xl.tlb ctx va } }
  | none => s

/-! ## The consistency model (R297 to R304) -/

/-- Locations at or above this are a peer's: (port + 1) × 2^52 + the peer's physical address. -/
def peerBase : Nat := 2 ^ 52
/-- Whether a cluster lies on C0. -/
def onDie0 (cl : Nat) : Bool := decide (cl < 20)
/-- The overlay of the compute die of a cluster. -/
def State.dieOf (s : State) (cl : Nat) : Overlay := if onDie0 cl then s.die0 else s.die1
/-- The state with the overlay of a cluster's compute die replaced. -/
def State.setDie (s : State) (cl : Nat) (o : Overlay) : State :=
  if onDie0 cl then { s with die0 := o } else { s with die1 := o }

/-- What a read of the current core would find now, nearest point first: the core's own stores, its cluster's cache, its
die, the device's held stores to peers, the home. -/
def State.newest (s : State) (loc : Nat) : Byte :=
  match s.core.own.get? loc with
  | some b => b
  | none =>
    match s.clus.dirty.get? loc with
    | some b => b
    | none =>
      match (s.dieOf s.cl).get? loc with
      | some b => b
      | none =>
        match s.peer.get? loc with
        | some b => b
        | none => s.mem.get loc

/-- What a later view of the slot has fixed for a location: an earlier one is not newer (R300). -/
def Slot.later (x : Slot) (loc : Nat) : Option Byte :=
  firstSome (fun p => if x.ep < p.1 then Overlay.get? p.2 loc else none) x.past
/-- The byte of a location in a slot's view: what the view has fixed, or what a later view of the slot has, or what is found
now; the view keeps it (R300). -/
def State.viewByte (s : State) (loc : Nat) : Byte × State :=
  match s.slot.view.get? loc with
  | some b => (b, s)
  | none =>
    let b := (s.slot.later loc).getD (s.newest loc)
    (b, s.modSlot (fun x => { x with view := x.view.set loc b }))

/-- n bytes of device memory from a location, in the current slot's view, little-endian. -/
def State.viewRead (s : State) (loc : Nat) : Nat → Nat × State
  | 0 => (0, s)
  | n + 1 =>
    let r := s.viewByte loc
    let q := State.viewRead r.2 (loc + 1) n
    (r.1.toNat + 256 * q.1, q.2)

/-- A slot of which every view takes a byte (R300). -/
def Slot.sees (x : Slot) (loc : Nat) (b : Byte) : Slot :=
  { x with view := x.view.set loc b, past := x.past.map (fun p => (p.1, p.2.set loc b)) }
/-- A store of one byte by the current core: it waits in the core, and both slots' views take it (R300). -/
def State.storeByte (s : State) (loc : Nat) (b : Byte) : State :=
  s.modCore (fun c => { c with own := c.own.set loc b, ownAge := if c.own.isEmpty then s.xl.age else c.ownAge,
                               s0 := c.s0.sees loc b, s1 := c.s1.sees loc b })

/-- A store of n little-endian bytes of x. -/
def State.viewWrite (s : State) (loc x : Nat) : Nat → State
  | 0 => s
  | n + 1 => State.viewWrite (s.storeByte loc (BitVec.ofNat 8 x)) (loc + 1) (x / 256) n

/-- Whether the peer of a location admits an access of n bytes: one valid window of the peer for this package's port
contains the bytes and permits the kind (R405, R406); needs: 0 read, 1 write, 2 atomic, 3 return-free. -/
def State.peerAdmits (s : State) (loc n kind : Nat) : Bool :=
  let port := loc / peerBase - 1
  let a := loc % peerBase
  s.xl.peerWin.any (fun w =>
    w.1 == port && flag w.2.1 63 && fld w.2.1 56 4 == w.2.2.2 && decide (fld w.2.1 16 36 * 2 ^ 16 ≤ a)
      && decide (a + n ≤ (fld w.2.2.1 16 36 + 1) * 2 ^ 16)
      && (match kind with
          | 0 => flag w.2.1 60
          | 1 => flag w.2.1 61
          | 2 => flag w.2.1 62
          | _ => flag w.2.1 62 && flag w.2.1 61))

/-- Bytes that reach their homes; a peer drops those that no window of it admits, and both hubs count each 64-byte line of
them (R406, log 74). -/
def State.toHome (s : State) (x : Overlay) : State :=
  let ok := fun a => decide (a < peerBase) || s.peerAdmits a 1 1
  let bad := ((x.filter (fun c => !ok c.1)).map (fun c => c.1 / 64)).eraseDups.length
  { s with mem := (x.part ok).toMem s.mem, xl := { s.xl with peerRej := s.xl.peerRej + bad } }

/-! ## Return-free operations on their way (R160, R337, R338) -/

/-- The new value of an atomic (R110): operation, width in bits, old value, operand, compare value. -/
def amoNew (op w old x cmp : Nat) : Nat :=
  let a := old % 2 ^ w
  let b := x % 2 ^ w
  match op with
  | 0 => (a + b) % 2 ^ w
  | 1 => a &&& b
  | 2 => a ||| b
  | 3 => a ^^^ b
  | 4 => if sgn w b < sgn w a then b else a
  | 5 => if sgn w a < sgn w b then b else a
  | 6 => if b < a then b else a
  | 7 => if a < b then b else a
  | 8 => (faddR (fmtOf 1) 0 (fval (fmtOf 1) a) (fval (fmtOf 1) b)).1
  | 9 => (faddR (fmtOf 3) 0 (fval (fmtOf 3) a) (fval (fmtOf 3) b)).1
  | 10 => b
  | _ => if a = cmp % 2 ^ w then b else a

/-- Both slots of a core see n bytes of x at a location from now on, but for the bytes of a younger store that the core still
holds: a write of their own core (R300). -/
def Core.notes (c : Core) (loc x : Nat) : Nat → Core
  | 0 => c
  | n + 1 =>
    let b := BitVec.ofNat 8 x
    Core.notes (if (Overlay.get? c.own loc).isSome then c else { c with s0 := c.s0.sees loc b, s1 := c.s1.sees loc b })
      (loc + 1) (x / 256) n
/-- Both slots of the current core see n bytes of x at a location from now on. -/
def State.noteOwn (s : State) (loc x n : Nat) : State := s.modCore (fun c => c.notes loc x n)

/-- A return-free operation performed at its home; its core's later loads see the write; a peer drops one that no window
admits, and both hubs count it (R300, R337, R405, R406). -/
def State.performOp (s : State) (o : SliceOp) : State :=
  let n := o.w / 8
  if peerBase ≤ o.loc && !s.peerAdmits o.loc n 3 then { s with xl := { s.xl with peerRej := s.xl.peerRej + 1 } }
  else
    let new := amoNew o.op o.w (s.mem.read o.loc n) o.x o.cmp
    { s with mem := s.mem.write o.loc new n }.setCoreAt o.cl o.core ((s.coreAt o.cl o.core).notes o.loc new n)

/-- The updates that wait in a combining store for a line's memory read are applied in arrival order, and the line is held
clean (R338). -/
def State.fillLine (s : State) (line : Nat) : State :=
  let mine := fun (o : SliceOp) => o.waits && !o.acked && o.loc / 64 == line
  let t := (s.bd.ops.filter mine).foldl State.performOp s
  { t with bd := { t.bd with ops := t.bd.ops.map (fun o => if mine o then { o with acked := true, waits := false } else o),
                             held := t.bd.held.map (fun h => if h.line = line then { h with filled := true, since := s.time }
                                                             else h) } }
/-- The return-free operations of the current core on a line that have not been performed are performed, after those that
wait there already: what the core sends to the line later does not overtake them (R299, R337, R404). -/
def State.settle (s : State) (line : Nat) : State :=
  let mine := fun (o : SliceOp) => !o.acked && o.cl == s.cl && o.core == s.co && o.loc / 64 == line
  if s.bd.ops.any mine then
    let s := s.fillLine line
    let t := (s.bd.ops.filter mine).foldl State.performOp s
    { t with bd := { t.bd with ops := t.bd.ops.map (fun o => if mine o then { o with acked := true } else o) } }
  else s

/-! ## Releases and acquires -/

/-- The smallest tag of two sets of bytes in flight that come together (R398): a tag counts while its set is not empty. -/
def joinAge (x : Overlay) (a : Nat) (y : Overlay) (b : Nat) : Nat := if x.isEmpty then b else if y.isEmpty then a else min a b
/-- Every line that holds a byte of an overlay. -/
def Overlay.lines (x : Overlay) : List Nat := (x.map (fun c => c.1 / 64)).eraseDups
/-- The current core's stores reach its cluster's cache, behind its older return-free operations on their lines. -/
def State.drainCore (s : State) : State :=
  let s := s.core.own.lines.foldl State.settle s
  let o := s.core.own
  let a := s.core.ownAge
  (s.modCore (fun c => { c with own := [] })).modClus (fun k =>
    { k with dirty := o.onto k.dirty, dirtyAge := joinAge o a k.dirty k.dirtyAge,
             dirtyBy := o.lines.foldl (fun l n => put n s.co l) k.dirtyBy })
/-- The tag of a compute die's point. -/
def State.dieAge (s : State) (cl : Nat) : Nat := if onDie0 cl then s.dieAge0 else s.dieAge1
/-- The state with the tag of a compute die's point replaced. -/
def State.setDieAge (s : State) (cl a : Nat) : State := if onDie0 cl then { s with dieAge0 := a } else { s with dieAge1 := a }

/-- The current cluster's dirty bytes leave the cache: to the die's point, or to their homes; those of peers to the
device's point. -/
def State.flushClus (s : State) (toDie : Bool) : State :=
  let d := s.clus.dirty
  let near := d.part (fun a => decide (a < peerBase))
  let far := d.part (fun a => decide (peerBase ≤ a))
  let a := s.clus.dirtyAge
  let s := s.modClus (fun k => { k with dirty := [], dirtyBy := [] })
  let s := { s with peer := far.onto s.peer, peerAge := joinAge far a s.peer s.peerAge }
  if toDie then
    (s.setDieAge s.cl (joinAge near a (s.dieOf s.cl) (s.dieAge s.cl))).setDie s.cl (near.onto (s.dieOf s.cl))
  else { s with mem := near.toMem s.mem }

/-- What stands at the die's point reaches its homes. -/
def State.flushDie (s : State) : State :=
  let o := s.dieOf s.cl
  ({ s with mem := o.toMem s.mem }).setDie s.cl []

/-- A RELEASE of the current core's stores at a scope: 0 core, 1 cluster, 2 die, 3 device, 4 system (R297, R298). -/
def State.release (s : State) (scope : Nat) : State :=
  match scope with
  | 0 => s
  | 1 => s.drainCore
  | 2 => if s.full then s.drainCore.flushClus true else (s.drainCore.flushDie).flushClus false
  | 3 => (s.drainCore.flushDie).flushClus false
  | _ =>
    let s := (s.drainCore.flushDie).flushClus false
    let p := s.peer
    ({ s with peer := [] }).toHome p

/-- Whether a command in flight of a slot, or a pattern that it bound, still reads its view n (R296). An HTAKE reads
nothing. -/
def Core.reads (c : Core) (hi : Bool) (n : Nat) : Bool :=
  c.queue.any (fun e => e.hi == hi && e.ep == n && !e.done && (match e.ins with | .htake _ => false | _ => true))
    || c.st.port.toList.any (fun p => p.pat.isSome && p.hi == hi && p.ep == n)
/-- An ACQUIRE of the current slot: a new view; a view that a command in flight still reads is kept for it (R296, R300, R302). -/
def State.acquire (s : State) : State :=
  let c := s.core
  s.modSlot (fun x =>
    let past := x.past.filter (fun p => c.reads s.hi p.1)
    if c.reads s.hi x.ep then { x with view := [], ep := x.ep + 1, past := (x.ep, x.view) :: past }
    else { x with view := [], past := past })
/-- A slot whose present view is number n, the one before being kept: a command reads the view of its place (R296). -/
def Slot.turnTo (x : Slot) (n : Nat) : Slot :=
  if x.ep = n then x
  else match look n x.past with
    | some v => { x with view := v, ep := n, past := (x.ep, x.view) :: drop n x.past }
    | none => x
/-- Run something that reads view n of the current slot, and come back to the present view (R296). -/
def State.inView (n : Nat) (f : State → M State) (s : State) : M State :=
  let e := s.slot.ep
  if e = n then f s
  else
    let back := fun (t : State) => t.modSlot (fun x => x.turnTo e)
    match f (s.modSlot (fun x => x.turnTo n)) with
    | .ok t => .ok (back t)
    | .error (.trap t u) => .error (.trap t (back u))
    | .error (.stall u) => .error (.stall (back u))
    | .error e => .error e

/-- Everything this core, its cluster and its die hold of one 64-byte line reaches the home (R111), the core's own stores to it
behind its older return-free operations on it (R337, R404). -/
def State.lineHome (s : State) (loc : Nat) : State :=
  let s := if s.core.own.any (fun c => c.1 / 64 == loc / 64) then s.settle (loc / 64) else s
  let inLine := fun a => a / 64 == loc / 64
  let out := fun a => !(a / 64 == loc / 64)
  let die := (s.dieOf s.cl).part inLine
  let clu := s.clus.dirty.part inLine
  let own := s.core.own.part inLine
  let peer := s.peer.part inLine
  let s := s.setDie s.cl ((s.dieOf s.cl).part out)
  let s := s.modClus (fun k => { k with dirty := k.dirty.part out, dirtyBy := drop (loc / 64) k.dirtyBy })
  let s := s.modCore (fun c => { c with own := c.own.part out })
  let s := { s with peer := s.peer.part out }
  (((s.toHome die).toHome peer).toHome clu).toHome own

/-- The slice of a line: its pseudo-channel's (R335). -/
def sliceOf (line : Nat) : Nat := (Config.channelOf (Config.placeOf 0 line)).toNat
/-- The combining stores once an operation for a line has come: the line holds an entry of its slice's 64, taken if need be
from the least recently used line held clean; none while every entry of the slice is pending (R338). -/
def BaseDie.entry (b : BaseDie) (line : Nat) (filled : Bool) (now : Nat) : Option BaseDie :=
  if b.held.any (fun h => h.line == line) then
    some { b with held := b.held.map (fun h => if h.line = line then { h with since := now } else h) }
  else
    let mine := b.held.filter (fun h => sliceOf h.line == sliceOf line)
    if mine.length < 64 then some { b with held := b.held ++ [⟨line, filled, now⟩] }
    else match firstBy (fun x y => decide (x.since < y.since)) (mine.filter (·.filled)) with
      | some v => some { b with held := b.held.filter (fun h => h.line != v.line) ++ [⟨line, filled, now⟩] }
      | none => none
/-- The home of a location as an operation that returns finds it: behind the core's older stores and return-free operations,
with the line held in its slice's combining store; the operation waits while the slice has no entry for it (R111, R337, R338). A
peer's line is held over there. -/
def State.atHome (s : State) (loc : Nat) : M State :=
  let s := ((s.settle (loc / 64)).lineHome loc).fillLine (loc / 64)
  if peerBase ≤ loc then .ok s
  else match s.bd.entry (loc / 64) true s.time with
    | some b => .ok { s with bd := b }
    | none => .error (.stall s)

/-! ## Buffers (R288, R294) -/

/-- The size of a buffer: 1 W, 2 A, 3 C. -/
def bufSize : Nat → Nat
  | 1 => 524288
  | 2 => 393216
  | 3 => 131072
  | _ => 0
/-- A core's buffer. -/
def Core.buf (c : Core) : Nat → Mem
  | 1 => c.w
  | 2 => c.a
  | 3 => c.c
  | _ => []
/-- The core with one buffer replaced. -/
def Core.setBuf (c : Core) (spc : Nat) (m : Mem) : Core :=
  match spc with
  | 1 => { c with w := m }
  | 2 => { c with a := m }
  | 3 => { c with c := m }
  | _ => c
/-- n bytes of a buffer of the current core. -/
def State.bufRead (s : State) (spc a n : Nat) : Nat := (s.core.buf spc).read a n
/-- A write of n bytes to a buffer of the current core. -/
def State.bufWrite (s : State) (spc a x n : Nat) : State :=
  s.modCore (fun c => c.setBuf spc ((c.buf spc).write a x n))
/-- Whether a byte range of a buffer belongs to a region that another core holds (R294). -/
def Core.notHolder (c : Core) (spc a n : Nat) : Bool :=
  c.h.toList.any (fun e => e.home.isNone && e.buf == spc && e.buf != 0 && !e.held && overlap e.off e.len a n)

/-! ## Instruction lines (R67 to R75) -/

/-- What stands in a slot of a line (R69): a head with its tail, an overlap, or nothing. -/
inductive SlotRead where
  | ins (h : BitVec 16) (t : BitVec 64)
  | overlaps
  | none
  deriving DecidableEq, Repr

/-- The decoding procedure of R69, from head j on, up to head `tgt`. -/
def lineScan (l : Line) (tgt : Nat) : Nat → Nat → Nat → SlotRead
  | 0, _, _ => .none
  | f + 1, j, used =>
    if 64 - used ≤ 2 * j then .none
    else
      let h := l.extractLsb' (16 * j) 16
      if h = 0 then .none
      else
        let size := tailSize h
        if 64 - used < 2 * j + 2 + size then (if j = tgt then .overlaps else .none)
        else if j = tgt then .ins h (BitVec.ofNat 64 ((l.toNat >>> (8 * (64 - used - size))) % 2 ^ (8 * size)))
        else lineScan l tgt f (j + 1) (used + size)

/-- Slot j of a line (R69). -/
def lineSlot (l : Line) (j : Nat) : SlotRead := lineScan l j 33 0 0

/-- The line of an address (R71). -/
def lineOf (a : Word) : Nat := a.toNat / 64 * 64
/-- The slot of an address (R71). -/
def slotOf (a : Word) : Nat := a.toNat % 64 / 2
/-- The instruction after slot j of a line, in program order (R71, R113). -/
def nextAddr (l : Line) (a : Word) : Word :=
  if lineSlot l (slotOf a + 1) = .none then word (lineOf a + 64) else a + 2

/-- n bytes of device memory as the current core would find them now, without the thread's view: a line is read as one
image at one instant (R73). -/
def State.newestRead (s : State) (loc : Nat) : Nat → Nat
  | 0 => 0
  | n + 1 => (s.newest loc).toNat + 256 * State.newestRead s (loc + 1) n

/-- FETCH of an instruction line by the current slot (R73, R394): the line it has fetched already, or the image now. The
fault of a failed translation carries D0, the line's address. -/
def State.fetchLine (s : State) (la : Nat) : M (Line × State) :=
  match look la s.slot.lines with
  | some l => .ok (l, s)
  | none => do
    let (p, s) ← s.xlate la .fx .fetch
    match p with
    | .mem loc =>
      let l := BitVec.ofNat 512 (s.newestRead loc 64)
      pure (l, s.modSlot (fun x => { x with lines := (la, l) :: x.lines }))
    | _ => .error (.trap (Trap.perm 0x06) s)

/-- Decode and transfer faults have D0 = 0 (R382) and the fetch faults keep theirs; both point EPC at the transfer. -/
def State.checkTarget (s : State) (target : Word) : M State := do
  let (l, s) ← s.fetchLine (lineOf target)
  match lineSlot l (slotOf target) with
  | .ins _ _ => pure s
  | .overlaps => .error (.trap (Trap.line 0x01) s)
  | .none => .error (.trap (Trap.line (if lineSlot l 0 = .none then 0x03 else 0x02)) s)

/-- The target of a T4B or T4J tail (R72). -/
def lineTarget {n : Nat} (pc : Word) (loff : BitVec n) (slot : BitVec 5) : Word :=
  word (lineOf pc) + BitVec.ofInt 64 (64 * loff.toInt) + word (2 * slot.toNat)

/-- A control transfer of the current thread to an address that has been checked (R72). -/
def State.transfer (s : State) (target : Word) : State := s.arrive target

/-! ## Data accesses (R106, R107, R392) -/

/-- The part of R106 that needs no translation: address range, alignment and buffer ownership, in that order. -/
def State.checkData (s : State) (spc ea n : Nat) (acc : Acc) : M Unit := do
  if spc = 0 then need (decide (ea < 2 ^ 54)) { Trap.perm 0x01 with d0 := word ea, d2 := word (accCode acc) } s
  else need (decide (ea + n ≤ bufSize spc)) (Trap.opnd 0x01) s
  need (decide (ea % n = 0)) (Trap.align 0x02) s
  if spc ≠ 0 then need (!s.core.notHolder spc ea n) Trap.holder s

/-- A read of n bytes of device memory at a place that is memory, in the current slot's view; a peer refuses it without a
window (R406). -/
def State.readPlace (s : State) (va loc n : Nat) (e : Word) : M (Nat × State) :=
  if peerBase ≤ loc && !s.peerAdmits loc n 0 then .error (.trap (xlTrap 0x07 0x07 va .rd e) s)
  else .ok (s.viewRead loc n)

/-- A fresh free value, and the state with the counter advanced (assumption 5). -/
def State.fresh (s : State) : Nat × State := (Config.freeValue s.free, { s with free := s.free + 1 })

end Sys2Proof.Machine
end

