-- ==== Sys2Proof/Machine/Operands.lean ====
section
/-! DEFINITION. Operands: the register files of the core (R46 to R57), the captured VTYPE (R51), VLMAX (R47), the length
operand (R56, R79), masks (R48), the cross-lane modifier (R134), and the write rule R49. -/

namespace Sys2Proof.Machine

/-! ## Register files -/

/-- v[n]. -/
def State.vreg (s : State) (n : Nat) : VReg := s.core.f.v[n]?.getD 0
/-- m[n]: m0 reads as all ones (R48). -/
def State.mreg (s : State) (n : Nat) : MReg := if n = 0 then BitVec.allOnes 512 else s.core.f.m[n]?.getD 0
/-- a[n]. -/
def State.areg (s : State) (n : Nat) : Tile := s.core.f.a[n]?.getD 0
/-- k[n]. -/
def State.kreg (s : State) (n : Nat) : KReg := s.core.f.k[n]?.getD 0
/-- w[n]. -/
def State.wreg (s : State) (n : Nat) : WReg := s.core.f.w[n]?.getD 0
/-- The register files changed. -/
def State.modF (s : State) (f : Files → Files) : State := s.modCore (fun c => { c with f := f c.f })
/-- A write of v[n]. -/
def State.setV (s : State) (n : Nat) (x : VReg) : State := s.modF (fun f => { f with v := f.v.setIfInBounds n x })
/-- A write of m[n]; to m0 it is discarded (R48). -/
def State.setM (s : State) (n : Nat) (x : MReg) : State :=
  if n = 0 then s else s.modF (fun f => { f with m := f.m.setIfInBounds n x })
/-- A write of a[n]. -/
def State.setA (s : State) (n : Nat) (x : Tile) : State := s.modF (fun f => { f with a := f.a.setIfInBounds n x })
/-- A write of k[n]. -/
def State.setK (s : State) (n : Nat) (x : KReg) : State := s.modF (fun f => { f with k := f.k.setIfInBounds n x })
/-- A write of w[n]. -/
def State.setW (s : State) (n : Nat) (x : WReg) : State := s.modF (fun f => { f with w := f.w.setIfInBounds n x })

/-! ## VTYPE (R51) -/

/-- log2 of SEW in bytes. -/
def vtSewCode (t : Word) : Nat := fld t 0 2
/-- SEW in bits. -/
def vtSew (t : Word) : Nat := 8 * 2 ^ vtSewCode t
/-- SEW in bytes. -/
def vtEs (t : Word) : Nat := 2 ^ vtSewCode t
/-- FMT. -/
def vtFmt (t : Word) : Nat := fld t 6 4
/-- blkA. -/
def vtBlkA (t : Word) : Nat := fld t 10 3
/-- blkB. -/
def vtBlkB (t : Word) : Nat := fld t 13 3
/-- RM. -/
def vtRm (t : Word) : Nat := fld t 16 3
/-- SAT. -/
def vtSat (t : Word) : Bool := flag t 19
/-- PLN. -/
def vtPln (t : Word) : Nat := fld t 20 4
/-- MID. -/
def vtMid (t : Word) : Bool := flag t 24
/-- SFMT. -/
def vtSfmt (t : Word) : Bool := flag t 25
/-- VLMAX of an element width in bits (R47). -/
def vlmax (w : Nat) : Nat := 4096 / w
/-- VLMAX of the captured SEW. -/
def vtVlmax (t : Word) : Nat := vlmax (vtSew t)
/-- Container width in bits of a format code (R13). -/
def fmtWidth (f : Nat) : Nat :=
  match f with
  | 0 => 64 | 1 => 32 | 0xC => 32 | 2 => 16 | 3 => 16 | 0xB => 16 | _ => 8
/-- Bytes of one element of a format in memory where it is a whole number of bytes. -/
def fmtBytes (f : Nat) : Nat := fmtWidth f / 8

/-! ## The length operand (R56, R79) -/

/-- The length queue that a LEN code pops. -/
def lenQueue (l : BitVec 3) : Option Nat := if 4 ≤ l.toNat then some (l.toNat - 4) else none
/-- The length of a command whose only length field is `l`: VL, or the popped count clamped to `mx`. -/
def Cmd.len (c : Cmd) (l : BitVec 3) (mx : Nat) : Nat := if 4 ≤ l.toNat then min (nthD 0 c.vls 0) mx else c.vl
/-- The second length of an outer product (LB): the second popped count when LA pops too. -/
def Cmd.lenB (c : Cmd) (la lb : BitVec 3) (mx : Nat) : Nat :=
  if 4 ≤ lb.toNat then min (nthD 0 c.vls (if 4 ≤ la.toNat then 1 else 0)) mx else c.vl

/-! ## Elements -/

/-- A register with its elements below n that a mask selects replaced by `f` (R49). -/
def maskedWrite {b : Nat} (old : BitVec b) (w : Nat) (msk : MReg) (n : Nat) (f : Nat → Nat) : BitVec b :=
  mapElems old w (fun i => if flag msk i then some (f i) else none) n
/-- A mask whose bits below n are those of a test; the others are clear (R48). -/
def maskOf (n : Nat) (p : Nat → Bool) : MReg := mapElems (0 : MReg) 1 (fun i => some (b2n (p i))) n
/-- The flags of every active element together. -/
def orFlags (msk : MReg) (f : Nat → Nat) : Nat → Nat
  | 0 => 0
  | n + 1 => if flag msk n then orFlags msk f n ||| f n else orFlags msk f n
/-- How many bits of a mask are set below n. -/
def active (msk : MReg) (n : Nat) : Nat := countBelow (fun i => flag msk i) n
/-- The positions below n that a mask selects, ascending. -/
def actives (msk : MReg) (n : Nat) : List Nat := below (fun i => flag msk i) n

/-- The elements of operand A and of operand B of a T4V form, at width w under length n: the named register, the scalar of
X = 1 (captured in `gb`), or the element that the cross-lane modifier names (R134). -/
def v4Lanes (o : OpV4) (c : Cmd) (s : State) (w n : Nat) : (Nat → Nat) × (Nat → Nat) :=
  let va := s.vreg o.a.toNat
  let vb := s.vreg o.b.toNat
  let vc := s.vreg o.c.toNat
  let cross (r : VReg) (i : Nat) : Nat := let j := elem vc w i; if j < n then elem r w j else 0
  (if o.xl = 2#2 then cross va else fun i => elem va w i,
   if o.x then fun _ => c.gb.toNat % 2 ^ w else if o.xl = 1#2 then cross vb else fun i => elem vb w i)

end Sys2Proof.Machine
end

