-- ==== Sys2Proof/Machine/Flags.lean ====
section
/-! DEFINITION. Flags: what a command collects while it runs and what its retirement writes to STATUS (R17, R30, R62). -/

namespace Sys2Proof.Machine

/-- A queue entry changed. -/
def State.modCmd (s : State) (q : Nat) (f : Cmd → Cmd) : State :=
  s.modCore (fun c => { c with queue := replFirst (fun e => e.qpos == q) f c.queue })
/-- A command collects flags, as the seven bits of STATUS[47:41]. -/
def State.raise (s : State) (c : Cmd) (fl : Nat) : State :=
  if fl = 0 then s else s.modCmd c.qpos (fun e => { e with flags := e.flags ||| fl })
/-- A command collects n reduced residue operands (R30). -/
def State.reduced (s : State) (c : Cmd) (n : Nat) : State :=
  if n = 0 then s else s.modCmd c.qpos (fun e => { e with flags := e.flags ||| fMOD, mrs := e.mrs + n })
/-- STATUS after flags and a residue count have been ORed in: MRCNT saturates (R62). -/
def statusWith (st : Word) (fl mrs : Nat) : Word :=
  setFld (setFld st 41 7 (fld st 41 7 ||| fl)) 48 16 (min 65535 (fld st 48 16 + mrs))

/-- The results of an element-wise form, each with its flags. -/
abbrev Lanes := Nat → Nat × Nat

/-- A masked write of lane results and the flags of the active lanes. -/
def State.putLanes (s : State) (c : Cmd) (d w : Nat) (msk : MReg) (n : Nat) (f : Lanes) : State :=
  (s.setV d (maskedWrite (s.vreg d) w msk n (fun i => (f i).1))).raise c (orFlags msk (fun i => (f i).2) n)

end Sys2Proof.Machine
end

