-- ==== Sys2Proof/Machine/Tokens.lean ====
section
/-! DEFINITION. Tokens, flits, FIFOs and stream ports: the fibre grammar (R201 to R206), the ends of a port (R207), taking
and sending tokens (R203, R208), credits (R235, R310) and traps that reach a slot from outside its thread (R206, R229). -/

namespace Sys2Proof.Machine

/-- Done. -/
def Token.done : Token := ⟨4, 0⟩
/-- A stop of rank k. -/
def Token.stop (k : Nat) : Token := ⟨8 + k, 0⟩
/-- Whether a token is an element token (R202). -/
def Token.isElem (t : Token) : Bool := decide (t.kind < 4)
/-- Whether a token is a stop. -/
def Token.isStop (t : Token) : Bool := decide (8 ≤ t.kind)
/-- The token as a producer writes it (R202). -/
def Token.norm (t : Token) : Token := if t.kind < 3 then ⟨t.kind, t.val % 2 ^ 32⟩ else ⟨t.kind, 0⟩

/-! ## Grammar (R204, R205) -/

/-- A check that no token has met. -/
def Grammar.fresh : Grammar := ⟨false, none⟩
/-- The check of R204 on the token at the head of an input of a declared rank that accepts some element kinds: the
subcode, or the check after the token. -/
def grammarCheck (g : Grammar) (rank : Nat) (accepts : Nat → Bool) (t : Token) : Except Nat Grammar :=
  if g.ended then .error 0x02
  else if t.kind = 6 ∨ t.kind = 7 ∨ (t.isElem && !accepts t.kind) then .error 0x05
  else if t.isStop && decide (rank < t.kind - 8) then .error 0x01
  else if t.kind = 4 then
    (if g.last.elim true (· == 8 + rank) then .ok ⟨true, some 4⟩ else .error 0x06)
  else .ok ⟨false, some t.kind⟩

/-! ## FIFOs (R201, R203, R208) -/

/-- The tokens after leading idle ones. -/
def noIdle : List Token → List Token
  | [] => []
  | t :: r => if t.kind = 5 then noIdle r else t :: r
/-- The token at the head of a FIFO, and the FIFO without it. A flit that the vector unit still assembles is not there
yet. -/
def fifoPop : List Flit → Option (Token × List Flit)
  | [] => none
  | f :: r =>
    if f.filling then none
    else match noIdle f.toks with
      | [] => fifoPop r
      | t :: ts => if (noIdle ts).isEmpty then some (t, r) else some (t, { f with toks := ts } :: r)
/-- The token at the head of a FIFO. -/
def fifoHead (l : List Flit) : Option Token := (fifoPop l).map (·.1)
/-- Whether a FIFO of n flits has room for one token of a producer that appends to its last flit. -/
def fifoRoom (n : Nat) (l : List Flit) : Bool :=
  decide (l.length < n) || (match l.getLast? with | some f => !f.filling && decide (f.n < 16) | none => false)
/-- A token appended to the last flit, or to a new one. -/
def fifoPush (src : Nat) (t : Token) : List Flit → List Flit
  | [] => [⟨[t.norm], false, 1, src⟩]
  | [f] => if !f.filling && decide (f.n < 16) then [{ f with toks := f.toks ++ [t.norm], n := f.n + 1 }]
           else [f, ⟨[t.norm], false, 1, src⟩]
  | f :: g :: r => f :: fifoPush src t (g :: r)
/-- The flits that stand in a FIFO, without the one being assembled. -/
def fifoFill (l : List Flit) : Nat := (l.filter (fun f => !f.filling)).length

/-! ## Ports -/

/-- The streams of the current core changed. -/
def State.modSt (s : State) (f : Streams → Streams) : State := s.modCore (fun c => { c with st := f c.st })
/-- The graph of the current core changed. -/
def State.modGraph (s : State) (f : Graph → Graph) : State := s.modSt (fun t => { t with graph := f t.graph })
/-- Port p of the current core. -/
def State.port (s : State) (p : Nat) : Port := s.core.st.port[p]?.getD Port.unbound
/-- The state with port p replaced. -/
def State.setPort (s : State) (p : Nat) (x : Port) : State :=
  s.modSt (fun t => { t with port := t.port.setIfInBounds p x })
/-- The number by which tokens are charged to the current core (R310). -/
def State.coreId (s : State) : Nat := 8 * s.cl + s.co
/-- A flit that has come over a link or a network enters the FIFO of port p, and its credit is owed from then on (R235, R310). -/
def State.landFlit (s : State) (p : Nat) (f : Flit) : State :=
  let x := s.port p
  (s.setPort p { x with fifo := x.fifo ++ [f] }).modSt (fun t => { t with owed := t.owed ++ [(f.src, f.n)] })
/-- The head token of port p, and the state in which its consumer has taken it. -/
def State.popPort (s : State) (p : Nat) : Option (Token × State) :=
  let x := s.port p
  (fifoPop x.fifo).map (fun r =>
    let d := r.1.kind == 4
    (r.1, s.setPort p { x with fifo := r.2, passed := true, done := x.done || d,
                               range := if d then none else x.range }))
/-- Whether a producer other than the vector unit may send a token to port p. -/
def State.portRoom (s : State) (p : Nat) : Bool := fifoRoom 8 (s.port p).fifo
/-- A producer other than the vector unit sends a token to port p. -/
def State.pushPort (s : State) (p : Nat) (t : Token) : State :=
  let x := s.port p
  s.setPort p { x with fifo := fifoPush s.coreId t x.fifo }
/-- Whether the butterfly unit (KIND 7) or the array (KIND 8) may send a token to port p: while it is bound to that engine it
needs room; once it has been unbound the tokens go nowhere (log 76). -/
def State.engineRoom (s : State) (kind p : Nat) : Bool := (s.port p).kind != kind || s.portRoom p
/-- A token of that engine sent to port p. -/
def State.enginePush (s : State) (kind p : Nat) (t : Token) : State :=
  if (s.port p).kind = kind then s.pushPort p t else s
/-- The FIFO after the vector unit has pushed a token to the flit that it assembles; the flit closes at 16 tokens and
after a done (R203). -/
def fifoAssemble (src : Nat) (t : Token) : List Flit → List Flit
  | [] => [⟨[t.norm], t.kind != 4, 1, src⟩]
  | [f] =>
    if f.filling then [{ f with toks := f.toks ++ [t.norm], n := f.n + 1, filling := decide (f.n < 15) && t.kind != 4 }]
    else [f, ⟨[t.norm], t.kind != 4, 1, src⟩]
  | f :: g :: r => f :: fifoAssemble src t (g :: r)
/-- The vector unit pushes a token to port p, if there is room (R203, R208). -/
def State.pushVec (s : State) (p : Nat) (t : Token) : Option State :=
  let x := s.port p
  if x.fifo.length < 8 || (match x.fifo.getLast? with | some f => f.filling | none => false) then
    some (s.setPort p { x with fifo := fifoAssemble s.coreId t x.fifo })
  else none
/-- The flits that the vector unit assembles for every port but one are closed (R203). -/
def State.closeFlits (s : State) (keep : Option Nat) : State :=
  s.modSt (fun t => { t with port := forN (fun p v =>
    if keep = some p then v
    else
      let x := v[p]?.getD Port.unbound
      v.setIfInBounds p { x with fifo := x.fifo.map (fun f => { f with filling := false }) }) 16 t.port })
/-- The port is unbound and its flits are discarded (R226). -/
def State.unbind (s : State) (p : Nat) : State := s.setPort p Port.unbound

/-! ## The words of the node pool (R210, R211) -/

/-- NODE. -/
def cfgNode (x : BitVec 256) : Nat := fld x 251 5
/-- TYPE. -/
def cfgType (x : BitVec 256) : Nat := fld x 248 3
/-- G. -/
def cfgG (x : BitVec 256) : Bool := flag x 247
/-- MODE. -/
def cfgMode (x : BitVec 256) : Nat := fld x 243 4
/-- RANK. -/
def cfgRank (x : BitVec 256) : Nat := fld x 240 3
/-- INk. -/
def cfgIn (x : BitVec 256) (k : Nat) : Nat := fld x (230 - 10 * k) 10
/-- OUTk. -/
def cfgOut (x : BitVec 256) (k : Nat) : Nat := fld x (195 - 5 * k) 5
/-- CONST. -/
def cfgConst (x : BitVec 256) : Nat := fld x 128 32
/-- Inputs of a type (R211). -/
def typeIns : Nat → Nat | 1 => 4 | 2 => 2 | 4 => 2 | _ => 1
/-- Outputs of a type (R211). -/
def typeOuts : Nat → Nat | 0 => 2 | 1 => 3 | 5 => 0 | _ => 1
/-- The ports that a word names: port, whether it is an output, and which. -/
def cfgPorts (x : BitVec 256) : List (Nat × Bool × Nat) :=
  ((List.range 4).filter (fun k => cfgIn x k / 256 == 2)).map (fun k => (cfgIn x k % 16, false, k))
    ++ ((List.range 3).filter (fun k => bitOf (cfgOut x k) 4)).map (fun k => (cfgOut x k % 16, true, k))
/-- The members of a graph (R210). -/
def Graph.members (g : Graph) : List (Nat × Node) := g.nodes.filter (fun n => cfgG n.2.cfg)
/-- The ports that members name: port, node, whether it is an output, and which. -/
def Graph.named (g : Graph) : List (Nat × Nat × Bool × Nat) :=
  g.members.flatMap (fun n => (cfgPorts n.2.cfg).map (fun p => (p.1, n.1, p.2.1, p.2.2)))
/-- Whether a port is bound with KIND 3 or 4 to the very input or output that names it (R207). -/
def Port.boundTo (x : Port) (node : Nat) (out : Bool) (k : Nat) : Bool :=
  x.kind == (if out then 4 else 3) && x.target == 32 * k + node

/-- Whether the vector unit is the end of port p that a push or a pop needs, and no member is (R207, R230); a port that has
delivered its done gives no further pop. -/
def State.vecPort (s : State) (p : Nat) (push : Bool) : Bool :=
  let x := s.port p
  (if push then x.kind == 1 || x.kind == 3 || ((x.kind == 2 || x.kind == 5 || x.kind == 6) && x.dir == 1)
   else x.kind == 1 || x.kind == 4 || x.kind == 7 || x.kind == 8
      || ((x.kind == 2 || x.kind == 5 || x.kind == 6) && x.dir == 0))
    && s.core.st.graph.named.all (fun n => n.1 != p || x.boundTo n.2.1 n.2.2.1 n.2.2.2) && (push || !x.done)

/-! ## Traps from outside the thread (R206, R229) -/

/-- A trap of a slot that no instruction or command of it raises: the record goes to the device trap queue and the thread
stops before its next commit. -/
def State.asyncTrap (s : State) (hi : Bool) (t : Trap) : State :=
  let u := { s with hi := hi }
  let x := u.slot
  let x' := if x.run = .running then { x with run := .stopped, cause := causeWord t false 0, epc := x.pc, since := none,
                                              behind := none, popAt := none } else x
  { u.setSlot { x' with pend := x.pend ++ [u.mkRecord t x.pc false 0] } with hi := s.hi }

/-- The data words of STREAM_MALFORMED (R382): the space and address of the node's word, node or port number, input,
offending token, head tokens of the other inputs in ascending order. -/
def malformed (sub spc addr num : Nat) (isPort : Bool) (input : Nat) (t : Token) (others : List (Option Token)) : Trap :=
  let k := fun i => ((nthD none others i).getD ⟨5, 0⟩).kind
  let v := fun i => ((nthD none others i).getD ⟨5, 0⟩).val
  { code := 0x0C, sub := sub,
    d0 := word ((spc <<< 62) + (num <<< 57) + (b2n isPort <<< 56) + (input <<< 54) + addr % 2 ^ 54),
    d1 := word ((t.kind <<< 60) + (k 0 <<< 56) + (k 1 <<< 52) + (k 2 <<< 48) + t.val % 2 ^ 32),
    d2 := word ((v 0 <<< 32) + v 1), d3 := word (v 2 <<< 32) }

end Sys2Proof.Machine
end

