-- ==== Sys2Proof/Machine/Queue.lean ====
section
/-! DEFINITION. The command queue (R275, R276): what an engine instruction fixes at commit (R66), the conditions of its
dispatch (R163, R295), its steps, its retirement with flags and retire trace (R17, R387), and a trap reported from the
queue (R63, R122, R384). `run` is the effect of one step of a command; `Engines` gives it for every engine instruction. -/

namespace Sys2Proof.Machine

/-- The effect of one step of a command: the state with the queue entry brought up to date, and `done` set at the end. A
stall is a wait that leaves the command where it is. -/
abbrev Run1 := Cmd → State → M State

/-- The entry of a queue position. -/
def Core.cmd (c : Core) (q : Nat) : Option Cmd := firstSat (fun e => e.qpos == q) c.queue
/-- A command has done its last step. -/
def State.finishCmd (s : State) (c : Cmd) : State := s.modCmd c.qpos (fun e => { e with done := true })
/-- A command notes for the retire trace the length it used and its active positions (R387). -/
def State.note (s : State) (c : Cmd) (n popc : Nat) : State :=
  s.modCmd c.qpos (fun e => { e with tr := (n, popc, e.tr.2.2.1, e.tr.2.2.2) })
/-- A command whose whole effect is one step. -/
def whole (f : Run1) : Run1 := fun c s => do let s ← f c s; pure (s.finishCmd c)
/-- The ranges that the core's graph and its patterns hold (R222, R234). -/
def Core.heldRanges (c : Core) : List Range := c.st.graph.ranges ++ c.st.port.toList.filterMap (·.range)
/-- Two ranges conflict: they overlap and one of them is written. -/
def Range.conflict (a b : Range) : Bool := a.spc == b.spc && decide (a.lo ≤ b.hi) && decide (b.lo ≤ a.hi) && (a.wr || b.wr)
/-- Two ranges overlap. -/
def Range.meets (a b : Range) : Bool := a.spc == b.spc && decide (a.lo ≤ b.hi) && decide (b.lo ≤ a.hi)
/-- Two lists of ranges overlap. -/
def overlaps (a b : List Range) : Bool := a.any (fun x => b.any (fun y => x.meets y))
/-- Two lists of ranges conflict. -/
def conflicts (a b : List Range) : Bool := a.any (fun x => b.any (fun y => x.conflict y))

/-! ## Handles and the shape of a copy (R239 to R254) -/

/-- Handle entry n. -/
def Core.handle (c : Core) (n : Nat) : Handle := c.h[n]?.getD Handle.free
/-- The entry that holds the copy state of handle n: a proxy's home entry (R245). -/
def State.copyState (s : State) (n : Nat) : Handle :=
  match (s.core.handle n).home with
  | some (co, h) => (s.coreAt s.cl co).handle h
  | none => s.core.handle n
/-- Free or full (R240). -/
def Handle.ready (h : Handle) : Bool := h.state == 0 || h.state == 2
/-- The kind of a copy (R246). -/
def copyKind : Instr → Option (Nat × OpG8)
  | .cpy o => some (0, o)
  | .cpyt o => some (1, o)
  | .cpyg o => some (2, o)
  | .cpyz o => some (3, o)
  | _ => none
/-- Element size, source stride, destination stride and rows of a copy of n elements with shape word sh (R251 to R253). -/
def copyGeo (k : Nat) (sh : Word) (n : Nat) : Nat × Nat × Nat × Nat :=
  let s := fld sh 42 22
  let d := fld sh 20 22
  if k = 1 then
    let es := 2 ^ fld sh 0 2
    let nr := fld sh 8 12
    (es, if s = 0 then n * es else s, if d = 0 then nr * es else d, nr)
  else
    let es := fld sh 0 20
    (es, if k = 2 ∨ s = 0 then es else s, if d = 0 then es else d, 1)
/-- The bytes of the source extent and of the destination extent of a copy of n elements (R247, R248). -/
def copySpan (k : Nat) (sh : Word) (n clen cap : Nat) : Nat × Nat :=
  let g := copyGeo k sh n
  let es := g.1
  if n = 0 then (0, 0)
  else match k with
    | 0 => ((n - 1) * g.2.1 + es, (n - 1) * g.2.2.1 + es)
    | 1 => ((g.2.2.2 - 1) * g.2.1 + n * es, (n - 1) * g.2.2.1 + g.2.2.2 * es)
    | 2 => (fld sh 42 22 * es, (n - 1) * g.2.2.1 + es)
    | _ => (clen, cap)
/-- The region that handle n will have: buffer, offset and length as the youngest HALLOC before a command gives them, or its
entry's (R107). -/
def Core.regionOf (c : Core) (n q : Nat) : Nat × Nat × Nat :=
  let rec go : List Cmd → Option (Nat × Nat × Nat) → Option (Nat × Nat × Nat)
    | [], a => a
    | o :: r, a =>
      if o.qpos = q then a
      else go r (match o.ins with
        | .halloc x => if x.d.toNat = n && !o.done then some (fld o.ga 62 2, fld o.ga 0 19, fld o.ga 22 20) else a
        | _ => a)
  let h := c.handle n
  (go c.queue none).getD (if h.home.isNone then (h.buf, h.off, h.len) else (0, 0, 0))
/-- The ranges of a copy of n elements (R248). An operand in a proxy's region lies in another core's buffer. -/
def State.copyRanges (s : State) (k : Nat) (o : OpG8) (c : Cmd) (n clen cap : Nat) : List Range :=
  let sp := copySpan k c.gc n clen cap
  let side := fun (spc : Nat) (h : Bool) (a len : Nat) (wr : Bool) =>
    if len = 0 then []
    else if h then
      let r := s.core.regionOf o.d.toNat c.qpos
      if r.1 = 0 then [] else [(⟨r.1, r.2.1 + a, r.2.1 + a + len - 1, wr⟩ : Range)]
    else [⟨spc, a, a + len - 1, wr⟩]
  side (fld o.imm 0 3) (flag o.imm 6) c.ga.toNat sp.1 false ++ side (fld o.imm 3 3) (flag o.imm 7) c.gb.toNat sp.2 true
/-- The largest count a copy may turn out to have: VL, or VLMAX for a count still to be popped. -/
def Cmd.maxCount (c : Cmd) (o : OpG8) : Nat := if 4 ≤ o.len.toNat then vtVlmax c.vtype else c.vl
/-- The largest source or destination of a CPYZ (R254). -/
def cpyzMax : Nat := 4194304
/-! ## Ranges of patterns and graphs (R222, R234) -/

/-- The scoreboard range of a pattern: from its lowest byte to its highest (R234). -/
def patRange (p : Pattern) (dir : Nat) : Range :=
  let span := fun (st : Int) (n : Nat) => ((n - 1 : Nat) : Int) * st
  let lo := (p.base : Int) + min 0 (span p.s0 p.c0) + min 0 (span p.s1 p.c1)
  let hi := (p.base : Int) + max 0 (span p.s0 p.c0) + max 0 (span p.s1 p.c1) + (2 ^ p.esz : Nat) - 1
  ⟨p.spc, lo.toNat, hi.toNat, dir == 1⟩

/-- The pattern that an SPAT describes. -/
def spatOf (o : OpG8) (a b c : Word) : Pattern :=
  { base := a.toNat, s0 := sgn 32 (fld b 0 32), s1 := sgn 32 (fld b 32 32), c0 := fld c 0 32, c1 := fld c 32 32,
    spc := fld o.imm 0 3, esz := fld o.imm 3 2, sx := flag o.imm 5, kind := fld o.imm 6 2, rk := fld o.imm 8 1 }
/-- PARAM bits. -/
def cfgPar (x : BitVec 256) (lo w : Nat) : Nat := fld x lo w
/-- SPC of a scanner, a FETCH node or a writer. -/
def cfgSpc (x : BitVec 256) : Nat := cfgPar x 125 3
/-- The first offset: SEG of a scanner, the base of a FETCH node, BASE of a writer. -/
def cfgOff1 (x : BitVec 256) : Nat := cfgPar x 106 19
/-- The second offset: CRD of a scanner, SEG of a writer. -/
def cfgOff2 (x : BitVec 256) : Nat := cfgPar x 87 19
/-- DIM of a scanner, LIMIT of a writer. -/
def cfgLim (x : BitVec 256) : Nat := cfgPar x 63 24

/-- The ranges of a graph (R222), each cut at the end of its buffer. -/
def graphRanges (g : Graph) : List Range :=
  g.members.flatMap (fun m =>
    let x := m.2.cfg
    let spc := cfgSpc x
    let last := bufSize spc - 1
    match cfgType x, cfgMode x with
    | 0, 0 => [⟨spc, min (cfgOff1 x) (cfgOff2 x), last, false⟩]
    | 0, 2 => [⟨spc, min (cfgOff1 x) (cfgOff2 x), last, false⟩]
    | 4, 7 => [⟨spc, cfgOff1 x, last, false⟩]
    | 5, 0 => [⟨spc, cfgOff1 x, min last (cfgOff1 x + 4 * cfgLim x - 1), true⟩]
    | 5, _ => [⟨spc, cfgOff1 x, min last (cfgOff1 x + 4 * cfgLim x - 1), true⟩, ⟨spc, cfgOff2 x, last, true⟩]
    | _, _ => [])
/-- The pattern that slot n will hold: what the youngest SPAT before a command gives it, or what it holds (R228). -/
def Core.patOf (c : Core) (n q : Nat) : Option Pattern :=
  let rec go : List Cmd → Option Pattern → Option Pattern
    | [], a => a
    | o :: r, a =>
      if o.qpos = q then a
      else go r (match o.ins with
        | .spat x => if x.d.toNat = n && !o.done then some (spatOf x o.ga o.gb o.gc) else a
        | _ => a)
  go c.queue (c.st.pat[n]?.getD none)
/-- Whether an older command of the queue is still to change the graph's configuration: its ranges are not known (R221). -/
def configures (q : Nat) : List Cmd → Bool
  | [] => false
  | o :: r =>
    o.qpos != q && ((!o.done && (match o.ins with | .gcfg _ => true | .gnode _ => true | _ => false)) || configures q r)
/-- The ranges of a queued command: fixed at commit, but for those that an older command still settles: the region of a handle
that a copy or an HGIVE names (R244, R248), the pattern that a binding captures (R234) and the graph that a GSTART starts
(R222; whole buffers while its configuration is still to be read, log 75). -/
def State.rangesOf (s : State) (c : Cmd) : List Range :=
  if c.disp then c.ranges
  else match copyKind c.ins with
    | some (k, o) => s.copyRanges k o c (if k = 3 then 1 else c.maxCount o) cpyzMax cpyzMax
    | none =>
      match c.ins with
      | .hgive o =>
        let r := s.core.regionOf o.d.toNat c.qpos
        if r.1 = 0 ∨ r.2.2 = 0 then [] else [⟨r.1, r.2.1, r.2.1 + r.2.2 - 1, true⟩]
      | .sbindPat o => ((s.core.patOf (fld o.imm 4 16) c.qpos).map (fun p => patRange p (fld o.imm 3 1))).toList
      | .gstart _ =>
        if configures c.qpos s.core.queue then [1, 2, 3].map (fun b => ⟨b, 0, bufSize b - 1, true⟩)
        else graphRanges s.core.st.graph
      | _ => c.ranges
/-- The offer that an HTAKE names: giver core and giver handle, to the current core (R243). -/
def State.offerFor (s : State) (w : Word) : Option Offer :=
  firstSat (fun f => f.taker == s.co && f.giver == fld w 0 3 && f.giverH == fld w 8 5) s.clus.offers
/-- Whether a copy-engine form finds an accepted handle state and room for one more copy (R58, R236, R240, R243); an HTAKE
waits for its offer unless its handle can take none. -/
def State.copyReady (s : State) (c : Cmd) : Bool :=
  let copy := fun (d : BitVec 6) =>
    (s.copyState d.toNat).ready
      && decide ((s.core.queue.filter (fun e => e.eng == .copy && e.disp && !e.done)).length < 16)
  match c.ins with
  | .cpy o => copy o.d
  | .cpyt o => copy o.d
  | .cpyg o => copy o.d
  | .cpyz o => copy o.d
  | .brule o => copy o.d
  | .bwalk o => copy o.d
  | .halloc o => (s.copyState o.d.toNat).ready
  | .hfree o => (s.copyState o.d.toNat).ready
  | .hgive o => (s.copyState o.d.toNat).ready
  | .htake o =>
    let h := s.core.handle o.d.toNat
    (s.offerFor c.ga).isSome || (if h.buf = 0 then h.state != 0 else h.held || h.home.isSome)
  | _ => true

/-- An HTAKE of the current slot that has not acquired yet: what the slot reads of device memory after it waits (R244, R302). -/
def Cmd.takes (c : Cmd) (hi : Bool) : Bool :=
  c.hi == hi && !c.done && (match c.ins with | .htake _ => true | _ => false)
/-- A scalar access of n bytes overlaps a range of an engine command that has not retired, or one that a graph or pattern
holds (R107, R234); or it reads device memory behind an HTAKE (R244). -/
def State.scalarWaits (s : State) (spc ea n : Nat) (wr : Bool) : Bool :=
  let r : Range := ⟨spc, ea, ea + n - 1, wr⟩
  overlaps [r] s.core.heldRanges || s.core.queue.any (fun e => overlaps [r] (s.rangesOf e))
    || (spc == 0 && !wr && s.core.queue.any (fun e => e.takes s.hi))
/-- Whether an older command's reading still keeps a younger writer back (R163): not that of a tile, of the chain and of the
port's binding once an MDRAIN has been dispatched (R53, R66, R164) or a BPASS has begun, nor a BARRIVE's of the barrier
objects (R236), nor a push or pop that stands before the next binding of its port (R226). -/
def Cmd.keeps (o y : Cmd) (r : Res) : Bool :=
  match r with
  | .a _ => o.tile.isNone
  | .chain => o.tile.isNone
  | .gens => o.tile.isNone
  | .s _ => o.tile.isNone && o.prog.isEmpty
      && (match y.ins with
          | .gstart _ => false
          | .sbindVec _ | .sbindPat _ | .sbindNin _ | .sbindNout _ | .sbindNbr _ | .sbindRtr _ | .sbindBfy _ | .sbindArr _ => false
          | _ => true)
  | .bar => match o.ins with | .barrive _ => false | _ => true
  | _ => true
/-- A younger command depends on an older one through a register, queue, port or handle (R163). The stalls of a full renaming
pool are timing (R53, log 86). -/
def Cmd.dependsOn (y o : Cmd) : Bool :=
  o.wr.any (fun r => y.rd.contains r || y.wr.contains r) || o.rd.any (fun r => y.wr.contains r && o.keeps y r)
/-- Engines whose commands may run beside older ones of the same engine: the copy engine completes copies in any order
(R276), and an MDRAIN reads the tile that its dispatch named (R53). -/
def Cmd.lets (o : Cmd) (e : Engine) : Bool :=
  o.eng != e || (o.disp && (e == .copy || (match o.ins with | .mdrain _ => true | .mdrainStream _ => true | _ => false)))
/-- A pattern's binding: it waits for every entry that overlaps its range (R234). -/
def Cmd.bindsPat (c : Cmd) : Bool := match c.ins with | .sbindPat _ => true | _ => false
/-- Whether a command waits for ranges that the graph and the patterns hold: a vector command and a pattern for every overlap
(R234), any other where one side writes (R248). -/
def Cmd.meetsHeld (c : Cmd) (held : List Range) : Bool :=
  if c.eng == .vec || c.bindsPat then overlaps c.ranges held else conflicts c.ranges held
/-- Whether a command waits for the ranges of an older one (R163, R234). -/
def Cmd.meetsOlder (c o : Cmd) : Bool :=
  if c.bindsPat then overlaps c.ranges o.ranges else conflicts c.ranges o.ranges
/-- Whether a command may be dispatched behind the older entries of its queue, each with its ranges (R163, R244, R276, R295). -/
def dispatchable (c : Cmd) (held : List Range) : List Cmd → Bool
  | [] => false
  | o :: r =>
    if o.qpos = c.qpos then !c.held && !c.meetsHeld held
    else (o.done || (o.lets c.eng && !c.dependsOn o && (c.ranges.isEmpty || o.ranges.isEmpty || o.disp)
                      && !(o.takes c.hi && c.ranges.any (fun x => x.spc == 0)) && !c.meetsOlder o))
      && dispatchable c held r

/-- The port to which a vector command pushes (R203). -/
def pushesTo : Instr → Option Nat
  | .spushv o => some o.d.toNat
  | .stok o => some o.d.toNat
  | .sdone o => some o.d.toNat
  | _ => none
/-- A command of the vector unit that begins closes the flits that the unit assembles for other ports (R203). -/
def State.beginVec (s : State) (e : Engine) (i : Instr) : State := if e = .vec then s.closeFlits (pushesTo i) else s
/-- DISPATCH: the length queues are popped (R56) and the entry is marked. A length whose push has not executed is waited
for. -/
def State.startCmd (s : State) (q : Nat) : M State :=
  match s.core.cmd q with
  | none => .ok s
  | some c =>
    (go c.pops s).map (fun r =>
      (r.2.beginVec c.eng c.ins).modCmd q (fun e => { e with disp := true, vls := r.1, ranges := s.rangesOf c }))
where
  go : List Nat → State → M (List Nat × State)
    | [], s => .ok ([], s)
    | n :: r, s =>
      match s.core.f.lq[n]?.getD [] with
      | [] => .error (.stall s)
      | x :: xs => do
        let (l, t) ← go r (s.modF (fun f => { f with lq := f.lq.setIfInBounds n xs }))
        pure (x :: l, t)

/-- A check at dispatch has failed: the lengths that the command popped stand at the heads of their queues again, as no state
has changed (R164). -/
def State.unpop (s : State) (c : Cmd) : State :=
  (c.pops.zip c.vls).foldr (fun p s =>
    s.modF (fun f => { f with lq := f.lq.setIfInBounds p.1 (p.2 :: f.lq[p.1]?.getD []) })) s

/-- The retire-trace entry of a command of the vector unit (R387). -/
def Cmd.traceEntry (c : Cmd) (flt : Bool) (spc : Option Nat) : BitVec 256 :=
  let w0 := ((c.qpos % 65536) <<< 48) + (b2n c.hi <<< 47) + (vtSewCode c.vtype <<< 45) + ((c.tr.1 % 1024) <<< 35)
    + ((c.tr.2.1 % 1024) <<< 25) + ((spc.getD 0) <<< 22) + (b2n spc.isSome <<< 21) + (b2n flt <<< 20)
  BitVec.ofNat 256 (w0 + (c.addr.toNat <<< 64) + (c.tr.2.2.1 % 2 ^ 64) <<< 128 + (c.tr.2.2.2 % 2 ^ 64) <<< 192)

/-- The space of a vector memory form; none for any other command. -/
def memSpace : Instr → Option Nat
  | .vld o | .vlds o | .vldx o | .vldbp o | .vldk o | .vldw o | .vst o | .vsts o | .vstx o | .vstbp o | .vscadd o
  | .vldg o => some o.spc.toNat
  | .vamoAdd o | .vamoAnd o | .vamoOr o | .vamoXor o | .vamoMin o | .vamoMax o | .vamoMinu o | .vamoMaxu o | .vamoFadd o
  | .vamoBfadd o | .vamoSwap o | .vamoCas o => some o.spc.toNat
  | _ => none

/-- Whether the retire trace takes an entry for a command (R387). -/
def Cmd.traces (c : Cmd) : Bool := c.eng == .vec && c.ena && (match c.ins with | .syswr _ => false | _ => true)
/-- The retire trace takes an entry (R387). -/
def State.traceCmd (s : State) (c : Cmd) (flt : Bool) : State :=
  if c.traces then
    s.modCore (fun k =>
      let n := fld k.traceptr 0 10
      let e := c.traceEntry flt (memSpace c.ins)
      let next := (n + 1) % 1024
      let wraps := if next = 0 then fld k.traceptr 10 32 + 1 else fld k.traceptr 10 32
      { k with trace := put n e k.trace, traceptr := setFld (setFld k.traceptr 0 10 next) 10 32 wraps })
  else s

/-- Whether a done command is the next that its engine retires (R276). -/
def retirable (c : Cmd) : List Cmd → Bool
  | [] => false
  | o :: r => if o.qpos = c.qpos then c.done else (o.eng != c.eng || c.eng == .copy) && retirable c r

/-- RETIREMENT of a command: its flags and residue count go to the issuing slot's STATUS, the trace takes its entry and the
queue entry is freed (R17, R62, R275, R387). -/
def State.retireCmd (s : State) (q : Nat) : State :=
  match s.core.cmd q with
  | none => s
  | some c =>
    if retirable c s.core.queue then
      let s := s.traceCmd c false
      s.modCore (fun k =>
        let k := { k with queue := dropFirst (fun e => e.qpos == q) k.queue }
        k.setSlot c.hi { k.slot c.hi with status := statusWith (k.slot c.hi).status c.flags c.mrs })
    else s

/-- A macro command: it runs through stop points (R287). -/
def Cmd.macro (c : Cmd) : Bool :=
  match c.ins with
  | .mtile _ => true
  | .txf _ => true
  | .mdrainStream _ => true
  | .bpass b => b.imm.extractLsb' 14 1 == 1#1
  | _ => false
/-- A dispatched command that has not done its last step and is not stopped. -/
def Cmd.under (c : Cmd) : Bool := c.disp && !c.done && !c.faulted && !c.held && !c.paused
/-- The commands that an engine trap taken locally discards or stops: the faulting one, those that its slot committed after
it and that have not been dispatched, and its younger macro commands, which have reached a stop point (R122, R287). -/
def cutQueue (c : Cmd) : List Cmd → List Cmd
  | [] => []
  | o :: r =>
    if o.qpos = c.qpos then
      r.filter (fun y => !(y.hi == c.hi && (!y.disp || (!y.done && y.macro))))
    else o :: cutQueue c r

/-- What a stopped slot's entries become: the faulting command keeps its resume point, the undispatched ones are held (R384). -/
def holdEntry (c e : Cmd) : Cmd :=
  if e.qpos = c.qpos then { e with faulted := true, held := true }
  else if e.hi == c.hi && !e.disp then { e with held := true }
  else e

/-- TAKING A TRAP reported from the command queue (QF = 1; R63, R122, R384): EPC is the next instruction that has not
committed. Taken locally, the slot's undispatched younger commands are discarded; else the thread stops, its undispatched
commands are held and the faulting command keeps its resume point. -/
def State.queueTrap (s : State) (c : Cmd) (t : Trap) : State :=
  let s := s.traceCmd c true
  let x := s.core.slot c.hi
  let s0 := { s with hi := c.hi }
  let rec' := s0.mkRecord t x.pc true c.qpos
  let x' := { x with cause := causeWord t true c.qpos, epc := x.pc }
  if x.takesLocally t.code then
    s.modCore (fun k =>
      { k with queue := cutQueue c k.queue }.setSlot c.hi
        { x' with status := setFld x.status 3 1 1, pc := setFld x.trapvec 0 6 0, since := none, behind := none, popAt := none })
  else
    s.modCore (fun k =>
      { k with queue := k.queue.map (holdEntry c) }.setSlot c.hi
        { x' with run := .stopped, pend := x.pend ++ [rec'], since := none, behind := none, popAt := none })

/-- The view that a command reads: that of its place; an HTAKE acquires anew (R296). -/
def Cmd.viewNo (c : Cmd) (x : Slot) : Nat := match c.ins with | .htake _ => x.ep | _ => c.ep
/-- One step of a command, on the slot that committed it: the state after it, and whether another step may follow. A trap
is taken; a wait leaves the state that holds then. -/
def State.pump (run : Run1) (s : State) (q : Nat) : M (State × Bool) :=
  match s.core.cmd q with
  | none => .ok (s, false)
  | some c =>
    match State.inView (c.viewNo (s.core.slot c.hi)) (run c) { s with hi := c.hi } with
    | .ok t => .ok ({ t with hi := s.hi }, !((t.core.cmd q).elim true (·.done)))
    | .error (.trap e t) => .ok (({ t with hi := s.hi }).queueTrap ((t.core.cmd q).getD c) e, false)
    | .error (.stall t) => .ok ({ t with hi := s.hi }, false)
    | .error (.fault f) => .error (.fault f)
    | .error (.refuse r) => .error (.refuse r)

/-- The steps of a command until it is done, waits or traps, at most `fuel` of them; a done command retires. -/
def State.drive (run : Run1) (q : Nat) : Nat → State → M State
  | 0, s => .ok s
  | n + 1, s =>
    match s.pump run q with
    | .error e => .error e
    | .ok (t, true) => State.drive run q n t
    | .ok (t, false) => .ok (t.retireCmd q)

/-- How many steps a command may take in one step of the machine (assumption 4). -/
def driveFuel : Nat := 65536

/-- What a command writes, once it may be dispatched: a GSTOP or GRESET takes down the ports of its graph only (R224). -/
def State.writes (s : State) (c : Cmd) : List Res :=
  let own := Res.graph :: (s.core.st.graph.ports.map Res.s ++ s.core.st.graph.named.map (fun n => Res.s n.1))
  match c.ins with
  | .gstop _ => own
  | .greset _ => own
  | _ => c.wr
/-- The entries of the range scoreboard that are taken (R295). -/
def Core.scoreboard (c : Core) : Nat :=
  c.heldRanges.length + (c.queue.filter (fun e => e.disp && !e.done)).foldl (fun n e => n + e.ranges.length) 0
/-- A command is dispatched when it may be, and takes its first step; with `eager` it runs on. The undispatched commands of
a stopped slot are held (R384). -/
def State.dispatchCmd (run : Run1) (s : State) (q fuel : Nat) : M State :=
  match s.core.cmd q with
  | none => .ok s
  | some c0 =>
    let c := { c0 with ranges := s.rangesOf c0, wr := s.writes c0 }
    if !c.disp && (s.core.slot c.hi).run != .stopped && s.copyReady c
        && dispatchable c s.core.heldRanges (s.core.queue.map (fun e => { e with ranges := s.rangesOf e }))
        && (c.ranges.isEmpty || decide (s.core.scoreboard + c.ranges.length ≤ 64)) then
      match s.startCmd q with
      | .ok s => s.drive run q fuel
      | .error (.stall _) => .ok s
      | .error e => .error e
    else .ok s

/-- What an engine instruction fixes at its commit (R66). -/
structure Ticket where
  eng : Engine
  ins : Instr
  lens : List (BitVec 3) := []
  push : Option Nat := none
  ga : Word := 0
  gb : Word := 0
  gc : Word := 0
  ranges : List Range := []
  rd : List Res := []
  wr : List Res := []
  snap : Bool := false
  deriving DecidableEq, Repr

/-- The committed occupancy after the pops of a command, or LQ_EMPTY (R56). -/
def popOcc (s : State) : List Nat → State → M State
  | [], t => .ok t
  | n :: r, t =>
    let k := t.core.f.occ[n]?.getD 0
    if k = 0 then .error (.trap { code := 0x0B, sub := 0 } s)
    else popOcc s r (t.modF (fun f => { f with occ := f.occ.setIfInBounds n (k - 1) }))

/-- The committed occupancy after a push, or LQ_FULL (R56). -/
def pushOcc (s : State) : Option Nat → State → M State
  | none, t => .ok t
  | some n, t =>
    let k := t.core.f.occ[n]?.getD 0
    if 16 ≤ k then .error (.trap { code := 0x0A, sub := 0 } s)
    else .ok (t.modF (fun f => { f with occ := f.occ.setIfInBounds n (k + 1) }))

/-- The queue entry of a ticket. -/
def Ticket.entry (t : Ticket) (s : State) : Cmd :=
  let pops := t.lens.filterMap lenQueue
  let lqs := (pops ++ t.push.toList).map Res.lq
  { qpos := s.core.qpos, hi := s.hi, ep := s.slot.ep, eng := t.eng, addr := s.slot.pc, ins := t.ins, vl := s.slot.vl, pops := pops,
    vtype := s.slot.vtype, modq := fld s.core.f.modq 0 32, ga := t.ga, gb := t.gb, gc := t.gc,
    snap := if t.snap then some s.slot.g else none, ena := flag s.core.traceptr 63, disp := false, done := false,
    held := false, faulted := false, paused := false, resume := 0, vls := [], flags := 0, mrs := 0, ranges := t.ranges, rd := t.rd,
    wr := t.wr ++ lqs, block := none, tile := none, gens := none, prog := [], tr := (s.slot.vl, 0, 0, 0) }

/-- A command enters the queue and takes its position (R275). -/
def State.enqueue (s : State) (c : Cmd) : State :=
  s.modCore (fun k => { k with queue := k.queue ++ [c], qpos := (k.qpos + 1) % 65536 })

/-- COMMIT of an engine instruction (R66, R275): length-queue occupancy, room in the queue, the entry, retirement of the
instruction; then, with `eager` and nothing before it in the queue, the command is dispatched and runs. -/
def issue (t : Ticket) (run : Run1) (s : State) : M State := do
  let s1 ← popOcc s (t.lens.filterMap lenQueue) s
  let s2 ← pushOcc s t.push s1
  if 256 ≤ s.core.queue.length then .error (.stall s)
  else
    let s3 := (s2.enqueue (t.entry s)).retire
    if s.eager && s.core.queue.isEmpty then s3.dispatchCmd run s.core.qpos driveFuel else pure s3

/-- An engine instruction whose checks at commit hold. -/
def engine (t : Ticket) (run : Run1) (s : State) : Host.Outcome State Fault Refusal := finish (issue t run s)

/-- The commands older in queue order than the form at which the current slot stands: those that stood in the queue when it
came there (R133, R245, R262). -/
def State.older (s : State) : List Cmd :=
  match s.slot.behind with
  | none => s.core.queue
  | some l => s.core.queue.filter (fun e => l.contains e.qpos)
/-- The form waits at its place in queue order. -/
def State.waitHere (s : State) : Stop :=
  .stall (s.modSlot (fun x => { x with behind := some (s.older.map (·.qpos)) }))
/-- A form that returns a value to the control thread, or holds commit until it executes (R133): it takes a queue position
and waits until every older command that it depends on, and every older one of its engine, has executed. -/
def State.olderDone (s : State) (e : Option Engine) (rd wr : List Res) : Bool :=
  s.older.all (fun o => o.done || (some o.eng != e &&
    !(o.wr.any (fun r => rd.contains r || wr.contains r) || o.rd.any (fun r => wr.contains r))))
/-- The position of such a form is used up. -/
def State.takePos (s : State) : State := s.modCore (fun k => { k with qpos := (k.qpos + 1) % 65536 })

/-- A form that returns a value to the control thread, or that holds commit until it executes (R133): it waits for the older
commands that it depends on, executes, and takes its position and its entry of the retire trace. A check that fails at
that point is reported from the command queue. -/
def returnForm (e : Engine) (i : Instr) (rd wr : List Res) (s : State) (f : State → M State) :
    Host.Outcome State Fault Refusal :=
  finish (
    if 256 ≤ s.core.queue.length then .error (.stall s)
    else if s.olderDone (some e) rd wr then
      let c := { ({ eng := e, ins := i, rd := rd, wr := wr } : Ticket).entry s with tr := (s.slot.vl, s.slot.vl, 0, 0) }
      match f (s.beginVec e i) with
      | .ok t => .ok ((t.traceCmd c false).takePos).retire
      | .error (.trap t u) => .ok ((u.enqueue c).queueTrap c t)
      | .error (.stall u) => .error u.waitHere
      | .error x => .error x
    else .error s.waitHere)

/-- A row of the table that acts on one core. -/
def onCore (cl core : Nat) (f : State → M State) (s : State) : Host.Outcome State Fault Refusal :=
  match f (s.at_ cl core false) with
  | .ok t => .next (t.at_ s.cl s.co s.hi)
  | .error (.trap _ _) => .next s
  | .error (.stall _) => .next s
  | .error (.fault e) => .fault e
  | .error (.refuse e) => .refused e
/-- A queued command takes one step by an effect of its own, on the slot that committed it; a done command retires. -/
def State.stepCmd (f : Run1) (s : State) (q : Nat) : M State := s.drive f q 1

end Sys2Proof.Machine
end

