-- ==== Sys2Proof/Machine/Access.lean ====
section
/-! DEFINITION. One data access of a form: the checks of R106 in order, the place, reads, writes and atomics at their homes
(R106, R110, R111, R158, R293, R335 to R337, R340, R392, R406). -/

namespace Sys2Proof.Machine

/-- Where one element lies: device memory at a location, with the virtual address for a refusal by the peer, or a buffer. -/
inductive Spot where
  | dev (loc va : Nat)
  | buf (spc a : Nat)
  deriving DecidableEq, Repr

/-- The checks of R106 on n bytes at `ea` that an engine or an atomic accesses, in order, and the place. -/
def State.access (s : State) (spc ea n align : Nat) (acc : Acc) : M (Spot × State) := do
  if spc = 0 then need (decide (ea < 2 ^ 54)) { Trap.perm 0x01 with d0 := word ea, d2 := word (accCode acc) } s
  else need (decide (ea + n ≤ bufSize spc)) (Trap.opnd 0x01) s
  need (decide (ea % align = 0)) (Trap.align 0x02) s
  if spc = 0 then
    let (p, s) ← s.xlate ea acc .other
    match p with
    | .mem loc => pure (.dev loc ea, s)
    | _ => .error (.trap (xlTrap 0x07 0x06 ea acc 0) s)
  else
    need (!s.core.notHolder spc ea n) Trap.holder s
    pure (.buf spc ea, s)

/-- A read of n bytes at a place. -/
def State.readSpot (s : State) (p : Spot) (n : Nat) : M (Nat × State) :=
  match p with
  | .dev loc va => s.readPlace va loc n 0
  | .buf spc a => .ok (s.bufRead spc a n, s)
/-- A write of n bytes at a place; device memory takes it through the core's own stores (R299). -/
def State.writeSpot (s : State) (p : Spot) (x n : Nat) : State :=
  match p with
  | .dev loc _ => s.viewWrite loc x n
  | .buf spc a => s.bufWrite spc a x n

/-- AN ATOMIC at a place (R110, R111, R293, R303, R336): the old value, and the state with the new one. At a device home,
the core's older stores to the line have reached it; the core's own later loads see the write. A peer that admits no atomic
refuses with PERMISSION SUB 0x07. -/
def State.atomic (s : State) (p : Spot) (op w x cmp : Nat) : M (Nat × State) :=
  let n := w / 8
  match p with
  | .dev loc va =>
    if peerBase ≤ loc && !s.peerAdmits loc n 2 then .error (.trap (xlTrap 0x07 0x07 va .atm 0) s)
    else do
      let s ← s.atHome loc
      let old := s.mem.read loc n
      let new := amoNew op w old x cmp
      pure (old, { s with mem := s.mem.write loc new n }.noteOwn loc new n)
  | .buf spc a =>
    let old := s.bufRead spc a n
    .ok (old, s.bufWrite spc a (amoNew op w old x cmp) n)

/-- A return-free operation leaves the core for a device home (R160, R340), or is performed at the bank. The core's older
stores to the line have reached the home. -/
def State.sendOff (s : State) (p : Spot) (op w x cmp : Nat) : State :=
  match p with
  | .dev loc _ =>
    let s := s.lineHome loc
    let o : SliceOp := ⟨s.cl, s.co, s.hi, loc, op, w, x, cmp, s.slot.th.tid, s.slot.th.seq, s.xl.age, false, false⟩
    let s := { s with bd := { s.bd with ops := s.bd.ops ++ [o] } }
    s.modSlot (fun k => { k with rfout := k.rfout + 1 })
  | .buf spc a => s.bufWrite spc a (amoNew op w (s.bufRead spc a (w / 8)) x cmp) (w / 8)

/-- The trap of element e of an engine command: the element index, and the offending address where the cause is no
translation (R382). -/
def Trap.atElem (t : Trap) (e ea : Nat) : Trap :=
  if t.code = 0x06 ∨ t.code = 0x07 ∨ t.code = 0x08 then { t with d1 := word e } else { t with d0 := word ea, d1 := word e }
/-- A meaning whose trap names an element. -/
def atElem {α : Type} (e ea : Nat) (m : M α) : M α :=
  match m with
  | .error (.trap t s) => .error (.trap (t.atElem e ea) s)
  | r => r

/-- The elements of a load: each is checked and read in turn; the first that fails raises (R158). -/
def loadElems (addr : Nat → Nat) (rd : State → Nat → M (Nat × State)) : List Nat → State → M (List (Nat × Nat) × State)
  | [], s => .ok ([], s)
  | e :: r, s => do
    let (x, s) ← atElem e (addr e) (rd s e)
    let (l, s) ← loadElems addr rd r s
    pure ((e, x) :: l, s)
/-- The elements of a store or atomic, from the resume point: each is checked and performed in turn; the first that fails
raises with the command's resume point at it, and the elements before it stay performed (R158). -/
def storeElems (q : Nat) (addr : Nat → Nat) (wr : State → Nat → M State) : List Nat → State → M State
  | [], s => .ok s
  | e :: r, s =>
    match wr s e with
    | .ok t => storeElems q addr wr r t
    | .error (.trap t u) => .error (.trap (t.atElem e (addr e)) (u.modCmd q (fun c => { c with resume := e })))
    | .error (.stall u) => .error (.stall (u.modCmd q (fun c => { c with resume := e })))
    | .error x => .error x

/-- The range of n elements of es bytes from an address at a signed stride; the whole space where it wraps (R159). -/
def strideRange (spc : Nat) (base : Nat) (stride : Int) (n es : Nat) (wr : Bool) : List Range :=
  if n = 0 then []
  else
    let a : Int := base
    let b : Int := (base : Int) + ((n - 1 : Nat) : Int) * stride
    let lo := min a b
    let hi := max a b + es - 1
    if lo < 0 ∨ ((2 ^ 64 : Nat) : Int) ≤ hi then [⟨spc, 0, 2 ^ 64 - 1, wr⟩] else [⟨spc, lo.toNat, hi.toNat, wr⟩]
/-- The whole of a space. -/
def wholeRange (spc : Nat) (wr : Bool) : Range := ⟨spc, 0, if spc = 0 then 2 ^ 64 - 1 else bufSize spc - 1, wr⟩

/-- NOT_HOLDER over a buffer range, at dispatch (R164). -/
def State.checkHolder (s : State) (spc ea n : Nat) : M Unit :=
  need (spc == 0 || !s.core.notHolder spc ea n) { Trap.holder with d0 := word ea } s

end Sys2Proof.Machine
end

