-- ==== Sys2Proof/Machine/System.lean ====
section
/-! DEFINITION. Control registers, local trap return, software trap and breakpoint, event waits and CEDE: majors 0x14 and
0x1F but HALT (R61 to R65, R125 to R130). -/

namespace Sys2Proof.Machine

/-- The value of a control register (R61); a number that is not listed has no instruction. -/
def State.sysReg (s : State) (n : Nat) : Word :=
  let x := s.slot
  let c := s.core
  match n with
  | 0x00 => x.status
  | 0x01 => x.cause
  | 0x02 => x.epc
  | 0x03 => x.trapvec
  | 0x04 => c.ctxid
  | 0x05 => c.errmark
  | 0x06 => c.errcnt
  | 0x07 => c.rndseed
  | 0x08 => s.caps
  | 0x09 => c.traceptr
  | 0x0A => x.gang
  | 0x10 => word x.vl
  | 0x11 => x.vtype
  | 0x12 => c.f.modq
  | _ => 0

/-- SYSRD (R125). -/
def execSysrd (o : OpW2) (s : State) : Host.Outcome State Fault Refusal :=
  commit s (fun s => .ok (s.setG o.d (s.sysReg o.val.toNat)))

/-- The RW fields of STATUS: MRCNT to NX, ERRPOL and LTE (R62). -/
def statusRw : Word := 0xFFFF_FE00_0000_0300
/-- The fields of CAUSE (R63). -/
def causeRw : Word := 0xFFFF_0000_C000_FFFF

/-- The marker of a SYSWR of RNDSEED reaches the vector unit: both slots' generators are seeded, and an MDRAIN in progress, which is
older, goes on drawing from the old sequences (R35, R65). -/
def effReseed : Run1 := whole (fun c s =>
  let g := seedGens (c.ga.toNat % 2 ^ 32)
  .ok (s.modCore (fun k =>
    { k with s0 := { k.s0 with gens := g }, s1 := { k.s1 with gens := g },
             queue := k.queue.map (fun e => if e.tile.isSome && e.gens.isNone && !e.done then { e with gens := some (k.slot e.hi).gens } else e) })))

/-- SYSWR (R61, R62, R65, R125). CAUSE and EPC under INH take the value, CAUSE in its fields (DEDUCED, assumption 8). -/
def execSyswr (o : OpW2) (s : State) : Host.Outcome State Fault Refusal :=
  let v := s.g o.d
  match o.val.toNat with
  | 0x00 => commit s (fun s =>
      if s.older.isEmpty then
        .ok (s.modSlot (fun x => { x with status := (x.status &&& ~~~statusRw) ||| (v &&& statusRw) }))
      else .error s.waitHere)
  | 0x01 => commit s (fun s => do
      need s.slot.inh (Trap.ill 0x06) s
      pure (s.modSlot (fun x => { x with cause := v &&& causeRw })))
  | 0x02 => commit s (fun s => do
      need s.slot.inh (Trap.ill 0x06) s
      pure (s.modSlot (fun x => { x with epc := v })))
  | 0x03 => commit s (fun s => .ok (s.modSlot (fun x => { x with trapvec := setFld v 0 6 0 })))
  | 0x07 =>
      engine { eng := .vec, ins := .syswr o, ga := v, wr := [.gens] } effReseed
        (s.modCore (fun c => { c with rndseed := if c.queue.length < 256 then v &&& 0xFFFF_FFFF else c.rndseed }))
  | 0x09 => commit s (fun s => .ok (s.modCore (fun c => { c with traceptr := setFld c.traceptr 63 1 (fld v 63 1) })))
  | 0x10 => finish (.error (.trap (Trap.ill 0x06) s))
  | 0x11 => finish (.error (.trap (Trap.ill 0x06) s))
  | 0x12 => finish (.error (.trap (Trap.ill 0x06) s))
  | _ => commit s .ok

/-- A fault on the fetch of HRET's target leaves the slot's EPC register as it is (R128, R394). -/
def keepEpcOnFetch (m : M State) : M State :=
  match m with
  | .error (.trap t s) => .error (.trap { t with keepEpc := t.code == 0x06 || t.code == 0x07 } s)
  | r => r
/-- HRET (R128). -/
def execHret (s : State) : Host.Outcome State Fault Refusal :=
  finish (do
    need s.slot.inh (Trap.ill 0x07) s
    let target := s.slot.epc
    need (!flag target 0) (Trap.align 0x01) s
    let s ← keepEpcOnFetch (s.checkTarget target)
    pure (s.leaveTrap.transfer target))
/-- DSTOP (R127). -/
def execDstop (s : State) : Host.Outcome State Fault Refusal := .next (s.takeTrap { code := 0x10, sub := 0 })
/-- TRAP (R127): EPC is the next instruction. -/
def execTrap (o : OpW2) (s : State) : Host.Outcome State Fault Refusal :=
  .next (s.takeTrap { code := 0x0F, sub := o.val.toNat, epc := some s.slot.npc })
/-- CEDE (R130): the issue priority that it gives away is timing. -/
def execCede (s : State) : Host.Outcome State Fault Refusal := commit s .ok
/-- WAITEV (R129). -/
def execWaitev (s : State) : Host.Outcome State Fault Refusal :=
  commit s (fun s =>
    if s.slot.latch then .ok (s.modSlot (fun x => { x with latch := false }))
    else .error (.stall (s.modSlot (fun x => { x with since := some (x.since.getD s.time) }))))
/-- WAITEV_TIMEOUT (R129): 65,536 cycles after the WAITEV began. -/
def execWaitevTimeout (cl core slot : Nat) (s : State) : Host.Outcome State Fault Refusal :=
  .next (s.on cl core (slot != 0) (fun s =>
    match s.slot.since with
    | some t => if t + 65536 ≤ s.time then s.modSlot (fun x => { x with latch := true }) else s
    | none => s))

/-- The event latches of both slots of a core are set (R129). -/
def State.latchCore (s : State) : State :=
  s.modCore (fun c => { c with s0 := { c.s0 with latch := true }, s1 := { c.s1 with latch := true } })

end Sys2Proof.Machine
end

