-- ==== Sys2Proof/Machine/Barriers.lean ====
section
/-! DEFINITION. Barrier objects and their forms (R250, R256 to R258, R293), phase boundaries and fences (R261, R262). -/

namespace Sys2Proof.Machine

/-! ## Barrier objects (R256) -/

/-- The end of every update: with AREM = 0 and BREM = 0, PH flips and AREM := AINIT (R256). -/
def barSettle (x : Nat) : Nat :=
  if bits x 80 16 = 0 ∧ bits x 32 32 = 0 then
    (setFld (BitVec.ofNat 128 (x ^^^ 2 ^ 127)) 80 16 (bits x 96 16)).toNat
  else x
/-- The object that BINIT writes. -/
def barInit (scope n : Nat) : Nat := ((scope % 8) <<< 124) + ((n % 65536) <<< 96) + ((n % 65536) <<< 80)
/-- BREM moved by a signed count, modulo 2^32. -/
def barBytes (d : Int) (x : Nat) : Nat := (setFld (BitVec.ofNat 128 x) 32 32 (unsgn 32 (sgn 32 (bits x 32 32) + d))).toNat
/-- k arrivals: a surplus sets OVR (R258). -/
def barArrive (k x : Nat) : Nat :=
  let r := bits x 80 16
  if r < k then (setFld (setFld (BitVec.ofNat 128 x) 80 16 0) 123 1 1).toNat
  else (setFld (BitVec.ofNat 128 x) 80 16 (r - k)).toNat

/-- Run on another core of the current cluster. -/
def State.onCo (s : State) (co : Nat) (f : State → State) : State := s.on s.cl co s.hi f
/-- An update of an object in a buffer of core co of the cluster; a phase change sets the event latches there (R129). -/
def State.barBuf (s : State) (co spc off : Nat) (f : Nat → Nat) : State :=
  s.onCo co (fun s =>
    let old := s.bufRead spc off 16
    let new := barSettle (f old)
    let t := s.bufWrite spc off new 16
    if bitOf old 127 == bitOf new 127 then t else t.latchCore)
/-- An update of an object in device memory, at its home (R335, R336). -/
def State.barDev (s : State) (loc : Nat) (f : Nat → Nat) : M State := do
  let s ← s.atHome loc
  let new := barSettle (f (s.mem.read loc 16))
  pure ({ s with mem := s.mem.write loc new 16 }.noteOwn loc new 16)
/-- An update of the object that an address word names; a peer that admits no atomic refuses (R256, R392, R406). -/
def State.barUpdate (s : State) (w : Word) (f : Nat → Nat) : M State :=
  if flag w 63 then .ok (s.barBuf (fld w 21 3) (fld w 19 2) (fld w 0 19) f)
  else do
    let (p, s) ← s.access 0 w.toNat 16 16 .atm
    match p with
    | .dev loc va =>
      need (decide (loc < peerBase) || s.peerAdmits loc 16 2) (xlTrap 0x07 0x07 va .atm 0) s
      s.barDev loc f
    | .buf _ _ => pure s
/-- The object that an address word names, read at its home (R257). -/
def State.barRead (s : State) (w : Word) : M (Nat × State) :=
  if flag w 63 then .ok (((s.coreAt s.cl (fld w 21 3)).buf (fld w 19 2)).read (fld w 0 19) 16, s)
  else do
    let (p, s) ← s.access 0 w.toNat 16 16 .rd
    match p with
    | .dev loc va =>
      need (decide (loc < peerBase) || s.peerAdmits loc 16 0) (xlTrap 0x07 0x07 va .rd 0) s
      let s := (s.settle (loc / 64)).lineHome loc
      pure (s.mem.read loc 16, s)
    | .buf _ _ => pure (0, s)
/-- The checks at commit of an address word (R256). -/
def State.barCheck (s : State) (w : Word) (acc : Acc) : M Unit := do
  need (!flag w 63 || (fld w 24 39 == 0 && fld w 19 2 != 0)) (Trap.opnd 0x04) s
  if flag w 63 then need (decide (fld w 0 19 + 16 ≤ bufSize (fld w 19 2))) (Trap.opnd 0x01) s
  else need (decide (w.toNat < 2 ^ 54)) { Trap.perm 0x01 with d0 := w, d2 := word (accCode acc) } s
  need (w.toNat % 16 == 0) (Trap.align 0x02) s

/-! ## Barrier forms (R257, R258) -/

/-- The range of an object in a buffer of the current core, for the core's own atomics to the bank (R293). -/
def State.barRanges (s : State) (w : Word) : List Range :=
  if flag w 63 && fld w 21 3 == s.co then [⟨fld w 19 2, fld w 0 19, fld w 0 19 + 15, true⟩] else []
/-- BINIT (R257): its effect. -/
def effBinit (o : OpA2) : Run1 := whole (fun c s => s.barUpdate c.ga (fun _ => barInit o.b.toNat c.gb.toNat))
/-- BINIT (R257). -/
def execBinit (o : OpA2) (s : State) : Host.Outcome State Fault Refusal :=
  let n := (s.g o.a).toNat
  finish (do
    need (decide (1 ≤ n) && decide (n ≤ 65535)) (Trap.opnd 0x04) s
    s.barCheck (s.g o.d) .atm
    issue { eng := .copy, ins := .binit o, ga := s.g o.d, gb := s.g o.a, ranges := s.barRanges (s.g o.d), wr := [.bar] } (effBinit o) s)
/-- BEXPECT (R257): its effect. -/
def effBexpect : Run1 := whole (fun c s => s.barUpdate c.ga (barBytes (c.gb.toNat : Int)))
/-- BEXPECT (R257). -/
def execBexpect (o : OpA2) (s : State) : Host.Outcome State Fault Refusal :=
  let n := (s.g o.a).toNat
  finish (do
    need (decide (1 ≤ n) && decide (n < 2 ^ 31)) (Trap.opnd 0x04) s
    s.barCheck (s.g o.d) .atm
    issue { eng := .copy, ins := .bexpect o, ga := s.g o.d, gb := s.g o.a, ranges := s.barRanges (s.g o.d), wr := [.bar] } effBexpect s)
/-- BARRIVE (R258): its effect: a marker at dispatch; then it fires, a release at its scope and k arrivals. -/
def effBarrive (o : OpA2) : Run1 := fun c s =>
  if c.resume = 0 then .ok (s.modCmd c.qpos (fun e => { e with resume := 1 }))
  else do
    let k := fld c.gb 0 16
    let s ← (s.release o.b.toNat).barUpdate c.ga (barArrive (if k = 0 then 1 else k))
    pure (s.finishCmd c)
/-- BARRIVE (R258). It waits for the core's older BINIT and BEXPECT (R304). -/
def execBarrive (o : OpA2) (s : State) : Host.Outcome State Fault Refusal :=
  finish (do
    need (decide ((s.g o.a).toNat < 65536)) (Trap.opnd 0x04) s
    s.barCheck (s.g o.d) .atm
    issue { eng := .vec, ins := .barrive o, ga := s.g o.d, gb := s.g o.a, rd := [.bar] } (effBarrive o) s)
/-- BWAIT (R257). -/
def execBwait (o : OpA2) (s : State) : Host.Outcome State Fault Refusal :=
  commit s (fun s => do
    s.barCheck (s.g o.d) .rd
    let (x, t) ← s.barRead (s.g o.d)
    if bitOf x 127 != flag (s.g o.a) 0 then pure t.acquire else .error (.stall t))
/-- BTEST (R257). -/
def execBtest (o : OpA2) (s : State) : Host.Outcome State Fault Refusal :=
  commit s (fun s => do
    s.barCheck (s.g o.d) .rd
    let (x, t) ← s.barRead (s.g o.d)
    let t := if bitOf x 127 != flag (s.g o.a) 0 then t.acquire else t
    pure (t.setG o.a (word (bits x 64 64))))

/-! ## Phase boundaries and fences (R262) -/

/-- A command whose transfers PHASE waits for: it holds a range, or is a VLDG (R262). -/
def State.transfers (s : State) (c : Cmd) : Bool :=
  !(s.rangesOf c).isEmpty || (match c.ins with | .vldg _ => true | _ => false)
/-- What PHASE does (R262), and what COLL, SQPOST and LAUNCH do first (R264, R269, R271): the slot's older transfers, a
release, an acquire, the fetched lines at core scope, and the error mark. -/
def phaseAct (scope : Nat) (s : State) : M State :=
  if s.core.queue.any (fun e => e.hi == s.hi && !e.done && s.transfers e) then .error (.stall s)
  else
    let t := (s.release scope).acquire
    let t := if scope = 0 then t.modSlot (fun x => { x with lines := [], badLines := [] }) else t
    let bad := t.core.errmark != t.core.errcnt && t.slot.errpol
    let u := t.modCore (fun c => { c with errmark := c.errcnt })
    if bad then
      .error (.trap { code := 0x11, sub := 0, epc := some s.slot.npc, d0 := t.core.errcnt, d1 := t.core.errmark } u)
    else .ok u
/-- PHASE (R262). -/
def execPhase (o : BitVec 3) (s : State) : Host.Outcome State Fault Refusal := commit s (phaseAct o.toNat)
/-- FENCE.E (R262). -/
def execFenceE (s : State) : Host.Outcome State Fault Refusal :=
  commit s (fun s => if s.older.isEmpty then .ok s else .error s.waitHere)
/-- A return-free command (R262). -/
def Cmd.returnFree (c : Cmd) : Bool :=
  match c.ins with
  | .vscadd _ => true
  | .vamoAdd o | .vamoAnd o | .vamoOr o | .vamoXor o | .vamoMin o | .vamoMax o | .vamoMinu o | .vamoMaxu o | .vamoFadd o
  | .vamoBfadd o | .vamoSwap o | .vamoCas o => !o.ret
  | _ => false
/-- NMFENCE (R262, R340). -/
def execNmfence (s : State) : Host.Outcome State Fault Refusal :=
  commit s (fun s =>
    if s.slot.rfout = 0 && s.core.queue.all (fun e => e.hi != s.hi || e.done || !e.returnFree) then .ok s
    else .error (.stall s))

end Sys2Proof.Machine
end

