-- ==== Sys2Proof/Machine/Crypto.lean ====
section
/-! DEFINITION. The published functions that bring-up uses (R2, R434 to R436): SHA3-384, and the verification of Ed25519 and of
ML-DSA-65 in its pure form with an empty context string. Byte strings stand first byte first. -/

namespace Sys2Proof.Machine

/-! ## SHA-3 and SHAKE -/

/-- Rotation of each lane x + 5y. -/
def keccakRot : List Nat :=
  [0, 1, 62, 28, 27, 36, 44, 6, 55, 20, 3, 10, 43, 25, 39, 41, 45, 15, 21, 8, 18, 2, 61, 56, 14]
/-- Round constants of the 24 rounds. -/
def keccakRc : List (BitVec 64) :=
  [0x1, 0x8082, 0x800000000000808A, 0x8000000080008000, 0x808B, 0x80000001, 0x8000000080008081, 0x8000000000008009, 0x8A, 0x88,
   0x80008009, 0x8000000A, 0x8000808B, 0x800000000000008B, 0x8000000000008089, 0x8000000000008003, 0x8000000000008002,
   0x8000000000000080, 0x800A, 0x800000008000000A, 0x8000000080008081, 0x8000000000008080, 0x80000001, 0x8000000080008008]
/-- One round of Keccak-f[1600] on 25 lanes. -/
def keccakRound (a : List (BitVec 64)) (rc : BitVec 64) : List (BitVec 64) :=
  let c := (List.range 5).map (fun x => (List.range 5).foldl (fun v y => v ^^^ nthD 0 a (x + 5 * y)) 0)
  let d := (List.range 5).map (fun x => nthD 0 c ((x + 4) % 5) ^^^ (nthD 0 c ((x + 1) % 5)).rotateLeft 1)
  let t := (List.range 25).map (fun i => (nthD 0 a i ^^^ nthD 0 d (i % 5)).rotateLeft (nthD 0 keccakRot i))
  let b := (List.range 25).map (fun i => nthD 0 t ((i % 5 + 3 * (i / 5)) % 5 + 5 * (i % 5)))
  let e := (List.range 25).map (fun i => nthD 0 b i
    ^^^ (~~~ nthD 0 b ((i + 1) % 5 + 5 * (i / 5)) &&& nthD 0 b ((i % 5 + 2) % 5 + 5 * (i / 5))))
  setNth (nthD 0 e 0 ^^^ rc) e 0
/-- Keccak-f[1600]. -/
def keccakF (a : List (BitVec 64)) : List (BitVec 64) := keccakRc.foldl keccakRound a
/-- A block absorbed. -/
def keccakAbsorb (a : List (BitVec 64)) (block : List Byte) : List (BitVec 64) :=
  keccakF ((List.range 25).map (fun i => nthD 0 a i ^^^ BitVec.ofNat 64 (leNat ((block.drop (8 * i)).take 8))))
/-- Blocks of a rate absorbed. -/
def keccakBlocks (rate : Nat) : Nat → List Byte → List (BitVec 64) → List (BitVec 64)
  | 0, _, a => a
  | n + 1, bs, a => keccakBlocks rate n (bs.drop rate) (keccakAbsorb a (bs.take rate))
/-- The first n blocks of output. -/
def keccakSqueeze (rate : Nat) : Nat → List (BitVec 64) → List Byte
  | 0, _ => []
  | n + 1, a => (a.flatMap (fun v => leBytes 8 v.toNat)).take rate ++ keccakSqueeze rate n (keccakF a)
/-- The sponge: rate in bytes, suffix of the function, n bytes of output. -/
def sponge (rate suffix n : Nat) (bs : List Byte) : List Byte :=
  let k := rate - bs.length % rate
  let pad := if k = 1 then [BitVec.ofNat 8 (suffix + 128)]
    else BitVec.ofNat 8 suffix :: (List.replicate (k - 2) 0 ++ [0x80])
  (keccakSqueeze rate (cdiv n rate) (keccakBlocks rate (bs.length / rate + 1) (bs ++ pad) (List.replicate 25 0))).take n
/-- SHA3-384. -/
@[irreducible] def sha3 (bs : List Byte) : BitVec 384 := BitVec.ofNat 384 (leNat (sponge 104 0x06 48 bs))
/-- n bytes of SHAKE128. -/
def shake128 (n : Nat) (bs : List Byte) : List Byte := sponge 168 0x1F n bs
/-- n bytes of SHAKE256. -/
def shake256 (n : Nat) (bs : List Byte) : List Byte := sponge 136 0x1F n bs

/-! ## SHA-512, which Ed25519 hashes with -/

/-- The largest x below 2^n with x^k at most v. -/
def iroot (k v : Nat) : Nat → Nat → Nat
  | 0, x => x
  | n + 1, x => iroot k v n (if (x + 2 ^ n) ^ k ≤ v then x + 2 ^ n else x)
/-- The first 80 primes. -/
def primes80 : List Nat := ((List.range 410).filter (fun n => 2 ≤ n && (List.range n).all (fun d => d < 2 || n % d != 0)))
/-- Round constants: 64 bits of the fraction of each cube root. -/
def sha512K : List Nat := primes80.map (fun p => iroot 3 (p * 2 ^ 192) 68 0 % 2 ^ 64)
/-- Initial value: 64 bits of the fraction of each square root. -/
def sha512H : List Nat := (primes80.take 8).map (fun p => iroot 2 (p * 2 ^ 128) 68 0 % 2 ^ 64)
/-- A 64-bit word rotated right. -/
def ror64 (x n : Nat) : Nat := (x >>> n) ||| (x <<< (64 - n)) % 2 ^ 64
/-- The message schedule to n + 16 words, newest first. -/
def sha512W : Nat → List Nat → List Nat
  | 0, w => w
  | n + 1, w =>
    let x := nthD 0 w 14
    let y := nthD 0 w 1
    let s0 := ror64 x 1 ^^^ ror64 x 8 ^^^ x >>> 7
    let s1 := ror64 y 19 ^^^ ror64 y 61 ^^^ y >>> 6
    sha512W n ((nthD 0 w 15 + s0 + nthD 0 w 6 + s1) % 2 ^ 64 :: w)
/-- One round: state a to h, constant plus schedule word. -/
def sha512Round (s : List Nat) (kw : Nat) : List Nat :=
  match s with
  | [a, b, c, d, e, f, g, h] =>
    let t1 := h + (ror64 e 14 ^^^ ror64 e 18 ^^^ ror64 e 41) + ((e &&& f) ^^^ ((2 ^ 64 - 1 - e) &&& g)) + kw
    let t2 := (ror64 a 28 ^^^ ror64 a 34 ^^^ ror64 a 39) + ((a &&& b) ^^^ (a &&& c) ^^^ (b &&& c))
    [(t1 + t2) % 2 ^ 64, a, b, c, (d + t1) % 2 ^ 64, e, f, g]
  | _ => s
/-- One block. -/
def sha512Block (h : List Nat) (block : List Byte) : List Nat :=
  let w := (sha512W 64 ((List.range 16).map (fun i => leNat ((block.drop (8 * i)).take 8).reverse)).reverse).reverse
  ((sha512K.zip w).foldl (fun s p => sha512Round s (p.1 + p.2)) h).zip h |>.map (fun p => (p.1 + p.2) % 2 ^ 64)
/-- Blocks of 128 bytes. -/
def sha512Blocks : Nat → List Byte → List Nat → List Nat
  | 0, _, h => h
  | n + 1, bs, h => sha512Blocks n (bs.drop 128) (sha512Block h (bs.take 128))
/-- SHA-512. -/
def sha512 (bs : List Byte) : List Byte :=
  let n := cdiv (bs.length + 17) 128
  let m := bs ++ 0x80 :: (List.replicate (128 * n - bs.length - 17) 0 ++ (leBytes 16 (8 * bs.length)).reverse)
  (sha512Blocks n m sha512H).flatMap (fun v => (leBytes 8 v).reverse)

/-! ## Ed25519 -/

/-- The field's prime. -/
def edP : Nat := 2 ^ 255 - 19
/-- The order of the base point. -/
def edL : Nat := 2 ^ 252 + 27742317777372353535851937790883648493
/-- b^e modulo m, the low n bits of e. -/
def powMod (m b e : Nat) : Nat → Nat
  | 0 => 1 % m
  | n + 1 => let r := powMod m b (e / 2) n; if e % 2 = 1 then r * r % m * b % m else r * r % m
/-- The inverse in the field. -/
def edInv (x : Nat) : Nat := powMod edP x (edP - 2) 255
/-- The curve constant −121665/121666. -/
def edD : Nat := (edP - 121665) * edInv 121666 % edP
/-- A point in extended coordinates X, Y, Z, T. -/
structure EdPoint where
  x : Nat
  y : Nat
  z : Nat
  t : Nat
  deriving DecidableEq, Repr
/-- The sum of two points. -/
def edAdd (p q : EdPoint) : EdPoint :=
  let a := (p.y + edP - p.x) * (q.y + edP - q.x) % edP
  let b := (p.y + p.x) * (q.y + q.x) % edP
  let c := 2 * p.t * edD % edP * q.t % edP
  let d := 2 * p.z * q.z % edP
  let e := b + edP - a
  let f := d + edP - c
  let g := d + c
  let h := b + a
  ⟨e * f % edP, g * h % edP, f * g % edP, e * h % edP⟩
/-- A multiple of a point, n bits of the factor. -/
def edMul (k : Nat) (p : EdPoint) : Nat → EdPoint
  | 0 => ⟨0, 1, 1, 0⟩
  | n + 1 => let q := edMul (k / 2) p n; let r := edAdd q q; if k % 2 = 1 then edAdd r p else r
/-- The point with a y coordinate and the low bit of its x, if there is one. -/
def edPoint (y odd : Nat) : Option EdPoint :=
  let u := (y * y + edP - 1) % edP
  let v := (edD * (y * y % edP) + 1) % edP
  let v3 := v * v % edP * v % edP
  let r := u * v3 % edP * powMod edP (u * (v3 * v3 % edP * v % edP) % edP) ((edP - 5) / 8) 255 % edP
  let s := v * (r * r % edP) % edP
  let root := if s = u then some r else if s = (edP - u) % edP then some (r * powMod edP 2 ((edP - 1) / 4) 255 % edP) else none
  match root with
  | none => none
  | some x =>
    if edP ≤ y ∨ (x = 0 ∧ odd = 1) then none
    else let x := if x % 2 = odd then x else edP - x; some ⟨x, y, 1, x * y % edP⟩
/-- A point from its 32 bytes. -/
def edDecode (bs : List Byte) : Option EdPoint := edPoint (leNat bs % 2 ^ 255) (leNat bs / 2 ^ 255 % 2)
/-- Verification of public key, message and signature with the cofactored equation (assumption 30). -/
@[irreducible] def ed25519 (key msg sig : List Byte) : Bool :=
  let s := leNat ((sig.drop 32).take 32)
  match edDecode key, edDecode (sig.take 32), edPoint (4 * edInv 5 % edP) 0 with
  | some a, some r, some b =>
    let k := leNat (sha512 (sig.take 32 ++ key ++ msg)) % edL
    let p := edMul (8 * s) b 260
    let q := edMul 8 (edAdd r (edMul k a 256)) 4
    decide (s < edL) && p.x * q.z % edP == q.x * p.z % edP && p.y * q.z % edP == q.y * p.z % edP
  | _, _, _ => false

/-! ## ML-DSA-65 -/

/-- The modulus q. -/
def dsaQ : Nat := 8380417
/-- The bits of an 8-bit number in reverse. -/
def brv8 (n : Nat) : Nat := (List.range 8).foldl (fun r i => 2 * r + n / 2 ^ i % 2) 0
/-- Number i of a packed list of w-bit numbers. -/
def unpackAt (w : Nat) (bs : List Byte) (i : Nat) : Nat := leNat (bs.drop (w * i / 8) |>.take 4) / 2 ^ (w * i % 8) % 2 ^ w
/-- The value of a polynomial at a point. -/
def polyAt (w : List Nat) (x : Nat) : Nat := w.foldr (fun a v => (a + x * v) % dsaQ) 0
/-- The transform of a polynomial: its values at the odd powers of 1753, in bit-reversed order. -/
def dsaNtt (w : List Nat) : List Nat := (List.range 256).map (fun j => polyAt w (powMod dsaQ 1753 (2 * brv8 j + 1) 10))
/-- The polynomial of a transform: 256 × 8347681 is 1, and 1753^512 is 1. -/
def dsaInv (v : List Nat) : List Nat :=
  let u := (List.range 256).map (fun j => nthD 0 v (brv8 j))
  (List.range 256).map (fun i => polyAt u (powMod dsaQ 1753 (512 - 2 * i) 10) * powMod dsaQ 1753 (512 - i) 10 % dsaQ * 8347681 % dsaQ)
/-- Coefficients below q among triples of a stream. -/
def rejNtt : Nat → List Byte → List Nat
  | 0, _ => []
  | n + 1, bs =>
    let z := leNat (bs.take 3) % 2 ^ 23
    if z < dsaQ then z :: rejNtt n (bs.drop 3) else rejNtt n (bs.drop 3)
/-- The public matrix's transformed entry in row r and column s. -/
def dsaA (rho : List Byte) (r s : Nat) : List Nat :=
  (rejNtt 1024 (shake128 3072 (rho ++ [BitVec.ofNat 8 s, BitVec.ofNat 8 r]))).take 256
/-- The rest of the challenge from index i on: signs and bytes still to use. -/
def inBall : Nat → Nat → Nat → List Byte → List Nat → List Nat
  | 0, _, _, _, c => c
  | f + 1, i, h, bs, c =>
    let j := (bs.head?.elim 0 (·.toNat))
    if 256 ≤ i then c
    else if i < j then inBall f i h (bs.drop 1) c
    else inBall f (i + 1) (h / 2) (bs.drop 1) (setNth (if h % 2 = 1 then dsaQ - 1 else 1) (setNth (nthD 0 c j) c i) j)
/-- The challenge polynomial with 49 coefficients of ±1. -/
def dsaBall (seed : List Byte) : List Nat :=
  let bs := shake256 1024 seed
  inBall 1016 207 (leNat (bs.take 8)) (bs.drop 8) (List.replicate 256 0)
/-- Whether a list of hint positions rises. -/
def rising : List Byte → Bool
  | a :: b :: r => decide (a.toNat < b.toNat) && rising (b :: r)
  | _ => true
/-- The positions of each of the six hints, or none for a malformed encoding. -/
def dsaHints (y : List Byte) : Option (List (List Byte)) :=
  let ends := 0 :: (y.drop 55).map (·.toNat)
  let parts := (List.range 6).map (fun i => ((y.take (nthD 0 ends (i + 1))).drop (nthD 0 ends i)))
  if (List.range 6).all (fun i => nthD 0 ends i ≤ nthD 0 ends (i + 1) && nthD 0 ends (i + 1) ≤ 55) && parts.all rising
      && ((y.take 55).drop (nthD 0 ends 6)).all (fun b => b == 0) then some parts
  else none
/-- High part of r with its hint. -/
def useHint (hint : Bool) (r : Nat) : Nat :=
  let m := r % 523776
  let low : Int := if m ≤ 261888 then m else (m : Int) - 523776
  let top := ((r : Int) - low == 8380416)
  let hi := if top then 0 else (((r : Int) - low) / 523776).toNat
  let low := if top then low - 1 else low
  if hint then (if 0 < low then (hi + 1) % 16 else (hi + 15) % 16) else hi
/-- 4-bit numbers packed two to a byte. -/
def packNibbles : List Nat → List Byte
  | a :: b :: r => BitVec.ofNat 8 (a + 16 * b) :: packNibbles r
  | _ => []
/-- Verification of public key, message and signature, in the pure form with an empty context string. -/
@[irreducible] def mldsa (key msg sig : List Byte) : Bool :=
  let rho := key.take 32
  let t1 := (List.range 6).map (fun i => (List.range 256).map (unpackAt 10 ((key.drop (32 + 320 * i)).take 320)))
  let z := (List.range 5).map (fun i => (List.range 256).map (unpackAt 20 ((sig.drop (48 + 640 * i)).take 640)))
  let mu := shake256 64 (shake256 64 key ++ [0, 0] ++ msg)
  let c := dsaNtt (dsaBall (sig.take 48))
  let zn := z.map (fun p => dsaNtt (p.map (fun w => (2 ^ 19 + dsaQ - w) % dsaQ)))
  match dsaHints ((sig.drop 3248).take 61) with
  | none => false
  | some hints =>
    let w1 := (List.range 6).map (fun r =>
      let az := (List.range 5).foldl (fun v s =>
        ((v.zip (dsaA rho r s)).zip (nthD [] zn s)).map (fun x => (x.1.1 + x.1.2 * x.2) % dsaQ)) (List.replicate 256 0)
      let ct := (c.zip (dsaNtt ((nthD [] t1 r).map (fun t => t * 2 ^ 13)))).map (fun x => x.1 * x.2 % dsaQ)
      let w := dsaInv ((az.zip ct).map (fun x => (x.1 + dsaQ - x.2) % dsaQ))
      (List.range 256).map (fun j => useHint ((nthD [] hints r).any (fun b => b.toNat == j)) (nthD 0 w j)))
    key.length == 1952 && sig.length == 3309
      && z.all (fun p => p.all (fun w => decide (196 < w) && decide (w < 2 ^ 20 - 196)))
      && sig.take 48 == shake256 48 (mu ++ w1.flatMap packNibbles)

end Sys2Proof.Machine
end

