-- ==== Sys2Proof/Machine/ErrorLog.lean ====
section
/-! DEFINITION. The error log, tests of units and the withdrawal of cores (R423, R426, R427, R429, R430). Locations of units:
the physical address of units 0 and 1; (8 × cluster + core) × 2^20 + byte offset of the buffers 2 to 4; the location word of
R426 of units 5 to 9; kind × 2^32 + index of hub SRAM 10. -/

namespace Sys2Proof.Machine

/-- The state with the error part changed. -/
def State.modEr (s : State) (f : Errors → Errors) : State := { s with er := f s.er }
/-- A telemetry counter of the error part rises: kind × 65,536 + instance (R432). -/
def State.tally (s : State) (k : Nat) : State :=
  s.modEr (fun e => { e with tlm := put k (((look k e.tlm).getD 0 + 1) % 2 ^ 64) e.tlm })

/-! ## The error log (R426) -/

/-- PROD, CONS, PTAG, OCC and LOST of ELGIDX. -/
def elgProd (v : Word) : Nat := fld v 0 10
def elgCons (v : Word) : Nat := fld v 16 10
def elgTag (v : Word) : Bool := flag v 26
def elgOcc (v : Word) : Nat := fld v 32 11
def elgLost (v : Word) : Nat := fld v 48 16
/-- One record: class, unit, context charged, location word; written while there is room at ELGBASE, else LOST rises. -/
def State.elg (s : State) (cls unit ctx loc : Nat) : State :=
  let i := s.er.elgidx
  let a := s.er.elgbase.toNat + 32 * elgProd i
  if elgOcc i < (if cls = 1 then 960 else 1024) && decide (a + 32 ≤ s.hbm) then
    let bs := [(cls <<< 56) + (unit <<< 48) + ctx % 65536, loc, s.time,
               (b2n (elgTag i) <<< 63) + s.er.elgseq % 2 ^ 63].flatMap (leBytes 8)
    let p := (elgProd i + 1) % 1024
    let j := setFld (setFld i 0 10 p) 32 11 (elgOcc i + 1)
    let j := if p = 0 then setFld j 26 1 (b2n (!elgTag i)) else j
    (({ s with mem := s.mem.writeList a bs }).modEr (fun e =>
      { e with elgidx := j, elgseq := (e.elgseq + 1) % 2 ^ 63 })).tally (20 * 65536 + unit * 256 + cls)
  else s.modEr (fun e => { e with elgidx := setFld i 48 16 (min 65535 (elgLost i + 1)) })
/-- The location word of a unit; that of a buffer is a free value, for it has no physical address (assumption 5); of the hub
SRAMs a stage queue is that of a cluster. -/
def State.elgLoc (s : State) (unit loc : Nat) : Nat × State :=
  if unit ≤ 1 then (loc, s) else if unit ≤ 4 then s.fresh
  else if unit = 10 then (if loc / 2 ^ 32 = 4 then (loc % 2 ^ 32 / 2 ^ 16) <<< 10 else 0, s)
  else (loc % 65536, s)
/-- A record about a unit. -/
def State.logUnit (s : State) (cls unit loc ctx : Nat) : State :=
  let r := s.elgLoc unit loc
  r.2.elg cls unit ctx r.1
/-- Bytes of the granule of a unit (R423). -/
def granule : Nat → Nat
  | 2 => 8
  | 3 => 4
  | 4 => 32
  | _ => 64

/-! ## Units under test (R427) -/

/-- The bank of a buffer byte (R290). -/
def bankOf (unit off : Nat) : Nat :=
  match unit with
  | 2 => off / 8 % 64
  | 3 =>
    let w := off / 4
    let rw := w / 3
    (32 * (w % 3) + (rw % 32 ^^^ rw / 32 % 32 ^^^ rw / 1024 % 32)) / 2
  | _ => off / 32 % 16
/-- What a test takes out of service: a row, a cache set, a bank, a core, a port, a hub SRAM entry. -/
def testPlace (unit loc : Nat) : Nat :=
  match unit with
  | 0 | 1 => Config.placeOf unit (loc / 64)
  | 2 | 3 | 4 => loc / 2 ^ 20 * 64 + bankOf unit (loc % 2 ^ 20)
  | 5 | 6 => loc / 64
  | 7 | 8 | 9 => loc % 64
  | _ => loc
/-- An error starts a test of its unit, or joins it (R427). -/
def State.startTest (s : State) (unit loc : Nat) : State :=
  let k := (unit, testPlace unit loc)
  s.modEr (fun e => { e with tests := if e.tests.contains k then e.tests else e.tests ++ [k] })

/-! ## Cores that are withdrawn (R429, R430) -/

/-- A physical core is withdrawn: the spare serves in its place; with none left the cluster is withdrawn (R429, R430). -/
def State.withdraw (s : State) (cl phys : Nat) : State :=
  let k := s.clusAt cl
  match k.spare with
  | some p =>
    s.setClusAt cl { k with spare := none, phys := if p = phys then k.phys else k.phys.map (fun x => if x = phys then p else x) }
  | none => s.modEr (fun e => { e with cloff := e.cloff ||| 2 ^ cl })
/-- A swap point of a cluster that no group holds: the physical cores that are to be withdrawn are (R429). -/
def State.swapPoint (s : State) (cl : Nat) : State :=
  let k := s.clusAt cl
  if k.group.isSome || k.toSwap.isEmpty then s
  else k.toSwap.foldl (fun s p => s.withdraw cl p) (s.setClusAt cl { k with toSwap := [] })
/-- A physical core is to be withdrawn at the cluster's next swap point, for good (R428, R429). -/
def State.withdrawLater (s : State) (cl phys : Nat) : State :=
  ((s.setClusAt cl { s.clusAt cl with toSwap := (s.clusAt cl).toSwap ++ [phys] }).modEr (fun e =>
    { e with repaired := e.repaired ++ [(6, 16 * cl + phys)] })).swapPoint cl

end Sys2Proof.Machine
end

