-- ==== Sys2Proof/Machine/Alu.lean ====
section
/-! DEFINITION. The scalar results of majors 0x01 to 0x04 (R97 to R101) as functions of their operands; the control thread
and the lanes of a VP block share them. -/

namespace Sys2Proof.Machine

/-- SLL (R97): the amount is g[B][5:0]. -/
def aluSll (a b : Word) : Word := a <<< (fld b 0 6)
/-- SRL (R97). -/
def aluSrl (a b : Word) : Word := a >>> (fld b 0 6)
/-- SRA (R97). -/
def aluSra (a b : Word) : Word := a.sshiftRight (fld b 0 6)
/-- SLT (R97). -/
def aluSlt (a b : Word) : Word := if a.slt b then 1 else 0
/-- SLTU (R97). -/
def aluSltu (a b : Word) : Word := if a.ult b then 1 else 0
/-- MIN (R97). -/
def aluMin (a b : Word) : Word := if b.slt a then b else a
/-- MAX (R97). -/
def aluMax (a b : Word) : Word := if a.slt b then b else a
/-- MULH (R100). -/
def aluMulh (a b : Word) : Word := (a.signExtend 128 * b.signExtend 128).extractLsb' 64 64
/-- MULHU (R100). -/
def aluMulhu (a b : Word) : Word := (a.setWidth 128 * b.setWidth 128).extractLsb' 64 64
/-- DIV at any width (R100). -/
def aluDiv {n : Nat} (a b : BitVec n) : BitVec n := if b = 0 then BitVec.allOnes n else a.sdiv b
/-- DIVU (R100). -/
def aluDivu {n : Nat} (a b : BitVec n) : BitVec n := if b = 0 then BitVec.allOnes n else a / b
/-- REM (R100). -/
def aluRem {n : Nat} (a b : BitVec n) : BitVec n := if b = 0 then a else a.srem b
/-- REMU (R100). -/
def aluRemu {n : Nat} (a b : BitVec n) : BitVec n := if b = 0 then a else a % b
/-- A .W form: the operation on bits [31:0], sign-extended (R98). -/
def aluW (f : BitVec 32 → BitVec 32 → BitVec 32) (a b : Word) : Word := (f (a.setWidth 32) (b.setWidth 32)).signExtend 64
/-- SLL.W (R98). -/
def sllW32 (a b : BitVec 32) : BitVec 32 := a <<< (fld b 0 5)
/-- SRL.W (R98). -/
def srlW32 (a b : BitVec 32) : BitVec 32 := a >>> (fld b 0 5)
/-- SRA.W (R98). -/
def sraW32 (a b : BitVec 32) : BitVec 32 := a.sshiftRight (fld b 0 5)
/-- CLZ (R101). -/
def aluClz (a : Word) : Word := if a = 0 then 64 else word (63 - ilog2 a.toNat)
/-- CTZ (R101). -/
def aluCtz (a : Word) : Word := word ((firstFrom (fun i => a.getLsbD i) 0 64).getD 64)
/-- POPC (R101). -/
def aluPopc (a : Word) : Word := word (countBelow (fun i => a.getLsbD i) 64)

/-- The comparison of a B, VCMP or lane branch by its code: EQ NE LT GE LTU GEU (R112). -/
def cmpHolds {n : Nat} (code : Nat) (a b : BitVec n) : Bool :=
  match code with
  | 0 => a == b
  | 1 => a != b
  | 2 => a.slt b
  | 3 => !a.slt b
  | 4 => a.ult b
  | _ => !a.ult b

end Sys2Proof.Machine
end

