-- ==== Sys2Proof/Machine/Scalar.lean ====
section
/-! DEFINITION. The control thread's integer, constant, identity and transfer forms: majors 0x00 to 0x07, 0x0B to 0x0F,
0x12 and 0x13 (R86, R97 to R104, R112 to R115, R123, R124). -/

namespace Sys2Proof.Machine

/-- A form that writes one g register. -/
def putG (d : BitVec 6) (f : State → Word) (s : State) : Host.Outcome State Fault Refusal :=
  commit s (fun s => .ok (s.setG d (f s)))
/-- A form of two g registers (R97, R100). -/
def regOp (o : OpA2) (f : Word → Word → Word) (s : State) : Host.Outcome State Fault Refusal :=
  putG o.d (fun s => f (s.g o.a) (s.g o.b)) s
/-- A form of one g register and the sign-extended immediate (R99). -/
def immOp (o : OpI4) (f : Word → Word → Word) (s : State) : Host.Outcome State Fault Refusal :=
  putG o.d (fun s => f (s.g o.a) (o.imm.signExtend 64)) s

/-- NOP (R86): retires and changes nothing but the instruction address. -/
def execNop (s : State) : Host.Outcome State Fault Refusal := commit s .ok
/-- ADD (R97). -/
def execAdd (o : OpA2) (s : State) : Host.Outcome State Fault Refusal := regOp o (· + ·) s
/-- SUB (R97). -/
def execSub (o : OpA2) (s : State) : Host.Outcome State Fault Refusal := regOp o (· - ·) s
/-- AND (R97). -/
def execAnd (o : OpA2) (s : State) : Host.Outcome State Fault Refusal := regOp o (· &&& ·) s
/-- OR (R97). -/
def execOr (o : OpA2) (s : State) : Host.Outcome State Fault Refusal := regOp o (· ||| ·) s
/-- XOR (R97). -/
def execXor (o : OpA2) (s : State) : Host.Outcome State Fault Refusal := regOp o (· ^^^ ·) s
/-- SLL (R97). -/
def execSll (o : OpA2) (s : State) : Host.Outcome State Fault Refusal := regOp o aluSll s
/-- SRL (R97). -/
def execSrl (o : OpA2) (s : State) : Host.Outcome State Fault Refusal := regOp o aluSrl s
/-- SRA (R97). -/
def execSra (o : OpA2) (s : State) : Host.Outcome State Fault Refusal := regOp o aluSra s
/-- SLT (R97). -/
def execSlt (o : OpA2) (s : State) : Host.Outcome State Fault Refusal := regOp o aluSlt s
/-- SLTU (R97). -/
def execSltu (o : OpA2) (s : State) : Host.Outcome State Fault Refusal := regOp o aluSltu s
/-- MIN (R97). -/
def execMin (o : OpA2) (s : State) : Host.Outcome State Fault Refusal := regOp o aluMin s
/-- MAX (R97). -/
def execMax (o : OpA2) (s : State) : Host.Outcome State Fault Refusal := regOp o aluMax s
/-- ADD.W (R98). -/
def execAddW (o : OpA2) (s : State) : Host.Outcome State Fault Refusal := regOp o (aluW (· + ·)) s
/-- SUB.W (R98). -/
def execSubW (o : OpA2) (s : State) : Host.Outcome State Fault Refusal := regOp o (aluW (· - ·)) s
/-- SLL.W (R98). -/
def execSllW (o : OpA2) (s : State) : Host.Outcome State Fault Refusal := regOp o (aluW sllW32) s
/-- SRL.W (R98). -/
def execSrlW (o : OpA2) (s : State) : Host.Outcome State Fault Refusal := regOp o (aluW srlW32) s
/-- SRA.W (R98). -/
def execSraW (o : OpA2) (s : State) : Host.Outcome State Fault Refusal := regOp o (aluW sraW32) s
/-- ADDI (R99). -/
def execAddi (o : OpI4) (s : State) : Host.Outcome State Fault Refusal := immOp o (· + ·) s
/-- ANDI (R99). -/
def execAndi (o : OpI4) (s : State) : Host.Outcome State Fault Refusal := immOp o (· &&& ·) s
/-- ORI (R99). -/
def execOri (o : OpI4) (s : State) : Host.Outcome State Fault Refusal := immOp o (· ||| ·) s
/-- XORI (R99). -/
def execXori (o : OpI4) (s : State) : Host.Outcome State Fault Refusal := immOp o (· ^^^ ·) s
/-- SLLI (R99). -/
def execSlli (o : OpI4) (s : State) : Host.Outcome State Fault Refusal := immOp o aluSll s
/-- SRLI (R99). -/
def execSrli (o : OpI4) (s : State) : Host.Outcome State Fault Refusal := immOp o aluSrl s
/-- SRAI (R99). -/
def execSrai (o : OpI4) (s : State) : Host.Outcome State Fault Refusal := immOp o aluSra s
/-- SLTI (R99). -/
def execSlti (o : OpI4) (s : State) : Host.Outcome State Fault Refusal := immOp o aluSlt s
/-- ADDI.W (R98, R99). -/
def execAddiW (o : OpI4) (s : State) : Host.Outcome State Fault Refusal := immOp o (aluW (· + ·)) s
/-- SLLI.W (R98, R99). -/
def execSlliW (o : OpI4) (s : State) : Host.Outcome State Fault Refusal := immOp o (aluW sllW32) s
/-- SRLI.W (R98, R99). -/
def execSrliW (o : OpI4) (s : State) : Host.Outcome State Fault Refusal := immOp o (aluW srlW32) s
/-- SRAI.W (R98, R99). -/
def execSraiW (o : OpI4) (s : State) : Host.Outcome State Fault Refusal := immOp o (aluW sraW32) s
/-- MUL (R100). -/
def execMul (o : OpA2) (s : State) : Host.Outcome State Fault Refusal := regOp o (· * ·) s
/-- MULH (R100). -/
def execMulh (o : OpA2) (s : State) : Host.Outcome State Fault Refusal := regOp o aluMulh s
/-- MULHU (R100). -/
def execMulhu (o : OpA2) (s : State) : Host.Outcome State Fault Refusal := regOp o aluMulhu s
/-- DIV (R100). -/
def execDiv (o : OpA2) (s : State) : Host.Outcome State Fault Refusal := regOp o aluDiv s
/-- DIVU (R100). -/
def execDivu (o : OpA2) (s : State) : Host.Outcome State Fault Refusal := regOp o aluDivu s
/-- REM (R100). -/
def execRem (o : OpA2) (s : State) : Host.Outcome State Fault Refusal := regOp o aluRem s
/-- REMU (R100). -/
def execRemu (o : OpA2) (s : State) : Host.Outcome State Fault Refusal := regOp o aluRemu s
/-- MUL.W (R100). -/
def execMulW (o : OpA2) (s : State) : Host.Outcome State Fault Refusal := regOp o (aluW (· * ·)) s
/-- DIV.W (R100). -/
def execDivW (o : OpA2) (s : State) : Host.Outcome State Fault Refusal := regOp o (aluW aluDiv) s
/-- DIVU.W (R100). -/
def execDivuW (o : OpA2) (s : State) : Host.Outcome State Fault Refusal := regOp o (aluW aluDivu) s
/-- REM.W (R100). -/
def execRemW (o : OpA2) (s : State) : Host.Outcome State Fault Refusal := regOp o (aluW aluRem) s
/-- REMU.W (R100). -/
def execRemuW (o : OpA2) (s : State) : Host.Outcome State Fault Refusal := regOp o (aluW aluRemu) s
/-- CLZ (R101). -/
def execClz (o : OpA2) (s : State) : Host.Outcome State Fault Refusal := putG o.d (fun s => aluClz (s.g o.a)) s
/-- CTZ (R101). -/
def execCtz (o : OpA2) (s : State) : Host.Outcome State Fault Refusal := putG o.d (fun s => aluCtz (s.g o.a)) s
/-- POPC (R101). -/
def execPopc (o : OpA2) (s : State) : Host.Outcome State Fault Refusal := putG o.d (fun s => aluPopc (s.g o.a)) s
/-- SEL (R102). -/
def execSel (o : OpV4) (s : State) : Host.Outcome State Fault Refusal :=
  putG o.d (fun s => if s.g o.c ≠ 0 then s.g o.a else s.g o.b) s
/-- LIMM with a T4W tail (R103). -/
def execLimmT4w (o : OpW4) (s : State) : Host.Outcome State Fault Refusal := putG o.d (fun _ => o.imm.signExtend 64) s
/-- LIMM with a T8W tail (R103). -/
def execLimmT8w (o : OpW8) (s : State) : Host.Outcome State Fault Refusal := putG o.d (fun _ => o.imm) s
/-- ADDPC (R104). -/
def execAddpc (o : OpW4) (s : State) : Host.Outcome State Fault Refusal :=
  putG o.d (fun s => s.slot.pc + o.imm.signExtend 64) s

/-- A taken B or JMP: the target is checked, the loops that it leaves end, and the thread stands there (R72, R112, R115). -/
def State.jumpTo (s : State) (target : Word) : M State := do
  let s ← s.checkTarget target
  pure ((s.modSlot (fun x => { x with loops := loopLeave target x.loops })).transfer target)

/-- B.cond (R112). -/
def branch (code : Nat) (o : OpB4) (s : State) : Host.Outcome State Fault Refusal :=
  if cmpHolds code (s.g o.a) (s.g o.b) then finish (s.jumpTo (lineTarget s.slot.pc o.loff o.slot)) else .next s.retire

/-- B.EQ (R112). -/
def execBEq (o : OpB4) (s : State) : Host.Outcome State Fault Refusal := branch 0 o s
/-- B.NE (R112). -/
def execBNe (o : OpB4) (s : State) : Host.Outcome State Fault Refusal := branch 1 o s
/-- B.LT (R112). -/
def execBLt (o : OpB4) (s : State) : Host.Outcome State Fault Refusal := branch 2 o s
/-- B.GE (R112). -/
def execBGe (o : OpB4) (s : State) : Host.Outcome State Fault Refusal := branch 3 o s
/-- B.LTU (R112). -/
def execBLtu (o : OpB4) (s : State) : Host.Outcome State Fault Refusal := branch 4 o s
/-- B.GEU (R112). -/
def execBGeu (o : OpB4) (s : State) : Host.Outcome State Fault Refusal := branch 5 o s
/-- JMP (R113). -/
def execJmp (o : OpJ4) (s : State) : Host.Outcome State Fault Refusal :=
  finish (s.jumpTo (lineTarget s.slot.pc o.loff o.slot))
/-- CALL (R113): the link is written only when the transfer is made. -/
def execCall (o : OpJ4) (s : State) : Host.Outcome State Fault Refusal :=
  let target := lineTarget s.slot.pc o.loff o.slot
  finish (do let s ← s.checkTarget target; pure ((s.setG o.d s.slot.npc).transfer target))
/-- JMPR (R113): the target is read before the link is written. -/
def execJmpr (o : OpA2) (s : State) : Host.Outcome State Fault Refusal :=
  let target := s.g o.a
  finish (do
    need (!flag target 0) (Trap.align 0x01) s
    let s ← s.checkTarget target
    pure ((s.setG o.d s.slot.npc).transfer target))

/-- LOOP (R114). -/
def execLoop (o : OpJ4) (s : State) : Host.Outcome State Fault Refusal :=
  let e := lineTarget s.slot.pc o.loff o.slot
  finish (do
    need (!e.ult s.slot.npc) (Trap.opnd 0x02) s
    let s ← s.checkTarget e
    if s.g o.d = 0 then
      let (l, s) ← s.fetchLine (lineOf e)
      pure (s.arrive (nextAddr l e))
    else
      need (decide (s.slot.loops.length < 4)) (Trap.opnd 0x03) s
      pure ((s.modSlot (fun x => { x with loops := ⟨x.npc, e, x.getG o.d.toNat⟩ :: x.loops })).arrive s.slot.npc))

/-- The value of a GETID selector for the current slot; `vp` is the VP number (R123). -/
def State.ident (s : State) (sel vp : Nat) : Nat :=
  let t := s.slot.th
  match sel with
  | 0 => t.x
  | 1 => t.y
  | 2 => t.z
  | 3 => t.num
  | 4 => t.stage
  | 5 => s.cl
  | 6 => s.co
  | 7 => b2n s.hi
  | 8 => vp
  | 9 => t.nx
  | 10 => t.ny
  | 11 => t.nz
  | 12 => t.nt
  | _ => t.seq

/-- GETID (R123). -/
def execGetid (o : OpW2) (s : State) : Host.Outcome State Fault Refusal :=
  putG o.d (fun s => word (s.ident o.val.toNat 0)) s
/-- CAPS (R124). -/
def execCaps (d : BitVec 6) (s : State) : Host.Outcome State Fault Refusal := putG d (fun s => s.caps) s
/-- VEND reached by the control thread (R116, R118): the instruction that ends a VP block stands outside one. -/
def execVend (s : State) : Host.Outcome State Fault Refusal := finish (.error (.trap (Trap.ill 0x05) s))

end Sys2Proof.Machine
end

