-- ==== Sys2Proof/Machine/VecInt.lean ====
section
/-! DEFINITION. Vector length and type, the ramp, integer arithmetic, compares, mask logic, moves, integer reductions, scans,
sorts and runs: the forms of majors 0x20 to 0x2C that no floating-point rule touches (R136 to R139, R145 to R151, R154,
R155). -/

namespace Sys2Proof.Machine

/-! ## VSETL, VSETT (R136, R137) -/

/-- VSETL with a g register (R136). -/
def execVsetl (o : OpA2) (s : State) : Host.Outcome State Fault Refusal :=
  commit s (fun s =>
    let n := min (s.g o.a).toNat (vtVlmax s.slot.vtype)
    .ok ((s.modSlot (fun x => { x with vl := n })).setG o.d (word n)))

/-- VSETL with a length queue (R136): it pops in queue order, and commit waits for the count (R133). -/
def execVsetlLq (o : OpA2) (s : State) : Host.Outcome State Fault Refusal :=
  commit s (fun s => do
    let t ← popOcc s [o.a.toNat] s
    if 256 ≤ s.core.queue.length then .error (.stall s)
    else match s.core.f.lq[o.a.toNat]?.getD [] with
    | [] => .error s.waitHere
    | x :: xs =>
      if s.olderDone none [] [.lq o.a.toNat] then
        let n := min x (vtVlmax s.slot.vtype)
        let t := (t.modF (fun f => { f with lq := f.lq.setIfInBounds o.a.toNat xs })).takePos
        pure ((t.modSlot (fun x => { x with vl := n })).setG o.d (word n))
      else .error s.waitHere)

/-- Block lengths that R22 reserves. -/
def blkBad (b : Nat) : Bool := !(b == 0 || b == 4 || b == 5 || b == 6)
/-- VTYPE images that VSETT rejects (R51, R137). -/
def vtypeBad (t : Word) : Bool :=
  fld t 2 4 != 0 || 0xD ≤ vtFmt t || fmtWidth (vtFmt t) != vtSew t || blkBad (vtBlkA t) || blkBad (vtBlkB t)
    || 5 ≤ vtRm t || vtPln t < 2 || 8 < vtPln t

/-- VSETT (R137). -/
def execVsett (o : OpW4) (s : State) : Host.Outcome State Fault Refusal :=
  let t : Word := o.imm.setWidth 64
  commit s (fun s => do
    need (!vtypeBad t) (Trap.ill 0x04) s
    let mx := vtVlmax t
    pure ((s.modSlot (fun x => { x with vtype := t, vl := min x.vl mx })).setG o.d (word mx)))

/-! ## Element-wise forms -/

/-- The ticket of a T4V form of the vector unit: B read as a scalar under X = 1 at commit. -/
def v4Ticket (o : OpV4) (i : Instr) (s : State) (wr : List Res) : Ticket :=
  { eng := .vec, ins := i, lens := [o.len], gb := if o.x then s.g o.b else 0,
    rd := [.v o.a.toNat, .v o.b.toNat, .v o.c.toNat, .m o.msk.toNat], wr := wr }

/-- The effect of a vector form over n positions at the captured SEW: the length is settled and noted, then `f` gives the
state. -/
def vecEff (len msk : BitVec 3) (f : Nat → Nat → MReg → Run1) : Run1 := whole (fun c s =>
  let w := vtSew c.vtype
  let n := c.len len (vlmax w)
  let m := s.mreg msk.toNat
  f w n m c (s.note c n (active m n)))

/-- An element-wise form: width, then the operand elements, give each lane's result and flags. -/
def laneEff (o : OpV4) (f : Cmd → Nat → Nat → Nat → Nat × Nat) : Run1 := vecEff o.len o.msk (fun w n m c s =>
  let ab := v4Lanes o c s w n
  .ok (s.putLanes c o.d.toNat w m n (fun i => f c w (ab.1 i) (ab.2 i))))

/-- A T4V form that writes vD: what it enqueues. -/
def vecForm (o : OpV4) (i : Instr) (eff : Run1) (s : State) : Host.Outcome State Fault Refusal :=
  engine (v4Ticket o i s [.v o.d.toNat]) eff s

/-- An element-wise integer form: no flag (R139). -/
def intEff (o : OpV4) (f : Nat → Nat → Nat → Nat) : Run1 := laneEff o (fun _ w a b => (f w a b, 0))

/-- .U: OP[5] on major 0x23 (R81). -/
def v4Uns (o : OpV4) : Bool := flag o.opx 1
/-- The value of a w-bit element, signed or unsigned. -/
def valOf (uns : Bool) (w a : Nat) : Int := if uns then (a : Int) else sgn w a
/-- A value clamped to the range of a w-bit integer (R139). -/
def clampTo (uns : Bool) (w : Nat) (v : Int) : Nat :=
  let lo : Int := if uns then 0 else -((2 ^ (w - 1) : Nat) : Int)
  let hi : Int := if uns then ((2 ^ w : Nat) : Int) - 1 else ((2 ^ (w - 1) : Nat) : Int) - 1
  unsgn w (max lo (min hi v))
/-- The shift amount b[log2(SEW) − 1 : 0]. -/
def shAmt (w b : Nat) : Nat := b % w
/-- VSRA on a w-bit element. -/
def sraW (w a b : Nat) : Nat := unsgn w (sgn w a / ((2 ^ shAmt w b : Nat) : Int))
/-- The smaller element. -/
def minOf (uns : Bool) (w a b : Nat) : Nat := if valOf uns w b < valOf uns w a then b else a
/-- The larger element. -/
def maxOf (uns : Bool) (w a b : Nat) : Nat := if valOf uns w a < valOf uns w b then b else a

/-- VADD (R139): its effect. -/
def effVadd (o : OpV4) : Run1 := intEff o (fun _ a b => a + b)
/-- VADD (R139). -/
def execVadd (o : OpV4) (s : State) : Host.Outcome State Fault Refusal := vecForm o (.vadd o) (effVadd o) s
/-- VSUB (R139): its effect. -/
def effVsub (o : OpV4) : Run1 := intEff o (fun w a b => a + 2 ^ w - b)
/-- VSUB (R139). -/
def execVsub (o : OpV4) (s : State) : Host.Outcome State Fault Refusal := vecForm o (.vsub o) (effVsub o) s
/-- VMUL (R139): its effect. -/
def effVmul (o : OpV4) : Run1 := intEff o (fun _ a b => a * b)
/-- VMUL (R139). -/
def execVmul (o : OpV4) (s : State) : Host.Outcome State Fault Refusal := vecForm o (.vmul o) (effVmul o) s
/-- VAND (R139): its effect. -/
def effVand (o : OpV4) : Run1 := intEff o (fun _ a b => a &&& b)
/-- VAND (R139). -/
def execVand (o : OpV4) (s : State) : Host.Outcome State Fault Refusal := vecForm o (.vand o) (effVand o) s
/-- VOR (R139): its effect. -/
def effVor (o : OpV4) : Run1 := intEff o (fun _ a b => a ||| b)
/-- VOR (R139). -/
def execVor (o : OpV4) (s : State) : Host.Outcome State Fault Refusal := vecForm o (.vor o) (effVor o) s
/-- VXOR (R139): its effect. -/
def effVxor (o : OpV4) : Run1 := intEff o (fun _ a b => a ^^^ b)
/-- VXOR (R139). -/
def execVxor (o : OpV4) (s : State) : Host.Outcome State Fault Refusal := vecForm o (.vxor o) (effVxor o) s
/-- VSLL (R139): its effect. -/
def effVsll (o : OpV4) : Run1 := intEff o (fun w a b => a <<< shAmt w b)
/-- VSLL (R139). -/
def execVsll (o : OpV4) (s : State) : Host.Outcome State Fault Refusal := vecForm o (.vsll o) (effVsll o) s
/-- VSRL (R139): its effect. -/
def effVsrl (o : OpV4) : Run1 := intEff o (fun w a b => a >>> shAmt w b)
/-- VSRL (R139). -/
def execVsrl (o : OpV4) (s : State) : Host.Outcome State Fault Refusal := vecForm o (.vsrl o) (effVsrl o) s
/-- VSRA (R139): its effect. -/
def effVsra (o : OpV4) : Run1 := intEff o sraW
/-- VSRA (R139). -/
def execVsra (o : OpV4) (s : State) : Host.Outcome State Fault Refusal := vecForm o (.vsra o) (effVsra o) s
/-- VMIN (R139): its effect. -/
def effVmin (o : OpV4) : Run1 := intEff o (minOf (v4Uns o))
/-- VMIN (R139). -/
def execVmin (o : OpV4) (s : State) : Host.Outcome State Fault Refusal := vecForm o (.vmin o) (effVmin o) s
/-- VMAX (R139): its effect. -/
def effVmax (o : OpV4) : Run1 := intEff o (maxOf (v4Uns o))
/-- VMAX (R139). -/
def execVmax (o : OpV4) (s : State) : Host.Outcome State Fault Refusal := vecForm o (.vmax o) (effVmax o) s
/-- VSADD (R139): its effect. -/
def effVsadd (o : OpV4) : Run1 := intEff o (fun w a b => clampTo (v4Uns o) w (valOf (v4Uns o) w a + valOf (v4Uns o) w b))
/-- VSADD (R139). -/
def execVsadd (o : OpV4) (s : State) : Host.Outcome State Fault Refusal := vecForm o (.vsadd o) (effVsadd o) s
/-- VSSUB (R139): its effect. -/
def effVssub (o : OpV4) : Run1 := intEff o (fun w a b => clampTo (v4Uns o) w (valOf (v4Uns o) w a - valOf (v4Uns o) w b))
/-- VSSUB (R139). -/
def execVssub (o : OpV4) (s : State) : Host.Outcome State Fault Refusal := vecForm o (.vssub o) (effVssub o) s

/-! ## The ramp (R138) -/

/-- VIDX (R138): its effect. -/
def effVidx (o : OpI8) : Run1 := vecEff o.len o.msk (fun w n m c s =>
  .ok (s.putLanes c o.d.toNat w m n (fun i => (unsgn w (o.start.toInt + i * o.step.toInt), 0))))
/-- VIDX (R138). -/
def execVidx (o : OpI8) (s : State) : Host.Outcome State Fault Refusal :=
  engine { eng := .vec, ins := .vidx o, lens := [o.len], rd := [.m o.msk.toNat], wr := [.v o.d.toNat] } (effVidx o) s

/-! ## Compares and mask logic (R145 to R147) -/

/-- A compare: bit i of mD for each active i, the flags of the active lanes, clear elsewhere (R48, R145). -/
def cmpEff (o : OpV4) (f : Cmd → Nat → Nat → Nat → Bool × Nat) : Run1 := vecEff o.len o.msk (fun w n m c s =>
  let ab := v4Lanes o c s w n
  let r := fun i => f c w (ab.1 i) (ab.2 i)
  .ok ((s.setM o.d.toNat (maskOf n (fun i => flag m i && (r i).1))).raise c (orFlags m (fun i => (r i).2) n)))
/-- An integer compare by its code (R145). -/
def icmpEff (o : OpV4) (code : Nat) : Run1 :=
  cmpEff o (fun _ w a b => (cmpHolds code (BitVec.ofNat w a) (BitVec.ofNat w b), 0))
/-- What a compare enqueues. -/
def cmpForm (o : OpV4) (i : Instr) (eff : Run1) (s : State) : Host.Outcome State Fault Refusal :=
  engine (v4Ticket o i s [.m o.d.toNat]) eff s
/-- VCMP.EQ (R145): its effect. -/
def effVcmpEq (o : OpV4) : Run1 := icmpEff o 0
/-- VCMP.EQ (R145). -/
def execVcmpEq (o : OpV4) (s : State) : Host.Outcome State Fault Refusal := cmpForm o (.vcmpEq o) (effVcmpEq o) s
/-- VCMP.NE (R145): its effect. -/
def effVcmpNe (o : OpV4) : Run1 := icmpEff o 1
/-- VCMP.NE (R145). -/
def execVcmpNe (o : OpV4) (s : State) : Host.Outcome State Fault Refusal := cmpForm o (.vcmpNe o) (effVcmpNe o) s
/-- VCMP.LT (R145): its effect. -/
def effVcmpLt (o : OpV4) : Run1 := icmpEff o 2
/-- VCMP.LT (R145). -/
def execVcmpLt (o : OpV4) (s : State) : Host.Outcome State Fault Refusal := cmpForm o (.vcmpLt o) (effVcmpLt o) s
/-- VCMP.GE (R145): its effect. -/
def effVcmpGe (o : OpV4) : Run1 := icmpEff o 3
/-- VCMP.GE (R145). -/
def execVcmpGe (o : OpV4) (s : State) : Host.Outcome State Fault Refusal := cmpForm o (.vcmpGe o) (effVcmpGe o) s
/-- VCMP.LTU (R145): its effect. -/
def effVcmpLtu (o : OpV4) : Run1 := icmpEff o 4
/-- VCMP.LTU (R145). -/
def execVcmpLtu (o : OpV4) (s : State) : Host.Outcome State Fault Refusal := cmpForm o (.vcmpLtu o) (effVcmpLtu o) s
/-- VCMP.GEU (R145): its effect. -/
def effVcmpGeu (o : OpV4) : Run1 := icmpEff o 5
/-- VCMP.GEU (R145). -/
def execVcmpGeu (o : OpV4) (s : State) : Host.Outcome State Fault Refusal := cmpForm o (.vcmpGeu o) (effVcmpGeu o) s

/-- Mask logic over VL positions (R146). -/
def maskEff (o : OpA2) (f : Bool → Bool → Bool) : Run1 := whole (fun c s =>
  let a := s.mreg o.a.toNat
  let b := s.mreg o.b.toNat
  .ok ((s.note c c.vl c.vl).setM o.d.toNat (maskOf c.vl (fun i => f (flag a i) (flag b i)))))
/-- What a mask form enqueues. -/
def maskForm (o : OpA2) (i : Instr) (eff : Run1) (s : State) : Host.Outcome State Fault Refusal :=
  engine { eng := .vec, ins := i, rd := [.m o.a.toNat, .m o.b.toNat], wr := [.m o.d.toNat] } eff s
/-- MAND (R146): its effect. -/
def effMand (o : OpA2) : Run1 := maskEff o (fun a b => a && b)
/-- MAND (R146). -/
def execMand (o : OpA2) (s : State) : Host.Outcome State Fault Refusal := maskForm o (.mand o) (effMand o) s
/-- MOR (R146): its effect. -/
def effMor (o : OpA2) : Run1 := maskEff o (fun a b => a || b)
/-- MOR (R146). -/
def execMor (o : OpA2) (s : State) : Host.Outcome State Fault Refusal := maskForm o (.mor o) (effMor o) s
/-- MXOR (R146): its effect. -/
def effMxor (o : OpA2) : Run1 := maskEff o (fun a b => xor a b)
/-- MXOR (R146). -/
def execMxor (o : OpA2) (s : State) : Host.Outcome State Fault Refusal := maskForm o (.mxor o) (effMxor o) s
/-- MANDN (R146): its effect. -/
def effMandn (o : OpA2) : Run1 := maskEff o (fun a b => a && !b)
/-- MANDN (R146). -/
def execMandn (o : OpA2) (s : State) : Host.Outcome State Fault Refusal := maskForm o (.mandn o) (effMandn o) s

/-- MPOPC to a length queue (R147): its effect. -/
def effMpopcLq (o : OpA2) : Run1 := whole (fun c s =>
  let n := active (s.mreg o.a.toNat) c.vl
  .ok ((s.note c c.vl c.vl).modF (fun f =>
    { f with lq := f.lq.setIfInBounds o.d.toNat ((f.lq[o.d.toNat]?.getD []) ++ [n]) })))
/-- MPOPC to a length queue (R147): the occupancy is checked at commit. -/
def execMpopcLq (o : OpA2) (s : State) : Host.Outcome State Fault Refusal :=
  engine { eng := .vec, ins := .mpopcLq o, push := some o.d.toNat, rd := [.m o.a.toNat] } (effMpopcLq o) s

/-- A form of the vector unit that returns a value to gD (R133). -/
def returning (i : Instr) (d : BitVec 6) (rd : List Res) (s : State) (f : State → M Word) :
    Host.Outcome State Fault Refusal :=
  returnForm .vec i rd [] s (fun s => do let v ← f s; pure (s.setG d v))

/-- MPOPC to a g register (R147). -/
def execMpopcG (o : OpA2) (s : State) : Host.Outcome State Fault Refusal :=
  returning (.mpopcG o) o.d [.m o.a.toNat] s (fun s => .ok (word (active (s.mreg o.a.toNat) s.slot.vl)))

/-- VMVX (R150): the index is checked at commit. -/
def vmvx (i : Instr) (o : OpA2) (uns : Bool) (s : State) : Host.Outcome State Fault Refusal :=
  let w := vtSew s.slot.vtype
  let k := (s.g o.b).toNat
  if vlmax w ≤ k then finish (.error (.trap (Trap.opnd 0x04) s))
  else returning i o.d [.v o.a.toNat] s (fun s =>
    let x := elem (s.vreg o.a.toNat) w k
    .ok (if uns then word x else sextW w x))
/-- VMVX (R150). -/
def execVmvx (o : OpA2) (s : State) : Host.Outcome State Fault Refusal := vmvx (.vmvx o) o false s
/-- VMVX.U (R150). -/
def execVmvxU (o : OpA2) (s : State) : Host.Outcome State Fault Refusal := vmvx (.vmvxU o) o true s

/-! ## Moving elements (R148, R149) -/

/-- A move: D's elements below n where `f` answers a source element. -/
def moveEff (o : OpV4) (f : Cmd → State → Nat → Nat → MReg → Nat → Option Nat) : Run1 :=
  vecEff o.len o.msk (fun w n m c s => .ok (s.setV o.d.toNat (mapElems (s.vreg o.d.toNat) w (f c s w n m) n)))
/-- VCOMP (R148): its effect. -/
def effVcomp (o : OpV4) : Run1 := moveEff o (fun _ s w n m i => ((actives m n)[i]?).map (elem (s.vreg o.a.toNat) w))
/-- VCOMP (R148). -/
def execVcomp (o : OpV4) (s : State) : Host.Outcome State Fault Refusal := vecForm o (.vcomp o) (effVcomp o) s
/-- VEXPD (R148): its effect. -/
def effVexpd (o : OpV4) : Run1 := moveEff o (fun _ s w _ m i => if flag m i then some (elem (s.vreg o.a.toNat) w (active m i)) else none)
/-- VEXPD (R148). -/
def execVexpd (o : OpV4) (s : State) : Host.Outcome State Fault Refusal := vecForm o (.vexpd o) (effVexpd o) s
/-- VSLUP (R148): its effect. -/
def effVslup (o : OpV4) : Run1 := moveEff o (fun c s w _ m i =>
  if flag m i && decide (c.gb.toNat ≤ i) then some (elem (s.vreg o.a.toNat) w (i - c.gb.toNat)) else none)
/-- VSLUP (R148). -/
def execVslup (o : OpV4) (s : State) : Host.Outcome State Fault Refusal := vecForm o (.vslup o) (effVslup o) s
/-- VSLDN (R148): its effect. -/
def effVsldn (o : OpV4) : Run1 := moveEff o (fun c s w n m i =>
  if flag m i then some (if i + c.gb.toNat < n then elem (s.vreg o.a.toNat) w (i + c.gb.toNat) else 0) else none)
/-- VSLDN (R148). -/
def execVsldn (o : OpV4) (s : State) : Host.Outcome State Fault Refusal := vecForm o (.vsldn o) (effVsldn o) s
/-- VSHUF (R148): its effect. -/
def effVshuf (o : OpV4) : Run1 := moveEff o (fun c s w n m i =>
  let j := if o.x then c.gb.toNat else elem (s.vreg o.b.toNat) w i
  if flag m i then some (if j < n then elem (s.vreg o.a.toNat) w j else 0) else none)
/-- VSHUF (R148). -/
def execVshuf (o : OpV4) (s : State) : Host.Outcome State Fault Refusal := vecForm o (.vshuf o) (effVshuf o) s
/-- VMERGE (R148): its effect. -/
def effVmerge (o : OpV4) : Run1 := moveEff o (fun c s w _ m i =>
  some (if flag m i then (if o.x then c.gb.toNat else elem (s.vreg o.b.toNat) w i) else elem (s.vreg o.a.toNat) w i))
/-- VMERGE (R148). -/
def execVmerge (o : OpV4) (s : State) : Host.Outcome State Fault Refusal := vecForm o (.vmerge o) (effVmerge o) s
/-- A b-bit number rotated left by s (R149). -/
def rotl (b i s : Nat) : Nat := if b = 0 then i else (i <<< (s % b) ||| i >>> (b - s % b)) % 2 ^ b
/-- VSPERM (R149): its effect. -/
def effVsperm (o : OpV4) : Run1 := vecEff o.len o.msk (fun w n m c s => do
  need (decide (0 < n) && 2 ^ ilog2 n == n) (Trap.opndAt 0x05 n) s
  let a := s.vreg o.a.toNat
  let b := ilog2 n
  pure (s.putLanes c o.d.toNat w m n (fun i => (elem a w (rotl b i (c.gb.toNat % b)), 0))))
/-- VSPERM (R149). -/
def execVsperm (o : OpV4) (s : State) : Host.Outcome State Fault Refusal := vecForm o (.vsperm o) (effVsperm o) s

/-! ## Integer reductions (R151) -/

/-- A start operand: element 0 of vC under .S (R151). -/
def v4Start (o : OpV4) (s : State) (w : Nat) : Option Nat :=
  if flag o.opx 1 then some (elem (s.vreg o.c.toNat) w 0) else none
/-- An integer reduction: element 0 of vD, whatever its mask bit; with VL = 0 nothing is written (R131, R151). -/
def redEff (o : OpV4) (f : Nat → Nat → Nat → Nat) : Run1 := vecEff o.len o.msk (fun w n m _ s =>
  let a := s.vreg o.a.toNat
  let xs := (v4Start o s w).toList ++ (actives m n).map (elem a w)
  let r := match xs with
    | [] => 0
    | x :: r => r.foldl (f w) x
  .ok (if n = 0 then s else s.setV o.d.toNat (setElem (s.vreg o.d.toNat) w 0 r)))
/-- VREDSUM (R151): its effect. -/
def effVredsum (o : OpV4) : Run1 := redEff o (fun _ a b => a + b)
/-- VREDSUM (R151). -/
def execVredsum (o : OpV4) (s : State) : Host.Outcome State Fault Refusal := vecForm o (.vredsum o) (effVredsum o) s
/-- VREDMAX (R151): its effect. -/
def effVredmax (o : OpV4) : Run1 := redEff o (maxOf (flag o.opx 0))
/-- VREDMAX (R151). -/
def execVredmax (o : OpV4) (s : State) : Host.Outcome State Fault Refusal := vecForm o (.vredmax o) (effVredmax o) s
/-- VREDMIN (R151): its effect. -/
def effVredmin (o : OpV4) : Run1 := redEff o (minOf (flag o.opx 0))
/-- VREDMIN (R151). -/
def execVredmin (o : OpV4) (s : State) : Host.Outcome State Fault Refusal := vecForm o (.vredmin o) (effVredmin o) s

/-! ## Sorts and runs (R154, R155) -/

/-- Stable insertion of a key with its position: after every key that is not larger. -/
def insKey (x : Nat × Nat) : List (Nat × Nat) → List (Nat × Nat)
  | [] => [x]
  | y :: r => if x.1 < y.1 then x :: y :: r else y :: insKey x r
/-- The active keys with their positions, in stable ascending order (R154). -/
def sortKeys (a : VReg) (w : Nat) (ps : List Nat) : List (Nat × Nat) :=
  ps.foldl (fun acc p => insKey (elem a w p, p) acc) []
/-- VSORTK and VSORTK.P (R154). -/
def sortEff (o : OpV4) (pay : Bool) : Run1 := vecEff o.len o.msk (fun w n m _ s =>
  let k := sortKeys (s.vreg o.a.toNat) w (actives m n)
  let b := s.vreg o.b.toNat
  let t := s.setV o.d.toNat (mapElems (s.vreg o.d.toNat) w (fun i => (k[i]?).map (·.1)) n)
  .ok (if pay then t.setV o.c.toNat (mapElems (s.vreg o.c.toNat) w (fun i => (k[i]?).map (fun e => elem b w e.2)) n) else t))
/-- VSORTK (R154): its effect. -/
def effVsortk (o : OpV4) : Run1 := sortEff o false
/-- VSORTK (R154). -/
def execVsortk (o : OpV4) (s : State) : Host.Outcome State Fault Refusal := vecForm o (.vsortk o) (effVsortk o) s
/-- VSORTK.P (R154): its effect. -/
def effVsortkP (o : OpV4) : Run1 := sortEff o true
/-- VSORTK.P (R154). -/
def execVsortkP (o : OpV4) (s : State) : Host.Outcome State Fault Refusal :=
  engine (v4Ticket o (.vsortkP o) s [.v o.d.toNat, .v o.c.toNat]) (effVsortkP o) s

/-- The heads of runs of equal keys, in the order of the active positions (R155). -/
def runHeads (a : VReg) (w : Nat) : Option Nat → List Nat → List Nat
  | _, [] => []
  | prev, p :: r =>
    let x := elem a w p
    if prev = some x then runHeads a w prev r else p :: runHeads a w (some x) r
/-- VUNIQ (R155): its effect. -/
def effVuniq (o : OpV4) : Run1 := vecEff o.len o.msk (fun w n m _ s =>
  let a := s.vreg o.a.toNat
  let hs := runHeads a w none (actives m n)
  .ok ((s.setV o.d.toNat (mapElems (s.vreg o.d.toNat) w (fun i => (hs[i]?).map (elem a w)) n)).setM o.c.toNat
    (maskOf n (fun i => hs.contains i))))
/-- VUNIQ (R155). -/
def execVuniq (o : OpV4) (s : State) : Host.Outcome State Fault Refusal :=
  engine (v4Ticket o (.vuniq o) s [.v o.d.toNat, .m o.c.toNat]) (effVuniq o) s

end Sys2Proof.Machine
end

