-- ==== Sys2Proof/Machine/VpBlock.lean ====
section
/-! DEFINITION. Virtual-processor blocks (R57, R116 to R121): VFETCH, the lane instructions, the groups and their turns. -/

namespace Sys2Proof.Machine

/-- A register form of a lane: its fields, whether its operands are zero-extended, its 64-bit operation (R118). -/
def laneReg : Instr → Option (OpA2 × Bool × (Word → Word → Word))
  | .add o => some (o, false, (· + ·))
  | .sub o => some (o, false, (· - ·))
  | .and_ o => some (o, false, (· &&& ·))
  | .or_ o => some (o, false, (· ||| ·))
  | .xor_ o => some (o, false, (· ^^^ ·))
  | .sll o => some (o, false, aluSll)
  | .srl o => some (o, true, aluSrl)
  | .sra o => some (o, false, aluSra)
  | .slt o => some (o, false, aluSlt)
  | .sltu o => some (o, true, aluSltu)
  | .min o => some (o, false, aluMin)
  | .max o => some (o, false, aluMax)
  | .mul o => some (o, false, (· * ·))
  | .mulh o => some (o, false, aluMulh)
  | .mulhu o => some (o, false, aluMulhu)
  | .div o => some (o, false, aluDiv)
  | .divu o => some (o, true, aluDivu)
  | .rem o => some (o, false, aluRem)
  | .remu o => some (o, true, aluRemu)
  | .clz o => some (o, false, (fun a _ => aluClz a))
  | .ctz o => some (o, false, (fun a _ => aluCtz a))
  | .popc o => some (o, false, (fun a _ => aluPopc a))
  | _ => none
/-- An immediate form of a lane. -/
def laneImm : Instr → Option (OpI4 × Bool × (Word → Word → Word))
  | .addi o => some (o, false, (· + ·))
  | .andi o => some (o, false, (· &&& ·))
  | .ori o => some (o, false, (· ||| ·))
  | .xori o => some (o, false, (· ^^^ ·))
  | .slli o => some (o, false, aluSll)
  | .srli o => some (o, true, aluSrl)
  | .srai o => some (o, false, aluSra)
  | .slti o => some (o, false, aluSlt)
  | _ => none
/-- A branch of a lane and its comparison. -/
def laneBranch : Instr → Option (OpB4 × Nat)
  | .bEq o => some (o, 0)
  | .bNe o => some (o, 1)
  | .bLt o => some (o, 2)
  | .bGe o => some (o, 3)
  | .bLtu o => some (o, 4)
  | .bGeu o => some (o, 5)
  | _ => none

/-- The same instruction with its register fields cut to 0 to 31, whose reserved fields are those of the control thread
(R117). -/
def loRegs : Instr → Instr
  | .add o => .add ⟨o.d &&& 31, o.a &&& 31, o.b &&& 31⟩
  | .sub o => .sub ⟨o.d &&& 31, o.a &&& 31, o.b &&& 31⟩
  | .and_ o => .and_ ⟨o.d &&& 31, o.a &&& 31, o.b &&& 31⟩
  | .or_ o => .or_ ⟨o.d &&& 31, o.a &&& 31, o.b &&& 31⟩
  | .xor_ o => .xor_ ⟨o.d &&& 31, o.a &&& 31, o.b &&& 31⟩
  | .sll o => .sll ⟨o.d &&& 31, o.a &&& 31, o.b &&& 31⟩
  | .srl o => .srl ⟨o.d &&& 31, o.a &&& 31, o.b &&& 31⟩
  | .sra o => .sra ⟨o.d &&& 31, o.a &&& 31, o.b &&& 31⟩
  | .slt o => .slt ⟨o.d &&& 31, o.a &&& 31, o.b &&& 31⟩
  | .sltu o => .sltu ⟨o.d &&& 31, o.a &&& 31, o.b &&& 31⟩
  | .min o => .min ⟨o.d &&& 31, o.a &&& 31, o.b &&& 31⟩
  | .max o => .max ⟨o.d &&& 31, o.a &&& 31, o.b &&& 31⟩
  | .mul o => .mul ⟨o.d &&& 31, o.a &&& 31, o.b &&& 31⟩
  | .mulh o => .mulh ⟨o.d &&& 31, o.a &&& 31, o.b &&& 31⟩
  | .mulhu o => .mulhu ⟨o.d &&& 31, o.a &&& 31, o.b &&& 31⟩
  | .div o => .div ⟨o.d &&& 31, o.a &&& 31, o.b &&& 31⟩
  | .divu o => .divu ⟨o.d &&& 31, o.a &&& 31, o.b &&& 31⟩
  | .rem o => .rem ⟨o.d &&& 31, o.a &&& 31, o.b &&& 31⟩
  | .remu o => .remu ⟨o.d &&& 31, o.a &&& 31, o.b &&& 31⟩
  | .clz o => .clz ⟨o.d &&& 31, o.a &&& 31, o.b⟩
  | .ctz o => .ctz ⟨o.d &&& 31, o.a &&& 31, o.b⟩
  | .popc o => .popc ⟨o.d &&& 31, o.a &&& 31, o.b⟩
  | .addi o => .addi ⟨o.d &&& 31, o.a &&& 31, o.imm⟩
  | .andi o => .andi ⟨o.d &&& 31, o.a &&& 31, o.imm⟩
  | .ori o => .ori ⟨o.d &&& 31, o.a &&& 31, o.imm⟩
  | .xori o => .xori ⟨o.d &&& 31, o.a &&& 31, o.imm⟩
  | .slli o => .slli ⟨o.d &&& 31, o.a &&& 31, o.imm⟩
  | .srli o => .srli ⟨o.d &&& 31, o.a &&& 31, o.imm⟩
  | .srai o => .srai ⟨o.d &&& 31, o.a &&& 31, o.imm⟩
  | .slti o => .slti ⟨o.d &&& 31, o.a &&& 31, o.imm⟩
  | .sel o => .sel { o with d := o.d &&& 31, a := o.a &&& 31, b := o.b &&& 31, c := o.c &&& 31 }
  | .limmT4w o => .limmT4w { o with d := o.d &&& 31 }
  | .limmT8w o => .limmT8w { o with d := o.d &&& 31 }
  | .ld o => .ld { o with d := o.d &&& 31 }
  | .st o => .st { o with d := o.d &&& 31 }
  | .getid o => if o.val = 8 then .getid ⟨0, 0⟩ else .getid { o with d := o.d &&& 31 }
  | i => i

/-- The destination field of a lane instruction that writes a register (R117). -/
def laneDest (i : Instr) : Option (BitVec 6) :=
  match laneReg i, laneImm i, i with
  | some r, _, _ => some r.1.d
  | _, some r, _ => some r.1.d
  | _, _, .sel o => some o.d
  | _, _, .limmT4w o => some o.d
  | _, _, .limmT8w o => some o.d
  | _, _, .ld o => some o.d
  | _, _, .getid o => some o.d
  | _, _, _ => none
/-- The forms that a VP block permits (R118). -/
def laneOk (i : Instr) : Bool :=
  (laneReg i).isSome || (laneImm i).isSome || (laneBranch i).isSome ||
    (match i with
     | .sel _ => true | .limmT4w _ => true | .limmT8w _ => true | .getid _ => true | .nop => true | .vend => true
     | .jmp _ => true | .ld o => o.spc != 0#3 | .st o => o.spc != 0#3 | _ => false)

/-- The decoded lane instruction at an address of a line, or the trap of R74 and R118. -/
def laneIns (l : Line) (a : Word) : Except Trap Instr :=
  match lineSlot l (slotOf a) with
  | .overlaps => .error (Trap.line 0x01)
  | .none => .error (Trap.line (if lineSlot l 0 = .none then 0x03 else 0x02))
  | .ins h t =>
    if majNotInBlock (headMaj h).toNat then .error (Trap.ill 0x05)
    else match decodeLane h t with
    | .error r => .error (Trap.ill r.sub.toNat)
    | .ok i =>
      if !laneOk i then .error (Trap.ill 0x05)
      else match (loRegs i).defect with
      | some r => .error (Trap.ill r.sub.toNat)
      | none =>
        if (match laneDest i with | some d => decide (d.toNat < 32) | none => true) then .ok i
        else .error (Trap.ill 0x05)

/-- A 6-bit register field of VP i: a lane register, or a g register of the snapshot cut to SEW (R117, R118). -/
def VpBlock.read (b : VpBlock) (snap : Vector Word 32) (sew i n : Nat) : Nat :=
  if n < 32 then elem (b.work[n]?.getD 0) sew i else if n = 32 then 0 else (snap[n - 32]?.getD 0).toNat % 2 ^ sew
/-- A write of lane register n of VP i. -/
def VpBlock.write (b : VpBlock) (sew i n x : Nat) : VpBlock :=
  { b with work := b.work.setIfInBounds n (setElem (b.work[n]?.getD 0) sew i x) }
/-- An operand extended from SEW bits. -/
def laneExt (z : Bool) (sew x : Nat) : Word := if z then word x else sextW sew x

/-- A line of the block: one it has fetched, or a translated fetch; a fault names the line and the lowest VP (R394). -/
def State.blockLine (s : State) (b : VpBlock) (a : Word) (vp : Nat) : M (Line × VpBlock × State) :=
  let la := lineOf a
  match look la b.lines with
  | some l => .ok (l, b, s)
  | none =>
    match s.xlate la .fx .fetch with
    | .error (.trap t s) => .error (.trap { t with d0 := word la, d1 := word vp, d2 := 0 } s)
    | .error e => .error e
    | .ok (.mem loc, s) =>
      let l := BitVec.ofNat 512 (s.newestRead loc 64)
      .ok (l, { b with lines := (la, l) :: b.lines }, s)
    | .ok (_, s) => .error (.trap { Trap.perm 0x06 with d0 := word la, d1 := word vp } s)

/-- What one VP does with a lane instruction: the block and state after it, and where the VP stands (none: parked). -/
def lane1 (c : Cmd) (snap : Vector Word 32) (i : Instr) (a next : Word) (vp : Nat) (b : VpBlock) (s : State) :
    M (VpBlock × State) :=
  let sew := vtSew c.vtype
  let rd := fun n => b.read snap sew vp n
  let go := fun (b : VpBlock) (s : State) (pc : Option Nat) => (({ b with pcs := setNth pc b.pcs vp }, s) : VpBlock × State)
  let put := fun (d : BitVec 6) (x : Word) => (.ok (go (b.write sew vp d.toNat x.toNat) s (some next.toNat)) : M (VpBlock × State))
  let jump := fun (target : Word) => (do
    let (l, b, s) ← s.blockLine b target vp
    match lineSlot l (slotOf target) with
    | .ins _ _ => pure (go b s (some target.toNat))
    | .overlaps => .error (.trap (Trap.line 0x01) s)
    | .none => .error (.trap (Trap.line (if lineSlot l 0 = .none then 0x03 else 0x02)) s) : M (VpBlock × State))
  match laneReg i, laneImm i, laneBranch i, i with
  | some (o, z, f), _, _, _ => put o.d (f (laneExt z sew (rd o.a.toNat)) (laneExt z sew (rd o.b.toNat)))
  | _, some (o, z, f), _, _ => put o.d (f (laneExt z sew (rd o.a.toNat)) (o.imm.signExtend 64))
  | _, _, some (o, code), _ =>
    if cmpHolds code (sextW sew (rd o.a.toNat)) (sextW sew (rd o.b.toNat)) then jump (lineTarget a o.loff o.slot)
    else .ok (go b s (some next.toNat))
  | _, _, _, .sel o =>
    put o.d (if rd o.c.toNat ≠ 0 then word (rd o.a.toNat) else word (rd o.b.toNat))
  | _, _, _, .limmT4w o => put o.d (o.imm.signExtend 64)
  | _, _, _, .limmT8w o => put o.d o.imm
  | _, _, _, .getid o => put o.d (word (s.ident o.val.toNat vp))
  | _, _, _, .jmp o => jump (lineTarget a o.loff o.slot)
  | _, _, _, .vend => .ok (go b s none)
  | _, _, _, .ld o => do
    let n := 2 ^ (o.wid.toNat % 4)
    let ea := (word (rd o.base.toNat) + o.off.signExtend 64).toNat
    let (p, s) ← s.access o.spc.toNat ea n n .rd
    let (x, s) ← s.readSpot p n
    pure (go (b.write sew vp o.d.toNat (if o.wid.toNat < 4 then (sextW (8 * n) x).toNat else x)) s (some next.toNat))
  | _, _, _, .st o => do
    let n := 2 ^ (o.wid.toNat % 4)
    let ea := (word (rd o.base.toNat) + o.off.signExtend 64).toNat
    let (p, s) ← s.access o.spc.toNat ea n n .wr
    pure (go b (s.writeSpot p (rd o.d.toNat) n) (some next.toNat))
  | _, _, _, _ => .ok (go b s (some next.toNat))

/-- The block as it stands is kept with the command (R121, R378). -/
def State.keepBlock (s : State) (c : Cmd) (b : Option VpBlock) : State := s.modCmd c.qpos (fun e => { e with block := b })
/-- A trap that stops a block: the lane instruction's address and the VP number go to the record, that of an uncorrectable line
too (R382: a fault in a VP block; R425 gives MEMORY_ERROR other words, log 79). A line-fetch TRANSLATION keeps the block; every other cause discards it, and lane stores already performed remain (R121). -/
def stopBlock {α : Type} (c : Cmd) (b : VpBlock) (t : Trap) (a vp : Nat) (s : State) : M α :=
  let fetch := t.code = 0x06 ∨ t.code = 0x07
  let t := if fetch then t else { t with d0 := word a, d1 := word vp }
  .error (.trap t (s.keepBlock c (if t.code = 0x06 then some b else none)))

/-- A group executes one lane instruction in ascending VP number (R121). -/
def laneGroup (c : Cmd) (snap : Vector Word 32) (i : Instr) (a next : Word) : List Nat → VpBlock → State → M (VpBlock × State)
  | [], b, s => .ok (b, s)
  | vp :: r, b, s =>
    match lane1 c snap i a next vp b s with
    | .ok (b, s) => laneGroup c snap i a next r b s
    | .error (.trap t s) => stopBlock c b t a.toNat vp s
    | .error e => .error e

/-- The distinct addresses at which VPs stand, ascending. -/
def standing (pcs : List (Option Nat)) : List Nat :=
  (pcs.filterMap id).foldl (fun acc a => insert a acc) []
where
  insert (a : Nat) : List Nat → List Nat
    | [] => [a]
    | b :: r => if a < b then a :: b :: r else if a = b then b :: r else b :: insert a r
/-- The VPs at an address. -/
def groupAt (pcs : List (Option Nat)) (a : Nat) : List Nat :=
  below (fun i => (pcs[i]?.getD none) == some a) pcs.length

/-- The block when it starts: every VP at the named instruction, the working values those of v0 to v31. -/
def VpBlock.start (s : State) (c : Cmd) (target : Word) : VpBlock :=
  { pcs := List.replicate c.vl (some target.toNat), work := Vector.ofFn (fun (i : Fin 32) => s.vreg i.val), lines := [],
    round := [] }

/-- The address of the group that a block serves next (R120). -/
def VpBlock.next (b : VpBlock) : Option Nat :=
  let all := standing b.pcs
  match b.round.filter (fun a => all.contains a) with
  | a :: _ => some a
  | [] => all.head?
/-- The address of the lane instruction that a VFETCH executes next. -/
def Cmd.blockNext (c : Cmd) (o : OpJ4) : Word :=
  let target := lineTarget c.addr o.loff o.slot
  (c.block.bind VpBlock.next).elim target word

/-- One turn of the block: the group at the lowest address still to be served in the round issues one instruction; with
every VP parked the working values become v0 to v31 and the block ends (R119, R120). -/
def effVfetch (o : OpJ4) : Run1 := fun c s =>
  let s := s.note c c.vl c.vl
  let b := c.block.getD (VpBlock.start s c (lineTarget c.addr o.loff o.slot))
  let snap := c.snap.getD (Vector.replicate 32 0)
  match standing b.pcs with
  | [] =>
    .ok ((s.modF (fun f => { f with v := Vector.ofFn (fun (i : Fin 64) =>
      if h : i.val < 32 then b.work[i.val] else f.v[i.val]) })).keepBlock c none |>.finishCmd c)
  | all@(a0 :: _) =>
    let left := b.round.filter (fun a => all.contains a)
    let a := left.headD a0
    let rest := if left.isEmpty then all.drop 1 else left.drop 1
    let b := { b with round := rest }
    let grp := groupAt b.pcs a
    let vp := grp.headD 0
    let addr := word a
    match s.blockLine b addr vp with
    | .error (.trap t s) => stopBlock c b t a vp s
    | .error e => .error e
    | .ok (l, b, s) =>
      if s.slot.badLines.contains (lineOf addr) then
        stopBlock c b { code := 0x11, sub := 0x01 } a vp (s.modSlot (fun x =>
          { x with badLines := x.badLines.filter (fun k => k != lineOf addr) }))
      else
      match laneIns l addr with
      | .error t => stopBlock c b t a vp s
      | .ok i => do
        let (b, s) ← laneGroup c snap i addr (nextAddr l addr) grp b s
        pure (s.keepBlock c (some b))

/-- The check of R72, R74 and R75 on the place that a VFETCH names, made when it commits, on the line as a fetch would find it
then. The fault of the line's fetch itself is left to the vector unit, which fetches the block's lines (R116, R121, R394; log 73). -/
def State.checkBlock (s : State) (target : Word) : M Unit :=
  match s.fetchLine (lineOf target) with
  | .ok (l, _) =>
    match lineSlot l (slotOf target) with
    | .ins _ _ => .ok ()
    | .overlaps => .error (.trap (Trap.line 0x01) s)
    | .none => .error (.trap (Trap.line (if lineSlot l 0 = .none then 0x03 else 0x02)) s)
  | .error _ => .ok ()

/-- VFETCH (R116, R117, R119): the block covers every buffer and v0 to v31; g0 to g31 are taken at commit. -/
def execVfetch (o : OpJ4) (s : State) : Host.Outcome State Fault Refusal :=
  let vs := (List.range 32).map Res.v
  finish (do
    s.checkBlock (lineTarget s.slot.pc o.loff o.slot)
    issue { eng := .vec, ins := .vfetch o, ranges := [wholeRange 1 true, wholeRange 2 true, wholeRange 3 true], rd := vs,
            wr := vs, snap := true } (effVfetch o) s)

end Sys2Proof.Machine
end

