-- ==== Sys2Proof/Machine/Special.lean ====
section
/-! DEFINITION. The special functions of R142: where the spec fixes the result exactly, that result; elsewhere a value
inside the error bound, chosen by `Config.ulpPick` (assumption 6) around the exact value, which fixed-point arithmetic of 320
fraction bits locates. -/

namespace Sys2Proof.Machine

/-- Fraction bits of the fixed-point arithmetic. -/
def fxP : Nat := 320
/-- The product of two fixed-point numbers. -/
def fxMul (a b : Int) : Int := a * b / ((2 ^ fxP : Nat) : Int)
/-- The quotient of two fixed-point numbers. -/
def fxDiv (a b : Int) : Int := a * ((2 ^ fxP : Nat) : Int) / b
/-- A number m × 2^e in fixed point. -/
def fxOf (m : Nat) (e : Int) : Int :=
  let s := e + fxP
  if 0 ≤ s then ((m * 2 ^ s.toNat : Nat) : Int) else ((m / 2 ^ (-s).toNat : Nat) : Int)
/-- Σ t^(2i+1) / (2i+1) for i from k up, n terms: the series of the inverse hyperbolic tangent; `p` is t^(2k+1). -/
def atanhGo (t2 : Int) : Nat → Nat → Int → Int → Int
  | 0, _, _, acc => acc
  | n + 1, k, p, acc => atanhGo t2 n (k + 1) (fxMul p t2) (acc + p / ((2 * k + 1 : Nat) : Int))
/-- 2 × atanh t in fixed point. -/
def fxLogT (t : Int) : Int := 2 * atanhGo (fxMul t t) 110 0 t 0
/-- ln 2 in fixed point. -/
def fxLn2 : Int := fxLogT (fxDiv 1 3)
/-- Σ r^i / i! in fixed point; `p` is the term of index k. -/
def expGo (r : Int) : Nat → Nat → Int → Int → Int
  | 0, _, _, acc => acc
  | n + 1, k, p, acc => expGo r n (k + 1) (fxMul p r / ((k + 1 : Nat) : Int)) (acc + p)
/-- exp x in fixed point as a mantissa and a power of two: exp r × 2^k with |r| ≤ ln 2. -/
def fxExp (x : Int) : Int × Int :=
  let k := x / fxLn2
  (expGo (x - k * fxLn2) 80 0 ((2 ^ fxP : Nat) : Int) 0, k)

/-- The error bound of R142 in ulp, by format code. -/
def ulpBound (fmt : Nat) : Nat := if fmt = 0 then 4 else if fmt = 1 then 2 else 1

/-- A value within the bound around n / d × 2^e: `lo` is the largest magnitude not above it; the pick moves it by whole
units, never past the end of the next binade, and an overflow follows R37. -/
def within (fn fmt rm bits : Nat) (neg : Bool) (n d : Nat) (e : Int) : Nat × Nat :=
  let f := fmtOf fmt
  let lo := roundRat f 1 false 0 false n d e
  let b := ulpBound fmt
  let mx := (f.maxE - f.emin).toNat * 2 ^ f.mant + f.maxM
  let top := (lo.1 / 2 ^ f.mant + 1) * 2 ^ f.mant
  let mag := min (lo.1 + Config.ulpPick fn fmt bits % (2 * b) - (b - 1)) (max top (2 ^ f.mant))
  if lo.2 = fOV || decide (mx < mag) then (signed f neg (overBits f (arithRm rm) false neg), fOV)
  else (signed f neg mag, if mag < 2 ^ f.mant then fUF else fNX)

/-- The same around the number just below an encoding's magnitude. -/
def justBelow (fn fmt rm bits : Nat) (neg : Bool) (mag : Nat) : Nat × Nat :=
  let f := fmtOf fmt
  match fval f (mag - 1) with
  | .num _ m e => within fn fmt rm bits neg (2 * m + 1) 1 (e - 1)
  | _ => (mag, 0)

/-- VFEXP (R142). -/
def spExp (fmt rm bits : Nat) : Nat × Nat :=
  let f := fmtOf fmt
  let one := (fround f 0 false 0 FV.one).1
  match fval f bits with
  | .nan sig => (f.nan, if sig then fNV else 0)
  | .inf neg => if neg then (0, 0) else ((fround f 0 false 0 (.inf false)).1, 0)
  | .num neg m e =>
    if m = 0 then (one, 0)
    else
      let l := (ilog2 m : Int) + e
      if 12 ≤ l then
        (if neg then within 16 fmt rm bits false 1 1 (-2000) else (signed f false (overBits f (arithRm rm) false false), fOV))
      else if l < -100 then
        (if neg then justBelow 16 fmt rm bits false one else within 16 fmt rm bits false (2 ^ 100 + 1) 1 (-100))
      else
        let x := fxOf m e
        let r := fxExp (if neg then -x else x)
        within 16 fmt rm bits false r.1.toNat 1 (r.2 - fxP)

/-- VFLOG (R142). -/
def spLog (fmt rm bits : Nat) : Nat × Nat :=
  let f := fmtOf fmt
  match fval f bits with
  | .nan sig => (f.nan, if sig then fNV else 0)
  | .inf neg => if neg then (f.nan, fNV) else ((fround f 0 false 0 (.inf false)).1, 0)
  | .num neg m e =>
    if m = 0 then ((fround f 0 false 0 (.inf true)).1, fDZ)
    else if neg then (f.nan, fNV)
    else if feq (.num false m e) FV.one then (0, 0)
    else
      let l := ilog2 m
      let big := decide (3 * 2 ^ l ≤ 2 * m)
      let k : Int := l + e + (if big then 1 else 0)
      let x := fxOf m (-(l : Int) - (if big then 1 else 0))
      let u := ((2 ^ fxP : Nat) : Int)
      let v := k * fxLn2 + fxLogT (fxDiv (x - u) (x + u))
      within 17 fmt rm bits (decide (v < 0)) v.natAbs 1 (-(fxP : Int))

/-- VFRCP (R142). -/
def spRcp (fmt rm bits : Nat) : Nat × Nat :=
  let f := fmtOf fmt
  match fval f bits with
  | .nan sig => (f.nan, if sig then fNV else 0)
  | .inf neg => ((fround f 0 false 0 (.num neg 0 0)).1, 0)
  | .num neg m e =>
    if m = 0 then ((fround f 0 false 0 (.inf neg)).1, fDZ)
    else
      let r := roundRat f 1 false 0 neg 1 m (-e)
      if 2 ^ ilog2 m = m ∧ r.2 = 0 then r else within 18 fmt rm bits neg 1 m (-e)

/-- VFRSQ (R142). -/
def spRsq (fmt rm bits : Nat) : Nat × Nat :=
  let f := fmtOf fmt
  match fval f bits with
  | .nan sig => (f.nan, if sig then fNV else 0)
  | .inf neg => if neg then (f.nan, fNV) else (0, 0)
  | .num neg m e =>
    if m = 0 then ((fround f 0 false 0 (.inf neg)).1, fDZ)
    else if neg then (f.nan, fNV)
    else
      let l := (ilog2 m : Int) + e
      if 2 ^ ilog2 m = m ∧ l % 2 = 0 then roundRat f 0 false 0 false 1 1 (-(l / 2))
      else
        let q : Int := 160 + (l + 1) / 2
        let r := isqrt (2 ^ (2 * q - e).toNat / m)
        within 19 fmt rm bits false (2 * r + 1) 1 (-q - 1)

/-- VFTANH (R142). -/
def spTanh (fmt rm bits : Nat) : Nat × Nat :=
  let f := fmtOf fmt
  let one := (fround f 0 false 0 FV.one).1
  match fval f bits with
  | .nan sig => (f.nan, if sig then fNV else 0)
  | .inf neg => (signed f neg one, 0)
  | .num neg m e =>
    if m = 0 then (bits % 2 ^ f.w, 0)
    else
      let l := (ilog2 m : Int) + e
      if 6 ≤ l then justBelow 20 fmt rm bits neg one
      else if l < -60 then justBelow 20 fmt rm bits neg (bits % 2 ^ (f.w - 1))
      else
        let r := fxExp (2 * fxOf m e)
        let y := r.1 * ((2 ^ r.2.toNat : Nat) : Int)
        let u := ((2 ^ fxP : Nat) : Int)
        within 20 fmt rm bits neg (y - u).toNat (y + u).toNat 0

end Sys2Proof.Machine
end

