-- ==== Sys2Proof/Machine/VecFp.lean ====
section
/-! DEFINITION. Floating-point arithmetic, special functions, compares and reductions, scans and segmented sums: major
0x24, the VFCMP forms and OP 3 to 9 of major 0x2B (R140 to R142, R145, R151 to R153). -/

namespace Sys2Proof.Machine

/-- The format check of R132 for the forms that accept FMT 0x0 to 0x3. -/
def fpGuard (f : State → Host.Outcome State Fault Refusal) (s : State) : Host.Outcome State Fault Refusal :=
  if 3 < vtFmt s.slot.vtype then finish (.error (.trap (Trap.ill 0x08) s)) else f s
/-- What a floating form that writes vD enqueues. -/
def fpForm (o : OpV4) (i : Instr) (eff : Run1) (s : State) : Host.Outcome State Fault Refusal :=
  fpGuard (engine (v4Ticket o i s [.v o.d.toNat]) eff) s
/-- What a floating compare enqueues. -/
def fpCmpForm (o : OpV4) (i : Instr) (eff : Run1) (s : State) : Host.Outcome State Fault Refusal :=
  fpGuard (engine (v4Ticket o i s [.m o.d.toNat]) eff) s

/-! ## Arithmetic (R140, R141) -/

/-- A two-operand floating form: format, rounding mode, operand values. -/
def fpEff (o : OpV4) (f : FF → Nat → FV → FV → Nat × Nat) : Run1 := laneEff o (fun c _ a b =>
  let ff := fmtOf (vtFmt c.vtype)
  f ff (arithRm (vtRm c.vtype)) (fval ff a) (fval ff b))
/-- A one-operand floating form on encodings. -/
def fpOne (o : OpV4) (f : Nat → Nat → Nat → Nat × Nat) : Run1 := laneEff o (fun c _ a _ =>
  f (vtFmt c.vtype) (vtRm c.vtype) a)
/-- A fused form: c is element i of vC. -/
def fpFused (o : OpV4) (sub : Bool) : Run1 := vecEff o.len o.msk (fun w n m c s =>
  let ab := v4Lanes o c s w n
  let vc := s.vreg o.c.toNat
  let ff := fmtOf (vtFmt c.vtype)
  .ok (s.putLanes c o.d.toNat w m n (fun i =>
    let x := fval ff (elem vc w i)
    fmaR ff (arithRm (vtRm c.vtype)) (fval ff (ab.1 i)) (fval ff (ab.2 i)) (if sub then x.neg else x))))

/-- −0 below +0 (R141). -/
def fltz (a b : FV) : Bool := flt a b || (feq a b && a.isZero && a.sign && !b.sign)
/-- The smaller or larger operand under R141, on encodings. -/
def fpick (max : Bool) (f : FF) (a b : Nat) : Nat × Nat :=
  let x := fval f a
  let y := fval f b
  if x.isNan || y.isNan then (f.nan, if x.isSig || y.isSig then fNV else 0)
  else if max then (if fltz x y then b else a, 0)
  else (if fltz y x then b else a, 0)
/-- VFABS on an encoding (R140). -/
def fabsE (f : FF) (a : Nat) : Nat × Nat :=
  let x := fval f a
  if x.isNan then (f.nan, if x.isSig then fNV else 0) else (a % 2 ^ (f.w - 1), 0)

/-- VFADD (R140): its effect. -/
def effVfadd (o : OpV4) : Run1 := fpEff o (fun f rm a b => faddR f rm a b)
/-- VFADD (R140). -/
def execVfadd (o : OpV4) (s : State) : Host.Outcome State Fault Refusal := fpForm o (.vfadd o) (effVfadd o) s
/-- VFSUB (R140): its effect. -/
def effVfsub (o : OpV4) : Run1 := fpEff o (fun f rm a b => faddR f rm a b.neg)
/-- VFSUB (R140). -/
def execVfsub (o : OpV4) (s : State) : Host.Outcome State Fault Refusal := fpForm o (.vfsub o) (effVfsub o) s
/-- VFMUL (R140): its effect. -/
def effVfmul (o : OpV4) : Run1 := fpEff o (fun f rm a b => fmulR f rm a b)
/-- VFMUL (R140). -/
def execVfmul (o : OpV4) (s : State) : Host.Outcome State Fault Refusal := fpForm o (.vfmul o) (effVfmul o) s
/-- VFDIV (R140): its effect. -/
def effVfdiv (o : OpV4) : Run1 := fpEff o (fun f rm a b => fdivR f rm a b)
/-- VFDIV (R140). -/
def execVfdiv (o : OpV4) (s : State) : Host.Outcome State Fault Refusal := fpForm o (.vfdiv o) (effVfdiv o) s
/-- VFMA (R140): its effect. -/
def effVfma (o : OpV4) : Run1 := fpFused o false
/-- VFMA (R140). -/
def execVfma (o : OpV4) (s : State) : Host.Outcome State Fault Refusal := fpForm o (.vfma o) (effVfma o) s
/-- VFMS (R140): its effect. -/
def effVfms (o : OpV4) : Run1 := fpFused o true
/-- VFMS (R140). -/
def execVfms (o : OpV4) (s : State) : Host.Outcome State Fault Refusal := fpForm o (.vfms o) (effVfms o) s
/-- VFMIN (R141): its effect. -/
def effVfmin (o : OpV4) : Run1 := laneEff o (fun c _ a b => fpick false (fmtOf (vtFmt c.vtype)) a b)
/-- VFMIN (R141). -/
def execVfmin (o : OpV4) (s : State) : Host.Outcome State Fault Refusal := fpForm o (.vfmin o) (effVfmin o) s
/-- VFMAX (R141): its effect. -/
def effVfmax (o : OpV4) : Run1 := laneEff o (fun c _ a b => fpick true (fmtOf (vtFmt c.vtype)) a b)
/-- VFMAX (R141). -/
def execVfmax (o : OpV4) (s : State) : Host.Outcome State Fault Refusal := fpForm o (.vfmax o) (effVfmax o) s
/-- VFSQRT (R140): its effect. -/
def effVfsqrt (o : OpV4) : Run1 := fpEff o (fun f rm a _ => fsqrtR f rm a)
/-- VFSQRT (R140). -/
def execVfsqrt (o : OpV4) (s : State) : Host.Outcome State Fault Refusal := fpForm o (.vfsqrt o) (effVfsqrt o) s
/-- VFABS (R140): its effect. -/
def effVfabs (o : OpV4) : Run1 := fpOne o (fun fmt _ a => fabsE (fmtOf fmt) a)
/-- VFABS (R140). -/
def execVfabs (o : OpV4) (s : State) : Host.Outcome State Fault Refusal := fpForm o (.vfabs o) (effVfabs o) s
/-- VFEXP (R142): its effect. -/
def effVfexp (o : OpV4) : Run1 := fpOne o spExp
/-- VFEXP (R142). -/
def execVfexp (o : OpV4) (s : State) : Host.Outcome State Fault Refusal := fpForm o (.vfexp o) (effVfexp o) s
/-- VFLOG (R142): its effect. -/
def effVflog (o : OpV4) : Run1 := fpOne o spLog
/-- VFLOG (R142). -/
def execVflog (o : OpV4) (s : State) : Host.Outcome State Fault Refusal := fpForm o (.vflog o) (effVflog o) s
/-- VFRCP (R142): its effect. -/
def effVfrcp (o : OpV4) : Run1 := fpOne o spRcp
/-- VFRCP (R142). -/
def execVfrcp (o : OpV4) (s : State) : Host.Outcome State Fault Refusal := fpForm o (.vfrcp o) (effVfrcp o) s
/-- VFRSQ (R142): its effect. -/
def effVfrsq (o : OpV4) : Run1 := fpOne o spRsq
/-- VFRSQ (R142). -/
def execVfrsq (o : OpV4) (s : State) : Host.Outcome State Fault Refusal := fpForm o (.vfrsq o) (effVfrsq o) s
/-- VFTANH (R142): its effect. -/
def effVftanh (o : OpV4) : Run1 := fpOne o spTanh
/-- VFTANH (R142). -/
def execVftanh (o : OpV4) (s : State) : Host.Outcome State Fault Refusal := fpForm o (.vftanh o) (effVftanh o) s

/-! ## Compares (R145) -/

/-- A floating compare: NV for any NaN under `strict`, else for a signalling one. -/
def fcmpEff (o : OpV4) (strict : Bool) (un : Bool) (f : FV → FV → Bool) : Run1 := cmpEff o (fun c _ a b =>
  let ff := fmtOf (vtFmt c.vtype)
  let x := fval ff a
  let y := fval ff b
  let nan := x.isNan || y.isNan
  (if nan then un else f x y, if (strict && nan) || x.isSig || y.isSig then fNV else 0))
/-- VFCMP.EQ (R145): its effect. -/
def effVfcmpEq (o : OpV4) : Run1 := fcmpEff o false false feq
/-- VFCMP.EQ (R145). -/
def execVfcmpEq (o : OpV4) (s : State) : Host.Outcome State Fault Refusal := fpCmpForm o (.vfcmpEq o) (effVfcmpEq o) s
/-- VFCMP.NE (R145): its effect. -/
def effVfcmpNe (o : OpV4) : Run1 := fcmpEff o false true (fun a b => !feq a b)
/-- VFCMP.NE (R145). -/
def execVfcmpNe (o : OpV4) (s : State) : Host.Outcome State Fault Refusal := fpCmpForm o (.vfcmpNe o) (effVfcmpNe o) s
/-- VFCMP.LT (R145): its effect. -/
def effVfcmpLt (o : OpV4) : Run1 := fcmpEff o true false flt
/-- VFCMP.LT (R145). -/
def execVfcmpLt (o : OpV4) (s : State) : Host.Outcome State Fault Refusal := fpCmpForm o (.vfcmpLt o) (effVfcmpLt o) s
/-- VFCMP.GE (R145): its effect. -/
def effVfcmpGe (o : OpV4) : Run1 := fcmpEff o true false (fun a b => !flt a b)
/-- VFCMP.GE (R145). -/
def execVfcmpGe (o : OpV4) (s : State) : Host.Outcome State Fault Refusal := fpCmpForm o (.vfcmpGe o) (effVfcmpGe o) s
/-- VFCMP.UN (R145): its effect. -/
def effVfcmpUn (o : OpV4) : Run1 := fcmpEff o false true (fun _ _ => false)
/-- VFCMP.UN (R145). -/
def execVfcmpUn (o : OpV4) (s : State) : Host.Outcome State Fault Refusal := fpCmpForm o (.vfcmpUn o) (effVfcmpUn o) s
/-- VFCMP.ORD (R145): its effect. -/
def effVfcmpOrd (o : OpV4) : Run1 := fcmpEff o false false (fun _ _ => true)
/-- VFCMP.ORD (R145). -/
def execVfcmpOrd (o : OpV4) (s : State) : Host.Outcome State Fault Refusal := fpCmpForm o (.vfcmpOrd o) (effVfcmpOrd o) s

/-! ## The fixed tree (R41) -/

/-- Node j of level L over leaves that may be absent; a combination returns its flags, which are collected. -/
def treeNode {α : Type} (comb : α → α → α × Nat) (leaf : Nat → Option α) : Nat → Nat → Option α × Nat
  | 0, j => (leaf j, 0)
  | l + 1, j =>
    let x := treeNode comb leaf l (2 * j)
    let y := treeNode comb leaf l (2 * j + 1)
    match x.1, y.1 with
    | some a, some b => let r := comb a b; (some r.1, x.2 ||| y.2 ||| r.2)
    | some a, none => (some a, x.2 ||| y.2)
    | none, b => (b, x.2 ||| y.2)
/-- The levels of the tree over n positions: P is the least power of two at or above n. -/
def treeLevels (n : Nat) : Nat := if n ≤ 1 then 0 else ilog2 (n - 1) + 1
/-- The root of the tree over the active elements. -/
def treeRoot {α : Type} (comb : α → α → α × Nat) (m : MReg) (n : Nat) (leaf : Nat → α) : Option α × Nat :=
  treeNode comb (fun j => if j < n && flag m j then some (leaf j) else none) (treeLevels n) 0

/-- A floating reduction with its start operand (R41, R151). -/
def fredEff (o : OpV4) (comb : FF → Nat → Nat → Nat → Nat × Nat) : Run1 := vecEff o.len o.msk (fun w n m c s =>
  let a := s.vreg o.a.toNat
  let cb := comb (fmtOf (vtFmt c.vtype)) (arithRm (vtRm c.vtype))
  let root := treeRoot cb m n (elem a w)
  let r : Nat × Nat := match v4Start o s w, root.1 with
    | some x, some y => let z := cb x y; (z.1, z.2 ||| root.2)
    | some x, none => (x, root.2)
    | none, y => (y.getD 0, root.2)
  .ok (if n = 0 then s else (s.setV o.d.toNat (setElem (s.vreg o.d.toNat) w 0 r.1)).raise c r.2))
/-- VFREDSUM (R41, R151): its effect. -/
def effVfredsum (o : OpV4) : Run1 := fredEff o (fun f rm a b => faddR f rm (fval f a) (fval f b))
/-- VFREDSUM (R41, R151). -/
def execVfredsum (o : OpV4) (s : State) : Host.Outcome State Fault Refusal := fpForm o (.vfredsum o) (effVfredsum o) s
/-- VFREDMAX (R41, R151): its effect. -/
def effVfredmax (o : OpV4) : Run1 := fredEff o (fun f _ a b => fpick true f a b)
/-- VFREDMAX (R41, R151). -/
def execVfredmax (o : OpV4) (s : State) : Host.Outcome State Fault Refusal := fpForm o (.vfredmax o) (effVfredmax o) s
/-- VFREDMIN (R41, R151): its effect. -/
def effVfredmin (o : OpV4) : Run1 := fredEff o (fun f _ a b => fpick false f a b)
/-- VFREDMIN (R41, R151). -/
def execVfredmin (o : OpV4) (s : State) : Host.Outcome State Fault Refusal := fpForm o (.vfredmin o) (effVfredmin o) s

/-- The pair that the tree of VARGMAX or VARGMIN keeps (R152). -/
def argPick (max : Bool) (f : FF) (l r : Nat × Nat) : (Nat × Nat) × Nat :=
  let x := fval f l.1
  let y := fval f r.1
  (if x.isNan then l else if y.isNan then r else if (if max then fltz x y else fltz y x) then r else l, 0)
/-- VARGMAX and VARGMIN (R152). -/
def argEff (o : OpV4) (max : Bool) : Run1 := vecEff o.len o.msk (fun w n m c s =>
  let f := fmtOf (vtFmt c.vtype)
  let a := s.vreg o.a.toNat
  let root := (treeRoot (argPick max f) m n (fun i => (elem a w i, i))).1
  let v := match root with
    | some p => if (fval f p.1).isNan then f.nan else p.1
    | none => 0
  let ix := match root with
    | some p => p.2
    | none => 0xFFFFFFFF
  let fl := orFlags m (fun i => if (fval f (elem a w i)).isSig then fNV else 0) n
  .ok (if n = 0 then s else
    let s := s.setV o.d.toNat (setElem (s.vreg o.d.toNat) w 0 v)
    (s.setV o.b.toNat (setElem (s.vreg o.b.toNat) 32 0 ix)).raise c fl))
/-- What VARGMAX and VARGMIN enqueue. -/
def argForm (o : OpV4) (i : Instr) (eff : Run1) (s : State) : Host.Outcome State Fault Refusal :=
  fpGuard (engine (v4Ticket o i s [.v o.d.toNat, .v o.b.toNat]) eff) s
/-- VARGMAX (R152): its effect. -/
def effVargmax (o : OpV4) : Run1 := argEff o true
/-- VARGMAX (R152). -/
def execVargmax (o : OpV4) (s : State) : Host.Outcome State Fault Refusal := argForm o (.vargmax o) (effVargmax o) s
/-- VARGMIN (R152): its effect. -/
def effVargmin (o : OpV4) : Run1 := argEff o false
/-- VARGMIN (R152). -/
def execVargmin (o : OpV4) (s : State) : Host.Outcome State Fault Refusal := argForm o (.vargmin o) (effVargmin o) s

/-! ## Scans and segmented sums (R42, R153) -/

/-- The running sum of R153: integer, or one rounding for .F. -/
def scanAdd (o : OpV4) (c : Cmd) (w a b : Nat) : Nat × Nat :=
  if flag o.b 0 then
    let f := fmtOf (vtFmt c.vtype)
    faddR f (arithRm (vtRm c.vtype)) (fval f a) (fval f b)
  else ((a + b) % 2 ^ w, 0)
/-- A present or absent partial sum with one more element. -/
def scanStep (o : OpV4) (c : Cmd) (w : Nat) (p : Option Nat × Nat) (x : Nat) : Option Nat × Nat :=
  match p.1 with
  | none => (some x, p.2)
  | some y => let r := scanAdd o c w y x; (some r.1, p.2 ||| r.2)
/-- VSCAN (R153): its effect. -/
def effVscan (o : OpV4) : Run1 := vecEff o.len o.msk (fun w n m c s =>
  let a := s.vreg o.a.toNat
  let r := forN (fun i (acc : VReg × (Option Nat × Nat)) =>
    let p := if flag m i then scanStep o c w acc.2 (elem a w i) else acc.2
    (setElem acc.1 w i (p.1.getD 0), p)) n (s.vreg o.d.toNat, (v4Start o s w, 0))
  .ok ((s.setV o.d.toNat r.1).raise c r.2.2))
/-- A form that checks the format only under .F (R132). -/
def scanForm (o : OpV4) (i : Instr) (wr : List Res) (eff : Run1) (s : State) : Host.Outcome State Fault Refusal :=
  if flag o.b 0 then fpGuard (engine (v4Ticket o i s wr) eff) s else engine (v4Ticket o i s wr) eff s
/-- VSCAN (R153). -/
def execVscan (o : OpV4) (s : State) : Host.Outcome State Fault Refusal :=
  scanForm o (.vscan o) [.v o.d.toNat] (effVscan o) s
/-- VSEGSUM (R153): its effect. The fold carries vD, the segments begun and the sum of the last one. -/
def effVsegsum (o : OpV4) : Run1 := vecEff o.len o.msk (fun w n m c s =>
  let a := s.vreg o.a.toNat
  let hm := s.mreg o.c.toNat
  let r := forN (fun i (acc : VReg × Nat × (Option Nat × Nat)) =>
    let k := if flag hm i then acc.2.1 + 1 else acc.2.1
    let p0 : Option Nat × Nat := if flag hm i then (none, acc.2.2.2) else acc.2.2
    if k = 0 then (acc.1, k, p0)
    else
      let p := if flag m i then scanStep o c w p0 (elem a w i) else p0
      (setElem acc.1 w (k - 1) (p.1.getD 0), k, p)) n (s.vreg o.d.toNat, 0, (none, 0))
  .ok ((s.setV o.d.toNat r.1).raise c r.2.2.2))
/-- VSEGSUM (R153). -/
def execVsegsum (o : OpV4) (s : State) : Host.Outcome State Fault Refusal :=
  scanForm o (.vsegsum o) [.v o.d.toNat] (effVsegsum o) s

end Sys2Proof.Machine
end

