-- ==== Sys2Proof/Machine/Convert.lean ====
section
/-! DEFINITION. Conversions: reading a value of any format code, rounding into one, scaled MX blocks and BFP16 blocks
(R14, R19 to R26, R35 to R38), and VCVT (R143, R144). MDRAIN and the graph's function nodes share them. -/

namespace Sys2Proof.Machine

/-- Format codes of MX kinds. -/
def isMx (f : Nat) : Bool := 4 ≤ f && f ≤ 9
/-- The value of an unscaled element of a format code other than BFP16 and residue32 (R15, R21, R25). -/
def readFmt (vt : Word) (fmt x : Nat) : FV :=
  match fmt with
  | 9 => mxiVal x
  | 0xA => bpiVal (vtPln vt) (vtMid vt) (x % 256)
  | _ => fval (fmtOf fmt) x
/-- An integer in units of 2^q rounded from n / d × 2^e, clamped to ±127: MXINT8 (R21, R37). -/
def mxiRound (rm draw : Nat) (neg : Bool) (n d : Nat) (e : Int) : Nat × Nat :=
  let r := roundUnits rm neg draw n d e (-6)
  let m := min 127 r.1
  (unsgn 8 (if neg then -(m : Int) else m), if 127 < r.1 then fOV else if r.2 then fNX else 0)
/-- A value rounded into an unscaled element of a floating or MX format code (R37). -/
def writeFmt (fmt rm : Nat) (sat : Bool) (draw : Nat) (x : FV) : Nat × Nat :=
  if fmt = 9 then
    match x with
    | .nan _ => (0, fNV)
    | .inf neg => (unsgn 8 (if neg then -127 else 127), fNV)
    | .num neg m e => if m = 0 then (0, 0) else mxiRound rm draw neg m 1 e
  else fround (fmtOf fmt) rm sat draw x
/-- |x| of a finite value, larger than another's. -/
def magLt : FV → FV → Bool
  | .num _ ma ea, .num _ mb eb => flt (.num false ma ea) (.num false mb eb)
  | _, _ => false
/-- The block survey of R23: whether a NaN or infinity is present, and the largest magnitude. -/
def survey (xs : List FV) : Bool × FV :=
  xs.foldl (fun acc x => match x with
    | .num _ m e => (acc.1, if magLt acc.2 x then .num false m e else acc.2)
    | _ => (true, acc.2)) (false, FV.zero)
/-- floor(log2 |x|) of a nonzero finite value. -/
def flog2 : FV → Int
  | .num _ m e => (ilog2 m : Int) + e
  | _ => 0
/-- emax of an MX kind (R23). -/
def mxEmax : Nat → Int
  | 4 => 8 | 5 => 15 | 6 => 4 | 7 => 2 | 8 => 2 | _ => 0
/-- The largest finite value of an MX kind as m × 2^e (R23). -/
def mxMax (f : Nat) : Nat × Int := if f = 9 then (127, -6) else ((fmtOf f).maxM, (fmtOf f).maxE)
/-- The scale code of a block (R23); its own rounding raises no flag (DESIGN CHOICE, log 83). -/
def mxScale (fmt : Nat) (sfmt : Bool) (xs : List FV) : Nat :=
  let sv := survey xs
  if sv.1 then (if sfmt then 0x7F else 0xFF)
  else
    match sv.2 with
    | .num _ m e =>
      if m = 0 then (if sfmt then 0x38 else 0x7F)
      else if sfmt then max 1 (roundRat (fmtOf 4) 3 true 0 false m (mxMax fmt).1 (e - (mxMax fmt).2)).1
      else (max (-127) (min 127 (flog2 sv.2 - mxEmax fmt)) + 127).toNat
    | _ => 0
/-- conv(x / s) under a scale code: always saturating (R23). -/
def mxConv (fmt : Nat) (sfmt : Bool) (scale rm draw : Nat) (x : FV) : Nat × Nat :=
  match scaleVal sfmt scale, x with
  | .num _ ms es, .num neg m e =>
    if m = 0 then (if fmt = 9 then (0, 0) else fround (fmtOf fmt) 0 true 0 (.num neg 0 0))
    else if fmt = 9 then mxiRound rm draw neg m ms (e - es)
    else roundRat (fmtOf fmt) rm true draw neg m ms (e - es)
  | _, _ => (0, 0)
/-- The exponent byte of a BFP16 block (R144): none for a block with a NaN or infinity. -/
def bfpExp (xs : List FV) : Option Nat :=
  let sv := survey xs
  if sv.1 then none
  else match sv.2 with
    | .num _ 0 _ => some 0
    | x => some (max 0 (min 254 (flog2 x + 130))).toNat
/-- A mantissa of a BFP16 block with exponent E (R144): rounded once, clamped to ±32,767 with BFPSAT. -/
def bfpMant (ex rm draw : Nat) : FV → Nat × Nat
  | .num neg m e =>
    let r := roundUnits rm neg draw m 1 e ((ex : Int) - 142)
    let k := min 32767 r.1
    (unsgn 16 (if neg then -(k : Int) else k), (if 32767 < r.1 then fBFP else 0) ||| (if r.2 then fNX else 0))
  | _ => (0, 0)
/-- The value of a BFP16 mantissa (R26, R144). -/
def bfpVal (ex m : Nat) : FV :=
  if ex = 255 then .nan false
  else let q := sgn 16 m; .num (decide (q < 0)) q.natAbs ((ex : Int) - 142)

/-- The mode of a VCVT: source and target codes with their integer marks, RM and SAT (R143). -/
structure CvtMode where
  sInt : Bool
  tInt : Bool
  sUns : Bool
  tUns : Bool
  src : Nat
  tgt : Nat
  rm : Nat
  sat : Bool
  deriving DecidableEq, Repr

/-- The mode of a VCVT tail under the captured VTYPE. -/
def cvtMode (o : OpG8) (vt : Word) : CvtMode :=
  { sInt := flag o.c 0, tInt := flag o.c 1, sUns := flag o.c 2, tUns := flag o.c 3, src := fld o.imm 0 4,
    tgt := fld o.imm 4 4, rm := if flag o.imm 11 then fld o.imm 8 3 else vtRm vt,
    sat := if flag o.imm 13 then flag o.imm 12 else vtSat vt }
/-- Width of the source elements. -/
def CvtMode.sw (m : CvtMode) : Nat := if m.sInt then 8 * 2 ^ m.src else fmtWidth m.src
/-- Width of the target elements. -/
def CvtMode.tw (m : CvtMode) : Nat := if m.tInt then 8 * 2 ^ m.tgt else fmtWidth m.tgt

/-- The source value of element i with its flags (R144 step 1). -/
def cvtRead (m : CvtMode) (vt : Word) (a : VReg) (k : KReg) (i : Nat) : FV × Nat :=
  let x := elem a m.sw i
  if m.sInt then (FV.ofInt (valOf m.sUns m.sw x), 0)
  else if m.src = 0xB then (bfpVal (elem k 8 (i / 32 % 256)) x, 0)
  else
    let v := readFmt vt m.src x
    if isMx m.src && vtBlkA vt != 0 then fmul v (scaleVal (vtSfmt vt) (elem k 8 (i / 2 ^ vtBlkA vt % 256)))
    else (v, if v.isSig then fNV else 0)
/-- The target element of value x where no block scale takes part (R144 step 2, R38). A value outside an integer
type that is no narrower keeps its low bits under SAT too (DESIGN CHOICE, log 84). -/
def cvtWrite (m : CvtMode) (a : VReg) (draw : Nat) (i : Nat) (x : FV) : Nat × Nat :=
  if m.tInt then
    (if m.sInt then
      (let v := valOf m.sUns m.sw (elem a m.sw i)
       (if m.tw < m.sw && m.sat then clampTo m.tUns m.tw v else unsgn m.tw v, 0))
     else toIntR m.tw m.tUns m.rm draw x)
  else if m.tgt = 0xA then toIntR 8 false m.rm draw x
  else writeFmt m.tgt m.rm m.sat draw x

/-- VCVT (R144): its effect. -/
def effVcvt (o : OpG8) : Run1 := whole (fun c s => do
  let vt := c.vtype
  let m := cvtMode o vt
  let mx := vlmax (max m.sw m.tw)
  let n := c.len o.len mx
  let bfp := (!m.sInt && m.src == 0xB) || (!m.tInt && m.tgt == 0xB)
  let msk := s.mreg o.msk.toNat
  let s := s.note c n (active msk n)
  need (decide (n ≤ mx) && (!bfp || n % 32 == 0)) (Trap.opndAt 0x05 n) s
  let a := s.vreg o.a.toNat
  let k := s.kreg o.b.toNat
  let gens := s.slot.gens
  let draw := fun i => (srDraw (elem gens 32 i)).1
  let rd := cvtRead m vt a k
  let sr := m.rm == 4
  let dr := fun i => if sr then draw i else 0
  let blk := if !m.tInt && m.tgt == 0xB then 32 else if !m.tInt && isMx m.tgt && vtBlkA vt != 0 then 2 ^ vtBlkA vt else 0
  let s := if sr then s.modSlot (fun x => { x with
    gens := mapElems x.gens 32 (fun i => if flag msk i then some (srDraw (elem gens 32 i)).2 else none) n }) else s
  if blk = 0 then
    let f : Lanes := fun i => let x := rd i; let y := cvtWrite m a (dr i) i x.1; (y.1, x.2 ||| y.2)
    pure (s.putLanes c o.d.toNat m.tw msk n f)
  else
    let vals := fun b => ((List.range blk).map (· + b * blk)).filter (fun i => decide (i < n) && flag msk i)
    let scale := fun b =>
      let xs := (vals b).map (fun i => (rd i).1)
      if m.tgt = 0xB then (bfpExp xs).getD 255 else mxScale m.tgt (vtSfmt vt) xs
    let bad := fun b => ((vals b).map (fun i => (rd i).1)).any (fun x => match x with | .num _ _ _ => false | _ => true)
    let one : Lanes := fun i =>
      if !flag msk i then (0, 0)
      else if bad (i / blk) then (0, fNV ||| (rd i).2)
      else
        let x := rd i
        let y := if m.tgt = 0xB then bfpMant (scale (i / blk)) m.rm (dr i) x.1
                 else mxConv m.tgt (vtSfmt vt) (scale (i / blk)) m.rm (dr i) x.1
        (y.1, x.2 ||| y.2)
    let all : MReg := BitVec.allOnes 512
    let s := s.putLanes c o.d.toNat m.tw all n one
    pure (s.setK o.b.toNat (forN (fun b acc => setElem acc 8 (b % 256) (scale b)) (cdiv n blk) (s.kreg o.b.toNat))))
/-- VCVT (R143): formats come from its tail. -/
def execVcvt (o : OpG8) (s : State) : Host.Outcome State Fault Refusal :=
  engine { eng := .vec, ins := .vcvt o, lens := [o.len], rd := [.v o.a.toNat, .k o.b.toNat, .m o.msk.toNat],
           wr := [.v o.d.toNat, .k o.b.toNat] } (effVcvt o) s

end Sys2Proof.Machine
end

