-- ==== Sys2Proof/Machine/Matrix.lean ====
section
/-! DEFINITION. Outer products, tiles and MTILE (R40, R52, R163 to R173, R178 to R180). -/

namespace Sys2Proof.Machine

/-- Kd of a format pair (R166). -/
def outDepth (fa fb pln : Nat) : Nat :=
  let nib := fun f => f == 8 || (f == 0xA && decide (pln ≤ 4))
  if fa ≤ 3 then 1 else if nib fa && nib fb then 4 else 2

/-- The exact sum of a step's products: NaN for a NaN product or for infinities of both signs, which raises NV (R40). -/
def sumExact (xs : List FV) : FV × Nat :=
  let pos := xs.any (fun x => x == .inf false)
  let neg := xs.any (fun x => x == .inf true)
  if pos && neg then (.nan false, fNV)
  else if xs.any FV.isNan then (.nan false, 0)
  else match xs with
    | [] => (FV.zero, 0)
    | x :: r => (r.foldl (fun a b => (fadd 0 a b).1) x, 0)
/-- One product of four factors, the first and third of them scales, with its flags. -/
def prod4 (sa a sb b : FV) : FV × Nat :=
  let p := fmul sa a
  let q := fmul sb b
  let r := fmul p.1 q.1
  (r.1, r.2 ||| p.2 ||| q.2)
/-- The width of an accumulator element and the elements of a row (R52). -/
def accShape (f64 : Bool) : Nat × Nat := if f64 then (64, 48) else (32, 96)
/-- An outer-product step: every (i, j) of the rows and columns takes the exact sum of its terms, rounded once (R40). -/
def outerStep (f64 neg : Bool) (rm : Nat) (rows cols : List Nat) (terms : Nat → Nat → List (FV × Nat)) (t : Tile) :
    Tile × Nat :=
  let w := (accShape f64).1
  let n := (accShape f64).2
  let f := fmtOf (if f64 then 0 else 1)
  rows.foldl (fun acc i => cols.foldl (fun acc j =>
    let ts := terms i j
    let x := sumExact (ts.map (fun p => if neg then p.1.neg else p.1))
    let fl := ts.foldl (fun a p => a ||| p.2) x.2
    let r := faddR f rm (fval f (elem acc.1 w (i * n + j))) x.1
    (setElem acc.1 w (i * n + j) r.1, acc.2 ||| fl ||| r.2)) acc) (t, 0)

/-- The check of R168 on the captured VTYPE: a block length needs an MX kind. -/
def blkClash (vt : Word) (fa fb : Nat) : Bool :=
  (vtBlkA vt != 0 && !isMx fa) || (vtBlkB vt != 0 && !isMx fb)

/-- OPACC and OPSUB (R167 to R169): their effect. -/
def outerEff (o : OpM8) (neg : Bool) : Run1 := whole (fun c s =>
  let vt := c.vtype
  let fa := o.fa.toNat
  let fb := o.fb.toNat
  let f64 := fa == 0
  let kd := outDepth fa fb (vtPln vt)
  let wa := fmtWidth fa
  let wb := fmtWidth fb
  let la := c.len o.la (vlmax wa)
  let lb := c.lenB o.la o.lb (vlmax wb)
  let ma := s.mreg o.ma.toNat
  let mb := s.mreg o.mb.toNat
  let va := s.vreg o.va.toNat
  let va1 := s.vreg (o.va.toNat + 1)
  let vb := s.vreg o.vb.toNat
  let ka := s.kreg o.ka.toNat
  let kb := s.kreg o.kb.toNat
  let onA := fun i k => let p := if f64 then i % 64 else i * kd + k; decide (p < la) && flag ma p
  let onB := fun j k => let p := j * kd + k; decide (p < lb) && flag mb p
  let a := fun i k => readFmt vt fa (if f64 then elem (if i < 64 then va else va1) 64 (i % 64) else elem va wa (i * kd + k))
  let b := fun j k => readFmt vt fb (elem vb wb (j * kd + k))
  let sa := fun i => if vtBlkA vt = 0 then FV.one else scaleVal (vtSfmt vt) (elem ka 8 i)
  let sb := fun j => if vtBlkB vt = 0 then FV.one else scaleVal (vtSfmt vt) (elem kb 8 j)
  let ks := List.range kd
  let rows := below (fun i => ks.any (onA i)) 128
  let cols := below (fun j => ks.any (onB j)) (accShape f64).2
  let terms := fun i j => (ks.filter (fun k => onA i k && onB j k)).map (fun k => prod4 (sa i) (a i k) (sb j) (b j k))
  let r := outerStep f64 neg (arithRm (vtRm vt)) rows cols terms (s.areg o.d.toNat)
  .ok ((s.setA o.d.toNat r.1).raise c r.2))
/-- What OPACC and OPSUB enqueue (R5, R164, R168). -/
def outerForm (o : OpM8) (i : Instr) (eff : Run1) (s : State) : Host.Outcome State Fault Refusal :=
  finish (do
    need (s.full || o.fa != 0#4) Trap.absent s
    need (!blkClash s.slot.vtype o.fa.toNat o.fb.toNat) (Trap.ill 0x08) s
    issue { eng := .mat, ins := i, lens := [o.la, o.lb],
            rd := [.v o.va.toNat, .v (o.va.toNat + 1), .v o.vb.toNat, .k o.ka.toNat, .k o.kb.toNat, .m o.ma.toNat,
                   .m o.mb.toNat, .a o.d.toNat], wr := [.a o.d.toNat] } eff s)
/-- OPACC (R169): its effect. -/
def effOpacc (o : OpM8) : Run1 := outerEff o false
/-- OPACC (R168). -/
def execOpacc (o : OpM8) (s : State) : Host.Outcome State Fault Refusal := outerForm o (.opacc o) (effOpacc o) s
/-- OPSUB (R169): its effect. -/
def effOpsub (o : OpM8) : Run1 := outerEff o true
/-- OPSUB (R168). -/
def execOpsub (o : OpM8) (s : State) : Host.Outcome State Fault Refusal := outerForm o (.opsub o) (effOpsub o) s

/-- MZERO (R170): its effect. -/
def effMzero (d : BitVec 6) : Run1 := whole (fun _ s => .ok (s.setA d.toNat 0))
/-- MZERO (R170). -/
def execMzero (d : BitVec 6) (s : State) : Host.Outcome State Fault Refusal :=
  engine { eng := .mat, ins := .mzero d, wr := [.a d.toNat] } (effMzero d) s

/-- The bytes of a tile image (R171). -/
def tileBytes : Nat := 49152
/-- The address checks at commit of a form that moves n bytes at a 64-byte boundary (R164, R171, R176). -/
def State.checkImage (s : State) (spc ea n : Nat) (acc : Acc) : M Unit := do
  if spc = 0 then need (decide (ea + n ≤ 2 ^ 54)) { Trap.perm 0x01 with d0 := word ea, d2 := word (accCode acc) } s
  else need (decide (ea + n ≤ bufSize spc)) (Trap.opnd 0x01) s
  need (ea % 64 == 0) (Trap.align 0x02) s
/-- MLDT (R171, R172): its effect. -/
def effMldt (o : OpMT) : Run1 := whole (fun c s => do
  let spc := o.spc.toNat
  let ea := c.ga.toNat
  s.checkHolder spc ea tileBytes
  let ad := fun i => ea + 64 * i
  let (xs, s) ← loadElems ad (fun s i => do
    let (p, s) ← s.access spc (ad i) 64 64 .rd
    s.readSpot p 64) (List.range 768) s
  pure (s.setA o.d.toNat (BitVec.ofNat 393216 (xs.foldr (fun x acc => x.2 + 2 ^ 512 * acc) 0))))
/-- MSTT (R171, R172): its effect. -/
def effMstt (o : OpMT) : Run1 := whole (fun c s => do
  let spc := o.spc.toNat
  let ea := c.ga.toNat
  s.checkHolder spc ea tileBytes
  let ad := fun i => ea + 64 * i
  let t := s.areg o.d.toNat
  storeElems c.qpos ad (fun s i => do
    let (p, s) ← s.access spc (ad i) 64 64 .wr
    pure (s.writeSpot p (elem t 512 i) 64)) ((List.range 768).filter (fun i => decide (c.resume ≤ i))) s)
/-- What MLDT and MSTT enqueue (R5, R171). -/
def tileForm (o : OpMT) (i : Instr) (st : Bool) (eff : Run1) (s : State) : Host.Outcome State Fault Refusal :=
  let ea := (s.g o.base).toNat
  finish (do
    need (s.full || !o.f64) Trap.absent s
    s.checkImage o.spc.toNat ea tileBytes (if st then .wr else .rd)
    issue { eng := .mat, ins := i, ga := s.g o.base, ranges := [⟨o.spc.toNat, ea, ea + tileBytes - 1, st⟩],
            rd := if st then [.a o.d.toNat] else [], wr := if st then [] else [.a o.d.toNat] } eff s)
/-- MLDT (R171). -/
def execMldt (o : OpMT) (s : State) : Host.Outcome State Fault Refusal := tileForm o (.mldt o) false (effMldt o) s
/-- MSTT (R171). -/
def execMstt (o : OpMT) (s : State) : Host.Outcome State Fault Refusal := tileForm o (.mstt o) true (effMstt o) s

/-- A row or column move out of a tile: word index of element j, and the extent (R173). -/
def moveOut (o : OpV4) (ext : Nat) (at_ : Nat → Nat → Nat) : Run1 := whole (fun c s =>
  let n := min (c.len o.len (vtVlmax c.vtype)) ext
  let t := s.areg o.a.toNat
  .ok (s.setV o.d.toNat (maskedWrite (s.vreg o.d.toNat) 32 (s.mreg o.msk.toNat) (min n 128)
    (fun j => elem t 32 (at_ c.gb.toNat j)))))
/-- A row or column move into a tile. -/
def moveIn (o : OpV4) (ext : Nat) (at_ : Nat → Nat → Nat) : Run1 := whole (fun c s =>
  let n := min (c.len o.len (vtVlmax c.vtype)) ext
  let v := s.vreg o.d.toNat
  let t := (actives (s.mreg o.msk.toNat) n).foldl (fun t j => setElem t 32 (at_ c.gb.toNat j) (elem v 32 j)) (s.areg o.a.toNat)
  .ok (s.setA o.a.toNat t))
/-- What a row or column move enqueues; x is read and checked at commit. -/
def moveForm (o : OpV4) (i : Instr) (lim : Nat) (out : Bool) (eff : Run1) (s : State) : Host.Outcome State Fault Refusal :=
  finish (do
    need (decide ((s.g o.b).toNat < lim)) (Trap.opnd 0x04) s
    issue { eng := .mat, ins := i, lens := [o.len], gb := s.g o.b, rd := [.m o.msk.toNat, .v o.d.toNat, .a o.a.toNat],
            wr := if out then [.v o.d.toNat] else [.a o.a.toNat] } eff s)
/-- MROWV (R173): its effect. -/
def effMrowv (o : OpV4) : Run1 := moveOut o 96 (fun x j => x * 96 + j)
/-- MROWV (R173). -/
def execMrowv (o : OpV4) (s : State) : Host.Outcome State Fault Refusal := moveForm o (.mrowv o) 128 true (effMrowv o) s
/-- MVROW (R173): its effect. -/
def effMvrow (o : OpV4) : Run1 := moveIn o 96 (fun x j => x * 96 + j)
/-- MVROW (R173). -/
def execMvrow (o : OpV4) (s : State) : Host.Outcome State Fault Refusal := moveForm o (.mvrow o) 128 false (effMvrow o) s
/-- MCOLV (R173): its effect. -/
def effMcolv (o : OpV4) : Run1 := moveOut o 128 (fun x j => j * 96 + x)
/-- MCOLV (R173). -/
def execMcolv (o : OpV4) (s : State) : Host.Outcome State Fault Refusal := moveForm o (.mcolv o) 96 true (effMcolv o) s
/-- MVCOL (R173): its effect. -/
def effMvcol (o : OpV4) : Run1 := moveIn o 128 (fun x j => j * 96 + x)
/-- MVCOL (R173). -/
def execMvcol (o : OpV4) (s : State) : Host.Outcome State Fault Refusal := moveForm o (.mvcol o) 96 false (effMvcol o) s

/-! ## MTILE (R178 to R180) -/

/-- The fields of an MTILE tail: rows, columns, formats and scale registers. -/
structure MtileF where
  m : Nat
  n : Nat
  fa : Nat
  fb : Nat
  ka : Nat
  kb : Nat
  deriving DecidableEq, Repr
/-- See `MtileF`. -/
def mtileF (o : OpG8) : MtileF :=
  ⟨fld o.imm 0 7 + 1, fld o.imm 7 7 + 1, fld o.imm 28 4, fld o.imm 24 4, fld o.imm 20 4, fld o.imm 16 4⟩
/-- Bits of an element in memory (R13). -/
def memBits (f : Nat) : Nat := match f with | 6 => 6 | 7 => 6 | 8 => 4 | f => fmtWidth f
/-- The bytes of a panel of r × Kd elements. -/
def panelBytes (r kd f : Nat) : Nat := r * kd * memBits f / 8

/-- One k-step of MTILE: step `resume`; the last one ends the command (R179). -/
def effMtile (o : OpG8) : Run1 := fun c s =>
  let t := mtileF o
  let vt := c.vtype
  let f64 := t.fa == 0
  let kd := outDepth t.fa t.fb 8
  let steps := c.gc.toNat / kd
  let pa := panelBytes t.m kd t.fa
  let pb := panelBytes t.n kd t.fb
  do
    if c.resume = 0 then
      s.checkHolder 1 c.ga.toNat (steps * pa)
      s.checkHolder 2 c.gb.toNat (steps * pb)
    let k := c.resume
    let x := s.bufRead 1 (c.ga.toNat + k * pa) pa
    let y := s.bufRead 2 (c.gb.toNat + k * pb) pb
    let a := fun i kk => readFmt vt t.fa (bits x ((i * kd + kk) * memBits t.fa) (memBits t.fa))
    let b := fun j kk => readFmt vt t.fb (bits y ((j * kd + kk) * memBits t.fb) (memBits t.fb))
    let ka := s.kreg t.ka
    let kb := s.kreg t.kb
    let sa := fun i kk => if vtBlkA vt = 0 then FV.one
      else scaleVal (vtSfmt vt) (elem ka 8 (((k * kd + kk) / 2 ^ vtBlkA vt * t.m + i) % 256))
    let sb := fun j kk => if vtBlkB vt = 0 then FV.one
      else scaleVal (vtSfmt vt) (elem kb 8 (((k * kd + kk) / 2 ^ vtBlkB vt * t.n + j) % 256))
    let r := outerStep f64 false (arithRm (vtRm vt)) (List.range t.m) (List.range t.n)
      (fun i j => (List.range kd).map (fun kk => prod4 (sa i kk) (a i kk) (sb j kk) (b j kk))) (s.areg o.d.toNat)
    let s := ((s.setA o.d.toNat r.1).raise c r.2).modCmd c.qpos (fun e => { e with resume := k + 1 })
    pure (if steps ≤ k + 1 then s.finishCmd c else s)
/-- MTILE (R5, R164, R168, R178, R180). -/
def execMtile (o : OpG8) (s : State) : Host.Outcome State Fault Refusal :=
  let t := mtileF o
  let vt := s.slot.vtype
  let kd := outDepth t.fa t.fb 8
  let ga := (s.g o.a).toNat
  let gb := (s.g o.b).toNat
  let k := (s.g o.c).toNat
  let pa := panelBytes t.m kd t.fa
  let pb := panelBytes t.n kd t.fb
  let even := fun f r => !(f == 8 && r * kd % 2 != 0) && !((f == 6 || f == 7) && r * kd % 4 != 0)
  finish (do
    need (s.full || t.fa != 0) Trap.absent s
    need (!blkClash vt t.fa t.fb) (Trap.ill 0x08) s
    need (decide (1 ≤ k) && decide (k ≤ 65536) && k % kd == 0) (Trap.opnd 0x04) s
    need ((vtBlkA vt == 0 || decide (cdiv k (2 ^ vtBlkA vt) * t.m ≤ 256))
      && (vtBlkB vt == 0 || decide (cdiv k (2 ^ vtBlkB vt) * t.n ≤ 256))) (Trap.opnd 0x04) s
    need (even t.fa t.m && even t.fb t.n) (Trap.opnd 0x04) s
    need (decide (ga + k / kd * pa ≤ 524288) && decide (gb + k / kd * pb ≤ 393216)) (Trap.opnd 0x01) s
    need (ga % 64 == 0 && gb % 64 == 0) (Trap.align 0x02) s
    issue { eng := .mat, ins := .mtile o, ga := s.g o.a, gb := s.g o.b, gc := s.g o.c,
            ranges := [⟨1, ga, ga + k / kd * pa - 1, false⟩, ⟨2, gb, gb + k / kd * pb - 1, false⟩],
            rd := [.k t.ka, .k t.kb, .a o.d.toNat], wr := [.a o.d.toNat] } (effMtile o) s)

/-- The event of one step of the oldest running command of an engine that satisfies a test (R276, R287): a command that is
dispatched, not done and not stopped. -/
def State.stepRunning (run : Run1) (s : State) (p : Cmd → Bool) : M State :=
  match firstSat (fun c => c.under && p c) s.core.queue with
  | none => .ok s
  | some c => (s.pump run c.qpos).map (·.1)
/-- MTILE_STEP (R179): the matrix channel applies one k-step of a running MTILE. -/
def execMtileStep (cl core : Nat) (s : State) : Host.Outcome State Fault Refusal :=
  onCore cl core (fun s => s.stepRunning
    (fun c s => match c.ins with | .mtile o => effMtile o c s | _ => .ok s)
    (fun c => match c.ins with | .mtile _ => true | _ => false)) s

end Sys2Proof.Machine
end

