-- ==== Sys2Proof/Machine/Streams.lean ====
section
/-! DEFINITION. Stream ports: bindings and patterns, pushing and popping, router stages, and the rows in which patterns,
links and routers move tokens (R201 to R208, R226 to R235, R305 to R311). -/

namespace Sys2Proof.Machine

/-! ## Bindings (R226, R227) -/

/-- The neighbour of a core over a link, with the partner link (R305). -/
def nbrOf (cl co link : Nat) : Option (Nat × Nat × Nat) :=
  match link with
  | 0 => if co = 7 then none else some (cl, co + 1, 1)
  | 1 => if co = 0 then none else some (cl, co - 1, 0)
  | 2 => if cl % 20 = 19 then none else some (cl + 1, co, 3)
  | _ => if cl % 20 = 0 then none else some (cl - 1, co, 2)

/-- The fields of an SBIND's IMM32: TARGET, DIR, RANK. -/
def bindTarget (o : OpG8) : Nat := fld o.imm 4 16
/-- See `bindTarget`. -/
def bindDir (o : OpG8) : Nat := fld o.imm 3 1
/-- See `bindTarget`. -/
def bindRank (o : OpG8) : Nat := fld o.imm 0 3

/-- SBIND at dispatch (R226): the port must be unbound, a link free in that direction, and a pattern of the declared rank;
a pattern's range, for which its dispatch has waited, stays in the scoreboard. -/
def effSbind (kind : Nat) (o : OpG8) : Run1 := whole (fun c s => do
  let p := o.d.toNat
  let x := s.port p
  let tgt := bindTarget o
  let pat := if kind = 2 then (s.core.st.pat[tgt]?.getD none) else none
  let busy := kind == 5 && s.core.st.port.toList.any (fun y => y.kind == 5 && y.dir == bindDir o && y.target == tgt)
  let patBad := kind == 2 && pat.elim true (fun q => q.rk != bindRank o)
  need (x.kind == 0 && !busy && !patBad) (Trap.opndAt 0x07 p) s
  let n := s.core.st.binds + 1
  pure ((s.setPort p { Port.unbound with
    kind := kind, dir := bindDir o, rank := bindRank o, target := tgt, hi := c.hi, ep := c.ep, bind := n, pat := pat,
    range := pat.map (fun q => patRange q (bindDir o)) }).modSt (fun t => { t with binds := n })))

/-- What an SBIND or a SUNB enqueues. -/
def bindForm (i : Instr) (d : BitVec 6) (eff : Run1) (s : State) : Host.Outcome State Fault Refusal :=
  engine { eng := .seq, ins := i, wr := [.s d.toNat, .graph] } eff s

/-- SUNB (R226): its effect. -/
def effSunb (o : OpG8) : Run1 := whole (fun _ s => do
  let g := s.core.st.graph
  let live := g.state == .running || g.state == .frozen
  need (!(live && g.named.any (fun n => n.1 == o.d.toNat))) (Trap.opndAt 0x07 o.d.toNat) s
  pure (s.unbind o.d.toNat))
/-- SUNB (R226). -/
def execSunb (o : OpG8) (s : State) : Host.Outcome State Fault Refusal := bindForm (.sunb o) o.d (effSunb o) s
/-- SBIND.VEC (R226): its effect. -/
def effSbindVec (o : OpG8) : Run1 := effSbind 1 o
/-- SBIND.VEC (R226). -/
def execSbindVec (o : OpG8) (s : State) : Host.Outcome State Fault Refusal := bindForm (.sbindVec o) o.d (effSbindVec o) s
/-- SBIND.PAT (R226, R229, R234): its effect. -/
def effSbindPat (o : OpG8) : Run1 := effSbind 2 o
/-- SBIND.PAT (R226). -/
def execSbindPat (o : OpG8) (s : State) : Host.Outcome State Fault Refusal := bindForm (.sbindPat o) o.d (effSbindPat o) s
/-- SBIND.NIN (R226): its effect. -/
def effSbindNin (o : OpG8) : Run1 := effSbind 3 o
/-- SBIND.NIN (R226). -/
def execSbindNin (o : OpG8) (s : State) : Host.Outcome State Fault Refusal := bindForm (.sbindNin o) o.d (effSbindNin o) s
/-- SBIND.NOUT (R226): its effect. -/
def effSbindNout (o : OpG8) : Run1 := effSbind 4 o
/-- SBIND.NOUT (R226). -/
def execSbindNout (o : OpG8) (s : State) : Host.Outcome State Fault Refusal :=
  bindForm (.sbindNout o) o.d (effSbindNout o) s
/-- SBIND.NBR (R227): its effect. -/
def effSbindNbr (o : OpG8) : Run1 := effSbind 5 o
/-- SBIND.NBR (R227, R305): a link with no neighbour is found at commit. -/
def execSbindNbr (o : OpG8) (s : State) : Host.Outcome State Fault Refusal :=
  if (nbrOf s.cl s.co (bindTarget o)).isSome then bindForm (.sbindNbr o) o.d (effSbindNbr o) s
  else finish (.error (.trap (Trap.opnd 0x04) s))
/-- SBIND.RTR (R226, R227): its effect. -/
def effSbindRtr (o : OpG8) : Run1 := effSbind 6 o
/-- SBIND.RTR (R5, R226): the cluster is checked at commit. -/
def execSbindRtr (o : OpG8) (s : State) : Host.Outcome State Fault Refusal :=
  let cl := bits (bindTarget o) 7 6
  if 39 < cl then finish (.error (.trap (Trap.opnd 0x04) s))
  else if s.nclus ≤ cl then finish (.error (.trap Trap.absent s))
  else bindForm (.sbindRtr o) o.d (effSbindRtr o) s
/-- SBIND.BFY (R187, R226): its effect. -/
def effSbindBfy (o : OpG8) : Run1 := effSbind 7 o
/-- SBIND.BFY (R226). -/
def execSbindBfy (o : OpG8) (s : State) : Host.Outcome State Fault Refusal := bindForm (.sbindBfy o) o.d (effSbindBfy o) s
/-- SBIND.ARR (R176, R226): its effect. -/
def effSbindArr (o : OpG8) : Run1 := effSbind 8 o
/-- SBIND.ARR (R226). -/
def execSbindArr (o : OpG8) (s : State) : Host.Outcome State Fault Refusal := bindForm (.sbindArr o) o.d (effSbindArr o) s

/-! ## Patterns (R228, R229) -/

/-- Whether every byte of a pattern lies in [0, lim). -/
def patInside (p : Pattern) (lim : Nat) : Bool :=
  let span := fun (st : Int) (n : Nat) => ((n - 1 : Nat) : Int) * st
  decide (0 ≤ (p.base : Int) + min 0 (span p.s0 p.c0) + min 0 (span p.s1 p.c1)) && decide ((patRange p 0).hi < lim)
/-- SPAT (R228): its effect. -/
def effSpat (o : OpG8) : Run1 := whole (fun c s =>
  .ok (s.modSt (fun t => { t with pat := t.pat.setIfInBounds o.d.toNat (some (spatOf o c.ga c.gb c.gc)) })))
/-- SPAT (R228): the checks at commit. -/
def execSpat (o : OpG8) (s : State) : Host.Outcome State Fault Refusal :=
  let p := spatOf o (s.g o.a) (s.g o.b) (s.g o.c)
  let es : Nat := 2 ^ p.esz
  finish (do
    need (decide (1 ≤ p.c0) && decide (p.c0 ≤ 2 ^ 24) && decide (1 ≤ p.c1) && decide (p.c1 ≤ 2 ^ 24)) (Trap.opnd 0x04) s
    need (p.base % es == 0 && p.s0 % (es : Int) == 0 && p.s1 % (es : Int) == 0) (Trap.align 0x02) s
    if p.spc = 0 then need (patInside p (2 ^ 54)) { Trap.perm 0x01 with d0 := s.g o.a, d2 := 4 } s
    else need (patInside p (bufSize p.spc)) (Trap.opnd 0x01) s
    issue { eng := .seq, ins := .spat o, ga := s.g o.a, gb := s.g o.b, gc := s.g o.c, wr := [.graph] } (effSpat o) s)

/-- The address of a pattern's element (o, i) (R229). -/
def Port.patAddr (x : Port) (p : Pattern) : Nat := ((p.base : Int) + (x.o : Int) * p.s1 + (x.i : Int) * p.s0).toNat
/-- A port whose pattern has moved element (o, i): the next position, and whether a stop follows for a reader (R229). -/
def Port.patNext (x : Port) (p : Pattern) : Port :=
  if x.i + 1 < p.c0 then { x with i := x.i + 1 }
  else if x.o + 1 < p.c1 then { x with o := x.o + 1, i := 0, phase := if x.dir = 0 ∧ p.rk = 1 then 1 else 0 }
  else { x with o := x.o + 1, i := 0, phase := if x.dir = 0 then 1 else 0 }
/-- A pattern's port stopped at a fault: the record goes to the slot that issued the binding (R229). -/
def State.patFault (s : State) (p : Nat) (x : Port) (q : Pattern) (t : Trap) : State :=
  let tr := t.code == 0x06 || t.code == 0x07 || t.code == 0x08
  let t := { t with d1 := word (x.o * q.c0 + x.i), d2 := if tr then 4 else 0, d0 := if tr then t.d0 else word (x.patAddr q) }
  (s.setPort p { s.port p with phase := 4, flt := true }).asyncTrap x.hi t

/-- One token of a reading pattern. -/
def State.patRead (s : State) (p : Nat) : M State :=
  let x := s.port p
  match x.pat with
  | none => .ok s
  | some q =>
    if !(x.kind == 2 && x.dir == 0 && s.portRoom p) then .ok s
    else match x.phase with
    | 0 =>
      let es := 2 ^ q.esz
      let r : M (Nat × State) := do
        let (sp, s) ← s.access q.spc (x.patAddr q) es es .rd
        s.readSpot sp es
      (match r with
      | .ok (v, s) =>
        let v := if q.sx then unsgn 32 (sgn (8 * es) v) else v
        let s := s.pushPort p ⟨q.kind, v⟩
        let y := (s.port p).patNext q
        pure (s.setPort p y)
      | .error (.trap t s) => pure (s.patFault p x q t)
      | .error e => .error e)
    | 1 =>
      let last := decide (q.c1 ≤ x.o)
      let s := s.pushPort p (Token.stop (if last && q.rk == 1 then 1 else 0))
      pure (s.setPort p { s.port p with phase := if last then 2 else 0 })
    | 2 =>
      let s := s.pushPort p Token.done
      pure (s.setPort p { s.port p with phase := 3 })
    | _ => .ok s
/-- PATTERN_READ (R229, R296): a reading pattern emits one token, when its FIFO has room, in the view of its binding; under a
pre-emption request it has stopped at an element boundary (R377). -/
def execPatternRead (cl core port : Nat) (s : State) : Host.Outcome State Fault Refusal :=
  onCore cl core (fun s =>
    if s.clus.preempt then .ok s
    else State.inView (s.port port).ep (fun t => t.patRead port) { s with hi := (s.port port).hi }) s

/-- A failed check of an outgoing pattern: the token stays, and the record goes to the binding's slot (R206). -/
def State.patMalformed (s : State) (p : Nat) (x : Port) (sub : Nat) (t : Token) : State :=
  (s.setPort p { x with flt := true, phase := 5 }).asyncTrap x.hi (malformed sub 0 0 p true 0 t [])
/-- One token of a writing pattern. -/
def State.patWrite (s : State) (p : Nat) : M State :=
  let x := s.port p
  match x.pat, fifoHead x.fifo with
  | some q, some t =>
    if !(x.kind == 2 && x.dir == 1 && x.phase == 0) then .ok s
    else match grammarCheck x.gram x.rank (fun _ => true) t with
    | .error sub => pure (s.patMalformed p x sub t)
    | .ok g =>
      if t.isElem then
        if q.c1 ≤ x.o then pure (s.patMalformed p x 0x0A t)
        else
          let es := 2 ^ q.esz
          (match s.access q.spc (x.patAddr q) es es .wr with
          | .ok (sp, s) =>
            let s := s.writeSpot sp (t.val % 2 ^ (8 * es)) es
            (match s.popPort p with
            | some (_, s) => pure (s.setPort p ({ s.port p with gram := g }.patNext q))
            | none => .ok s)
          | .error (.trap e s) => pure (s.patFault p x q e)
          | .error e => .error e)
      else match s.popPort p with
      | some (_, s) => pure (s.setPort p { s.port p with gram := g, phase := if t.kind = 4 then 3 else 0 })
      | none => .ok s
  | _, _ => .ok s
/-- PATTERN_WRITE (R229): a writing pattern takes one token. -/
def execPatternWrite (cl core port : Nat) (s : State) : Host.Outcome State Fault Refusal :=
  onCore cl core (fun s => s.patWrite port) s

/-! ## Pushing and popping (R230 to R232) -/

/-- SEW 32, or ILLEGAL_INSTRUCTION SUB 0x08 (R230). -/
def sew32 (s : State) : M Unit := need (vtSewCode s.slot.vtype == 2) (Trap.ill 0x08) s
/-- The elements from the resume point on are pushed; a full port leaves the rest for later. -/
def pushElems (c : Cmd) (p kind : Nat) (v : VReg) : List Nat → State → M State
  | [], s => .ok s
  | i :: r, s =>
    match s.pushVec p ⟨kind, elem v 32 i⟩ with
    | some s => pushElems c p kind v r s
    | none => .error (.stall (s.modCmd c.qpos (fun e => { e with resume := i })))
/-- SPUSHV (R230): its effect. -/
def effSpushv (o : OpV4) : Run1 := whole (fun c s => do
  let p := o.d.toNat
  let n := c.len o.len 128
  let m := s.mreg o.msk.toNat
  let s := s.note c n (active m n)
  need (s.vecPort p true) (Trap.opndAt 0x07 p) s
  pushElems c p o.c.toNat (s.vreg o.a.toNat) ((actives m n).filter (fun i => decide (c.resume ≤ i))) s)
/-- SPUSHV (R230). -/
def execSpushv (o : OpV4) (s : State) : Host.Outcome State Fault Refusal :=
  finish (do
    sew32 s
    issue { eng := .vec, ins := .spushv o, lens := [o.len], rd := [.v o.a.toNat, .m o.msk.toNat, .s o.d.toNat] }
      (effSpushv o) s)

/-- A failed check at a vector pop (R206): a fault of the command, and the token stays. -/
def popFault (p sub : Nat) (t : Token) (s : State) : Stop :=
  .trap (malformed sub 0 0 p true 0 t []) (s.setPort p { s.port p with flt := true })
/-- The next token of port p that a pop takes, checked (R204): none while the port is empty. -/
def State.popChecked (s : State) (p : Nat) : M (Option (Token × State)) :=
  match s.popPort p with
  | none => .ok none
  | some (t, u) =>
    match grammarCheck (s.port p).gram (s.port p).rank (fun _ => true) t with
    | .error sub => .error (popFault p sub t s)
    | .ok g => .ok (some (t, u.setPort p { u.port p with gram := g }))
/-- The count that a pop pushes to a length queue, when B[2] asks for it. -/
def State.pushCount (s : State) (b : BitVec 6) (n : Nat) : State :=
  if flag b 2 then
    s.modF (fun f => { f with lq := f.lq.setIfInBounds (fld b 0 2) ((f.lq[fld b 0 2]?.getD []) ++ [n]) })
  else s
/-- The length queue to which a pop pushes. -/
def popPush (b : BitVec 6) : Option Nat := if flag b 2 then some (fld b 0 2) else none
/-- SPOPV from position n on. -/
def popvGo (c : Cmd) (p d : Nat) : Nat → Nat → State → M (Nat × State)
  | 0, n, s => .ok (n, s)
  | k + 1, n, s =>
    match fifoHead (s.port p).fifo with
    | none => .error (.stall (s.modCmd c.qpos (fun e => { e with resume := n })))
    | some t =>
      if t.isStop || t.kind == 4 then .ok (n, s)
      else do
        match ← s.popChecked p with
        | none => pure (n, s)
        | some (t, s) => popvGo c p d k (n + 1) (s.setV d (setElem (s.vreg d) 32 n t.val))
/-- SPOPV (R230): its effect. -/
def effSpopv (o : OpV4) : Run1 := whole (fun c s => do
  let p := o.d.toNat
  let vl := c.len o.len 128
  need (s.vecPort p false) (Trap.opndAt 0x07 p) (s.note c vl 0)
  let (n, s) ← popvGo c p o.a.toNat (vl - c.resume) c.resume s
  pure ((s.note c vl n).pushCount o.b n))
/-- What a pop enqueues. -/
def popTicket (o : OpV4) (i : Instr) (wr : List Res) : Ticket :=
  { eng := .vec, ins := i, lens := [o.len], push := popPush o.b, rd := .s o.d.toNat :: wr, wr := wr }
/-- SPOPV (R230): the count push is checked at commit. -/
def execSpopv (o : OpV4) (s : State) : Host.Outcome State Fault Refusal :=
  finish (do sew32 s; issue (popTicket o (.spopv o) [.v o.a.toNat]) (effSpopv o) s)
/-- SPOPK from position n on. -/
def popkGo (c : Cmd) (p m d : Nat) : Nat → Nat → State → M (Nat × State)
  | 0, n, s => .ok (n, s)
  | k + 1, n, s =>
    if (s.port p).done then .ok (n, s)
    else do
      match ← s.popChecked p with
      | none => .error (.stall (s.modCmd c.qpos (fun e => { e with resume := n })))
      | some (t, s) =>
        let v := if t.isElem then t.val else if t.kind = 4 then 0xFFFFFFFF else t.kind - 8
        let s := s.setV d (setElem (s.vreg d) 32 n v)
        popkGo c p m d k (n + 1) (s.setM m (setElem (s.mreg m) 1 n (b2n t.isElem)))
/-- SPOPK (R230): its effect. -/
def effSpopk (o : OpV4) : Run1 := whole (fun c s => do
  let p := o.d.toNat
  let m := o.a.toNat
  let vl := c.len o.len 128
  need (s.vecPort p false || decide (0 < c.resume)) (Trap.opndAt 0x07 p) (s.note c vl 0)
  let (n, s) ← popkGo c p m o.c.toNat (vl - c.resume) c.resume s
  pure (((s.note c vl n).setM m (maskOf n (fun i => flag (s.mreg m) i))).pushCount o.b n))
/-- SPOPK (R230). -/
def execSpopk (o : OpV4) (s : State) : Host.Outcome State Fault Refusal :=
  finish (do sew32 s; issue (popTicket o (.spopk o) [.v o.c.toNat, .m o.a.toNat]) (effSpopk o) s)

/-- One token pushed in queue order. -/
def pushOne (p : Nat) (t : State → Cmd → Token) : Run1 := whole (fun c s => do
  need (s.vecPort p true) (Trap.opndAt 0x07 p) s
  match s.pushVec p (t s c) with
  | some s => pure s
  | none => .error (.stall s))
/-- STOK (R231): its effect. -/
def effStok (o : OpA2) : Run1 := pushOne o.d.toNat (fun _ c => ⟨o.b.toNat, c.ga.toNat % 2 ^ 32⟩)
/-- STOK (R231). -/
def execStok (o : OpA2) (s : State) : Host.Outcome State Fault Refusal :=
  engine { eng := .vec, ins := .stok o, ga := s.g o.a, rd := [.s o.d.toNat] } (effStok o) s
/-- SDONE (R231): its effect. -/
def effSdone (o : OpA2) : Run1 := pushOne o.d.toNat (fun _ _ => Token.done)
/-- SDONE (R231). -/
def execSdone (o : OpA2) (s : State) : Host.Outcome State Fault Refusal :=
  engine { eng := .vec, ins := .sdone o, rd := [.s o.d.toNat] } (effSdone o) s
/-- SRANK (R231): its effect. -/
def effSrank (o : OpA2) : Run1 := whole (fun _ s => do
  let x := s.port o.d.toNat
  need (x.kind != 0 && !x.passed) (Trap.opndAt 0x07 o.d.toNat) s
  pure (s.setPort o.d.toNat { x with rank := o.b.toNat }))
/-- SRANK (R231): in the stream sequencer. -/
def execSrank (o : OpA2) (s : State) : Host.Outcome State Fault Refusal :=
  engine { eng := .seq, ins := .srank o, wr := [.s o.d.toNat] } (effSrank o) s
/-- SPOPG (R232, R133). -/
def execSpopg (o : OpA2) (s : State) : Host.Outcome State Fault Refusal :=
  let p := o.a.toNat
  returnForm .vec (.spopg o) [.s p] [] s (fun s => do
    need (s.vecPort p false) (Trap.opndAt 0x07 p) s
    match ← s.popChecked p with
    | none => .error (.stall s)
    | some (t, s) => pure (s.setG o.d (word (t.kind * 2 ^ 32 + t.val))))

/-! ## Links and routers (R227, R233, R305 to R310) -/

/-- RSTAGE (R233): its effect. -/
def effRstage (o : OpG8) : Run1 := whole (fun c s => do
  let p := o.c.toNat
  let x := s.port p
  need (x.kind == 6 && x.dir == 1) (Trap.opndAt 0x07 p) s
  pure (s.setPort p { x with stage := ⟨fld o.imm 0 2, fld o.imm 2 4, fld o.imm 6 8, c.ga⟩ }))
/-- RSTAGE (R233). -/
def execRstage (o : OpG8) (s : State) : Host.Outcome State Fault Refusal :=
  engine { eng := .seq, ins := .rstage o, ga := s.g o.a, gb := s.g o.b, wr := [.s o.c.toNat] } (effRstage o) s

/-- The first flit of a port leaves it toward a link or a router. -/
def Port.send (x : Port) : Option (Flit × Port) :=
  match x.fifo with
  | [] => none
  | f :: r =>
    if f.filling then none
    else some (f, { x with fifo := r, passed := true, done := x.done || f.toks.any (fun t => t.kind == 4) })
/-- The port of the current core that satisfies a test. -/
def State.findPort (s : State) (p : Port → Bool) : Option Nat := firstFrom (fun i => p (s.port i)) 0 16

/-- LINK_FLIT (R208, R305): the next flit of the port that leaves over a link enters the link, which holds two. -/
def execLinkFlit (cl core link : Nat) (s : State) : Host.Outcome State Fault Refusal :=
  onCore cl core (fun s =>
    match nbrOf cl core link, s.findPort (fun x => x.kind == 5 && x.dir == 1 && x.target == link) with
    | some (k, c, l), some p =>
      match (s.port p).send with
      | some (f, x) =>
        let far := s.coreAt k c
        let q := far.st.link[l]?.getD []
        if q.length < 2 then
          let s := s.setPort p x
          pure (s.setCoreAt k c { far with st := { far.st with link := far.st.link.setIfInBounds l (q ++ [f]) } })
        else pure s
      | none => pure s
    | _, _ => pure s) s

/-- The router after r on the way to the router of cluster d (R306). -/
def nextRouter (r d : Nat) : Nat :=
  let i := r % 20
  let x := i % 5
  let y := i / 5
  let dx := d % 20 % 5
  let dy := d % 20 / 5
  let base := r - i
  if r / 20 = d / 20 then
    (if x < dx then r + 1 else if dx < x then r - 1 else if y < dy then r + 5 else if dy < y then r - 5 else r)
  else if base = 0 then (if x < 4 then r + 1 else 20 + 5 * y)
  else (if 0 < x then r - 1 else 5 * y + 4)
/-- A flit is keyed (R233). -/
def Flit.key (f : Flit) : Option Nat :=
  match f.toks with
  | t :: r => if t.kind = 1 && r.all (fun u => u.kind == 0 || u.kind == 5) then some t.val else none
  | [] => none
/-- Two flits of one flow: from one binding to one destination port (R307). -/
def NetFlit.sameFlow (a b : NetFlit) : Bool :=
  a.sCl == b.sCl && a.sCore == b.sCore && a.sPort == b.sPort && a.sBind == b.sBind && a.dCl == b.dCl && a.dCore == b.dCore && a.dPort == b.dPort
/-- Two flits that wait in the same output queue (R306). -/
def NetFlit.sameQueue (a b : NetFlit) : Bool :=
  a.at_ == b.at_ && nextRouter a.at_ a.dCl == nextRouter b.at_ b.dCl && (a.at_ != a.dCl || a.dCore == b.dCore)
/-- The combining operation of a reduce stage (R233). -/
def ropVal (rop a b : Nat) : Nat :=
  match rop with
  | 0 => (faddR (fmtOf 1) 0 (fval (fmtOf 1) a) (fval (fmtOf 1) b)).1
  | 1 => (a + b) % 2 ^ 32
  | 2 => if sgn 32 a < sgn 32 b then b else a
  | _ => if sgn 32 b < sgn 32 a then b else a
/-- The tokens after the key of two merged flits (R308). -/
def mergeToks (rop : Nat) : List Token → List Token → List Token
  | [], b => b
  | a, [] => a
  | t :: a, u :: b =>
    (if t.kind = 0 ∧ u.kind = 0 then ⟨0, ropVal rop t.val u.val⟩ else if t.kind = 0 then t else u) :: mergeToks rop a b
/-- Merging into the last keyed flit of equal key of the flow in the queue, given newest first, unless an unkeyed flit of
the flow stands between (R308). -/
def mergeInto (n : NetFlit) (key : Nat) : List NetFlit → Option (List NetFlit)
  | [] => none
  | e :: r =>
    if e.sameQueue n && e.sameFlow n then
      match e.flit.key with
      | none => none
      | some k =>
        if k = key && e.stage.rop == n.stage.rop && e.stage.mode == 1 then
          let toks := (e.flit.toks.take 1) ++ mergeToks n.stage.rop (e.flit.toks.drop 1) (n.flit.toks.drop 1)
          some ({ e with flit := { e.flit with toks := toks, n := toks.length } } :: r)
        else (mergeInto n key r).map (e :: ·)
    else (mergeInto n key r).map (e :: ·)
/-- A counter record rises: counter 4 × router + k (R309). -/
def State.bumpRouter (s : State) (r k n : Nat) : State :=
  if n = 0 then s
  else { s with bd := { s.bd with rctr := put (4 * r + k) (((look (4 * r + k) s.bd.rctr).getD 0 + n) % 2 ^ 64) s.bd.rctr } }
/-- A flit enters a router's output queue, when there is room or it merges; none when it must wait. -/
def State.enterRouter (s : State) (n : NetFlit) : Option State :=
  let merged := match n.flit.key with
    | some k => if n.stage.mode = 1 then mergeInto n k s.bd.net.reverse else none
    | none => none
  match merged with
  | some l => some ({ s with bd := { s.bd with net := l.reverse } }.bumpRouter n.at_ 1 1)
  | none =>
    if (s.bd.net.filter (fun e => e.sameQueue n)).length < 8 then
      some { s with bd := { s.bd with net := s.bd.net ++ [n] } }
    else none
/-- Element i of a list removed. -/
def dropNth {α : Type} : List α → Nat → List α
  | [], _ => []
  | _ :: r, 0 => r
  | a :: r, i + 1 => a :: dropNth r i
/-- A flit leaves the port of a core for the router of its cluster; a filter acts there (R308). -/
def State.leavePort (s : State) (p : Nat) : State :=
  let x := s.port p
  if !(x.kind == 6 && x.dir == 1) then s
  else match x.send with
  | none => s
  | some (f, y) =>
    let n : NetFlit := ⟨f, s.cl, s.co, p, x.bind, bits x.target 7 6, bits x.target 4 3, bits x.target 0 4, s.cl, false, x.stage⟩
    let cut := x.stage.mode == 2 && f.key.elim false (fun k =>
      decide (k &&& fld x.stage.cmp 32 32 ≠ fld x.stage.cmp 0 32))
    if cut then (s.setPort p y).bumpRouter s.cl 2 1
    else match s.enterRouter n with
    | some t => t.setPort p y
    | none => s
/-- ROUTER_FLIT (R306 to R309): at router cl, a flit enters a queue. `index` below 128 names port index % 16 of core
index / 16 of the cluster, whose next flit leaves it; from 128 on, entry index − 128 of the flits under way, which must be
the first of its queue and have cl next on its route. -/
def execRouterFlit (cl index : Nat) (s : State) : Host.Outcome State Fault Refusal :=
  if index < 128 then onCore cl (index / 16) (fun s => pure (s.leavePort (index % 16))) s
  else
    let i := index - 128
    match s.bd.net[i]? with
    | none => .next s
    | some n =>
      let first := (s.bd.net.take i).all (fun e => !e.sameQueue n)
      if first && n.at_ != n.dCl && nextRouter n.at_ n.dCl == cl then
        let s' := { s with bd := { s.bd with net := dropNth s.bd.net i } }
        match s'.enterRouter { n with at_ := cl } with
        | some t => .next (t.bumpRouter n.at_ 0 1)
        | none => .next s
      else .next s

/-- Whether port p of a core accepts a flit: bound with KIND 6, DIR 0 and the flit's source as its TARGET, with room. -/
def State.acceptsNet (s : State) (n : NetFlit) (core p : Nat) : Bool :=
  let x := (s.coreAt n.dCl core).st.port[p]?.getD Port.unbound
  x.kind == 6 && x.dir == 0 && x.target == 128 * n.sCl + 16 * n.sCore + n.sPort && decide (x.fifo.length < 8)
/-- A flit enters the FIFO of port p of a core. -/
def State.landNet (s : State) (n : NetFlit) (core p : Nat) : State :=
  s.on n.dCl core false (fun s => s.landFlit p n.flit)
/-- The cores to which a flit goes (R308). -/
def NetFlit.dests (n : NetFlit) : List Nat :=
  if n.stage.mode = 3 then (List.range 8).filter (fun c => bitOf n.stage.mask c) else [n.dCore]
/-- A flit that stands at its destination's router reaches the ports; a multicast with no core in MASK drops it there. -/
def State.deliverNet (s : State) (i : Nat) (n : NetFlit) : State :=
  let ds := n.dests
  let s' := { s with bd := { s.bd with net := dropNth s.bd.net i } }
  if ds.isEmpty then s'.bumpRouter n.at_ 2 1
  else if ds.all (fun c => s.acceptsNet n c n.dPort) then
    ((ds.foldl (fun t c => t.landNet n c n.dPort) s').bumpRouter n.at_ 0 1).bumpRouter n.at_ 3 (ds.length - 1)
  else s
/-- FLIT_ARRIVE (R208, R227, R306 to R308): the next flit for a port bound with DIR 0 comes in: over its neighbour link, or
from the die network, where the first flit of the flow that the port accepts stands at the router of its cluster. -/
def execFlitArrive (cl core port : Nat) (s : State) : Host.Outcome State Fault Refusal :=
  onCore cl core (fun s =>
    let x := s.port port
    if x.kind == 5 && x.dir == 0 then
      match s.core.st.link[x.target]?.getD [] with
      | f :: r =>
        if x.fifo.length < 8 then
          pure ((s.landFlit port f).modSt (fun t => { t with link := t.link.setIfInBounds x.target r }))
        else pure s
      | [] => pure s
    else
      let mine := fun (n : NetFlit) => n.at_ == n.dCl && n.dCl == cl && n.dPort == port
        && (n.dests.isEmpty || (n.dests.contains core && x.target == 128 * n.sCl + 16 * n.sCore + n.sPort))
      match firstFrom (fun i => (s.bd.net[i]?).elim false mine) 0 s.bd.net.length with
      | some i => pure ((s.bd.net[i]?).elim s (fun n => s.deliverNet i n))
      | none => pure s) s

/-- SLOT_CREDIT_RETURN (R235, R310): the oldest credit that a core owes reaches its producer. -/
def execSlotCreditReturn (cl core : Nat) (s : State) : Host.Outcome State Fault Refusal :=
  onCore cl core (fun s => pure (s.modSt (fun t => { t with owed := t.owed.drop 1 }))) s

/-- The tokens that stand in flits, idle positions apart. -/
def tokensIn (fs : List Flit) : Nat := fs.foldl (fun n f => n + (f.toks.filter (fun t => t.kind != 5)).length) 0
/-- TOKENS of the current core (R235, R310): those in its node links and ports, those that it has sent and that are in a link,
at a router or at an interface, and those of its flits that another core has taken without having returned the credit. -/
def State.tokens (s : State) : Nat :=
  let me := s.coreId
  let mine := fun (fs : List Flit) => tokensIn (fs.filter (fun f => f.src == me))
  let sum := fun (l : List Nat) => l.foldl (· + ·) 0
  sum (s.core.st.graph.nodes.map (fun x => sum (x.2.ins.toList.map tokensIn)))
    + sum (s.core.st.port.toList.map (fun x => tokensIn x.fifo))
    + sum (s.cores.map (fun c => sum (c.2.st.link.toList.map mine)
        + (if c.1 = me then 0 else sum ((c.2.st.owed.filter (fun o => o.1 == me)).map (·.2)))))
    + mine (s.bd.net.map (·.flit))
/-- Whether a running node has a read outstanding, or emits more without another token (R235). -/
def Node.expects (n : Node) : Bool :=
  n.state == 2 && (n.fetch.isSome || (cfgType n.cfg == 0 && (n.fib.isSome || (decide (2 ≤ cfgMode n.cfg) && decide (n.root < 2)))))
/-- Whether a reading pattern has elements, a stop or its done still to emit (R229, R235). -/
def Port.expects (x : Port) : Bool := x.kind == 2 && x.dir == 0 && x.pat.isSome && x.phase != 3
/-- REPLIES of the current core (R235). -/
def State.replies (s : State) : Nat :=
  (s.core.st.graph.nodes.filter (fun n => n.2.expects)).length + (s.core.st.port.toList.filter Port.expects).length
/-- The word of GQUIET (R235). -/
def State.quietWord (s : State) : Word :=
  let t := min 65535 s.tokens
  let c := min 65535 s.core.st.owed.length
  let r := s.replies
  word ((b2n (t == 0 && c == 0 && r == 0) <<< 63) + (t <<< 32) + (c <<< 16) + r)

end Sys2Proof.Machine
end

