-- ==== Sys2Proof/Machine/Graph.lean ====
section
/-! DEFINITION. The node pool and the graph of a core: configuration words, graph control, and the firing of scanners,
joiners, repeaters, reducers, function nodes and writers (R204 to R225). -/

namespace Sys2Proof.Machine

/-! ## Configuration words (R210) -/

/-- Whether a source selector is well formed (R210). -/
def selOk (x : Nat) : Bool :=
  match x / 256 with
  | 0 => x == 0
  | 1 => !bitOf x 5 && (nodeClass (x % 32)).elim false (fun t => decide (bits x 6 2 < typeOuts t))
  | 2 => bits x 4 4 == 0
  | _ => false
/-- Whether input k of a type and mode is required, and whether it may stand (R211, R213, R218). -/
def inNeeds (t mode k : Nat) : Bool × Bool :=
  match t with
  | 0 => (decide (k = 0 ∧ mode < 2), decide (k = 0 ∧ mode < 2))
  | 1 => (k == 0 || k == 2, true)
  | 2 => (decide (k < 2), decide (k < 2))
  | 4 => (k == 0 || (k == 1 && decide (8 ≤ mode)), k == 0 || (k == 1 && decide (8 ≤ mode)))
  | _ => (k == 0, k == 0)
/-- Whether an offset that a word names is a multiple of 4 with room for a word in its buffer. -/
def offOk (spc off : Nat) : Bool := off % 4 == 0 && decide (off + 4 ≤ bufSize spc)
/-- Whether an entry of a joiner's table is well formed (R214). -/
def entryOk (e : Nat) : Bool :=
  let a := bits e 2 2
  let b := bits e 0 2
  a != 3 && b != 3 && (a == 1 || b == 1)
/-- Whether a word is malformed (R210): its reserved fields, node number, mode, inputs, outputs, offsets and table. -/
def cfgBad (x : BitVec 256) : Bool :=
  let t := cfgType x
  let mode := cfgMode x
  let spc := cfgSpc x
  let spcOk := decide (1 ≤ spc) && decide (spc ≤ 3)
  nodeClass (cfgNode x) != some t || fld x 160 25 != 0
    || (List.range 4).any (fun k => !selOk (cfgIn x k) || ((inNeeds t mode k).1 && cfgIn x k == 0)
        || (!(inNeeds t mode k).2 && cfgIn x k != 0))
    || (List.range 3).any (fun k => (!bitOf (cfgOut x k) 4 && cfgOut x k != 0) || (decide (typeOuts t ≤ k) && cfgOut x k != 0))
    || (match t with
        | 0 => decide (3 < mode) || !spcOk || !offOk spc (cfgOff1 x) || !offOk spc (cfgOff2 x) || cfgPar x 0 63 != 0
            || (decide (mode < 2) && cfgRank x == 7)
        | 1 => decide (2 < mode) || (decide (mode < 2) && cfgPar x 0 128 != 0)
            || (mode == 2 && (cfgPar x 17 111 != 0 || !entryOk (cfgPar x 10 5) || !entryOk (cfgPar x 5 5) || !entryOk (cfgPar x 0 5)))
        | 2 => mode != 0 || cfgPar x 0 128 != 0 || cfgRank x == 0
        | 3 => decide (5 < mode) || cfgPar x 0 128 != 0
        | 4 => decide (12 < mode) || (if mode = 7 then !spcOk || !offOk spc (cfgOff1 x) || cfgPar x 0 106 != 0
                                       else cfgPar x 0 128 != 0)
        | _ => decide (1 < mode) || !spcOk || !offOk spc (cfgOff1 x) || !offOk spc (cfgOff2 x) || cfgPar x 0 63 != 0
            || cfgLim x == 0)

/-- A node as its word configures it. -/
def Node.ofWord (x : BitVec 256) (from_ : Nat) : Node :=
  { cfg := x, from_ := from_, const := cfgConst x, ins := Vector.replicate 4 [], gram := Vector.replicate 4 Grammar.fresh,
    state := 1, done := false, stalli := false, stallo := false, fsub := 0, fin := 0, count := 0, fib := none, owed := false,
    root := 0, repA := [], repB := [], ixA := 0, ixB := 0, nA := 0, nB := 0, prevA := none, prevB := none, item := none,
    acc := cfgConst x, wn := 0, wf := 0, fetch := none, flags := 0, cut := false }
/-- The node as GSTART finds it, with the constant that it captures and its counts cleared (R222). -/
def Node.start (n : Node) : Node := { Node.ofWord n.cfg n.from_ with const := n.const, acc := n.const, state := 2 }

/-! ## Graph control (R220 to R225) -/

/-- The state of a graph that is not started. -/
def Graph.rest (g : Graph) : GState := if g.members.isEmpty then .none else .idle
/-- n words of 32 bytes from an address: each with where it stands; a failed access names its element. -/
def readWords (spc a n : Nat) (s : State) : M (List (BitVec 256 × Nat) × State) := do
  let (xs, s) ← loadElems (fun i => a + 32 * i) (fun s i => do
    let (p, s) ← s.access spc (a + 32 * i) 32 32 .rd
    s.readSpot p 32) (List.range n) s
  pure (xs.map (fun x => (BitVec.ofNat 256 x.2, spc * 2 ^ 54 + (a + 32 * x.1))), s)
/-- Whether a list holds a number twice. -/
def hasTwice : List Nat → Bool
  | [] => false
  | a :: r => r.contains a || hasTwice r
/-- Configuring n words (R221): all are checked before anything changes. -/
def configure (spc n : Nat) (all : Bool) : Run1 := whole (fun c s => do
  let g := s.core.st.graph
  if g.state == .running then .error (.stall s)
  else do
    need (g.state != .finished && g.state != .frozen) { Trap.opnd 0x07 with d0 := c.ga } s
    let (ws, s) ← readWords spc c.ga.toNat n s
    need (!ws.any (fun w => cfgBad w.1) && !hasTwice (ws.map (fun w => cfgNode w.1))) { Trap.opnd 0x08 with d0 := c.ga } s
    let add := ws.foldl (fun l w => put (cfgNode w.1) (Node.ofWord w.1 w.2) l) (if all then [] else g.nodes)
    pure (s.modGraph (fun g => let g := { g with nodes := add, reported := false }; { g with state := g.rest })))
/-- The address checks of GCFG and GNODE at commit (R106, R221). -/
def cfgForm (i : Instr) (o : OpG8) (n : Nat) (eff : Run1) (s : State) : Host.Outcome State Fault Refusal :=
  let spc := fld o.imm 0 3
  let a := (s.g o.a).toNat
  finish (do
    if spc = 0 then need (decide (a < 2 ^ 54)) { Trap.perm 0x01 with d0 := s.g o.a } s
    else need (decide (a + 32 * n ≤ bufSize spc)) (Trap.opnd 0x01) s
    need (a % 32 == 0) (Trap.align 0x02) s
    issue { eng := .seq, ins := i, ga := s.g o.a, ranges := [⟨spc, a, a + 32 * n - 1, false⟩], wr := [.graph] } eff s)
/-- GCFG (R221): its effect. -/
def effGcfg (o : OpG8) : Run1 := configure (fld o.imm 0 3) (fld o.imm 3 5) true
/-- GCFG (R221). -/
def execGcfg (o : OpG8) (s : State) : Host.Outcome State Fault Refusal :=
  cfgForm (.gcfg o) o (fld o.imm 3 5) (effGcfg o) s
/-- GNODE (R221): its effect. -/
def effGnode (o : OpG8) : Run1 := configure (fld o.imm 0 3) 1 false
/-- GNODE (R221). -/
def execGnode (o : OpG8) (s : State) : Host.Outcome State Fault Refusal := cfgForm (.gnode o) o 1 (effGnode o) s

/-- The declared rank of output j of a node (R211). -/
def outRank (x : BitVec 256) : Nat :=
  match cfgType x with
  | 0 => if 2 ≤ cfgMode x then 0 else cfgRank x + 1
  | 3 => cfgRank x - 1
  | _ => cfgRank x
/-- The declared rank of input k of a node (R211). -/
def inRank (x : BitVec 256) (k : Nat) : Nat := if cfgType x == 2 && k == 0 then cfgRank x - 1 else cfgRank x
/-- The rank that a naming member declares for a port. -/
def namedRank (g : Graph) (n : Nat × Nat × Bool × Nat) : Nat :=
  ((look n.2.1 g.nodes).map (fun x => if n.2.2.1 then outRank x.cfg else inRank x.cfg n.2.2.2)).getD 0
/-- Whether GSTART accepts a port that a member names (R222). -/
def portStarts (s : State) (g : Graph) (n : Nat × Nat × Bool × Nat) : Bool :=
  let x := s.port n.1
  let out := n.2.2.1
  let open_ := ((x.kind == 2 || x.kind == 5 || x.kind == 6) && x.dir == b2n out) || (!out && (x.kind == 7 || x.kind == 8))
  x.kind == 0 || ((open_ || x.boundTo n.2.1 out n.2.2.2) && x.rank == namedRank g n)
/-- The members that feed a member through node links. -/
def feeders (x : BitVec 256) : List Nat :=
  ((List.range 4).filter (fun k => cfgIn x k / 256 == 1)).map (fun k => cfgIn x k % 32)
/-- The members left after those that no member left feeds have been taken away, n times over. -/
def peel : Nat → List (Nat × Node) → List (Nat × Node)
  | 0, l => l
  | n + 1, l => peel n (l.filter (fun m => (feeders m.2.cfg).any (fun f => l.any (fun y => y.1 == f))))
/-- The ports that members name and nothing binds are bound (R207, R222). -/
def State.bindNamed (s : State) (hi : Bool) : State :=
  let g := s.core.st.graph
  g.named.foldl (fun s n =>
    if (s.port n.1).kind = 0 then
      s.setPort n.1 { Port.unbound with kind := if n.2.2.1 then 4 else 3, dir := b2n n.2.2.1, rank := namedRank g n,
                                        target := 32 * n.2.2.2 + n.2.1, hi := hi }
    else s) s
/-- GSTART (R207, R219, R222): its effect; its dispatch has waited for the ranges. -/
def effGstart : Run1 := whole (fun c s => do
  let g := s.core.st.graph
  let ms := g.members
  let named := g.named
  need (g.state == .idle && !ms.isEmpty && ms.all (fun m => (feeders m.2.cfg).all (fun f => ms.any (fun y => y.1 == f)))
    && (peel 22 ms).isEmpty && !hasTwice (named.map (·.1)) && named.all (portStarts s g)) (Trap.opnd 0x07) s
  let ranges := graphRanges g
  let s := s.bindNamed c.hi
  need (ranges.all (fun r => !s.core.notHolder r.spc r.lo (r.hi + 1 - r.lo)))
    { Trap.holder with d0 := word (((firstSat (fun (r : Range) => s.core.notHolder r.spc r.lo (r.hi + 1 - r.lo)) ranges).map (·.lo)).getD 0) } s
  let s := ms.foldl (fun s m =>
    if cfgType m.2.cfg == 5 && cfgMode m.2.cfg == 1 then s.bufWrite (cfgSpc m.2.cfg) (cfgOff2 m.2.cfg) 0 4 else s) s
  pure (s.modGraph (fun g => { g with
    state := .running, fnode := 0, reported := false, hi := c.hi, rm := vtRm c.vtype, ranges := ranges,
    ports := named.map (·.1), nodes := g.nodes.map (fun n => if cfgG n.2.cfg then (n.1, n.2.start) else n) })))
/-- Every port. -/
def allPorts : List Res := (List.range 16).map Res.s
/-- A graph-control form without operands, in the stream sequencer: it may bind and unbind ports (R222, R224). -/
def graphForm (i : Instr) (eff : Run1) (s : State) : Host.Outcome State Fault Refusal :=
  engine { eng := .seq, ins := i, wr := .graph :: allPorts } eff s
/-- GSTART (R222). -/
def execGstart (o : OpG8) (s : State) : Host.Outcome State Fault Refusal := graphForm (.gstart o) effGstart s

/-- The flags of the graph's nodes go to the STATUS of the slot of GSTART (R218). -/
def State.graphFlags (s : State) : State :=
  let g := s.core.st.graph
  let fl := g.nodes.foldl (fun a n => a ||| n.2.flags) 0
  let s := s.modGraph (fun g => { g with nodes := g.nodes.map (fun n => (n.1, { n.2 with flags := 0 })) })
  s.modCore (fun k => k.setSlot g.hi { k.slot g.hi with status := statusWith (k.slot g.hi).status fl 0 })
/-- The graph is taken down (R224): its ports are unbound and their flits discarded, its links emptied, its ranges released,
and the configuration kept. -/
def State.tearDown (s : State) (clear : Bool) : State :=
  let s := s.core.st.graph.ports.foldl (fun s p => s.unbind p) s
  s.modGraph (fun g =>
    let g := { g with ranges := [], ports := [], reported := false, fnode := 0, nodes := g.nodes.map (fun (n : Nat × Node) =>
      (n.1, if clear then { Node.ofWord n.2.cfg n.2.from_ with const := n.2.const }
            else { n.2 with state := 1, ins := Vector.replicate 4 [], fib := none, fetch := none })) }
    { g with state := g.rest })
/-- GSTOP (R224): its effect. -/
def effGstop : Run1 := whole (fun _ s =>
  match s.core.st.graph.state with
  | .none => .ok s
  | .idle => .ok s
  | .running =>
    let s := s.graphFlags.modGraph (fun g => { g with state := .frozen, nodes := g.nodes.map (fun n =>
      (n.1, if n.2.state = 2 then { n.2 with state := 3 } else n.2)) })
    .error (.trap { code := 0x0C, sub := 0x03 } s)
  | .finished => .ok (s.tearDown false)
  | .frozen => .error (.trap (Trap.opnd 0x07) s))
/-- GSTOP (R224). -/
def execGstop (o : OpG8) (s : State) : Host.Outcome State Fault Refusal := graphForm (.gstop o) effGstop s
/-- GRESET (R224): its effect. -/
def effGreset : Run1 := whole (fun _ s =>
  match s.core.st.graph.state with
  | .none => .ok s
  | .idle => .ok s
  | .running => .ok (s.graphFlags.tearDown false)
  | .finished => .ok (s.tearDown false)
  | .frozen => .ok (s.tearDown true))
/-- GRESET (R224). -/
def execGreset (o : OpG8) (s : State) : Host.Outcome State Fault Refusal := graphForm (.greset o) effGreset s
/-- GWAIT (R223): commit stalls until the graph is not running. -/
def execGwait (o : OpG8) (s : State) : Host.Outcome State Fault Refusal :=
  returnForm .seq (.gwait o) [.graph] [] s (fun s =>
    if s.core.st.graph.state == .running then .error (.stall s) else .ok s)

/-- The word of a port (R59). -/
def Port.word (x : Port) : Word :=
  Machine.word ((x.kind <<< 60) + (x.dir <<< 59) + (x.rank <<< 56) + (b2n x.done <<< 55) + (b2n x.flt <<< 54)
    + (min 8 (fifoFill x.fifo) <<< 50) + x.target % 65536)
/-- The status of a node (R225): one that does not run waits for nothing (R362). -/
def Node.word (n : Node) : Word :=
  Machine.word ((n.state <<< 62) + (cfgType n.cfg <<< 59) + (b2n (cfgG n.cfg) <<< 58) + (b2n n.done <<< 57)
    + (b2n (n.state == 2 && n.stalli) <<< 56) + (b2n (n.state == 2 && n.stallo) <<< 55) + ((n.fsub % 16) <<< 51) + (n.fin <<< 49) + n.count % 2 ^ 24)
/-- The state code of a graph (R220). -/
def GState.code : GState → Nat
  | .none => 0 | .idle => 1 | .running => 2 | .finished => 3 | .frozen => 4
/-- The status of the graph (R225). -/
def Graph.word (g : Graph) : Word :=
  Machine.word ((g.state.code <<< 61) + (g.fnode <<< 56) + g.members.foldl (fun m n => m ||| (1 <<< n.1)) 0)
/-- What GSTAT returns for a selector, or none (R225). -/
def State.statWord (s : State) (n : Nat) : Option Word :=
  if n < 16 then some (s.port n).word
  else if n = 0x30 then some s.core.st.graph.word
  else if n < 0x30 ∧ (nodeClass (n - 16)).isSome then some (((look (n - 16) s.core.st.graph.nodes).map Node.word).getD 0)
  else none
/-- GSTAT (R225): the selector is checked at commit; it waits for every older push and pop. -/
def execGstat (o : OpA2) (s : State) : Host.Outcome State Fault Refusal :=
  let n := (s.g o.a).toNat
  if (s.statWord n).isNone then finish (.error (.trap (Trap.opnd 0x04) s))
  else returnForm .seq (.gstat o) [.graph] allPorts s (fun s => .ok (s.setG o.d ((s.statWord n).getD 0)))
/-- GQUIET (R235). -/
def execGquiet (o : OpA2) (s : State) : Host.Outcome State Fault Refusal :=
  returnForm .seq (.gquiet o) [.graph] allPorts s (fun s => .ok (s.setG o.d s.quietWord))

/-! ## Firing (R204 to R206, R212) -/

/-- Why a node does not fire. -/
inductive NoFire where
  /-- it waits for an input -/
  | needIn
  /-- it waits for room on an output -/
  | needOut
  /-- a check fails at an input (R205) -/
  | bad (input sub : Nat)
  deriving DecidableEq, Repr

/-- A firing in progress. -/
abbrev FireM := Except NoFire

/-- Node n of the current core's graph. -/
def State.node (s : State) (n : Nat) : Node := (look n s.core.st.graph.nodes).getD (Node.ofWord 0 0)
/-- A node changed. -/
def State.modNode (s : State) (n : Nat) (f : Node → Node) : State :=
  s.modGraph (fun g => { g with nodes := put n (f ((look n g.nodes).getD (Node.ofWord 0 0))) g.nodes })
/-- The FIFO of input k of node n: its node link, or a port. -/
def State.inFifo (s : State) (n k : Nat) : List Flit :=
  let x := s.node n
  let sel := cfgIn x.cfg k
  if sel / 256 = 2 then (s.port (sel % 16)).fifo else x.ins[k]?.getD []
/-- The element kinds that input k of a word accepts (R211). -/
def accepts (x : BitVec 256) (k kind : Nat) : Bool :=
  let ref := kind == 2 || kind == 3
  match cfgType x with
  | 0 => ref
  | 1 => if k % 2 = 1 then ref else kind == 1
  | 2 => k == 1 || true
  | 4 => if cfgMode x = 0 then true else if cfgMode x = 7 then ref else kind == 0
  | 5 => if cfgMode x = 1 then kind == 1 else true
  | _ => kind == 0
/-- The head token of input k, checked under R204. -/
def State.headAt (s : State) (n k : Nat) : FireM Token :=
  match fifoHead (s.inFifo n k) with
  | none => .error .needIn
  | some t =>
    let x := s.node n
    match grammarCheck (x.gram[k]?.getD Grammar.fresh) (inRank x.cfg k) (accepts x.cfg k) t with
    | .error sub => .error (.bad k sub)
    | .ok _ => .ok t
/-- Input k is checked when a token has come to its head, whatever the other inputs hold (R204). -/
def State.checkAt (s : State) (n k : Nat) : FireM Unit :=
  match s.headAt n k with
  | .error (.bad i c) => .error (.bad i c)
  | _ => .ok ()
/-- The head token of input k is consumed. -/
def State.takeAt (s : State) (n k : Nat) : State :=
  let x := s.node n
  let sel := cfgIn x.cfg k
  match fifoHead (s.inFifo n k) with
  | none => s
  | some t =>
    let g := match grammarCheck (x.gram[k]?.getD Grammar.fresh) (inRank x.cfg k) (accepts x.cfg k) t with
      | .ok g => g
      | .error _ => Grammar.fresh
    let s := if sel / 256 = 2 then ((s.popPort (sel % 16)).map (·.2)).getD s
      else s.modNode n (fun x => { x with ins := x.ins.setIfInBounds k (((fifoPop (x.ins[k]?.getD [])).map (·.2)).getD []) })
    s.modNode n (fun x => { x with gram := x.gram.setIfInBounds k g })
/-- The consumers of output j of node n over node links: member and input. -/
def State.outLinks (s : State) (n j : Nat) : List (Nat × Nat) :=
  s.core.st.graph.members.flatMap (fun m =>
    ((List.range 4).filter (fun k => cfgIn m.2.cfg k == 256 + 64 * j + n)).map (fun k => (m.1, k)))
/-- Whether output j carries anything: a joiner's reference output follows its input (R211). -/
def carries (x : BitVec 256) (j : Nat) : Bool :=
  !(cfgType x == 1 && ((j == 1 && cfgIn x 1 == 0) || (j == 2 && cfgIn x 3 == 0)))
/-- Whether every consumer of output j has room (R208). -/
def State.outRoom (s : State) (n j : Nat) : Bool :=
  let x := (s.node n).cfg
  !carries x j || ((s.outLinks n j).all (fun c => fifoRoom 2 ((s.node c.1).ins[c.2]?.getD []))
    && (!bitOf (cfgOut x j) 4 || s.portRoom (cfgOut x j % 16)))
/-- A token is sent on output j, to every consumer. -/
def State.sendOut (s : State) (n j : Nat) (t : Token) : State :=
  let x := (s.node n).cfg
  if carries x j then
    let s := (s.outLinks n j).foldl (fun s c =>
      s.modNode c.1 (fun y => { y with ins := y.ins.setIfInBounds c.2 (fifoPush s.coreId t (y.ins[c.2]?.getD [])) })) s
    let s := if bitOf (cfgOut x j) 4 then s.pushPort (cfgOut x j % 16) t else s
    s.modNode n (fun y => { y with count := min (2 ^ 24 - 1) (y.count + 1), done := y.done || t.kind == 4 })
  else s
/-- The tokens of a firing are sent, if every output that is written has room (R212). -/
def State.emits (s : State) (n : Nat) (l : List (Nat × Token)) : FireM State :=
  if l.all (fun p => s.outRoom n p.1) then .ok (l.foldl (fun s p => s.sendOut n p.1 p.2) s) else .error .needOut

/-- GRAPH_FINISH (R220): every member has emitted done, or consumed it as a writer. -/
def State.checkFinish (s : State) : State :=
  let g := s.core.st.graph
  if g.state == .running && g.members.all (fun m => m.2.done) then
    s.graphFlags.modGraph (fun g => { g with state := .finished, nodes := g.nodes.map (fun n =>
      (n.1, if n.2.state = 2 then { n.2 with state := 1 } else n.2)) })
  else s
/-- STREAM_MALFORMED at a node (R206): the offending token is the head of its input, or a root scanner's reference 0 (R213); it freezes; the graph's first failure freezes the graph and writes a record. -/
def State.nodeFail (s : State) (n input sub : Nat) : State :=
  let x := s.node n
  let heads := (List.range 4).map (fun k => if cfgIn x.cfg k = 0 then none else fifoHead (s.inFifo n k))
  let own := if cfgType x.cfg = 0 ∧ 2 ≤ cfgMode x.cfg then ⟨2, 0⟩ else (nthD none heads input).getD ⟨5, 0⟩
  let others := dropNth heads input
  let sel := cfgIn x.cfg input
  let s := if sel / 256 = 2 then s.setPort (sel % 16) { s.port (sel % 16) with flt := true } else s
  let s := s.modNode n (fun y => { y with state := 3, fsub := sub, fin := input, stalli := false, stallo := false })
  let g := s.core.st.graph
  if g.reported || g.state != .running then s
  else
    let s := s.graphFlags.modGraph (fun g => { g with state := .frozen, fnode := n, reported := true })
    s.asyncTrap g.hi (malformed sub (x.from_ / 2 ^ 54) x.from_ n false input own others)
/-- One firing of a node of a type, when it can fire: a running member of a running or frozen graph. -/
def fire (cl core n ty : Nat) (f : State → Node → FireM State) (s : State) : Host.Outcome State Fault Refusal :=
  onCore cl core (fun s =>
    match look n s.core.st.graph.nodes with
    | none => .ok s
    | some x =>
      if x.state == 2 && cfgG x.cfg && cfgType x.cfg == ty && !x.cut then
        match f s x with
        | .ok t => .ok ((t.modNode n (fun y => { y with stalli := false, stallo := false })).checkFinish)
        | .error .needIn => .ok (s.modNode n (fun y => { y with stalli := true, stallo := false }))
        | .error .needOut => .ok (s.modNode n (fun y => { y with stalli := false, stallo := true }))
        | .error (.bad k sub) => .ok (s.nodeFail n k sub)
      else .ok s) s

/-! ### Scanner (R213) -/

/-- A 32-bit word of a buffer, when it lies inside. -/
def State.bufWord (s : State) (spc a : Nat) : Option Nat :=
  if a + 4 ≤ bufSize spc then some (s.bufRead spc a 4) else none
/-- A fibre's first and last positions for a reference, or its failure. -/
def fibreOf (s : State) (x : BitVec 256) (r : Nat) : FireM (Option (Nat × Nat × Nat)) :=
  let spc := cfgSpc x
  if cfgMode x % 2 = 1 then .ok (if cfgLim x = 0 then none else some (r, 0, cfgLim x))
  else
    match s.bufWord spc (cfgOff1 x + 4 * r), s.bufWord spc (cfgOff1 x + 4 * r + 4) with
    | some a, some e =>
      if e < a ∨ (a < e ∧ bufSize spc < cfgOff2 x + 4 * e) then .error (.bad 0 0x08)
      else .ok (if a = e then none else some (r, a, e))
    | _, _ => .error (.bad 0 0x08)
/-- The head of a scanner's input: in a root mode, reference 0 and then done. -/
def scanHead (s : State) (n : Nat) (x : Node) : FireM Token :=
  if 2 ≤ cfgMode x.cfg then (match x.root with | 0 => .ok ⟨2, 0⟩ | 1 => .ok Token.done | _ => .error .needIn)
  else s.headAt n 0
/-- A scanner's input is consumed. -/
def scanTake (s : State) (n : Nat) (x : Node) : State :=
  if 2 ≤ cfgMode x.cfg then s.modNode n (fun y => { y with root := y.root + 1 }) else s.takeAt n 0
/-- One firing of a scanner (R213). -/
def fireScanner (n : Nat) (s : State) (x : Node) : FireM State :=
  let both := fun (s : State) (t u : Token) => s.emits n [(0, t), (1, u)]
  match x.fib with
  | some (r, p, e) => do
    let c := if cfgMode x.cfg % 2 = 1 then p else s.bufRead (cfgSpc x.cfg) (cfgOff2 x.cfg + 4 * p) 4
    let v := if cfgMode x.cfg % 2 = 1 then (r * cfgLim x.cfg + p) % 2 ^ 32 else p
    let s ← both s ⟨1, c⟩ ⟨2, v⟩
    pure (s.modNode n (fun y => { y with fib := if p + 1 < e then some (r, p + 1, e) else none }))
  | none => do
    let t ← scanHead s n x
    if t.isStop then
      let o := Token.stop (t.kind - 7)
      let s ← both s o o
      pure ((scanTake s n x).modNode n (fun y => { y with owed := false }))
    else if x.owed then
      let s ← both s (Token.stop 0) (Token.stop 0)
      pure (s.modNode n (fun y => { y with owed := false }))
    else if t.kind = 4 then
      let s ← both s Token.done Token.done
      pure (scanTake s n x)
    else
      let fib ← if t.kind = 3 then .ok none else fibreOf s x.cfg t.val
      pure ((scanTake s n x).modNode n (fun y => { y with fib := fib, owed := true }))
/-- SCANNER_FIRE (R213). -/
def execScannerFire (cl core node : Nat) (s : State) : Host.Outcome State Fault Refusal :=
  fire cl core node 0 (fireScanner node) s

/-! ### Joiner (R214, R215) -/

/-- The table of a joiner, LT, EQ, GT, and TAIL (R214). -/
def joinTable (x : BitVec 256) : Nat × Nat × Nat × Nat :=
  match cfgMode x with
  | 0 => (0x04, 0x15, 0x01, 0)
  | 1 => (0x14, 0x15, 0x11, 3)
  | _ => (cfgPar x 10 5, cfgPar x 5 5, cfgPar x 0 5, cfgPar x 15 2)
/-- The head of one side of a joiner: the coordinate token, the reference token, and whether it is replayed. -/
def joinHead (s : State) (n : Nat) (x : Node) (b : Bool) : FireM (Token × Token × Bool) :=
  let ci := if b then 2 else 0
  let rep := if b then x.repB else x.repA
  let ix := if b then x.ixB else x.ixA
  let prev := if b then x.prevB else x.prevA
  match rep[ix]? with
  | some (c, r) => .ok (⟨1, c⟩, r, true)
  | none => do
    s.checkAt n ci
    if cfgIn x.cfg (ci + 1) ≠ 0 ∧ (s.headAt n ci).toBool = false then s.checkAt n (ci + 1)
    let c ← s.headAt n ci
    if c.kind = 1 && prev.elim false (fun p => decide (c.val ≤ p)) then .error (.bad ci 0x04)
    else if cfgIn x.cfg (ci + 1) = 0 then .ok (c, if c.isElem then ⟨3, 0⟩ else c, false)
    else do
      let r ← s.headAt n (ci + 1)
      if (c.isElem && r.isElem) || (!c.isElem && c.kind == r.kind) then .ok (c, r, false)
      else .error (.bad (ci + 1) 0x07)
/-- One side advances past its head. -/
def joinAdvance (s : State) (n : Nat) (x : Node) (b : Bool) (h : Token × Token × Bool) : State :=
  let ci := if b then 2 else 0
  if h.2.2 then s.modNode n (fun y => if b then { y with ixB := y.ixB + 1 } else { y with ixA := y.ixA + 1 })
  else
    let s := s.takeAt n ci
    let s := if cfgIn x.cfg (ci + 1) = 0 then s else s.takeAt n (ci + 1)
    let add := fun (l : List (Nat × Token)) (k : Nat) => if k < 256 then l ++ [(h.1.val, h.2.1)] else l
    s.modNode n (fun y =>
      if h.1.isElem then
        (if b then { y with repB := add y.repB y.nB, ixB := (add y.repB y.nB).length, nB := y.nB + 1, prevB := some h.1.val }
         else { y with repA := add y.repA y.nA, ixA := (add y.repA y.nA).length, nA := y.nA + 1, prevA := some h.1.val })
      else (if b then { y with repB := [], ixB := 0, nB := 0, prevB := none }
            else { y with repA := [], ixA := 0, nA := 0, prevA := none }))
/-- One side returns to the first element of its fibre (R215). -/
def joinReset (s : State) (n : Nat) (b : Bool) : State :=
  s.modNode n (fun y => if b then { y with ixB := 0 } else { y with ixA := 0 })
/-- The action of a table entry on one side. -/
def joinAct (s : State) (n : Nat) (x : Node) (b : Bool) (h : Token × Token × Bool) (act : Nat) : State :=
  match act with
  | 1 => joinAdvance s n x b h
  | 2 => joinReset s n b
  | _ => s
/-- The heads of both sides; each side is checked whether or not the other has one (R204, R215). With both bad the first side's
failure is the one reported (DESIGN CHOICE, log 85). -/
def bothHeads {α : Type} (a b : FireM α) : FireM (α × α) :=
  match a, b with
  | .error (.bad k c), _ => .error (.bad k c)
  | _, .error (.bad k c) => .error (.bad k c)
  | .ok x, .ok y => .ok (x, y)
  | .error e, _ => .error e
  | _, .error e => .error e
/-- One firing of a joiner (R214, R215). -/
def fireJoiner (n : Nat) (s : State) (x : Node) : FireM State := do
  let (a, b) ← bothHeads (joinHead s n x false) (joinHead s n x true)
  let tab := joinTable x.cfg
  let none3 : Token := ⟨3, 0⟩
  let three := fun (s : State) (c r q : Token) => s.emits n [(0, c), (1, r), (2, q)]
  if a.1.isElem && b.1.isElem then
    let lt := decide (a.1.val < b.1.val)
    let eq := a.1.val == b.1.val
    let e := if lt then tab.1 else if eq then tab.2.1 else tab.2.2.1
    let actA := bits e 2 2
    let actB := bits e 0 2
    if actA = 2 ∧ 256 < x.nA then .error (.bad 0 0x09)
    else if actB = 2 ∧ 256 < x.nB then .error (.bad 2 0x09)
    else
      let s ← if bitOf e 4 then
          (if lt then three s a.1 a.2.1 none3 else if eq then three s a.1 a.2.1 b.2.1 else three s b.1 none3 b.2.1)
        else .ok s
      pure (joinAct (joinAct s n x false a actA) n x true b actB)
  else if a.1.isElem then
    let s ← if bitOf tab.2.2.2 1 then three s a.1 a.2.1 none3 else .ok s
    pure (joinAdvance s n x false a)
  else if b.1.isElem then
    let s ← if bitOf tab.2.2.2 0 then three s b.1 none3 b.2.1 else .ok s
    pure (joinAdvance s n x true b)
  else if a.1.kind = b.1.kind then
    let s ← three s a.1 a.1 a.1
    pure (joinAdvance (joinAdvance s n x false a) n x true b)
  else .error (.bad 2 0x07)
/-- JOINER_FIRE (R214, R215). -/
def execJoinerFire (cl core node : Nat) (s : State) : Host.Outcome State Fault Refusal :=
  fire cl core node 1 (fireJoiner node) s

/-! ### Repeater (R216) -/

/-- One firing of a repeater: it takes up an item when it holds none, and otherwise answers one shape token. -/
def fireRepeater (n : Nat) (s : State) (x : Node) : FireM State := do
  s.checkAt n 0
  let t ← s.headAt n 1
  match x.item with
  | none =>
    let i ← s.headAt n 0
    if t.kind = 4 then
      if i.kind = 4 then
        let s ← s.emits n [(0, Token.done)]
        pure ((s.takeAt n 1).takeAt n 0)
      else .error (.bad 1 0x07)
    else if i.isElem then pure ((s.takeAt n 0).modNode n (fun y => { y with item := some i }))
    else .error (.bad 1 0x07)
  | some i =>
    if t.isElem then
      let s ← s.emits n [(0, i)]
      pure (s.takeAt n 1)
    else if t.kind = 8 then
      let s ← s.emits n [(0, t)]
      pure ((s.takeAt n 1).modNode n (fun y => { y with item := none }))
    else if t.isStop then
      let h ← s.headAt n 0
      if h.kind + 1 = t.kind then
        let s ← s.emits n [(0, t)]
        pure (((s.takeAt n 1).takeAt n 0).modNode n (fun y => { y with item := none }))
      else .error (.bad 1 0x07)
    else .error (.bad 1 0x07)
/-- REPEATER_FIRE (R216). -/
def execRepeaterFire (cl core node : Nat) (s : State) : Host.Outcome State Fault Refusal :=
  fire cl core node 2 (fireRepeater node) s

/-! ### Reducer (R217) -/

/-- The operation of a reducer: the result and its flags. -/
def redOp (mode rm a v : Nat) : Nat × Nat :=
  let f := fmtOf 1
  match mode with
  | 0 => faddR f rm (fval f a) (fval f v)
  | 1 => fpick true f a v
  | 2 => fpick false f a v
  | 3 => ((a + v) % 2 ^ 32, 0)
  | 4 => (if sgn 32 a < sgn 32 v then v else a, 0)
  | _ => (if sgn 32 v < sgn 32 a then v else a, 0)
/-- One firing of a reducer: a value is folded; a stop gives acc and then, in a firing of its own where it has one, its
stop; done passes. -/
def fireReducer (n : Nat) (s : State) (x : Node) : FireM State := do
  let t ← s.headAt n 0
  if t.isElem then
    let r := redOp (cfgMode x.cfg) (arithRm s.core.st.graph.rm) x.acc t.val
    pure ((s.takeAt n 0).modNode n (fun y => { y with acc := r.1, flags := y.flags ||| r.2 }))
  else if t.kind = 4 then
    let s ← s.emits n [(0, Token.done)]
    pure (s.takeAt n 0)
  else if x.owed then
    let s ← s.emits n [(0, Token.stop (t.kind - 9))]
    pure ((s.takeAt n 0).modNode n (fun y => { y with owed := false }))
  else
    let s ← s.emits n [(0, ⟨0, x.acc⟩)]
    let s := s.modNode n (fun y => { y with acc := y.const })
    if t.kind = 8 && cfgRank x.cfg != 0 then pure (s.takeAt n 0)
    else pure (s.modNode n (fun y => { y with owed := true }))
/-- REDUCER_FIRE (R217). -/
def execReducerFire (cl core node : Nat) (s : State) : Host.Outcome State Fault Refusal :=
  fire cl core node 3 (fireReducer node) s

/-! ### Function node (R218) -/

/-- The operation of a function node on a value and its constant or second operand: the value, or none where no token
comes out, and the flags (R141, R218). -/
def fnOp (mode rm v c : Nat) : Option Nat × Nat :=
  let f := fmtOf 1
  let x := fval f v
  let y := fval f c
  let out := fun (r : Nat × Nat) => (some r.1, r.2)
  match mode with
  | 0 => (some v, 0)
  | 1 => out (faddR f rm x y)
  | 2 => out (fmulR f rm x y)
  | 3 => out (fpick true f v c)
  | 4 => out (fpick false f v c)
  | 5 => out (fabsE f v)
  | 6 =>
    let nv := if x.isSig || y.isSig then fNV else 0
    if x.isNan || y.isNan || flt x y then (none, nv) else (some v, 0)
  | 8 => out (faddR f rm x y)
  | 9 => out (faddR f rm x y.neg)
  | 10 => out (fmulR f rm x y)
  | 11 => out (fpick true f v c)
  | 12 => out (fpick false f v c)
  | _ => (some v, 0)
/-- One firing of a function node; a FETCH of a reference issues its read. -/
def fireFunction (n : Nat) (s : State) (x : Node) : FireM State := do
  let mode := cfgMode x.cfg
  let rm := arithRm s.core.st.graph.rm
  if x.fetch.isSome then .error .needIn
  else
    if 8 ≤ mode then s.checkAt n 1
    let a ← s.headAt n 0
    let b ← if 8 ≤ mode then s.headAt n 1 else .ok a
    if !((a.isElem && b.isElem) || (!a.isElem && a.kind == b.kind)) then .error (.bad 1 0x07)
    else
      let take := fun (s : State) => if 8 ≤ mode then (s.takeAt n 0).takeAt n 1 else s.takeAt n 0
      if !a.isElem || mode = 0 then
        let s ← s.emits n [(0, a)]
        pure (take s)
      else if mode = 7 then
        if a.kind = 3 then
          let s ← s.emits n [(0, ⟨0, x.const⟩)]
          pure (take s)
        else if (s.bufWord (cfgSpc x.cfg) (cfgOff1 x.cfg + 4 * a.val)).isNone then .error (.bad 0 0x08)
        else pure ((take s).modNode n (fun y => { y with fetch := some a.val }))
      else
        let r := fnOp mode rm a.val (if 8 ≤ mode then b.val else x.const)
        let s ← match r.1 with
          | some v => s.emits n [(0, ⟨0, v⟩)]
          | none => .ok s
        pure ((take s).modNode n (fun y => { y with flags := y.flags ||| r.2 }))
/-- FUNCTION_FIRE (R218). -/
def execFunctionFire (cl core node : Nat) (s : State) : Host.Outcome State Fault Refusal :=
  fire cl core node 4 (fireFunction node) s
/-- FETCH_REPLY (R218, R235): the outstanding read is answered and its value emitted. -/
def execFetchReply (cl core node : Nat) (s : State) : Host.Outcome State Fault Refusal :=
  fire cl core node 4 (fun s x =>
    match x.fetch with
    | none => .error .needIn
    | some r => do
      let v := s.bufRead (cfgSpc x.cfg) (cfgOff1 x.cfg + 4 * r) 4
      let s ← s.emits node [(0, ⟨0, v⟩)]
      pure (s.modNode node (fun y => { y with fetch := none }))) s

/-! ### Writer (R219) -/

/-- One firing of a writer. -/
def fireWriter (n : Nat) (s : State) (x : Node) : FireM State := do
  let t ← s.headAt n 0
  let spc := cfgSpc x.cfg
  if t.isElem then
    let a := cfgOff1 x.cfg + 4 * x.wn
    if cfgLim x.cfg ≤ x.wn ∨ bufSize spc < a + 4 then .error (.bad 0 0x0A)
    else
      pure (((s.bufWrite spc a t.val 4).takeAt n 0).modNode n (fun y =>
        { y with wn := y.wn + 1, count := min (2 ^ 24 - 1) (y.count + 1) }))
  else if t.kind = 4 then pure ((s.takeAt n 0).modNode n (fun y => { y with done := true }))
  else if cfgMode x.cfg = 1 then
    let a := cfgOff2 x.cfg + 4 * (x.wf + 1)
    if bufSize spc < a + 4 then .error (.bad 0 0x0A)
    else pure (((s.bufWrite spc a x.wn 4).takeAt n 0).modNode n (fun y => { y with wf := y.wf + 1 }))
  else pure (s.takeAt n 0)
/-- WRITER_FIRE (R219, R220). -/
def execWriterFire (cl core node : Nat) (s : State) : Host.Outcome State Fault Refusal :=
  fire cl core node 5 (fireWriter node) s

end Sys2Proof.Machine
end

