-- ==== Sys2Proof/Machine/Handles.lean ====
section
/-! DEFINITION. Handles: HALLOC, HFREE, HGIVE, HTAKE, HWAIT, HSTAT (R58, R239, R242 to R245). -/

namespace Sys2Proof.Machine

/-- Handle entry n of the current core replaced. -/
def State.setHandle (s : State) (n : Nat) (h : Handle) : State :=
  s.modCore (fun c => { c with h := c.h.setIfInBounds n h })
/-- Handle entry n replaced; a change of its state or a rise of LANDED sets the event latches (R129). -/
def State.turnHandle (s : State) (n : Nat) (h : Handle) : State :=
  let old := s.core.handle n
  let t := s.setHandle n h
  if old.state = h.state ∧ h.landed ≤ old.landed then t else t.latchCore
/-- The copy state of handle n changed, at the home entry for a proxy; the event latches are set (R129, R245). -/
def State.modCopyState (s : State) (n : Nat) (f : Handle → Handle) : State :=
  let own := s.core.handle n
  match own.home with
  | some (co, k) => (s.onCo co (fun t => (t.setHandle k (f (t.core.handle k))).latchCore)).latchCore
  | none => (s.setHandle n (f own)).latchCore
/-- The HSTAT word (R58). -/
def State.handleWord (s : State) (n : Nat) : Word :=
  let e := s.core.handle n
  let x := s.copyState n
  word ((x.state <<< 62) + (b2n e.held <<< 61) + (e.holder <<< 58) + (e.buf <<< 56) + (b2n e.bar <<< 55)
    + (x.cstat <<< 51) + (x.expect <<< 32) + (x.landed <<< 16))

/-- A region word that breaks R239: reserved bits, a BOFF that names no object in the C buffer, BUF = 00 with a region, or a
region that is empty or not a multiple of 64 (R242). -/
def regionBad (w : Word) : Bool :=
  let buf := fld w 62 2
  let len := fld w 22 20
  let off := fld w 0 19
  let boff := fld w 42 19
  fld w 19 3 != 0 || boff % 16 != 0 || decide (bufSize 3 < boff + 16)
    || (if buf = 0 then len != 0 || off != 0 else len == 0 || len % 64 != 0 || off % 64 != 0)

/-- HALLOC (R243): its effect, at dispatch. -/
def effHalloc (o : OpA2) : Run1 := whole (fun c s => do
  let n := o.d.toNat
  let w := c.ga
  let e := s.core.handle n
  need (e.buf == 0) (Trap.opndAt 0x07 n) s
  let buf := fld w 62 2
  let off := fld w 0 19
  let len := fld w 22 20
  need (buf == 0 || s.core.h.toList.all (fun x => !(x.buf == buf && x.home.isNone && overlap off len x.off x.len)))
    { Trap.opnd 0x06 with d0 := w } s
  pure (s.setHandle n { e with held := true, holder := s.co, buf := buf, bar := flag w 61, cstat := 0, expect := 0,
                               landed := 0, off := off, len := len, boff := fld w 42 19, home := none }))
/-- HALLOC (R242). -/
def execHalloc (o : OpA2) (s : State) : Host.Outcome State Fault Refusal :=
  let w := s.g o.a
  finish (do
    need (!regionBad w) (Trap.opnd 0x04) s
    need (fld w 62 2 == 0 || decide (fld w 0 19 + fld w 22 20 ≤ bufSize (fld w 62 2))) (Trap.opnd 0x01) s
    issue { eng := .copy, ins := .halloc o, ga := w, wr := [.h o.d.toNat] } (effHalloc o) s)
/-- HFREE (R243): its effect, at dispatch. -/
def effHfree (o : OpA2) : Run1 := whole (fun _ s => do
  let n := o.d.toNat
  let e := s.core.handle n
  need (e.buf == 0 || (e.held && e.home.isNone)) (Trap.opndAt 0x07 n) s
  pure (if e.buf = 0 then s else s.turnHandle n Handle.free))
/-- HFREE (R242). -/
def execHfree (o : OpA2) (s : State) : Host.Outcome State Fault Refusal :=
  engine { eng := .copy, ins := .hfree o, wr := [.h o.d.toNat] } (effHfree o) s
/-- HGIVE (R243, R244): its effect, at dispatch, behind every older store and copy into the region: a release at cluster
scope, and the offer. -/
def effHgive (o : OpA2) : Run1 := whole (fun c s => do
  let n := o.d.toNat
  let e := s.core.handle n
  let taker := fld c.ga 0 3
  need (e.held && e.buf != 0) (Trap.opndAt 0x07 n) s
  let home := e.home.getD (s.co, n)
  let s := (s.release 1).modClus (fun k => { k with offers := k.offers ++ [⟨home.1, home.2, s.co, n, taker⟩] })
  match e.home with
  | none => pure (s.setHandle n { e with held := false, holder := taker })
  | some (co, k) =>
    pure ((s.turnHandle n Handle.free).onCo co (fun t => t.setHandle k { t.core.handle k with holder := taker })))
/-- HGIVE (R242): the taker is another core. -/
def execHgive (o : OpA2) (s : State) : Host.Outcome State Fault Refusal :=
  let w := s.g o.a
  finish (do
    need (decide (w.toNat < 8) && fld w 0 3 != s.co) (Trap.opnd 0x04) s
    issue { eng := .copy, ins := .hgive o, ga := w, wr := [.h o.d.toNat] } (effHgive o) s)
/-- The acquire of a command in the queue: the commands of the slot behind it read the new view (R296, R302). -/
def State.acquireAt (s : State) (q : Nat) : State :=
  let rec go (ep : Nat) : List Cmd → List Cmd
    | [] => []
    | o :: r => if o.qpos = q then o :: r.map (fun e => if e.hi == s.hi && !e.disp then { e with ep := ep } else e) else o :: go ep r
  let t := s.acquire
  t.modCore (fun c => { c with queue := go t.slot.ep c.queue })
/-- HTAKE (R243, R244): its effect once the offer is there: an acquire at cluster scope, and the region. -/
def effHtake (o : OpA2) : Run1 := whole (fun c s => do
  let n := o.d.toNat
  let e := s.core.handle n
  match s.offerFor c.ga with
  | none => .error (.trap (Trap.opndAt 0x07 n) s)
  | some f =>
    let gone := fun (s : State) => s.modClus (fun k => { k with offers := dropFirst (fun x => x == f) k.offers })
    if f.homeCore = s.co then
      need (n == f.homeH) (Trap.opndAt 0x07 n) s
      pure (((gone s).acquireAt c.qpos).setHandle n { e with held := true, holder := s.co })
    else
      need (e.buf == 0 && e.state == 0) (Trap.opndAt 0x07 n) s
      let h := (s.coreAt s.cl f.homeCore).handle f.homeH
      pure (((gone s).acquireAt c.qpos).turnHandle n { h with held := true, holder := s.co, home := some (f.homeCore, f.homeH) }))
/-- HTAKE (R242): the giver is another core. -/
def execHtake (o : OpA2) (s : State) : Host.Outcome State Fault Refusal :=
  let w := s.g o.a
  finish (do
    need (fld w 3 5 == 0 && fld w 13 51 == 0 && fld w 0 3 != s.co) (Trap.opnd 0x04) s
    issue { eng := .copy, ins := .htake o, ga := w, wr := [.h o.d.toNat] } (effHtake o) s)

/-- A queued copy that names handle n and has not been dispatched (R245). -/
def Cmd.willCopy (c : Cmd) (n : Nat) : Bool :=
  !c.disp && !c.done && (match c.ins with
    | .cpy o => o.d.toNat == n
    | .cpyt o => o.d.toNat == n
    | .cpyg o => o.d.toNat == n
    | .cpyz o => o.d.toNat == n
    | .brule o => o.d.toNat == n
    | .bwalk o => o.d.toNat == n
    | _ => false)
/-- HWAIT (R242, R245). -/
def execHwait (o : OpA2) (s : State) : Host.Outcome State Fault Refusal :=
  let n := (s.g o.a).toNat
  commit s (fun s => do
    need (decide (n ≤ 512)) (Trap.opnd 0x04) s
    let h := s.copyState o.d.toNat
    if s.older.any (fun e => e.willCopy o.d.toNat) then .error s.waitHere
    else if h.ready || (0 < n && decide (n ≤ h.landed)) then pure s
    else .error s.waitHere)
/-- HSTAT (R242, R245). -/
def execHstat (o : OpA2) (s : State) : Host.Outcome State Fault Refusal :=
  commit s (fun s =>
    if s.older.any (fun e => e.willCopy o.d.toNat) then .error s.waitHere
    else .ok (s.setG o.a (s.handleWord o.d.toNat)))

end Sys2Proof.Machine
end

