-- ==== Sys2Proof/Machine/Copies.lean ====
section
/-! DEFINITION. Copies: CPY, CPYT, CPYG, CPYZ, the landing of their elements and their completion (R236, R240, R241, R246 to
R255), the LZ4 block format and CRC32C. -/

namespace Sys2Proof.Machine

/-! ## Sides of a copy (R246, R247) -/

/-- One side of a copy: device memory or a buffer of a core of the cluster (space 0 to 3), and the address of offset 0. -/
structure Side where
  co : Nat
  spc : Nat
  base : Nat
  deriving DecidableEq, Repr

/-- The side that IMM32 and an address operand name; an H: operand lies in hD's region, at its home core (R243, R246). -/
def State.side (s : State) (d : Nat) (spc : Nat) (h : Bool) (a : Nat) : Side :=
  if h then
    let e := s.core.handle d
    ⟨(e.home.map (·.1)).getD s.co, e.buf, e.off + a⟩
  else ⟨s.co, spc, a⟩
/-- The source of a copy. -/
def State.srcSide (s : State) (o : OpG8) (c : Cmd) : Side := s.side o.d.toNat (fld o.imm 0 3) (flag o.imm 6) c.ga.toNat
/-- The destination of a copy. -/
def State.dstSide (s : State) (o : OpG8) (c : Cmd) : Side := s.side o.d.toNat (fld o.imm 3 3) (flag o.imm 7) c.gb.toNat

/-- n bytes of device memory from a virtual address, page by page. -/
def State.readDev (s : State) : Nat → Nat → Nat → M (List Byte × State)
  | 0, _, _ => .ok ([], s)
  | f + 1, va, n =>
    if n = 0 then .ok ([], s)
    else do
      let m := min n (65536 - va % 65536)
      let (p, s) ← s.access 0 va m 1 .rd
      let (x, s) ← s.readSpot p m
      let (r, s) ← State.readDev s f (va + m) (n - m)
      pure (leBytes m x ++ r, s)
/-- Bytes written to device memory from a virtual address, page by page; the answer says whether a peer has dropped some of
them (R406). -/
def State.writeDev (s : State) : Nat → Nat → List Byte → M (Bool × State)
  | 0, _, _ => .ok (false, s)
  | f + 1, va, bs =>
    if bs.isEmpty then .ok (false, s)
    else do
      let m := min bs.length (65536 - va % 65536)
      let (p, s) ← s.access 0 va m 1 .wr
      match p with
      | .dev loc _ =>
        if peerBase ≤ loc && !s.peerAdmits loc m 1 then
          pure (true, { s with xl := { s.xl with peerRej := s.xl.peerRej + 1 } })
        else State.writeDev (s.viewWrite loc (leNat (bs.take m)) m) f (va + m) (bs.drop m)
      | .buf _ _ => pure (false, s)
/-- How many pages n bytes may touch. -/
def pagesOf (n : Nat) : Nat := n / 65536 + 2
/-- n bytes of a side from an offset. -/
def State.readSide (s : State) (x : Side) (a n : Nat) : M (List Byte × State) :=
  if x.spc = 0 then s.readDev (pagesOf n) (x.base + a) n
  else .ok (((s.coreAt s.cl x.co).buf x.spc).readList (x.base + a) n, s)
/-- Bytes written to a side from an offset. -/
def State.writeSide (s : State) (x : Side) (a : Nat) (bs : List Byte) : M (Bool × State) :=
  if x.spc = 0 then s.writeDev (pagesOf bs.length) (x.base + a) bs
  else .ok (false, s.onCo x.co (fun t => t.modCore (fun k => k.setBuf x.spc ((k.buf x.spc).writeList (x.base + a) bs))))

/-! ## LZ4 and CRC32C (R254, R255) -/

/-- CRC32C, the Castagnoli polynomial, reflected. -/
def crcByte (c : Nat) (b : Byte) : Nat :=
  forN (fun _ x => if bitOf x 0 then (x / 2) ^^^ 0x82F63B78 else x / 2) 8 (c ^^^ b.toNat)
/-- CRC32C of bytes. -/
def crc32c (bs : List Byte) : Nat := (bs.foldl crcByte 0xFFFFFFFF) ^^^ 0xFFFFFFFF
/-- A length nibble with its extension bytes. -/
def lz4Ext (v : Nat) : List Byte → Option (Nat × List Byte)
  | [] => none
  | x :: r => if x = 255 then lz4Ext (v + 255) r else some (v + x.toNat, r)
/-- A length of an LZ4 sequence. -/
def lz4Len (v : Nat) (r : List Byte) : Option (Nat × List Byte) := if v < 15 then some (v, r) else lz4Ext 15 r
/-- m bytes repeated from a distance back; the output stands newest first. -/
def lz4Match (off : Nat) : Nat → List Byte → List Byte
  | 0, out => out
  | m + 1, out => lz4Match off m (nthD 0 out (off - 1) :: out)
/-- The sequences of an LZ4 block: the output, newest first, and whether the block is bad. -/
def lz4Go : Nat → List Byte → List Byte → List Byte × Bool
  | 0, _, out => (out, false)
  | _ + 1, [], out => (out, false)
  | f + 1, t :: r, out =>
    match lz4Len (t.toNat / 16) r with
    | none => (out, true)
    | some (k, r) =>
      if r.length < k then (out, true)
      else
        let out := (r.take k).reverse ++ out
        match r.drop k with
        | [] => (out, false)
        | [_] => (out, true)
        | a :: b :: r =>
          let off := a.toNat + 256 * b.toNat
          if off = 0 ∨ out.length < off then (out, true)
          else match lz4Len (t.toNat % 16) r with
            | none => (out, true)
            | some (m, r) => lz4Go f r (lz4Match off (m + 4) out)
/-- An LZ4 block decoded: the bytes, and whether the block is bad. -/
def lz4 (bs : List Byte) : List Byte × Bool := let r := lz4Go bs.length bs []; (r.1.reverse, r.2)

/-! ## Progress of a copy: count, highest status, bytes debited, mask of landed elements -/

/-- The count that a copy fixed at dispatch. -/
def Cmd.cpCount (c : Cmd) : Nat := c.tr.1
/-- The highest status met (R241). -/
def Cmd.cpStat (c : Cmd) : Nat := c.tr.2.1
/-- The bytes that the barrier has been debited. -/
def Cmd.cpDebit (c : Cmd) : Nat := c.tr.2.2.1
/-- Whether element e has landed. -/
def Cmd.cpLanded (c : Cmd) (e : Nat) : Bool := bitOf c.tr.2.2.2 e
/-- How many leading elements have landed. -/
def Cmd.cpLead (c : Cmd) : Nat := (firstFrom (fun e => !c.cpLanded e) 0 c.cpCount).getD c.cpCount
/-- The lowest element that has not landed. -/
def Cmd.cpNext (c : Cmd) : Option Nat := firstFrom (fun e => !c.cpLanded e) 0 c.cpCount
/-- A copy notes a status. -/
def Cmd.withStat (c : Cmd) (x : Nat) : Cmd := { c with tr := (c.tr.1, max c.tr.2.1 x, c.tr.2.2) }

/-- A debit of the barrier object that handle n carries (R250). -/
def State.debit (s : State) (n bytes : Nat) : State :=
  let e := s.core.handle n
  if e.bar && bytes != 0 then s.barBuf ((e.home.map (·.1)).getD s.co) 3 e.boff (barBytes (-(bytes : Int))) else s
/-- The scope that the object of handle n records. -/
def State.barScope (s : State) (n : Nat) : Nat :=
  let e := s.core.handle n
  bits (((s.coreAt s.cl ((e.home.map (·.1)).getD s.co)).buf 3).read e.boff 16) 124 3
/-- The bytes that the barrier of a copy's handle is to be debited in all (R250). -/
def copyExtent (k : Nat) (c : Cmd) : Nat :=
  let g := copyGeo k c.gc c.cpCount
  if k = 3 then nthD 0 c.prog 1 else if k = 1 then c.cpCount * g.2.2.2 * g.1 else c.cpCount * g.1
/-- COMPLETION of a copy with a status: what was never debited is debited, and the handle turns full or free (R240, R250). -/
def State.endCopy (s : State) (d ext : Nat) (c : Cmd) (st : Nat) : State :=
  let s := s.debit d (ext - c.cpDebit)
  let s := s.modCopyState d (fun h => { h with state := if h.state = 3 then 0 else 2, landed := h.expect,
                                                cstat := max st c.cpStat })
  s.finishCmd c
/-- The queue entry of a position, as it now stands. -/
def State.cmdNow (s : State) (c : Cmd) : Cmd := (s.core.cmd c.qpos).getD c
/-- A copy that the start of its handle's new state begins (R240). -/
def State.startCopy (s : State) (d n : Nat) (source : Bool) : State :=
  s.modCopyState d (fun h => { h with state := if source then 3 else 1, expect := n, landed := 0 })

/-! ## The start of a copy (R246 to R254) -/

/-- Whether the destination of a copy overlaps itself (R247, R252). -/
def copySelf (k : Nat) (sh : Word) (n : Nat) : Bool :=
  let g := copyGeo k sh n
  if k = 1 then decide (g.2.2.1 < g.2.2.2 * g.1) else decide (1 < n) && decide (g.2.2.1 < g.1)
/-- The extent checks of R247 that a count settles: inside the buffers and the region, ownership at dispatch, overlap. -/
def State.copyBounds (s : State) (k : Nat) (o : OpG8) (c : Cmd) (n clen cap : Nat) (atDispatch : Bool) : M Unit := do
  let sp := copySpan k c.gc n clen cap
  let sh := flag o.imm 6
  let dh := flag o.imm 7
  let ss := fld o.imm 0 3
  let ds := fld o.imm 3 3
  let a := c.ga.toNat
  let b := c.gb.toNat
  let e := s.core.handle o.d.toNat
  need (sp.1 == 0 || sh || ss == 0 || decide (a + sp.1 ≤ bufSize ss)) { Trap.opnd 0x01 with d0 := word a } s
  need (sp.2 == 0 || dh || ds == 0 || decide (b + sp.2 ≤ bufSize ds)) { Trap.opnd 0x01 with d0 := word b } s
  if atDispatch then
    need (!sh || decide (a + sp.1 ≤ e.len)) { Trap.opnd 0x01 with d0 := word a } s
    need (!dh || decide (b + sp.2 ≤ e.len)) { Trap.opnd 0x01 with d0 := word b } s
    need (sh || ss == 0 || !s.core.notHolder ss a sp.1) { Trap.holder with d0 := word a } s
    need (dh || ds == 0 || !s.core.notHolder ds b sp.2) { Trap.holder with d0 := word b } s
  let x := s.srcSide o c
  let y := s.dstSide o c
  need ((!atDispatch && (sh || dh)) || x.spc != y.spc || (x.spc != 0 && x.co != y.co)
    || !overlap x.base sp.1 y.base sp.2) { Trap.opnd 0x06 with d0 := word b } s
  need (k == 3 || !copySelf k c.gc n) { Trap.opnd 0x06 with d0 := word b } s

/-- The descriptor of a CPYZ: CLEN, CAP, CRC and FLAGS (R254). -/
def State.readDesc (s : State) (o : OpG8) (c : Cmd) : M (List Nat × State) := do
  let spc := fld o.imm 14 3
  let ad := c.gc.toNat
  if spc ≠ 0 then need (!s.core.notHolder spc ad 32) { Trap.holder with d0 := c.gc } s
  let (bs, s) ← s.readSide ⟨s.co, spc, ad⟩ 0 32
  let w := fun i => leNat ((bs.drop (4 * i)).take 4)
  let ok := decide (1 ≤ w 0) && decide (w 0 ≤ cpyzMax) && decide (1 ≤ w 1) && decide (w 1 ≤ cpyzMax)
    && decide (1 ≤ w 3) && decide (w 3 ≤ 3) && w 6 == 0 && w 7 == 0
  need ok { Trap.opnd 0x08 with d0 := c.gc } s
  pure ([w 0, w 1, w 2, w 3], s)

/-- DISPATCH of a copy: its checks, the new handle state, what it captures; a copy of nothing completes at once (R240, R247,
R253, R254). -/
def copyStart (k : Nat) (o : OpG8) (c : Cmd) (s : State) : M State := do
  let n := if k = 3 then 1 else c.len o.len (vtVlmax c.vtype)
  let h := flag o.imm 6 || flag o.imm 7
  let e := s.core.handle o.d.toNat
  need (k != 2 || decide (n ≤ 128)) (Trap.opndAt 0x05 n) s
  need (!h || (e.buf != 0 && e.held)) (Trap.opndAt 0x07 o.d.toNat) s
  let (prog, s) ← if k = 3 then s.readDesc o c
    else if k = 2 then pure ((List.range n).map (fun i => elem (s.vreg (fld o.imm 8 6)) 32 i), s)
    else pure ([], s)
  let clen := nthD 0 prog 0
  let cap := nthD 0 prog 1
  s.copyBounds k o c n clen cap true
  let s := s.startCopy o.d.toNat n (flag o.imm 6)
  let s := s.modCmd c.qpos (fun x => { x with resume := 1, prog := prog, tr := (n, 0, 0, 0),
                                              ranges := s.copyRanges k o c n clen cap })
  pure (if n = 0 then s.endCopy o.d.toNat 0 (s.cmdNow c) 0 else s)

/-! ## The elements of a copy (R251 to R255) -/

/-- The pieces of element e: source offset, none for a fill, destination offset, bytes (R251 to R253). -/
def copyPieces (k : Nat) (c : Cmd) (e : Nat) : List (Option Nat × Nat × Nat) :=
  let g := copyGeo k c.gc c.cpCount
  let es := g.1
  match k with
  | 0 => [(some (e * g.2.1), e * g.2.2.1, es)]
  | 1 => (List.range g.2.2.2).map (fun r => (some (r * g.2.1 + e * es), e * g.2.2.1 + r * es, es))
  | _ =>
    let i := nthD 0 c.prog e
    [(if i < fld c.gc 42 22 then some (i * es) else none, e * g.2.2.1, es)]
/-- The pieces of an element moved; the answer says whether a peer has dropped some of the bytes. -/
def movePieces (fill : Byte) (x y : Side) : List (Option Nat × Nat × Nat) → State → M (Bool × State)
  | [], s => .ok (false, s)
  | (a, b, n) :: r, s => do
    let (bs, s) ← match a with
      | some a => s.readSide x a n
      | none => pure (List.replicate n fill, s)
    let (bad, s) ← s.writeSide y b bs
    if bad then pure (true, s) else movePieces fill x y r s
/-- The one element of a CPYZ: check, decode, write, RESULT (R255): the status, which RESULT and CSTAT share, and the bytes
written. -/
def moveBlock (o : OpG8) (c : Cmd) (x y : Side) (s : State) : M (Nat × Nat × State) := do
  let clen := nthD 0 c.prog 0
  let cap := nthD 0 c.prog 1
  let flags := nthD 0 c.prog 3
  let (bs, s) ← s.readSide x 0 clen
  let crcBad := 2 ≤ flags && crc32c bs != nthD 0 c.prog 2
  let dec := if flags % 2 = 1 then lz4 bs else (bs, false)
  let tooLong := !crcBad && decide (cap < dec.1.length)
  let st := max c.cpStat (if crcBad then 2 else max (if dec.2 then 4 else 0) (if tooLong then 3 else 0))
  let (bad, s) ← if crcBad then pure (false, s) else s.writeSide y 0 (dec.1.take cap)
  let res := ((if crcBad then 0 else dec.1.length) <<< 32) + st
  let (_, s) ← s.writeSide ⟨s.co, fld o.imm 14 3, c.gc.toNat⟩ 16 (leBytes 8 res)
  pure (if bad then 6 else st, if crcBad then 0 else min cap dec.1.length,
    s.modCore (fun q => { q with copyChk := q.copyChk + b2n crcBad, copyOvf := q.copyOvf + b2n tooLong }))

/-- Element e has landed with so many bytes: the mask, LANDED, the shrinking destination range, the barrier, debited once the
bytes are visible at the object's scope (R240, R248, R250). -/
def State.landCopy (s : State) (k : Nat) (o : OpG8) (c : Cmd) (e st bytes : Nat) : State :=
  let d := o.d.toNat
  let g := copyGeo k c.gc c.cpCount
  let y := s.dstSide o c
  let bar := (s.core.handle d).bar
  let s := if bar && y.spc = 0 && bytes != 0 then s.release (s.barScope d) else s
  let s := if bar then s.debit d bytes else s
  let s := s.modCmd c.qpos (fun q =>
    let tr := (q.tr.1, max q.tr.2.1 st, q.tr.2.2.1 + (if bar then bytes else 0), q.tr.2.2.2 ||| 2 ^ e)
    let q := { q with tr := tr }
    let lo := y.base + q.cpLead * g.2.2.1
    { q with ranges := q.ranges.filterMap (fun r =>
        if r.wr && k != 3 then (if r.hi < lo then none else some { r with lo := max r.lo lo }) else some r) })
  s.modCopyState d (fun h => { h with landed := (s.cmdNow c).cpLead })

/-- Element e of a copy is moved. A translation fault at the lowest element that has not landed stops the copy there, and a
higher one is met again when its turn comes; any other fault, and bytes that a peer drops, end the copy ABORTED (R249,
R406). -/
def copyElem (k : Nat) (o : OpG8) (c : Cmd) (e : Nat) (s : State) : M State :=
  let x := s.srcSide o c
  let y := s.dstSide o c
  let fill := BitVec.ofNat 8 (fld o.imm 24 8)
  let stop := fun (s : State) => s.endCopy o.d.toNat (copyExtent k c) (s.cmdNow c) 6
  let oor := if k = 2 && decide (fld c.gc 42 22 ≤ nthD 0 c.prog e) then 1 else 0
  let g := copyGeo k c.gc c.cpCount
  let size := if k = 1 then g.2.2.2 * g.1 else g.1
  let m := if k = 3 then moveBlock o c x y s
    else (movePieces fill x y (copyPieces k c e) s).map (fun r => (if r.1 then 6 else oor, size, r.2))
  match m with
  | .ok (6, _, t) => .ok (stop t)
  | .ok (st, n, t) => .ok (t.landCopy k o c e st n)
  | .error (.trap t u) =>
    if t.code = 0x06 then (if c.cpNext = some e then .error (.trap (t.atElem e 0) u) else .ok s)
    else .error (.trap (t.atElem e 0) (stop u))
  | .error r => .error r

/-- The effect of a copy: dispatch, then its elements in ascending order, then completion. -/
def copyEff (k : Nat) (o : OpG8) : Run1 := fun c s =>
  if c.resume = 0 then copyStart k o c s
  else match c.cpNext with
    | some e => copyElem k o c e s
    | none => .ok (s.endCopy o.d.toNat (copyExtent k c) c 0)

/-- The checks of a copy at commit, in the order of R164 (R237, R246, R247, R251 to R254). -/
def copyForm (k : Nat) (o : OpG8) (i : Instr) (eff : Run1) (s : State) : Host.Outcome State Fault Refusal :=
  let sh := s.g o.c
  let t : Ticket := { eng := .copy, ins := i, lens := [o.len], ga := s.g o.a, gb := s.g o.b, gc := sh,
                      rd := if k = 2 then [.v (fld o.imm 8 6)] else [], wr := [.h o.d.toNat] }
  let c := t.entry s
  let known := k != 3 && o.len == 0#3
  finish (do
    need (match k with
      | 0 => fld sh 0 20 != 0
      | 1 => fld sh 8 12 != 0 && fld sh 2 6 == 0
      | 2 => fld sh 0 20 != 0 && fld sh 42 22 != 0
      | _ => true) (Trap.opnd 0x04) s
    need (flag o.imm 6 || fld o.imm 0 3 != 0 || decide (c.ga.toNat < 2 ^ 54)) { Trap.perm 0x01 with d0 := c.ga } s
    need (flag o.imm 7 || fld o.imm 3 3 != 0 || decide (c.gb.toNat < 2 ^ 54)) { Trap.perm 0x01 with d0 := c.gb, d2 := 1 } s
    if k = 3 then
      if fld o.imm 14 3 = 0 then need (decide (sh.toNat < 2 ^ 54)) { Trap.perm 0x01 with d0 := sh } s
      else need (decide (sh.toNat + 32 ≤ bufSize (fld o.imm 14 3))) (Trap.opnd 0x01) s
      need (sh.toNat % 32 == 0) (Trap.align 0x02) s
    if known then s.copyBounds k o c c.vl 0 0 false
    else need (k != 1 || fld sh 20 22 == 0 || decide (fld sh 8 12 * 2 ^ fld sh 0 2 ≤ fld sh 20 22)) (Trap.opnd 0x06) s
    issue { t with ranges := s.copyRanges k o c (if k = 3 then 1 else c.maxCount o) cpyzMax cpyzMax } eff s)

/-- CPY (R251): its effect. -/
def effCpy (o : OpG8) : Run1 := copyEff 0 o
/-- CPY (R246, R251). -/
def execCpy (o : OpG8) (s : State) : Host.Outcome State Fault Refusal := copyForm 0 o (.cpy o) (effCpy o) s
/-- CPYT (R252): its effect. -/
def effCpyt (o : OpG8) : Run1 := copyEff 1 o
/-- CPYT (R246, R252). -/
def execCpyt (o : OpG8) (s : State) : Host.Outcome State Fault Refusal := copyForm 1 o (.cpyt o) (effCpyt o) s
/-- CPYG (R253): its effect. -/
def effCpyg (o : OpG8) : Run1 := copyEff 2 o
/-- CPYG (R246, R253). -/
def execCpyg (o : OpG8) (s : State) : Host.Outcome State Fault Refusal := copyForm 2 o (.cpyg o) (effCpyg o) s
/-- CPYZ (R254, R255): its effect. -/
def effCpyz (o : OpG8) : Run1 := copyEff 3 o
/-- CPYZ (R246, R254). -/
def execCpyz (o : OpG8) (s : State) : Host.Outcome State Fault Refusal := copyForm 3 o (.cpyz o) (effCpyz o) s

/-- A copy of the current core that is on its way at a queue position: its kind, operands and entry. -/
def State.copyAt (s : State) (q : Nat) : Option (Nat × OpG8 × Cmd) :=
  match s.core.cmd q with
  | some c => if c.disp && !c.done && !c.faulted && !c.held && c.resume != 0 then (copyKind c.ins).map (fun r => (r.1, r.2, c)) else none
  | none => none
/-- COPY_ELEMENT_LAND (R240): element `elem` of the copy at a queue position, in any order. -/
def execCopyElementLand (cl core qpos elem : Nat) (s : State) : Host.Outcome State Fault Refusal :=
  onCore cl core (fun s =>
    match s.copyAt qpos with
    | some (k, o, c) =>
      if elem < c.cpCount && !c.cpLanded elem then
        (s.pump (fun c s => copyElem k o c elem s) qpos).map (·.1)
      else .ok s
    | none => .ok s) s
end Sys2Proof.Machine
end

