-- ==== Sys2Proof/Machine/Gangs.lean ====
section
/-! DEFINITION. Gangs: GANGON, GANGOFF, VLDG and the delivery of a strip (R64, R259, R260, R277). -/

namespace Sys2Proof.Machine

/-- The cores that a gang word names (R259). -/
def gangCores (w : Word) : List Nat := below (fun i => flag w i) 8
/-- The member cores below a core (R259). -/
def gangRank (w : Word) (co : Nat) : Nat := ((gangCores w).filter (fun i => decide (i < co))).length
/-- The GANG register of a member (R64). -/
def gangReg (w : Word) (co : Nat) : Word :=
  word (2 ^ 63 + (fld w 8 10 <<< 19) + (gangRank w co <<< 16) + fld w 0 8)
/-- Whether a gang has a slot of the cluster among those that have arrived. -/
def Gang.has (g : Gang) (co : Nat) (hi : Bool) : Bool := g.mem.contains (co, hi)
/-- The gangs of the current cluster changed. -/
def State.modGangs (s : State) (f : List Gang → List Gang) : State := s.modClus (fun k => { k with gangs := f k.gangs })
/-- The gang or open rendezvous of the current slot. -/
def State.myGang (s : State) : Option Gang := firstSat (fun g => g.has s.co s.hi) s.clus.gangs
/-- The current slot's gang changed. -/
def State.modMyGang (s : State) (f : Gang → Gang) : State := s.modGangs (replFirst (fun g => g.has s.co s.hi) f)
/-- The current slot is in no gang (R64). -/
def State.clearGang (s : State) : State := s.modSlot (fun x => { x with gang := 0, strips := 0 })
/-- A member that is killed or ends on a fault dissolves its gang, and a slot that waits at GANGON leaves it (R277). -/
def State.dissolveGang (s : State) : State :=
  s.modGangs (fun l => l.filterMap (fun g =>
    if g.has s.co s.hi then
      (if g.formed then none
       else let m := g.mem.filter (fun p => p != (s.co, s.hi)); if m.isEmpty then none else some { g with mem := m })
    else some g))
/-- The trap of a gang form that finds its gang dissolved (R277). -/
def gangGone (s : State) : Stop := .trap (Trap.opnd 0x07) s.clearGang

/-- GANGON once its word is checked: arrive, or wait, or complete (R259). -/
def gangOn (w : Word) (s : State) : M State :=
  if flag s.slot.gang 63 then
    .error (if s.myGang.isNone then gangGone s else .trap (Trap.opnd 0x07) s)
  else
    let s := if s.myGang.isSome then s
      else if s.clus.gangs.any (fun g => !g.formed && g.wd == w) && !s.clus.gangs.any (fun g => g.has s.co (!s.hi)) then
        s.modGangs (replFirst (fun g => !g.formed && g.wd == w) (fun g => { g with mem := g.mem ++ [(s.co, s.hi)] }))
      else if s.clus.gangs.any (fun g => g.has s.co (!s.hi)
          || (!g.formed && (gangCores g.wd).any (fun i => (gangCores w).contains i))) then s
      else s.modGangs (fun l => l ++ [⟨w, [(s.co, s.hi)], false, [], []⟩])
    match s.myGang with
    | none => .error (.trap (Trap.opnd 0x07) s)
    | some g =>
      if g.formed || (gangCores w).all (fun i => g.mem.any (fun p => p.1 == i)) then
        .ok ((s.modMyGang (fun g => { g with formed := true })).modSlot
          (fun x => { x with gang := gangReg w s.co, strips := 0 }))
      else .error (.stall s)
/-- GANGON (R259). -/
def execGangon (o : OpA2) (s : State) : Host.Outcome State Fault Refusal :=
  let w := s.g o.a
  commit s (fun s => do
    need (decide (1 ≤ fld w 8 10) && decide (fld w 8 10 ≤ 512) && fld w 18 46 == 0 && flag w s.co) (Trap.opnd 0x04) s
    let t ← gangOn w s
    pure (t.setG o.d (word (gangRank w s.co))))

/-- A VLDG of a member that has not retired. -/
def State.gangBusy (s : State) (g : Gang) : Bool :=
  g.mem.any (fun p => (s.coreAt s.cl p.1).queue.any (fun e => e.hi == p.2 && (match e.ins with | .vldg _ => true | _ => false)))
/-- GANGOFF, and the first step of HALT in a gang member: the slot says so and waits for the others (R259, R277). -/
def gangLeave (s : State) : M State :=
  match s.myGang with
  | none => .error (gangGone s)
  | some g =>
    let off := if g.off.contains s.co then g.off else g.off ++ [s.co]
    let s := s.modMyGang (fun g => { g with off := off })
    if (gangCores g.wd).all (fun i => off.contains i) && !s.gangBusy g then
      let me := (s.co, s.hi)
      .ok ((s.modGangs (fun l => l.filterMap (fun g =>
        if g.mem.contains me then
          let m := g.mem.filter (fun p => p != me)
          if m.isEmpty then none else some { g with mem := m }
        else some g))).clearGang)
    else .error (.stall s)
/-- GANGOFF (R259). -/
def execGangoff (o : OpA2) (s : State) : Host.Outcome State Fault Refusal :=
  commit s (fun s => do
    need (flag s.slot.gang 63) (Trap.opnd 0x07) s
    let t ← gangLeave s
    pure (t.setG o.d (word (fld s.slot.gang 0 8))))

/-- Strip n as rank 0 has recorded it: register and SEW, elements, and the cores that have dealt with it. -/
def Gang.strip (g : Gang) (n : Nat) : Option ((Nat × Nat) × List Nat × List Nat) := look n g.strips
/-- The current core has dealt with strip n; a strip that every member has dealt with is gone. -/
def State.tookStrip (s : State) (n : Nat) : State :=
  (s.modMyGang (fun g =>
    match g.strip n with
    | some (k, xs, t) =>
      let t := s.co :: t
      { g with strips := if (gangCores g.wd).all (fun i => t.contains i) then drop n g.strips else put n (k, xs, t) g.strips }
    | none => g)).modSlot (fun x => { x with strips := n + 1 })
/-- A strip's elements in vD, unmasked; elements at and above GVL keep their values (R260). -/
def stripWrite (old : VReg) (w : Nat) (xs : List Nat) : VReg := mapElems old w (fun i => some (nthD 0 xs i)) xs.length

/-- VLDG (R260): its effect in one member. -/
def effVldg (o : OpM4) : Run1 := whole (fun c s => do
  let x := s.slot
  if flag x.gang 63 && s.myGang.isNone then throw (gangGone s)
  need (flag x.gang 63) (Trap.opnd 0x07) s
  let w := vtSew c.vtype
  let gvl := fld x.gang 19 10
  let d := o.d.toNat
  let n := x.strips
  let s := s.note c gvl gvl
  let key := (d, vtSewCode c.vtype)
  if fld x.gang 16 3 = 0 then
    let rec' := fun (s : State) (xs : List Nat) => (s.modMyGang (fun g => { g with strips := put n (key, xs, []) g.strips })).tookStrip n
    need (decide (gvl ≤ vlmax w)) (Trap.opndAt 0x05 gvl) (rec' s [])
    let es := w / 8
    let ad := fun i => (c.ga + word (i * es)).toNat
    let els := List.range gvl
    let s := s.modCmd c.qpos (fun k => { k with tr := (gvl, gvl, (els.head?.map ad).getD 0, (els.getLast?.map ad).getD 0) })
    let (xs, s) ← loadElems ad (fun s e => do
      let (p, s) ← s.access o.spc.toNat (ad e) es es .rd
      s.readSpot p es) els s
    let xs := xs.map (·.2)
    pure ((rec' s xs).setV d (stripWrite (s.vreg d) w xs))
  else
    need (decide (gvl ≤ vlmax w)) (Trap.opndAt 0x05 gvl) (s.tookStrip n)
    match s.myGang.bind (fun g => g.strip n) with
    | none => .error (.stall s)
    | some (k, xs, _) =>
      need (k == key) (Trap.opnd 0x07) (s.tookStrip n)
      pure ((s.tookStrip n).setV d (stripWrite (s.vreg d) w xs)))
/-- VLDG (R260): a member of another rank gives SPC 000 and BASE 0. -/
def execVldg (o : OpM4) (s : State) : Host.Outcome State Fault Refusal :=
  let x := s.slot.gang
  let first := flag x 63 && fld x 16 3 == 0
  let ea := s.g o.base
  finish (do
    need (!flag x 63 || first || (o.spc == 0#3 && o.base == 0#5)) (Trap.opnd 0x04) s
    issue { eng := .vec, ins := .vldg o, ga := ea,
            ranges := if first then strideRange o.spc.toNat ea.toNat (vtEs s.slot.vtype : Nat) (fld x 19 10) (vtEs s.slot.vtype) false
                      else [],
            wr := [.v o.d.toNat] } (effVldg o) s)
/-- VLDG_DELIVER (R260): the strip that rank 0 has fetched lands in a member's register. -/
def execVldgDeliver (cl core : Nat) (s : State) : Host.Outcome State Fault Refusal :=
  let mine := fun (c : Cmd) => match c.ins with | .vldg _ => true | _ => false
  onCore cl core (fun s =>
    match firstSat (fun c => c.disp && !c.done && !c.faulted && mine c) s.core.queue with
    | some c => s.stepCmd (fun c s => match c.ins with | .vldg o => effVldg o c s | _ => .ok s) c.qpos
    | none => .ok s) s

end Sys2Proof.Machine
end

