-- ==== Sys2Proof/Machine/Groups.lean ====
section
/-! DEFINITION. Threads, groups and stage queues: the start and the end of a thread and of a group (R44, R130, R272 to R274,
R284, R366), TQPUSH, TQPOP and the cluster scheduler (R268, R278 to R285). -/

namespace Sys2Proof.Machine

/-! ## The places of a cluster (R274) -/

/-- The sixteen places of a cluster in ascending number: core and slot. -/
def places : List (Nat × Bool) := (List.range 8).map (fun c => (c, false)) ++ (List.range 8).map (fun c => (c, true))
/-- The slot at a place. -/
def State.slotIn (s : State) (cl : Nat) (p : Nat × Bool) : Slot := (s.coreAt cl p.1).slot p.2
/-- The slots of a cluster that hold a thread. -/
def State.threads (s : State) (cl : Nat) : List Slot := (places.map (s.slotIn cl)).filter (fun x => x.run != .vacant)
/-- Every listed core of a cluster changed. -/
def State.mapCores (s : State) (cl : Nat) (f : Nat → Core → Core) : State :=
  { s with cores := s.cores.map (fun p => if p.1 / 8 = cl then (p.1, f (p.1 % 8) p.2) else p) }
/-- Both slots of a core changed. -/
def Core.mapSlots (c : Core) (f : Slot → Slot) : Core := { c with s0 := f c.s0, s1 := f c.s1 }
/-- Cluster cl changed. -/
def State.modClusAt (s : State) (cl : Nat) (f : Cluster → Cluster) : State := s.setClusAt cl (f (s.clusAt cl))
/-- The hub's launches changed. -/
def State.modHub (s : State) (f : HubLaunch → HubLaunch) : State := { s with hub := f s.hub }
/-- An admitted launch. -/
def State.launch (s : State) (seq : Nat) : Option Launch := firstSat (fun l => l.seq == seq) s.hub.run
/-- An admitted launch changed. -/
def State.modLaunch (s : State) (seq : Nat) (f : Launch → Launch) : State :=
  s.modHub (fun h => { h with run := replFirst (fun l => l.seq == seq) f h.run })
/-- Groups of a launch in all (R272). -/
def Launch.groups (l : Launch) : Nat := l.nx * l.ny * l.nz

/-! ## Stage queues (R278, R280, R284) -/

/-- The queue of core c for stage k. -/
def Cluster.queue (k : Cluster) (c st : Nat) : List Word := k.stq[7 * c + st - 1]?.getD []
/-- The queue of core c for stage k replaced; it became nonempty, was popped or stolen from at a time. -/
def Cluster.setQueue (k : Cluster) (c st : Nat) (l : List Word) (t : Nat) : Cluster :=
  { k with stq := k.stq.setIfInBounds (7 * c + st - 1) l, stqAt := k.stqAt.setIfInBounds (7 * c + st - 1) t }
/-- Whether every queue of a stage is empty. -/
def Cluster.stageEmpty (k : Cluster) (st : Nat) : Bool := (List.range 8).all (fun c => (k.queue c st).isEmpty)
/-- The stages that close now: every thread of a lower stage has ended (R280). -/
def State.closeStages (s : State) (cl : Nat) : State :=
  let live := (s.threads cl).map (·.th.stage)
  s.modClusAt cl (fun k => { k with closed := below (fun st => k.closed.contains st || live.all (fun j => decide (st ≤ j))) 8 })
/-- Items that stand in a stage's queues. -/
def Cluster.items (k : Cluster) (st : Nat) : Nat := (List.range 8).foldl (fun a c => a + (k.queue c st).length) 0
/-- The items left in a stage's queues are discarded and counted, and no further instance of it starts (R284). -/
def Cluster.shutStage (k : Cluster) (st : Nat) : Cluster :=
  let n := k.items st
  { (List.range 8).foldl (fun k c => { k with stq := k.stq.setIfInBounds (7 * c + st - 1) [] }) k with
    dropped := k.dropped + n, shut := st :: k.shut }

/-! ## The end of a thread and of its group (R130, R284) -/

/-- A cluster that no group holds. -/
def Cluster.vacate (k : Cluster) : Cluster :=
  { k with group := none, stq := Vector.replicate 56 [], stqAt := Vector.replicate 56 0, dropped := 0, shut := [], closed := [],
           offers := [], gangs := [], startedAt := none, preempt := false }
/-- A cluster's group is gone: the cluster is free, and stands at a swap point (R429). -/
def State.vacate (s : State) (cl : Nat) : State := (s.setClusAt cl (s.clusAt cl).vacate).swapPoint cl
/-- Items that stand in the queues of shut stages: no instance starts for them (R284). -/
def Cluster.stranded (k : Cluster) : Nat := k.shut.eraseDups.foldl (fun n st => n + k.items st) 0
/-- A group with no thread left ends, unless items remain for which an instance is still to start; what stands in the queues
of shut stages is discarded and counted (R284). -/
def State.checkGroup (s : State) (cl : Nat) : State :=
  let k := s.clusAt cl
  match k.group with
  | none => s
  | some g =>
    if (s.threads cl).isEmpty && (List.range 8).all (fun st => st == 0 || k.shut.contains st || k.stageEmpty st) then
      (s.modLaunch g.seq (fun l => { l with dropped := l.dropped + k.dropped + k.stranded })).vacate cl
    else s
/-- The current slot's thread ends: its per-slot state ceases to exist (R44, R130, R284). -/
def State.endThread (s : State) : State :=
  let x := s.slot
  let s := if x.closer && !x.popped then s.modClus (fun k => k.shutStage x.th.stage) else s
  let s := s.setSlot (Slot.fresh s.hi)
  let s := s.modHub (fun h => { h with born := h.born.filter (fun b => b.1 != x.th.tid),
                                       ended := h.ended.filter (fun b => b.tid != x.th.tid) })
  (s.closeStages s.cl).checkGroup s.cl
/-- HALT (R130, R277): a member of a gang that still stands acts as GANGOFF first; then every engine command of the slot
retires. -/
def execHalt (s : State) : Host.Outcome State Fault Refusal :=
  finish (do
    let s ← if flag s.slot.gang 63 && s.myGang.isSome then gangLeave s else pure s
    if s.core.queue.any (fun e => e.hi == s.hi) then .error (.stall s) else pure s.endThread)

/-! ## The start of a thread and of a group (R44, R273, R274, R366) -/

/-- Per-core state when a thread of a launch starts on a core that holds no state of that launch (R44). What the operating
system sets at context start is set when the context changes: RNDSEED to a free value. -/
def Core.enter (c : Core) (seq ctx seed : Nat) : Core :=
  if c.launch = seq then c
  else
    let c := { c with f := Files.fresh, h := Vector.replicate 32 Handle.free, st := Streams.fresh, queue := [], qpos := 0,
                      launch := seq, s0 := Slot.fresh false, s1 := Slot.fresh true }
    if fld c.ctxid 0 16 = ctx then c
    else { c with ctxid := word ctx, errmark := 0, errcnt := 0, rndseed := word (seed % 2 ^ 32),
                  traceptr := 0x8000_0000_0000_0000, trace := [], tlb := [] }
/-- A thread of a group of launch l starts at a place and a stage (R44, R274, R366). -/
def State.startThread (s : State) (l : Launch) (num cl : Nat) (p : Nat × Bool) (stage : Nat) (closer : Bool) : State :=
  let (v, s) := s.fresh
  let tid := s.hub.tid + 1
  let s := s.modHub (fun h => { h with tid := tid })
  s.on cl p.1 p.2 (fun s =>
    let s := s.modCore (fun c => c.enter l.seq l.ctx v)
    let status := b2n p.2 + (l.pri <<< 1) + (b2n (bitOf l.flags 1) <<< 8) + (b2n (bitOf l.flags 0) <<< 9)
    let th : Thread :=
      { tid := tid, seq := l.seq, x := num % l.nx, y := num / l.nx % l.ny, z := num / (l.nx * l.ny), nx := l.nx, ny := l.ny,
        nz := l.nz, num := 8 * b2n p.2 + p.1, stage := stage, nt := l.nt, ns := l.ns }
    let pc := word (l.code + nthD 0 l.soff stage)
    s.setSlot { Slot.fresh p.2 with
      run := .running, th := th, pc := pc, npc := pc, g := (Vector.replicate 32 0).set 1 (word l.param),
      status := word status, trapvec := l.trapvec, gens := seedGens (fld s.core.rndseed 0 32), closer := closer })
/-- The clusters that a launch may use (R273, R364, R430, R443). -/
def State.mayUse (s : State) (l : Launch) (cl : Nat) : Bool :=
  s.bt.powered && decide (cl < s.nclus) && (l.mask == 0 || bitOf l.mask cl) && !bitOf s.er.cloff cl
/-- The lowest-numbered free cluster that a launch may use. -/
def State.freeCluster (s : State) (l : Launch) : Option Nat :=
  firstFrom (fun cl => (s.clusAt cl).group.isNone && s.mayUse l cl) 0 40
/-- Whether launch a ranks before launch b for a free cluster (R371). -/
def Launch.before (a b : Launch) : Bool := decide (a.pri < b.pri) || (a.pri == b.pri && decide (a.order < b.order))
/-- Whether a launch has a group that has not started and that no pre-empted one of it stands before (R371). -/
def State.hasNext (s : State) (l : Launch) : Bool :=
  !l.killed && decide (l.next < l.groups) && s.hub.saved.all (fun v => v.grp.seq != l.seq)
/-- Whether a pre-empted group of a launch may be restored on a cluster: a pinned one on its own only (R371, R372). -/
def State.hasSaved (s : State) (l : Launch) (cl : Nat) : Bool :=
  s.hub.saved.any (fun v => v.grp.seq == l.seq && (!v.pinned || v.cl == cl))
/-- Whether the next group of a launch, a pre-empted one first, may take a cluster when it is free (R371 to R373). -/
def State.wants (s : State) (l : Launch) (cl : Nat) : Bool := s.mayUse l cl && (s.hasNext l || s.hasSaved l cl)
/-- Whether the next group of a launch finds a free cluster. -/
def State.finds (s : State) (l : Launch) : Bool :=
  (List.range 40).any (fun cl => (s.clusAt cl).group.isNone && s.wants l cl)
/-- Whether a launch ranks first among those that want a cluster. -/
def State.firstFor (s : State) (l : Launch) (cl : Nat) : Bool :=
  s.wants l cl && s.hub.run.all (fun k => k.seq == l.seq || !s.wants k cl || l.before k)
/-- Launch l starts its next group on a cluster: threads 0 to T − 1 at stage 0 (R273, R274). -/
def State.startGroup (s : State) (l : Launch) (cl : Nat) : State :=
  let num := l.next
  let s := s.modHub (fun h => { h with order := h.order + 1 })
  let s := s.modLaunch l.seq (fun l => { l with next := num + 1, ran := if l.ran.contains cl then l.ran else cl :: l.ran })
  let s := s.modClusAt cl (fun k => { k.vacate with group := some ⟨l.seq, num, s.hub.order⟩ })
  ((places.take l.nt).foldl (fun s p => s.startThread l num cl p 0 false) s).closeStages cl
/-- GROUP_START (R273, R371): the first-ranked launch whose next group finds a free allowed cluster. Where that group is one
to be restored, nothing starts. -/
def execGroupStart (s : State) : Host.Outcome State Fault Refusal :=
  .next (match firstBy Launch.before (s.hub.run.filter s.finds) with
    | none => s
    | some l => match s.hasNext l, s.freeCluster l with
      | true, some cl => s.startGroup l cl
      | _, _ => s)

/-! ## TQPUSH and TQPOP (R268, R279, R283, R285) -/

/-- The waits of a stage's instances begin anew: one of its queues holds an item now, or did until now (R283). -/
def State.restartWaits (s : State) (cl stage : Nat) : State :=
  s.mapCores cl (fun _ c => c.mapSlots (fun x =>
    if x.th.stage = stage then { x with popAt := x.popAt.map (fun _ => s.time) } else x))
/-- TQPUSH (R268, R279). -/
def execTqpush (o : OpA2) (s : State) : Host.Outcome State Fault Refusal :=
  let item := s.g o.a
  let st := (s.g o.b).toNat
  commit s (fun s => do
    need (!flag item 63 && decide (st < s.slot.th.ns) && decide (s.slot.th.stage < st)) (Trap.opnd 0x04) s
    let q := s.clus.queue s.co st
    let ok := decide (q.length < 64)
    let at_ := if q.isEmpty then s.time else s.clus.stqAt[7 * s.co + st - 1]?.getD 0
    let s := if ok then (s.modClus (fun k => k.setQueue s.co st (q ++ [item]) at_)).restartWaits s.cl st else s
    pure ((s.setG o.d (word (b2n ok))).modSlot (fun x => { x with latch := true })))
/-- The value of a TQPOP that finds the stage closed and empty, or whose instance is retired. -/
def tqClosed : Word := 0x8000_0000_0000_0000
/-- The value of a TQPOP that finds no item and does not wait. -/
def tqEmpty : Word := 0xC000_0000_0000_0000
/-- The core whose queue a TQPOP of core c for a stage comes to first: its own, or the first after it that holds an item
(R285). -/
def Cluster.scan (k : Cluster) (c st : Nat) : Option Nat :=
  (firstFrom (fun i => !(k.queue ((c + i) % 8) st).isEmpty) 0 8).map (fun i => (c + i) % 8)
/-- The places of the other slots that wait in a TQPOP of a stage. -/
def State.waiters (s : State) (st : Nat) : List (Nat × Bool) :=
  places.filter (fun p =>
    let x := s.slotIn s.cl p
    p != (s.co, s.hi) && x.run == .running && x.th.stage == st && x.popAt.isSome)
/-- Whether one place stands before another. -/
def placeBefore (p q : Nat × Bool) : Bool := decide (8 * b2n p.2 + p.1 < 8 * b2n q.2 + q.1)
/-- The item that a TQPOP at a place takes for a stage: the head of its own queue, or the tail of the first queue after it
that holds one. Of those that wait for the same queue, owners are served before thieves and each in ascending place (R285). -/
def Cluster.popItem (k : Cluster) (p : Nat × Bool) (st now : Nat) (w : List (Nat × Bool)) : Option (Word × Cluster) :=
  match k.scan p.1 st with
  | none => none
  | some c =>
    let q := k.queue c st
    let rivals := w.filter (fun r => k.scan r.1 st == some c)
    let owners := rivals.filter (fun r => r.1 == c)
    if c = p.1 then
      let n := (owners.filter (fun r => placeBefore r p)).length
      q[n]?.map (fun a => (a, k.setQueue c st (q.eraseIdx n) now))
    else if q.length ≤ owners.length || rivals.any (fun r => r.1 != c && placeBefore r p) then none
    else q.getLast?.map (fun a => (a, k.setQueue c st q.dropLast now))
/-- An instance that has received the value of a closed stage receives it from now on (R283). -/
def State.closedTo (s : State) : State := s.modSlot (fun x => { x with retired := true })
/-- TQPOP (R268, R283, R285). -/
def execTqpop (o : OpA2) (s : State) : Host.Outcome State Fault Refusal :=
  let st := s.slot.th.stage
  commit s (fun s => do
    need (o.b == 0 && decide ((s.g o.a).toNat ≤ 1)) (Trap.opnd 0x04) s
    if st = 0 || s.slot.retired then pure (s.setG o.d tqClosed)
    else match s.clus.popItem (s.co, s.hi) st s.time (s.waiters st) with
      | some (a, k) =>
        let s := ((s.modClus (fun _ => k)).restartWaits s.cl st).modSlot (fun x => { x with popped := true })
        pure (s.setG o.d (setFld a 63 1 0))
      | none =>
        if s.clus.closed.contains st && s.clus.stageEmpty st then pure (s.closedTo.setG o.d tqClosed)
        else if s.g o.a = 1 then pure (s.setG o.d tqEmpty)
        else .error (.stall (s.modSlot (fun x => { x with popAt := some (x.popAt.getD s.time) }))))

/-! ## The cluster scheduler (R282, R283) -/

/-- The instances of a stage in a cluster's group. -/
def State.instances (s : State) (cl st : Nat) : Nat := ((s.threads cl).filter (fun x => x.th.stage == st)).length
/-- The place of a new instance for the queue of core c (R282). -/
def State.instancePlace (s : State) (cl c : Nat) : Option (Nat × Bool) :=
  let free := fun p => (s.slotIn cl p).run == .vacant
  firstSat free ([(c, false), (c, true)] ++ places)
/-- Whether a row of R282 starts an instance: 0 occupancy, 1 age, 2 closure. -/
def State.stageRow (s : State) (l : Launch) (cl c st row : Nat) : Bool :=
  let k := s.clusAt cl
  let q := k.queue c st
  let n := s.instances cl st
  !k.preempt && !k.shut.contains st && decide (1 ≤ st) && decide (st < l.ns) && !q.isEmpty && !l.killed &&
  match row with
  | 0 => decide (nthD 0 l.fk (st - 1) ≤ q.length) && decide (n < nthD 0 l.lk (st - 1))
         && (st + 1 == l.ns || decide ((k.queue c (st + 1)).length ≤ 56))
  | 1 => decide ((k.stqAt[7 * c + st - 1]?.getD 0) + 1024 ≤ s.time) && n == 0
  | _ => k.closed.contains st && n == 0
/-- Whether some row starts an instance for the queue of a core and stage. -/
def State.due (s : State) (l : Launch) (cl c st : Nat) : Bool := [0, 1, 2].any (s.stageRow l cl c st)
/-- The first queue, in ascending stage and then core, for which an instance is due (R282). -/
def State.firstDue (s : State) (l : Launch) (cl : Nat) : Option (Nat × Nat) :=
  firstSat (fun q => s.due l cl q.1 q.2) ((List.range 7).flatMap (fun st => (List.range 8).map (fun c => (c, st + 1))))
/-- An instance of stage k starts for the queue of core c under one of the rows, when that queue is the first that is due and
no other instance has started in this cycle (R282). -/
def State.startInstance (s : State) (cl c st : Nat) (rows : List Nat) : State :=
  match (s.clusAt cl).group with
  | none => s
  | some g =>
    match s.launch g.seq with
    | none => s
    | some l =>
      if s.firstDue l cl == some (c, st) && (s.clusAt cl).startedAt != some s.time then
        match firstSat (s.stageRow l cl c st) rows, s.instancePlace cl c with
        | some r, some p => (s.startThread l g.num cl p st (r == 2)).modClusAt cl (fun k => { k with startedAt := some s.time })
        | _, _ => s
      else s
/-- STAGE_AGE_EXPIRY (R282): the queue of a core has held an item for 1,024 cycles without a pop or steal. -/
def execStageAgeExpiry (cl core stage : Nat) (s : State) : Host.Outcome State Fault Refusal :=
  .next (s.startInstance cl core stage [1])
/-- STAGE_INSTANCE_START (R282): occupancy or closure. -/
def execStageInstanceStart (cl core stage : Nat) (s : State) : Host.Outcome State Fault Refusal :=
  .next (s.startInstance cl core stage [0, 2])
/-- INSTANCE_RETIRE (R277, R282, R283): an instance has waited 2,048 cycles while its stage's queues were empty. -/
def execInstanceRetire (cl core slot : Nat) (s : State) : Host.Outcome State Fault Refusal :=
  .next (s.on cl core (slot != 0) (fun s =>
    let x := s.slot
    match x.popAt with
    | some t =>
      if x.run == .running && t + 2048 ≤ s.time && 1 ≤ x.th.stage && s.clus.stageEmpty x.th.stage
          && !(flag x.gang 63 && s.myGang.isSome) && !s.clus.preempt then
        s.closedTo
      else s
    | none => s))

end Sys2Proof.Machine
end

