-- ==== Sys2Proof/Machine/Launches.lean ====
section
/-! DEFINITION. Launches: the descriptor (R364, R365), accesses of the hub, launch queues (R366 to R369), LAUNCH and JOIN
(R269, R270), admission and completion (R370, R373, R374). -/

namespace Sys2Proof.Machine

/-! ## Accesses of the hub on a context's behalf -/

/-- A byte as the hub finds it: a store to a peer that is held at device scope, or the home. -/
def State.hubByte (s : State) (loc : Nat) : Byte := (s.peer.get? loc).getD (s.mem.get loc)
/-- n bytes as the hub finds them. -/
def State.hubBytes (s : State) (loc : Nat) : Nat → List Byte
  | 0 => []
  | n + 1 => s.hubByte loc :: State.hubBytes s (loc + 1) n
/-- A read by the hub of n bytes inside one page, or the cause, subcode and entry of its fault. -/
def State.hubRead (s : State) (ctx va n : Nat) : Except (Nat × Nat × Word) (List Byte × State) := do
  let (p, s) ← s.xlateHub ctx va .rd
  match p with
  | .mem loc => if peerBase ≤ loc && !s.peerAdmits loc n 0 then .error (0x07, 0x07, 0) else pure (s.hubBytes loc n, s)
  | _ => .error (0x07, 0x06, 0)
/-- A write by the hub at a place; a peer drops what no window of it admits, and both hubs count it (R406). -/
def State.hubPut (s : State) (loc : Nat) (bs : List Byte) : State :=
  let n := bs.length
  if peerBase ≤ loc && !s.peerAdmits loc n 1 then { s with xl := { s.xl with peerRej := s.xl.peerRej + 1 } }
  else { s with mem := s.mem.writeList loc bs, peer := s.peer.part (fun a => !(decide (loc ≤ a) && decide (a < loc + n))) }
/-- A write by the hub of bytes inside one page. -/
def State.hubWrite (s : State) (ctx va : Nat) (bs : List Byte) : Except (Nat × Nat × Word) State := do
  let (p, s) ← s.xlateHub ctx va .wr
  match p with
  | .mem loc => pure (s.hubPut loc bs)
  | _ => .error (0x07, 0x06, 0)

/-! ## The descriptor (R364, R365) -/

/-- The little-endian field of n bytes at an offset. -/
def leField (bs : List Byte) (off n : Nat) : Nat := leNat ((bs.drop off).take n)
/-- A launch as its descriptor gives it, or none for a malformed descriptor; `die1` says that C1 is present. -/
def parseDesc (die1 : Bool) (bs : List Byte) : Option Launch :=
  let f := leField bs
  let ns := f 0x37 1
  let nt := f 0x36 1
  let soff := (List.range 8).map (fun k => f (8 + 4 * k) 4)
  let fk := (List.range 7).map (fun k => f (0x50 + k) 1)
  let lk := (List.range 7).map (fun k => f (0x58 + k) 1)
  let mask := f 0x60 8
  let lim := fun (l : List Nat) (top : Nat) => (List.range 7).all (fun k =>
    if k + 1 < ns then decide (1 ≤ nthD 0 l k) && decide (nthD 0 l k ≤ top) else nthD 0 l k == 0)
  if f 0 8 % 64 == 0 && decide (f 0 8 < 2 ^ 54)
      && (List.range 8).all (fun k => nthD 0 soff k % 2 == 0 && (decide (k < ns) || nthD 0 soff k == 0))
      && decide (1 ≤ nt) && decide (nt ≤ 16) && decide (1 ≤ ns) && decide (ns ≤ 8) && decide (f 0x38 1 ≤ 3)
      && (f 0x39 1 == 3 || f 0x39 1 == 4) && decide (f 0x3A 2 < 8) && f 0x3C 4 == 0 && f 0x40 8 % 64 == 0
      && f 0x48 8 % 16 == 0 && lim fk 64 && lim lk 16 && f 0x57 1 == 0 && f 0x5F 1 == 0 && decide (mask < 2 ^ 40)
      && (die1 || bits mask 20 20 == 0) && f 0x68 8 == 0 && f 0x70 8 == 0 && f 0x78 8 == 0
      && decide (nt + lk.foldl (· + ·) 0 ≤ 16) then
    some { seq := 0, ctx := 0, code := f 0 8, soff := soff, param := f 0x28 8, nx := f 0x30 2, ny := f 0x32 2, nz := f 0x34 2,
           nt := nt, ns := ns, pri := f 0x38 1, scope := f 0x39 1, flags := f 0x3A 2, trapvec := word (f 0x40 8),
           cmpl := f 0x48 8, fk := fk, lk := lk, mask := mask, parent := none, queue := none, at_ := 0, order := 0, next := 0,
           dropped := 0, faulted := false, killed := false, ran := [] }
  else none
/-- The next launch sequence number (R366). -/
def nextSeq (n : Nat) : Nat := if n + 1 = 2 ^ 32 then 1 else n + 1

/-! ## Launch queues (R367 to R369) -/

/-- Launch queue n. -/
def State.lnq (s : State) (n : Nat) : Lnq := (look n s.hub.lnqs).getD Lnq.fresh
/-- Launch queue n replaced. -/
def State.setLnq (s : State) (n : Nat) (q : Lnq) : State := s.modHub (fun h => { h with lnqs := put n q h.lnqs })
/-- STATE. -/
def Lnq.st (q : Lnq) : Nat := fld q.ctl 62 2
/-- HEAD. -/
def Lnq.head (q : Lnq) : Nat := fld q.ctl 17 17
/-- TAIL. -/
def Lnq.tail (q : Lnq) : Nat := fld q.ctl 0 17
/-- CTXID. -/
def Lnq.ctx (q : Lnq) : Nat := fld q.ctl 36 12
/-- Packets that stand in the ring. -/
def Lnq.occ (q : Lnq) : Nat := (q.tail + 2 ^ 17 - q.head) % 2 ^ 17
/-- Packets that the ring holds. -/
def Lnq.size (q : Lnq) : Nat := 2 ^ fld q.ctl 52 5
/-- The address of the packet at HEAD. -/
def Lnq.headAddr (q : Lnq) : Nat := q.base.toNat + 128 * (q.head % q.size)
/-- The interrupt source of register offsets: what the host cluster would read to find the cause. -/
def lnqIrq (n : Nat) : Nat := 0x130010 + 32 * n
/-- LNQFAULT takes an event, and the host cluster is interrupted (R368). -/
def State.lnqEvent (s : State) (n kind addr : Nat) : State :=
  (s.setLnq n { s.lnq n with fault := word (2 ^ 63 + (kind <<< 61) + addr % 2 ^ 54) }).irq (lnqIrq n)
/-- A TAIL write that is taken, or overruns the ring (R367). -/
def State.lnqTake (s : State) (n t : Nat) : State :=
  let q := s.lnq n
  let occ := (t + 2 ^ 17 - q.head) % 2 ^ 17
  if q.size < occ then s.lnqEvent n 1 0
  else s.setLnq n { q with ctl := setFld q.ctl 0 17 t, arr := q.arr ++ [(t, s.time)],
                           headAt := if q.occ = 0 then s.time else q.headAt }
/-- A destroying queue with no admitted launch left is disabled, and the host cluster is interrupted (R369). -/
def State.lnqDrained (s : State) (n : Nat) : State :=
  let q := s.lnq n
  if q.st == 3 && s.hub.run.all (fun l => l.queue != some n) then
    (s.setLnq n { q with ctl := setFld q.ctl 62 2 0, cand := none, arr := [] }).irq (lnqIrq n)
  else s
/-- Whether a context is registered (R408). -/
def State.ctxValid (s : State) (ctx : Nat) : Bool := decide (ctx < 4096) && flag ((look ctx s.xl.ctxtab).getD 0) 63
/-- A host write of LNQCTLn (R367, R369). -/
def State.lnqCtl (s : State) (n : Nat) (v : Word) : State :=
  let q := s.lnq n
  let w := fld v 62 2
  let q := { q with ctl := setFld q.ctl 60 2 (fld v 60 2) }
  match q.st with
  | 0 =>
    let c := setFld q.ctl 36 16 (fld v 36 12)
    let c := if 4 ≤ fld v 52 5 ∧ fld v 52 5 ≤ 16 then setFld c 52 5 (fld v 52 5) else c
    if w = 1 && s.ctxValid (fld c 36 12) then
      (s.setLnq n { q with ctl := setFld (setFld (setFld c 62 2 1) 17 17 0) 0 17 0, arr := [], cand := none }).lnqTake n (fld v 0 17)
    else if w = 3 then (s.setLnq n { q with ctl := setFld c 62 2 3 }).lnqDrained n
    else s.setLnq n { q with ctl := c }
  | 3 => s.setLnq n q
  | _ =>
    let restart := q.st == 2 && w == 1
    let q := if restart then { q with ctl := setFld q.ctl 62 2 1, cand := none, headAt := s.time } else q
    let s := (s.setLnq n q).lnqTake n (fld v 0 17)
    if w = 3 then (s.setLnq n { s.lnq n with ctl := setFld (s.lnq n).ctl 62 2 3, cand := none }).lnqDrained n else s
/-- A host write of LNQBASEn (R368). -/
def State.lnqBase (s : State) (n : Nat) (v : Word) : State :=
  let q := s.lnq n
  if q.st = 0 then s.setLnq n { q with base := word (fld v 7 47 * 128) } else s
/-- A host write of LNQFAULTn: VALID is cleared by a 1 (R368). -/
def State.lnqClear (s : State) (n : Nat) (v : Word) : State :=
  let q := s.lnq n
  if flag v 63 then s.setLnq n { q with fault := setFld q.fault 63 1 0 } else s
/-- LNQ_START (R367): the host writes LNQCTL of a queue. -/
def execLnqStart (queue value : Nat) (s : State) : Host.Outcome State Fault Refusal :=
  .next (if queue < 64 then s.lnqCtl queue (setFld (word value) 62 2 1) else s)
/-- LNQ_DESTROY (R369): the host writes STATE = 11. -/
def execLnqDestroy (queue : Nat) (s : State) : Host.Outcome State Fault Refusal :=
  .next (if queue < 64 then s.lnqCtl queue (setFld (s.lnq queue).ctl 62 2 3) else s)
/-- LNQ_TAIL (R367): the host advances TAIL. -/
def execLnqTail (queue value : Nat) (s : State) : Host.Outcome State Fault Refusal :=
  .next (if queue < 64 then s.lnqCtl queue (setFld (setFld (s.lnq queue).ctl 62 2 0) 0 17 value) else s)

/-- A TAIL write of value t covers the packet of count h (R367, R370). -/
def covers (h t : Nat) : Bool := decide (1 ≤ (t + 2 ^ 17 - h) % 2 ^ 17) && decide ((t + 2 ^ 17 - h) % 2 ^ 17 ≤ 2 ^ 16)
/-- The hub is done with the packet at HEAD; TAIL writes that cover none of those after it are forgotten. -/
def State.lnqAdvance (s : State) (n : Nat) : State :=
  let q := s.lnq n
  let h := (q.head + 1) % 2 ^ 17
  s.setLnq n { q with ctl := setFld q.ctl 17 17 h, cand := none, headAt := s.time, arr := q.arr.filter (fun p => covers h p.1) }
/-- When the packet at HEAD arrived: the TAIL write that covers it (R370). -/
def Lnq.arrived (q : Lnq) : Nat :=
  match firstSat (fun p => covers q.head p.1) q.arr with
  | some p => p.2
  | none => q.headAt
/-- The completion record (R374): END, dropped items, sequence number. -/
def completionRecord (code dropped seq : Nat) : List Byte :=
  leBytes 8 (2 ^ 63 + (code <<< 61) + min dropped (2 ^ 32 - 1)) ++ leBytes 8 (seq % 2 ^ 32)
/-- LNQ_PACKET_READ (R366, R367): the packet at HEAD is read whole, or the queue halts; a malformed one is reported, with a
record where CMPL is usable, and passed. -/
def State.lnqRead (s : State) (n : Nat) : State :=
  let q := s.lnq n
  if q.st = 1 && q.occ != 0 && q.cand.isNone then
    let a := q.headAddr
    let halt := fun (s : State) (a : Nat) =>
      (s.setLnq n { s.lnq n with ctl := setFld (s.lnq n).ctl 62 2 2 }).lnqEvent n 0 a
    match s.hubRead q.ctx a 64 with
    | .error _ => halt (s.hubDrop q.ctx a .rd) a
    | .ok (x, s) =>
      match s.hubRead q.ctx (a + 64) 64 with
      | .error _ => halt (s.hubDrop q.ctx (a + 64) .rd) (a + 64)
      | .ok (y, s) =>
        match parseDesc s.full (x ++ y) with
        | some l =>
          let l := { l with ctx := q.ctx, pri := max l.pri (fld q.ctl 60 2), queue := some n, at_ := q.arrived }
          s.setLnq n { q with cand := some l }
        | none =>
          let cm := leField (x ++ y) 0x48 8
          let s := if cm != 0 && cm % 16 == 0 then
              (match s.hubWrite q.ctx cm (completionRecord 3 0 0) with | .ok t => t | .error _ => s.hubDrop q.ctx cm .wr) else s
          (s.lnqEvent n 2 a).lnqAdvance n
  else s
/-- LNQ_PACKET_READ (R367). -/
def execLnqPacketRead (queue : Nat) (s : State) : Host.Outcome State Fault Refusal :=
  .next (if queue < 64 then s.lnqRead queue else s)

/-! ## LAUNCH and JOIN (R269, R270) -/

/-- LAUNCH (R5, R269, R365, R366). -/
def execLaunch (o : OpA2) (s : State) : Host.Outcome State Fault Refusal :=
  let a := s.g o.a
  let mask := s.g o.b
  commit s (fun s => do
    need (s.full || fld mask 20 20 == 0) Trap.absent s
    need (fld mask 40 24 == 0) (Trap.opnd 0x04) s
    need (decide (a.toNat < 2 ^ 54)) { Trap.perm 0x01 with d0 := a } s
    need (a.toNat % 64 == 0) (Trap.align 0x02) s
    let s ← phaseAct 3 s
    let (bs, s) ← s.readDev 3 a.toNat 128
    match parseDesc s.full bs with
    | none => .error (.trap (Trap.opnd 0x08) s)
    | some l =>
      if 1024 ≤ s.hub.kids.length then .error (.stall s)
      else
        let seq := nextSeq s.hub.seq
        let l := { l with seq := seq, ctx := fld s.core.ctxid 0 16, pri := max l.pri (fld s.slot.status 1 2),
                          mask := if mask = 0 then l.mask else mask.toNat, at_ := s.time,
                          parent := some (s.slot.th.tid, s.slot.th.seq) }
        let s := s.modHub (fun h => { h with seq := seq, kids := h.kids ++ [l],
                                             kidAt := if h.kids.isEmpty then s.time else h.kidAt,
                                             born := h.born ++ [(s.slot.th.tid, seq)] })
        pure (s.setG o.d (word seq)))
/-- The JOIN word (R270). -/
def joinWord (l : List EndedKid) : Word :=
  let n := fun c => (l.filter (fun k => k.code == c)).length
  word (((n 0 % 2 ^ 20) <<< 40) + ((n 1 % 2 ^ 20) <<< 20) + n 2 % 2 ^ 20)
/-- JOIN (R270). -/
def execJoin (o : OpA2) (s : State) : Host.Outcome State Fault Refusal :=
  let n := (s.g o.a).toNat
  let tid := s.slot.th.tid
  commit s (fun s => do
    need (o.b == 0) (Trap.opnd 0x04) s
    need (n == 0 || s.hub.born.contains (tid, n)) (Trap.opnd 0x04) s
    let named := fun (q : Nat) => n == 0 || q == n
    let mine := s.hub.born.filter (fun b => b.1 == tid && named b.2)
    let done := s.hub.ended.filter (fun k => k.tid == tid && named k.seq)
    if mine.all (fun b => done.any (fun k => k.seq == b.2)) then
      let s := s.modHub (fun h => { h with
        born := h.born.filter (fun b => !(b.1 == tid && named b.2)),
        ended := h.ended.filter (fun k => !(k.tid == tid && named k.seq)) })
      pure (s.acquire.setG o.d (joinWord done))
    else .error (.stall s))

/-! ## Admission and completion (R370, R374) -/

/-- A candidate for admission: its launch, when it came to the head of its source, and its source, 64 for the child queue. -/
structure Cand where
  l : Launch
  head : Nat
  src : Nat
  deriving DecidableEq, Repr
/-- The candidates. -/
def State.candidates (s : State) : List Cand :=
  (List.range 64).filterMap (fun n =>
    let q := s.lnq n
    if q.st = 1 then q.cand.map (fun l => (⟨l, q.headAt, n⟩ : Cand)) else none)
  ++ (match s.hub.kids with | [] => [] | l :: _ => [(⟨l, s.hub.kidAt, 64⟩ : Cand)])
/-- Whether candidate a ranks before b (R370). -/
def Cand.before (now : Nat) (a b : Cand) : Bool :=
  let p := fun (c : Cand) => c.l.pri - (now - c.head) / 2 ^ 18
  decide (p a < p b) || (p a == p b && (decide (a.l.at_ < b.l.at_) || (a.l.at_ == b.l.at_ && decide (a.src < b.src))))
/-- Whether a launch has no group left running, waiting or pre-empted (R373). -/
def State.launchOver (s : State) (l : Launch) : Bool :=
  (l.killed || l.groups ≤ l.next) && s.clusters.all (fun k => k.2.group.elim true (fun g => g.seq != l.seq))
    && s.hub.saved.all (fun v => v.grp.seq != l.seq)
/-- The END code of a launch (R373). -/
def Launch.endCode (l : Launch) : Nat := if l.killed then 2 else if l.faulted then 1 else 0
/-- A release of every store of the clusters that a launch ran on (R374). -/
def State.releaseAll (s : State) (scope : Nat) (cls : List Nat) : State :=
  cls.foldl (fun s cl => (List.range 8).foldl (fun s co => s.on cl co false (fun t => t.release scope)) s) s
/-- The steps of R374. -/
def State.completeLaunch (s : State) (l : Launch) : State :=
  let s := s.releaseAll l.scope l.ran
  let r := if l.cmpl = 0 then (s, false)
    else match s.hubWrite l.ctx l.cmpl (completionRecord l.endCode l.dropped l.seq) with
      | .ok t => (t, false)
      | .error _ => (s.hubDrop l.ctx l.cmpl .wr, true)
  let s := r.1
  let s := match l.parent with
    | some (tid, _) =>
      if s.hub.born.contains (tid, l.seq) then s.modHub (fun h => { h with ended := h.ended ++ [(⟨tid, l.seq, l.endCode⟩ : EndedKid)] }) else s
    | none => s
  let s := if r.2 || bitOf l.flags 2 then s.irq (2 ^ 32 + l.seq) else s
  let s := s.modHub (fun h => { h with run := dropFirst (fun k => k.seq == l.seq) h.run })
  match l.queue with
  | some n => s.lnqDrained n
  | none => s
/-- Whether the hub has read the head packet of every running queue that holds one: it ranks them all (R370). -/
def State.headsRead (s : State) : Bool :=
  (List.range 64).all (fun n => let q := s.lnq n; q.st != 1 || q.occ == 0 || q.cand.isSome)
/-- A launch is admitted from the head of its source, with a number of its own if it is a packet (R366). -/
def State.admitCand (s : State) (c : Cand) : State :=
  let order := s.hub.order + 1
  let s := s.modHub (fun h => { h with order := order })
  if c.src = 64 then
    s.modHub (fun h => { h with run := h.run ++ [{ c.l with order := order }], kids := h.kids.drop 1, kidAt := s.time })
  else
    let seq := nextSeq s.hub.seq
    (s.modHub (fun h => { h with seq := seq, run := h.run ++ [{ c.l with seq := seq, order := order }] })).lnqAdvance c.src
/-- LAUNCH_ADMIT (R366, R370, R374): the candidate that ranks first; one with no group completes at once. -/
def execLaunchAdmit (s : State) : Host.Outcome State Fault Refusal :=
  .next (if 64 ≤ s.hub.run.length || !s.headsRead then s
    else match firstBy (Cand.before s.time) s.candidates with
    | none => s
    | some c =>
      let t := s.admitCand c
      if c.l.groups = 0 then (match t.hub.run.getLast? with | some l => t.completeLaunch l | none => t) else t)
/-- LAUNCH_COMPLETE (R340, R374): a launch that has ended, whose return-free operations are all performed and
acknowledged. -/
def execLaunchComplete (seq : Nat) (s : State) : Host.Outcome State Fault Refusal :=
  .next (match s.launch seq with
    | none => s
    | some l => if s.launchOver l && s.bd.ops.all (fun o => o.seq != seq) then s.completeLaunch l else s)

end Sys2Proof.Machine
end

