-- ==== Sys2Proof/Machine/Exchange.lean ====
section
/-! DEFINITION. Collectives: the parameter block (R263, R264, R447), COLL, CCWAIT and CCREAD, chunks, the counter and the
error codes (R265, R331 to R334, R446), and the coded exchange (R6, R312 to R323). -/

namespace Sys2Proof.Machine

/-- The exchange at the hub changed. -/
def State.modEx (s : State) (f : HubExch → HubExch) : State := { s with ex := f s.ex }
/-- One of the counters of R323 rises: CODEDTX, SIDEMISS, DTIMEOUT, FALLBACK, SEVICT, UNCSUB, EXPREJ, EXPOVF. -/
def State.exCount (s : State) (k : Nat) : State :=
  s.modEx (fun x => { x with ctr := x.ctr.setIfInBounds k (((x.ctr[k]?.getD 0) + 1) % 2 ^ 64) })
/-- The collective of a rank; the event rows name it by its number and its rank above bit 31. -/
def State.coll (s : State) (num rank : Nat) : Option Coll :=
  firstSat (fun c => c.num == num && c.rank == rank) s.ex.colls
/-- The collective of a rank changed. -/
def State.modColl (s : State) (num rank : Nat) (f : Coll → Coll) : State :=
  s.modEx (fun x => { x with colls := replFirst (fun c => c.num == num && c.rank == rank) f x.colls })
/-- The ranks of a group. -/
def State.ranks (s : State) (gid : Nat) : List Rank := (look gid s.ex.groups).getD []
/-- Whether rank r of a group lies in this package. -/
def State.rankHere (s : State) (gid r : Nat) : Bool :=
  match (s.ranks gid)[r]? with
  | some (.here _) => true
  | _ => false
/-- The fabric port toward rank r of a group, for a rank on another package. -/
def State.farPort (s : State) (gid r : Nat) : Option Nat :=
  match (s.ranks gid)[r]? with
  | some (.far p) => some p
  | _ => none
/-- The fabric ports of a group's route. -/
def State.farPorts (s : State) (gid : Nat) : List Nat :=
  (List.range 16).filter (fun p => (s.ranks gid).contains (.far p))
/-- A packet leaves by a fabric port (R312). -/
def State.toPort (s : State) (m : Poest) (p : Nat) : State := s.emit (.poest p m)
/-- A packet leaves for every other hub of a group. -/
def State.toGroup (s : State) (gid : Nat) (m : Poest) : State := (s.farPorts gid).foldl (fun s p => s.toPort m p) s
/-- What is known of a rank on another package in a run. -/
def State.farRank (s : State) (gid num r : Nat) : FarRank :=
  (firstSat (fun x => x.gid == gid && x.num == num && x.rank == r) s.ex.far).getD ⟨gid, num, r, none, false, none, false⟩
/-- What is known of such a rank changed. -/
def State.modFar (s : State) (gid num r : Nat) (f : FarRank → FarRank) : State :=
  let n := f (s.farRank gid num r)
  s.modEx (fun x => { x with far := n :: x.far.filter (fun y => !(y.gid == gid && y.num == num && y.rank == r)) })
/-- Whether every rank of this package has joined a run. -/
def State.collFull (s : State) (gid num : Nat) : Bool :=
  (List.range (s.ranks gid).length).all (fun r => !s.rankHere gid r || (s.coll num r).elim false (fun c => !c.boot))

/-! ## Accesses of a collective (R333, R446) -/

/-- A fault on an access of a rank's collective. -/
structure HubErr where
  num : Nat
  rank : Nat
  code : Nat
  sub : Nat
  va : Nat
  e : Word
  deriving DecidableEq, Repr
/-- A step of a collective. -/
abbrev HubM := Except HubErr
/-- n bytes from a virtual address, page by page. -/
def collRead (c : Coll) : Nat → Nat → Nat → State → HubM (List Byte × State)
  | 0, _, _, s => .ok ([], s)
  | f + 1, va, n, s =>
    if n = 0 then .ok ([], s)
    else
      let m := min n (65536 - va % 65536)
      match s.hubRead c.ctx va m with
      | .error (code, sub, e) => .error ⟨c.num, c.rank, code, sub, va, e⟩
      | .ok (x, s) => (collRead c f (va + m) (n - m) s).map (fun r => (x ++ r.1, r.2))
/-- Bytes written from a virtual address, page by page. -/
def collWrite (c : Coll) : Nat → Nat → List Byte → State → HubM State
  | 0, _, _, s => .ok s
  | f + 1, va, bs, s =>
    if bs.isEmpty then .ok s
    else
      let m := min bs.length (65536 - va % 65536)
      match s.hubWrite c.ctx va (bs.take m) with
      | .error (code, sub, e) => .error ⟨c.num, c.rank, code, sub, va, e⟩
      | .ok s => collWrite c f (va + m) (bs.drop m) s
/-- A read by a rank's collective. -/
def State.cRead (s : State) (c : Coll) (va n : Nat) : HubM (List Byte × State) := collRead c (pagesOf n) va n s
/-- A write by a rank's collective. -/
def State.cWrite (s : State) (c : Coll) (va : Nat) (bs : List Byte) : HubM State := collWrite c (pagesOf bs.length) va bs s

/-- CAPS.XCODE. -/
def State.xcode (s : State) : Bool := s.full
/-- FLAGS.CODED on a part that codes (R6). -/
def State.codes (s : State) (c : Coll) : Bool := s.xcode && bitOf c.flags 0
/-- The STATUS word at the end of a collective (R263, R333). -/
def Coll.endWord (c : Coll) (xcode : Bool) (code : Nat) : Nat :=
  2 ^ 63 + (b2n (bitOf c.flags 0 && !xcode) <<< 62) + (if code = 0 then 0 else 2 ^ 61 + (code <<< 56)) + c.ovf
/-- Bytes enter or leave the egress queue toward a rank (R325). -/
def State.modEgress (s : State) (gid r : Nat) (f : Nat → Nat) : State :=
  s.modEx (fun x => { x with egress := put (65536 * gid + r) (f ((look (65536 * gid + r) x.egress).getD 0)) x.egress })
/-- The row requests of a rank are gone, and their bytes from the egress queues (R325). -/
def State.dropRows (s : State) (c : Coll) : State :=
  let mine := fun (r : RowReq) => r.num == c.num && r.rank == c.rank && r.data.isNone
  let s := (s.ex.rows.filter (fun r => mine r && !r.refused && !r.sent)).foldl
    (fun s r => s.modEgress c.gid r.dst (fun n => n - r.bytes)) s
  s.modEx (fun x => { x with rows := x.rows.filter (fun r => !mine r) })
/-- What a rank holds at the hub is released: side-store entries, and on an error also the packets under way to it with its
debt in the retransmit buffer, and its row requests (R315, R322, R325, R334). -/
def State.freeColl (s : State) (c : Coll) (all : Bool) : State :=
  let mine := fun (p : Packet) => p.num == c.num && p.rcv == c.rank
  let s := s.modEx (fun x => { x with side := x.side.filter (fun e => !(e.num == c.num && e.rank == c.rank)) })
  if all then
    (s.dropRows c).modEx (fun x =>
      let gone := (x.dec.filter (fun p => mine p && p.chub.isNone)).map (·.rtag)
        ++ (x.fall.filter (fun p => p.num == c.num && p.rcv == c.rank && p.chub.isNone)).map (·.tag)
      { x with
        dec := x.dec.filter (fun p => !mine p),
        fall := x.fall.filter (fun p => !(p.num == c.num && p.rcv == c.rank)),
        codeq := x.codeq.filter (fun p => !(mine p && p.coded.isNone)),
        retr := x.retr.filterMap (fun r =>
          if r.p.num == c.num && gone.contains r.tag then
            let o := r.owed.filter (fun k => k != c.rank)
            if o.isEmpty then none else some { r with owed := o }
          else some r) })
  else s
/-- A run whose ranks have all ended leaves the hub. -/
def State.sweep (s : State) (gid num : Nat) : State :=
  if s.collFull gid num && s.ex.colls.all (fun c => c.num != num || c.fin) then
    s.modEx (fun x => { x with colls := x.colls.filter (fun c => c.num != num), rows := x.rows.filter (fun r => r.num != num),
                               codeq := x.codeq.filter (fun p => p.num != num), blocks := x.blocks.filter (fun b => b.1 != num),
                               far := x.far.filter (fun r => r.num != num) })
  else s
/-- A collective ends on its rank: STATUS is written (R263, R333), and what it holds is released. A STATUS that cannot be
written is left. One whose block the hub could not read is gone. -/
def State.endColl (s : State) (c : Coll) (code : Nat) : State :=
  let s := match s.cWrite c (c.blk + 0x48) (leBytes 8 (c.endWord s.xcode code)) with
    | .ok t => t
    | .error _ => s
  if c.boot then s.modEx (fun x => { x with colls := dropFirst (fun k => k.boot && k.id == c.id) x.colls })
  else ((s.modColl c.num c.rank (fun k => { k with fin := true, code := code, wait := false })).freeColl c
    (code != 0)).sweep c.gid c.num
/-- The record of R446. -/
def Coll.record (c : Coll) (e : HubErr) : Record :=
  { code := 0x06, sub := e.sub, rpl := true, qf := false, fatal := false, hub := true, qpos := 0, ctx := c.ctx, epc := 0,
    seq := c.seq, cl := c.cl, core := c.core, hi := c.hi, d0 := word e.va, d1 := word c.id, d2 := 5, d3 := e.e }
/-- A fault of a collective's access: a TRANSLATION fault stops it there with a record; any other ends it with code 4
(R333, R446). The hub's TLB loses a leaf that denied the access (R396). -/
def State.hubFault (s : State) (e : HubErr) : State :=
  match s.coll e.num e.rank with
  | none => s
  | some c =>
    let s := (s.hubDrop c.ctx e.va .rd).hubDrop c.ctx e.va .wr
    if e.code = 0x06 then
      (s.modColl c.num c.rank (fun k => { k with wait := true })).modHub (fun h => { h with hubPend := h.hubPend ++ [c.record e] })
    else s.endColl c 4
/-- A step of a collective taken, or its fault. -/
def State.hubTry (s : State) (m : HubM State) : State := match m with | .ok t => t | .error e => s.hubFault e

/-! ## The parameter block (R263, R313, R331, R332) -/

/-- Whether an algorithm supports an OPC (R331). -/
def algSupports (alg opc : Nat) : Bool :=
  match alg with
  | 0 => true
  | 1 => decide (opc ≤ 2)
  | 2 => opc == 0 || opc == 4 || opc == 5
  | _ => decide (alg = 3)
/-- The collective that a block describes, or none for a malformed block; `size` is the group's, when the own rank lies in
it. -/
def State.parseColl (s : State) (size : Option Nat) (bs : List Byte) : Option Coll :=
  let f := leField bs
  let opc := f 0 1
  let dt := f 1 1
  let red := f 2 1
  let fl := f 3 1
  let count := f 0x18 8
  let chunk := f 0x20 4
  let root := f 0x24 4
  let alg := f 0x50 1
  let slot := f 0x51 1
  let coded := bitOf fl 0
  let expert := bitOf fl 1
  let alone := alg == 4 && (look slot s.bt.hzslots).elim false (fun image => Config.fwSupports image opc)
  if decide (opc ≤ 7) && (decide (dt ≤ 5) || dt == 9) && decide (red ≤ 7) && decide (fl < 4) && (expert == decide (6 ≤ opc))
      && ((red == 0) == (opc == 2 || opc == 3 || opc == 4 || decide (6 ≤ opc))) && (dt != 9 || red == 0 || red == 7)
      && decide (1 ≤ count) && decide (count ≤ 2 ^ 40) && decide (1 ≤ chunk) && decide (chunk ≤ 2 ^ 31)
      && (if opc = 4 ∨ opc = 5 then size.elim true (fun n => decide (root < n)) else root == 0) && f 0x28 8 % 8 == 0
      && (coded || f 0x30 8 == 0) && f 0x30 8 % 32 == 0 && (expert || (f 0x38 8 == 0 && f 0x40 8 == 0))
      && (algSupports alg opc || alone) && (alg == 4 || slot == 0) && f 0x52 46 == 0
      && (!coded || ((opc == 2 || opc == 3) && (alg == 0 || alg == 3) && decide (chunk * fmtBytes dt ≤ 2 ^ 28))) then
    some { num := 0, rank := f 6 2, id := 0, boot := false, gid := f 4 2, ctx := 0, cl := 0, core := 0, hi := false, seq := 0, blk := 0, opc := opc,
           dtype := dt, redop := red, flags := fl, src := f 8 8, dst := f 0x10 8, count := count, chunk := chunk, root := root,
           cntr := f 0x28 8, expt := f 0x38 8, ovfl := f 0x40 8, sched := f 0x50 2, done := 0, tag := 0, wait := false,
           at_ := 0, adv := [], advIn := false, sent := 0, got := [], tok := [], rows := [], ovf := 0, fin := false, code := 0,
           bad := false }
  else none
/-- Bytes of an element. -/
def Coll.es (c : Coll) : Nat := fmtBytes c.dtype
/-- Chunks of a block. -/
def Coll.chunks (c : Coll) : Nat := cdiv c.count c.chunk
/-- Elements of chunk k. -/
def Coll.chunkLen (c : Coll) (k : Nat) : Nat := min c.chunk (c.count - k * c.chunk)
/-- Segments of chunk k (R312). -/
def Coll.segs (c : Coll) (k : Nat) : Nat := cdiv (c.chunkLen k * c.es) 4096
/-- Bytes of a segment. -/
def Coll.segLen (c : Coll) (k g : Nat) : Nat := min 4096 (c.chunkLen k * c.es - 4096 * g)

/-! ## Side information (R314, R315) -/

/-- One entry of a side-information table: block, AWAITED, address. -/
structure SideRow where
  blk : BlockId
  awaited : Bool
  addr : Nat
  deriving DecidableEq, Repr
/-- Entry i of a table's bytes, or none for a malformed one. -/
def sideRow (c : Coll) (size : Option Nat) (bs : List Byte) (i : Nat) : Option SideRow :=
  let f := fun off n => leField bs (32 * i + off) n
  let k := f 8 4
  let g := f 12 2
  let sr := f 14 2
  let dr := f 16 2
  let st := f 18 1
  if decide (k < c.chunks) && decide (g < c.segs k) && size.elim true (fun n => decide (sr < n))
      && (if c.opc = 2 then dr == 0xFFFF else size.elim true (fun n => decide (dr < n))) && (st == 1 || st == 2)
      && (st == 1 || (f 0 8 == 0 && sr != c.rank && (c.opc == 2 || dr == c.rank))) && f 19 13 == 0 then
    some ⟨⟨sr, dr, k, g⟩, st == 2, f 0 8⟩
  else none
/-- Entries of n rows, or none when one is malformed or a block is named twice. -/
def sideRows (c : Coll) (size : Option Nat) (bs : List Byte) : Nat → Option (List SideRow)
  | 0 => some []
  | n + 1 =>
    match sideRows c size bs n, sideRow c size bs n with
    | some l, some r => if l.any (fun x => x.blk == r.blk) then none else some (l ++ [r])
    | _, _ => none
/-- Room for one entry: the least recently used entry is evicted, one of another collective first (R315). -/
def State.sideRoom (s : State) (num : Nat) : State :=
  if s.ex.side.length < 2048 then s
  else
    let other := s.ex.side.any (fun e => e.num != num)
    (s.modEx (fun x => { x with side := dropFirst (fun e => !other || e.num != num) x.side })).exCount 4
/-- The table's blocks are placed in the side store. -/
def State.loadSide (s : State) (c : Coll) : List SideRow → State → HubM State
  | [], t => .ok t
  | r :: l, t => do
    let (d, t) ← if r.awaited then pure (none, t)
      else (t.cRead c r.addr (c.segLen r.blk.chunk r.blk.seg)).map (fun q => (some q.1, q.2))
    let t := t.sideRoom c.num
    State.loadSide s c l (t.modEx (fun x => { x with side := x.side ++ [⟨c.num, c.rank, r.blk, d⟩] }))

/-! ## COLL, CCWAIT, CCREAD (R264) -/

/-- The run that a COLL joins: the lowest-numbered one of its group that lacks its rank. -/
def State.openRun (s : State) (gid rank : Nat) : Option Nat :=
  firstSat (fun n => (s.coll n rank).isNone) ((s.ex.colls.filter (fun c => c.gid == gid && !c.boot)).map (·.num))
/-- What ranks must agree on (R333). -/
def Coll.terms (c : Coll) : List Nat := [c.opc, c.dtype, c.redop, c.count, c.chunk, c.flags, c.sched]
/-- Every member of a run ends with a code. -/
def State.endRun (s : State) (num code : Nat) : State :=
  (s.ex.colls.filter (fun c => c.num == num && !c.fin && !c.boot)).foldl (fun s c => s.endColl c code) s
/-- The terms of a run compared, once every rank of this package has joined it, with those of the ranks on other packages that
have: another rank's malformed side table ends it with code 5, a disagreement with code 2 (R333). -/
def State.agree (s : State) (gid num : Nat) : State :=
  let l := s.ex.colls.filter (fun k => k.num == num && !k.boot)
  let o := s.ex.far.filter (fun x => x.gid == gid && x.num == num)
  let terms := l.map Coll.terms ++ o.filterMap (·.terms)
  if !s.collFull gid num then s
  else if l.any (·.bad) || o.any (·.bad) then s.endRun num 5
  else if terms.any (fun x => terms.any (fun y => x != y)) then s.endRun num 2
  else s
/-- A rank joins a run, and tells the other hubs of its group. Once every rank of this package has, the run's terms are
compared (R333). -/
def State.joinColl (s : State) (c : Coll) : State :=
  let s := (s.modEx (fun x => { x with colls := x.colls ++ [c] })).toGroup c.gid (.joined c.gid c.num c.rank c.terms c.bad)
  if s.collFull c.gid c.num then
    (s.modEx (fun x => { x with
      colls := x.colls.map (fun k => if k.num = c.num then { k with at_ := s.time } else k) })).agree c.gid c.num
  else s
/-- A staged image replaces its slot's when no running collective names the slot (R437). -/
def State.hzReplace (s : State) : State :=
  let used := fun (slot : Nat) => s.ex.colls.any (fun c => !c.fin && c.sched % 256 == 4 && c.sched / 256 == slot)
  let now := s.bt.staged.filter (fun p => !used p.1)
  let left := s.bt.staged.filter (fun p => used p.1)
  if now.isEmpty then s
  else { s with bt := { s.bt with hzslots := now.foldl (fun l p => put p.1 p.2 l) s.bt.hzslots, staged := left,
                                  hzstat := setFld s.bt.hzstat 63 1 (b2n (!left.isEmpty)) } }
/-- A hub collective number is taken. -/
def State.nextNum (s : State) (num : Nat) : State := s.modEx (fun x => { x with num := (num + 1) % 2 ^ 32 })
/-- How the start of a collective goes. -/
inductive Begun where
  /-- it runs, or has ended at once -/
  | started (num : Nat) (s : State)
  /-- the block or its side table is malformed: nothing starts -/
  | malformed (s : State)
  /-- an access faults -/
  | fault (e : HubErr) (s : State)
  deriving Repr
/-- The side-information table of a block: its rows, or none for a malformed one (R314). -/
def State.readSideTable (s : State) (c : Coll) (size : Option Nat) (side : Nat) : HubM (Option (List SideRow) × State) :=
  if !bitOf c.flags 0 then .ok (some [], s)
  else do
    let (h, s) ← s.cRead c side 32
    let k := leField h 0 4
    if k ≤ 65536 ∧ leField h 4 28 = 0 then
      let (t, s) ← s.cRead c (side + 32) (32 * k)
      pure (sideRows c size t k, s)
    else pure (none, s)
/-- The advertisement of a rank: the blocks of its table that the side store holds or awaits for it after the load, which also
go to the other hubs of the group (R315). -/
def State.advertise (s : State) (c : Coll) (rows : List SideRow) : List BlockId × State :=
  let l := (rows.map (·.blk)).filter (fun b => s.ex.side.any (fun e => e.num == c.num && e.rank == c.rank && e.blk == b))
  (l, s.toGroup c.gid (.advert c.gid c.num c.rank l))
/-- The hub reads and checks the block and its side-information table, clears STATUS and counter, loads the table and starts the
collective (R264, R265, R314, R315). `c0` holds the issuer, the block's address and the number a fresh run takes; `late` says that
the issuer has that number already. -/
def State.beginColl (s0 : State) (c0 : Coll) (late : Bool) : Begun :=
  match s0.cRead c0 c0.blk 128 with
  | .error e => .fault e s0
  | .ok (bs, s) =>
    let n := (s.ranks (leField bs 4 2)).length
    let size := if leField bs 6 2 < n then some n else none
    match s.parseColl size bs with
    | none => .malformed s
    | some p =>
      let run := if size.isSome then s.openRun p.gid p.rank else none
      let num := run.getD c0.num
      let take := fun (s : State) => if run.isNone && !late then s.nextNum c0.num else s
      let c := { p with num := num, id := if late then c0.id else num, ctx := c0.ctx, cl := c0.cl, core := c0.core, hi := c0.hi, seq := c0.seq,
                        blk := c0.blk, tag := c0.tag, at_ := s.time }
      let fault := fun (e : HubErr) (s : State) => Begun.fault { e with num := c0.num, rank := c0.rank } s
      match s.readSideTable c size (leField bs 0x30 8) with
      | .error e => fault e s0
      | .ok (none, s) => .malformed (if size.isSome then (take s).joinColl { c with bad := true, fin := true } else s)
      | .ok (some rows, s) =>
        match s.cWrite c (c.blk + 0x48) (leBytes 8 0) with
        | .error e => fault e s0
        | .ok s1 =>
          let codes := s1.codes c && size.isSome
          match (do
            let s ← s1.cWrite c c.cntr (leBytes 8 0)
            if codes then s.loadSide c rows s else pure s) with
          | .error e => fault e s1
          | .ok s =>
            let s := take (if bitOf c.flags 0 && !s.xcode && run.isNone then s.exCount 5 else s)
            if size.isNone then .started num (s.endColl { c with boot := true } 1)
            else
              let (adv, s) := if codes then s.advertise c rows else ([], s)
              .started num (s.joinColl { c with adv := adv })
/-- COLL after its phase boundary (R264): a staged firmware image comes first (R437); the number is the run's. A fault of the hub
at the block or a table is the collective's: the issuing thread runs on (R333, R446). -/
def collStart (o : OpA2) (a : Nat) (s : State) : M State :=
  let s := s.hzReplace
  let num := s.ex.num
  let c0 : Coll := {
    num := num, rank := 0, id := num, boot := true, gid := 0, ctx := fld s.core.ctxid 0 16, cl := s.cl, core := s.co, hi := s.hi,
    seq := s.slot.th.seq, blk := a, opc := 0, dtype := 0, redop := 0, flags := 0, src := 0, dst := 0, count := 1, chunk := 1,
    root := 0, cntr := 0, expt := 0, ovfl := 0, sched := 0, done := 0, tag := s.xl.age, wait := false, at_ := s.time,
    adv := [], advIn := false, sent := 0, got := [], tok := [], rows := [], ovf := 0, fin := false, code := 0, bad := false }
  match s.beginColl c0 false with
  | .malformed t => .error (.trap (Trap.opnd 0x08) t)
  | .started n t => .ok (t.setG o.d (word n))
  | .fault e t =>
    .ok ((((t.nextNum num).modEx (fun x => { x with colls := x.colls ++ [c0] })).hubFault e).setG o.d (word num))
/-- A collective whose block or tables waited on a record begins anew (R446): it joins its run, or is gone when its block is
malformed. -/
def State.resumeBegin (s : State) (c0 : Coll) : State :=
  let back := fun (t : State) => t.modEx (fun x => { x with colls := x.colls ++ [c0] })
  let t := s.modEx (fun x => { x with colls := dropFirst (fun k => k.boot && k.id == c0.id) x.colls })
  match t.beginColl c0 true with
  | .malformed t | .started _ t => t
  | .fault e t => (back t).hubFault e
/-- COLL (R264). -/
def execColl (o : OpA2) (s : State) : Host.Outcome State Fault Refusal :=
  let a := s.g o.a
  commit s (fun s => do
    need (s.g o.b == 0) (Trap.opnd 0x04) s
    need (decide (a.toNat < 2 ^ 54)) { Trap.perm 0x01 with d0 := a } s
    need (a.toNat % 128 == 0) (Trap.align 0x02) s
    let s ← phaseAct 4 s
    collStart o a.toNat s)
/-- The checks of CCWAIT and CCREAD at commit. -/
def blockCheck (a : Word) (s : State) : M Unit := do
  need (decide (a.toNat < 2 ^ 54)) { Trap.perm 0x01 with d0 := a } s
  need (a.toNat % 128 == 0) (Trap.align 0x02) s
/-- CCWAIT (R264, R265). -/
def execCcwait (o : OpA2) (s : State) : Host.Outcome State Fault Refusal :=
  let a := s.g o.a
  let n := (s.g o.b).toNat
  commit s (fun s => do
    blockCheck a s
    let (bs, t) ← s.acquire.readDev 3 a.toNat 128
    let (c, t) ← t.readDev 3 (leField bs 0x28 8) 8
    if n ≤ leNat c || bitOf (leField bs 0x48 8) 63 then pure (t.acquire.setG o.d (word (leNat c)))
    else .error (.stall t))
/-- CCREAD (R264). -/
def execCcread (o : OpA2) (s : State) : Host.Outcome State Fault Refusal :=
  let a := s.g o.a
  commit s (fun s => do
    blockCheck a s
    let (x, t) ← s.acquire.readDev 3 (a.toNat + 0x48) 8
    pure (t.setG o.d (word (leNat x))))

/-! ## Chunks (R265, R332, R333, R447) -/

/-- One step of a reduction on containers of w bits (R332). -/
def redStep (dt red w a b : Nat) : Nat :=
  let f := fmtOf dt
  match red with
  | 1 => (faddR f 0 (fval f a) (fval f b)).1
  | 2 => (fpick true f a b).1
  | 3 => (fpick false f a b).1
  | 4 => (a + b) % 2 ^ w
  | 5 => if sgn w a < sgn w b then b else a
  | 6 => if sgn w b < sgn w a then b else a
  | _ => a ^^^ b
/-- Two lists of elements of es bytes combined. -/
def redBytes (dt red es : Nat) : Nat → List Byte → List Byte → List Byte
  | 0, _, _ => []
  | n + 1, x, y =>
    leBytes es (redStep dt red (8 * es) (leNat (x.take es)) (leNat (y.take es))) ++ redBytes dt red es n (x.drop es) (y.drop es)
/-- The left fold over the ranks' elements (R332). -/
def redFold (dt red es n : Nat) : List (List Byte) → List Byte
  | [] => []
  | x :: l => l.foldl (redBytes dt red es n) x
/-- Whether rank r needs the traffic of rank q (R333, R447). -/
def Coll.needs (c : Coll) (q : Nat) : Bool :=
  q != c.rank && (match c.opc with
    | 4 => q == c.root
    | 5 => c.rank == c.root
    | _ => true)
/-- The destination rank in a block's name, for a receiver (R312). -/
def Coll.drank (c : Coll) (q : Nat) : Nat := if c.opc = 2 then 0xFFFF else q
/-- A chunk of block b of rank q's SRC, as rank q's hub sends it; none while it is not there. -/
def State.srcChunk (s : State) (c : Coll) (q b k : Nat) : HubM (Option (List Byte) × State) :=
  let n := c.chunkLen k * c.es
  if s.rankHere c.gid q then
    match s.coll c.num q with
    | none => .ok (none, s)
    | some x =>
      if (x.fin || x.wait) && q != c.rank then .ok (none, s)
      else (s.cRead x (x.src + (b * c.count + k * c.chunk) * c.es) n).map (fun r => (some r.1, r.2))
  else
    let parts := (List.range (c.segs k)).map (fun g =>
      (firstSat (fun i => i.1 == c.num && i.2.1 == c.rank && i.2.2.1 == ⟨q, c.drank c.rank, k, g⟩) s.ex.blocks).map (·.2.2.2))
    .ok (if parts.all (·.isSome) then (some ((parts.filterMap id).flatMap id), s) else (none, s))
/-- The chunks of block b of several ranks, or none while one is missing. -/
def State.srcChunks (s : State) (c : Coll) (b k : Nat) : List Nat → HubM (Option (List (List Byte)) × State)
  | [] => .ok (some [], s)
  | q :: l => do
    let (x, s) ← s.srcChunk c q b k
    match x with
    | none => pure (none, s)
    | some x =>
      let (r, s) ← State.srcChunks s c b k l
      pure (r.map (fun r => x :: r), s)
/-- Where the blocks of a chunk go in DST: block number and bytes; none while traffic is missing. -/
def State.chunkPieces (s : State) (c : Coll) (k : Nat) : HubM (Option (List (Nat × List Byte)) × State) :=
  let n := (s.ranks c.gid).length
  let all := List.range n
  let fold := fun (r : Option (List (List Byte)) × State) =>
    (r.1.map (fun l => [(0, redFold c.dtype c.redop c.es (c.chunkLen k) l)]), r.2)
  let number := fun (l : List Nat) (r : Option (List (List Byte)) × State) => (r.1.map (fun x => l.zip x), r.2)
  let coded := s.codes c
  let own := fun b => (s.srcChunks c b k [c.rank]).map (number [c.rank])
  let full := (List.range (c.segs k)).all (fun g => all.all (fun q =>
    q == c.rank || c.got.contains ⟨q, c.drank c.rank, k, g⟩))
  match c.opc with
  | 0 => (s.srcChunks c 0 k all).map fold
  | 1 => (s.srcChunks c c.rank k all).map fold
  | 2 => if coded then (if full then own 0 else .ok (none, s)) else (s.srcChunks c 0 k all).map (number all)
  | 3 => if coded then (if full then own c.rank else .ok (none, s)) else (s.srcChunks c c.rank k all).map (number all)
  | 4 => (s.srcChunks c 0 k [c.root]).map (number [0])
  | _ =>
    if c.rank = c.root then (s.srcChunks c 0 k all).map fold
    else (s.srcChunks c 0 k [c.rank]).map (fun r => (r.1.map (fun _ => []), r.2))
/-- The pieces of a chunk written to DST. -/
def writePieces (c : Coll) (k : Nat) : List (Nat × List Byte) → State → HubM State
  | [], s => .ok s
  | (b, x) :: l, s => do
    let s ← s.cWrite c (c.dst + (b * c.count + k * c.chunk) * c.es) x
    writePieces c k l s
/-- Traffic of a run has moved: the ranks that still run wait anew (R333). -/
def State.traffic (s : State) (num : Nat) : State :=
  s.modEx (fun x => { x with colls := x.colls.map (fun c => if c.num = num && !c.fin then { c with at_ := s.time } else c) })
/-- The header flit and the payload of a block packet (R312, R317). -/
def Packet.bytes (p : Packet) : List Byte :=
  let b : BlockId := (p.coded.map (·.2.1)).getD ⟨0, 0, 0, 0⟩
  let n := (p.coded.map (·.2.2)).getD 0
  let pay := p.data ++ List.replicate ((64 - p.data.length % 64) % 64) 0
  let hub := if p.coded.isNone then 0 else p.chub.getD Config.fabricId.toNat
  let two := fun x y => leBytes 2 x ++ leBytes 2 y
  let four := fun x y => leBytes 4 x ++ leBytes 4 y
  leBytes 1 (if p.coded.isNone then 0x10 else 0x11) ++ leBytes 1 0 ++ leBytes 2 p.gid ++ leBytes 4 p.num
    ++ two p.rcv ((p.coded.map (·.1)).getD 0) ++ two p.blk.src b.src ++ two p.blk.dst b.dst ++ four p.blk.chunk b.chunk
    ++ two p.blk.seg b.seg ++ two p.len n ++ two hub (if p.coded.isNone then 0 else p.rtag) ++ leBytes 4 (crc32c pay)
    ++ leBytes 20 0 ++ pay
/-- A block packet from its bytes at a fabric port; none for a TYPE that is no block's and for a wrong CRC, which the link layer
retransmits (R317). -/
def Packet.parse (port : Nat) (bs : List Byte) : Option Packet :=
  let f := leField bs
  let coded := f 0 1 == 0x11
  let n := max (f 32 2) (f 34 2)
  let pay := bs.drop 64
  if (coded || f 0 1 == 0x10) && 1 ≤ f 32 2 && n ≤ 4096 && pay.length == 64 * cdiv n 64 && f 40 4 == crc32c pay then
    some { num := f 4 4, gid := f 2 2, rcv := f 8 2, blk := ⟨f 12 2, f 16 2, f 20 4, f 28 2⟩, data := pay.take n,
           coded := if coded then some (f 10 2, ⟨f 14 2, f 18 2, f 24 4, f 30 2⟩, f 34 2) else none, len := f 32 2,
           rtag := f 38 2, chub := if coded then some (f 36 2) else none, via := some port, parked := none }
  else none
/-- The block of rank c's SRC that rank q needs. -/
def Coll.blockFor (c : Coll) (q : Nat) : Nat := if c.opc = 1 ∨ c.opc = 3 then q else 0
/-- A chunk of an uncoded run sent to a rank on another package, segment by segment (R312). -/
def State.sendChunk (c : Coll) (k q port : Nat) : List Nat → State → HubM State
  | [], s => .ok s
  | g :: l, s => do
    let (x, s) ← s.cRead c (c.src + (c.blockFor q * c.count + k * c.chunk) * c.es + 4096 * g) (c.segLen k g)
    let p : Packet := { num := c.num, gid := c.gid, rcv := q, blk := ⟨c.rank, c.drank q, k, g⟩, data := x, coded := none,
                        len := x.length, rtag := 0, chub := none, via := none, parked := none }
    State.sendChunk c k q port l (s.toPort (.block p.bytes) port)
/-- Chunk k sent to each rank on another package that needs it. -/
def State.sendChunks (c : Coll) (k : Nat) : List Nat → State → HubM State
  | [], s => .ok (s.modColl c.num c.rank (fun c => { c with sent := k + 1 }))
  | q :: l, s => do
    let s ← match s.farPort c.gid q with
      | some p => if ({ c with rank := q } : Coll).needs c.rank then State.sendChunk c k q p (List.range (c.segs k)) s else pure s
      | none => pure s
    State.sendChunks c k l s
/-- The counter takes the count of one more chunk (R265, R333). A rank that has finished an expert form tells the other hubs
(R329). -/
def State.countChunk (s : State) (c : Coll) (k : Nat) : HubM State := do
  let s ← s.cWrite c c.cntr (leBytes 8 (k + 1))
  let s := (s.modColl c.num c.rank (fun c => { c with done := k + 1 })).traffic c.num
  pure (if 6 ≤ c.opc && k + 1 == c.chunks then s.toGroup c.gid (.done c.gid c.num c.rank) else s)
/-- Whether expert chunk k is complete: every own token of it is placed or overflowed, or its row has been written (R329). -/
def State.expertChunk (s : State) (c : Coll) (k : Nat) : HubM (Bool × State) :=
  let ts := (List.range (c.chunkLen k)).map (fun i => k * c.chunk + i)
  if c.opc = 6 then .ok (ts.all (fun t => c.tok.contains t), s)
  else do
    let (d, s) ← s.cRead c c.expt 64
    let (p, s) ← s.cRead c (leField d 24 8 + 8 * (k * c.chunk)) (8 * c.chunkLen k)
    pure (ts.all (fun t => c.tok.contains t || bitOf (leField p (8 * (t - k * c.chunk)) 8) 63), s)
/-- Whether a rank whose chunks are all counted may set DONE: no other rank of this package still reads its SRC, and for
expert forms every rank of the group has finished (R265, R329); `late` says that the time of R333 has passed. -/
def State.mayEnd (s : State) (c : Coll) (late : Bool) : Bool :=
  (c.opc < 6 && late) || (s.collFull c.gid c.num
    && s.ex.colls.all (fun x => x.num != c.num || x.fin || x.done == x.chunks)
    && (c.opc < 6 || (List.range (s.ranks c.gid).length).all (fun r =>
      (s.farPort c.gid r).isNone || (s.farRank c.gid c.num r).done)))
/-- A collective runs on to its next counted chunk, or sets DONE (R265, R329, R331 to R333). -/
def State.runColl (s : State) (c : Coll) : HubM State :=
  let late := decide (c.at_ + 2 ^ 24 ≤ s.time)
  let finish := fun (s : State) =>
    match s.coll c.num c.rank with
    | some c => if c.done = c.chunks && !c.fin && s.mayEnd c late then
        (do let s ← s.cWrite c (c.blk + 0x48) (leBytes 8 (c.endWord s.xcode 0)); pure (s.endColl c 0)) else .ok s
    | none => .ok s
  if c.fin || c.wait then .ok s
  else if c.boot then .ok (s.resumeBegin c)
  else if c.done = c.chunks then finish s
  else if !(s.collFull c.gid c.num || late) then .ok s
  else if c.sched % 256 = 4 && Config.fwFaults ((look (c.sched / 256) s.bt.hzslots).getD []) c.num c.done then .ok (s.endColl c 7)
  else if 6 ≤ c.opc then do
    let (ok, s) ← s.expertChunk c c.done
    if ok then do
      let s ← s.countChunk c c.done
      finish s
    else pure s
  else do
    let s ← if s.codes c || c.done < c.sent then pure s
      else State.sendChunks c c.done (List.range (s.ranks c.gid).length) s
    let (x, t) ← s.chunkPieces c c.done
    match x with
    | none => pure s
    | some l =>
      let t ← writePieces c c.done l t
      let t ← t.countChunk c c.done
      finish t
/-- Whether a fabric port of a group's route is down. -/
def State.routeDown (s : State) (gid : Nat) : Bool :=
  (s.ranks gid).any (fun r => match r with | .far p => !s.xl.up.getLsbD p | .here _ => false)
/-- HUB_TRANSLATION_FAULT (R446): an access of a collective at an address meets a TRANSLATION fault. -/
def execHubTranslationFault (num va : Nat) (s : State) : Host.Outcome State Fault Refusal :=
  .next (match s.coll (num % 2 ^ 32) (num / 2 ^ 32) with
    | some c =>
      if c.fin || c.wait || c.boot then s
      else match s.xlateHub c.ctx va .rd with
        | .error (0x06, sub, e) => s.hubFault ⟨c.num, c.rank, 0x06, sub, va, e⟩
        | _ => s
    | none => s)

/-! ## The coded exchange (R315 to R322) -/

/-- Packets that a rank sends in all. -/
def Coll.packets (c : Coll) (size : Nat) : Nat :=
  ((c.chunks - 1) * c.segs 0 + c.segs (c.chunks - 1)) * (size - 1)
/-- The n-th packet of a rank: chunk, segment, receiver. -/
def Coll.packetAt (c : Coll) (size n : Nat) : Nat × Nat × Nat :=
  let per := c.segs 0 * (size - 1)
  let k := min (n / per) (c.chunks - 1)
  let r := n - k * per
  let q := r % (size - 1)
  (k, r / (size - 1), if q < c.rank then q else q + 1)
/-- One more packet of a rank enters the coding queue. -/
def State.inject (s : State) (c : Coll) : HubM State :=
  let size := (s.ranks c.gid).length
  let p := c.packetAt size c.sent
  let blk : BlockId := ⟨c.rank, c.drank p.2.2, p.1, p.2.1⟩
  let b := if c.opc = 2 then 0 else p.2.2
  let n := c.segLen p.1 p.2.1
  do
    let (x, s) ← s.cRead c (c.src + (b * c.count + p.1 * c.chunk) * c.es + 4096 * p.2.1) n
    let s := s.modColl c.num c.rank (fun c => { c with sent := c.sent + 1 })
    pure (s.modEx (fun e => { e with codeq := e.codeq ++ [⟨c.num, c.gid, p.2.2, blk, x, none, n, 0, none, none, none⟩] }))
/-- The ranks whose packets are still to enter the coding queue, each one packet in turn. -/
def State.fillQueue : Nat → State → State
  | 0, s => s
  | f + 1, s =>
    let ready := s.ex.colls.filter (fun c => s.codes c && !c.fin && !c.wait && !c.boot && s.collFull c.gid c.num
      && decide (c.sent < c.packets (s.ranks c.gid).length))
    if ready.isEmpty || 64 ≤ s.ex.codeq.length then s
    else State.fillQueue f (ready.foldl (fun s c => if s.ex.codeq.length < 64 then s.hubTry (s.inject c) else s) s)
/-- A block is delivered to a receiver's DST, once; an AWAITED entry of it is filled (R315, R321). A rank that has ended takes
no more. -/
def State.deliver (s : State) (num rcv : Nat) (blk : BlockId) (x : List Byte) : HubM State :=
  match s.coll num rcv with
  | none => .ok s
  | some c =>
    if c.fin || c.got.contains blk then .ok s
    else do
      let s ← s.cWrite c (c.dst + (blk.src * c.count + blk.chunk * c.chunk) * c.es + 4096 * blk.seg) x
      let s := s.modColl num rcv (fun c => { c with got := c.got ++ [blk] })
      pure ((s.modEx (fun e => { e with side := e.side.map (fun i =>
        if i.num = num ∧ i.rank = rcv ∧ i.blk = blk ∧ i.data = none then { i with data := some x } else i) })).traffic num)
/-- Whether a receiver waits on a record of R446, so that a delivery to it waits too. -/
def State.rcvWaits (s : State) (num rcv : Nat) : Bool := (s.coll num rcv).elim false (fun c => c.wait)
/-- Bytes that the retransmit buffer holds (R318). -/
def HubExch.retrBytes (x : HubExch) : Nat :=
  x.retr.foldl (fun n r => n + 128 + 64 * cdiv r.p.len 64 + 64 * cdiv r.q.len 64) 0
/-- Whether rank r's advertisement has arrived and lists a block. -/
def State.advertises (s : State) (p : Packet) (r : Nat) (b : BlockId) : Bool :=
  (s.coll p.num r).elim false (fun c => c.advIn && c.adv.contains b)
    || ((s.farRank p.gid p.num r).adv.getD []).contains b
/-- The partner of the packet at the front (R316). -/
def State.partner (s : State) (p : Packet) : List Packet → Option Packet :=
  firstSat (fun q => q.coded.isNone && q.num == p.num && q.gid == p.gid && q.rcv != p.rcv && s.advertises p p.rcv q.blk
    && s.advertises p q.rcv p.blk
    && decide (s.ex.retrBytes + 128 + 64 * cdiv p.len 64 + 64 * cdiv q.len 64 ≤ 2 ^ 22))
/-- The exclusive or of two payloads, the shorter padded with zeros. -/
def xorBytes : List Byte → List Byte → List Byte
  | [], y => y
  | x, [] => x
  | a :: x, b :: y => (a ^^^ b) :: xorBytes x y
/-- The second half of a coded packet as a packet for its receiver. -/
def Packet.swap (p : Packet) : Packet :=
  match p.coded with
  | some (r, b, n) => { p with rcv := r, blk := b, len := n, coded := some (p.rcv, p.blk, p.len) }
  | none => p
/-- A coded packet leaves the coding stage: a copy for each of its receivers of this package, and one for each port toward those on
others (R316). -/
def State.sendCoded (s : State) (p : Packet) : State :=
  let two := [p, p.swap]
  let ports := (List.range 16).filter (fun i => two.any (fun h => s.farPort h.gid h.rcv == some i) && p.via != some i)
  ports.foldl (fun s i => s.toPort (.block p.bytes) i)
    (s.modEx (fun e => { e with dec := e.dec ++ two.filter (fun h => s.rankHere h.gid h.rcv) }))
/-- An original that came for a fallback of this package has been delivered: its acknowledgement leaves (R320). -/
def State.ackLate (s : State) (num rcv : Nat) (b : BlockId) : State :=
  let mine := fun (f : Fall) => f.num == num && f.rcv == rcv && f.blk == b && f.chub.isSome
  match firstSat mine s.ex.fall with
  | some ⟨tag, _, _, _, some hub, _⟩ =>
    (s.modEx (fun e => { e with fall := dropFirst mine e.fall })).toPort (.ack hub tag rcv) (Config.fabricPort hub).toNat
  | _ => s
/-- CODING_QUEUE_HEAD (R6, R316 to R318): the packet at the front leaves, coded with a partner or alone. -/
def State.codeHead (s0 : State) : State :=
  let s := State.fillQueue 64 s0
  match s.ex.codeq with
  | [] => s
  | p :: rest =>
    let t := s.modEx (fun e => { e with codeq := rest })
    if p.coded.isSome then t.sendCoded p
    else match s.partner p (rest.take 15) with
    | some q =>
      let tag := s.ex.tag
      let c := { p with data := xorBytes p.data q.data, coded := some (q.rcv, q.blk, q.len), rtag := tag, via := none }
      ((s.modEx (fun e => { e with
        codeq := dropFirst (fun y => y == q) rest, tag := (tag + 1) % 65536,
        retr := e.retr ++ [⟨tag, p, q, [p.rcv, q.rcv]⟩] })).sendCoded c).exCount 0
    | none =>
      match s.farPort p.gid p.rcv with
      | some port => t.toPort (.block p.bytes) port
      | none =>
        if s.rcvWaits p.num p.rcv then s
        else s.hubTry (do
          let s ← s.deliver p.num p.rcv p.blk p.data
          pure ((s.modEx (fun e => { e with codeq := rest })).ackLate p.num p.rcv p.blk))

/-! ## What comes from other packages (R312, R315, R319, R320, R333) -/

/-- Whether a run lies behind this hub: its number has been taken and it is gone. -/
def State.runGone (s : State) (num : Nat) : Bool :=
  let d := (s.ex.num + 2 ^ 32 - num % 2 ^ 32) % 2 ^ 32
  s.ex.colls.all (fun c => c.num != num) && decide (1 ≤ d) && decide (d < 2 ^ 31)
/-- What a block packet of another package meets: it enters the coding queue, or the blocks of an uncoded run; none while it has to
wait at the port. -/
def State.takeBlock (s : State) (p : Packet) : Option State :=
  let enter := if s.ex.codeq.length < 64 then some (s.modEx (fun e => { e with codeq := e.codeq ++ [p] })) else none
  if !(s.rankHere p.gid p.rcv || s.rankHere p.gid p.swap.rcv) then (if (s.farPort p.gid p.rcv).isSome then enter else some s)
  else if s.runGone p.num then some s
  else if !s.collFull p.gid p.num then none
  else if s.ex.colls.any (fun c => c.num == p.num && s.codes c) then enter
  else some ((s.modEx (fun e => { e with blocks := (p.num, p.rcv, p.blk, p.data.take p.len) :: e.blocks })).traffic p.num)
/-- A message for another hub goes on toward it, one for this hub is taken. -/
def State.toHub (s : State) (hub : Nat) (m : Poest) (mine : State) : State :=
  if hub = Config.fabricId.toNat then mine else s.toPort m (Config.fabricPort hub).toNat
/-- A packet at a fabric port is taken by the exchange, but for those of the expert forms and for advertisements; none while it has
to wait. -/
def State.takeMsg (s : State) (port : Nat) (m : Poest) : Option State :=
  match m with
  | .block bs =>
    match Packet.parse port bs with
    | some p => s.takeBlock p
    | none => some s
  | .joined gid num r terms bad =>
    if s.runGone num then some s
    else some ((s.modFar gid num r (fun x => { x with terms := some terms, bad := bad })).agree gid num)
  | .done gid num r => some (if s.runGone num then s else s.modFar gid num r (fun x => { x with done := true }))
  | .ack hub tag rcv => some (s.toHub hub m (s.modEx (fun e => { e with acks := e.acks ++ [(tag, rcv)] })))
  | .fallback hub tag rcv =>
    some (s.toHub hub m (s.modEx (fun e => { e with fall := e.fall ++ [⟨tag, rcv, 0, ⟨0, 0, 0, 0⟩, none, some port⟩] })))
  | _ => none
/-- The packets at the fabric ports taken in the order of their arrival, as far as there is room. -/
def State.fabricIn (s : State) : State :=
  s.ex.inbox.foldl (fun s m => (s.takeMsg m.1 m.2).getD (s.modEx (fun e => { e with inbox := e.inbox ++ [m] })))
    (s.modEx (fun e => { e with inbox := [] }))
/-- COLL_CHUNK_COMPLETE (R333): the next destination chunk of a rank is visible and the counter is written; DONE after the
last. -/
def execCollChunkComplete (num : Nat) (s : State) : Host.Outcome State Fault Refusal :=
  let s := s.fabricIn
  .next (match s.coll (num % 2 ^ 32) (num / 2 ^ 32) with
    | some c => s.hubTry (s.runColl c)
    | none => s)
/-- COLL_TRAFFIC_TIMEOUT (R333): traffic that a rank needs has not arrived within 2^24 cycles, or a port of the route is
down; a rank that needs no traffic goes on. -/
def execCollTrafficTimeout (num : Nat) (s : State) : Host.Outcome State Fault Refusal :=
  .next (match s.coll (num % 2 ^ 32) (num / 2 ^ 32) with
    | some c =>
      let late := decide (c.at_ + 2 ^ 24 ≤ s.time)
      let needs := (c.done != c.chunks || 6 ≤ c.opc) && (List.range (s.ranks c.gid).length).any c.needs
      if c.fin || c.wait || c.boot then s
      else if s.routeDown c.gid || (late && needs) then s.endColl c 3
      else if late then s.hubTry (s.runColl c)
      else s
    | none => s)
/-- ADVERTISEMENT_ARRIVE (R315): the advertisement of a rank, of this package or waiting at a fabric port, reaches this hub. -/
def execAdvertisementArrive (num : Nat) (s : State) : Host.Outcome State Fault Refusal :=
  let r := num / 2 ^ 32
  let mine := fun (m : Nat × Poest) => match m.2 with
    | .advert gid n k _ => n == num % 2 ^ 32 && k == r && (s.farPort gid k).isSome
    | _ => false
  .next (match firstSat mine s.ex.inbox with
    | some (_, .advert gid n k l) =>
      (s.modEx (fun e => { e with inbox := dropFirst mine e.inbox })).modFar gid n k (fun x => { x with adv := some l })
    | _ => s.modColl (num % 2 ^ 32) r (fun c => { c with advIn := true }))
/-- CODING_QUEUE_HEAD (R316). -/
def execCodingQueueHead (s : State) : Host.Outcome State Fault Refusal := .next s.fabricIn.codeHead

/-- The side-store entry of a block for a rank. -/
def State.sideOf (s : State) (num rank : Nat) (b : BlockId) : Option SideEnt :=
  firstSat (fun e => e.num == num && e.rank == rank && e.blk == b) s.ex.side
/-- The other half of a coded packet. -/
def Packet.other (p : Packet) : BlockId := (p.coded.map (·.2.1)).getD p.blk
/-- An entry of the decode list is gone. -/
def State.dropDec (s : State) (i : Nat) : State := s.modEx (fun e => { e with dec := e.dec.take i ++ e.dec.drop (i + 1) })
/-- SIDE_MISS (R320): the copy is discarded and a fallback is asked for, at the hub that coded the packet. -/
def State.sideMiss (s : State) (i : Nat) (p : Packet) (timeout : Bool) : State :=
  let s := ((s.dropDec i).modEx (fun e => { e with fall := e.fall ++ [⟨p.rtag, p.rcv, p.num, p.blk, p.chub, none⟩] })).exCount 1
  let s := if timeout then s.exCount 2 else s
  match p.chub with
  | some hub => s.toPort (.fallback hub p.rtag p.rcv) (Config.fabricPort hub).toNat
  | none => s
/-- The acknowledgement of a coded packet, to the hub that coded it (R319). -/
def State.ackTo (s : State) (p : Packet) : State :=
  match p.chub with
  | some hub => s.toPort (.ack hub p.rtag p.rcv) (Config.fabricPort hub).toNat
  | none => s.modEx (fun e => { e with acks := e.acks ++ [(p.rtag, p.rcv)] })
/-- The own half of entry i decoded with the other block, delivered and acknowledged (R319). -/
def State.decodeWith (s : State) (i : Nat) (p : Packet) (x : List Byte) : State :=
  s.hubTry (do
    let s ← s.deliver p.num p.rcv p.blk ((xorBytes p.data x).take p.len)
    let used := fun (e : SideEnt) => e.num == p.num && e.rank == p.rcv && e.blk == p.other
    pure (((s.dropDec i).modEx (fun e => { e with
      side := e.side.filter (fun k => !used k) ++ e.side.filter used })).ackTo p))
/-- CODED_PACKET_DECODE (R319): entry i of the coded packets at their receivers is decoded, parked or missed. -/
def State.decode1 (s : State) (i : Nat) : State :=
  match s.ex.dec[i]? with
  | none => s
  | some p =>
    if s.rcvWaits p.num p.rcv then s
    else match s.sideOf p.num p.rcv p.other with
      | some ⟨_, _, _, some x⟩ => s.decodeWith i p x
      | some ⟨_, _, _, none⟩ =>
        if p.parked.isSome then s
        else if (s.ex.dec.filter (fun q => q.parked.isSome)).length < 256 then
          s.modEx (fun e => { e with dec := setNth { p with parked := some s.time } e.dec i })
        else s.sideMiss i p false
      | none => s.sideMiss i p false
/-- CODED_PACKET_DECODE (R319). -/
def execCodedPacketDecode (index : Nat) (s : State) : Host.Outcome State Fault Refusal := .next (s.decode1 index)
/-- AWAITED_BLOCK_FILL (R319): a parked packet whose block has been filled is decoded. -/
def execAwaitedBlockFill (index : Nat) (s : State) : Host.Outcome State Fault Refusal :=
  .next (match s.ex.dec[index]? with
    | some p => if p.parked.isSome then s.decode1 index else s
    | none => s)
/-- DECODE_TIMEOUT (R319, R322): parked for 2^20 cycles and not filled. -/
def execDecodeTimeout (index : Nat) (s : State) : Host.Outcome State Fault Refusal :=
  .next (match s.ex.dec[index]? with
    | some p =>
      match p.parked with
      | some t =>
        if s.time < t + 2 ^ 20 || s.rcvWaits p.num p.rcv then s
        else if ((s.sideOf p.num p.rcv p.other).bind (·.data)).isSome then s.decode1 index
        else s.sideMiss index p true
      | none => s
    | none => s)
/-- The original that a fallback request names: from the retransmit buffer; one lost from it (R423) is read anew from its rank's SRC
(assumption 81). -/
def State.original (s : State) (f : Fall) : HubM (Option Packet × State) :=
  match firstSat (fun r => r.tag == f.tag && r.owed.contains f.rcv) s.ex.retr with
  | some r => .ok (some (if r.p.rcv = f.rcv then r.p else r.q), s)
  | none =>
    match s.coll f.num f.blk.src with
    | some c =>
      let n := c.segLen f.blk.chunk f.blk.seg
      let b := if c.opc = 2 then 0 else f.rcv
      (s.cRead c (c.src + (b * c.count + f.blk.chunk * c.chunk) * c.es + 4096 * f.blk.seg) n).map
        (fun r => (some ⟨c.num, c.gid, f.rcv, f.blk, r.1, none, n, 0, none, none, none⟩, r.2))
    | none => .ok (none, s)
/-- FALLBACK_REQUEST (R320): the coding hub sends the original of the receiver's own part, past the coding stage. A receiver of this
package acknowledges once it is delivered. -/
def execFallbackRequest (index : Nat) (s : State) : Host.Outcome State Fault Refusal :=
  let s := s.fabricIn
  let done := fun (s : State) => s.modEx (fun e => { e with fall := e.fall.take index ++ e.fall.drop (index + 1) })
  .next (match s.ex.fall[index]? with
    | some f =>
      if f.chub.isSome then s
      else s.hubTry (do
        let (p, t) ← s.original f
        match p with
        | none => pure (done s)
        | some p =>
          match s.farPort p.gid p.rcv with
          | some port => pure (((done t).toPort (.block p.bytes) port).exCount 3)
          | none =>
            if s.rcvWaits p.num f.rcv then pure s
            else
              let t ← t.deliver p.num f.rcv p.blk p.data
              pure (((done t).modEx (fun e => { e with acks := e.acks ++ [(f.tag, f.rcv)] })).exCount 3))
    | none => s)
/-- CODED_ACK (R318): an acknowledgement arrives; the second one releases the originals. -/
def execCodedAck (index : Nat) (s : State) : Host.Outcome State Fault Refusal :=
  let s := s.fabricIn
  .next (match s.ex.acks[index]? with
    | some (tag, rcv) =>
      s.modEx (fun e => { e with
        acks := e.acks.take index ++ e.acks.drop (index + 1),
        retr := e.retr.filterMap (fun r =>
          if r.tag = tag then
            let o := r.owed.filter (fun k => k != rcv)
            if o.isEmpty then none else some { r with owed := o }
          else some r) })
    | none => s)
/-- The collectives of a context are killed (R334): code 8, and what they hold is released. -/
def State.killColls (s : State) (ctx : Nat) : State :=
  (s.ex.colls.filter (fun c => c.ctx == ctx && !c.fin)).foldl (fun s c => s.endColl c 8) s

end Sys2Proof.Machine
end

