-- ==== Sys2Proof/Machine/Experts.lean ====
section
/-! DEFINITION. Expert dispatch and combine (R324 to R329): the descriptor, the choice of a replica, the arbiter of a hosting
rank, overflow, and returned rows. -/

namespace Sys2Proof.Machine

/-- An expert descriptor (R324). -/
structure ExpDesc where
  nexp : Nat
  rowb : Nat
  ids : Nat
  repl : Nat
  place : Nat
  host : Nat
  nhost : Nat
  tags : Nat
  deriving DecidableEq, Repr
/-- A descriptor from its bytes, or none for a malformed one. -/
def parseExp (bs : List Byte) : Option ExpDesc :=
  let f := leField bs
  if 1 ≤ f 0 4 && f 0 4 ≤ 65536 && f 4 4 % 64 == 0 && 64 ≤ f 4 4 && f 4 4 ≤ 65536 && f 40 4 ≤ 65536 && f 44 4 == 0 && f 56 8 == 0
  then some ⟨f 0 4, f 4 4, f 8 8, f 16 8, f 24 8, f 32 8, f 40 4, f 48 8⟩
  else none
/-- The non-empty entries of expert e in a replica table: index and rank. -/
def replRow (bs : List Byte) (e : Nat) : List (Nat × Nat) :=
  ((List.range 8).map (fun i => (i, leField bs (16 * e + 2 * i) 2))).filter (fun p => p.2 != 0xFFFF)
/-- A rank's descriptor as it stands; none for a malformed one, one whose replica table has an expert without a replica or names
a rank outside the group among them (R324). -/
def State.expDesc (s : State) (c : Coll) : HubM (Option ExpDesc × State) :=
  if c.expt % 64 ≠ 0 then .ok (none, s)
  else do
    let (bs, s) ← s.cRead c c.expt 64
    match parseExp bs with
    | none => pure (none, s)
    | some d =>
      let (t, s) ← s.cRead c d.repl (16 * d.nexp)
      let ok := fun (l : List (Nat × Nat)) => !l.isEmpty && l.all (fun p => decide (p.2 < (s.ranks c.gid).length))
      pure (if (List.range d.nexp).all (fun e => ok (replRow t e)) then some d else none, s)
/-- The replicas of an expert: index and rank of each non-empty entry. -/
def State.replicas (s : State) (c : Coll) (d : ExpDesc) (e : Nat) : HubM (List (Nat × Nat) × State) :=
  (s.cRead c (d.repl + 16 * e) 16).map (fun r => (replRow r.1 0, r.2))
/-- Bytes in the egress queue toward a rank of a group (R325). -/
def State.egress (s : State) (gid r : Nat) : Nat := (look (65536 * gid + r) s.ex.egress).getD 0
/-- The replica whose egress queue holds the fewest bytes, the lowest index on a tie (R325). -/
def State.bestReplica (s : State) (gid : Nat) (l : List (Nat × Nat)) : Option (Nat × Nat) :=
  firstBy (fun a b => decide (s.egress gid a.2 < s.egress gid b.2)
    || (s.egress gid a.2 == s.egress gid b.2 && decide (a.1 < b.1))) l

/-- Whether a rank's collective runs on its own: it has begun, has not ended and waits on no record, and its ranks here have
joined. -/
def State.running (s : State) (c : Coll) : Bool := !c.fin && !c.wait && !c.boot && s.collFull c.gid c.num
/-- EXPERT_TOKEN_SEND (R324, R325): a rank's next token is sent toward a replica, the one that R325 chooses. -/
def State.sendToken (s : State) (c : Coll) (replica : Nat) : HubM State :=
  if c.opc ≠ 6 || !s.running c || c.count ≤ c.sent then .ok s
  else do
    let (d, t) ← s.expDesc c
    match d with
    | none => pure (t.endColl c 6)
    | some d =>
      let (ib, t) ← t.cRead c (d.ids + 4 * c.sent) 4
      let e := leNat ib
      if d.nexp ≤ e then pure (t.endColl c 6)
      else
        let (l, t) ← t.replicas c d e
        match t.bestReplica c.gid l with
        | some (i, r) =>
          if i = replica then
            let t := (t.modEgress c.gid r (fun n => n + d.rowb)).modColl c.num c.rank (fun c => { c with sent := c.sent + 1 })
            pure (t.modEx (fun x => { x with
              rows := x.rows ++ [⟨c.num, c.rank, c.sent, e, i, [i], false, r, d.rowb, false, none⟩] }))
          else pure s
        | none => pure s
/-- EXPERT_TOKEN_SEND (R325). -/
def execExpertTokenSend (num replica : Nat) (s : State) : Host.Outcome State Fault Refusal :=
  .next (match s.coll (num % 2 ^ 32) (num / 2 ^ 32) with
    | some c => s.hubTry (s.sendToken c replica)
    | none => s)

/-- Entry i of a HOST list: expert, row base, row count (R324). -/
def hostRow (bs : List Byte) (i : Nat) : Nat × Nat × Nat :=
  (leField bs (16 * i) 4, leField bs (16 * i + 8) 4, leField bs (16 * i + 12) 4)
/-- The next free row that a hosting rank has for an expert: HOST entry and row (R326). -/
def freeRow (c : Coll) (bs : List Byte) (e : Nat) : Nat → Option (Nat × Nat)
  | 0 => none
  | n + 1 =>
    match freeRow c bs e n with
    | some r => some r
    | none =>
      let h := hostRow bs n
      let used := (look n c.rows).getD 0
      if h.1 = e ∧ used < h.2.2 then some (n, h.2.1 + used) else none
/-- A row request is gone. -/
def State.dropRow (s : State) (i : Nat) : State := s.modEx (fun x => { x with rows := x.rows.take i ++ x.rows.drop (i + 1) })
/-- A row request changed. -/
def State.setRow (s : State) (i : Nat) (r : RowReq) : State := s.modEx (fun x => { x with rows := setNth r x.rows i })
/-- The arbiter's answer: the row granted, a refusal, or none while the rank that hosts has no well-formed descriptor. -/
abbrev Answer := Option (Option Nat)
/-- The arbiter of a hosting rank (R326): the next free row of its HOST entry for the expert takes the token and its tag, or the
request is refused. -/
def State.hostRequest (t : State) (h : Coll) (r : RowReq) (x : List Byte) : HubM (Answer × State) :=
  let refuse := fun (t : State) => (.ok (some none, t.exCount 6) : HubM (Answer × State))
  if h.fin then refuse t
  else do
    let (hd, t) ← t.expDesc h
    match hd with
    | none => pure (none, t.endColl h 6)
    | some hd =>
      let (hb, t) ← t.cRead h hd.host (16 * hd.nhost)
      match freeRow h hb r.expert hd.nhost with
      | none => refuse t
      | some (k, n) =>
        let t ← t.cWrite h (h.dst + n * hd.rowb) x
        let t ← t.cWrite h (hd.tags + 8 * n) (leBytes 8 ((r.rank <<< 48) + r.token % 2 ^ 40))
        pure (some (some n), t.modColl h.num h.rank (fun h => { h with rows := put k ((look k h.rows).getD 0 + 1) h.rows }))
/-- The sender's hub takes a grant: the placement word names rank and row (R326, R327). -/
def State.placed (t : State) (c : Coll) (d : ExpDesc) (rank token n : Nat) : HubM State := do
  let t ← t.cWrite c (d.place + 8 * token) (leBytes 8 ((rank <<< 32) + n % 2 ^ 32))
  pure ((t.modColl c.num c.rank (fun c => { c with tok := token :: c.tok })).traffic c.num)
/-- A request of a rank of this package: it leaves by a fabric port, or the arbiter of the rank asked answers it here (R326). -/
def State.rowRequest (s : State) (i : Nat) (r : RowReq) (c : Coll) : HubM State := do
  let (d, t) ← s.expDesc c
  match d with
  | none => pure (t.endColl c 6)
  | some d =>
    let off := fun (t : State) => t.modEgress c.gid r.dst (fun n => n - r.bytes)
    match t.farPort c.gid r.dst with
    | some port =>
      let (x, t) ← t.cRead c (c.src + r.token * d.rowb) d.rowb
      pure (((off t).setRow i { r with sent := true }).toPort (.row c.gid c.num c.rank r.dst r.token r.expert x) port)
    | none =>
      match t.coll c.num r.dst with
      | none => pure s
      | some h =>
        if h.wait || h.boot then pure s
        else
          let (x, t) ← t.cRead c (c.src + r.token * d.rowb) d.rowb
          let (a, t) ← t.hostRequest h r x
          match a with
          | none => pure t
          | some none => pure ((off t).setRow i { r with refused := true })
          | some (some n) =>
            let t ← t.placed c d r.dst r.token n
            pure ((off t).dropRow i)
/-- A request of a rank on another package at the arbiter of this one; the answer goes back (R326). -/
def State.farRequest (s : State) (i : Nat) (r : RowReq) (h : Coll) (x : List Byte) : HubM State :=
  if h.wait || h.boot then .ok s
  else do
    let (a, t) ← s.hostRequest h r x
    pure (match a with
      | none => t
      | some n => (match t.farPort h.gid r.rank with
        | some port => (t.dropRow i).toPort (.answer h.gid h.num r.rank r.token n) port
        | none => t.dropRow i))

/-! ## What comes from other packages (R326, R328) -/

/-- The row request that waits for an answer. -/
def State.awaiting (s : State) (num rank token : Nat) : Option Nat :=
  firstFrom (fun i => (s.ex.rows[i]?).elim false (fun r => r.num == num && r.rank == rank && r.token == token && r.sent))
    0 s.ex.rows.length
/-- A packet of an expert form is taken: a request goes to the arbiter's rows, an answer to its request, a returned row to DST;
none while it has to wait. -/
def State.takeExpert (s : State) (m : Poest) : HubM (Option State) :=
  match m with
  | .row _ num rank dst token expert x =>
    if s.runGone num then .ok (some s)
    else if (s.coll num dst).isNone then .ok none
    else .ok (some (s.modEx (fun e => { e with
      rows := e.rows ++ [⟨num, rank, token, expert, 0, [], false, dst, 0, false, some x⟩] })))
  | .answer _ num rank token n =>
    match s.coll num rank, s.awaiting num rank token with
    | some c, some i =>
      if c.wait then .ok none
      else match n, s.ex.rows[i]? with
        | some n, some r => do
          let (d, t) ← s.expDesc c
          match d with
          | none => pure (some (t.endColl c 6))
          | some d =>
            let t ← t.placed c d r.dst token n
            pure (some (t.dropRow i))
        | none, some r => .ok (some (s.setRow i { r with refused := true, sent := false }))
        | _, none => .ok (some s)
    | _, _ => .ok (some s)
  | .back _ num rank tok host row x =>
    match s.coll num rank with
    | none => .ok (if s.runGone num then some s else none)
    | some c =>
      if c.wait then .ok none
      else if c.fin || c.count ≤ tok || c.tok.contains tok then .ok (some s)
      else do
        let (d, t) ← s.expDesc c
        match d with
        | none => pure (some (t.endColl c 6))
        | some d =>
          let (p, t) ← t.cRead c (d.place + 8 * tok) 8
          if leNat p ≠ (host <<< 32) + row then pure (some t)
          else
            let t ← t.cWrite c (c.dst + tok * d.rowb) x
            pure (some ((t.modColl num rank (fun c => { c with tok := tok :: c.tok })).traffic num))
  | _ => .ok none
/-- The packets of expert forms at the fabric ports taken in the order of their arrival. -/
def State.expertIn (s : State) : State :=
  let keep := fun (s : State) m => s.modEx (fun e => { e with inbox := e.inbox ++ [m] })
  s.ex.inbox.foldl (fun s m => match s.takeExpert m.2 with
    | .ok (some t) => t
    | .ok none => keep s m
    | .error e => (keep s m).hubFault e) (s.modEx (fun e => { e with inbox := [] }))
/-- ROW_REQUEST (R326): request `index` reaches its arbiter. -/
def execRowRequest (index : Nat) (s : State) : Host.Outcome State Fault Refusal :=
  let s := s.expertIn
  .next (match s.ex.rows[index]? with
    | some r =>
      match r.data with
      | some x => (match s.coll r.num r.dst with
        | some h => s.hubTry (s.farRequest index r h x)
        | none => s)
      | none => (match s.coll r.num r.rank with
        | some c => if r.refused || r.sent || !s.running c then s else s.hubTry (s.rowRequest index r c)
        | none => s)
    | none => s)
/-- The replica to try after one that refused: the next non-empty index, wrapping, that has not been tried (R326). -/
def nextReplica (l : List (Nat × Nat)) (r : RowReq) : Option (Nat × Nat) :=
  firstSat (fun p => !r.tried.contains p.1) (l.filter (fun p => decide (r.replica < p.1)) ++ l)
/-- A refusal is back at the sender's hub: the next replica is asked, or the token overflows (R326, R327). -/
def State.rowRefused (s : State) (i : Nat) (r : RowReq) (c : Coll) : HubM State := do
  let (d, t) ← s.expDesc c
  match d with
  | none => pure (t.endColl c 6)
  | some d =>
    let (l, t) ← t.replicas c d r.expert
    match nextReplica l r with
    | some (k, rank) =>
      pure ((t.setRow i { r with replica := k, tried := k :: r.tried, refused := false, dst := rank, bytes := d.rowb }).modEgress
        c.gid rank (fun n => n + d.rowb))
    | none =>
      let ovf := min (c.ovf + 1) (2 ^ 32 - 1)
      let (h, t) ← t.cRead c c.ovfl 8
      let t ← t.cWrite c (d.place + 8 * r.token) (leBytes 8 (2 ^ 63))
      let t ← if c.ovf < leNat h % 2 ^ 32 then t.cWrite c (c.ovfl + 8 + 8 * c.ovf) (leBytes 8 r.token) else pure t
      let t ← t.cWrite c (c.blk + 0x48) (leBytes 8 ovf)
      let t := t.modColl c.num c.rank (fun c => { c with ovf := ovf, tok := r.token :: c.tok })
      pure ((t.dropRow i).exCount 7)
/-- ROW_REFUSED (R326, R327): the refusal of request `index` returns. -/
def execRowRefused (index : Nat) (s : State) : Host.Outcome State Fault Refusal :=
  let s := s.expertIn
  .next (match s.ex.rows[index]? with
    | some r =>
      match s.coll r.num r.rank with
      | some c => if !r.refused || !s.running c then s else s.hubTry (s.rowRefused index r c)
      | none => s
    | none => s)

/-- A hosting rank sends filled row n back to the rank that its tag names, which writes it (R328). A row is filled when the
placement word of its origin names it; a rank on another package looks there itself. -/
def State.combineRow (s : State) (h : Coll) (n : Nat) : HubM State :=
  if h.opc ≠ 7 || !s.running h || (look n h.rows).isSome then .ok s
  else do
    let (hd, t) ← s.expDesc h
    match hd with
    | none => pure (t.endColl h 6)
    | some hd =>
      let (hb, t) ← t.cRead h hd.host (16 * hd.nhost)
      if !(List.range hd.nhost).any (fun i => let r := hostRow hb i; decide (r.2.1 ≤ n ∧ n < r.2.1 + r.2.2)) then pure s
      else
        let (tg, t) ← t.cRead h (hd.tags + 8 * n) 8
        let rank := leNat tg / 2 ^ 48
        let tok := leNat tg % 2 ^ 40
        if (t.farPort h.gid rank).isNone && (t.coll h.num rank).elim true (fun c => c.wait || c.boot) then pure s
        else
          let (x, t) ← t.cRead h (h.src + n * hd.rowb) hd.rowb
          let t := t.modColl h.num h.rank (fun h => { h with rows := put n 1 h.rows })
          let m := Poest.back h.gid h.num rank tok h.rank n x
          match t.farPort h.gid rank with
          | some port => pure (t.toPort m port)
          | none => (t.takeExpert m).map (fun r => r.getD s)
/-- EXPERT_COMBINE_ROW (R328): row `row` of a hosting rank's collective. -/
def execExpertCombineRow (num row : Nat) (s : State) : Host.Outcome State Fault Refusal :=
  let s := s.expertIn
  .next (match s.coll (num % 2 ^ 32) (num / 2 ^ 32) with
    | some c => s.hubTry (s.combineRow c row)
    | none => s)

end Sys2Proof.Machine
end

