-- ==== Sys2Proof/Machine/NearMemory.lean ====
section
/-! DEFINITION. Near memory: operations at the slices, the combining stores and acknowledgements (R335 to R340), walk regions
and the block table (R342, R343, R352), rule programs and walks (R266, R267, R341, R344 to R350, R353). -/

namespace Sys2Proof.Machine

/-! ## Slices (R335 to R340) -/

/-- The base dies changed. -/
def State.modBd (s : State) (f : BaseDie → BaseDie) : State := { s with bd := f s.bd }
/-- Element i of a list. -/
def nth? {α : Type} : List α → Nat → Option α
  | [], _ => none
  | a :: _, 0 => some a
  | _ :: r, i + 1 => nth? r i
/-- Whether an operation may reach its home before the others of its thread to the same address (R337). -/
def mayArrive (ops : List SliceOp) (i : Nat) (o : SliceOp) : Bool :=
  (ops.take i).all (fun p => p.acked || p.waits || !(p.cl == o.cl && p.core == o.core && p.hi == o.hi
    && overlap p.loc (p.w / 8) o.loc (o.w / 8)))
/-- SLICE_OPERATION (R336 to R338): operation `index` of those on their way reaches its slice. On a line that the combining
store holds it is performed; else an entry is allocated and it waits there for the memory read; with every entry of the slice
pending it stays in the input queue. An operation on a peer is performed at the peer. -/
def execSliceOperation (index : Nat) (s : State) : Host.Outcome State Fault Refusal :=
  .next (match nth? s.bd.ops index with
    | none => s
    | some o =>
      if o.acked || o.waits || !mayArrive s.bd.ops index o then s
      else
        let line := o.loc / 64
        let held := firstSat (fun h => h.line == line) s.bd.held
        if peerBase ≤ o.loc || held.elim false (·.filled) then
          (s.performOp o).modBd (fun b => { b with
            ops := setNth { o with acked := true } b.ops index,
            held := b.held.map (fun h => if h.line = line then { h with since := s.time } else h) })
        else match s.bd.entry line false s.time with
          | none => s
          | some b =>
            s.modBd (fun _ => { b with ops := b.ops.take index ++ b.ops.drop (index + 1) ++ [{ o with waits := true }] }))
/-- COMBINING_FILL (R338): the line read returns, and the waiting updates apply in arrival order. -/
def execCombiningFill (line : Nat) (s : State) : Host.Outcome State Fault Refusal := .next (s.fillLine line)
/-- COMBINING_RELEASE (R338): an entry that has been clean-held for 1,024 cycles is released. -/
def execCombiningRelease (line : Nat) (s : State) : Host.Outcome State Fault Refusal :=
  .next (s.modBd (fun b => { b with
    held := b.held.filter (fun h => !(h.line == line && h.filled && decide (h.since + 1024 ≤ s.time))) }))
/-- RETURN_FREE_ACK (R340): a home acknowledges one performed element of a slot; the acknowledgement of an element whose
thread no longer holds the slot reaches no count. -/
def execReturnFreeAck (cl core slot : Nat) (s : State) : Host.Outcome State Fault Refusal :=
  let hi := slot != 0
  let mine := fun (o : SliceOp) => o.acked && o.cl == cl && o.core == core && o.hi == hi
  .next (match firstSat mine s.bd.ops with
    | some o =>
      (s.modBd (fun b => { b with ops := dropFirst mine b.ops })).on cl core hi
        (fun t => if t.slot.th.tid = o.tid then t.modSlot (fun x => { x with rfout := x.rfout - 1 }) else t)
    | none => s)

/-! ## Walk regions and the block table (R342, R343, R352) -/

/-- VALID of a descriptor. -/
def regValid (d : Word × Word) : Bool := flag d.2 63
/-- SIZE. -/
def regSize (d : Word × Word) : Nat := fld d.2 0 40
/-- ROOT. -/
def regRoot (d : Word × Word) : Nat := fld d.1 24 40
/-- FIRST. -/
def regFirst (d : Word × Word) : Nat := fld d.1 0 12
/-- Descriptor r of context c. -/
def State.region (s : State) (c r : Nat) : Word × Word := (look (16 * c + r) s.bd.regions).getD (0, 0)
/-- Block-table entry e. -/
def State.block (s : State) (e : Nat) : Word := if e < 4096 then (look e s.bd.blocks).getD 0 else 0
/-- The low word of a descriptor waits for its high word (R343). -/
def State.regionLow (s : State) (c r : Nat) (v : Word) : State :=
  s.modBd (fun b => { b with regLow := put (16 * c + r) v b.regLow })
/-- Whether a descriptor keeps the limits of R342: SIZE a multiple of 64 above 0, and every block of the region named by a valid
entry of the table. -/
def State.regionFits (s : State) (d : Word × Word) : Bool :=
  let n := cdiv (regSize d) (2 ^ 27)
  regSize d != 0 && regSize d % 64 == 0 && decide (regFirst d + n ≤ 4096)
    && (List.range n).all (fun i => flag (s.block (regFirst d + i)) 63)
/-- The high word commits a descriptor, or the write is refused with an error to the host (R342, R343); a region that is
cleared is gone for its walks (R350). -/
def State.regionHigh (s : State) (c r : Nat) (v : Word) : State :=
  let k := 16 * c + r
  let lo := ((look k s.bd.regLow).getD (s.region c r).1) &&& 0xFFFF_FFFF_FF00_0FFF
  let hi := v &&& 0x8000_00FF_FFFF_FFFF
  if flag hi 63 && !s.regionFits (lo, hi) then s.emit (.hostError (0x500000 + 16 * k + 8))
  else s.modBd (fun b => { b with
    regions := put k (lo, hi) b.regions,
    regLow := drop k b.regLow,
    walks := if flag hi 63 then b.walks
             else b.walks.map (fun w => if w.ctx == c && w.prog.region == r then { w with gone := true } else w) })
/-- WALK_REGION_COMMIT (R343): the host writes the high word of a descriptor. -/
def execWalkRegionCommit (ctx region high : Nat) (s : State) : Host.Outcome State Fault Refusal :=
  .next (if ctx < 4096 && region < 16 then s.regionHigh ctx region (word high) else s)
/-- The host writes block-table entry e (R342, R343, R352): a frame outside local HBM is refused; a walk whose block it is, the one
it read last or waits for or moves to, loses it unless the write is a move (R350). -/
def State.blockWrite (s : State) (e : Nat) (v : Word) : State :=
  let frame := fld v 3 25
  if s.hbm ≤ frame * 2 ^ 27 then s.emit (.hostError (0x600000 + 8 * e))
  else
    let old := s.block e
    let new := setFld (v &&& 0xC000_0000_0FFF_FFF8) 0 3 (frame / 384)
    let move := flag old 62 && flag new 63 && !flag new 62
    let lost := flag old 63 && !move && (!flag new 63 || fld old 3 25 != frame)
    s.modBd (fun b => { b with
      blocks := put e new b.blocks,
      movAck := if flag new 62 then b.movAck else b.movAck.filter (fun x => x != e),
      walks := if lost then b.walks.map (fun w => if w.ent == some e then { w with gone := true } else w) else b.walks })
/-- BLOCK_MOV_ACK (R352): no LOAD that had begun in the block is still under way, and walks wait from now on. -/
def execBlockMovAck (entry : Nat) (s : State) : Host.Outcome State Fault Refusal :=
  .next (if flag (s.block entry) 62 && !s.bd.movAck.contains entry then
    s.modBd (fun b => { b with movAck := entry :: b.movAck }) else s)

/-! ## Rule words (R344) -/

/-- Whether a rule word of a program of c words is malformed (R344). -/
def ruleBad (c : Nat) (w : Word) : Bool :=
  let next := fun lo => decide (c ≤ fld w lo 4)
  match fld w 60 4 with
  | 0 => fld w 52 8 == 0 || decide (64 < fld w 52 8) || fld w 48 4 != 0 || fld w 4 28 != 0 || next 0
  | 1 => decide (3 < fld w 56 4) || fld w 48 6 != 0 || decide (64 < fld w 40 8 + 2 ^ fld w 56 4) || fld w 12 28 != 0
      || next 8 || next 4 || next 0
  | 2 => decide (40 < fld w 52 8) || fld w 4 12 != 0 || next 0
  | 3 => !(fld w 56 4 == 2 || fld w 56 4 == 3) || fld w 48 7 != 0 || decide (64 < fld w 40 8 + 2 ^ fld w 56 4)
      || fld w 8 32 != 0 || (if flag w 55 then next 4 else fld w 4 4 != 0) || next 0
  | 4 | 5 => decide (64 < fld w 52 8) || fld w 48 4 != 0 || decide (64 < fld w 40 8 + fld w 52 8) || fld w 0 40 != 0
  | _ => true

/-- BRULE (R266, R347): its effect: the words are read and checked, and the slot is replaced as one action. -/
def effBrule (o : OpG8) : Run1 := fun c s => do
  let spc := fld o.imm 12 3
  let n := fld o.imm 4 4 + 1
  let a := c.ga.toNat
  s.checkHolder spc a (8 * n)
  let (bs, s) ← s.readSide ⟨s.co, spc, a⟩ 0 (8 * n)
  let ws := (List.range n).map (fun i => word (leNat ((bs.drop (8 * i)).take 8)))
  need (ws.all (fun w => !ruleBad n w)) { Trap.opnd 0x08 with d0 := c.ga } s
  let s := s.startCopy o.d.toNat 1 false
  let k := 16 * fld s.core.ctxid 0 16 + fld o.imm 0 4
  let s := s.modBd (fun b => { b with progs := put k ⟨fld o.imm 8 4, ws⟩ b.progs })
  pure (s.endCopy o.d.toNat 0 (s.cmdNow c) 0)
/-- BRULE (R5, R266). -/
def execBrule (o : OpG8) (s : State) : Host.Outcome State Fault Refusal :=
  let spc := fld o.imm 12 3
  let n := fld o.imm 4 4 + 1
  let a := (s.g o.a).toNat
  finish (do
    need s.full Trap.absent s
    if spc = 0 then need (decide (a < 2 ^ 54)) { Trap.perm 0x01 with d0 := word a } s
    else need (decide (a + 8 * n ≤ bufSize spc)) (Trap.opnd 0x01) s
    need (a % 128 == 0) (Trap.align 0x02) s
    issue { eng := .copy, ins := .brule o, ga := s.g o.a, ranges := [⟨spc, a, a + 8 * n - 1, false⟩],
            wr := [.h o.d.toNat, .rules] } (effBrule o) s)

/-! ## Walks (R341, R345 to R350) -/

/-- The hash of a key (R346). -/
def ruleHash (k seed : Nat) : Nat := (((k ^^^ (k >>> 32)) ^^^ seed) * 0x9E3779B97F4A7C15) % 2 ^ 64
/-- Walks of one stack that its engines hold, 16 × 32 places (R341). -/
def BaseDie.stackFill (b : BaseDie) (st : Nat) : Nat := (b.walks.filter (fun w => w.stack == st)).length
/-- Counter k of a stack rises: WALKS, STEPS, MIGRIN, DROPS (R353). -/
def State.walkCount (s : State) (st k : Nat) : State :=
  s.modBd (fun b => { b with ctr := put (4 * st + k) (((look (4 * st + k) b.ctr).getD 0 + 1) % 2 ^ 64) b.ctr })

/-- How one rule leaves a walk. -/
inductive Stride where
  /-- it runs on -/
  | go (w : Walk)
  /-- it ends with a code, the steps taken and its row -/
  | stop (code n : Nat) (row : List Byte)
  /-- it begins or continues to move to the stack of an entry's block (R349) -/
  | move (stack ent : Nat)
  /-- it waits for the block of an entry, which is being moved (R352) -/
  | wait (ent : Nat)
  deriving DecidableEq, Repr

/-- n bytes from b, zero-filled to 64. -/
def rowOf (b : List Byte) (off n : Nat) : List Byte :=
  ((b.drop off).take n ++ List.replicate 64 0).take 64
/-- The block entry of a region offset: its index and its word. -/
def State.blockOf (s : State) (d : Word × Word) (a : Nat) : Nat × Word :=
  let e := regFirst d + a / 2 ^ 27
  (e, s.block e)

/-- One rule of a walk (R345), with the moves and waits before a LOAD (R349, R352). -/
def State.stride (s : State) (w : Walk) : Stride :=
  let d := s.region w.ctx w.prog.region
  let r := nthD 0 w.prog.rules w.pc
  let n := w.n + 1
  if w.gone || !regValid d then .stop 5 w.n []
  else if w.n = w.lim then .stop 2 w.n []
  else match fld r 60 4 with
  | 0 =>
    let a : Int := (w.p : Int) + sgn 16 (fld r 32 16)
    let len := fld r 52 8
    let q := a.toNat
    let e := s.blockOf d q
    if w.p = 0 then .stop 4 n []
    else if a < 0 || decide (regSize d < q + len) || q / 64 != (q + len - 1) / 64 || !flag e.2 63 then .stop 3 n []
    else if flag e.2 62 && s.bd.movAck.contains e.1 then .wait e.1
    else if fld e.2 0 3 != w.stack then .move (fld e.2 0 3) e.1
    else .go { w with b := rowOf (s.mem.readList (fld e.2 3 25 * 2 ^ 27 + q % 2 ^ 27) len) 0 len, pc := fld r 0 4, n := n,
                      ent := some e.1, mov := none }
  | 1 =>
    let bytes := 2 ^ fld r 56 4
    let v := leNat ((w.b.drop (fld r 40 8)).take bytes)
    let x := (if flag r 55 then w.h else w.k) % 2 ^ (8 * bytes)
    let lt := if flag r 54 then decide (sgn (8 * bytes) x < sgn (8 * bytes) v) else decide (x < v)
    .go { w with pc := if x = v then fld r 0 4 else if lt then fld r 8 4 else fld r 4 4, n := n }
  | 2 =>
    let h := ruleHash w.k (fld r 16 32)
    let k := fld r 52 8
    .go { w with h := h, p := if k = 0 then w.p else (w.p + ((h >>> (64 - k)) <<< fld r 48 4)) % 2 ^ 40, pc := fld r 0 4,
                 n := n }
  | 3 =>
    let p := leNat ((w.b.drop (fld r 40 8)).take (2 ^ fld r 56 4)) % 2 ^ 40
    if p = 0 then (if flag r 55 then .go { w with pc := fld r 4 4, n := n } else .stop 4 n [])
    else .go { w with p := p, pc := fld r 0 4, n := n }
  | 4 => .stop 0 n (rowOf w.b (fld r 40 8) (fld r 52 8))
  | _ => .stop 1 n (rowOf w.b (fld r 40 8) (fld r 52 8))

/-- The walk of a lane of a command. -/
def walkIs (cl co q lane : Nat) (w : Walk) : Bool := w.cl == cl && w.core == co && w.qpos == q && w.lane == lane
/-- Element `lane` of the BWALK at a queue position has ended: LANDED, and the code that its fault will name (R267). -/
def State.landWalk (s : State) (q lane code d : Nat) : State :=
  let s := s.modCmd q (fun c => { c with tr := (c.tr.1, c.tr.2.1, c.tr.2.2.1, c.tr.2.2.2 ||| 2 ^ lane),
                                         prog := c.prog ++ [16 * lane + code] })
  match s.core.cmd q with
  | some c => s.modCopyState d (fun h => { h with landed := c.cpLead })
  | none => s
/-- The end of a walk (R267): its row, then its status word, in the A buffer of its core. -/
def State.endWalk (s : State) (w : Walk) (code n : Nat) (row : List Byte) : State :=
  let s := s.walkCount w.stack 0
  let s := if code = 5 then s.walkCount w.stack 3 else s
  let s := s.modBd (fun b => { b with walks := dropFirst (walkIs w.cl w.core w.qpos w.lane) b.walks })
  s.on w.cl w.core false (fun t =>
    match t.core.cmd w.qpos with
    | some c =>
      match c.ins with
      | .bwalk o =>
        let t := t.bufWrite 2 (c.gb.toNat + 64 * w.lane) (leNat row) 64
        let t := t.bufWrite 2 (c.gc.toNat + 4 * w.lane) (code + n <<< 16) 4
        t.landWalk w.qpos w.lane code o.d.toNat
      | _ => t
    | none => t)
/-- A walk in flight replaced. -/
def State.setWalk (s : State) (w : Walk) : State :=
  s.modBd (fun b => { b with walks := replFirst (walkIs w.cl w.core w.qpos w.lane) (fun _ => w) b.walks })
/-- Whether a walk has moved for 65,536 cycles, or waited for 2^20 (R349, R350). -/
def Walk.late (w : Walk) (now : Nat) : Bool :=
  w.mig.elim false (fun m => decide (m.1 + 65536 ≤ now)) || w.mov.elim false (fun t => decide (t + 2 ^ 20 ≤ now))
/-- One step of a walk: a rule, or the beginning of a move or of a wait; one whose time is up ends DROPPED (R345, R349, R350). -/
def State.walkStep (s : State) (w : Walk) : State :=
  if w.late s.time then s.endWalk w 5 w.n [] else
  match s.stride w with
  | .go w' => (s.walkCount w.stack 1).setWalk { w' with mig := none }
  | .stop code n row => (if n = w.n then s else s.walkCount w.stack 1).endWalk w code n row
  | .move st e => s.setWalk { w with mig := some ((w.mig.map (·.1)).getD s.time, st), mov := none, ent := some e }
  | .wait e => s.setWalk { w with mov := some (w.mov.getD s.time), mig := none, ent := some e }
/-- A walk that moves is delivered in time, if an engine of the stack has a place (R341, R349). -/
def State.walkMove (s : State) (w : Walk) : State :=
  if w.late s.time then s.endWalk w 5 w.n [] else
  match w.mig with
  | some (_, st) =>
    if s.bd.stackFill st < 512 then (s.setWalk { w with stack := st, mig := none }).walkCount st 2 else s
  | none => s
/-- A walk run until it ends, waits or finds no place: at most so many steps and moves. -/
def State.walkRun (cl co q lane : Nat) : Nat → State → State
  | 0, s => s
  | f + 1, s =>
    match firstSat (walkIs cl co q lane) s.bd.walks with
    | none => s
    | some w =>
      let t := s.walkStep w
      match firstSat (walkIs cl co q lane) t.bd.walks with
      | none => t
      | some w' =>
        if w'.mov.isSome then t
        else if w'.mig.isSome then
          (if t.bd.stackFill ((w'.mig.map (·.2)).getD 0) < 512 then State.walkRun cl co q lane f (t.walkMove w') else t)
        else State.walkRun cl co q lane f t

/-- The walks of the lanes of a list placed on engines: of the first stack from v on that has a place; none when no stack has
one (R341: where a walk begins is not said, log 53). -/
def placeWalks (mk : Nat → Nat → Walk) (v : Nat) : List Nat → BaseDie → Option BaseDie
  | [], b => some b
  | lane :: r, b =>
    match firstFrom (fun i => decide (b.stackFill ((v + i) % 8) < 512)) 0 8 with
    | some i => placeWalks mk v r { b with walks := b.walks ++ [mk ((v + i) % 8) lane] }
    | none => none
/-- The start of a BWALK at its dispatch (R266, R267, R347): its checks, the handle, one walk for each active lane; it waits while
the engines have no place for them all. -/
def walkStart (o : OpG8) (c : Cmd) (s : State) : M State := do
  let s0 := s
  let n := c.len o.len 64
  let b := c.gb.toNat
  let w := c.gc.toNat
  let ctx := fld s.core.ctxid 0 16
  need (decide (b + 64 * n ≤ bufSize 2)) { Trap.opnd 0x01 with d0 := c.gb } s
  need (decide (w + 4 * n ≤ bufSize 2)) { Trap.opnd 0x01 with d0 := c.gc } s
  match look (16 * ctx + fld o.imm 0 4) s.bd.progs with
  | none => .error (.trap (Trap.opndAt 0x07 (fld o.imm 0 4)) s)
  | some p =>
    need (regValid (s.region ctx p.region)) (Trap.opndAt 0x07 p.region) s
    need (!s.core.notHolder 2 b (64 * n)) { Trap.holder with d0 := c.gb } s
    need (!s.core.notHolder 2 w (4 * n)) { Trap.holder with d0 := c.gc } s
    let s := s.startCopy o.d.toNat n false
    let m := s.mreg o.msk.toNat
    let (v, s) := s.fresh
    let mk := fun st lane => (⟨elem (s.vreg o.a.toNat) 64 lane, 0, regRoot (s.region ctx p.region), List.replicate 64 0, 0, 0,
      s.cl, s.co, c.qpos, lane, p, ctx, fld o.imm 4 13, st, none, none, none, false⟩ : Walk)
    match placeWalks mk v (actives m n) s.bd with
    | none => .error (.stall s0)
    | some bd =>
    let s := { s with bd := bd }
    let idle := (List.range n).filter (fun i => !flag m i)
    let mask := idle.foldl (fun a i => a ||| 2 ^ i) 0
    let s := s.modCmd c.qpos (fun e => { e with
      resume := 1, tr := (n, 0, 0, mask),
      ranges := if n = 0 then [] else [⟨2, b, b + 64 * n - 1, true⟩, ⟨2, w, w + 4 * n - 1, true⟩] })
    pure (s.modCopyState o.d.toNat (fun h => { h with landed := (s.cmdNow c).cpLead }))
/-- The end of a BWALK whose walks have all ended: the handle turns full; under POL = 1 the lowest code from 2 to 5 is
reported (R267). -/
def walkFinish (o : OpG8) (c : Cmd) (s : State) : M State :=
  let bad := c.prog.filter (fun x => decide (2 ≤ x % 16))
  let t := s.endCopy o.d.toNat 0 c 0
  if flag o.imm 17 && !bad.isEmpty then
    let low := bad.foldl (fun a x => min a (x % 16)) 5
    let mask := bad.foldl (fun a x => a ||| 2 ^ (x / 16)) 0
    .error (.trap { code := 0x0E, sub := low, d0 := word low, d1 := word mask } t)
  else .ok t
/-- BWALK (R266, R267): its effect: dispatch, then each walk to its end, then completion. -/
def effBwalk (o : OpG8) : Run1 := fun c s =>
  if c.resume = 0 then walkStart o c s
  else match c.cpNext with
    | none => walkFinish o c s
    | some lane =>
      let t := State.walkRun s.cl s.co c.qpos lane 16384 s
      if (s.cmdNow c).cpLead = (t.cmdNow c).cpLead then .error (.stall t) else .ok t
/-- BWALK (R5, R266): the checks at commit. -/
def execBwalk (o : OpG8) (s : State) : Host.Outcome State Fault Refusal :=
  let b := (s.g o.b).toNat
  let w := (s.g o.c).toNat
  let n := if 4 ≤ o.len.toNat then 64 else s.slot.vl
  finish (do
    need s.full Trap.absent s
    need (vtSewCode s.slot.vtype == 3) (Trap.ill 0x08) s
    need (b % 64 == 0 && w % 4 == 0) (Trap.align 0x02) s
    issue { eng := .copy, ins := .bwalk o, lens := [o.len], gb := s.g o.b, gc := s.g o.c,
            ranges := if n = 0 then [] else [⟨2, b, b + 64 * n - 1, true⟩, ⟨2, w, w + 4 * n - 1, true⟩],
            rd := [.v o.a.toNat, .m o.msk.toNat, .rules], wr := [.h o.d.toNat] } (effBwalk o) s)

/-- COPY_COMPLETE (R240, R267): every element of a copy has landed, or every walk of a BWALK has ended. -/
def execCopyComplete (cl core qpos : Nat) (s : State) : Host.Outcome State Fault Refusal :=
  onCore cl core (fun s =>
    match s.core.cmd qpos with
    | none => .ok s
    | some c =>
      if c.under && c.resume != 0 && c.cpNext.isNone then
        match copyKind c.ins, c.ins with
        | some (k, o), _ => s.stepCmd (copyEff k o) qpos
        | none, .bwalk o => s.stepCmd (effBwalk o) qpos
        | none, _ => .ok s
      else .ok s) s
/-- WALK_STEP (R345): walk `index` of those in flight executes one rule, or begins to move or to wait. -/
def execWalkStep (index : Nat) (s : State) : Host.Outcome State Fault Refusal :=
  .next (match nth? s.bd.walks index with | some w => s.walkStep w | none => s)
/-- WALK_MIGRATE (R349): walk `index` is delivered to an engine of another stack. -/
def execWalkMigrate (index : Nat) (s : State) : Host.Outcome State Fault Refusal :=
  .next (match nth? s.bd.walks index with | some w => s.walkMove w | none => s)
/-- MIGRATION_TIMEOUT (R349): undelivered for 65,536 cycles. -/
def execMigrationTimeout (index : Nat) (s : State) : Host.Outcome State Fault Refusal :=
  .next (match nth? s.bd.walks index with
    | some w => (match w.mig with
      | some (t, _) => if t + 65536 ≤ s.time then s.endWalk w 5 w.n [] else s
      | none => s)
    | none => s)
/-- MOV_WAIT_TIMEOUT (R350): 2^20 cycles on a block that is being moved. -/
def execMovWaitTimeout (index : Nat) (s : State) : Host.Outcome State Fault Refusal :=
  .next (match nth? s.bd.walks index with
    | some w => (match w.mov with
      | some t => if t + 2 ^ 20 ≤ s.time then s.endWalk w 5 w.n [] else s
      | none => s)
    | none => s)

end Sys2Proof.Machine
end

