-- ==== Sys2Proof/Machine/Traps.lean ====
section
/-! DEFINITION. The device trap queue (R381 to R383), the actions of the operating system on a stopped thread or collective
(R384, R385, R446) and the kill of a context (R334, R350, R378). -/

namespace Sys2Proof.Machine

/-! ## Records (R381 to R383) -/

/-- PROD, CONS, PTAG and OCC of TRQIDX. -/
def trqProd (v : Word) : Nat := fld v 0 12
def trqCons (v : Word) : Nat := fld v 16 12
def trqTag (v : Word) : Bool := flag v 28
def trqOcc (v : Word) : Nat := fld v 32 13
/-- The interrupt source of the trap queue. -/
def trqIrq : Nat := 0x140008
/-- The 64 bytes of a record (R382) of a slot that now stands on cluster cl. -/
def Record.bytes (r : Record) (cl : Nat) (tag : Bool) (n : Nat) : List Byte :=
  [(r.code <<< 56) + (r.sub <<< 48) + (b2n r.rpl <<< 47) + (b2n r.qf <<< 46) + (b2n r.fatal <<< 45) + (b2n r.hub <<< 44)
     + ((r.qpos % 65536) <<< 16) + r.ctx % 65536,
   r.epc.toNat, (r.seq <<< 32) + (cl <<< 10) + (r.core <<< 7) + (b2n r.hi <<< 6), r.d0.toNat, r.d1.toNat, r.d2.toNat,
   r.d3.toNat, (b2n tag <<< 63) + n % 2 ^ 63].flatMap (leBytes 8)
/-- A record written at PROD; or, where its write fails, the state with the host cluster interrupted and the hub's leaf that
denied it dropped (R381, R393). -/
def State.putRecord (s : State) (r : Record) (cl : Nat) : Except State State :=
  let i := s.hub.trqidx
  let ctx := fld s.hub.trqbase 0 12
  let va := fld s.hub.trqbase 12 42 * 4096 + 64 * trqProd i
  match s.hubWrite ctx va (r.bytes cl (trqTag i) s.hub.trqseq) with
  | .error _ => .error ((s.hubDrop ctx va .wr).irq trqIrq)
  | .ok s =>
    let p := (trqProd i + 1) % 4096
    let j := setFld (setFld i 0 12 p) 32 13 (trqOcc i + 1)
    let j := if p = 0 then setFld j 28 1 (b2n (!trqTag i)) else j
    .ok (s.modHub (fun h => { h with trqidx := j, trqseq := (h.trqseq + 1) % 2 ^ 63 }))
/-- A core halts: its threads stop, its queue is held, its running graph stands frozen and its patterns stop. -/
def Core.halt (c : Core) : Core :=
  { c.mapSlots (fun x => if x.run = .running then { x with run := .stopped } else x) with
    queue := c.queue.map (fun (e : Cmd) => { e with held := true }),
    st := { c.st with
      graph := if c.st.graph.state = .running then { c.st.graph with state := .frozen } else c.st.graph,
      port := c.st.port.map (fun x => if x.pat.isSome then { x with phase := 4 } else x) } }
/-- The cores of a context halt (R383). -/
def State.haltContext (s : State) (ctx : Nat) : State :=
  { s with cores := s.cores.map (fun p => (p.1, if fld p.2.ctxid 0 16 = ctx then p.2.halt else p.2)) }
/-- A fatal record that is not written (R383). -/
def State.fatalDrop (s : State) (ctx : Nat) : State :=
  (s.modHub (fun h =>
    let f := h.fatalpend
    let f := if flag f 63 then f else setFld (setFld f 63 1 1) 0 16 ctx
    { h with fatalpend := setFld f 32 16 (min 65535 (fld f 32 16 + 1)) })).haltContext ctx
/-- The current slot's oldest pending record is written, when there is room and the slot waits for no action. -/
def State.slotRecord (s : State) : State :=
  match s.slot.pend, s.slot.stop with
  | r :: rest, none =>
    let occ := trqOcc s.hub.trqidx
    if r.fatal then
      match (if occ < 4096 then s.putRecord r s.cl else .error s) with
      | .ok s => s.modSlot (fun x => { x with pend := rest, stop := some r })
      | .error s => (s.modSlot (fun x => { x with pend := rest })).fatalDrop r.ctx
    else if occ < 4064 then
      match s.putRecord r s.cl with
      | .ok s => s.modSlot (fun x => { x with pend := rest, stop := some r })
      | .error s => s
    else s
  | _, _ => s
/-- The hub's oldest record of R446 is written, when there is room. -/
def State.hubRecord (s : State) : State :=
  match s.hub.hubPend with
  | [] => s
  | r :: rest =>
    if trqOcc s.hub.trqidx < 4064 then
      match s.putRecord r r.cl with
      | .ok s => s.modHub (fun h => { h with hubPend := rest, hubStop := h.hubStop ++ [r] })
      | .error s => s
    else s
/-- TRAP_RECORD_WRITE (R381, R383, R446): of a slot, or of the hub for cluster 64. -/
def execTrapRecordWrite (cl core slot : Nat) (s : State) : Host.Outcome State Fault Refusal :=
  .next (if cl = 64 then s.hubRecord else s.on cl core (slot != 0) (fun s => s.slotRecord))
/-- A host write of CONS (R381). -/
def State.trqConsume (s : State) (c : Nat) : State :=
  let i := s.hub.trqidx
  let n := (c + 4096 - trqCons i) % 4096
  if n ≤ trqOcc i then s.modHub (fun h => { h with trqidx := setFld (setFld i 16 12 c) 32 13 (trqOcc i - n) }) else s
/-- TRQ_CONSUME (R381): the host advances CONS. -/
def execTrqConsume (value : Nat) (s : State) : Host.Outcome State Fault Refusal := .next (s.trqConsume (value % 4096))

/-! ## Actions (R384) -/

/-- The undispatched commands of the current slot are released, and its faulting command may go on. -/
def State.unhold (s : State) : State :=
  s.modCore (fun c => { c with queue := c.queue.map (fun e => if e.hi == s.hi then { e with held := false, faulted := false } else e) })
/-- A copy of the current core that has not completed ends ABORTED (R241). -/
def State.abortCopy (s : State) (c : Cmd) : State :=
  if c.disp && !c.done && c.resume != 0 then
    match c.ins with
    | .cpy o => s.endCopy o.d.toNat (copyExtent 0 c) c 6
    | .cpyt o => s.endCopy o.d.toNat (copyExtent 1 c) c 6
    | .cpyg o => s.endCopy o.d.toNat (copyExtent 2 c) c 6
    | .cpyz o => s.endCopy o.d.toNat (copyExtent 3 c) c 6
    | .brule o => s.endCopy o.d.toNat 0 c 6
    | .bwalk o => s.endCopy o.d.toNat 0 c 6
    | _ => s
  else s
/-- The undispatched commands of the current slot and its faulting command are discarded; a copy ends ABORTED. -/
def State.discard (s : State) : State :=
  let mine := fun (e : Cmd) => e.hi == s.hi && (!e.disp || e.faulted)
  let s := (s.core.queue.filter (fun e => mine e)).foldl State.abortCopy s
  s.modCore (fun c => { c with queue := c.queue.filter (fun e => !mine e) })
/-- The current slot runs on at an address, unless another record of it waits. -/
def State.goOn (s : State) (pc : Word) : State :=
  s.modSlot (fun x => { x with pc := pc, stop := none, run := if x.pend.isEmpty then .running else .stopped })
/-- The patterns of the current slot that stopped at a fault go on (R229). -/
def State.replayPatterns (s : State) : State :=
  s.modSt (fun t => { t with port := t.port.map (fun x =>
    if x.hi = s.hi ∧ x.phase = 4 then { x with phase := 0, flt := false } else x) })
/-- The current slot's thread is ended by END (R277, R373, R384). -/
def State.endByAction (s : State) : State :=
  let seq := s.slot.th.seq
  ((s.discard.dissolveGang).modLaunch seq (fun l => { l with faulted := true })).endThread
/-- An action on the current slot, stopped at a record: 0 REPLAY, 1 RESUME, 2 STEP, 3 END; none where R384 does not permit
it. -/
def State.slotAction (s : State) (r : Record) (act : Nat) (arg : Word) : Option State :=
  match act with
  | 0 => if r.rpl && !r.fatal then some ((s.unhold.replayPatterns).goOn r.epc) else none
  | 1 =>
    if !r.fatal && !flag arg 0 then
      some (((s.discard).modSlot (fun x => { x with status := setFld x.status 3 1 0 })).goOn arg)
    else none
  | 2 =>
    if r.code == 0x10 && !r.fatal then some (((s.unhold).modSlot (fun x => { x with stepping := true })).goOn s.slot.pc)
    else none
  | 3 => some s.endByAction
  | _ => none
/-- The collective that THRARG and a context name, when it waits on a written record (R385, R446). -/
def State.stoppedColl (s : State) (ctx : Nat) (arg : Word) : Option Coll :=
  if s.hub.hubStop.any (fun r => r.ctx == ctx && r.d1 == arg) then
    firstSat (fun c => c.id == arg.toNat && c.ctx == ctx && c.wait && !c.fin) s.ex.colls
  else none
/-- The record of a collective no longer waits for an action. -/
def State.dropHubStop (s : State) (c : Coll) : State :=
  s.modHub (fun h => { h with hubStop := dropFirst (fun r => r.ctx == c.ctx && r.d1 == word c.id) h.hubStop })
/-- An action on a collective: REPLAY or END (R446). -/
def State.collAction (s : State) (c : Coll) (act : Nat) : State :=
  let s := s.dropHubStop c
  if act = 0 then s.modColl c.num c.rank (fun k => { k with wait := false, at_ := s.time }) else s.endColl c 4

/-! ## KILL (R378) -/

/-- A core of a killed context: its copies end ABORTED, its queue, streams and threads are gone; tokens that it took are
returned. -/
def State.killCore (s : State) : State :=
  let s := s.core.queue.foldl State.abortCopy s
  let s := (List.range 16).foldl (fun s p => s.unbind p) s
  (s.modGraph (fun _ => Graph.empty)).modCore (fun c => { c with queue := [], s0 := Slot.fresh false, s1 := Slot.fresh true })
/-- The context is killed (R334, R350, R378, R415). -/
def State.killContext (s : State) (ctx : Nat) : State :=
  let ids := (s.cores.filter (fun p => fld p.2.ctxid 0 16 == ctx
    && (p.2.s0.run != .vacant || p.2.s1.run != .vacant || !p.2.queue.isEmpty || p.2.st.graph.state == .running))).map (·.1)
  let seqs := (s.hub.run.filter (fun l => l.ctx == ctx)).map (·.seq)
  let tids := ids.flatMap (fun i => let c := s.coreAt (i / 8) (i % 8); [c.s0.th.tid, c.s1.th.tid])
  let s := ids.foldl (fun s i => s.on (i / 8) (i % 8) false (fun t => t.killCore)) s
  let s := s.modBd (fun b => { b with walks := b.walks.filter (fun w => w.ctx != ctx) })
  let s := { s with clusters := s.clusters.map (fun (k : Nat × Cluster) =>
    (k.1, if k.2.group.elim false (fun g => seqs.contains g.seq) then k.2.vacate else k.2)) }
  let s := (s.clusters.map (·.1)).foldl State.swapPoint s
  let s := s.modHub (fun h => { h with
    saved := h.saved.filter (fun v => !seqs.contains v.grp.seq),
    run := h.run.map (fun (l : Launch) => if l.ctx = ctx then { l with killed := true } else l),
    kids := h.kids.map (fun (l : Launch) => if l.ctx = ctx then { l with killed := true } else l),
    born := h.born.filter (fun b => !tids.contains b.1), ended := h.ended.filter (fun e => !tids.contains e.tid),
    hubPend := h.hubPend.filter (fun r => r.ctx != ctx), hubStop := h.hubStop.filter (fun r => r.ctx != ctx) })
  let s := { s with xl := { s.xl with nvqs := s.xl.nvqs.map (fun (q : Nat × Nvq) =>
    (q.1, if fld q.2.ctl 32 16 = ctx ∧ fld q.2.ctl 62 2 ≠ 0 then { q.2 with ctl := setFld q.2.ctl 62 2 3 } else q.2)) } }
  s.killColls ctx
/-- KILL (R378, R384). -/
def execKill (ctx : Nat) (s : State) : Host.Outcome State Fault Refusal := .next (s.killContext ctx)

/-! ## THRACT (R385) -/

/-- An action of the host: cluster, core and slot, context, THRARG; none where it is refused. -/
def State.hostAction (s : State) (act cl core : Nat) (hi : Bool) (ctx : Nat) (arg : Word) : Option State :=
  if act = 4 then some (s.killContext ctx)
  else match (if act = 0 ∨ act = 3 then s.stoppedColl ctx arg else none) with
    | some c => some (s.collAction c act)
    | none =>
      let x := (s.coreAt cl core).slot hi
      if 40 ≤ cl || x.run != .stopped || fld (s.coreAt cl core).ctxid 0 16 != ctx then none
      else match x.stop with
        | none => none
        | some r => ((s.at_ cl core hi).slotAction r act arg).map (fun t => t.at_ s.cl s.co s.hi)
/-- A host write of THRACT (R385): with GO it applies the action; a refusal sets ERR and is an error to the host. -/
def State.thractWrite (s : State) (v : Word) : State :=
  let keep := setFld (setFld (v &&& 0xF000_0000_003F_FFFF) 63 1 0) 59 1 (fld s.hub.thract 59 1)
  if flag v 63 then
    match s.hostAction (fld v 60 3) (fld v 16 6) (fld v 13 3) (flag v 12) (fld v 0 12) s.hub.thrarg with
    | some t => t.modHub (fun h => { h with thract := setFld keep 59 1 0 })
    | none => (s.modHub (fun h => { h with thract := setFld keep 59 1 1 })).emit (.hostError 0x140018)
  else s.modHub (fun h => { h with thract := keep })
/-- A host write of THRARG (R385). -/
def State.thrargWrite (s : State) (v : Word) : State := s.modHub (fun h => { h with thrarg := v })
/-- The host writes THRARG and then THRACT with GO. -/
def hostAct (act cl core slot ctx arg : Nat) (s : State) : Host.Outcome State Fault Refusal :=
  .next ((s.thrargWrite (word arg)).thractWrite
    (word (2 ^ 63 + (act <<< 60) + ((cl % 64) <<< 16) + ((core % 8) <<< 13) + ((slot % 2) <<< 12) + ctx % 4096)))
/-- REPLAY (R384, R446). -/
def execReplay (cl core slot ctx arg : Nat) (s : State) : Host.Outcome State Fault Refusal := hostAct 0 cl core slot ctx arg s
/-- RESUME (R384): arg is the address. -/
def execResume (cl core slot ctx arg : Nat) (s : State) : Host.Outcome State Fault Refusal := hostAct 1 cl core slot ctx arg s
/-- STEP (R384). -/
def execStepOne (cl core slot ctx arg : Nat) (s : State) : Host.Outcome State Fault Refusal := hostAct 2 cl core slot ctx arg s
/-- END (R384, R446). -/
def execEndThread (cl core slot ctx arg : Nat) (s : State) : Host.Outcome State Fault Refusal := hostAct 3 cl core slot ctx arg s

end Sys2Proof.Machine
end

