-- ==== Sys2Proof/Machine/Preempt.lean ====
section
/-! DEFINITION. Pre-emption: the request (R375), the marker drain (R377), the core area (R379, R380), saving and restoring a
group (R371, R372, R376). -/

namespace Sys2Proof.Machine

/-- Whether a binding has its far end in another cluster than cl (R372). -/
def Port.leaves (x : Port) (cl : Nat) : Bool :=
  (x.kind == 5 && decide (2 ≤ x.target)) || (x.kind == 6 && bits x.target 7 6 != cl)
/-- Whether the group of a cluster is pinned (R372). -/
def State.pinned (s : State) (cl : Nat) : Bool :=
  (List.range 8).any (fun co => (s.coreAt cl co).st.port.toList.any (fun x => x.leaves cl))
/-- The group of a cluster that launch l may pre-empt there: its launch's priority number and when it started (R371, R372). -/
def State.prey (s : State) (l : Launch) (cl : Nat) : Option (Nat × Nat) :=
  let k := s.clusAt cl
  if k.preempt || s.pinned cl || !s.wants l cl then none
  else k.group.bind (fun g => (s.launch g.seq).bind (fun v => if l.pri < v.pri then some (v.pri, g.order) else none))
/-- The cluster whose group the hub pre-empts for launch l: of the greatest priority number, then the one that started most
recently (R371). -/
def State.victim (s : State) (l : Launch) : Option Nat :=
  let best := firstBy (fun a b => decide (b.2.1 < a.2.1) || (a.2.1 == b.2.1 && decide (b.2.2 < a.2.2)))
    ((List.range 40).filterMap (fun cl => (s.prey l cl).map (fun v => (cl, v))))
  best.map (·.1)
/-- Whether the hub pre-empts the group of a cluster now: it is the victim of a launch whose next group finds no free allowed
cluster and for which no group is being pre-empted already (R371). -/
def State.hubPreempts (s : State) (cl : Nat) : Bool :=
  s.hub.run.any (fun l =>
    !s.finds l && (List.range 40).all (fun k => !((s.clusAt k).preempt && s.wants l k)) && s.victim l == some cl)
/-- PREEMPT_REQUEST (R371, R372, R375) for cluster `who` modulo 64, from the operating system (`who` is 64 or more) or from the
hub. Every slot of the cluster stops committing and every event latch is set. -/
def execPreemptRequest (who : Nat) (s : State) : Host.Outcome State Fault Refusal :=
  let cl := who % 64
  .next (if (s.clusAt cl).group.isSome && (decide (64 ≤ who) || s.hubPreempts cl) then
    (s.modClusAt cl (fun k => { k with preempt := true })).mapCores cl (fun _ c => c.mapSlots (fun x => { x with latch := true }))
  else s)

/-! ## The marker drain (R377) -/

/-- Whether a node could fire now, or has a failure to report. -/
def State.canFire (s : State) (n : Nat) (x : Node) : Bool :=
  let r := match cfgType x.cfg with
    | 0 => fireScanner n s x
    | 1 => fireJoiner n s x
    | 2 => fireRepeater n s x
    | 3 => fireReducer n s x
    | 4 => fireFunction n s x
    | _ => fireWriter n s x
  match r with
  | .ok _ => true
  | .error (.bad _ _) => true
  | .error _ => false
/-- Whether what feeds an outgoing port of a core has stopped: the nodes that name it are cut, and no macro command writes
it on; a push stops at the token where it stands (R377). -/
def Core.outStopped (c : Core) (p : Nat) : Bool :=
  (c.st.graph.state != .running || c.st.graph.named.all (fun n => n.1 != p || !n.2.2.1
      || (look n.2.1 c.st.graph.nodes).elim true (fun x => x.state != 2 || x.cut || x.done)))
    && c.queue.all (fun e => !(e.under && e.macro))
/-- Whether the marker has come to a port by which flits arrive: each core of the group that sends to it has stopped, and the
flits before the marker have come in, or wait behind a full FIFO (R377, log 78). -/
def State.arrivalStopped (s : State) (cl co p : Nat) : Bool :=
  let x := (s.coreAt cl co).st.port[p]?.getD Port.unbound
  let full := decide (8 ≤ x.fifo.length)
  let idle := fun (c : Core) (q : Nat) => c.outStopped q && (full || (c.st.port[q]?.getD Port.unbound).fifo.isEmpty)
  if x.kind = 5 then
    let far := (List.range 8).filter (fun k => (List.range 4).any (fun l => nbrOf cl k l == some (cl, co, x.target)))
    far.all (fun k => let c := s.coreAt cl k
      (List.range 16).all (fun q => let y := c.st.port[q]?.getD Port.unbound
        !(y.kind == 5 && y.dir == 1 && nbrOf cl k y.target == some (cl, co, x.target)) || idle c q))
      && (full || ((s.coreAt cl co).st.link[x.target]?.getD []).isEmpty)
  else if x.kind = 6 then
    (bits x.target 7 6 != cl || idle (s.coreAt cl (bits x.target 4 3)) (bits x.target 0 4))
      && (full || s.bd.net.all (fun n => !(n.dCl == cl && n.dPort == p && n.dests.contains co && n.sCl == cl
            && x.target == 128 * n.sCl + 16 * n.sCore + n.sPort)))
  else true
/-- Whether an input port of the current core holds a marker (R377): a pattern and a push stop at the element or token where
they stand, the butterfly and array ports at the stop points of their macro commands. -/
def State.portMarked (s : State) (p : Nat) : Bool :=
  let x := s.port p
  if x.kind = 5 ∨ x.kind = 6 then s.arrivalStopped s.cl s.co p
  else if x.kind = 7 ∨ x.kind = 8 then s.core.queue.all (fun e => !(e.under && e.macro))
  else true
/-- NODE_CUT (R377): a node whose inputs all hold a marker and that cannot fire is cut. A node link holds one once the node
that feeds it is cut; a scanner in a root mode is a source itself. -/
def execNodeCut (cl core node : Nat) (s : State) : Host.Outcome State Fault Refusal :=
  onCore cl core (fun s =>
    match look node s.core.st.graph.nodes with
    | none => .ok s
    | some x =>
      let root := cfgType x.cfg == 0 && decide (2 ≤ cfgMode x.cfg)
      let fed := (feeders x.cfg).all (fun f => (s.node f).cut || (s.node f).done)
        && (cfgPorts x.cfg).all (fun q => q.2.1 || s.portMarked q.1)
      if s.clus.preempt && s.core.st.graph.state == .running && x.state == 2 && x.fetch.isNone
          && (root || (fed && !s.canFire node x)) then
        .ok (s.modNode node (fun y => { y with cut := true }))
      else .ok s) s

/-! ## The core area (R379, R380) -/

/-- The image of one entry of the command queue (R380); HELD: its slot is stopped and it has not been dispatched (R384). -/
def Cmd.image (c : Cmd) (held : Bool) : List Byte :=
  let ht := c.ins.encode.getD ⟨0, 0⟩
  leBytes 8 c.addr.toNat ++ leBytes 2 ht.head.toNat ++ leBytes 8 ht.tail.toNat ++ leBytes 2 c.qpos
    ++ leBytes 1 (b2n c.hi + (b2n c.disp <<< 1) + (b2n held <<< 2)) ++ leBytes 3 0 ++ leBytes 8 c.vtype.toNat
    ++ leBytes 2 (if c.pops.isEmpty then c.vl else 0xFFFF) ++ leBytes 4 c.modq ++ leBytes 2 0
    ++ leBytes 8 c.ga.toNat ++ leBytes 8 c.gb.toNat ++ leBytes 8 c.gc.toNat ++ leBytes 8 c.resume ++ leBytes 56 0
/-- Whether an entry of the queue is HELD (R384). -/
def Core.holds (c : Core) (e : Cmd) : Bool := !e.disp && (e.held || (c.slot e.hi).run == .stopped)
/-- What the small registers' area holds (R379). -/
def Core.smallRegs (c : Core) : Vector MReg 8 × Vector (List Nat) 4 × Vector Nat 4 × Word × List Nat × Vector Handle 32 × Word × Word :=
  (c.f.m, c.f.lq, c.f.occ, c.f.modq, c.st.chain, c.h, c.rndseed, c.traceptr)
/-- What a slot's area holds (R379). -/
def Slot.areaWords (x : Slot) : (Vector Word 32 × Nat × Word × Word) × (Word × Word × Word × Word) × List LoopEnt × Word × BitVec 16384
    × List Record × Option Record :=
  ((x.g, x.vl, x.vtype, x.status), (x.cause, x.epc, x.trapvec, x.gang), x.loops, x.pc, x.gens, x.pend, x.stop)
/-- The VP blocks in the queue: each VFETCH's snapshot, and for one that is cut where its VPs stand (R378). -/
def Core.blocks (c : Core) : List (Nat × Vector Word 32 × Option (List (Option Nat))) :=
  c.queue.filterMap (fun e => e.snap.map (fun g => (e.qpos, g, e.block.map (·.pcs))))
/-- The working values of the VP block that is cut, if one is (R378). -/
def Core.cutWork (c : Core) : Option (Vector VReg 32) := (firstSome (fun e => e.block) c.queue).map (·.work)
/-- The record of the VP block (R378, R379): with the values of v0 to v31 from before a VFETCH that is cut. -/
def Core.blockRecord (c : Core) : List (Nat × Vector Word 32 × Option (List (Option Nat))) × Option (Vector VReg 64) :=
  (c.blocks, c.cutWork.map (fun _ => c.f.v))
/-- What a cluster's header holds (R375). -/
def Cluster.header (k : Cluster) : Vector (List Word) 56 × List Offer × List Gang × Nat × Option Group :=
  (k.stq, k.offers, k.gangs, k.dropped, k.group)
/-- Byte `off` of a core's area; the parts whose inner layout R379 does not give are free bytes of what they hold (log 24).
`view` is the debug view, in which the area of a slot that is not stopped at a record reads as zero (R385) and the vector
registers stand as the core holds them. -/
def Core.areaByte (c : Core) (view : Bool) (off : Nat) : Byte :=
  let at_ := fun {n : Nat} (x : BitVec n) (i : Nat) => BitVec.ofNat 8 (x.toNat >>> (8 * i))
  let slot := fun (x : Slot) (o : Nat) => if view && x.stop.isNone then 0 else Config.areaByte x.areaWords o
  let vr := fun (i : Nat) => ((if view then none else c.cutWork).bind (fun w => w[i]?)).getD (c.f.v[i]?.getD 0)
  if off < 0x80000 then c.w.get off
  else if off < 0xE0000 then c.a.get (off - 0x80000)
  else if off < 0x100000 then c.c.get (off - 0xE0000)
  else if off < 0x130000 then at_ (c.f.a[(off - 0x100000) / 49152]?.getD 0) ((off - 0x100000) % 49152)
  else if off < 0x138000 then at_ (vr ((off - 0x130000) / 512)) (off % 512)
  else if off < 0x139000 then at_ (c.f.k[(off - 0x138000) / 256]?.getD 0) (off % 256)
  else if off < 0x13B000 then at_ (c.f.w[(off - 0x139000) / 1024]?.getD 0) (off % 1024)
  else if off < 0x13C000 then Config.areaByte c.smallRegs (off - 0x13B000)
  else if off < 0x13E000 then slot c.s0 (off - 0x13C000)
  else if off < 0x140000 then slot c.s1 (off - 0x13E000)
  else if off < 0x148000 then
    (match c.queue[(off - 0x140000) / 128]? with
     | some e => nthD 0 (e.image (c.holds e)) (off % 128)
     | none => 0)
  else if off < 0x158000 then Config.areaByte (c.st.graph, c.st.port, c.st.pat) (off - 0x148000)
  else if off < 0x160000 then Config.areaByte c.blockRecord (off - 0x158000)
  else if off < 0x168000 then at_ ((look ((off - 0x160000) / 32) c.trace).getD 0) (off % 32)
  else 0
/-- Bytes of a core's area that are written. -/
def areaUsed : Nat := 0x168000
/-- The physical address of core co's area in a group area. -/
def coreArea (area co : Nat) : Nat := area + 0x10000 + 0x1D0000 * co
/-- A queue entry with what its image at address b gives it (R376, R380). -/
def Cmd.fromImage (e : Cmd) (m : Mem) (b : Nat) : Cmd :=
  let rd := fun (off n : Nat) => m.read (b + off) n
  { e with
    qpos := rd 18 2, hi := bitOf (rd 20 1) 0, disp := bitOf (rd 20 1) 1, held := bitOf (rd 20 1) 2 || (e.disp && e.held),
    vtype := word (rd 24 8), vl := if rd 32 2 = 0xFFFF then e.vl else rd 32 2, modq := rd 34 4,
    ga := word (rd 40 8), gb := word (rd 48 8), gc := word (rd 56 8), resume := rd 64 8, paused := false }
/-- A core with the parts of its area that R379 lays out read back from memory; the vector registers of a cut VP block are
its working values (R378). -/
def Core.fromArea (c : Core) (m : Mem) (b : Nat) : Core :=
  let rd := fun (n off len : Nat) => BitVec.ofNat n (m.read (b + off) len)
  let v := Vector.ofFn (fun (i : Fin 64) => rd 4096 (0x130000 + 512 * i) 512)
  let cut := c.cutWork.isSome
  let queue := c.queue.zipIdx.map (fun (e : Cmd × Nat) =>
    let e := e.1.fromImage m (b + 0x140000 + 128 * e.2)
    { e with block := e.block.map (fun k => { k with work := Vector.ofFn (fun (i : Fin 32) => v[i.val]) }) })
  { c with
    w := m.slice b 0x80000, a := m.slice (b + 0x80000) 0x60000, c := m.slice (b + 0xE0000) 0x20000,
    queue := queue,
    f := { c.f with
      a := Vector.ofFn (fun (i : Fin 4) => rd 393216 (0x100000 + 49152 * i) 49152),
      v := Vector.ofFn (fun (i : Fin 64) => if cut && decide (i.val < 32) then c.f.v[i] else v[i]),
      k := Vector.ofFn (fun (i : Fin 16) => rd 2048 (0x138000 + 256 * i) 256),
      w := Vector.ofFn (fun (i : Fin 8) => rd 8192 (0x139000 + 1024 * i) 1024) },
    trace := c.trace.map (fun (e : Nat × BitVec 256) => (e.1, rd 256 (0x160000 + 32 * e.1) 32)) }

/-! ## Saving and restoring (R372, R375, R376) -/

/-- Whether core co of a cluster has come to its stop (R287, R375, R377): its copies have run to completion, its macro
commands have stopped, no return-free operation is in flight, and of a running graph every node is cut, no read is
outstanding and every arriving port holds its marker. -/
def State.coreStopped (s : State) (cl co : Nat) : Bool :=
  let c := s.coreAt cl co
  c.s0.rfout == 0 && c.s1.rfout == 0
    && c.queue.all (fun e => !(e.disp && !e.done && !e.faulted && (e.eng == .copy || (e.macro && !e.paused))))
    && (c.st.graph.state != .running ||
        (c.st.graph.nodes.all (fun n => (n.2.state != 2 || n.2.cut || n.2.done) && n.2.fetch.isNone)
          && (List.range 16).all (fun p => let x := c.st.port[p]?.getD Port.unbound
              !((x.kind == 5 || x.kind == 6) && x.dir == 0) || s.arrivalStopped cl co p)))
/-- A core that a saved group leaves. -/
def Core.leave (c : Core) : Core :=
  { c with s0 := Slot.fresh false, s1 := Slot.fresh true, queue := [], launch := 0, st := { Streams.fresh with owed := c.st.owed } }
/-- A record of a failed save-area access for the current slot, whose cause the spec does not name (R383). -/
def State.areaFault (s : State) : State :=
  if s.slot.run = .vacant then s
  else
    let (v, s) := s.fresh
    let r := { s.mkRecord { code := v % 256, sub := v / 256 % 256 } s.slot.pc false 0 with fatal := true }
    s.modSlot (fun x => { x with run := .stopped, pend := x.pend ++ [r] })
/-- A save-area access of a group has failed: one record for each of its slots (R383); the group stays where it is. -/
def State.groupFault (s : State) (cl : Nat) : State :=
  ((places.foldl (fun s p => s.on cl p.1 p.2 (fun t => t.areaFault)) s).modClusAt cl (fun k => { k with preempt := false })).mapCores cl
    (fun _ c => { c with queue := c.queue.map (fun (e : Cmd) => { e with paused := false }) })
/-- GROUP_SAVE (R375, R379): the group of a cluster that has come to its stop is written to a group area, at a physical
address, and the cluster is free. Its stores have been released at device scope. -/
def State.saveGroup (s : State) (cl area : Nat) (g : Group) : State :=
  let s := s.releaseAll 3 [cl]
  let cores := (List.range 8).map (fun co => s.coreAt cl co)
  let own := fun (n : NetFlit) => n.sCl == cl && n.dCl == cl
  let m := s.mem.writeList area ((List.range 0x10000).map (Config.areaByte (s.clusAt cl).header))
  let m := (List.range 8).foldl (fun m co =>
    Mem.writeList m (coreArea area co) ((List.range areaUsed).map ((s.coreAt cl co).areaByte false))) m
  let e : Saved := { grp := g, cl := cl, pinned := s.pinned cl, area := area, clus := s.clusAt cl, cores := cores,
                     net := s.bd.net.filter own }
  let s := { s with mem := m }.modBd (fun b => { b with net := b.net.filter (fun n => !own n) })
  ((s.modHub (fun h => { h with saved := h.saved ++ [e] })).mapCores cl (fun _ c => c.leave)).vacate cl
/-- An error in a save-area transfer at a physical address: the log and the test of its unit (R423). -/
def State.areaEcc (s : State) (cl area : Nat) : State :=
  (s.logUnit 4 0 area (fld (s.coreAt cl 0).ctxid 0 16)).startTest 0 area
/-- GROUP_SAVE (R375, R379, R383) of the group of cluster `who` modulo 64, into an area aligned to 64 KiB; with `who` 64 or more a
transfer meets an uncorrectable error, and beyond memory it fails too. -/
def execGroupSave (who area : Nat) (s : State) : Host.Outcome State Fault Refusal :=
  let cl := who % 64
  .next (match (s.clusAt cl).group with
    | some g =>
      if (s.clusAt cl).preempt && area % 65536 == 0 && (List.range 8).all (fun co => s.coreStopped cl co) then
        (if 64 ≤ who then (s.groupFault cl).areaEcc cl area
         else if s.hbm < area + 0x10000 + 0x1D0000 * 8 then s.groupFault cl else s.saveGroup cl area g)
      else s
    | none => s)
/-- A number of a core, or of a flit's cluster, after the group has moved. -/
def moved (old new cl : Nat) : Nat := if cl = old then new else cl
/-- A flit after its group has moved: the core charged for it. -/
def Flit.move (f : Flit) (old new : Nat) : Flit := { f with src := 8 * moved old new (f.src / 8) + f.src % 8 }
/-- Streams after their group has moved: bindings to the group's own cluster, and charges. -/
def Streams.move (t : Streams) (old new : Nat) : Streams :=
  let fl := fun (l : List Flit) => l.map (fun f => f.move old new)
  { t with
    port := t.port.map (fun x =>
      { x with fifo := fl x.fifo,
               target := if x.kind = 6 ∧ bits x.target 7 6 = old then x.target % 128 + 128 * new else x.target }),
    link := t.link.map fl,
    owed := t.owed.map (fun (o : Nat × Nat) => (8 * moved old new (o.1 / 8) + o.1 % 8, o.2)),
    graph := { t.graph with nodes := t.graph.nodes.map (fun (n : Nat × Node) =>
      (n.1, { n.2 with cut := false, ins := n.2.ins.map fl })) } }
/-- A slot as it is restored: it fetches afresh. -/
def Slot.restored (x : Slot) : Slot := { x with lines := [], badLines := [] }
/-- A flit of the die network after its group has moved. -/
def NetFlit.move (n : NetFlit) (old new : Nat) : NetFlit :=
  { n with flit := n.flit.move old new, sCl := moved old new n.sCl, dCl := moved old new n.dCl, at_ := moved old new n.at_ }
/-- A saved group is read back onto a cluster. -/
def State.restoreGroup (s : State) (cl : Nat) (v : Saved) : State :=
  let s := (List.range 8).foldl (fun s co =>
    match v.cores[co]? with
    | none => s
    | some c =>
      let now := s.coreAt cl co
      let c := (c.fromArea s.mem (coreArea v.area co)).mapSlots Slot.restored
      let st := c.st.move v.cl cl
      s.setCoreAt cl co { c with own := now.own, tlb := [], st := { st with owed := now.st.owed ++ st.owed } }) s
  let s := s.modClusAt cl (fun k => { k with
    group := v.clus.group, stq := v.clus.stq, stqAt := v.clus.stqAt, dropped := v.clus.dropped, shut := v.clus.shut,
    closed := v.clus.closed, offers := v.clus.offers, gangs := v.clus.gangs, preempt := false })
  let s := s.modBd (fun b => { b with net := b.net ++ v.net.map (fun n => n.move v.cl cl) })
  (s.modHub (fun h => { h with saved := dropFirst (fun w => w == v) h.saved })).modLaunch v.grp.seq
    (fun l => { l with ran := if l.ran.contains cl then l.ran else cl :: l.ran })
/-- GROUP_RESTORE (R371, R372, R376, R383): the saved group `index` on the free cluster `who` modulo 64, for which its launch ranks
first; with `who` 64 or more a read of its area meets an uncorrectable error. -/
def execGroupRestore (who index : Nat) (s : State) : Host.Outcome State Fault Refusal :=
  let cl := who % 64
  .next (match s.hub.saved[index]? with
    | none => s
    | some v =>
      match s.launch v.grp.seq with
      | none => s
      | some l =>
        if (s.clusAt cl).group.isNone && s.firstFor l cl && (!v.pinned || cl == v.cl) then
          (let t := s.restoreGroup cl v; if 64 ≤ who then (t.groupFault cl).areaEcc cl v.area else t)
        else s)

end Sys2Proof.Machine
end

