-- ==== Sys2Proof/Machine/Xlate.lean ====
section
/-! DEFINITION. Invalidation, QUIESCE and the husk queue (R395 to R400), context registers (R408), peer accesses that arrive
(R404 to R406), NVMe queue pairs with SQPOST and CQPOLL (R271, R410 to R415). -/

namespace Sys2Proof.Machine

/-- The state with the hub's translation part changed. -/
def State.modXl (s : State) (f : HubXlate → HubXlate) : State := { s with xl := f s.xl }

/-! ## Invalidation (R397) -/

/-- The fields of TLBINV that a write sets (R400). -/
def tlbinvMask : Word := 0xF03F_FFFF_FFFF_FFF0
/-- A host write of TLBINV (R397, R400): ignored while BUSY; with GO and a reserved KIND it starts nothing. -/
def State.tlbinvWrite (s : State) (v : Word) : State :=
  if flag s.xl.tlbinv 63 || (flag v 63 && decide (4 < fld v 60 3)) then s
  else s.modXl (fun x => { x with tlbinv := v &&& tlbinvMask })
/-- Whether an invalidation covers an entry of a TLB. -/
def TlbEnt.covered (e : TlbEnt) (v : Word) : Bool :=
  let kind := fld v 60 3
  let size := pageSize kind
  let va := fld v 16 38 * 2 ^ 16 / size * size
  kind == 4 || (e.ctx == fld v 4 12 && (kind == 3 || overlap e.va e.size va size))
/-- Every dirty byte of every cluster cache reaches its home (R397). -/
def State.flushAll (s : State) : State :=
  let s := (s.on 0 0 false State.flushDie).on 20 0 false State.flushDie
  let s := (s.clusters.map (·.1)).foldl (fun s k => s.on k 0 false (fun t => t.flushClus false)) s
  let p := s.peer
  ({ s with peer := [] }).toHome p
/-- The end of an invalidation (R397). -/
def State.tlbinvEnd (s : State) : State :=
  let v := s.xl.tlbinv
  if flag v 63 then
    let keep := fun (l : List TlbEnt) => l.filter (fun e => !e.covered v)
    let s := { s with cores := s.cores.map (fun (p : Nat × Core) => (p.1, { p.2 with tlb := keep p.2.tlb })),
                      clusters := s.clusters.map (fun (p : Nat × Cluster) => (p.1, { p.2 with tlb := keep p.2.tlb })) }
    s.flushAll.modXl (fun x =>
      { x with tlb := keep x.tlb, age := (x.age + 1) % 2 ^ 48, tlbinv := setFld x.tlbinv 63 1 0 })
  else s
/-- The word of TLBINV with GO. -/
def tlbinvWord (kind ctx va : Nat) : Word :=
  word (2 ^ 63 + (kind <<< 60) + ((va / 2 ^ 16 % 2 ^ 38) <<< 16) + ((ctx % 4096) <<< 4))
/-- TLBINV_PAGE_64K (R397). -/
def execTlbinvPage64k (ctx va : Nat) (s : State) : Host.Outcome State Fault Refusal := .next (s.tlbinvWrite (tlbinvWord 0 ctx va))
/-- TLBINV_PAGE_128M (R397). -/
def execTlbinvPage128m (ctx va : Nat) (s : State) : Host.Outcome State Fault Refusal := .next (s.tlbinvWrite (tlbinvWord 1 ctx va))
/-- TLBINV_PAGE_256G (R397). -/
def execTlbinvPage256g (ctx va : Nat) (s : State) : Host.Outcome State Fault Refusal := .next (s.tlbinvWrite (tlbinvWord 2 ctx va))
/-- TLBINV_CONTEXT (R397). -/
def execTlbinvContext (ctx : Nat) (s : State) : Host.Outcome State Fault Refusal := .next (s.tlbinvWrite (tlbinvWord 3 ctx 0))
/-- TLBINV_ALL (R397). -/
def execTlbinvAll (s : State) : Host.Outcome State Fault Refusal := .next (s.tlbinvWrite (tlbinvWord 4 0 0))
/-- TLBINV_DONE (R397). -/
def execTlbinvDone (s : State) : Host.Outcome State Fault Refusal := .next s.tlbinvEnd

/-! ## QUIESCE and the husk queue (R398 to R400) -/

/-- The tags of the accesses in flight (R398). -/
def State.tags (s : State) : List Nat :=
  (s.cores.filterMap (fun p => if p.2.own.isEmpty then none else some p.2.ownAge))
    ++ s.clusters.filterMap (fun p => if p.2.dirty.isEmpty then none else some p.2.dirtyAge)
    ++ (if s.die0.isEmpty then [] else [s.dieAge0]) ++ (if s.die1.isEmpty then [] else [s.dieAge1])
    ++ (if s.peer.isEmpty then [] else [s.peerAge])
    ++ s.bd.ops.filterMap (fun o => if o.acked then none else some o.tag)
    ++ s.ex.colls.filterMap (fun c => if c.fin then none else some c.tag)
/-- QUIESCE (R398). -/
def State.quiesce (s : State) : Nat := s.tags.foldl min s.xl.age
/-- A host write of HUSKIN (R399). -/
def State.huskIn (s : State) (v : Word) : State :=
  s.modXl (fun x =>
    if 4096 ≤ x.husk.length then { x with huskRef := true }
    else { x with husk := x.husk ++ [(v &&& 0x000F_FFFF_FFFF_0003, x.age)] })
/-- A read of HUSKOUT (R399). -/
def State.huskOut (s : State) : Word × State :=
  match s.xl.husk with
  | (f, stamp) :: r => if stamp ≤ s.quiesce then (setFld f 63 1 1, s.modXl (fun x => { x with husk := r })) else (0, s)
  | [] => (0, s)
/-- HUSKIN (R399). -/
def execHuskin (value : Nat) (s : State) : Host.Outcome State Fault Refusal := .next (s.huskIn (word value))
/-- HUSKOUT (R399). -/
def execHuskout (s : State) : Host.Outcome State Fault Refusal := .next (s.huskOut.2.emit (.readReply s.huskOut.1.toNat))
/-- HUSKSTAT (R400). -/
def State.huskStat (s : State) : Word := word ((b2n s.xl.huskRef <<< 63) + s.xl.husk.length)

/-! ## Context registers and export windows (R405, R408) -/

/-- A host write of CTXTABn (R408): VALID is not cleared while a launch of the context runs. -/
def State.ctxWrite (s : State) (n : Nat) (v : Word) : State :=
  let old := (look n s.xl.ctxtab).getD 0
  if flag old 63 && !flag v 63 && s.hub.run.any (fun l => l.ctx == n) then s.emit (.hostError (0x100000 + 8 * n))
  else s.modXl (fun x => { x with ctxtab := put n (v &&& 0x800F_FFFF_FFFF_FF00) x.ctxtab })
/-- A host write of a word of an export window: 2n the low word, 2n + 1 the high word (R405). -/
def State.pxwWrite (s : State) (i : Nat) (v : Word) : State :=
  s.modXl (fun x => { x with pxw := put i (v &&& (if i % 2 = 0 then 0xFF0F_FFFF_FFFF_0000 else 0x000F_FFFF_FFFF_0000)) x.pxw })
/-- Whether a window of this package admits an access of n bytes from a port: 0 read, 1 write, 2 atomic, 3 return-free (R405). -/
def State.admits (s : State) (port a n kind : Nat) : Bool :=
  (List.range 64).any (fun w =>
    let lo := (look (2 * w) s.xl.pxw).getD 0
    let hi := (look (2 * w + 1) s.xl.pxw).getD 0
    flag lo 63 && fld lo 56 4 == port && decide (fld lo 16 36 * 2 ^ 16 ≤ a) && decide (a + n ≤ (fld hi 16 36 + 1) * 2 ^ 16)
      && (match kind with
          | 0 => flag lo 60
          | 1 => flag lo 61
          | 2 => flag lo 62
          | _ => flag lo 62 && flag lo 61))
/-- Both hubs count one access that a peer has refused (R406). -/
def State.peerReject (s : State) : State := s.modXl (fun x => { x with peerRej := (x.peerRej + 1) % 2 ^ 64 })
/-- PEER_ACCESS_ARRIVE (R405, R406): `kind` modulo 4 is 0 read, 1 write, 2 atomic, 3 return-free, and kind / 4 the
operation of R110; the compare value stands above bit 63 of `data`. -/
def execPeerAccessArrive (port kind addr size data : Nat) (s : State) : Host.Outcome State Fault Refusal :=
  let k := kind % 4
  let s := s.modXl (fun x => { x with crc := drop port x.crc })
  if s.admits port addr size k then
    if s.hbm < addr + size then .fault .physicalHole
    else .next (match k with
      | 0 => s.emit (.peerReply true (s.mem.read addr size))
      | 1 => ({ s with mem := s.mem.write addr data size }).emit (.peerReply true 0)
      | _ =>
        match (s.fillLine (addr / 64)).bd.entry (addr / 64) true s.time with
        | none => s
        | some b =>
        let s := { s.fillLine (addr / 64) with bd := b }
        let old := s.mem.read addr size
        let new := amoNew (kind / 4) (8 * size) old (data % 2 ^ 64) (data / 2 ^ 64)
        ({ s with mem := s.mem.write addr new size }).emit (.peerReply true (if k = 2 then old else 0)))
  else .next (if k = 0 ∨ k = 2 then s.emit (.peerReply false 0)
    else (s.peerReject).emit (.peerReply false 0))

/-! ## NVMe queue pairs (R411 to R415) -/

/-- Pair n. -/
def State.nvq (s : State) (n : Nat) : Nvq := (look n s.xl.nvqs).getD Nvq.fresh
/-- Pair n replaced. -/
def State.setNvq (s : State) (n : Nat) (q : Nvq) : State := s.modXl (fun x => { x with nvqs := put n q x.nvqs })
/-- STATE. -/
def Nvq.st (q : Nvq) : Nat := fld q.ctl 62 2
/-- RP. -/
def Nvq.rp (q : Nvq) : Nat := fld q.ctl 60 2
/-- CTXID. -/
def Nvq.ctx (q : Nvq) : Nat := fld q.ctl 32 16
/-- QID. -/
def Nvq.qid (q : Nvq) : Nat := fld q.ctl 16 16
/-- Entries of each ring. -/
def Nvq.size (q : Nvq) : Nat := 2 ^ fld q.ctl 52 4
/-- SQF. -/
def Nvq.sqf (q : Nvq) : Nat := fld q.stat 32 16
/-- SQT. -/
def Nvq.sqt (q : Nvq) : Nat := fld q.stat 16 16
/-- CQH. -/
def Nvq.cqh (q : Nvq) : Nat := fld q.stat 0 16
/-- EP. -/
def Nvq.ep (q : Nvq) : Bool := flag q.stat 48
/-- The address of doorbell i of the drive's queue: 0 the tail, 1 the head (R413). -/
def Nvq.bell (q : Nvq) (i : Nat) : Nat := (q.db.toNat + (2 * q.qid + i) * (4 <<< fld q.ctl 12 4)) % 2 ^ 64
/-- The interrupt source of a pair. -/
def nvqIrq (n : Nat) : Nat := 0x200000 + 64 * n
/-- A pair halts at an address (R412, R413). -/
def State.nvqHalt (s : State) (n a : Nat) : State :=
  (s.setNvq n { s.nvq n with ctl := setFld (s.nvq n).ctl 62 2 2, flt := word a }).irq (nvqIrq n)
/-- The shadow ring of pair n in the SHDBASE region. -/
def State.shadow (s : State) (n : Nat) : Nat := s.xl.shdbase.toNat + 2 ^ 18 * n
/-- The entries from SQF on are copied to the shadow ring (R413); a read that faults halts the pair. -/
def State.nvqCopy (n : Nat) : Nat → State → M State
  | 0, s => .ok s
  | k + 1, s =>
    let q := s.nvq n
    if q.sqf = q.sqt then .ok s
    else
      let a := q.sq.toNat + 64 * q.sqf
      match s.hubRead q.ctx a 64 with
      | .error _ => .ok ((s.hubDrop q.ctx a .rd).nvqHalt n a)
      | .ok (bs, s) =>
        let d := s.shadow n + 64 * q.sqf
        if s.hbm < d + 64 then .error (.fault .physicalHole)
        else
          let q := { q with stat := setFld q.stat 32 16 ((q.sqf + 1) % q.size), open_ := q.open_ + 1 }
          State.nvqCopy n k (({ s with mem := s.mem.writeList d bs }).setNvq n q)
/-- FORWARDING (R413): the entries SQF to SQT − 1, then the tail doorbell with the new SQF. -/
def State.nvqForward (s : State) (n : Nat) : M State := do
  let f := (s.nvq n).sqf
  let s ← State.nvqCopy n 4096 s
  let q := s.nvq n
  pure (if q.sqf = f then s else s.emit (.doorbell q.rp (q.bell 0) q.sqf))
/-- What R411 asks of a pair before it starts. -/
def State.nvqFit (s : State) (q : Nvq) : Bool :=
  let l := fld q.ctl 52 4
  decide (1 ≤ l) && decide (l ≤ 12) && decide (1 ≤ q.qid) && s.ctxValid q.ctx && q.sq.toNat % 4096 == 0 && q.cq.toNat % 4096 == 0
/-- A pair in state 11 returns to 00 (R415), when every forwarded command has its completion entry or the host asks. -/
def State.nvqGone (s : State) (n : Nat) (byHost : Bool) : State :=
  let q := s.nvq n
  if q.st == 3 && (byHost || q.open_ == 0) then (s.setNvq n { q with ctl := setFld q.ctl 62 2 0 }).irq (nvqIrq n) else s
/-- A host write of NVQn.CTL (R411, R413, R415). -/
def State.nvqCtl (s : State) (n : Nat) (v : Word) : M State :=
  let q := s.nvq n
  let w := fld v 62 2
  match q.st with
  | 0 =>
    let q := { q with ctl := v &&& 0x30F0_FFFF_FFFF_F000 }
    .ok (s.setNvq n (if w = 1 ∧ s.nvqFit q then { q with ctl := setFld q.ctl 62 2 1, stat := Nvq.fresh.stat, open_ := 0 }
      else if w = 3 then { q with ctl := setFld q.ctl 62 2 3 } else q))
  | 1 => .ok (if w = 3 then s.setNvq n { q with ctl := setFld q.ctl 62 2 3 } else s)
  | 2 =>
    if w = 1 then (s.setNvq n { q with ctl := setFld q.ctl 62 2 1 }).nvqForward n
    else .ok (if w = 3 then s.setNvq n { q with ctl := setFld q.ctl 62 2 3 } else s)
  | _ => .ok (if w = 0 then s.nvqGone n true else s)
/-- A host write of SQ, CQ or DB of a pair, words 1 to 3: only while it is disabled (R411). -/
def State.nvqAddr (s : State) (n i : Nat) (v : Word) : State :=
  let q := s.nvq n
  if q.st = 0 then
    s.setNvq n (match i with
      | 1 => { q with sq := word (v.toNat % 2 ^ 53) }
      | 2 => { q with cq := word (v.toNat % 2 ^ 53) }
      | _ => { q with db := v })
  else s
/-- A host write of SHDBASE (R400). -/
def State.shdWrite (s : State) (v : Word) : State :=
  if s.xl.nvqs.all (fun p => p.2.st == 0) then s.modXl (fun x => { x with shdbase := v &&& 0x000F_FFFF_F000_0000 }) else s
/-- A meaning of a host write: it takes no trap. -/
def hostStep (m : M State) (s : State) : Host.Outcome State Fault Refusal :=
  match m with
  | .ok t => .next t
  | .error (.fault f) => .fault f
  | .error (.refuse r) => .refused r
  | .error _ => .next s
/-- NVQ_START (R411): the host writes CTL with STATE 01. -/
def execNvqStart (pair value : Nat) (s : State) : Host.Outcome State Fault Refusal :=
  hostStep (if pair < 1024 then s.nvqCtl pair (setFld (word value) 62 2 1) else .ok s) s
/-- NVQ_DESTROY (R415): the host writes STATE 11. -/
def execNvqDestroy (pair : Nat) (s : State) : Host.Outcome State Fault Refusal :=
  hostStep (if pair < 1024 then s.nvqCtl pair (setFld (s.nvq pair).ctl 62 2 3) else .ok s) s
/-- NVQ_DESTROY_DONE (R415). -/
def execNvqDestroyDone (pair byHost : Nat) (s : State) : Host.Outcome State Fault Refusal := .next (s.nvqGone pair (byHost != 0))

/-! ## Drive accesses (R412, R414) -/

/-- A drive access is refused (R412): REJ rises, and a read receives Unsupported Request. -/
def State.driveRefuse (s : State) (n : Nat) (write : Bool) : State :=
  let q := s.nvq n
  let s := s.setNvq n { q with stat := setFld q.stat 49 15 (min 32767 (fld q.stat 49 15 + 1)) }
  if write then s else s.emit (.driveReply false 0)
/-- The pieces of a range of bytes that lie each inside one 64 KiB page. -/
def pagePieces : Nat → Nat → Nat → List (Nat × Nat)
  | 0, _, _ => []
  | k + 1, a, n =>
    if n = 0 then []
    else
      let m := min n (2 ^ 16 - a % 2 ^ 16)
      (a, m) :: pagePieces k (a + m) (n - m)
/-- The places of the pieces, or the address and cause of the first that fails R392 or that a peer refuses (R406). -/
def State.drivePlaces (ctx kind : Nat) : List (Nat × Nat) → State → Except (Nat × Nat × Nat) (List (Nat × Nat) × State)
  | [], s => .ok ([], s)
  | (a, m) :: r, s =>
    match s.xlateHub ctx a (if kind = 0 then .rd else .wr) with
    | .error (c, sub, _) => .error (a, c, sub)
    | .ok (.mem loc, s) =>
      if peerBase ≤ loc && !s.peerAdmits loc m kind then .error (a, 0x07, 0x07)
      else do
        let (l, s) ← State.drivePlaces ctx kind r s
        pure ((loc, m) :: l, s)
    | .ok _ => .error (a, 0x07, 0x06)
/-- Bytes written at the places, in order. -/
def State.drivePut : List (Nat × Nat) → List Byte → State → State
  | [], _, s => s
  | (loc, m) :: r, bs, s => State.drivePut r (bs.drop m) (s.hubPut loc (bs.take m))
/-- Completion entries whose last byte a drive write of n bytes at an address covers: the commands are complete, and the
event latches of the context's slots are set (R129, R415). -/
def State.noteEntries (s : State) (n va size : Nat) : State :=
  let q := s.nvq n
  let k := countBelow (fun i => decide (va ≤ q.cq.toNat + 16 * i + 15) && decide (q.cq.toNat + 16 * i + 15 < va + size)) q.size
  if k = 0 then s
  else
    let s := s.setNvq n { q with open_ := q.open_ - k }
    { s with cores := s.cores.map (fun (p : Nat × Core) => (p.1, if fld p.2.ctxid 0 16 = q.ctx then
        p.2.mapSlots (fun x => { x with latch := true }) else p.2)) }
/-- DRIVE_ACCESS (R412 to R414): a read or write by the drive at root port `port` of `size` bytes at a bus address; over a port
that is down nothing comes (R423). -/
def execDriveAccess (port addr size write data : Nat) (s : State) : Host.Outcome State Fault Refusal :=
  if port < 4 && !flag s.xl.rootUp port then .next s
  else
  let s := s.modXl (fun x => { x with crc := drop (16 + port) x.crc })
  let n := addr / 2 ^ 54 % 1024
  let va := addr % 2 ^ 53
  let wr := write != 0
  let q := s.nvq n
  if q.st = 0 ∨ q.rp ≠ port ∨ 2 ^ 53 < va + size then .next (s.driveRefuse n wr)
  else if bitOf addr 53 then
    if wr || decide (64 * q.size < va + size) then .next (s.driveRefuse n wr)
    else if s.hbm < s.shadow n + va + size then .fault .physicalHole
    else .next (s.emit (.driveReply true (s.mem.read (s.shadow n + va) size)))
  else .next (match s.drivePlaces q.ctx (b2n wr) (pagePieces (size + 1) va size) with
    | .error (a, c, sub) =>
      let s := s.driveRefuse n wr
      if c = 0x07 ∧ sub = 0x07 then (if wr then s.peerReject else s) else (s.hubDrop q.ctx a (if wr then .wr else .rd)).nvqHalt n a
    | .ok (l, s) =>
      if wr then (State.drivePut l (leBytes size data) s).noteEntries n va size
      else s.emit (.driveReply true (leNat (l.flatMap (fun p => s.hubBytes p.1 p.2)))))

/-! ## SQPOST and CQPOLL (R271) -/

/-- The checks of SQPOST and CQPOLL, in the order of R164: the operand values, the owner, the state. -/
def State.nvqCheck (s : State) (n : Nat) (fits : Bool) : M Unit := do
  need (decide (n < 1024) && fits) (Trap.opnd 0x04) s
  need ((s.nvq n).st != 0 && (s.nvq n).ctx == fld s.core.ctxid 0 16) (Trap.perm 0x02) s
  need ((s.nvq n).st == 1) (Trap.opnd 0x07) s
/-- SQPOST (R271, R413). -/
def execSqpost (o : OpA2) (s : State) : Host.Outcome State Fault Refusal :=
  let n := (s.g o.a).toNat
  let t := (s.g o.b).toNat
  commit s (fun s => do
    s.nvqCheck n (decide (t < (s.nvq n).size))
    let s ← phaseAct 4 s
    let q := s.nvq n
    let s ← (s.setNvq n { q with stat := setFld q.stat 16 16 t }).nvqForward n
    pure (s.setG o.d (word q.sqt)))
/-- CQPOLL (R271, R413, R414). -/
def execCqpoll (o : OpA2) (s : State) : Host.Outcome State Fault Refusal :=
  let n := (s.g o.a).toNat
  let b := (s.g o.b).toNat
  commit s (fun s => do
    s.nvqCheck n (decide (b ≤ 1))
    let q := s.nvq n
    let va := q.cq.toNat + 16 * q.cqh
    let (p, s) ← s.xlate va .rd .other
    match p with
    | .mem loc =>
      need (decide (loc < peerBase) || s.peerAdmits loc 16 0) (xlTrap 0x07 0x07 va .rd 0) s
      if bitOf (s.hubByte (loc + 14)).toNat 0 == q.ep then
        let s := s.acquire
        let h := (q.cqh + 1) % q.size
        let stat := setFld q.stat 0 16 h
        let stat := if h = 0 then setFld stat 48 1 (b2n (!q.ep)) else stat
        let s := if b = 1 then (s.setNvq n { q with stat := stat }).emit (.doorbell q.rp (q.bell 1) h) else s
        pure (s.setG o.d (word (2 ^ 63 + q.cqh)))
      else pure (s.setG o.d (word q.cqh))
    | _ => .error (.trap (xlTrap 0x07 0x06 va .rd 0) s))

end Sys2Proof.Machine
end

