-- ==== Sys2Proof/Machine/Errors.lean ====
section
/-! DEFINITION. Errors, self-test, repair, background work, telemetry (R423 to R432). -/

namespace Sys2Proof.Machine

/-! ## The error log (R426) -/

/-- A host write of ELGIDX (R426): CONS moves over records that stand in the ring, and LOST is cleared by a 0. -/
def State.elgWrite (s : State) (v : Word) : State :=
  let i := s.er.elgidx
  let n := (elgCons v + 1024 - elgCons i) % 1024
  let j := if n ≤ elgOcc i then setFld (setFld i 16 10 (elgCons v)) 32 11 (elgOcc i - n) else i
  s.modEr (fun e => { e with elgidx := if elgLost v = 0 then setFld j 48 16 0 else j })
/-- ELG_CONSUME (R426): the host writes ELGIDX. -/
def execElgConsume (value : Nat) (s : State) : Host.Outcome State Fault Refusal := .next (s.elgWrite (word value))

/-! ## Zero-fill and charging (R423 to R425) -/

/-- What a slot's view holds of a line that comes from the home reads as zero from now on. -/
def State.zeroViews (s : State) (line : Nat) : State :=
  let home := fun (a : Nat) => a / 64 == line && (s.core.own.get? a).isNone && (s.clus.dirty.get? a).isNone
    && ((s.dieOf s.cl).get? a).isNone
  let f := fun (x : Slot) => { x with view := x.view.map (fun c => if home c.1 then (c.1, (0 : Byte)) else c) }
  s.modCore (fun c => { c with s0 := f c.s0, s1 := f c.s1 })
/-- ZERO-FILL of the stored unit at a location, found by an access of the current core (R424): older bytes of a dirty line that
wait at the die's and the device's points are zeros too. -/
def State.zeroFill (s : State) (unit loc : Nat) : State :=
  match unit with
  | 0 => if loc < s.hbm then ({ s with mem := s.mem.write (loc / 64 * 64) 0 64 }).zeroViews (loc / 64) else s
  | 1 =>
    let line := loc / 64
    if s.clus.dirty.any (fun c => c.1 / 64 == line) then
      let out := Overlay.part (fun a => !(a / 64 == line))
      let t := s.modClus (fun k => { k with dirty := out k.dirty, dirtyBy := drop line k.dirtyBy })
      let t := { t.setDie t.cl (out (t.dieOf t.cl)) with peer := out t.peer }
      (t.toHome ((List.range 64).map (fun (i : Nat) => ((64 * line + i, 0) : Host.Cell)))).zeroViews line
    else s
  | 2 | 3 | 4 =>
    let i := loc / 2 ^ 20
    let g := granule unit
    let off := loc % 2 ^ 20 / g * g
    let c := s.coreAt (i / 8) (i % 8)
    s.setCoreAt (i / 8) (i % 8) (c.setBuf (unit - 1) ((c.buf (unit - 1)).write off 0 g))
  | _ => s
/-- ERRCNT of the current core rises (R425). -/
def State.charge (s : State) : State := s.modCore (fun c => { c with errcnt := word ((c.errcnt.toNat + 1) % 2 ^ 32) })
/-- Whether the next rule of a walk is a LOAD that reads bytes of a line (R345). -/
def State.loadsFrom (s : State) (w : Walk) (line : Nat) : Bool :=
  let d := s.region w.ctx w.prog.region
  let r := nthD 0 w.prog.rules w.pc
  let a := ((w.p : Int) + sgn 16 (fld r 32 16)).toNat
  fld r 60 4 == 0 && (fld (s.blockOf d a).2 3 25 * 2 ^ 27 + a % 2 ^ 27) / 64 == line
/-- The first walk of the current core whose next LOAD reads a line ends DROPPED in that step (R345, R350). -/
def State.dropLoad (s : State) (line : Nat) : State :=
  match firstSat (fun (w : Walk) => w.cl == s.cl && w.core == s.co && s.loadsFrom w line) s.bd.walks with
  | some w => (s.walkCount w.stack 1).endWalk w 5 (w.n + 1) []
  | none => s
/-- What the access that found the error does besides: 1 data, 2 and 3 the fetch of the line at the slot's pc (R425), 4 a
LOAD of a walk (R350), 5 + q the copy at queue position q (R241, R248), or the VFETCH there: the line that its block is to
fetch next (R121). -/
def State.foundBy (s : State) (charged loc : Nat) : State :=
  match charged with
  | 0 | 1 => s
  | 2 => (s.at_ s.cl s.co false).modSlot (fun x => { x with badLines := lineOf x.pc :: x.badLines })
  | 3 => (s.at_ s.cl s.co true).modSlot (fun x => { x with badLines := lineOf x.pc :: x.badLines })
  | 4 => s.dropLoad (loc / 64)
  | n =>
    match s.core.cmd (n - 5) with
    | none => s
    | some c =>
      match c.ins with
      | .vfetch o => ({ s with hi := c.hi }.modSlot (fun x => { x with badLines := lineOf (c.blockNext o) :: x.badLines })).at_ s.cl s.co s.hi
      | _ => s.modCmd (n - 5) (fun c => { c with tr := (c.tr.1, max c.tr.2.1 5, c.tr.2.2.1, c.tr.2.2.2) })
/-- The entry of a hub SRAM that holds an error is discarded (R320, R423): kind 0 side store, 1 coded packet at a receiver,
2 retransmit buffer, 3 hub TLB, 4 stage queue: cluster × 2^16 + queue × 2^8 + position. -/
def State.hubDiscard (s : State) (kind i : Nat) : State :=
  match kind with
  | 0 => s.modEx (fun e => { e with side := e.side.take i ++ e.side.drop (i + 1) })
  | 1 => match s.ex.dec[i]? with
    | some p => s.sideMiss i p false
    | none => s
  | 2 => match s.ex.retr[i]? with
    | some r => r.owed.foldl (fun s rcv =>
        match firstFrom (fun n => (s.ex.dec[n]?).elim false (fun p => p.chub.isNone && p.rtag == r.tag && p.rcv == rcv)) 0 s.ex.dec.length with
        | some n => (s.ex.dec[n]?).elim s (fun p => s.sideMiss n p false)
        | none => s) (s.modEx (fun e => { e with retr := e.retr.take i ++ e.retr.drop (i + 1) }))
    | none => s
  | 3 => s.modXl (fun x => { x with tlb := x.tlb.take i ++ x.tlb.drop (i + 1) })
  | 4 =>
    let cl := i / 2 ^ 16
    let q := i / 256 % 256
    let n := i % 256
    let k := s.clusAt cl
    let l := k.stq[q]?.getD []
    if n < l.length then
      s.setClusAt cl { k with stq := k.stq.setIfInBounds q (l.take n ++ l.drop (n + 1)), dropped := k.dropped + 1 }
    else s
  | _ => s

/-- ECC_CORRECTED (R423): the record and the test; no architectural effect. -/
def execEccCorrected (unit loc ctx : Nat) (s : State) : Host.Outcome State Fault Refusal :=
  .next ((s.logUnit 1 unit loc ctx).startTest unit loc)
/-- ECC_UNCORRECTABLE (R383, R423 to R425): `cl` and `core` name the core whose access found the error, or whose cluster
holds the cache; `charged` is 0 for an uncharged one, else as `foundBy` says. An error in a dirty line of the cache is charged
to the line's last writer (R424, R425). -/
def execEccUncorrectable (unit loc cl core charged : Nat) (s : State) : Host.Outcome State Fault Refusal :=
  let who := if unit = 1 then (look (loc / 64) (s.clusAt cl).dirtyBy).getD core else core
  let ctx := if charged = 0 then 0xFFFF else fld (s.coreAt cl who).ctxid 0 16
  .next (match unit with
    | 6 =>
      let phys := loc / 64 % 16
      let co := (firstFrom (fun i => nthD 0 (s.clusAt (loc / 1024 % 64)).phys i == phys) 0 8).getD 8
      let s := if co < 8 then
          (s.on (loc / 1024 % 64) co false State.areaFault).on (loc / 1024 % 64) co true State.areaFault
        else s
      (s.logUnit 4 unit loc ctx).startTest unit loc
    | 10 => ((s.hubDiscard (loc / 2 ^ 32) (loc % 2 ^ 32)).logUnit 6 unit loc 0xFFFF).startTest unit loc
    | _ =>
      let s := s.on cl core false (fun s =>
        let s := s.zeroFill unit loc
        if charged = 0 then s else (s.on cl who false State.charge).foundBy charged loc)
      (s.logUnit (if charged = 0 then 3 else 2) unit loc ctx).startTest unit loc)

/-! ## Links (R423) -/

/-- A fabric port goes down: a collective that needs it ends with code 3 (R333), and its lanes are tested. -/
def State.portDown (s : State) (port : Nat) : State :=
  let s := (s.modXl (fun x => { x with up := setFld x.up port 1 0, crc := drop port x.crc })).startTest 8 port
  (s.ex.colls.filter (fun c => !c.fin && !c.boot && (s.ranks c.gid).contains (.far port))).foldl (fun s c => s.endColl c 3) s
/-- A PCIe root port goes down: its lanes are tested. -/
def State.rootDown (s : State) (port : Nat) : State :=
  (s.modXl (fun x => { x with rootUp := setFld x.rootUp port 1 0, crc := drop (16 + port) x.crc })).startTest 9 port
/-- LINK_CRC_FAIL (R423): a flit is retransmitted, which counts as corrected; the 16th refusal of one flit in a row takes a
fabric port or a root port down. -/
def execLinkCrcFail (unit port : Nat) (s : State) : Host.Outcome State Fault Refusal :=
  let s := (s.logUnit 5 unit port 0xFFFF).tally (20 * 65536 + unit * 256 + 1)
  let again := fun (k : Nat) => (look k s.xl.crc).getD 0 + 1
  .next (if unit = 8 && decide (port < 16) && flag s.xl.up port then
    (if 16 ≤ again port then s.portDown port else s.modXl (fun x => { x with crc := put port (again port) x.crc }))
  else if unit = 9 && decide (port < 4) && flag s.xl.rootUp port then
    (if 16 ≤ again (16 + port) then s.rootDown port else s.modXl (fun x => { x with crc := put (16 + port) (again (16 + port)) x.crc }))
  else s)

/-! ## Verdicts, spares and rotation (R428 to R430) -/

/-- Where the spares of a unit are counted: of a pseudo-channel, a buffer of a physical core, a cache set, 32 lanes of a die
link (R429). -/
def State.spareKey (s : State) (unit place : Nat) : Nat :=
  unit * 2 ^ 40 + (match unit with
    | 0 => (Config.channelOf place).toNat
    | 2 | 3 | 4 => let i := place / 64; 16 * (i / 8) + nthD 0 (s.clusAt (i / 8)).phys (i % 8)
    | 7 => place / 32
    | _ => place)
/-- Whether a spare is left for a unit: rows, banks, the disabled ways of a cache set, the spare core, a die-link lane (R429). -/
def State.hasSpare (s : State) (unit place : Nat) : Bool :=
  let used := (look (s.spareKey unit place) s.er.spares).getD 0
  match unit with
  | 0 => decide (used < 64)
  | 1 => decide (used < Config.spareWays)
  | 2 | 3 | 4 | 7 => used == 0
  | 5 | 6 => (s.clusAt (place / 16 % 64)).spare.isSome
  | _ => false
/-- A lasting fault with a spare: the spare keeps the contents for good, and the repair map takes the unit (R428). -/
def State.repair (s : State) (unit place : Nat) : State :=
  let k := s.spareKey unit place
  if unit = 5 ∨ unit = 6 then s.withdrawLater (place / 16 % 64) (place % 16)
  else s.modEr (fun e => { e with repaired := e.repaired ++ [(unit, place)], spares := put k ((look k e.spares).getD 0 + 1) e.spares })
/-- A lasting fault without a spare (R430): the core of a buffer is withdrawn at the cluster's next swap point (R429). -/
def State.unrepaired (s : State) (unit place : Nat) : State :=
  match unit with
  | 2 | 3 | 4 =>
    let i := place / 64
    s.withdrawLater (i / 8) (nthD 0 (s.clusAt (i / 8)).phys (i % 8))
  | 5 | 6 => s.withdrawLater (place / 16 % 64) (place % 16)
  | 8 => (s.modEr (fun e => { e with half := setFld e.half place 1 1 })).modXl (fun x => { x with up := setFld x.up place 1 1 })
  | 9 => s.modXl (fun x => { x with rootUp := setFld x.rootUp place 1 1 })
  | _ => s
/-- A link whose test has ended well serves again. -/
def State.linkUp (s : State) (unit place : Nat) : State :=
  if unit = 8 then s.modXl (fun x => { x with up := setFld x.up place 1 1 })
  else if unit = 9 then s.modXl (fun x => { x with rootUp := setFld x.rootUp place 1 1 }) else s
/-- SELF_TEST_END (R427, R428): the verdict of a pending test; that of a core comes only at a swap point. -/
def execSelfTestEnd (unit loc mismatch : Nat) (s : State) : Host.Outcome State Fault Refusal :=
  let place := testPlace unit loc
  let core := unit == 5 || unit == 6
  .next (if !s.er.tests.contains (unit, place) || (core && (s.clusAt (loc / 1024 % 64)).group.isSome) then s
  else
    let s := s.modEr (fun e => { e with tests := dropFirst (fun t => t == (unit, place)) e.tests })
    let before := (s.er.transient.filter (fun t => t.1 == unit && t.2.1 == place && decide (s.time < t.2.2 + 2 ^ 36))).length
    if mismatch = 0 && before < 2 then
      ((s.logUnit 0x10 unit loc 0xFFFF).modEr (fun e => { e with transient := e.transient ++ [(unit, place, s.time)] })).linkUp unit place
    else if s.hasSpare unit place then (s.logUnit 0x11 unit loc 0xFFFF).repair unit place
    else (s.logUnit 0x12 unit loc 0xFFFF).unrepaired unit place)
/-- WEAR_ROTATION (R429): at a swap point, 2^43 cycles after the last, the spare changes places with the core that has
served longest. -/
def execWearRotation (cl : Nat) (s : State) : Host.Outcome State Fault Refusal :=
  let k := s.clusAt cl
  .next (match k.spare with
    | some p =>
      if k.group.isSome || s.time < k.rotAt + 2 ^ 43 then s
      else
        let oldest := k.served.foldl min s.time
        let co := (firstFrom (fun i => nthD 0 k.served i == oldest) 0 8).getD 0
        let out := nthD 0 k.phys co
        (s.setClusAt cl { k with phys := setNth p k.phys co, spare := some out, served := setNth s.time k.served co,
                                 rotAt := s.time }).logUnit 0x13 5 ((cl <<< 10) + (out <<< 6)) 0xFFFF
    | none => s)

/-! ## Background work and telemetry (R431, R432) -/

/-- HBM_SCRUB (R351, R431): verdict 0 clean, 1 corrected, else uncorrectable; a line held in a combining store is left. -/
def execHbmScrub (line verdict : Nat) (s : State) : Host.Outcome State Fault Refusal :=
  let a := 64 * line
  .next (if s.hbm ≤ a || s.bd.held.any (fun h => h.line == line) then s
  else
    let s := s.tally (21 * 65536)
    match verdict with
    | 0 => s
    | 1 => (s.logUnit 1 0 a 0xFFFF).startTest 0 a
    | _ => (({ s with mem := s.mem.write a 0 64 }).logUnit 3 0 a 0xFFFF).startTest 0 a)
/-- BUFFER_SCRUB (R431): of granule number `granule` of a buffer, or of a cluster-cache line. -/
def execBufferScrub (cl core unit granule_ verdict : Nat) (s : State) : Host.Outcome State Fault Refusal :=
  let loc := if unit = 1 then 64 * granule_ else (8 * cl + core % 8) * 2 ^ 20 + granule unit * granule_ % 2 ^ 20
  .next (if unit = 0 || 4 < unit then s
  else
    let s := s.tally (22 * 65536)
    match verdict with
    | 0 => s
    | 1 => (s.logUnit 1 unit loc 0xFFFF).startTest unit loc
    | _ => ((s.on cl core false (fun s => s.zeroFill unit loc)).logUnit 3 unit loc 0xFFFF).startTest unit loc)
/-- PHY_CALIBRATION (R431): the channel pauses; no value changes. -/
def execPhyCalibration (channel : Nat) (s : State) : Host.Outcome State Fault Refusal :=
  .next ((s.tally (23 * 65536)).emit (.pause 0 channel))
/-- SERDES_CALIBRATION (R431): one lane pauses. -/
def execSerdesCalibration (port lane : Nat) (s : State) : Host.Outcome State Fault Refusal :=
  .next ((s.tally (23 * 65536)).emit (.pause 1 (64 * port + lane)))
/-- PCIE_EQUALISATION (R431): on the root port's own schedule; no value changes. -/
def execPcieEqualisation (port : Nat) (s : State) : Host.Outcome State Fault Refusal := .next (s.emit (.pause 2 port))

/-- A telemetry counter by the model's kind and instance (R255, R309, R323, R353, R406, R432): 1 copy checks, 2 copy
overflows of a core, 3 to 6 of a router, 7 to 14 of the exchange, 15 to 18 of a stack, 19 PEERREJ, 20 error records of a unit
and class, 21 lines scrubbed, 22 granules scrubbed, 23 calibrations. -/
def State.counter (s : State) (k : Nat) : Nat :=
  let i := k % 65536
  let kind := k / 65536
  if kind = 1 then (s.coreAt (i / 8) (i % 8)).copyChk
  else if kind = 2 then (s.coreAt (i / 8) (i % 8)).copyOvf
  else if 3 ≤ kind ∧ kind ≤ 6 then (look (4 * i + (kind - 3)) s.bd.rctr).getD 0
  else if 7 ≤ kind ∧ kind ≤ 14 then s.ex.ctr[kind - 7]?.getD 0
  else if 15 ≤ kind ∧ kind ≤ 18 then (look (4 * i + (kind - 15)) s.bd.ctr).getD 0
  else if kind = 19 then s.xl.peerRej
  else (look k s.er.tlm).getD 0
/-- The counters that the window holds (R432), by the model's kind and instance. -/
def counterKeys : List Nat :=
  let all := fun (kind n : Nat) => (List.range n).map (fun i => 65536 * kind + i)
  all 1 320 ++ all 2 320 ++ [3, 4, 5, 6].flatMap (fun k => all k 40)
    ++ [7, 8, 9, 10, 11, 12, 13, 14].map (fun k => 65536 * k) ++ [15, 16, 17, 18].flatMap (fun k => all k 8) ++ [65536 * 19]
    ++ (List.range 11).flatMap (fun u => [1, 2, 3, 4, 5, 6, 16, 17, 18, 19].map (fun c => 65536 * 20 + 256 * u + c))
    ++ [65536 * 21, 65536 * 22, 65536 * 23]
/-- Where the counters stand behind the directory, which one entry of kind 0 ends. -/
def countersAt : Nat := 0x400000 + 16 * (counterKeys.length + 1 + Config.tlmGap)
/-- The word at an offset of the telemetry window (R432): the directory, whose entry i names counter i by a kind of the part's
own, its instance and its offset; its end; a counter; or nothing. The offsets follow the directory in its order (log 32). -/
def State.tlmRead (s : State) (off : Nat) : Word :=
  let i := (off - 0x400000) / 16
  match counterKeys[i]? with
  | some k =>
    if off % 16 = 0 then
      word (Config.tlmKind (k / 65536) % 65535 + 1 + ((k % 65536) <<< 16) + (((countersAt + 8 * i) % 2 ^ 32) <<< 32))
    else 0
  | none => if countersAt ≤ off ∧ off % 8 = 0 then ((counterKeys[(off - countersAt) / 8]?).elim 0 (fun k => word (s.counter k))) else 0
/-- TELEMETRY_SNAPSHOT (R431): each counter is copied to TLMBASE plus its offset in the window. -/
def execTelemetrySnapshot (s : State) : Host.Outcome State Fault Refusal :=
  .next (counterKeys.zipIdx.foldl (fun s e =>
    let a := s.er.tlmbase.toNat + (countersAt + 8 * e.2 - 0x400000)
    if a + 8 ≤ s.hbm then { s with mem := s.mem.write a (s.counter e.1 % 2 ^ 64) 8 } else s) s)

end Sys2Proof.Machine
end

