-- ==== Sys2Proof/Machine/Boot.lean ====
section
/-! DEFINITION. Reset, the boot chain, measurement, hazel firmware, attestation, power and temperature (R433 to R444). -/

namespace Sys2Proof.Machine

/-- The state with the boot part changed. -/
def State.modBt (s : State) (f : Boot → Boot) : State := { s with bt := f s.bt }

/-! ## Reset and power-up (R433, R440, R443) -/

/-- The watts that PWRCTL.LIMIT resets to and may at most hold (R442). -/
def State.maxLimit (s : State) : Nat := if s.full then 1600 else 950
/-- The clusters as the repair map leaves them at a reset: of each that has lost a physical core the spare serves in its place,
or none is left (R428, R429). -/
def Errors.repairedClusters (e : Errors) : List (Nat × Cluster) :=
  e.repaired.foldl (fun l r =>
    if r.1 = 6 then
      let k := (look (r.2 / 16) l).getD Cluster.fresh
      match k.spare with
      | some p => put (r.2 / 16) { k with spare := none, phys := k.phys.map (fun x => if x = r.2 % 16 then p else x) } l
      | none => l
    else l) []
/-- RESET: every field at its value after reset, but for the fuse store (the part's identity, rollback counters, repair map,
spares, CLOFF), device memory, which no rule clears, LASTRESET, and what is the model's own. -/
def State.restart (s : State) (cause : Nat) : State :=
  let r := State.reset
  { r with
    variant := s.variant, stepping := s.stepping, agenda := s.agenda, eager := s.eager, free := s.free, mem := s.mem,
    er := { r.er with cloff := s.er.cloff, repaired := s.er.repaired, spares := s.er.spares },
    clusters := s.er.repairedClusters,
    bt := { r.bt with rollback := s.bt.rollback, bootstat := word ((cause % 4) <<< 12), pwrctl := word s.maxLimit,
                      trim := s.bt.trim.map (fun (t : Nat × Nat) => (t.1, 0)) },
    out := s.out }
/-- RESET (R433, R443): cause 0 power-on, 1 warm, 2 thermal trip, 3 Redfish; without power it waits. -/
def execResetPin (cause : Nat) (s : State) : Host.Outcome State Fault Refusal :=
  .next (if s.bt.powered then s.restart cause else s)
/-- POWER_UP (R440, R443): the rails settle in order and reset is released; VAUX has kept LASTRESET. -/
def execPowerUp (s : State) : Host.Outcome State Fault Refusal :=
  .next (if s.bt.powered then s
    else ({ s with mem := [] }).restart (fld s.bt.bootstat 12 4))

/-! ## Images (R434 to R436) -/

/-- A header and body as bytes: length of the header. -/
def headerLen : Nat := 5440
/-- A range of an image's bytes. -/
def span (bs : List Byte) (off n : Nat) : List Byte := (bs.drop off).take n
/-- The body of an image. -/
def imageBody (bs : List Byte) : List Byte := span bs headerLen (leField bs 8 8)
/-- The rollback counter of a TYPE (R435). -/
def State.rollback (s : State) (type : Nat) : Nat := (look type s.bt.rollback).getD 0
/-- The checks of R435 in order: the code of the first that fails, or 0. -/
def State.imageCheck (s : State) (type : Nat) (bs : List Byte) : Nat :=
  let f := leField bs
  let len := f 8 8
  let signed := span bs 0 0x48
  if !(decide (headerLen + len ≤ bs.length) && f 0 4 == 0x4B574E49 && f 4 2 == type && decide (1 ≤ len)
      && decide (len ≤ 2 ^ 28) && f 0x1535 11 == 0
      && (if type = 4 then f 0x10 8 == 0 else f 0x10 8 % 65536 == 0 && decide (f 0x10 8 + len ≤ s.hbm))) then 1
  else if !(sha3 (span bs 0x48 32) == Config.keyHash false && sha3 (span bs 0x68 1952) == Config.keyHash true) then 2
  else if !(decide (s.rollback type ≤ f 6 2)) then 3
  else if !(sha3 (imageBody bs) == BitVec.ofNat 384 (f 0x18 48)) then 4
  else if !ed25519 (span bs 0x48 32) signed (span bs 0x808 64) then 5
  else if !mldsa (span bs 0x68 1952) signed (span bs 0x848 3309) then 6
  else 0
/-- EXTENSION of MREGn by TYPE, SVN and DIGEST (R436). -/
def State.extend (s : State) (n type svn : Nat) (digest : BitVec 384) : State :=
  let old := s.bt.mreg[n]?.getD 0
  let new := sha3 (leBytes 48 old.toNat ++ leBytes 2 type ++ leBytes 2 svn ++ leBytes 48 digest.toNat)
  s.modBt (fun b => { b with mreg := b.mreg.setIfInBounds n new })
/-- An accepted image measured into MREGn and loaded at its address. -/
def State.takeImage (s : State) (n type : Nat) (bs : List Byte) : State :=
  let s := s.extend n type (leField bs 6 2) (BitVec.ofNat 384 (leField bs 0x18 48))
  { s with mem := s.mem.writeList (leField bs 0x10 8) (imageBody bs) }
/-- BOOTSTAT.STAGE. -/
def State.stage (s : State) : Nat := fld s.bt.bootstat 4 4
/-- A stage verifies an image of a TYPE and measures it into MREGn (R433, R435): `next` is the stage that then runs. -/
def State.bootImage (s : State) (n type next : Nat) (bs : List Byte) : State :=
  let code := s.imageCheck type bs
  if code = 0 then
    (s.takeImage n type bs).modBt (fun b => { b with
      accepted := b.accepted ++ [type], bootstat := setFld b.bootstat 4 4 next,
      agentAt := if type = 5 then some (leField bs 0x10 8) else b.agentAt })
  else s.modBt (fun b => { b with bootstat := setFld (setFld b.bootstat 0 4 code) 8 1 (b2n (type == 5)) })
/-- Stage 0 derives the identity keys from the unique secret (R438). -/
def State.deriveIdentity (s : State) : State := s.modBt (fun b => { b with idKeys := some (Config.identityKeys Config.secret) })
/-- Stage 1 derives the alias keys, signs their certificates, and erases the identity keys and the secret (R438). -/
def State.deriveAlias (s : State) : State :=
  s.modBt (fun b =>
    let a := Config.aliasKeys Config.secret (b.mreg[0]?.getD 0) (b.mreg[1]?.getD 0)
    if b.aliasKeys.isSome then b
    else { b with aliasKeys := some (a, Config.certificates (b.idKeys.getD []) a), idKeys := none, secret := false })
/-- BOOT_STAGE (R433, R435, R436, R438): the present stage loads its next image, whose bytes `image` names: TYPE 1, then 5 (with
`agent`), then 2, then 3. Nothing follows a failed check. -/
def execBootStage (image agent : Nat) (s : State) : Host.Outcome State Fault Refusal :=
  let bs := fun type => Config.imageBytes type image
  .next (if !s.bt.powered || fld s.bt.bootstat 0 4 != 0 then s
  else match s.stage with
    | 0 => (s.deriveIdentity.extend 0 0 0 Config.romDigest).bootImage 1 1 1 (bs 1)
    | 1 =>
      let s := s.deriveAlias
      if agent != 0 then (if s.bt.accepted.contains 5 then s else s.bootImage 8 5 1 (bs 5))
      else if s.bt.accepted.contains 5 then s.bootImage 2 2 2 (bs 2) else s
    | 2 => s.bootImage 3 3 3 (bs 3)
    | _ => s)
/-- ROLLBACK_ADVANCE (R435, R439): a counter only rises. -/
def execRollbackAdvance (kind value : Nat) (s : State) : Host.Outcome State Fault Refusal :=
  .next (if 1 ≤ kind ∧ kind ≤ 5 ∧ value ≤ 255 ∧ s.rollback kind < value then
    s.modBt (fun b => { b with rollback := put kind value b.rollback }) else s)

/-! ## Measurement registers (R444) and the quote (R438) -/

/-- A host write of MREGXGO (R436, R444). -/
def State.mregxWrite (s : State) (v : Word) : State :=
  let keep := setFld (v &&& 0x0000_000F_FFFF_FFFF) 62 1 (fld s.bt.mregxgo 62 1)
  let reg := fld v 32 4
  if flag v 63 then
    if 4 ≤ reg ∧ reg ≤ 7 then
      let d := leNat (s.bt.mregxd.toList.flatMap (fun w => leBytes 8 w.toNat))
      (s.extend reg (fld v 16 16) (fld v 0 16) (BitVec.ofNat 384 d)).modBt (fun b => { b with mregxgo := setFld keep 62 1 0 })
    else s.modBt (fun b => { b with mregxgo := setFld keep 62 1 1 })
  else s.modBt (fun b => { b with mregxgo := keep })
/-- MREGXGO (R444): the host writes it with GO. -/
def execMregxgo (value : Nat) (s : State) : Host.Outcome State Fault Refusal := .next (s.mregxWrite (setFld (word value) 63 1 1))
/-- REDFISH_QUOTE (R438): nonce and MREG0 to MREG8, with both signatures and the four certificates; before the agent runs with
the alias keys derived there is none. -/
def execRedfishQuote (nonce : Nat) (s : State) : Host.Outcome State Fault Refusal :=
  let m := leBytes 32 nonce ++ s.bt.mreg.toList.flatMap (fun r => leBytes 48 r.toNat)
  .next (match s.bt.agentAt, s.bt.aliasKeys with
    | some _, some (a, certs) => s.emit (.quote (m ++ Config.quoteSigs a m ++ certs))
    | _, _ => s)

/-! ## Hazel firmware (R437, R444) -/

/-- A host write of HZLOAD (R437, R444): with GO the image at HZLOADA is verified and kept in staging, or HZSTAT takes the
failing code. -/
def State.hzWrite (s : State) (v : Word) : State :=
  let slot := fld v 0 8
  let s := s.modBt (fun b => { b with hzload := word slot })
  if flag v 63 then
    let a := s.bt.hzloada.toNat
    let n := s.bt.hzloadl.toNat
    let bs := if a % 64 = 0 ∧ a + n ≤ s.hbm then s.mem.readList a n else []
    let code := s.imageCheck 4 bs
    s.modBt (fun b =>
      { b with hzstat := word ((b2n (code == 0 || flag b.hzstat 63) <<< 63) + (slot <<< 8) + code),
               staged := if code = 0 then put slot bs b.staged else b.staged })
  else s
/-- HZLOAD (R437): the host writes it with GO. -/
def execHzload (value : Nat) (s : State) : Host.Outcome State Fault Refusal := .next (s.hzWrite (setFld (word value) 63 1 1))
/-- HZ_SLOT_REPLACE (R437). -/
def execHzSlotReplace (s : State) : Host.Outcome State Fault Refusal := .next s.hzReplace

/-! ## Power and temperature (R441 to R443) -/

/-- The level that the hottest sensor forces (R443). -/
def thermalBand (c : Nat) : Nat := if 110 ≤ c then 7 else if 105 ≤ c then 4 else 0
/-- PWRCTL with the level in force, THERM and TJMAX (R442, R443). -/
def State.power (s : State) : State :=
  let recent := s.bt.temps.filter (fun t => decide (s.time < t.1 + 2 ^ 16))
  let band := thermalBand ((s.bt.temps.getLast?.map (·.2)).getD 0)
  s.modBt (fun b =>
    { b with pwrctl := setFld (setFld (setFld b.pwrctl 37 3 (max b.plevel band)) 36 1 (b2n (decide (b.plevel < band)))) 28 8
                         (min 255 (recent.foldl (fun m t => max m t.2) 0)) })
/-- THERMAL_SAMPLE (R431, R443): the hottest compute-die sensor. -/
def execThermalSample (celsius : Nat) (s : State) : Host.Outcome State Fault Refusal :=
  .next ((s.modBt (fun b =>
    { b with temps := b.temps.filter (fun t => decide (s.time < t.1 + 2 ^ 16)) ++ [(s.time, celsius)] })).power)
/-- THERMTRIP (R443): at 120 °C the pin is asserted and core power is removed: what the compute dies held is gone. -/
def execThermtrip (celsius : Nat) (s : State) : Host.Outcome State Fault Refusal :=
  .next (if s.bt.powered && decide (120 ≤ celsius) then
    ({ s with cores := [], clusters := [], die0 := [], die1 := [] }.modBt (fun b =>
      { b with powered := false, bootstat := setFld b.bootstat 12 4 2 })).emit .thermtrip
  else s)
/-- THROTTLE_UPDATE (R442): the level that the averaged power asks for, 0 to 7. -/
def execThrottleUpdate (level : Nat) (s : State) : Host.Outcome State Fault Refusal :=
  .next ((s.modBt (fun b => { b with plevel := min 7 level })).power)
/-- A host write of PWRCTL (R442): a LIMIT outside its range is ignored. -/
def State.pwrWrite (s : State) (v : Word) : State :=
  let w := fld v 0 11
  if 300 ≤ w ∧ w ≤ s.maxLimit then s.modBt (fun b => { b with pwrctl := setFld b.pwrctl 0 11 w }) else s
/-- TRIM_STEP (R441): 5 mV on VDD_C0 or VDD_C1, within 635 to 715 mV, at most one in 2^20 cycles. -/
def execTrimStep (rail up : Nat) (s : State) : Host.Outcome State Fault Refusal :=
  .next (match s.bt.trim[rail]? with
    | some (mv, at_) =>
      let next := if up != 0 then mv + 5 else mv - 5
      if at_ ≤ s.time ∧ 635 ≤ next ∧ next ≤ 715 then
        s.modBt (fun b => { b with trim := setNth (next, s.time + 2 ^ 20) b.trim rail })
      else s
    | none => s)

end Sys2Proof.Machine
end

