-- ==== Sys2Proof/Machine/Modular.lean ====
section
/-! DEFINITION. Residues (R29 to R32), the modular forms of major 0x58, NMODSET, NCHK and VCMUL (R195 to R200). -/

namespace Sys2Proof.Machine

/-- A residue operand below q, and 1 when it had to be reduced (R30). A modulus of 0 cannot be set. -/
def reduceQ (q a : Nat) : Nat × Nat := if q ≤ a then (a % q, 1) else (a, 0)
/-- The product by a twiddle pair (w, w'), used as stored (R31). -/
def mulPair (q b w w' : Nat) : Nat :=
  let qt := b * w' / 2 ^ 32
  let t := unsgn 32 ((b * w : Nat) - (qt * q : Nat) : Int)
  if q ≤ t then t - q else t
/-- (a + b) mod q and (a − b) mod q for b that may lie at or above q (R31, R196). -/
def addQ (q a b : Nat) : Nat := (a + b) % q
/-- See `addQ`. -/
def subQ (q a b : Nat) : Nat := ((a : Int) - b) % q |>.toNat
/-- c^e mod q with 0^0 = 1, by squaring over the bits of e (R190). -/
def powQ (q c e : Nat) : Nat := go 64 c e (1 % q)
where
  go : Nat → Nat → Nat → Nat → Nat
    | 0, _, _, acc => acc
    | n + 1, b, e, acc => go n (b * b % q) (e / 2) (if e % 2 = 1 then acc * b % q else acc)

/-- How many residue operands of the active lanes had to be reduced. -/
def sumLanes (msk : MReg) (f : Nat → Nat) : Nat → Nat
  | 0 => 0
  | n + 1 => (if flag msk n then f n else 0) + sumLanes msk f n

/-- A modular form at SEW 32: each lane's result and the operands it reduced (R195). -/
def modEff (o : OpV4) (f : Cmd → State → Nat → Nat × Nat) : Run1 := vecEff o.len o.msk (fun _ n m c s =>
  let g := f c s
  let s := s.setV o.d.toNat (maskedWrite (s.vreg o.d.toNat) 32 m n (fun i => (g i).1))
  .ok (s.reduced c (sumLanes m (fun i => (g i).2) n)))
/-- What a modular form enqueues; it needs SEW 32 (R195). -/
def modForm (o : OpV4) (i : Instr) (rd wr : List Res) (eff : Run1) (s : State) : Host.Outcome State Fault Refusal :=
  if vtSewCode s.slot.vtype ≠ 2 then finish (.error (.trap (Trap.ill 0x08) s))
  else engine { eng := .vec, ins := i, lens := [o.len], rd := .m o.msk.toNat :: .v o.a.toNat :: rd, wr := wr } eff s

/-- Element i of a vector register at 32 bits, reduced. -/
def resOf (q : Nat) (v : VReg) (i : Nat) : Nat × Nat := reduceQ q (elem v 32 i)
/-- NADD (R195): its effect. -/
def effNadd (o : OpV4) : Run1 := modEff o (fun c s i =>
  let a := resOf c.modq (s.vreg o.a.toNat) i
  let b := resOf c.modq (s.vreg o.b.toNat) i
  (addQ c.modq a.1 b.1, a.2 + b.2))
/-- NADD (R195). -/
def execNadd (o : OpV4) (s : State) : Host.Outcome State Fault Refusal :=
  modForm o (.nadd o) [.v o.b.toNat] [.v o.d.toNat] (effNadd o) s
/-- NSUB (R195): its effect. -/
def effNsub (o : OpV4) : Run1 := modEff o (fun c s i =>
  let a := resOf c.modq (s.vreg o.a.toNat) i
  let b := resOf c.modq (s.vreg o.b.toNat) i
  (subQ c.modq a.1 b.1, a.2 + b.2))
/-- NSUB (R195). -/
def execNsub (o : OpV4) (s : State) : Host.Outcome State Fault Refusal :=
  modForm o (.nsub o) [.v o.b.toNat] [.v o.d.toNat] (effNsub o) s
/-- NMUL (R195): its effect. -/
def effNmul (o : OpV4) : Run1 := modEff o (fun c s i =>
  let a := resOf c.modq (s.vreg o.a.toNat) i
  let b := resOf c.modq (s.vreg o.b.toNat) i
  (a.1 * b.1 % c.modq, a.2 + b.2))
/-- NMUL (R195). -/
def execNmul (o : OpV4) (s : State) : Host.Outcome State Fault Refusal :=
  modForm o (.nmul o) [.v o.b.toNat] [.v o.d.toNat] (effNmul o) s
/-- The R31 product of a reduced residue with entry i of a twiddle register. -/
def twMul (q b : Nat) (w : WReg) (i : Nat) : Nat := mulPair q b (elem w 32 (2 * (i % 128))) (elem w 32 (2 * (i % 128) + 1))
/-- NMUL by a twiddle register (R31, R195): its effect. -/
def effNmulW (o : OpV4) : Run1 := modEff o (fun c s i =>
  let a := resOf c.modq (s.vreg o.a.toNat) i
  (twMul c.modq a.1 (s.wreg o.b.toNat) i, a.2))
/-- NMUL by a twiddle register (R31, R195). -/
def execNmulW (o : OpV4) (s : State) : Host.Outcome State Fault Refusal :=
  modForm o (.nmulW o) [.w o.b.toNat] [.v o.d.toNat] (effNmulW o) s
/-- NBFY (R196): its effect. -/
def effNbfy (o : OpV4) : Run1 := vecEff o.len o.msk (fun _ n m c s =>
  let q := c.modq
  let va := s.vreg o.a.toNat
  let vc := s.vreg o.c.toNat
  let w := s.wreg o.b.toNat
  let a := fun i => resOf q va i
  let x := fun i => resOf q vc i
  let t := fun i => twMul q (x i).1 w i
  let d := o.d.toNat
  let s := s.setV d (maskedWrite (s.vreg d) 32 m n (fun i => addQ q (a i).1 (t i)))
  let s := s.setV (d + 1) (maskedWrite (s.vreg (d + 1)) 32 m n (fun i => subQ q (a i).1 (t i)))
  .ok (s.reduced c (sumLanes m (fun i => (a i).2 + (x i).2) n)))
/-- NBFY (R196). -/
def execNbfy (o : OpV4) (s : State) : Host.Outcome State Fault Refusal :=
  modForm o (.nbfy o) [.v o.c.toNat, .w o.b.toNat] [.v o.d.toNat, .v (o.d.toNat + 1)] (effNbfy o) s
/-- NCRT (R197): its effect; the moduli are checked before VL (log 82). -/
def effNcrt (o : OpV4) : Run1 := vecEff o.len o.msk (fun _ n m c s => do
  let q1 := c.modq
  let vc := s.vreg o.c.toNat
  let q2 := elem vc 32 0
  let u := elem vc 32 1
  need (q2 % 2 == 1 && decide (3 ≤ q2) && decide (q2 < 2 ^ 31) && q2 != q1) (Trap.opndAt 0x04 q2) (s.unpop c)
  need (decide (n ≤ 64)) (Trap.opndAt 0x05 n) (s.unpop c)
  let va := s.vreg o.a.toNat
  let vb := s.vreg o.b.toNat
  let a := fun i => resOf q1 va i
  let b := fun i => resOf q2 vb i
  let x := fun i =>
    let d := (((b i).1 : Int) - (a i).1) % q2 |>.toNat
    let y : Int := ((a i).1 + q1 * (d * u % q2) : Nat)
    unsgn 64 (if ((q1 * q2 : Nat) : Int) - 1 < 2 * y then y - (q1 * q2 : Nat) else y)
  let s := s.setV o.d.toNat (maskedWrite (s.vreg o.d.toNat) 64 m n x)
  pure (s.reduced c (sumLanes m (fun i => (a i).2 + (b i).2) n)))
/-- NCRT (R197). -/
def execNcrt (o : OpV4) (s : State) : Host.Outcome State Fault Refusal :=
  modForm o (.ncrt o) [.v o.b.toNat, .v o.c.toNat] [.v o.d.toNat] (effNcrt o) s
/-- NFROM (R195): its effect. -/
def effNfrom (o : OpV4) : Run1 := modEff o (fun c s i => ((sgn 32 (elem (s.vreg o.a.toNat) 32 i) % c.modq).toNat, 0))
/-- NFROM (R195). -/
def execNfrom (o : OpV4) (s : State) : Host.Outcome State Fault Refusal :=
  modForm o (.nfrom o) [] [.v o.d.toNat] (effNfrom o) s
/-- NTO (R195): its effect. -/
def effNto (o : OpV4) : Run1 := modEff o (fun c s i =>
  let a := resOf c.modq (s.vreg o.a.toNat) i
  (if a.1 ≤ (c.modq - 1) / 2 then a.1 else unsgn 32 ((a.1 : Int) - c.modq), a.2))
/-- NTO (R195). -/
def execNto (o : OpV4) (s : State) : Host.Outcome State Fault Refusal :=
  modForm o (.nto o) [] [.v o.d.toNat] (effNto o) s

/-- NMODSET (R29, R198). -/
def execNmodset (o : OpA2) (s : State) : Host.Outcome State Fault Refusal :=
  commit s (fun s => do
    let q := (s.g o.a).toNat
    need (q % 2 == 1 && decide (3 ≤ q) && decide (q < 2 ^ 31)) (Trap.opnd 0x04) s
    pure (s.modF (fun f => { f with modq := word q })))
/-- NCHK (R32, R199). -/
def execNchk (o : OpA2) (s : State) : Host.Outcome State Fault Refusal :=
  commit s (fun s => do
    let n := (s.g o.d).toNat
    let ba := (s.g o.a).toNat
    let bb := (s.g o.b).toNat
    need (decide (ba < 2 ^ 32) && decide (bb < 2 ^ 32)) (Trap.opnd 0x04) s
    need (decide (2 * (n * ba * bb) < fld s.core.f.modq 0 32 - 1)) { code := 0x0D, sub := 0 } s
    pure s)

/-- The exact sum of two products. -/
def sum2 (rm : Nat) (a b c d : FV) : FV × Nat :=
  let p := fmul a b
  let q := fmul c d
  let r := fadd rm p.1 q.1
  (r.1, r.2 ||| p.2 ||| q.2)
/-- One rounding of an exact value with the flags that formed it. -/
def roundOut (f : FF) (rm : Nat) (x : FV × Nat) : Nat × Nat :=
  let r := fround f rm false 0 x.1
  (r.1, r.2 ||| x.2)
/-- VCMUL (R200): b, or its conjugate, from a vector register or a twiddle register. -/
def cmulEff (o : OpV4) (cj : Bool) : Run1 := vecEff o.len o.msk (fun w n m c s => do
  need (n % 2 == 0) (Trap.opndAt 0x05 n) (s.unpop c)
  let f := fmtOf (vtFmt c.vtype)
  let rm := arithRm (vtRm c.vtype)
  let va := s.vreg o.a.toNat
  let vb := s.vreg o.b.toNat
  let wb := s.wreg o.b.toNat
  let re := fun p => if o.x then fval (fmtOf 1) (elem wb 32 (2 * (p % 128))) else fval f (elem vb w (2 * p))
  let im := fun p =>
    let x := if o.x then fval (fmtOf 1) (elem wb 32 (2 * (p % 128) + 1)) else fval f (elem vb w (2 * p + 1))
    if cj then x.neg else x
  let out : Lanes := fun i =>
    let p := i / 2
    let ar := fval f (elem va w (2 * p))
    let ai := fval f (elem va w (2 * p + 1))
    roundOut f rm (if i % 2 = 0 then sum2 rm ar (re p) ai.neg (im p) else sum2 rm ar (im p) ai (re p))
  let m2 := maskOf n (fun i => flag m (2 * (i / 2)))
  pure (s.putLanes c o.d.toNat w m2 n out))
/-- What VCMUL enqueues: FMT 0x1, 0x2 or 0x3 (R200). -/
def cmulForm (o : OpV4) (i : Instr) (eff : Run1) (s : State) : Host.Outcome State Fault Refusal :=
  let f := vtFmt s.slot.vtype
  if f = 0 ∨ 3 < f then finish (.error (.trap (Trap.ill 0x08) s))
  else engine { eng := .vec, ins := i, lens := [o.len],
                rd := [.m o.msk.toNat, .v o.a.toNat, if o.x then .w o.b.toNat else .v o.b.toNat], wr := [.v o.d.toNat] }
        eff s
/-- VCMUL (R200): its effect. -/
def effVcmul (o : OpV4) : Run1 := cmulEff o false
/-- VCMUL (R200). -/
def execVcmul (o : OpV4) (s : State) : Host.Outcome State Fault Refusal := cmulForm o (.vcmul o) (effVcmul o) s
/-- VCMUL.CJ (R200): its effect. -/
def effVcmulCj (o : OpV4) : Run1 := cmulEff o true
/-- VCMUL.CJ (R200). -/
def execVcmulCj (o : OpV4) (s : State) : Host.Outcome State Fault Refusal := cmulForm o (.vcmulCj o) (effVcmulCj o) s

end Sys2Proof.Machine
end

