-- ==== Sys2Proof/Machine/Butterfly.lean ====
section
/-! DEFINITION. The butterfly unit: BFY, BPASS, BPERM, TWGEN, BFPNORM and TXF (R26 to R28, R181 to R194). -/

namespace Sys2Proof.Machine

/-! ## Exact outputs (R183) -/

/-- A component and its flags: the exact sum of terms. -/
def termSum (rm : Nat) : List (FV × Nat) → FV × Nat
  | [] => (FV.zero, 0)
  | t :: r => r.foldl (fun a u => let x := fadd rm a.1 u.1; (x.1, a.2 ||| u.2 ||| x.2)) t
/-- A product with its sign turned. -/
def negTerm (neg : Bool) (t : FV × Nat) : FV × Nat := if neg then (t.1.neg, t.2) else t
/-- The real or imaginary part of xp ± w × xq. -/
def bflyPart (rm : Nat) (bottom im : Bool) (w xp xq : FV × FV) : FV × Nat :=
  if im then termSum rm [(xp.2, 0), negTerm bottom (fmul w.1 xq.2), negTerm bottom (fmul w.2 xq.1)]
  else termSum rm [(xp.1, 0), negTerm bottom (fmul w.1 xq.1), negTerm (!bottom) (fmul w.2 xq.2)]
/-- a × xp + b × xq. -/
def bflyReal (rm : Nat) (a b xp xq : FV) : FV × Nat := termSum rm [fmul a xp, fmul b xq]
/-- The complex view of a twiddle entry, conjugated or not (R55, R183). -/
def twCplx (cj : Bool) (e : Nat) : FV × FV :=
  let im := fval (fmtOf 1) (bits e 32 32)
  (fval (fmtOf 1) (bits e 0 32), if cj then im.neg else im)
/-- Entry x of the table of 1,024 that starts at wC (R182). -/
def State.twEntry (s : State) (c x : Nat) : Nat := elem (s.wreg ((c + x / 128) % 8)) 64 (x % 128)

/-! ## BFP16 blocks (R27, R28) -/

/-- |y| < 2^k × 2^u. -/
def magBelow (k u : Int) : FV → Bool
  | .num _ m e => flt (.num false m e) (.num false 1 (k + u))
  | _ => false
/-- A mantissa clamped to ±32,767, with BFPSAT (R28). -/
def clampMant (neg : Bool) (k : Nat) : Nat × Nat :=
  let v := min 32767 k
  (unsgn 16 (if neg then -(v : Int) else v), if 32767 < k then fBFP else 0)
/-- A mantissa at the top exponent: ±32,767 by sign unless it is 0 (R28). -/
def topMant (neg : Bool) (k : Nat) : Nat := if k = 0 then 0 else unsgn 16 (if neg then -32767 else 32767)
/-- An output block from its exact components and E0 (none: a NaN block feeds it): exponent, mantissas and flags.
A NaN block raises no NV, also where it meets a NaN or infinite twiddle (DESIGN CHOICE, log 83). -/
def bfpBlock (e0 : Option Nat) (ys : List (FV × Nat)) : Nat × List Nat × Nat :=
  match e0 with
  | none => (255, ys.map (fun _ => 0), 0)
  | some e0 =>
    if ys.any (fun y => match y.1 with | .num _ _ _ => false | _ => true) then (255, ys.map (fun _ => 0), fNV)
    else
      let u : Int := (e0 : Int) - 142
      let sh : Nat := if ys.all (fun y => magBelow 13 u y.1) then 0 else if ys.all (fun y => magBelow 14 u y.1) then 1 else 2
      let r := ys.map (fun y => match y.1 with
        | .num neg m e => (neg, if m = 0 then 0 else (roundUnits 0 neg 0 m 1 e (u + sh)).1)
        | _ => (false, 0))
      if 254 < e0 + sh then (254, r.map (fun x => topMant x.1 x.2), fBFP)
      else (e0 + sh, r.map (fun x => (clampMant x.1 x.2).1), r.foldl (fun a x => a ||| (clampMant x.1 x.2).2) 0)
/-- The larger of two exponents; none when either block is a NaN block. -/
def maxExp (a b : Nat) : Option Nat := if a = 255 ∨ b = 255 then none else some (max a b)

/-! ## BFY (R184) -/

/-- Elements 0 to n − 1 of a list written to a register. -/
def putList {b : Nat} (r : BitVec b) (w at_ : Nat) : List Nat → BitVec b
  | [] => r
  | x :: l => putList (setElem r w at_ x) w (at_ + 1) l
/-- BFY on 16-bit or FP32 points. -/
def bfyFloat (o : OpG8) (c : Cmd) (s : State) (fmt n : Nat) : State :=
  let f := fmtOf fmt
  let w := fmtWidth fmt
  let rm := arithRm (vtRm c.vtype)
  let va := s.vreg o.a.toNat
  let vb := s.vreg o.b.toNat
  let m := s.mreg o.msk.toNat
  let tw := fun p => twCplx (flag o.imm 4) (elem (s.wreg o.c.toNat) 64 ((fld o.imm 5 7 + p * fld o.imm 12 7) % 128))
  let pt := fun (v : VReg) p => (fval f (elem v w (2 * p)), fval f (elem v w (2 * p + 1)))
  let out := fun bottom i =>
    let p := i / 2
    roundOut f rm (bflyPart rm bottom (i % 2 == 1) (tw p) (pt va p) (pt vb p))
  let m2 := maskOf (min 512 (2 * n)) (fun i => flag m (i / 2))
  (s.putLanes c o.a.toNat w m2 (2 * n) (out false)).putLanes c o.b.toNat w m2 (2 * n) (out true)
/-- BFY on BFP16 points. -/
def bfyBfp (o : OpG8) (c : Cmd) (s : State) (n : Nat) : State :=
  let va := s.vreg o.a.toNat
  let vb := s.vreg o.b.toNat
  let kn := fld o.imm 19 4
  let k := s.kreg kn
  let tw := fun p => twCplx (flag o.imm 4) (elem (s.wreg o.c.toNat) 64 ((fld o.imm 5 7 + p * fld o.imm 12 7) % 128))
  let pt := fun (v : VReg) e p => (bfpVal e (elem v 16 (2 * p)), bfpVal e (elem v 16 (2 * p + 1)))
  let blk := fun b bottom =>
    let ea := elem k 8 b
    let eb := elem k 8 (8 + b)
    bfpBlock (maxExp ea eb) ((List.range 32).map (fun i =>
      let p := 16 * b + i / 2
      bflyPart 0 bottom (i % 2 == 1) (tw p) (pt va ea p) (pt vb eb p)))
  (List.range (n / 16)).foldl (fun s b =>
    let x := blk b false
    let y := blk b true
    let s := s.setV o.a.toNat (putList (s.vreg o.a.toNat) 16 (32 * b) x.2.1)
    let s := s.setV o.b.toNat (putList (s.vreg o.b.toNat) 16 (32 * b) y.2.1)
    (s.setK kn (setElem (setElem (s.kreg kn) 8 b x.1) 8 (8 + b) y.1)).raise c (x.2.2 ||| y.2.2)) s
/-- BFY (R184): its effect. -/
def effBfy (o : OpG8) : Run1 := whole (fun c s => do
  let fmt := fld o.imm 0 4
  let n := c.len o.len (vtVlmax c.vtype)
  need (decide (n ≤ if fmt = 1 then 64 else 128) && (fmt != 0xB || n % 16 == 0)) (Trap.opndAt 0x05 n) (s.unpop c)
  pure (if fmt = 0xB then bfyBfp o c s n else bfyFloat o c s fmt n))
/-- BFY (R184). -/
def execBfy (o : OpG8) (s : State) : Host.Outcome State Fault Refusal :=
  let vs : List Res := [.v o.a.toNat, .v o.b.toNat]
  let ks : List Res := if fld o.imm 0 4 = 0xB then [.k (fld o.imm 19 4)] else []
  engine { eng := .bfy, ins := .bfy o, lens := [o.len], rd := .w o.c.toNat :: .m o.msk.toNat :: vs ++ ks, wr := vs ++ ks }
    (effBfy o) s

/-! ## Arrays in the A buffer (R181) -/

/-- Bytes of a point: complex, or a real value. -/
def ptBytes (fmt : Nat) (cpx : Bool) : Nat :=
  if fmt = 0xC then 4 else (if cpx then 2 else 1) * (if fmt = 1 then 4 else 2)
/-- Points of a BFP16 block. -/
def blkPts (cpx : Bool) : Nat := if cpx then 16 else 32
/-- Bytes of an array of n points with its exponents. -/
def arrBytes (fmt : Nat) (cpx : Bool) (n : Nat) : Nat :=
  n * ptBytes fmt cpx + (if fmt = 0xB then n / blkPts cpx else 0)
/-- Element widths and counts: one component of a point. -/
def compW (fmt : Nat) : Nat := if fmt = 1 ∨ fmt = 0xC then 32 else 16
/-- Components of an array of n points. -/
def compN (fmt : Nat) (cpx : Bool) (n : Nat) : Nat := if cpx && fmt != 0xC then 2 * n else n
/-- A number from its digits of w bits, the lowest first. -/
def packNat (w : Nat) : List Nat → Nat
  | [] => 0
  | x :: r => x % 2 ^ w + 2 ^ w * packNat w r
/-- The array at an offset of the A buffer, as one number. -/
def State.arr (s : State) (base n : Nat) : Nat := s.bufRead 2 base n
/-- An array with its exponents written to the A buffer. -/
def State.putArr (s : State) (base w : Nat) (xs es : List Nat) : State :=
  let n := xs.length * w / 8
  (s.bufWrite 2 base (packNat w xs) n).bufWrite 2 (base + n) (packNat 8 es) es.length
/-- The address checks at commit of one array (R164, R185). -/
def checkArr (s : State) (base bytes : Nat) : M Unit := do
  need (decide (base + bytes ≤ 393216)) (Trap.opnd 0x01) s
  need (base % 64 == 0) (Trap.align 0x02) s

/-! ## BPASS (R185 to R187) -/

/-- What a pass works by: format, conjugation, general mode, EBF, log2 N, log2 h, T0, TS, TG and the first twiddle register. -/
structure Pass where
  fmt : Nat
  cj : Bool
  g2 : Bool
  ebf : Bool
  n : Nat
  lh : Nat
  t0 : Nat
  ts : Nat
  tg : Nat
  c : Nat
  deriving DecidableEq, Repr
/-- The fields of a BPASS and its index word. -/
def bpassOf (o : OpG8) (ix : Word) : Pass :=
  { fmt := fld o.imm 0 4, cj := flag o.imm 4, g2 := flag o.imm 5, ebf := flag o.imm 19, n := fld o.imm 6 4, lh := fld o.imm 10 4,
    t0 := fld ix 0 10, ts := fld ix 16 10, tg := fld ix 32 10, c := o.c.toNat }
/-- The pair of point p, whether p is its second point, and the table index of the pair (R186). -/
def Pass.pair (q : Pass) (p : Nat) : Nat × Nat × Bool × Nat :=
  let h := 2 ^ q.lh
  let g := p / (2 * h)
  let r := p % (2 * h)
  let j := r % h
  (2 * h * g + j, 2 * h * g + j + h, decide (h ≤ r), (q.t0 + j * q.ts + g * q.tg) % 1024)
/-- The exact output component i of a pass over input components (R183). -/
def Pass.exact (q : Pass) (rm : Nat) (entry : Nat → Nat) (x : Nat → FV) (i : Nat) : FV × Nat :=
  if q.g2 then
    let t := q.pair i
    let e := entry t.2.2.2
    let f := fmtOf (if q.fmt = 3 ∨ (q.fmt = 0xB ∧ q.ebf = true) then 3 else 2)
    let a := fun k => fval f (bits e (16 * k) 16)
    if t.2.2.1 then bflyReal rm (a 2) (a 3) (x t.1) (x t.2.1) else bflyReal rm (a 0) (a 1) (x t.1) (x t.2.1)
  else
    let t := q.pair (i / 2)
    let pt := fun p => (x (2 * p), x (2 * p + 1))
    bflyPart rm t.2.2.1 (i % 2 == 1) (twCplx q.cj (entry t.2.2.2)) (pt t.1) (pt t.2.1)
/-- The output components of a floating-point pass, with their flags (R39, R183). -/
def Pass.floats (q : Pass) (rm : Nat) (entry : Nat → Nat) (img : Nat) : List (Nat × Nat) :=
  let f := fmtOf q.fmt
  let w := compW q.fmt
  (List.range (compN q.fmt (!q.g2) (2 ^ q.n))).map (fun i =>
    roundOut f rm (q.exact rm entry (fun k => fval f (bits img (w * k) w)) i))
/-- The block that shares the outputs of block b (R186). -/
def Pass.partner (q : Pass) (b : Nat) : Nat :=
  let l := blkPts (!q.g2)
  let h := 2 ^ q.lh
  if h < l then b else if b * l / h % 2 = 0 then b + h / l else b - h / l
/-- A BFP16 pass: each output block. -/
def Pass.blocks (q : Pass) (entry : Nat → Nat) (img : Nat) : List (Nat × List Nat × Nat) :=
  let n := 2 ^ q.n
  let cs := compN q.fmt (!q.g2) n
  let ex := fun b => bits img (16 * cs + 8 * b) 8
  let x := fun k => bfpVal (ex (k / 32)) (bits img (16 * k) 16)
  (List.range (cs / 32)).map (fun b =>
    bfpBlock (maxExp (ex b) (ex (q.partner b))) ((List.range 32).map (fun i => q.exact 0 entry x (32 * b + i))))
/-- A residue pass: each output, and how many inputs had to be reduced (R30, R31, R183). -/
def Pass.residues (q : Pass) (modq : Nat) (entry : Nat → Nat) (img : Nat) : List Nat × Nat :=
  let n := 2 ^ q.n
  let x := fun p => reduceQ modq (bits img (32 * p) 32)
  ((List.range n).map (fun p =>
      let t := q.pair p
      let e := entry t.2.2.2
      let v := mulPair modq (x t.2.1).1 (bits e 0 32) (bits e 32 32)
      if t.2.2.1 then subQ modq (x t.1).1 v else addQ modq (x t.1).1 v),
   (List.range n).foldl (fun a p => a + (x p).2) 0)
/-- A pass in place over the array at an offset (R186). -/
def State.pass (s : State) (c : Cmd) (q : Pass) (base : Nat) : State :=
  let img := s.arr base (arrBytes q.fmt (!q.g2) (2 ^ q.n))
  let entry := s.twEntry q.c
  if q.fmt = 0xC then
    let r := q.residues c.modq entry img
    (s.putArr base 32 r.1 []).reduced c r.2
  else if q.fmt = 0xB then
    let bs := q.blocks entry img
    (s.putArr base 16 (bs.flatMap (fun b => b.2.1)) (bs.map (·.1))).raise c (bs.foldl (fun a b => a ||| b.2.2) 0)
  else
    let r := q.floats (arithRm (vtRm c.vtype)) entry img
    (s.putArr base (compW q.fmt) (r.map (·.1)) []).raise c (r.foldl (fun a x => a ||| x.2) 0)
/-- The tokens of a pass to a port (R187). -/
def passTokens (q : Pass) (xs : List Nat) (endRank : Option Nat) : List Token :=
  let vs := if q.fmt = 1 ∨ q.g2 then xs else (List.range (xs.length / 2)).map (fun p => nthD 0 xs (2 * p) + 65536 * nthD 0 xs (2 * p + 1))
  vs.map (fun x => ⟨0, x⟩) ++ (match endRank with
    | none => [Token.stop 0]
    | some r => [Token.stop r, Token.done])
/-- Tokens from a resume point on, sent while the port has room; the rest waits (R165). -/
def sendTokens (c : Cmd) (p : Nat) : Nat → List Token → State → M State
  | _, [], s => .ok s
  | k, t :: r, s =>
    if s.engineRoom 7 p then sendTokens c p (k + 1) r (s.enginePush 7 p t)
    else .error (.stall (s.modCmd c.qpos (fun e => { e with resume := k })))
/-- BPASS (R186, R187): its effect. NOT_HOLDER comes before the check of chain and port (log 82). -/
def effBpass (o : OpG8) : Run1 := whole (fun c s => do
  let q := bpassOf o c.gb
  let base := c.ga.toNat
  s.checkHolder 2 base (arrBytes q.fmt (!q.g2) (2 ^ q.n))
  if flag o.imm 14 then
    let p := fld o.imm 15 4
    let x := s.port p
    need (!c.prog.isEmpty || (x.kind == 7 && x.dir == 1)) (Trap.opndAt 0x07 p) s
    let s := s.modCmd c.qpos (fun e => { e with prog := [x.rank] })
    let r := q.floats (arithRm (vtRm c.vtype)) (s.twEntry q.c) (s.arr base (arrBytes q.fmt (!q.g2) (2 ^ q.n)))
    let s := s.raise c (r.foldl (fun a x => a ||| x.2) 0)
    let ts := passTokens q (r.map (·.1)) (if flag o.imm 20 then some (nthD x.rank c.prog 0) else none)
    sendTokens c p c.resume (ts.drop c.resume) s
  else pure (s.pass c q base))
/-- The twiddle registers that a pass may read (R182). -/
def allW : List Res := (List.range 8).map Res.w
/-- BPASS (R185): the checks at commit. -/
def execBpass (o : OpG8) (s : State) : Host.Outcome State Fault Refusal :=
  let ix := s.g o.b
  let q := bpassOf o ix
  let base := (s.g o.a).toNat
  let bytes := arrBytes q.fmt (!q.g2) (2 ^ q.n)
  let out := flag o.imm 14
  finish (do
    need (ix &&& 0xFFFF_FC00_FC00_FC00 == 0) (Trap.opnd 0x04) s
    need (q.fmt != 0xB || decide (blkPts (!q.g2) ≤ 2 ^ q.n)) (Trap.opnd 0x04) s
    checkArr s base bytes
    issue { eng := .bfy, ins := .bpass o, ga := s.g o.a, gb := ix, ranges := [⟨2, base, base + bytes - 1, !out⟩], 
            rd := allW ++ (if out then [.s (fld o.imm 15 4)] else []) } (effBpass o) s)

/-! ## BPERM (R188, R189) -/

/-- bitrev_n(p). -/
def bitrev : Nat → Nat → Nat
  | 0, _ => 0
  | n + 1, p => (p % 2) * 2 ^ n + bitrev n (p / 2)
/-- An array permuted: output point p is source point f p (R188); BFP16 blocks take the largest exponent of their sources
and shift to it (R189). -/
def State.permute (s : State) (fmt : Nat) (cpx : Bool) (n : Nat) (f : Nat → Nat) (src dst : Nat) : State :=
  let img := s.arr src (arrBytes fmt cpx (2 ^ n))
  if fmt = 0xB then
    let cs := compN fmt cpx (2 ^ n)
    let from_ := fun i => if cpx then 2 * f (i / 2) + i % 2 else f i
    let ex := fun k => bits img (16 * cs + 8 * (k / 32)) 8
    let bs := (List.range (cs / 32)).map (fun b =>
      let is_ := (List.range 32).map (fun i => from_ (32 * b + i))
      if is_.any (fun k => ex k == 255) then (255, is_.map (fun _ => 0))
      else
        let e := is_.foldl (fun m k => max m (ex k)) 0
        (e, is_.map (fun k =>
          let m := sgn 16 (bits img (16 * k) 16)
          let r := if m = 0 then 0 else (roundUnits 0 (decide (m < 0)) 0 m.natAbs 1 0 ((e - ex k : Nat) : Int)).1
          unsgn 16 (if m < 0 then -(r : Int) else r))))
    s.putArr dst 16 (bs.flatMap (·.2)) (bs.map (·.1))
  else
    let w := 8 * ptBytes fmt cpx
    s.putArr dst w ((List.range (2 ^ n)).map (fun p => bits img (w * f p) w)) []
/-- The checks at commit on two regions of n bytes, and the ticket's ranges (R164, R188). -/
def checkTwo (s : State) (src dst bytes : Nat) : M Unit := do
  need (decide (src + bytes ≤ 393216) && decide (dst + bytes ≤ 393216)) (Trap.opnd 0x01) s
  need (src % 64 == 0 && dst % 64 == 0) (Trap.align 0x02) s
  need (!overlap src bytes dst bytes) (Trap.opnd 0x06) s
/-- The ranges of a form with a source and a destination region. -/
def twoRanges (src dst bytes : Nat) : List Range := [⟨2, src, src + bytes - 1, false⟩, ⟨2, dst, dst + bytes - 1, true⟩]
/-- The fields of a BPERM: format, CPX, n, and the bytes of each region. -/
def bpermF (o : OpG8) : Nat × Bool × Nat × Nat :=
  let fmt := fld o.imm 0 4
  let cpx := flag o.imm 4
  let n := fld o.imm 5 4
  (fmt, cpx, n, arrBytes fmt cpx (2 ^ n))
/-- A BPERM: its effect. -/
def permEff (o : OpG8) (f : Cmd → Nat → Nat → Nat) : Run1 := whole (fun c s => do
  let x := bpermF o
  s.checkHolder 2 c.ga.toNat x.2.2.2
  s.checkHolder 2 c.gb.toNat x.2.2.2
  pure (s.permute x.1 x.2.1 x.2.2.1 (f c x.2.2.1) c.ga.toNat c.gb.toNat))
/-- What a BPERM enqueues. -/
def permForm (o : OpG8) (i : Instr) (eff : Run1) (s : State) : Host.Outcome State Fault Refusal :=
  let x := bpermF o
  let src := (s.g o.a).toNat
  let dst := (s.g o.b).toNat
  finish (do
    checkTwo s src dst x.2.2.2
    issue { eng := .bfy, ins := i, ga := s.g o.a, gb := s.g o.b, gc := s.g o.c, ranges := twoRanges src dst x.2.2.2 } eff s)
/-- BPERM, rotation (R188): its effect. -/
def effBperm (o : OpG8) : Run1 := permEff o (fun c n p => rotl n p c.gc.toNat)
/-- BPERM, rotation (R188). -/
def execBperm (o : OpG8) (s : State) : Host.Outcome State Fault Refusal := permForm o (.bperm o) (effBperm o) s
/-- BPERM, bit reversal (R188): its effect. -/
def effBpermRev (o : OpG8) : Run1 := permEff o (fun _ n => bitrev n)
/-- BPERM, bit reversal (R188). -/
def execBpermRev (o : OpG8) (s : State) : Host.Outcome State Fault Refusal := permForm o (.bpermRev o) (effBpermRev o) s

/-! ## TWGEN (R190) -/

/-- Σ (−1)^i x^(2i+1) / (2i+1) for the arc tangent of 1 / d in fixed point; `p` is 1 / d^(2k+1). -/
def atanGo (d2 : Int) : Nat → Nat → Int → Int → Int
  | 0, _, _, acc => acc
  | n + 1, k, p, acc => atanGo d2 n (k + 1) (p / d2) (acc + (if k % 2 = 0 then 1 else -1) * (p / ((2 * k + 1 : Nat) : Int)))
/-- π in fixed point (16 atan 1/5 − 4 atan 1/239). -/
def fxPi : Int :=
  let one : Int := ((2 ^ fxP : Nat) : Int)
  16 * atanGo 25 80 0 (one / 5) 0 - 4 * atanGo (239 * 239) 30 0 (one / 239) 0
/-- The terms of the sine (k odd at the start) or cosine series; `p` is x^k / k!. -/
def trigGo (x2 : Int) : Nat → Nat → Int → Int → Int
  | 0, _, _, acc => acc
  | n + 1, k, p, acc => trigGo x2 n (k + 2) (-(fxMul p x2 / (((k + 1) * (k + 2) : Nat) : Int))) (acc + p)
/-- The magnitude of the sine or cosine of (π/2) × r / n in fixed point. -/
def fxTrig (cosine : Bool) (r n : Nat) : Nat :=
  let x := fxPi * r / ((2 * n : Nat) : Int)
  let x2 := fxMul x x
  (if cosine then trigGo x2 50 0 ((2 ^ fxP : Nat) : Int) 0 else trigGo x2 50 1 x 0).toNat
/-- cos (2π t / n), or sin, as binary32: the quadrant and the rest are exact, the value is rounded once, and an exact zero is
+0 (R190). -/
def trigOf (cosine neg : Bool) (t n : Nat) : Nat :=
  let k := 4 * (t % n) / n
  let r := 4 * (t % n) % n
  let useCos := cosine == (k % 2 == 0)
  let minus := (if cosine then k == 1 || k == 2 else decide (2 ≤ k)) != neg
  if !useCos && r == 0 then 0
  else if r = 0 then (roundRat (fmtOf 1) 0 false 0 minus 1 1 0).1
  else (roundRat (fmtOf 1) 0 false 0 minus (fxTrig useCos r n) 1 (-(fxP : Int))).1
/-- Entries 0 to n − 1 of a twiddle register written. -/
def putEntries (w : WReg) (f : Nat → Nat) (n : Nat) : WReg := mapElems w 64 (fun j => some (f j)) n
/-- How many entries a TWGEN writes. -/
def twCount (o : OpG8) : Nat := fld o.imm 8 7 + 1
/-- TWGEN, complex view (R190): its effect. -/
def effTwgenCplx (o : OpG8) : Run1 := whole (fun c s =>
  let n := c.gb.toNat
  let t := c.gc.toNat
  .ok (s.setW o.a.toNat (putEntries (s.wreg o.a.toNat)
    (fun j => trigOf true false (t + j) n + 2 ^ 32 * trigOf false true (t + j) n) (twCount o))))
/-- TWGEN, complex view (R190): N = 0 is refused at commit. -/
def execTwgenCplx (o : OpG8) (s : State) : Host.Outcome State Fault Refusal :=
  finish (do
    need (s.g o.b != 0) (Trap.opnd 0x04) s
    issue { eng := .bfy, ins := .twgenCplx o, gb := s.g o.b, gc := s.g o.c, wr := [.w o.a.toNat] } (effTwgenCplx o) s)
/-- TWGEN, modular view (R190): its effect. -/
def effTwgenMod (o : OpG8) : Run1 := whole (fun c s =>
  let q := c.modq
  let g := reduceQ q c.gb.toNat
  let t := c.gc.toNat
  let w := fun j => powQ q g.1 t * powQ q g.1 j % q
  .ok ((s.setW o.a.toNat (putEntries (s.wreg o.a.toNat) (fun j => w j + 2 ^ 32 * (w j * 2 ^ 32 / q)) (twCount o))).reduced c g.2))
/-- TWGEN, modular view (R190). -/
def execTwgenMod (o : OpG8) (s : State) : Host.Outcome State Fault Refusal :=
  engine { eng := .bfy, ins := .twgenMod o, gb := s.g o.b, gc := s.g o.c, wr := [.w o.a.toNat] } (effTwgenMod o) s

/-! ## BFPNORM (R191) -/

/-- One block normalised: exponent, mantissas and flags. -/
def normBlock (e : Nat) (ms : List Int) : Nat × List Nat × Nat :=
  let big := ms.foldl (fun a m => max a m.natAbs) 0
  let keep := ms.map (unsgn 16)
  if e = 255 then (255, keep, 0)
  else if big = 0 then (0, keep, 0)
  else if 2 ^ 13 ≤ big then
    let r := (firstFrom (fun r => decide (big < 2 ^ (13 + r))) 1 4).getD 4
    let k := ms.map (fun m => (decide (m < 0), if m = 0 then 0 else (roundUnits 0 (decide (m < 0)) 0 m.natAbs 1 0 (r : Int)).1))
    if 254 < e + r then (254, k.map (fun x => topMant x.1 x.2), fBFP)
    else (e + r, k.map (fun x => (clampMant x.1 x.2).1), 0)
  else
    let l := min ((lastBelow (fun l => decide (big * 2 ^ l < 2 ^ 13)) 14).getD 0) e
    (e - l, ms.map (fun m => unsgn 16 (m * ((2 ^ l : Nat) : Int))), 0)
/-- The blocks of an array normalised in place. -/
def State.normalise (s : State) (c : Cmd) (cpx : Bool) (n base : Nat) : State :=
  let img := s.arr base (arrBytes 0xB cpx (2 ^ n))
  let cs := compN 0xB cpx (2 ^ n)
  let bs := (List.range (cs / 32)).map (fun b =>
    normBlock (bits img (16 * cs + 8 * b) 8) ((List.range 32).map (fun i => sgn 16 (bits img (16 * (32 * b + i)) 16))))
  (s.putArr base 16 (bs.flatMap (fun b => b.2.1)) (bs.map (·.1))).raise c (bs.foldl (fun a b => a ||| b.2.2) 0)
/-- BFPNORM (R191): its effect. -/
def effBfpnorm (o : OpG8) : Run1 := whole (fun c s => do
  let cpx := flag o.imm 4
  let n := fld o.imm 5 4
  s.checkHolder 2 c.ga.toNat (arrBytes 0xB cpx (2 ^ n))
  pure (s.normalise c cpx n c.ga.toNat))
/-- BFPNORM (R185, R191): the checks at commit. -/
def execBfpnorm (o : OpG8) (s : State) : Host.Outcome State Fault Refusal :=
  let cpx := flag o.imm 4
  let n := fld o.imm 5 4
  let base := (s.g o.a).toNat
  let bytes := arrBytes 0xB cpx (2 ^ n)
  finish (do
    need (decide (blkPts cpx ≤ 2 ^ n)) (Trap.opnd 0x04) s
    checkArr s base bytes
    issue { eng := .bfy, ins := .bfpnorm o, ga := s.g o.a, ranges := [⟨2, base, base + bytes - 1, true⟩] } (effBfpnorm o) s)

/-! ## TXF (R192, R193) -/

/-- The fields of a TXF: format, CJ and n. -/
def txfF (o : OpG8) : Nat × Bool × Nat := (fld o.imm 0 4, flag o.imm 4, fld o.imm 5 4)
/-- The bytes of each region of a TXF. -/
def txfBytes (o : OpG8) : Nat := let x := txfF o; arrBytes x.1 (x.1 != 0xC) (2 ^ x.2.2)
/-- One stage of TXF: stage `resume`; the last one ends the command (R193). -/
def effTxf (o : OpG8) : Run1 := fun c s => do
  let x := txfF o
  let n := x.2.2
  let cpx := x.1 != 0xC
  let src := c.ga.toNat
  let dst := c.gb.toNat
  if c.resume = 0 then
    s.checkHolder 2 src (txfBytes o)
    s.checkHolder 2 dst (txfBytes o)
    let s := s.permute x.1 cpx n (bitrev n) src dst
    let s := if x.1 = 0xB then s.normalise c cpx n dst else s
    pure (s.modCmd c.qpos (fun e => { e with resume := 1 }))
  else
    let q : Pass := ⟨x.1, x.2.1, false, false, n, c.resume - 1, 0, 2 ^ (n - c.resume), 0, o.c.toNat⟩
    let s := (s.pass c q dst).modCmd c.qpos (fun e => { e with resume := c.resume + 1 })
    pure (if n ≤ c.resume then s.finishCmd c else s)
/-- TXF (R192): the checks at commit. -/
def execTxf (o : OpG8) (s : State) : Host.Outcome State Fault Refusal :=
  let src := (s.g o.a).toNat
  let dst := (s.g o.b).toNat
  finish (do
    checkTwo s src dst (txfBytes o)
    issue { eng := .bfy, ins := .txf o, ga := s.g o.a, gb := s.g o.b, ranges := twoRanges src dst (txfBytes o), rd := allW }
      (effTxf o) s)
/-- TXF_STAGE (R192, R193): the butterfly channel runs one stage of a running TXF. -/
def execTxfStage (cl core : Nat) (s : State) : Host.Outcome State Fault Refusal :=
  onCore cl core (fun s => s.stepRunning
    (fun c s => match c.ins with | .txf o => effTxf o c s | _ => .ok s)
    (fun c => match c.ins with | .txf _ => true | _ => false)) s

end Sys2Proof.Machine
end

