-- ==== Sys2Proof/Machine/Drain.lean ====
section
/-! DEFINITION. The function-node chain of the matrix array and MDRAIN: MCHAIN, MDRAIN to memory and to a port, MSETC
(R174 to R177, R66). -/

namespace Sys2Proof.Machine

/-- The chain that MCHAIN's IMM32 names: node numbers 16 to 23 (R174, R209). -/
def chainOf (x : BitVec 32) : Nat → List Nat
  | 0 => []
  | k + 1 => let i := 7 - k; if flag x (4 * i + 3) then (16 + fld x (4 * i) 3) :: chainOf x k else []
/-- A function node of the current core, if it is configured. -/
def State.fnode (s : State) (n : Nat) : Option Node :=
  match look n s.core.st.graph.nodes with
  | some x => if cfgType x.cfg = 4 then some x else none
  | none => none
/-- MCHAIN (R174): its effect, at dispatch. -/
def effMchain (o : OpG8) : Run1 := whole (fun _ s => do
  let ns := chainOf o.imm 8
  let running := s.core.st.graph.state == .running
  need (ns.all (fun n => (s.fnode n).elim false (fun x => decide (cfgMode x.cfg < 8) && !(running && cfgG x.cfg))))
    (Trap.opndAt 0x07 ((firstSat (fun n => !(s.fnode n).elim false (fun x => decide (cfgMode x.cfg < 8) && !(running && cfgG x.cfg))) ns).getD 0)) s
  pure (s.modSt (fun t => { t with chain := ns })))
/-- MCHAIN (R174). -/
def execMchain (o : OpG8) (s : State) : Host.Outcome State Fault Refusal :=
  engine { eng := .mat, ins := .mchain o, wr := [.chain] } (effMchain o) s

/-- MSETC (R177): its effect, at dispatch. -/
def effMsetc (o : OpG8) : Run1 := whole (fun c s => do
  let n := 16 + o.a.toNat
  need (s.fnode n).isSome (Trap.opndAt 0x07 n) s
  pure (s.modNode n (fun x => { x with const := if o.c = 0 then o.imm.toNat else fld c.gb 0 32 })))
/-- MSETC (R177). -/
def execMsetc (o : OpG8) (s : State) : Host.Outcome State Fault Refusal :=
  engine { eng := .mat, ins := .msetc o, gb := s.g o.b, wr := [.chain] } (effMsetc o) s

/-- A value through the captured chain: modes and constants in turn (R175, R218). -/
def throughChain (rm : Nat) : List Nat → Nat × Nat → Nat × Nat
  | m :: k :: r, v => let x := fnOp m rm v.1 k; throughChain rm r (x.1.getD 0, v.2 ||| x.2)
  | _, v => v
/-- What an MDRAIN fixes at its dispatch: the tile, the chain with its constants (R66, R175); or the check of R176 that
fails. -/
def drainStart (o : OpG8) (c : Cmd) (s : State) : M (Tile × List Nat × State) :=
  match c.tile with
  | some t => .ok (t, c.prog, s)
  | none => do
    let ns := s.core.st.chain
    let fmt := fld o.imm 0 4
    need (ns.all (fun n => (s.fnode n).elim false (fun x => decide (cfgMode x.cfg < 6))) && (fmt != 0 || ns.isEmpty))
      (Trap.opndAt 0x07 ((firstSat (fun n => !(s.fnode n).elim false (fun x => decide (cfgMode x.cfg < 6))) ns).getD
        (nthD 0 ns 0))) s
    let prog := ns.flatMap (fun n => let x := s.node n; [cfgMode x.cfg, x.const])
    let a := o.a.toNat
    let t := s.areg a
    pure (t, prog, s.modCmd c.qpos (fun e => { e with tile := some t, prog := prog }))
/-- The generators that an MDRAIN draws from: its slot's, or the old sequences where they have been reseeded since (R65). -/
def State.drainGens (s : State) (c : Cmd) : BitVec 16384 := ((s.core.cmd c.qpos).bind (·.gens)).getD s.slot.gens
/-- See `State.drainGens`. -/
def State.setDrainGens (s : State) (c : Cmd) (g : BitVec 16384) : State :=
  if ((s.core.cmd c.qpos).bind (·.gens)).isSome then s.modCmd c.qpos (fun e => { e with gens := some g })
  else s.modSlot (fun x => { x with gens := g })
/-- Element e of a drained tile, rounded to the format under the captured VTYPE, with its flags; under SR it takes a draw of
its generator (R175). -/
def drainElem (c : Cmd) (fmt : Nat) (t : Tile) (prog : List Nat) (e : Nat) (s : State) : (Nat × Nat) × State :=
  let f64 := fmt == 0
  let w := (accShape f64).1
  let cols := (accShape f64).2
  let rm := vtRm c.vtype
  let v := throughChain (arithRm rm) prog (elem t w e, 0)
  let gi := (e / cols * 96 + e % cols) % 512
  let d := srDraw (elem (s.drainGens c) 32 gi)
  let s := if rm = 4 then s.setDrainGens c (setElem (s.drainGens c) 32 gi d.2) else s
  let x := fval (fmtOf (if f64 then 0 else 1)) v.1
  let r := fround (fmtOf fmt) rm (vtSat c.vtype) (if rm = 4 then d.1 else 0) x
  ((r.1, r.2 ||| v.2 ||| (if x.isSig then fNV else 0)), s)
/-- n elements from e on, packed into one number, with their flags. -/
def drainLine (c : Cmd) (fmt : Nat) (t : Tile) (prog : List Nat) (w : Nat) : Nat → Nat → State → (Nat × Nat) × State
  | 0, _, s => ((0, 0), s)
  | n + 1, e, s =>
    let x := drainElem c fmt t prog e s
    let r := drainLine c fmt t prog w n (e + 1) x.2
    ((x.1.1 + 2 ^ w * r.1.1, x.1.2 ||| r.1.2), r.2)
/-- With Z the tile becomes all +0 after it has been read (R175). -/
def drainEnd (o : OpG8) (s : State) : State := if flag o.imm 8 then s.setA o.a.toNat 0 else s
/-- What orders an MDRAIN under SR: the seeding of the generators, and the draws of other drains (R65, R175). -/
def drainSr (vt : Word) : List Res × List Res := if vtRm vt = 4 then ([.gens], [.draw]) else ([], [])
/-- The bytes of an MDRAIN's image (R176). -/
def drainBytes (fmt : Nat) : Nat := if fmt = 0 then 49152 else 12288 * fmtBytes fmt
/-- MDRAIN to memory (R175, R176): its effect, line by line. NOT_HOLDER comes before the other checks at dispatch (log 82). -/
def effMdrain (o : OpG8) : Run1 := whole (fun c s => do
  let fmt := fld o.imm 0 4
  let spc := fld o.imm 4 3
  let ea := c.gb.toNat
  s.checkHolder spc ea (drainBytes fmt)
  let (t, prog, s) ← drainStart o c s
  let es := fmtBytes fmt
  let k := 64 / es
  let ad := fun i => ea + 64 * i
  let s ← storeElems c.qpos ad (fun s i => do
    let (p, s) ← s.access spc (ad i) 64 64 .wr
    let r := drainLine c fmt t prog (8 * es) k (k * i) s
    pure ((r.2.raise c r.1.2).writeSpot p r.1.1 64))
    ((List.range (drainBytes fmt / 64)).filter (fun i => decide (c.resume ≤ i))) s
  pure (drainEnd o s))
/-- MDRAIN to memory (R175, R176): the checks at commit. -/
def execMdrain (o : OpG8) (s : State) : Host.Outcome State Fault Refusal :=
  let fmt := fld o.imm 0 4
  let spc := fld o.imm 4 3
  let ea := (s.g o.b).toNat
  finish (do
    need (s.full || fmt != 0) Trap.absent s
    s.checkImage spc ea (drainBytes fmt) .wr
    issue { eng := .mat, ins := .mdrain o, gb := s.g o.b, ranges := [⟨spc, ea, ea + drainBytes fmt - 1, true⟩],
            rd := [.a o.a.toNat, .chain] ++ (drainSr s.slot.vtype).1,
            wr := (if flag o.imm 8 then [.a o.a.toNat] else []) ++ (drainSr s.slot.vtype).2 } (effMdrain o) s)

/-- Token k of a drain to a port (R176), with what its element raises: 97 a row, the last of them a stop, and done at the
end with END. -/
def drainToken (c : Cmd) (rank : Nat) (end_ : Bool) (t : Tile) (prog : List Nat) (k : Nat) (s : State) : Token × State :=
  let row := k / 97
  let col := k % 97
  if 128 ≤ row then (Token.done, s)
  else if col < 96 then
    let x := drainElem c 1 t prog (96 * row + col) s
    (⟨0, x.1.1⟩, x.2.raise c x.1.2)
  else (Token.stop (if row < 127 then 0 else if end_ then rank else 1), s)
/-- The tokens of a drain to a port from token k on, while the port has room. -/
def drainGo (c : Cmd) (p rank : Nat) (end_ : Bool) (t : Tile) (prog : List Nat) : Nat → Nat → State → M State
  | 0, _, s => .ok s
  | n + 1, k, s =>
    if s.engineRoom 8 p then
      let r := drainToken c rank end_ t prog k s
      drainGo c p rank end_ t prog n (k + 1) (r.2.enginePush 8 p r.1)
    else .error (.stall (s.modCmd c.qpos (fun e => { e with resume := k })))
/-- MDRAIN to a port (R176): its effect, token by token. -/
def effMdrainStream (o : OpG8) : Run1 := whole (fun c s => do
  let p := o.c.toNat
  let x := s.port p
  need (c.tile.isSome || (fld o.imm 0 4 == 1 && x.kind == 8 && x.dir == 1 && decide (1 ≤ x.rank))) (Trap.opndAt 0x07 p) s
  let (t, prog, s) ← drainStart o c s
  let e := flag o.imm 9
  let s ← drainGo c p x.rank e t prog (12416 + b2n e - c.resume) c.resume s
  pure (drainEnd o s))
/-- MDRAIN to a port (R175, R176). -/
def execMdrainStream (o : OpG8) (s : State) : Host.Outcome State Fault Refusal :=
  finish (do
    need (s.full || fld o.imm 0 4 != 0) Trap.absent s
    issue { eng := .mat, ins := .mdrainStream o,
            rd := [.a o.a.toNat, .chain, .s o.c.toNat] ++ (drainSr s.slot.vtype).1,
            wr := (if flag o.imm 8 then [.a o.a.toNat] else []) ++ (drainSr s.slot.vtype).2 } (effMdrainStream o) s)

end Sys2Proof.Machine
end

