-- ==== Sys2Proof/Machine/Mgmt.lean ====
section
/-! DEFINITION. The management window (R401, R407): every register by its offset, the debug view (R385, R386), and the
host's write of a register. -/

namespace Sys2Proof.Machine

/-- A read of LNQCTL, LNQBASE, LNQFAULT of a launch queue (R368). -/
def Lnq.word (q : Lnq) : Nat → Word
  | 0 => q.ctl
  | 1 => q.base
  | 2 => q.fault
  | _ => 0
/-- A read of a word of an NVMe pair (R411). -/
def Nvq.word (q : Nvq) : Nat → Word
  | 0 => q.ctl
  | 1 => q.sq
  | 2 => q.cq
  | 3 => q.db
  | 4 => q.stat
  | 5 => q.flt
  | _ => 0
/-- Word j of a measurement register (R444). -/
def mregWord (r : BitVec 384) (j : Nat) : Word := r.extractLsb' (64 * j) 64
/-- A word of the debug view (R385). -/
def State.debugRead (s : State) (off : Nat) : Word × State :=
  let d := s.hub.dbgsel
  if flag d 63 then
    let c := s.coreAt (fld d 16 6) (fld d 13 3)
    (word (leNat ((List.range 8).map (fun i => c.areaByte true (off + i)))), s)
  else (0, s)
/-- A READ of 8 bytes at an aligned offset of the management window (R401); HUSKOUT pops. -/
def State.mgmtRead (s : State) (off : Nat) : Word × State :=
  let i := fun (base size : Nat) => (off - base) / size
  if 0x100000 ≤ off ∧ off < 0x108000 then ((look (i 0x100000 8) s.xl.ctxtab).getD 0, s)
  else if off = 0x110000 then (s.xl.tlbinv, s)
  else if off = 0x110008 then (word (s.xl.age % 2 ^ 48), s)
  else if off = 0x110010 then (word (s.quiesce % 2 ^ 48), s)
  else if off = 0x110020 then s.huskOut
  else if off = 0x110028 then (s.huskStat, s)
  else if off = 0x110030 then (s.xl.shdbase, s)
  else if 0x120000 ≤ off ∧ off < 0x120400 then ((look (i 0x120000 8) s.xl.pxw).getD 0, s)
  else if 0x130000 ≤ off ∧ off < 0x130800 then ((s.lnq (i 0x130000 32)).word (off % 32 / 8), s)
  else if off = 0x140000 then (s.hub.trqbase, s)
  else if off = 0x140008 then (s.hub.trqidx, s)
  else if off = 0x140010 then (s.hub.fatalpend, s)
  else if off = 0x140018 then (s.hub.thract, s)
  else if off = 0x140020 then (s.hub.thrarg, s)
  else if off = 0x140028 then (s.hub.dbgsel, s)
  else if 0x200000 ≤ off ∧ off < 0x210000 then ((s.nvq (i 0x200000 64)).word (off % 64 / 8), s)
  else if off = 0x300000 then (s.er.elgbase, s)
  else if off = 0x300008 then (s.er.elgidx, s)
  else if off = 0x300010 then (word (s.er.cloff % 2 ^ 40), s)
  else if off = 0x300018 then (s.er.tlmbase, s)
  else if off = 0x300020 then (word s.time, s)
  else if 0x400000 ≤ off ∧ off < 0x500000 then (s.tlmRead off, s)
  else if 0x500000 ≤ off ∧ off < 0x600000 then
    let d := s.region (i 0x500000 256) (off % 256 / 16)
    (if off % 16 = 0 then d.1 else d.2, s)
  else if 0x600000 ≤ off ∧ off < 0x608000 then (s.block (i 0x600000 8), s)
  else if off = 0x610000 then (s.bt.hzloada, s)
  else if off = 0x610008 then (s.bt.hzloadl, s)
  else if off = 0x610010 then (s.bt.hzload, s)
  else if off = 0x610018 then (s.bt.hzstat, s)
  else if off = 0x610020 then (s.bt.pwrctl, s)
  else if off = 0x610028 then (s.bt.bootstat, s)
  else if 0x610040 ≤ off ∧ off < 0x6101F0 then
    (mregWord (s.bt.mreg[i 0x610040 48]?.getD 0) ((off - 0x610040) % 48 / 8), s)
  else if 0x610200 ≤ off ∧ off < 0x610230 then (s.bt.mregxd[i 0x610200 8]?.getD 0, s)
  else if off = 0x610230 then (s.bt.mregxgo, s)
  else if 0x1000000 ≤ off ∧ off < 0x11D0000 then s.debugRead (off - 0x1000000)
  else (0, s)

/-- A WRITE of 8 bytes at an aligned offset of the management window (R401): the register's own effect; read-only words and
offsets not listed ignore it. -/
def State.mgmtWrite (s : State) (off : Nat) (v : Word) : M State :=
  let i := fun (base size : Nat) => (off - base) / size
  if 0x100000 ≤ off ∧ off < 0x108000 then .ok (s.ctxWrite (i 0x100000 8) v)
  else if off = 0x110000 then .ok (s.tlbinvWrite v)
  else if off = 0x110018 then .ok (s.huskIn v)
  else if off = 0x110028 then .ok (if flag v 63 then s.modXl (fun x => { x with huskRef := false }) else s)
  else if off = 0x110030 then .ok (s.shdWrite v)
  else if 0x120000 ≤ off ∧ off < 0x120400 then .ok (s.pxwWrite (i 0x120000 8) v)
  else if 0x130000 ≤ off ∧ off < 0x130800 then
    let n := i 0x130000 32
    .ok (match off % 32 / 8 with
      | 0 => s.lnqCtl n v
      | 1 => s.lnqBase n v
      | 2 => s.lnqClear n v
      | _ => s)
  else if off = 0x140000 then
    let base := if trqOcc s.hub.trqidx = 0 then v &&& 0x003F_FFFF_FFFF_F000 else s.hub.trqbase
    .ok (s.modHub (fun h => { h with trqbase := setFld base 0 12 (fld v 0 12) }))
  else if off = 0x140008 then .ok (s.trqConsume (fld v 16 12))
  else if off = 0x140010 then
    .ok (if flag v 63 then s.modHub (fun h => { h with fatalpend := setFld (setFld h.fatalpend 63 1 0) 32 16 0 }) else s)
  else if off = 0x140018 then .ok (s.thractWrite v)
  else if off = 0x140020 then .ok (s.thrargWrite v)
  else if off = 0x140028 then .ok (s.modHub (fun h => { h with dbgsel := v &&& 0x8000_0000_003F_E000 }))
  else if 0x200000 ≤ off ∧ off < 0x210000 then
    let n := i 0x200000 64
    match off % 64 / 8 with
    | 0 => s.nvqCtl n v
    | 1 => .ok (s.nvqAddr n 1 v)
    | 2 => .ok (s.nvqAddr n 2 v)
    | 3 => .ok (s.nvqAddr n 3 v)
    | _ => .ok s
  else if off = 0x300000 then .ok (s.modEr (fun e => { e with elgbase := v &&& 0x000F_FFFF_FFFF_8000 }))
  else if off = 0x300008 then .ok (s.elgWrite v)
  else if off = 0x300018 then .ok (s.modEr (fun e => { e with tlmbase := v &&& 0x000F_FFFF_FFFF_FFFF }))
  else if 0x500000 ≤ off ∧ off < 0x600000 then
    .ok (if off % 16 = 0 then s.regionLow (i 0x500000 256) (off % 256 / 16) v
      else s.regionHigh (i 0x500000 256) (off % 256 / 16) v)
  else if 0x600000 ≤ off ∧ off < 0x608000 then .ok (s.blockWrite (i 0x600000 8) v)
  else if off = 0x610000 then .ok (s.modBt (fun b => { b with hzloada := v &&& 0x000F_FFFF_FFFF_FFFF }))
  else if off = 0x610008 then .ok (s.modBt (fun b => { b with hzloadl := v &&& 0xFFFF_FFFF }))
  else if off = 0x610010 then .ok (s.hzWrite v)
  else if off = 0x610020 then .ok (s.pwrWrite v)
  else if 0x610200 ≤ off ∧ off < 0x610230 then
    .ok (s.modBt (fun b => { b with mregxd := b.mregxd.setIfInBounds (i 0x610200 8) v }))
  else if off = 0x610230 then .ok (s.mregxWrite v)
  else .ok s
/-- REGISTER_WRITE (R401): the host writes 8 bytes at an offset of the management window; an offset that is not aligned
names no register. -/
def execRegisterWrite (offset value : Nat) (s : State) : Host.Outcome State Fault Refusal :=
  hostStep (if offset % 8 = 0 then s.mgmtWrite offset (word value) else .ok s) s

end Sys2Proof.Machine
end

