-- ==== Sys2Proof/Machine/ScalarMem.lean ====
section
/-! DEFINITION. Scalar loads, stores and atomics: LD, ST, AMO (R105 to R111, R392, R401, R407). -/

namespace Sys2Proof.Machine

/-- Bytes of a width code: .B .H .W .D, then their unsigned forms (R79). -/
def widBytes (wid : BitVec 3) : Nat := 2 ^ (wid.toNat % 4)
/-- A loaded value extended under its width code (R105). -/
def widExt (wid : BitVec 3) (x : Nat) : Word := if wid.toNat < 4 then sextW (8 * widBytes wid) x else word x
/-- The effective address of LD and ST (R105). -/
def State.eaL4 (s : State) (o : OpL4) : Nat := (s.g o.base + o.off.signExtend 64).toNat
/-- Wait for an engine command that overlaps the bytes (R107). -/
def State.waitRange (s : State) (spc ea n : Nat) (wr : Bool) : M Unit :=
  if s.scalarWaits spc ea n wr then .error (.stall s) else .ok ()
/-- What a scalar load of n bytes reads (R105, R106, R401). A load through an NVMe window leaves on its root port, and the
drive's answer is a free value (R392, R407, log 66). -/
def State.scalarRead (s : State) (spc ea n : Nat) : M (Nat × State) := do
  s.checkData spc ea n .rd
  s.waitRange spc ea n false
  if spc = 0 then
    let (p, s) ← s.xlate ea .rd .scalar
    match p with
    | .mem loc => s.readPlace ea loc n 0
    | .mgmt off =>
      if n = 8 then
        let r := s.mgmtRead off
        pure (r.1.toNat, r.2)
      else pure (0, s)
    | .drive port a =>
      let x := s.fresh
      pure (x.1 % 2 ^ (8 * n), x.2.emit (.driveLoad port a n))
  else pure (s.bufRead spc ea n, s)
/-- A scalar store of the n low bytes of x (R105, R106, R401); through an NVMe window it leaves on its root port (R392, R407). -/
def State.scalarWrite (s : State) (spc ea n x : Nat) : M State := do
  s.checkData spc ea n .wr
  s.waitRange spc ea n true
  if spc = 0 then
    let (p, s) ← s.xlate ea .wr .scalar
    match p with
    | .mem loc => pure (s.viewWrite loc x n)
    | .mgmt off => if n = 8 then s.mgmtWrite off (word x) else pure s
    | .drive port a => pure (s.emit (.driveStore port a n (x % 2 ^ (8 * n))))
  else pure (s.bufWrite spc ea x n)
/-- LD (R105 to R108). -/
def execLd (o : OpL4) (s : State) : Host.Outcome State Fault Refusal :=
  commit s (fun s => do
    let (x, t) ← s.scalarRead o.spc.toNat (s.eaL4 o) (widBytes o.wid)
    pure (t.setG o.d (widExt o.wid x)))
/-- ST (R105 to R108). -/
def execSt (o : OpL4) (s : State) : Host.Outcome State Fault Refusal :=
  commit s (fun s => s.scalarWrite o.spc.toNat (s.eaL4 o) (widBytes o.wid) (s.g o.d).toNat)

/-- AMO of an operation (R109 to R111): the checks of R106, the wait of R107, the indivisible update, the old value. -/
def amo (op : Nat) (o : OpAM) (s : State) : Host.Outcome State Fault Refusal :=
  let n := 2 ^ (o.sz.toNat + 1)
  let ea := (s.g o.base).toNat
  commit s (fun s => do
    let (p, t) ← s.access o.spc.toNat ea n n .atm
    t.waitRange o.spc.toNat ea n true
    let (old, t) ← t.atomic p op (8 * n) (s.g o.val).toNat (s.g o.cmp).toNat
    pure (t.setG o.d (word old)))
/-- AMO.ADD (R110). -/
def execAmoAdd (o : OpAM) (s : State) : Host.Outcome State Fault Refusal := amo 0 o s
/-- AMO.AND (R110). -/
def execAmoAnd (o : OpAM) (s : State) : Host.Outcome State Fault Refusal := amo 1 o s
/-- AMO.OR (R110). -/
def execAmoOr (o : OpAM) (s : State) : Host.Outcome State Fault Refusal := amo 2 o s
/-- AMO.XOR (R110). -/
def execAmoXor (o : OpAM) (s : State) : Host.Outcome State Fault Refusal := amo 3 o s
/-- AMO.MIN (R110). -/
def execAmoMin (o : OpAM) (s : State) : Host.Outcome State Fault Refusal := amo 4 o s
/-- AMO.MAX (R110). -/
def execAmoMax (o : OpAM) (s : State) : Host.Outcome State Fault Refusal := amo 5 o s
/-- AMO.MINU (R110). -/
def execAmoMinu (o : OpAM) (s : State) : Host.Outcome State Fault Refusal := amo 6 o s
/-- AMO.MAXU (R110). -/
def execAmoMaxu (o : OpAM) (s : State) : Host.Outcome State Fault Refusal := amo 7 o s
/-- AMO.FADD (R110). -/
def execAmoFadd (o : OpAM) (s : State) : Host.Outcome State Fault Refusal := amo 8 o s
/-- AMO.BFADD (R110). -/
def execAmoBfadd (o : OpAM) (s : State) : Host.Outcome State Fault Refusal := amo 9 o s
/-- AMO.SWAP (R110). -/
def execAmoSwap (o : OpAM) (s : State) : Host.Outcome State Fault Refusal := amo 10 o s
/-- AMO.CAS (R110). -/
def execAmoCas (o : OpAM) (s : State) : Host.Outcome State Fault Refusal := amo 11 o s

end Sys2Proof.Machine
end

