-- ==== Sys2Proof/Machine/VecMem.lean ====
section
/-! DEFINITION. Vector loads and stores, packed and bit-plane transfers, scale and twiddle loads, scatter-adds and vector
atomics: majors 0x2D, 0x2E and 0x2F (R156 to R162). -/

namespace Sys2Proof.Machine

/-- The most elements a command may reach, as its range is fixed at commit: VL, or VLMAX when it pops a length. -/
def rangeLen (len : BitVec 3) (s : State) : Nat := if 4 ≤ len.toNat then vtVlmax s.slot.vtype else s.slot.vl
/-- Whether VLD and VST move a packed run under VTYPE (R157): bits of an element, or none. -/
def packBits (vt : Word) : Option Nat :=
  if vtSewCode vt = 0 then (if vtFmt vt = 6 ∨ vtFmt vt = 7 then some 6 else if vtFmt vt = 8 then some 4 else none) else none

/-- The address of element i: base plus a signed multiple, modulo 2^64. -/
def eaOf (base : Word) (i : Nat) (stride : Int) : Nat := (base + BitVec.ofInt 64 (i * stride)).toNat

/-- The signed stride in `gb` for the strided forms, es for the others, in a queued command. -/
def unitStride (c : Cmd) : Int := (vtEs c.vtype : Nat)

/-- A memory command notes its length, active positions, and the addresses of the first and last active element (R387). -/
def State.noteMem (s : State) (c : Cmd) (n : Nat) (es : List Nat) (addr : Nat → Nat) : State :=
  s.modCmd c.qpos (fun k => { k with tr := (n, es.length, (es.head?.map addr).getD 0, (es.getLast?.map addr).getD 0) })

/-- A load of whole elements into vD: the elements' addresses are given by `addr` (R156, R158). -/
def loadEff (o : OpM4) (addr : Cmd → State → Nat → Nat → Nat) : Run1 := whole (fun c s => do
  let w := vtSew c.vtype
  let es := w / 8
  let n := c.len o.len (vlmax w)
  let m := s.mreg o.msk.toNat
  let els := actives m n
  let ad := addr c s w
  let s := s.noteMem c n els ad
  let (xs, s) ← loadElems ad (fun s e => do
    let (p, s) ← s.access o.spc.toNat (ad e) es es .rd
    s.readSpot p es) els s
  pure (s.setV o.d.toNat (xs.foldl (fun r x => setElem r w x.1 x.2) (s.vreg o.d.toNat))))
/-- A store of whole elements of vD (R156, R158). -/
def storeEff (o : OpM4) (addr : Cmd → State → Nat → Nat → Nat) : Run1 := whole (fun c s =>
  let w := vtSew c.vtype
  let es := w / 8
  let n := c.len o.len (vlmax w)
  let m := s.mreg o.msk.toNat
  let els := actives m n
  let ad := addr c s w
  let d := s.vreg o.d.toNat
  let s := s.noteMem c n els ad
  storeElems c.qpos ad (fun s e => do
    let (p, s) ← s.access o.spc.toNat (ad e) es es .wr
    pure (s.writeSpot p (elem d w e) es)) (els.filter (fun e => decide (c.resume ≤ e))) s)

/-- Addresses of the unit-stride forms. -/
def unitAddr (c : Cmd) (_ : State) (w i : Nat) : Nat := eaOf c.ga i (w / 8 : Nat)
/-- Addresses of the strided forms. -/
def strideAddr (c : Cmd) (_ : State) (_ i : Nat) : Nat := eaOf c.ga i c.gb.toInt
/-- Addresses of the indexed forms. -/
def indexAddr (ix : Nat) (c : Cmd) (s : State) (w : Nat) : Nat → Nat :=
  let v := s.vreg ix
  fun i => eaOf c.ga (elem v w i) (w / 8 : Nat)

/-- The bytes that bit b to b + k − 1 of a packed run occupy, as a first byte and a count. -/
def packBytes (k i : Nat) : Nat × Nat := (k * i / 8, (k * i + k - 1) / 8 - k * i / 8 + 1)
/-- A packed load: element i is k bits at bit k × i of the run (R14, R157). -/
def loadPacked (o : OpM4) (k : Nat) : Run1 := whole (fun c s => do
  let n := c.len o.len 512
  let els := actives (s.mreg o.msk.toNat) n
  let ad := fun i => eaOf c.ga (packBytes k i).1 1
  let s := s.noteMem c n els ad
  need (n % (if k = 6 then 4 else 2) == 0) (Trap.opndAt 0x05 n) s
  let (xs, s) ← loadElems ad (fun s e =>
    (List.range (packBytes k e).2).foldlM (fun (acc : Nat × State) j => do
      let (p, s) ← acc.2.access o.spc.toNat (eaOf c.ga ((packBytes k e).1 + j) 1) 1 1 .rd
      let (b, s) ← s.readSpot p 1
      pure (acc.1 + b <<< (8 * j), s)) (0, s)) els s
  pure (s.setV o.d.toNat (xs.foldl (fun r x => setElem r 8 x.1 (bits x.2 (k * x.1 % 8) k)) (s.vreg o.d.toNat))))
/-- A number with bits [lo + k − 1 : lo] replaced. -/
def natFld (b lo k x : Nat) : Nat := b - (bits b lo k) <<< lo + (x % 2 ^ k) <<< lo
/-- A packed store changes only the bits of active elements (R157). -/
def storePacked (o : OpM4) (k : Nat) : Run1 := whole (fun c s => do
  let n := c.len o.len 512
  let els := actives (s.mreg o.msk.toNat) n
  let ad := fun i => eaOf c.ga (packBytes k i).1 1
  let d := s.vreg o.d.toNat
  let s := s.noteMem c n els ad
  need (n % (if k = 6 then 4 else 2) == 0) (Trap.opndAt 0x05 n) s
  storeElems c.qpos ad (fun s e => do
    let cnt := (packBytes k e).2
    let (ps, s) ← (List.range cnt).foldlM (fun (acc : List Spot × State) j => do
      let (p, s) ← acc.2.access o.spc.toNat (eaOf c.ga ((packBytes k e).1 + j) 1) 1 1 .wr
      pure (acc.1 ++ [p], s)) ([], s)
    let (old, s) ← ps.zipIdx.foldlM (fun (acc : Nat × State) p => do
      let (b, s) ← acc.2.readSpot p.1 1
      pure (acc.1 + b <<< (8 * p.2), s)) (0, s)
    let new := natFld old (k * e % 8) k (elem d 8 e)
    pure (ps.zipIdx.foldl (fun s p => s.writeSpot p.1 (bits new (8 * p.2) 8) 1) s))
    (els.filter (fun e => decide (c.resume ≤ e))) s)

/-- VLD (R156, R157): its effect. -/
def effVld (o : OpM4) : Run1 := fun c s =>
  match packBits c.vtype with
  | some k => loadPacked o k c s
  | none => loadEff o unitAddr c s
/-- VST (R156, R157): its effect. -/
def effVst (o : OpM4) : Run1 := fun c s =>
  match packBits c.vtype with
  | some k => storePacked o k c s
  | none => storeEff o unitAddr c s
/-- VLDS (R156): its effect. -/
def effVlds (o : OpM4) : Run1 := loadEff o strideAddr
/-- VSTS (R156): its effect. -/
def effVsts (o : OpM4) : Run1 := storeEff o strideAddr
/-- VLDX (R156): its effect. -/
def effVldx (o : OpM4) : Run1 := loadEff o (indexAddr o.ix.toNat)
/-- VSTX (R156): its effect. -/
def effVstx (o : OpM4) : Run1 := storeEff o (indexAddr o.ix.toNat)

/-- Addresses of bit i of plane p (R157). -/
def planeAddr (c : Cmd) (p i : Nat) : Nat := (c.ga + word p * c.gb + word (i / 8)).toNat
/-- VLDBP (R157): its effect. -/
def effVldbp (o : OpM4) : Run1 := whole (fun c s => do
  let n := c.len o.len 512
  let els := actives (s.mreg o.msk.toNat) n
  let s := s.noteMem c n els (planeAddr c 0)
  need (n % 8 == 0) (Trap.opndAt 0x05 n) s
  let (xs, s) ← loadElems (planeAddr c 0) (fun s e =>
    (List.range (vtPln c.vtype)).foldlM (fun (acc : Nat × State) p => do
      let (t, s) ← acc.2.access o.spc.toNat (planeAddr c p e) 1 1 .rd
      let (b, s) ← s.readSpot t 1
      pure (acc.1 + (bits b (e % 8) 1) <<< (7 - p), s)) (0, s)) els s
  pure (s.setV o.d.toNat (xs.foldl (fun r x => setElem r 8 x.1 x.2) (s.vreg o.d.toNat))))
/-- VSTBP (R157): its effect. -/
def effVstbp (o : OpM4) : Run1 := whole (fun c s => do
  let n := c.len o.len 512
  let els := actives (s.mreg o.msk.toNat) n
  let d := s.vreg o.d.toNat
  let s := s.noteMem c n els (planeAddr c 0)
  need (n % 8 == 0) (Trap.opndAt 0x05 n) s
  storeElems c.qpos (planeAddr c 0) (fun s e => do
    let (ps, s) ← (List.range (vtPln c.vtype)).foldlM (fun (acc : List (Nat × Spot) × State) p => do
      let (t, s) ← acc.2.access o.spc.toNat (planeAddr c p e) 1 1 .wr
      pure (acc.1 ++ [(p, t)], s)) ([], s)
    ps.foldlM (fun s pt => do
      let (b, s) ← s.readSpot pt.2 1
      pure (s.writeSpot pt.2 (natFld b (e % 8) 1 (bits (elem d 8 e) (7 - pt.1) 1)) 1)) s)
    (els.filter (fun e => decide (c.resume ≤ e))) s)

/-- VLDK (R156): its effect. -/
def effVldk (o : OpM4) : Run1 := whole (fun c s => do
  let n := c.len o.len (vtVlmax c.vtype)
  let els := actives (s.mreg o.msk.toNat) n
  let ad := strideAddr c s 8
  let s := s.noteMem c n els ad
  need (decide (n ≤ 256)) (Trap.opndAt 0x05 n) s
  let (xs, s) ← loadElems ad (fun s e => do
    let (p, s) ← s.access o.spc.toNat (ad e) 1 1 .rd
    s.readSpot p 1) els s
  pure (s.setK o.d.toNat (xs.foldl (fun r x => setElem r 8 x.1 x.2) (s.kreg o.d.toNat))))
/-- VLDW (R156): its effect. -/
def effVldw (o : OpM4) : Run1 := whole (fun c s => do
  let n := c.len o.len (vtVlmax c.vtype)
  let els := actives (s.mreg o.msk.toNat) n
  let ad := fun i => eaOf c.ga i 8
  let s := s.noteMem c n els ad
  need (decide (n ≤ 128)) (Trap.opndAt 0x05 n) s
  let (xs, s) ← loadElems ad (fun s e => do
    let (p, s) ← s.access o.spc.toNat (ad e) 8 8 .rd
    s.readSpot p 8) els s
  pure (s.setW o.d.toNat (xs.foldl (fun r x => setElem r 64 x.1 x.2) (s.wreg o.d.toNat))))

/-- One return-free element: it waits while RFOUT stands at its limit (R340). -/
def offElem (s : State) (spc ea n op w x cmp : Nat) : M State := do
  let (p, s) ← s.access spc ea n n .atm
  if spc = 0 ∧ 65535 ≤ s.slot.rfout then .error (.stall s) else pure (s.sendOff p op w x cmp)
/-- VSCADD (R160): its effect. -/
def effVscadd (o : OpM4) : Run1 := whole (fun c s =>
  let w := vtSew c.vtype
  let n := c.len o.len (vlmax w)
  let els := actives (s.mreg o.msk.toNat) n
  let ad := indexAddr o.ix.toNat c s w
  let d := s.vreg o.d.toNat
  let s := s.noteMem c n els ad
  storeElems c.qpos ad (fun s e => offElem s o.spc.toNat (ad e) (w / 8) (if w = 32 then 8 else 9) w (elem d w e) 0)
    (els.filter (fun e => decide (c.resume ≤ e))) s)

/-- What a unit-stride, bit-plane, scale or twiddle form enqueues: the base, the register `ix` names where it is a g
register, the range it covers, and what it writes. -/
def memForm (o : OpM4) (i : Instr) (gb : Word) (ranges : List Range) (rd wr : List Res) (eff : Run1) (s : State) :
    Host.Outcome State Fault Refusal :=
  engine { eng := .vec, ins := i, lens := [o.len], ga := s.g o.base, gb := gb, ranges := ranges,
           rd := .m o.msk.toNat :: rd, wr := wr } eff s
/-- The range of a strided run. -/
def runRange (o : OpM4) (s : State) (stride : Int) (es : Nat) (wr : Bool) : List Range :=
  strideRange o.spc.toNat (s.g o.base).toNat stride (rangeLen o.len s) es wr
/-- The range of a unit-stride run, packed or not (R157, R159). -/
def unitRange (o : OpM4) (s : State) (wr : Bool) : List Range :=
  match packBits s.slot.vtype with
  | some k => strideRange o.spc.toNat (s.g o.base).toNat 1 (cdiv (rangeLen o.len s * k) 8) 1 wr
  | none => runRange o s (vtEs s.slot.vtype : Nat) (vtEs s.slot.vtype) wr
/-- The range of the bit planes. -/
def planeRange (o : OpM4) (s : State) (wr : Bool) : List Range :=
  strideRange o.spc.toNat (s.g o.base).toNat ((s.g o.ix).toNat : Int) (vtPln s.slot.vtype) (cdiv (rangeLen o.len s) 8) wr
/-- The format check of the bit-plane forms (R132). -/
def bpGuard (f : State → Host.Outcome State Fault Refusal) (s : State) : Host.Outcome State Fault Refusal :=
  if vtFmt s.slot.vtype ≠ 0xA then finish (.error (.trap (Trap.ill 0x08) s)) else f s
/-- VLD (R156). -/
def execVld (o : OpM4) (s : State) : Host.Outcome State Fault Refusal :=
  memForm o (.vld o) 0 (unitRange o s false)
    [] [.v o.d.toNat] (effVld o) s
/-- VLDS (R156). -/
def execVlds (o : OpM4) (s : State) : Host.Outcome State Fault Refusal :=
  memForm o (.vlds o) (s.g o.ix) (runRange o s (s.g o.ix).toInt (vtEs s.slot.vtype) false)
    [] [.v o.d.toNat] (effVlds o) s
/-- VLDX (R156). -/
def execVldx (o : OpM4) (s : State) : Host.Outcome State Fault Refusal :=
  memForm o (.vldx o) 0 [wholeRange o.spc.toNat false]
    [.v o.ix.toNat] [.v o.d.toNat] (effVldx o) s
/-- VLDBP (R157). -/
def execVldbp (o : OpM4) (s : State) : Host.Outcome State Fault Refusal :=
  bpGuard (fun s => memForm o (.vldbp o) (s.g o.ix) (planeRange o s false)
    [] [.v o.d.toNat] (effVldbp o) s) s
/-- VLDK (R156). -/
def execVldk (o : OpM4) (s : State) : Host.Outcome State Fault Refusal :=
  memForm o (.vldk o) (s.g o.ix) (runRange o s (s.g o.ix).toInt 1 false)
    [] [.k o.d.toNat] (effVldk o) s
/-- VLDW (R156). -/
def execVldw (o : OpM4) (s : State) : Host.Outcome State Fault Refusal :=
  memForm o (.vldw o) 0 (runRange o s 8 8 false)
    [] [.w o.d.toNat] (effVldw o) s
/-- VST (R156). -/
def execVst (o : OpM4) (s : State) : Host.Outcome State Fault Refusal :=
  memForm o (.vst o) 0 (unitRange o s true)
    [.v o.d.toNat] [] (effVst o) s
/-- VSTS (R156). -/
def execVsts (o : OpM4) (s : State) : Host.Outcome State Fault Refusal :=
  memForm o (.vsts o) (s.g o.ix) (runRange o s (s.g o.ix).toInt (vtEs s.slot.vtype) true)
    [.v o.d.toNat] [] (effVsts o) s
/-- VSTX (R156). -/
def execVstx (o : OpM4) (s : State) : Host.Outcome State Fault Refusal :=
  memForm o (.vstx o) 0 [wholeRange o.spc.toNat true]
    [.v o.d.toNat, .v o.ix.toNat] [] (effVstx o) s
/-- VSTBP (R157). -/
def execVstbp (o : OpM4) (s : State) : Host.Outcome State Fault Refusal :=
  bpGuard (fun s => memForm o (.vstbp o) (s.g o.ix) (planeRange o s true)
    [.v o.d.toNat] [] (effVstbp o) s) s
/-- VSCADD (R132, R160): FP32 anywhere, BF16 in a buffer. -/
def execVscadd (o : OpM4) (s : State) : Host.Outcome State Fault Refusal :=
  let f := vtFmt s.slot.vtype
  if f = 1 ∨ (f = 3 ∧ o.spc ≠ 0#3) then
    memForm o (.vscadd o) 0 [wholeRange o.spc.toNat true] [.v o.d.toNat, .v o.ix.toNat] [] (effVscadd o) s
  else finish (.error (.trap (Trap.ill 0x08) s))

/-! ## Vector atomics (R161, R162) -/

/-- The effect of VAMO: with RET each old value is written as its element is performed; without, the element is return-free. -/
def vamoEff (o : OpVA) (op : Nat) : Run1 := whole (fun c s =>
  let w := 16 * 2 ^ o.sz.toNat
  let n := c.len o.len (vlmax w)
  let els := actives (s.mreg o.msk.toNat) n
  let a := s.vreg o.a.toNat
  let ix := s.vreg o.b.toNat
  let cv := s.vreg o.c.toNat
  let ad := fun i => eaOf c.ga (elem ix w i) (w / 8 : Nat)
  let s := s.noteMem c n els ad
  storeElems c.qpos ad (fun s e =>
    if o.ret then do
      let (p, s) ← s.access o.spc.toNat (ad e) (w / 8) (w / 8) .atm
      let (old, s) ← s.atomic p op w (elem a w e) (elem cv w e)
      pure (s.setV o.d.toNat (setElem (s.vreg o.d.toNat) w e old))
    else offElem s o.spc.toNat (ad e) (w / 8) op w (elem a w e) (elem cv w e))
    (els.filter (fun e => decide (c.resume ≤ e))) s)
/-- What VAMO enqueues; SZ must match SEW (R161). -/
def vamoForm (o : OpVA) (i : Instr) (eff : Run1) (s : State) : Host.Outcome State Fault Refusal :=
  if 16 * 2 ^ o.sz.toNat ≠ vtSew s.slot.vtype then finish (.error (.trap (Trap.ill 0x08) s))
  else engine { eng := .vec, ins := i, lens := [o.len], ga := s.g o.base, ranges := [wholeRange o.spc.toNat true],
                rd := [.v o.a.toNat, .v o.b.toNat, .v o.c.toNat, .m o.msk.toNat],
                wr := if o.ret then [.v o.d.toNat] else [] } eff s
/-- VAMO.ADD (R162): its effect. -/
def effVamoAdd (o : OpVA) : Run1 := vamoEff o 0
/-- VAMO.ADD (R161, R162). -/
def execVamoAdd (o : OpVA) (s : State) : Host.Outcome State Fault Refusal := vamoForm o (.vamoAdd o) (effVamoAdd o) s
/-- VAMO.AND (R162): its effect. -/
def effVamoAnd (o : OpVA) : Run1 := vamoEff o 1
/-- VAMO.AND (R161, R162). -/
def execVamoAnd (o : OpVA) (s : State) : Host.Outcome State Fault Refusal := vamoForm o (.vamoAnd o) (effVamoAnd o) s
/-- VAMO.OR (R162): its effect. -/
def effVamoOr (o : OpVA) : Run1 := vamoEff o 2
/-- VAMO.OR (R161, R162). -/
def execVamoOr (o : OpVA) (s : State) : Host.Outcome State Fault Refusal := vamoForm o (.vamoOr o) (effVamoOr o) s
/-- VAMO.XOR (R162): its effect. -/
def effVamoXor (o : OpVA) : Run1 := vamoEff o 3
/-- VAMO.XOR (R161, R162). -/
def execVamoXor (o : OpVA) (s : State) : Host.Outcome State Fault Refusal := vamoForm o (.vamoXor o) (effVamoXor o) s
/-- VAMO.MIN (R162): its effect. -/
def effVamoMin (o : OpVA) : Run1 := vamoEff o 4
/-- VAMO.MIN (R161, R162). -/
def execVamoMin (o : OpVA) (s : State) : Host.Outcome State Fault Refusal := vamoForm o (.vamoMin o) (effVamoMin o) s
/-- VAMO.MAX (R162): its effect. -/
def effVamoMax (o : OpVA) : Run1 := vamoEff o 5
/-- VAMO.MAX (R161, R162). -/
def execVamoMax (o : OpVA) (s : State) : Host.Outcome State Fault Refusal := vamoForm o (.vamoMax o) (effVamoMax o) s
/-- VAMO.MINU (R162): its effect. -/
def effVamoMinu (o : OpVA) : Run1 := vamoEff o 6
/-- VAMO.MINU (R161, R162). -/
def execVamoMinu (o : OpVA) (s : State) : Host.Outcome State Fault Refusal := vamoForm o (.vamoMinu o) (effVamoMinu o) s
/-- VAMO.MAXU (R162): its effect. -/
def effVamoMaxu (o : OpVA) : Run1 := vamoEff o 7
/-- VAMO.MAXU (R161, R162). -/
def execVamoMaxu (o : OpVA) (s : State) : Host.Outcome State Fault Refusal := vamoForm o (.vamoMaxu o) (effVamoMaxu o) s
/-- VAMO.FADD (R162): its effect. -/
def effVamoFadd (o : OpVA) : Run1 := vamoEff o 8
/-- VAMO.FADD (R161, R162). -/
def execVamoFadd (o : OpVA) (s : State) : Host.Outcome State Fault Refusal := vamoForm o (.vamoFadd o) (effVamoFadd o) s
/-- VAMO.BFADD (R162): its effect. -/
def effVamoBfadd (o : OpVA) : Run1 := vamoEff o 9
/-- VAMO.BFADD (R161, R162). -/
def execVamoBfadd (o : OpVA) (s : State) : Host.Outcome State Fault Refusal := vamoForm o (.vamoBfadd o) (effVamoBfadd o) s
/-- VAMO.SWAP (R162): its effect. -/
def effVamoSwap (o : OpVA) : Run1 := vamoEff o 10
/-- VAMO.SWAP (R161, R162). -/
def execVamoSwap (o : OpVA) (s : State) : Host.Outcome State Fault Refusal := vamoForm o (.vamoSwap o) (effVamoSwap o) s
/-- VAMO.CAS (R162): its effect. -/
def effVamoCas (o : OpVA) : Run1 := vamoEff o 11
/-- VAMO.CAS (R161, R162). -/
def execVamoCas (o : OpVA) (s : State) : Host.Outcome State Fault Refusal := vamoForm o (.vamoCas o) (effVamoCas o) s

end Sys2Proof.Machine
end

