-- ==== Sys2Proof/Machine/Engines.lean ====
section
/-! DEFINITION. The engines: one step of any queued command, and the rows of the table by which engines dispatch, retire and
stop (R120, R258, R275, R276, R287). -/

namespace Sys2Proof.Machine

/-- ONE STEP OF A QUEUED COMMAND: the effect of its instruction; no other instruction enters the queue. -/
def runCmd : Run1 := fun c s =>
  match c.ins with
  | .vfetch o => effVfetch o c s
  | .syswr _ => effReseed c s
  | .vidx o => effVidx o c s
  | .vadd o => effVadd o c s
  | .vsub o => effVsub o c s
  | .vmul o => effVmul o c s
  | .vand o => effVand o c s
  | .vor o => effVor o c s
  | .vxor o => effVxor o c s
  | .vsll o => effVsll o c s
  | .vsrl o => effVsrl o c s
  | .vsra o => effVsra o c s
  | .vmin o => effVmin o c s
  | .vmax o => effVmax o c s
  | .vsadd o => effVsadd o c s
  | .vssub o => effVssub o c s
  | .vfadd o => effVfadd o c s
  | .vfsub o => effVfsub o c s
  | .vfmul o => effVfmul o c s
  | .vfdiv o => effVfdiv o c s
  | .vfma o => effVfma o c s
  | .vfms o => effVfms o c s
  | .vfmin o => effVfmin o c s
  | .vfmax o => effVfmax o c s
  | .vfsqrt o => effVfsqrt o c s
  | .vfabs o => effVfabs o c s
  | .vfexp o => effVfexp o c s
  | .vflog o => effVflog o c s
  | .vfrcp o => effVfrcp o c s
  | .vfrsq o => effVfrsq o c s
  | .vftanh o => effVftanh o c s
  | .vcvt o => effVcvt o c s
  | .vcmpEq o => effVcmpEq o c s
  | .vcmpNe o => effVcmpNe o c s
  | .vcmpLt o => effVcmpLt o c s
  | .vcmpGe o => effVcmpGe o c s
  | .vcmpLtu o => effVcmpLtu o c s
  | .vcmpGeu o => effVcmpGeu o c s
  | .vfcmpEq o => effVfcmpEq o c s
  | .vfcmpNe o => effVfcmpNe o c s
  | .vfcmpLt o => effVfcmpLt o c s
  | .vfcmpGe o => effVfcmpGe o c s
  | .vfcmpUn o => effVfcmpUn o c s
  | .vfcmpOrd o => effVfcmpOrd o c s
  | .mand o => effMand o c s
  | .mor o => effMor o c s
  | .mxor o => effMxor o c s
  | .mandn o => effMandn o c s
  | .mpopcLq o => effMpopcLq o c s
  | .vcomp o => effVcomp o c s
  | .vexpd o => effVexpd o c s
  | .vslup o => effVslup o c s
  | .vsldn o => effVsldn o c s
  | .vshuf o => effVshuf o c s
  | .vsperm o => effVsperm o c s
  | .vmerge o => effVmerge o c s
  | .vredsum o => effVredsum o c s
  | .vredmax o => effVredmax o c s
  | .vredmin o => effVredmin o c s
  | .vfredsum o => effVfredsum o c s
  | .vfredmax o => effVfredmax o c s
  | .vfredmin o => effVfredmin o c s
  | .vargmax o => effVargmax o c s
  | .vargmin o => effVargmin o c s
  | .vscan o => effVscan o c s
  | .vsegsum o => effVsegsum o c s
  | .vsortk o => effVsortk o c s
  | .vsortkP o => effVsortkP o c s
  | .vuniq o => effVuniq o c s
  | .vld o => effVld o c s
  | .vlds o => effVlds o c s
  | .vldx o => effVldx o c s
  | .vldbp o => effVldbp o c s
  | .vldk o => effVldk o c s
  | .vldw o => effVldw o c s
  | .vst o => effVst o c s
  | .vsts o => effVsts o c s
  | .vstx o => effVstx o c s
  | .vstbp o => effVstbp o c s
  | .vscadd o => effVscadd o c s
  | .vamoAdd o => effVamoAdd o c s
  | .vamoAnd o => effVamoAnd o c s
  | .vamoOr o => effVamoOr o c s
  | .vamoXor o => effVamoXor o c s
  | .vamoMin o => effVamoMin o c s
  | .vamoMax o => effVamoMax o c s
  | .vamoMinu o => effVamoMinu o c s
  | .vamoMaxu o => effVamoMaxu o c s
  | .vamoFadd o => effVamoFadd o c s
  | .vamoBfadd o => effVamoBfadd o c s
  | .vamoSwap o => effVamoSwap o c s
  | .vamoCas o => effVamoCas o c s
  | .opacc o => effOpacc o c s
  | .opsub o => effOpsub o c s
  | .mzero d => effMzero d c s
  | .mldt o => effMldt o c s
  | .mstt o => effMstt o c s
  | .mrowv o => effMrowv o c s
  | .mvrow o => effMvrow o c s
  | .mcolv o => effMcolv o c s
  | .mvcol o => effMvcol o c s
  | .mchain o => effMchain o c s
  | .mdrain o => effMdrain o c s
  | .mdrainStream o => effMdrainStream o c s
  | .msetc o => effMsetc o c s
  | .mtile o => effMtile o c s
  | .bfy o => effBfy o c s
  | .bpass o => effBpass o c s
  | .bperm o => effBperm o c s
  | .bpermRev o => effBpermRev o c s
  | .twgenCplx o => effTwgenCplx o c s
  | .twgenMod o => effTwgenMod o c s
  | .bfpnorm o => effBfpnorm o c s
  | .txf o => effTxf o c s
  | .nadd o => effNadd o c s
  | .nsub o => effNsub o c s
  | .nmul o => effNmul o c s
  | .nmulW o => effNmulW o c s
  | .nbfy o => effNbfy o c s
  | .ncrt o => effNcrt o c s
  | .nfrom o => effNfrom o c s
  | .nto o => effNto o c s
  | .vcmul o => effVcmul o c s
  | .vcmulCj o => effVcmulCj o c s
  | .gcfg o => effGcfg o c s
  | .gstart _ => effGstart c s
  | .gstop _ => effGstop c s
  | .greset _ => effGreset c s
  | .gnode o => effGnode o c s
  | .sunb o => effSunb o c s
  | .sbindVec o => effSbindVec o c s
  | .sbindPat o => effSbindPat o c s
  | .sbindNin o => effSbindNin o c s
  | .sbindNout o => effSbindNout o c s
  | .sbindNbr o => effSbindNbr o c s
  | .sbindRtr o => effSbindRtr o c s
  | .sbindBfy o => effSbindBfy o c s
  | .sbindArr o => effSbindArr o c s
  | .spat o => effSpat o c s
  | .spushv o => effSpushv o c s
  | .spopv o => effSpopv o c s
  | .spopk o => effSpopk o c s
  | .stok o => effStok o c s
  | .sdone o => effSdone o c s
  | .srank o => effSrank o c s
  | .rstage o => effRstage o c s
  | .cpy o => effCpy o c s
  | .cpyt o => effCpyt o c s
  | .cpyg o => effCpyg o c s
  | .cpyz o => effCpyz o c s
  | .barrive o => effBarrive o c s
  | .vldg o => effVldg o c s
  | .brule o => effBrule o c s
  | .bwalk o => effBwalk o c s
  | .halloc o => effHalloc o c s
  | .hfree o => effHfree o c s
  | .hgive o => effHgive o c s
  | .htake o => effHtake o c s
  | .binit o => effBinit o c s
  | .bexpect _ => effBexpect c s
  | _ => .ok (s.finishCmd c)

/-- The engines by number: 0 vector, 1 matrix, 2 butterfly, 3 stream sequencer, 4 copy. -/
def engineOf : Nat → Option Engine
  | 0 => some .vec
  | 1 => some .mat
  | 2 => some .bfy
  | 3 => some .seq
  | 4 => some .copy
  | _ => none
/-- A command whose steps have a row of their own in the table. -/
def Cmd.ownRow (c : Cmd) : Bool :=
  (copyKind c.ins).isSome ||
    (match c.ins with | .mtile _ => true | .txf _ => true | .bwalk _ => c.resume != 0 | .vfetch _ => true | .vldg _ => true
                      | .barrive _ => true | _ => false)
/-- COMMAND_DISPATCH (R276): the engine goes on with a command that waits; while it waits still, or where none does, the
engine dispatches its next one. -/
def execCommandDispatch (cl core engine_ : Nat) (s : State) : Host.Outcome State Fault Refusal :=
  onCore cl core (fun s =>
    match engineOf engine_ with
    | none => .ok s
    | some e =>
      if s.clus.preempt then .ok s
      else do
        let waiting := firstSat (fun c => c.eng == e && c.under && !c.ownRow) s.core.queue
        let s ← match waiting with
          | some c => s.drive runCmd c.qpos driveFuel
          | none => pure s
        if (waiting.bind (fun c => s.core.cmd c.qpos)).elim (waiting.isNone) (fun c => c.under) then
          match firstSat (fun c => c.eng == e && !c.disp) s.core.queue with
          | some c => s.dispatchCmd runCmd c.qpos (if s.eager then driveFuel else 1)
          | none => pure s
        else pure s) s
/-- COMMAND_RETIRE (R17, R275, R387): a command that has done its last step retires. -/
def execCommandRetire (cl core qpos : Nat) (s : State) : Host.Outcome State Fault Refusal :=
  onCore cl core (fun s =>
    match s.core.cmd qpos with
    | some c =>
      if c.under && !c.ownRow && !s.clus.preempt then s.drive runCmd qpos driveFuel else .ok (s.retireCmd qpos)
    | none => .ok s) s
/-- MACRO_STOP (R287): on a pre-emption request the running macro commands of an engine stop at their stop point. -/
def execMacroStop (cl core engine_ : Nat) (s : State) : Host.Outcome State Fault Refusal :=
  onCore cl core (fun s =>
    match engineOf engine_ with
    | none => .ok s
    | some e =>
      if s.clus.preempt then
        .ok (s.modCore (fun k =>
          { k with queue := k.queue.map (fun c => if c.eng == e && c.under && c.macro then { c with paused := true } else c) }))
      else .ok s) s
/-- VP_GROUP_ISSUE (R120): one turn of the running VP block. -/
def execVpGroupIssue (cl core : Nat) (s : State) : Host.Outcome State Fault Refusal :=
  onCore cl core (fun s => s.stepRunning runCmd
    (fun c => match c.ins with | .vfetch _ => true | _ => false)) s
/-- BARRIVE_FIRE (R258): the marker at a queue position fires. -/
def execBarriveFire (cl core qpos : Nat) (s : State) : Host.Outcome State Fault Refusal :=
  onCore cl core (fun s =>
    match s.core.cmd qpos with
    | some c =>
      if c.under && c.resume != 0 && (match c.ins with | .barrive _ => true | _ => false) then s.stepCmd runCmd qpos else .ok s
    | none => .ok s) s

end Sys2Proof.Machine
end

