-- ==== Sys2Proof/Machine/Dispatch.lean ====
section
/-! DEFINITION. One arm for each row of the opcode table: a direct call of its meaning. -/

namespace Sys2Proof.Machine

def exec (i : Instr) (s : State) : Host.Outcome State Fault Refusal :=
  match i with
  | .nop => Sys2Proof.Machine.execNop s
  | .add o => Sys2Proof.Machine.execAdd o s
  | .sub o => Sys2Proof.Machine.execSub o s
  | .and_ o => Sys2Proof.Machine.execAnd o s
  | .or_ o => Sys2Proof.Machine.execOr o s
  | .xor_ o => Sys2Proof.Machine.execXor o s
  | .sll o => Sys2Proof.Machine.execSll o s
  | .srl o => Sys2Proof.Machine.execSrl o s
  | .sra o => Sys2Proof.Machine.execSra o s
  | .slt o => Sys2Proof.Machine.execSlt o s
  | .sltu o => Sys2Proof.Machine.execSltu o s
  | .min o => Sys2Proof.Machine.execMin o s
  | .max o => Sys2Proof.Machine.execMax o s
  | .addW o => Sys2Proof.Machine.execAddW o s
  | .subW o => Sys2Proof.Machine.execSubW o s
  | .sllW o => Sys2Proof.Machine.execSllW o s
  | .srlW o => Sys2Proof.Machine.execSrlW o s
  | .sraW o => Sys2Proof.Machine.execSraW o s
  | .addi o => Sys2Proof.Machine.execAddi o s
  | .andi o => Sys2Proof.Machine.execAndi o s
  | .ori o => Sys2Proof.Machine.execOri o s
  | .xori o => Sys2Proof.Machine.execXori o s
  | .slli o => Sys2Proof.Machine.execSlli o s
  | .srli o => Sys2Proof.Machine.execSrli o s
  | .srai o => Sys2Proof.Machine.execSrai o s
  | .slti o => Sys2Proof.Machine.execSlti o s
  | .addiW o => Sys2Proof.Machine.execAddiW o s
  | .slliW o => Sys2Proof.Machine.execSlliW o s
  | .srliW o => Sys2Proof.Machine.execSrliW o s
  | .sraiW o => Sys2Proof.Machine.execSraiW o s
  | .mul o => Sys2Proof.Machine.execMul o s
  | .mulh o => Sys2Proof.Machine.execMulh o s
  | .mulhu o => Sys2Proof.Machine.execMulhu o s
  | .div o => Sys2Proof.Machine.execDiv o s
  | .divu o => Sys2Proof.Machine.execDivu o s
  | .rem o => Sys2Proof.Machine.execRem o s
  | .remu o => Sys2Proof.Machine.execRemu o s
  | .mulW o => Sys2Proof.Machine.execMulW o s
  | .divW o => Sys2Proof.Machine.execDivW o s
  | .divuW o => Sys2Proof.Machine.execDivuW o s
  | .remW o => Sys2Proof.Machine.execRemW o s
  | .remuW o => Sys2Proof.Machine.execRemuW o s
  | .clz o => Sys2Proof.Machine.execClz o s
  | .ctz o => Sys2Proof.Machine.execCtz o s
  | .popc o => Sys2Proof.Machine.execPopc o s
  | .sel o => Sys2Proof.Machine.execSel o s
  | .limmT4w o => Sys2Proof.Machine.execLimmT4w o s
  | .limmT8w o => Sys2Proof.Machine.execLimmT8w o s
  | .addpc o => Sys2Proof.Machine.execAddpc o s
  | .ld o => Sys2Proof.Machine.execLd o s
  | .st o => Sys2Proof.Machine.execSt o s
  | .amoAdd o => Sys2Proof.Machine.execAmoAdd o s
  | .amoAnd o => Sys2Proof.Machine.execAmoAnd o s
  | .amoOr o => Sys2Proof.Machine.execAmoOr o s
  | .amoXor o => Sys2Proof.Machine.execAmoXor o s
  | .amoMin o => Sys2Proof.Machine.execAmoMin o s
  | .amoMax o => Sys2Proof.Machine.execAmoMax o s
  | .amoMinu o => Sys2Proof.Machine.execAmoMinu o s
  | .amoMaxu o => Sys2Proof.Machine.execAmoMaxu o s
  | .amoFadd o => Sys2Proof.Machine.execAmoFadd o s
  | .amoBfadd o => Sys2Proof.Machine.execAmoBfadd o s
  | .amoSwap o => Sys2Proof.Machine.execAmoSwap o s
  | .amoCas o => Sys2Proof.Machine.execAmoCas o s
  | .bEq o => Sys2Proof.Machine.execBEq o s
  | .bNe o => Sys2Proof.Machine.execBNe o s
  | .bLt o => Sys2Proof.Machine.execBLt o s
  | .bGe o => Sys2Proof.Machine.execBGe o s
  | .bLtu o => Sys2Proof.Machine.execBLtu o s
  | .bGeu o => Sys2Proof.Machine.execBGeu o s
  | .jmp o => Sys2Proof.Machine.execJmp o s
  | .call o => Sys2Proof.Machine.execCall o s
  | .jmpr o => Sys2Proof.Machine.execJmpr o s
  | .loop o => Sys2Proof.Machine.execLoop o s
  | .vfetch o => Sys2Proof.Machine.execVfetch o s
  | .vend => Sys2Proof.Machine.execVend s
  | .vpGroupIssue cl core => Sys2Proof.Machine.execVpGroupIssue cl core s
  | .getid o => Sys2Proof.Machine.execGetid o s
  | .caps o => Sys2Proof.Machine.execCaps o s
  | .sysrd o => Sys2Proof.Machine.execSysrd o s
  | .syswr o => Sys2Proof.Machine.execSyswr o s
  | .hret => Sys2Proof.Machine.execHret s
  | .dstop => Sys2Proof.Machine.execDstop s
  | .waitev => Sys2Proof.Machine.execWaitev s
  | .waitevTimeout cl core slot => Sys2Proof.Machine.execWaitevTimeout cl core slot s
  | .cede => Sys2Proof.Machine.execCede s
  | .halt => Sys2Proof.Machine.execHalt s
  | .trap o => Sys2Proof.Machine.execTrap o s
  | .vsetl o => Sys2Proof.Machine.execVsetl o s
  | .vsetlLq o => Sys2Proof.Machine.execVsetlLq o s
  | .vsett o => Sys2Proof.Machine.execVsett o s
  | .vidx o => Sys2Proof.Machine.execVidx o s
  | .vadd o => Sys2Proof.Machine.execVadd o s
  | .vsub o => Sys2Proof.Machine.execVsub o s
  | .vmul o => Sys2Proof.Machine.execVmul o s
  | .vand o => Sys2Proof.Machine.execVand o s
  | .vor o => Sys2Proof.Machine.execVor o s
  | .vxor o => Sys2Proof.Machine.execVxor o s
  | .vsll o => Sys2Proof.Machine.execVsll o s
  | .vsrl o => Sys2Proof.Machine.execVsrl o s
  | .vsra o => Sys2Proof.Machine.execVsra o s
  | .vmin o => Sys2Proof.Machine.execVmin o s
  | .vmax o => Sys2Proof.Machine.execVmax o s
  | .vsadd o => Sys2Proof.Machine.execVsadd o s
  | .vssub o => Sys2Proof.Machine.execVssub o s
  | .vfadd o => Sys2Proof.Machine.execVfadd o s
  | .vfsub o => Sys2Proof.Machine.execVfsub o s
  | .vfmul o => Sys2Proof.Machine.execVfmul o s
  | .vfdiv o => Sys2Proof.Machine.execVfdiv o s
  | .vfma o => Sys2Proof.Machine.execVfma o s
  | .vfms o => Sys2Proof.Machine.execVfms o s
  | .vfmin o => Sys2Proof.Machine.execVfmin o s
  | .vfmax o => Sys2Proof.Machine.execVfmax o s
  | .vfsqrt o => Sys2Proof.Machine.execVfsqrt o s
  | .vfabs o => Sys2Proof.Machine.execVfabs o s
  | .vfexp o => Sys2Proof.Machine.execVfexp o s
  | .vflog o => Sys2Proof.Machine.execVflog o s
  | .vfrcp o => Sys2Proof.Machine.execVfrcp o s
  | .vfrsq o => Sys2Proof.Machine.execVfrsq o s
  | .vftanh o => Sys2Proof.Machine.execVftanh o s
  | .vcvt o => Sys2Proof.Machine.execVcvt o s
  | .vcmpEq o => Sys2Proof.Machine.execVcmpEq o s
  | .vcmpNe o => Sys2Proof.Machine.execVcmpNe o s
  | .vcmpLt o => Sys2Proof.Machine.execVcmpLt o s
  | .vcmpGe o => Sys2Proof.Machine.execVcmpGe o s
  | .vcmpLtu o => Sys2Proof.Machine.execVcmpLtu o s
  | .vcmpGeu o => Sys2Proof.Machine.execVcmpGeu o s
  | .vfcmpEq o => Sys2Proof.Machine.execVfcmpEq o s
  | .vfcmpNe o => Sys2Proof.Machine.execVfcmpNe o s
  | .vfcmpLt o => Sys2Proof.Machine.execVfcmpLt o s
  | .vfcmpGe o => Sys2Proof.Machine.execVfcmpGe o s
  | .vfcmpUn o => Sys2Proof.Machine.execVfcmpUn o s
  | .vfcmpOrd o => Sys2Proof.Machine.execVfcmpOrd o s
  | .mand o => Sys2Proof.Machine.execMand o s
  | .mor o => Sys2Proof.Machine.execMor o s
  | .mxor o => Sys2Proof.Machine.execMxor o s
  | .mandn o => Sys2Proof.Machine.execMandn o s
  | .mpopcLq o => Sys2Proof.Machine.execMpopcLq o s
  | .mpopcG o => Sys2Proof.Machine.execMpopcG o s
  | .vcomp o => Sys2Proof.Machine.execVcomp o s
  | .vexpd o => Sys2Proof.Machine.execVexpd o s
  | .vslup o => Sys2Proof.Machine.execVslup o s
  | .vsldn o => Sys2Proof.Machine.execVsldn o s
  | .vshuf o => Sys2Proof.Machine.execVshuf o s
  | .vsperm o => Sys2Proof.Machine.execVsperm o s
  | .vmerge o => Sys2Proof.Machine.execVmerge o s
  | .vmvx o => Sys2Proof.Machine.execVmvx o s
  | .vmvxU o => Sys2Proof.Machine.execVmvxU o s
  | .vredsum o => Sys2Proof.Machine.execVredsum o s
  | .vredmax o => Sys2Proof.Machine.execVredmax o s
  | .vredmin o => Sys2Proof.Machine.execVredmin o s
  | .vfredsum o => Sys2Proof.Machine.execVfredsum o s
  | .vfredmax o => Sys2Proof.Machine.execVfredmax o s
  | .vfredmin o => Sys2Proof.Machine.execVfredmin o s
  | .vargmax o => Sys2Proof.Machine.execVargmax o s
  | .vargmin o => Sys2Proof.Machine.execVargmin o s
  | .vscan o => Sys2Proof.Machine.execVscan o s
  | .vsegsum o => Sys2Proof.Machine.execVsegsum o s
  | .vsortk o => Sys2Proof.Machine.execVsortk o s
  | .vsortkP o => Sys2Proof.Machine.execVsortkP o s
  | .vuniq o => Sys2Proof.Machine.execVuniq o s
  | .vld o => Sys2Proof.Machine.execVld o s
  | .vlds o => Sys2Proof.Machine.execVlds o s
  | .vldx o => Sys2Proof.Machine.execVldx o s
  | .vldbp o => Sys2Proof.Machine.execVldbp o s
  | .vldk o => Sys2Proof.Machine.execVldk o s
  | .vldw o => Sys2Proof.Machine.execVldw o s
  | .vst o => Sys2Proof.Machine.execVst o s
  | .vsts o => Sys2Proof.Machine.execVsts o s
  | .vstx o => Sys2Proof.Machine.execVstx o s
  | .vstbp o => Sys2Proof.Machine.execVstbp o s
  | .vscadd o => Sys2Proof.Machine.execVscadd o s
  | .vamoAdd o => Sys2Proof.Machine.execVamoAdd o s
  | .vamoAnd o => Sys2Proof.Machine.execVamoAnd o s
  | .vamoOr o => Sys2Proof.Machine.execVamoOr o s
  | .vamoXor o => Sys2Proof.Machine.execVamoXor o s
  | .vamoMin o => Sys2Proof.Machine.execVamoMin o s
  | .vamoMax o => Sys2Proof.Machine.execVamoMax o s
  | .vamoMinu o => Sys2Proof.Machine.execVamoMinu o s
  | .vamoMaxu o => Sys2Proof.Machine.execVamoMaxu o s
  | .vamoFadd o => Sys2Proof.Machine.execVamoFadd o s
  | .vamoBfadd o => Sys2Proof.Machine.execVamoBfadd o s
  | .vamoSwap o => Sys2Proof.Machine.execVamoSwap o s
  | .vamoCas o => Sys2Proof.Machine.execVamoCas o s
  | .opacc o => Sys2Proof.Machine.execOpacc o s
  | .opsub o => Sys2Proof.Machine.execOpsub o s
  | .mzero o => Sys2Proof.Machine.execMzero o s
  | .mldt o => Sys2Proof.Machine.execMldt o s
  | .mstt o => Sys2Proof.Machine.execMstt o s
  | .mrowv o => Sys2Proof.Machine.execMrowv o s
  | .mvrow o => Sys2Proof.Machine.execMvrow o s
  | .mcolv o => Sys2Proof.Machine.execMcolv o s
  | .mvcol o => Sys2Proof.Machine.execMvcol o s
  | .mchain o => Sys2Proof.Machine.execMchain o s
  | .mdrain o => Sys2Proof.Machine.execMdrain o s
  | .mdrainStream o => Sys2Proof.Machine.execMdrainStream o s
  | .msetc o => Sys2Proof.Machine.execMsetc o s
  | .mtile o => Sys2Proof.Machine.execMtile o s
  | .mtileStep cl core => Sys2Proof.Machine.execMtileStep cl core s
  | .bfy o => Sys2Proof.Machine.execBfy o s
  | .bpass o => Sys2Proof.Machine.execBpass o s
  | .bperm o => Sys2Proof.Machine.execBperm o s
  | .bpermRev o => Sys2Proof.Machine.execBpermRev o s
  | .twgenCplx o => Sys2Proof.Machine.execTwgenCplx o s
  | .twgenMod o => Sys2Proof.Machine.execTwgenMod o s
  | .bfpnorm o => Sys2Proof.Machine.execBfpnorm o s
  | .txf o => Sys2Proof.Machine.execTxf o s
  | .txfStage cl core => Sys2Proof.Machine.execTxfStage cl core s
  | .nadd o => Sys2Proof.Machine.execNadd o s
  | .nsub o => Sys2Proof.Machine.execNsub o s
  | .nmul o => Sys2Proof.Machine.execNmul o s
  | .nmulW o => Sys2Proof.Machine.execNmulW o s
  | .nbfy o => Sys2Proof.Machine.execNbfy o s
  | .ncrt o => Sys2Proof.Machine.execNcrt o s
  | .nfrom o => Sys2Proof.Machine.execNfrom o s
  | .nto o => Sys2Proof.Machine.execNto o s
  | .nmodset o => Sys2Proof.Machine.execNmodset o s
  | .nchk o => Sys2Proof.Machine.execNchk o s
  | .vcmul o => Sys2Proof.Machine.execVcmul o s
  | .vcmulCj o => Sys2Proof.Machine.execVcmulCj o s
  | .gcfg o => Sys2Proof.Machine.execGcfg o s
  | .gstart o => Sys2Proof.Machine.execGstart o s
  | .gstop o => Sys2Proof.Machine.execGstop o s
  | .gwait o => Sys2Proof.Machine.execGwait o s
  | .greset o => Sys2Proof.Machine.execGreset o s
  | .gnode o => Sys2Proof.Machine.execGnode o s
  | .gstat o => Sys2Proof.Machine.execGstat o s
  | .gquiet o => Sys2Proof.Machine.execGquiet o s
  | .sunb o => Sys2Proof.Machine.execSunb o s
  | .sbindVec o => Sys2Proof.Machine.execSbindVec o s
  | .sbindPat o => Sys2Proof.Machine.execSbindPat o s
  | .sbindNin o => Sys2Proof.Machine.execSbindNin o s
  | .sbindNout o => Sys2Proof.Machine.execSbindNout o s
  | .sbindNbr o => Sys2Proof.Machine.execSbindNbr o s
  | .sbindRtr o => Sys2Proof.Machine.execSbindRtr o s
  | .sbindBfy o => Sys2Proof.Machine.execSbindBfy o s
  | .sbindArr o => Sys2Proof.Machine.execSbindArr o s
  | .spat o => Sys2Proof.Machine.execSpat o s
  | .spushv o => Sys2Proof.Machine.execSpushv o s
  | .spopv o => Sys2Proof.Machine.execSpopv o s
  | .spopk o => Sys2Proof.Machine.execSpopk o s
  | .stok o => Sys2Proof.Machine.execStok o s
  | .sdone o => Sys2Proof.Machine.execSdone o s
  | .srank o => Sys2Proof.Machine.execSrank o s
  | .spopg o => Sys2Proof.Machine.execSpopg o s
  | .rstage o => Sys2Proof.Machine.execRstage o s
  | .scannerFire cl core node => Sys2Proof.Machine.execScannerFire cl core node s
  | .joinerFire cl core node => Sys2Proof.Machine.execJoinerFire cl core node s
  | .repeaterFire cl core node => Sys2Proof.Machine.execRepeaterFire cl core node s
  | .reducerFire cl core node => Sys2Proof.Machine.execReducerFire cl core node s
  | .functionFire cl core node => Sys2Proof.Machine.execFunctionFire cl core node s
  | .fetchReply cl core node => Sys2Proof.Machine.execFetchReply cl core node s
  | .writerFire cl core node => Sys2Proof.Machine.execWriterFire cl core node s
  | .patternRead cl core port => Sys2Proof.Machine.execPatternRead cl core port s
  | .patternWrite cl core port => Sys2Proof.Machine.execPatternWrite cl core port s
  | .linkFlit cl core link => Sys2Proof.Machine.execLinkFlit cl core link s
  | .routerFlit cl index => Sys2Proof.Machine.execRouterFlit cl index s
  | .flitArrive cl core port => Sys2Proof.Machine.execFlitArrive cl core port s
  | .slotCreditReturn cl core => Sys2Proof.Machine.execSlotCreditReturn cl core s
  | .cpy o => Sys2Proof.Machine.execCpy o s
  | .cpyt o => Sys2Proof.Machine.execCpyt o s
  | .cpyg o => Sys2Proof.Machine.execCpyg o s
  | .cpyz o => Sys2Proof.Machine.execCpyz o s
  | .copyElementLand cl core qpos elem => Sys2Proof.Machine.execCopyElementLand cl core qpos elem s
  | .copyComplete cl core qpos => Sys2Proof.Machine.execCopyComplete cl core qpos s
  | .halloc o => Sys2Proof.Machine.execHalloc o s
  | .hfree o => Sys2Proof.Machine.execHfree o s
  | .hgive o => Sys2Proof.Machine.execHgive o s
  | .htake o => Sys2Proof.Machine.execHtake o s
  | .hwait o => Sys2Proof.Machine.execHwait o s
  | .hstat o => Sys2Proof.Machine.execHstat o s
  | .binit o => Sys2Proof.Machine.execBinit o s
  | .bexpect o => Sys2Proof.Machine.execBexpect o s
  | .barrive o => Sys2Proof.Machine.execBarrive o s
  | .bwait o => Sys2Proof.Machine.execBwait o s
  | .btest o => Sys2Proof.Machine.execBtest o s
  | .barriveFire cl core qpos => Sys2Proof.Machine.execBarriveFire cl core qpos s
  | .gangon o => Sys2Proof.Machine.execGangon o s
  | .gangoff o => Sys2Proof.Machine.execGangoff o s
  | .vldg o => Sys2Proof.Machine.execVldg o s
  | .vldgDeliver cl core => Sys2Proof.Machine.execVldgDeliver cl core s
  | .phase o => Sys2Proof.Machine.execPhase o s
  | .fenceE => Sys2Proof.Machine.execFenceE s
  | .nmfence => Sys2Proof.Machine.execNmfence s
  | .coll o => Sys2Proof.Machine.execColl o s
  | .ccwait o => Sys2Proof.Machine.execCcwait o s
  | .ccread o => Sys2Proof.Machine.execCcread o s
  | .collChunkComplete num => Sys2Proof.Machine.execCollChunkComplete num s
  | .collTrafficTimeout num => Sys2Proof.Machine.execCollTrafficTimeout num s
  | .advertisementArrive num => Sys2Proof.Machine.execAdvertisementArrive num s
  | .codingQueueHead => Sys2Proof.Machine.execCodingQueueHead s
  | .codedPacketDecode index => Sys2Proof.Machine.execCodedPacketDecode index s
  | .awaitedBlockFill index => Sys2Proof.Machine.execAwaitedBlockFill index s
  | .decodeTimeout index => Sys2Proof.Machine.execDecodeTimeout index s
  | .fallbackRequest index => Sys2Proof.Machine.execFallbackRequest index s
  | .codedAck index => Sys2Proof.Machine.execCodedAck index s
  | .expertTokenSend num replica => Sys2Proof.Machine.execExpertTokenSend num replica s
  | .rowRequest index => Sys2Proof.Machine.execRowRequest index s
  | .rowRefused index => Sys2Proof.Machine.execRowRefused index s
  | .expertCombineRow num row => Sys2Proof.Machine.execExpertCombineRow num row s
  | .hubTranslationFault num va => Sys2Proof.Machine.execHubTranslationFault num va s
  | .brule o => Sys2Proof.Machine.execBrule o s
  | .bwalk o => Sys2Proof.Machine.execBwalk o s
  | .walkStep index => Sys2Proof.Machine.execWalkStep index s
  | .walkMigrate index => Sys2Proof.Machine.execWalkMigrate index s
  | .migrationTimeout index => Sys2Proof.Machine.execMigrationTimeout index s
  | .movWaitTimeout index => Sys2Proof.Machine.execMovWaitTimeout index s
  | .blockMovAck entry => Sys2Proof.Machine.execBlockMovAck entry s
  | .walkRegionCommit ctx region high => Sys2Proof.Machine.execWalkRegionCommit ctx region high s
  | .sliceOperation index => Sys2Proof.Machine.execSliceOperation index s
  | .combiningFill line => Sys2Proof.Machine.execCombiningFill line s
  | .combiningRelease line => Sys2Proof.Machine.execCombiningRelease line s
  | .returnFreeAck cl core slot => Sys2Proof.Machine.execReturnFreeAck cl core slot s
  | .tqpush o => Sys2Proof.Machine.execTqpush o s
  | .tqpop o => Sys2Proof.Machine.execTqpop o s
  | .launch o => Sys2Proof.Machine.execLaunch o s
  | .join o => Sys2Proof.Machine.execJoin o s
  | .sqpost o => Sys2Proof.Machine.execSqpost o s
  | .cqpoll o => Sys2Proof.Machine.execCqpoll o s
  | .stageAgeExpiry cl core stage => Sys2Proof.Machine.execStageAgeExpiry cl core stage s
  | .stageInstanceStart cl core stage => Sys2Proof.Machine.execStageInstanceStart cl core stage s
  | .instanceRetire cl core slot => Sys2Proof.Machine.execInstanceRetire cl core slot s
  | .commandDispatch cl core engine => Sys2Proof.Machine.execCommandDispatch cl core engine s
  | .commandRetire cl core qpos => Sys2Proof.Machine.execCommandRetire cl core qpos s
  | .macroStop cl core engine => Sys2Proof.Machine.execMacroStop cl core engine s
  | .groupStart => Sys2Proof.Machine.execGroupStart s
  | .launchAdmit => Sys2Proof.Machine.execLaunchAdmit s
  | .launchComplete seq => Sys2Proof.Machine.execLaunchComplete seq s
  | .preemptRequest cl => Sys2Proof.Machine.execPreemptRequest cl s
  | .nodeCut cl core node => Sys2Proof.Machine.execNodeCut cl core node s
  | .groupSave cl area => Sys2Proof.Machine.execGroupSave cl area s
  | .groupRestore cl index => Sys2Proof.Machine.execGroupRestore cl index s
  | .lnqStart queue value => Sys2Proof.Machine.execLnqStart queue value s
  | .lnqDestroy queue => Sys2Proof.Machine.execLnqDestroy queue s
  | .lnqTail queue value => Sys2Proof.Machine.execLnqTail queue value s
  | .lnqPacketRead queue => Sys2Proof.Machine.execLnqPacketRead queue s
  | .trapRecordWrite cl core slot => Sys2Proof.Machine.execTrapRecordWrite cl core slot s
  | .trqConsume value => Sys2Proof.Machine.execTrqConsume value s
  | .replay cl core slot ctx arg => Sys2Proof.Machine.execReplay cl core slot ctx arg s
  | .resume cl core slot ctx arg => Sys2Proof.Machine.execResume cl core slot ctx arg s
  | .stepOne cl core slot ctx arg => Sys2Proof.Machine.execStepOne cl core slot ctx arg s
  | .endThread cl core slot ctx arg => Sys2Proof.Machine.execEndThread cl core slot ctx arg s
  | .kill ctx => Sys2Proof.Machine.execKill ctx s
  | .tlbinvPage64k ctx va => Sys2Proof.Machine.execTlbinvPage64k ctx va s
  | .tlbinvPage128m ctx va => Sys2Proof.Machine.execTlbinvPage128m ctx va s
  | .tlbinvPage256g ctx va => Sys2Proof.Machine.execTlbinvPage256g ctx va s
  | .tlbinvContext ctx => Sys2Proof.Machine.execTlbinvContext ctx s
  | .tlbinvAll => Sys2Proof.Machine.execTlbinvAll s
  | .tlbinvDone => Sys2Proof.Machine.execTlbinvDone s
  | .huskin value => Sys2Proof.Machine.execHuskin value s
  | .huskout => Sys2Proof.Machine.execHuskout s
  | .nvqStart pair value => Sys2Proof.Machine.execNvqStart pair value s
  | .nvqDestroy pair => Sys2Proof.Machine.execNvqDestroy pair s
  | .nvqDestroyDone pair byHost => Sys2Proof.Machine.execNvqDestroyDone pair byHost s
  | .driveAccess port addr size write data => Sys2Proof.Machine.execDriveAccess port addr size write data s
  | .peerAccessArrive port kind addr size data => Sys2Proof.Machine.execPeerAccessArrive port kind addr size data s
  | .eccCorrected unit loc ctx => Sys2Proof.Machine.execEccCorrected unit loc ctx s
  | .eccUncorrectable unit loc cl core charged => Sys2Proof.Machine.execEccUncorrectable unit loc cl core charged s
  | .linkCrcFail unit port => Sys2Proof.Machine.execLinkCrcFail unit port s
  | .selfTestEnd unit loc mismatch => Sys2Proof.Machine.execSelfTestEnd unit loc mismatch s
  | .wearRotation cl => Sys2Proof.Machine.execWearRotation cl s
  | .hbmScrub line verdict => Sys2Proof.Machine.execHbmScrub line verdict s
  | .bufferScrub cl core unit granule verdict => Sys2Proof.Machine.execBufferScrub cl core unit granule verdict s
  | .phyCalibration channel => Sys2Proof.Machine.execPhyCalibration channel s
  | .serdesCalibration port lane => Sys2Proof.Machine.execSerdesCalibration port lane s
  | .telemetrySnapshot => Sys2Proof.Machine.execTelemetrySnapshot s
  | .elgConsume value => Sys2Proof.Machine.execElgConsume value s
  | .thermalSample celsius => Sys2Proof.Machine.execThermalSample celsius s
  | .thermtrip celsius => Sys2Proof.Machine.execThermtrip celsius s
  | .throttleUpdate level => Sys2Proof.Machine.execThrottleUpdate level s
  | .trimStep rail up => Sys2Proof.Machine.execTrimStep rail up s
  | .powerUp => Sys2Proof.Machine.execPowerUp s
  | .resetPin cause => Sys2Proof.Machine.execResetPin cause s
  | .bootStage image agent => Sys2Proof.Machine.execBootStage image agent s
  | .hzload value => Sys2Proof.Machine.execHzload value s
  | .hzSlotReplace => Sys2Proof.Machine.execHzSlotReplace s
  | .mregxgo value => Sys2Proof.Machine.execMregxgo value s
  | .redfishQuote nonce => Sys2Proof.Machine.execRedfishQuote nonce s
  | .rollbackAdvance kind value => Sys2Proof.Machine.execRollbackAdvance kind value s
  | .registerWrite offset value => Sys2Proof.Machine.execRegisterWrite offset value s
  | .pcieEqualisation port => Sys2Proof.Machine.execPcieEqualisation port s

end Sys2Proof.Machine
end

