-- ==== Sys2Proof/Machine/Fetch.lean ====
section
/-! DEFINITION. Fetching and decoding the next instruction of the current slot (R69 to R75, R394, R425), the turns that are no
row of the table, and how an instruction is put where the next step fetches it. -/

namespace Sys2Proof.Machine

/-- The current slot fetches a line afresh, after an error in it has been reported (R425). -/
def State.forgetLine (s : State) (la : Nat) : State :=
  s.modSlot (fun x => { x with lines := x.lines.filter (fun p => p.1 != la), badLines := x.badLines.filter (fun a => a != la) })
/-- The next instruction of the current slot, with the address that follows it in program order; or the fault of R74,
R394 or R425, taken at the address itself. R74 has no row for a slot at or beyond H at which execution stands without a transfer
that named it (a line fetched again with fewer heads, an entry or a RESUME address): the model raises there what a transfer
raises, with EPC at that address (DESIGN CHOICE, log 72). -/
noncomputable def State.nextIns (s : State) : M (Instr × State) := do
  let pc := s.slot.pc
  let (l, s) ← s.fetchLine (lineOf pc)
  if s.slot.badLines.contains (lineOf pc) then
    .error (.trap { code := 0x11, sub := 0x01, d0 := s.core.errcnt, d1 := s.core.errmark } (s.forgetLine (lineOf pc)))
  else
  match lineSlot l (slotOf pc) with
  | .overlaps => .error (.trap (Trap.line 0x01) s)
  | .none => .error (.trap (Trap.line (if lineSlot l 0 = .none then 0x03 else 0x02)) s)
  | .ins h t =>
    match decode h t with
    | .error r => .error (.trap (Trap.ill r.sub.toNat) s)
    | .ok i => pure (i, s.modSlot (fun x => { x with npc := nextAddr l pc }))

/-- Whether the current slot may commit an instruction (R375, R384). -/
def State.mayRun (s : State) : Bool := s.slot.run == .running && !s.clus.preempt

/-- A turn in which no row of the table takes place: time, the moments at which stores, views, TLBs and fetched lines
change. -/
def State.quietTurn (s : State) : Turn → State
  | .tick n => { s with time := s.time + n }
  | .drain cl co => s.on cl co false (fun s => s.drainCore)
  | .flush cl => s.on cl 0 false (fun s => s.flushDie.flushClus false)
  | .fill cl co hi loc => s.on cl co hi (fun s => (s.viewByte loc).2)
  | .tlbDrop cl co => s.on cl co false (fun s => s.modCore (fun c => { c with tlb := [] }))
  | .tlbDropClus cl => s.on cl 0 false (fun s => s.modClus (fun k => { k with tlb := [] }))
  | .tlbDropHub => { s with xl := { s.xl with tlb := [] } }
  | .lineDrop cl co hi => s.on cl co hi (fun s => s.modSlot (fun x => { x with lines := [], badLines := [] }))
  | .slot cl co hi => s.at_ cl co hi
  | .event _ => s

/-- The image of a line that holds one instruction and LEND (R67, R69). -/
def oneInsLine (h : BitVec 16) (t : BitVec 64) : Line :=
  let size := tailSize h
  BitVec.ofNat 512 (h.toNat + (t.toNat % 2 ^ (8 * size)) <<< (8 * (64 - size)))

/-- Where withFetchWord places its line, its root table and its level-2 table. -/
def codeAt : Nat := 0x100000
/-- The root table's physical address. -/
def rootAt : Nat := 0x10000
/-- The level-2 table's physical address. -/
def tableAt : Nat := 0x14000

/-- The current slot runs a thread at `codeAt`, its context maps the first 256 GiB onto local HBM with every right, and the
line there holds one instruction (assumption 7). -/
def State.placeIns (s : State) (h : BitVec 16) (t : BitVec 64) : State :=
  let ctx := fld s.core.ctxid 0 16 % 4096
  let s := s.modCore (fun c => { c with ctxid := word ctx, tlb := [] })
  let s := s.lineHome codeAt
  let m := s.mem.write codeAt (oneInsLine h t).toNat 64
  let m := m.write rootAt (tableAt + 3) 8
  let m := m.write tableAt 0x1D 8
  let s := { s with mem := m, agenda := [],
                    xl := { s.xl with ctxtab := put ctx (word (2 ^ 63 + rootAt)) s.xl.ctxtab } }
  let s := s.modClus (fun k => { k with preempt := false, tlb := [] })
  s.modSlot (fun x => { x with run := .running, pc := word codeAt, lines := [], badLines := [] })

end Sys2Proof.Machine
end

