-- ==== Sys2Proof/Machine/Step.lean ====
section
/-! DEFINITION. One step of the machine: the first turn of the agenda, or, with none, the current slot's next
instruction. -/

namespace Sys2Proof.Machine

/-- The current slot's next instruction, or a cycle in which it does nothing. -/
noncomputable def runSlot (s : State) : Host.Outcome State Fault Refusal :=
  if s.mayRun then
    match s.nextIns with
    | .error e => finish (.error e)
    | .ok (i, t) => exec i t
  else .next { s with time := s.time + 1 }

/-- One step. -/
noncomputable def step (s : State) : Host.Outcome State Fault Refusal :=
  match s.agenda with
  | [] => runSlot s
  | .slot cl co hi :: r => runSlot ({ s with agenda := r }.at_ cl co hi)
  | .event i :: r => exec i { s with agenda := r }
  | t :: r => .next ({ s with agenda := r }.quietTurn t)

/-- s with an instruction of the opcode table stored where step fetches its next instruction. -/
def State.withFetchWord (s : State) (nbits w : Nat) : State :=
  let ht := tableHeadTail nbits w
  s.placeIns ht.1 ht.2

end Sys2Proof.Machine
end

