-- ==== Sys2Proof/Safety.lean ====
section
/-! DEFINITION. What a safe run is, and the words in which claims speak: when an instruction runs to its end, what it leaves
unchanged, and when the command queue of a core is quiet. -/

namespace Sys2Proof.Machine

/-- A step that neither stops with a fault nor is refused. -/
def Answers (o : Host.Outcome State Fault Refusal) : Prop := ∃ t, o = .next t
/-- The instruction answers a next state of which P holds. -/
def Runs (i : Instr) (s : State) (P : State → Prop) : Prop := ∃ t, exec i s = .next t ∧ P t

/-- Device memory and every listed buffer are in canonical form. -/
def State.MemWf (s : State) : Prop :=
  s.mem.wf = true ∧ ∀ p ∈ s.cores, p.2.w.wf = true ∧ p.2.a.wf = true ∧ p.2.c.wf = true

/-- The capability word is that of another state (R4). -/
def SameCaps (s t : State) : Prop := s.variant = t.variant ∧ s.stepping = t.stepping

/-- The byte of device memory that the current thread reads at a location (R300). -/
def State.seen (s : State) (loc : Nat) : Byte := (s.viewByte loc).1
/-- The byte that the current core holds in its buffer W (1), A (2) or C (3). -/
def State.held (s : State) (spc a : Nat) : Byte := (s.core.buf spc).get a
/-- Every byte of device memory and of the current core's buffers reads as before. -/
def SameBytes (s t : State) : Prop := (∀ loc, t.seen loc = s.seen loc) ∧ ∀ spc a, t.held spc a = s.held spc a

/-- n bytes of a buffer as a little-endian number (R9). -/
def State.heldNum (s : State) (spc a n : Nat) : Nat := leNat ((List.range n).map (fun k => s.held spc (a + k)))
/-- n bytes of device memory, as the current thread reads them, as a little-endian number (R9). -/
def State.seenNum (s : State) (loc n : Nat) : Nat := leNat ((List.range n).map (fun k => s.seen (loc + k)))

/-- WHAT AN INSTRUCTION OF THE CONTROL THREAD LEAVES UNCHANGED that writes at most register gd: every other part of the
package; of its own slot everything but that register, the addresses and the loop stack; every byte of memory. -/
structure ScalarFrame (d : Nat) (s t : State) : Prop where
  /-- nothing outside the current slot changes: no memory, no other slot, no core, no hub, not the time -/
  outside : t = s.setSlot t.slot
  /-- of the slot, only g, the address of the next instruction, the loop stack and the start of a wait may change -/
  slot : t.slot = { s.slot with g := t.slot.g, pc := t.slot.pc, loops := t.slot.loops, since := none, behind := none, popAt := none }
  /-- every register but gd is unchanged -/
  regs : ∀ n, n ≠ d → t.slot.getG n = s.slot.getG n
  bytes : SameBytes s t

/-- The instruction committed without a transfer: the thread stands at the following instruction, or where the loops whose
last instruction it was send it (R115). -/
def Advanced (s t : State) : Prop :=
  (t.slot.loops, t.slot.pc) = loopEnd s.slot.pc s.slot.npc s.slot.loops

/-- A write of register gd: the value, but nothing where d is 0 (R46). -/
def WroteG (d : Nat) (v : Word) (t : State) : Prop := t.slot.getG d = if d = 0 then 0 else v

/-- The current slot runs no single step of the STEP action (R384). -/
def State.Free (s : State) : Prop := s.slot.stepping = false

/-- The current slot runs, and its core's command queue, graph and patterns hold nothing that a command would wait for:
an engine instruction of the slot executes at its commit (R275, R276, R295). -/
structure State.Quiet (s : State) : Prop where
  eager : s.eager = true
  running : s.slot.run = .running
  free : s.Free
  queue : s.core.queue = []
  ranges : s.core.heldRanges = []

/-- The length that a command with length operand `len` takes, before VLMAX bounds it: VL, or the oldest count of a length
queue that holds one (R56, R79). -/
def LenIs (s : State) (len : BitVec 3) (n : Nat) : Prop :=
  if len.toNat < 4 then n = s.slot.vl
  else (s.core.f.lq[len.toNat - 4]?.getD []).head? = some n ∧ 0 < s.core.f.occ[len.toNat - 4]?.getD 0
/-- The length of a command over elements of w bits. -/
def boundLen (w : Nat) (len : BitVec 3) (n : Nat) : Nat := if len.toNat < 4 then n else min n (vlmax w)

/-- Element e of operand A of a T4V form over n elements of w bits: the element of vA, or under cross-lane modifier 2 the
element of vA that element e of vC names, 0 where it names none below n (R134). -/
def laneA (s : State) (o : OpV4) (w n e : Nat) : Nat :=
  if o.xl = 2#2 then
    (if elem (s.vreg o.c.toNat) w e < n then elem (s.vreg o.a.toNat) w (elem (s.vreg o.c.toNat) w e) else 0)
  else elem (s.vreg o.a.toNat) w e
/-- Element e of operand B: the scalar g[B] truncated under X = 1, the element of vB, or under cross-lane modifier 1 the element
of vB that element e of vC names (R134). -/
def laneB (s : State) (o : OpV4) (w n e : Nat) : Nat :=
  if o.x then (s.g o.b).toNat % 2 ^ w
  else if o.xl = 1#2 then
    (if elem (s.vreg o.c.toNat) w e < n then elem (s.vreg o.b.toNat) w (elem (s.vreg o.c.toNat) w e) else 0)
  else elem (s.vreg o.b.toNat) w e

/-- WHAT A COMMAND OF AN ENGINE LEAVES UNCHANGED that writes at most the listed vector, mask, tile, scale and twiddle
registers, and pops at most the length queue of `len`: everything outside its core, and of the core everything but those
registers, the queue position, the issuing slot's address, loops and STATUS flags, the retire trace of the vector unit (R387)
and the flits that the unit leaves off assembling (R203). -/
structure EngineFrame (e : Engine) (i : Instr) (wv wm wa wk ww : List Nat) (len : BitVec 3) (s t : State) : Prop where
  /-- nothing outside the current core changes -/
  outside : t = s.setCore t.core
  /-- the buffers, the handles, the stores on their way, the translations held -/
  kept : t.core.w = s.core.w ∧ t.core.a = s.core.a ∧ t.core.c = s.core.c ∧ t.core.h = s.core.h ∧ t.core.own = s.core.own ∧
    t.core.ownAge = s.core.ownAge ∧ t.core.tlb = s.core.tlb ∧ t.core.launch = s.core.launch
  /-- the control registers and counters of the core -/
  control : t.core.ctxid = s.core.ctxid ∧ t.core.errmark = s.core.errmark ∧ t.core.errcnt = s.core.errcnt ∧
    t.core.rndseed = s.core.rndseed ∧ t.core.copyChk = s.core.copyChk ∧ t.core.copyOvf = s.core.copyOvf
  /-- the queue is empty again, one position further -/
  queue : t.core.queue = [] ∧ t.core.qpos = (s.core.qpos + 1) % 65536
  streams : t.core.st = (s.beginVec e i).core.st
  /-- the retire trace takes an entry of the vector unit only -/
  trace : e = .vec ∨ (t.core.trace = s.core.trace ∧ t.core.traceptr = s.core.traceptr)
  /-- the other thread slot -/
  other : t.core.slot (!s.hi) = s.core.slot (!s.hi)
  slot : t.slot = { s.slot with pc := t.slot.pc, loops := t.slot.loops, since := none, behind := none, popAt := none, status := t.slot.status }
  /-- of STATUS only the sticky flags and the residue count may change (R62) -/
  status : fld t.slot.status 0 41 = fld s.slot.status 0 41
  v : ∀ n, n ∉ wv → t.vreg n = s.vreg n
  m : ∀ n, n ∉ wm → t.mreg n = s.mreg n
  a : ∀ n, n ∉ wa → t.areg n = s.areg n
  k : ∀ n, n ∉ wk → t.kreg n = s.kreg n
  w : ∀ n, n ∉ ww → t.wreg n = s.wreg n
  /-- every length queue but the one that the length operand pops -/
  lq : ∀ n, n + 4 ≠ len.toNat → t.core.f.lq[n]? = s.core.f.lq[n]? ∧ t.core.f.occ[n]? = s.core.f.occ[n]?
  modq : t.core.f.modq = s.core.f.modq
  bytes : SameBytes s t

end Sys2Proof.Machine
end

