-- ==== Sys2Proof/Certificates/Slice0/Obligations.lean ====
section
/-! DEFINITION. The statements for the provers, with the words they are written in. Each follows rules of spec/, named in its
docstring; a conjunction states the parts in their order. -/

open Sys2Proof

namespace Sys2Proof.Machine

/-! ### The control thread: integer forms, constants, identity (R86, R97 to R104, R123, R124) -/

/-- A word from an integer, modulo 2^64. -/
def int64 (z : Int) : Word := BitVec.ofInt 64 z
/-- The sign extension of a result of 32 bits (R98). -/
def int32 (z : Int) : Word := BitVec.ofInt 64 (z.bmod (2 ^ 32))
/-- The low 32 bits of a register as a signed value (R98). -/
def low32 (x : Word) : Int := x.toInt.bmod (2 ^ 32)
/-- The low 32 bits of a register as an unsigned value (R98). -/
def ulow32 (x : Word) : Nat := x.toNat % 2 ^ 32
/-- 1 for a true comparison, else 0. -/
def truth (p : Prop) [Decidable p] : Word := if p then 1 else 0

/-- The destination and the value of the register and immediate forms of majors 0x01 and 0x02 (R97 to R99), in integers. -/
def integerForm (s : State) : Instr → Option (BitVec 6 × Word)
  | .add o => some (o.d, int64 ((s.g o.a).toInt + (s.g o.b).toInt))
  | .sub o => some (o.d, int64 ((s.g o.a).toInt - (s.g o.b).toInt))
  | .and_ o => some (o.d, s.g o.a &&& s.g o.b)
  | .or_ o => some (o.d, s.g o.a ||| s.g o.b)
  | .xor_ o => some (o.d, s.g o.a ^^^ s.g o.b)
  | .sll o => some (o.d, word ((s.g o.a).toNat * 2 ^ ((s.g o.b).toNat % 64)))
  | .srl o => some (o.d, word ((s.g o.a).toNat / 2 ^ ((s.g o.b).toNat % 64)))
  | .sra o => some (o.d, int64 ((s.g o.a).toInt / 2 ^ ((s.g o.b).toNat % 64)))
  | .slt o => some (o.d, truth ((s.g o.a).toInt < (s.g o.b).toInt))
  | .sltu o => some (o.d, truth ((s.g o.a).toNat < (s.g o.b).toNat))
  | .min o => some (o.d, int64 (min (s.g o.a).toInt (s.g o.b).toInt))
  | .max o => some (o.d, int64 (max (s.g o.a).toInt (s.g o.b).toInt))
  | .addW o => some (o.d, int32 (low32 (s.g o.a) + low32 (s.g o.b)))
  | .subW o => some (o.d, int32 (low32 (s.g o.a) - low32 (s.g o.b)))
  | .sllW o => some (o.d, int32 (low32 (s.g o.a) * 2 ^ ((s.g o.b).toNat % 32)))
  | .srlW o => some (o.d, int32 (ulow32 (s.g o.a) / 2 ^ ((s.g o.b).toNat % 32) : Nat))
  | .sraW o => some (o.d, int32 (low32 (s.g o.a) / 2 ^ ((s.g o.b).toNat % 32)))
  | .addi o => some (o.d, int64 ((s.g o.a).toInt + o.imm.toInt))
  | .andi o => some (o.d, s.g o.a &&& int64 o.imm.toInt)
  | .ori o => some (o.d, s.g o.a ||| int64 o.imm.toInt)
  | .xori o => some (o.d, s.g o.a ^^^ int64 o.imm.toInt)
  | .slli o => some (o.d, word ((s.g o.a).toNat * 2 ^ (o.imm.toNat % 64)))
  | .srli o => some (o.d, word ((s.g o.a).toNat / 2 ^ (o.imm.toNat % 64)))
  | .srai o => some (o.d, int64 ((s.g o.a).toInt / 2 ^ (o.imm.toNat % 64)))
  | .slti o => some (o.d, truth ((s.g o.a).toInt < o.imm.toInt))
  | .addiW o => some (o.d, int32 (low32 (s.g o.a) + o.imm.toInt))
  | .slliW o => some (o.d, int32 (low32 (s.g o.a) * 2 ^ (o.imm.toNat % 32)))
  | .srliW o => some (o.d, int32 (ulow32 (s.g o.a) / 2 ^ (o.imm.toNat % 32) : Nat))
  | .sraiW o => some (o.d, int32 (low32 (s.g o.a) / 2 ^ (o.imm.toNat % 32)))
  | _ => none

/-- The destination and the value of the multiply and divide forms of major 0x03 (R100), in integers. -/
def productForm (s : State) : Instr → Option (BitVec 6 × Word)
  | .mul o => some (o.d, int64 ((s.g o.a).toInt * (s.g o.b).toInt))
  | .mulh o => some (o.d, int64 ((s.g o.a).toInt * (s.g o.b).toInt / 2 ^ 64))
  | .mulhu o => some (o.d, word ((s.g o.a).toNat * (s.g o.b).toNat / 2 ^ 64))
  | .div o => some (o.d, if s.g o.b = 0 then int64 (-1) else int64 ((s.g o.a).toInt.tdiv (s.g o.b).toInt))
  | .divu o => some (o.d, if s.g o.b = 0 then int64 (-1) else word ((s.g o.a).toNat / (s.g o.b).toNat))
  | .rem o => some (o.d, if s.g o.b = 0 then s.g o.a else int64 ((s.g o.a).toInt.tmod (s.g o.b).toInt))
  | .remu o => some (o.d, if s.g o.b = 0 then s.g o.a else word ((s.g o.a).toNat % (s.g o.b).toNat))
  | .mulW o => some (o.d, int32 (low32 (s.g o.a) * low32 (s.g o.b)))
  | .divW o => some (o.d, if low32 (s.g o.b) = 0 then int32 (-1) else int32 ((low32 (s.g o.a)).tdiv (low32 (s.g o.b))))
  | .divuW o => some (o.d, if ulow32 (s.g o.b) = 0 then int32 (-1) else int32 (ulow32 (s.g o.a) / ulow32 (s.g o.b) : Nat))
  | .remW o =>
    some (o.d, if low32 (s.g o.b) = 0 then int32 (low32 (s.g o.a)) else int32 ((low32 (s.g o.a)).tmod (low32 (s.g o.b))))
  | .remuW o =>
    some (o.d, if ulow32 (s.g o.b) = 0 then int32 (low32 (s.g o.a)) else int32 (ulow32 (s.g o.a) % ulow32 (s.g o.b) : Nat))
  | _ => none

/-- The identity of the current slot's thread by selector, outside a VP block (R123). -/
def identities (s : State) : List Nat :=
  [s.slot.th.x, s.slot.th.y, s.slot.th.z, s.slot.th.num, s.slot.th.stage, s.cl, s.co, if s.hi then 1 else 0, 0,
   s.slot.th.nx, s.slot.th.ny, s.slot.th.nz, s.slot.th.nt, s.slot.th.seq]

/-- The destination and the value of the forms of majors 0x04 to 0x07, 0x12 and 0x13 (R101 to R104, R123, R124); NOP writes
nothing (R86). -/
def plainForm (s : State) : Instr → Option (BitVec 6 × Word)
  | .nop => some (0, 0)
  | .clz o => some (o.d, word (((List.range 64).takeWhile (fun k => !(s.g o.a).getLsbD (63 - k))).length))
  | .ctz o => some (o.d, word (((List.range 64).takeWhile (fun k => !(s.g o.a).getLsbD k)).length))
  | .popc o => some (o.d, word (((List.range 64).filter (fun k => (s.g o.a).getLsbD k)).length))
  | .sel o => some (o.d, if s.g o.c ≠ 0 then s.g o.a else s.g o.b)
  | .limmT4w o => some (o.d, int64 o.imm.toInt)
  | .limmT8w o => some (o.d, o.imm)
  | .addpc o => some (o.d, int64 (s.slot.pc.toNat + o.imm.toInt))
  | .getid o => some (o.d, word ((identities s)[o.val.toNat]?.getD 0))
  | .caps d =>
    some (d, if s.variant = .kwenulos then 0x0100_A221_2000_001F + word (s.stepping % 256 * 2 ^ 48)
             else 0x0200_5121_1000_0010 + word (s.stepping % 256 * 2 ^ 48))
  | _ => none

/-- A form of the control thread that writes one register and does not transfer. -/
def Writes (f : State → Instr → Option (BitVec 6 × Word)) : Prop :=
  ∀ s i d v, s.Free → i.WellFormed → f s i = some (d, v) →
    Runs i s (fun t => WroteG d.toNat v t ∧ Advanced s t ∧ ScalarFrame d.toNat s t)

/-- R97 to R99: the register and immediate forms of integer arithmetic, logic, shifts and comparisons. -/
def IntegerForms : Prop :=
 Writes integerForm

/-- R100: the multiply and divide forms. -/
def ProductForms : Prop :=
 Writes productForm

/-- R86, R101 to R104, R123, R124: bit counts, selection, constants, addresses, identity; NOP. -/
def PlainForms : Prop :=
 Writes plainForm

end Sys2Proof.Machine

section
open Sys2Proof.Machine

/-- The register forms of the control thread write their result to one register and change nothing else (R97 to R99; R100; R86,
R101 to R104, R123, R124). -/
def Obligations.RegisterFormsWriteOneRegister : Prop :=
  Sys2Proof.Machine.IntegerForms ∧ Sys2Proof.Machine.ProductForms ∧ Sys2Proof.Machine.PlainForms

end

namespace Sys2Proof.Machine

/-! ### Branches, calls and loops (R71, R72, R112 to R115) -/

/-- The address that a T4B or T4J tail names: line L + 64 × LOFF of the transferring instruction's line L, slot SLOT (R71, R72). -/
def named {n : Nat} (s : State) (loff : BitVec n) (slot : BitVec 5) : Word :=
  int64 ((s.slot.pc.toNat / 64 * 64 : Nat) + 64 * loff.toInt + 2 * slot.toNat)

/-- A transfer to the address lands: its line can be fetched, which leads to state u, and an instruction stands in its slot
(R69, R72, R74). -/
def Lands (s : State) (a : Word) (u : State) : Prop :=
  ∃ l h x, s.fetchLine (lineOf a) = .ok (l, u) ∧ lineSlot l (slotOf a) = .ins h x

/-- The comparison of a branch (R112). -/
def condition (s : State) : Instr → Option (Prop × OpB4)
  | .bEq o => some (s.g o.a = s.g o.b, o)
  | .bNe o => some (s.g o.a ≠ s.g o.b, o)
  | .bLt o => some ((s.g o.a).toInt < (s.g o.b).toInt, o)
  | .bGe o => some ((s.g o.b).toInt ≤ (s.g o.a).toInt, o)
  | .bLtu o => some ((s.g o.a).toNat < (s.g o.b).toNat, o)
  | .bGeu o => some ((s.g o.b).toNat ≤ (s.g o.a).toNat, o)
  | _ => none

/-- The loop entries that a taken B or JMP to an address leaves: entries pop until the address lies in the innermost entry's
range (R115). -/
def LeavesLoops (a : Word) (old new : List LoopEnt) : Prop :=
  ∃ gone, old = gone ++ new ∧ (∀ e ∈ gone, ¬(e.s.toNat ≤ a.toNat ∧ a.toNat ≤ e.e.toNat)) ∧
    ∀ e ∈ new.head?, e.s.toNat ≤ a.toNat ∧ a.toNat ≤ e.e.toNat

/-- The thread has transferred to an address out of state u, which the fetch of the target line led to: only the register of
a link, the address, the loop stack and the start of a wait differ. -/
structure Transferred (d : Nat) (a : Word) (u t : State) : Prop where
  pc : t.slot.pc = a
  rest : t = u.setSlot { u.slot with pc := a, loops := t.slot.loops, g := t.slot.g, since := none, behind := none, popAt := none }
  regs : ∀ n, n ≠ d → t.slot.getG n = u.slot.getG n

/-- Where the thread goes after an instruction that does not transfer: each entry whose last instruction it was counts down,
and those that come to 0 pop, until one has passes left or ends elsewhere (R115). -/
def LoopRule (pc npc : Word) (old new : List LoopEnt) (next : Word) : Prop :=
  ∃ done rest, old = done ++ rest ∧ (∀ e ∈ done, e.e = pc ∧ e.r = 1) ∧
    match rest with
    | [] => new = [] ∧ next = npc
    | e :: r =>
      if e.e = pc then e.r ≠ 1 ∧ new = { e with r := e.r - 1 } :: r ∧ next = e.s
      else new = e :: r ∧ next = npc

/-- R112: a branch whose comparison holds stands at its target, and one whose comparison fails goes on without looking there. -/
def BranchesTakeTheirTarget : Prop :=
  ∀ s i p o, s.Free → condition s i = some (p, o) →
    (p → ∀ u, Lands s (named s o.loff o.slot) u →
      Runs i s (fun t => Transferred 0 (named s o.loff o.slot) u t ∧
        LeavesLoops (named s o.loff o.slot) s.slot.loops t.slot.loops)) ∧
    (¬p → Runs i s (fun t => Advanced s t ∧ ScalarFrame 0 s t))

/-- R113: JMP, CALL and JMPR stand at their target; CALL and JMPR write the link, JMPR after it has read its target; only JMP
leaves loops. -/
def JumpsTransferAndLink : Prop :=
  ∀ s u, s.Free →
    (∀ o, Instr.WellFormed (.jmp o) → Lands s (named s o.loff o.slot) u →
      Runs (.jmp o) s (fun t => Transferred 0 (named s o.loff o.slot) u t ∧
        LeavesLoops (named s o.loff o.slot) s.slot.loops t.slot.loops)) ∧
    (∀ o, Instr.WellFormed (.call o) → Lands s (named s o.loff o.slot) u →
      Runs (.call o) s (fun t => Transferred o.d.toNat (named s o.loff o.slot) u t ∧ WroteG o.d.toNat s.slot.npc t ∧
        t.slot.loops = s.slot.loops)) ∧
    (∀ o, Instr.WellFormed (.jmpr o) → (s.g o.a).toNat % 2 = 0 → Lands s (s.g o.a) u →
      Runs (.jmpr o) s (fun t => Transferred o.d.toNat (s.g o.a) u t ∧ WroteG o.d.toNat s.slot.npc t ∧
        t.slot.loops = s.slot.loops))

/-- R114: LOOP with a count pushes the body's first and last address and the count and goes on; with a count of 0 it goes on
behind the body, loops as they are; a body that ends before it begins and a fifth entry trap. -/
def LoopPushesOrSkips : Prop :=
  ∀ s (o : OpJ4), s.Free → Instr.WellFormed (.loop o) →
    (∀ u, s.slot.npc.toNat ≤ (named s o.loff o.slot).toNat → Lands s (named s o.loff o.slot) u →
      (s.g o.d ≠ 0 → s.slot.loops.length < 4 → Runs (.loop o) s (fun t => Transferred 0 s.slot.npc u t ∧
        t.slot.loops = ⟨s.slot.npc, named s o.loff o.slot, s.g o.d⟩ :: s.slot.loops)) ∧
      (s.g o.d = 0 → ∀ l, look (lineOf (named s o.loff o.slot)) u.slot.lines = some l →
        Runs (.loop o) s (fun t => Transferred 0 (nextAddr l (named s o.loff o.slot)) u t ∧ t.slot.loops = s.slot.loops)) ∧
      (s.g o.d ≠ 0 → s.slot.loops.length = 4 → Runs (.loop o) s (fun t => t = u.takeTrap (Trap.opnd 0x03)))) ∧
    ((named s o.loff o.slot).toNat < s.slot.npc.toNat → Runs (.loop o) s (fun t => t = s.takeTrap (Trap.opnd 0x02)))

/-- R115: where the thread stands after an instruction that does not transfer, and what is left of the loop stack; shown of NOP,
and the word Advanced of the other statements means the same. -/
def LoopEndCountsDown : Prop :=
  ∀ s, s.Free →
    Runs .nop s (fun t => LoopRule s.slot.pc s.slot.npc s.slot.loops t.slot.loops t.slot.pc) ∧
    ∀ t, Advanced s t → LoopRule s.slot.pc s.slot.npc s.slot.loops t.slot.loops t.slot.pc

end Sys2Proof.Machine

section
open Sys2Proof.Machine

/-- Branches, jumps, calls and hardware loops: where the thread goes and what is linked, pushed and counted (R112; R113; R114;
R115). -/
def Obligations.ControlTransfersReachTheirTarget : Prop :=
  Sys2Proof.Machine.BranchesTakeTheirTarget ∧ Sys2Proof.Machine.JumpsTransferAndLink ∧ Sys2Proof.Machine.LoopPushesOrSkips ∧ Sys2Proof.Machine.LoopEndCountsDown

end

namespace Sys2Proof.Machine

/-! ### Scalar loads, stores and atomics (R105 to R111) -/

/-- The effective address of LD and ST (R105). -/
def address (s : State) (o : OpL4) : Nat := (int64 ((s.g o.base).toInt + o.off.toInt)).toNat
/-- The bytes that a width code moves (R79). -/
def width (wid : BitVec 3) : Nat := [1, 2, 4, 8, 1, 2, 4, 8][wid.toNat]?.getD 1
/-- A loaded number of n bytes in a register: sign-extended, or zero-extended under a code of .BU, .HU and .WU (R105). -/
def extended (wid : BitVec 3) (x : Nat) : Word := if wid.toNat < 4 then int64 ((x : Int).bmod (2 ^ (8 * width wid))) else word x

/-- A scalar access to bytes of a buffer that the checks of R106 admit and that no engine command holds back (R107). -/
structure BufferFree (s : State) (spc ea n : Nat) (wr : Bool) : Prop where
  space : 1 ≤ spc ∧ spc ≤ 3
  inside : ea + n ≤ bufSize spc
  aligned : ea % n = 0
  holder : s.core.notHolder spc ea n = false
  ready : s.scalarWaits spc ea n wr = false

/-- A scalar access to device memory that the checks of R106 admit and that no engine command holds back: its translation
leads to the location in the state u, which differs from s in a translation held (R106, R107, R388). -/
structure DeviceFree (s : State) (ea n : Nat) (acc : Acc) (form : Form) (loc : Nat) (u : State) : Prop where
  inside : ea < 2 ^ 54
  aligned : ea % n = 0
  ready : s.scalarWaits 0 ea n (acc != .rd) = false
  maps : s.xlate ea acc form = .ok (.mem loc, u)

/-- The bytes of a number of n bytes lie at an address; every other byte of the buffers and all of device memory read as
before. -/
def HeldWrite (spc a n x : Nat) (s t : State) : Prop :=
  (∀ k, k < n → t.held spc (a + k) = BitVec.ofNat 8 (x / 256 ^ k)) ∧
  (∀ b c, b ≠ spc ∨ c < a ∨ a + n ≤ c → t.held b c = s.held b c) ∧ (∀ loc, t.seen loc = s.seen loc)
/-- The bytes of a number of n bytes lie at a location of device memory, as the current thread reads it; every other byte of
device memory and all of the buffers read as before. -/
def SeenWrite (loc n x : Nat) (s t : State) : Prop :=
  (∀ k, k < n → t.seen (loc + k) = BitVec.ofNat 8 (x / 256 ^ k)) ∧
  (∀ c, c < loc ∨ loc + n ≤ c → t.seen c = s.seen c) ∧ (∀ b c, t.held b c = s.held b c)

/-- What a store or atomic of the control thread leaves unchanged: every g register but gd, and every control register, queue,
file, stream, handle, slot and hub register; memory is said apart, and so are the combining stores. Its translation may be kept
in the TLBs of the core and of its cluster (R395). -/
structure StoreFrame (d : Nat) (s t : State) : Prop where
  core : t.core = { s.core with s0 := t.core.s0, s1 := t.core.s1, w := t.core.w, a := t.core.a, c := t.core.c,
                                own := t.core.own, ownAge := t.core.ownAge, tlb := t.core.tlb }
  slot : t.slot = { s.slot with g := t.slot.g, pc := t.slot.pc, loops := t.slot.loops, since := none, behind := none, popAt := none,
                                view := t.slot.view, past := t.slot.past }
  other : t.core.slot (!s.hi) = { s.core.slot (!s.hi) with view := (t.core.slot (!s.hi)).view, past := (t.core.slot (!s.hi)).past }
  regs : ∀ n, n ≠ d → t.slot.getG n = s.slot.getG n
  cores : ∀ k, k ≠ 8 * s.cl + s.co → look k t.cores = look k s.cores
  clusters : ∀ k, t.clusAt k = { s.clusAt k with tlb := (t.clusAt k).tlb }
  tlbs : ∀ k, k ≠ s.cl → (t.clusAt k).tlb = (s.clusAt k).tlb
  points : t.die0 = s.die0 ∧ t.die1 = s.die1 ∧ t.peer = s.peer
  hub : t.hub = s.hub ∧ t.xl = s.xl ∧ t.er = s.er ∧ t.bt = s.bt ∧ t.ex = s.ex ∧ t.time = s.time ∧
    t.agenda = s.agenda ∧ t.out = s.out ∧ t.eager = s.eager ∧ t.variant = s.variant ∧ t.stepping = s.stepping ∧ t.free = s.free

/-- Nothing that is on its way to memory lies in the line of a location (R299, R337). -/
structure LineHome (s : State) (loc : Nat) : Prop where
  near : loc < peerBase
  own : ∀ c ∈ s.core.own, c.1 / 64 ≠ loc / 64
  dirty : ∀ c ∈ s.clus.dirty, c.1 / 64 ≠ loc / 64
  writer : look (loc / 64) s.clus.dirtyBy = none
  die : ∀ c ∈ s.dieOf s.cl, c.1 / 64 ≠ loc / 64
  peer : ∀ c ∈ s.peer, c.1 / 64 ≠ loc / 64
  ops : s.bd.ops = []
  combining : ∀ h ∈ s.bd.held, h.line ≠ loc / 64

/-- The operation number and the operands of an AMO (R109). -/
def amoForm : Instr → Option (Nat × OpAM)
  | .amoAdd o => some (0, o)
  | .amoAnd o => some (1, o)
  | .amoOr o => some (2, o)
  | .amoXor o => some (3, o)
  | .amoMin o => some (4, o)
  | .amoMax o => some (5, o)
  | .amoMinu o => some (6, o)
  | .amoMaxu o => some (7, o)
  | .amoFadd o => some (8, o)
  | .amoBfadd o => some (9, o)
  | .amoSwap o => some (10, o)
  | .amoCas o => some (11, o)
  | _ => none

/-- The new value of an atomic of w bits (R110); the sums of binary32 and BF16 are rounded once to nearest even (R16). -/
def atomicValue (op w old x cmp : Nat) : Nat :=
  match op with
  | 0 => (old + x) % 2 ^ w
  | 1 => Nat.land old x
  | 2 => Nat.lor old x
  | 3 => Nat.xor old x
  | 4 => if (BitVec.ofNat w x).toInt < (BitVec.ofNat w old).toInt then x else old
  | 5 => if (BitVec.ofNat w old).toInt < (BitVec.ofNat w x).toInt then x else old
  | 6 => min old x
  | 7 => max old x
  | 8 => (faddR (fmtOf 1) 0 (fval (fmtOf 1) old) (fval (fmtOf 1) x)).1
  | 9 => (faddR (fmtOf 3) 0 (fval (fmtOf 3) old) (fval (fmtOf 3) x)).1
  | 10 => x
  | _ => if old = cmp then x else old
/-- The bytes of an AMO of a size code (R109). -/
def amoWidth (sz : BitVec 2) : Nat := 2 ^ (sz.toNat + 1)

/-- R105: LD and ST on a buffer. -/
def BufferLoadsAndStores : Prop :=
  ∀ s (o : OpL4), s.Free →
    (Instr.WellFormed (.ld o) → BufferFree s o.spc.toNat (address s o) (width o.wid) false →
      Runs (.ld o) s (fun t =>
        WroteG o.d.toNat (extended o.wid (s.heldNum o.spc.toNat (address s o) (width o.wid))) t ∧ Advanced s t ∧
        ScalarFrame o.d.toNat s t)) ∧
    (Instr.WellFormed (.st o) → BufferFree s o.spc.toNat (address s o) (width o.wid) true →
      (s.core.buf o.spc.toNat).wf = true →
      Runs (.st o) s (fun t =>
        HeldWrite o.spc.toNat (address s o) (width o.wid) (s.g o.d).toNat s t ∧ Advanced s t ∧ StoreFrame 0 s t ∧
        t.bd = s.bd ∧ (t.core.buf o.spc.toNat).wf = true))

/-- R105, R299, R300: LD and ST on device memory, where the leaf names local HBM or a peer that admits the read; the bytes are
those that the thread's view holds, and a store changes that view. -/
def DeviceLoadsAndStores : Prop :=
  ∀ s (o : OpL4) loc u, s.Free → o.spc = 0 →
    (Instr.WellFormed (.ld o) → DeviceFree s (address s o) (width o.wid) .rd .scalar loc u →
      (loc < peerBase ∨ u.peerAdmits loc (width o.wid) 0 = true) →
      Runs (.ld o) s (fun t =>
        WroteG o.d.toNat (extended o.wid (s.seenNum loc (width o.wid))) t ∧ Advanced s t ∧ StoreFrame o.d.toNat s t ∧
        t.bd = s.bd ∧ SameBytes s t)) ∧
    (Instr.WellFormed (.st o) → DeviceFree s (address s o) (width o.wid) .wr .scalar loc u →
      Runs (.st o) s (fun t =>
        SeenWrite loc (width o.wid) (s.g o.d).toNat s t ∧ Advanced s t ∧ StoreFrame 0 s t ∧ t.bd = s.bd ∧
        t.mem = s.mem))

/-- R392, R407: LD and ST through a leaf of the PCIe memory window leave on the root port that the leaf names, with the address
there, their size and a store's data; what the drive answers to a load is a free value of the model (log 66), of which the
bytes of the access reach the register. -/
def WindowLoadsAndStores : Prop :=
  ∀ s (o : OpL4) port a u, s.Free → o.spc = 0 → address s o < 2 ^ 54 → address s o % width o.wid = 0 →
    (Instr.WellFormed (.ld o) → s.scalarWaits 0 (address s o) (width o.wid) false = false →
      s.xlate (address s o) .rd .scalar = .ok (.drive port a, u) →
      Runs (.ld o) s (fun t =>
        WroteG o.d.toNat (extended o.wid (Config.freeValue s.free % 2 ^ (8 * width o.wid))) t ∧ Advanced s t ∧
        t.out = .driveLoad port a (width o.wid) :: s.out ∧ t.free = s.free + 1 ∧ t.mem = s.mem ∧ SameBytes s t ∧
        ∀ n, n ≠ o.d.toNat → t.slot.getG n = s.slot.getG n)) ∧
    (Instr.WellFormed (.st o) → s.scalarWaits 0 (address s o) (width o.wid) true = false →
      s.xlate (address s o) .wr .scalar = .ok (.drive port a, u) →
      Runs (.st o) s (fun t => Advanced s t ∧
        t.out = .driveStore port a (width o.wid) ((s.g o.d).toNat % 2 ^ (8 * width o.wid)) :: s.out ∧ t.free = s.free ∧
        t.mem = s.mem ∧ SameBytes s t ∧ ∀ n, t.slot.getG n = s.slot.getG n))

/-- R106: the first check that fails decides: the address range, then the alignment, then the holder of a buffer. -/
def LoadAndStoreChecks : Prop :=
  ∀ s i (o : OpL4), (i = .ld o ∨ i = .st o) →
    (o.spc = 0 → 2 ^ 54 ≤ address s o →
      Runs i s (fun t => t = s.takeTrap { code := 0x07, sub := 0x01, d0 := word (address s o), d2 := if i = .ld o then 0 else 1 })) ∧
    (o.spc.toNat ≠ 0 → bufSize o.spc.toNat < address s o + width o.wid →
      Runs i s (fun t => t = s.takeTrap { code := 0x03, sub := 0x01 })) ∧
    ((o.spc = 0 ∧ address s o < 2 ^ 54 ∨ o.spc.toNat ≠ 0 ∧ address s o + width o.wid ≤ bufSize o.spc.toNat) →
      (address s o % width o.wid ≠ 0 → Runs i s (fun t => t = s.takeTrap { code := 0x05, sub := 0x02 })) ∧
      (address s o % width o.wid = 0 → o.spc.toNat ≠ 0 → s.core.notHolder o.spc.toNat (address s o) (width o.wid) = true →
        Runs i s (fun t => t = s.takeTrap { code := 0x09, sub := 0 })))

end Sys2Proof.Machine

section
open Sys2Proof.Machine

/-- LD and ST: the value loaded, the bytes stored, every other byte as before, the checks in their order, and what leaves through
a drive's window (R105; R105, R299, R300; R106; R392, R407). -/
def Obligations.ScalarLoadsAndStores : Prop :=
  Sys2Proof.Machine.BufferLoadsAndStores ∧ Sys2Proof.Machine.DeviceLoadsAndStores ∧ Sys2Proof.Machine.LoadAndStoreChecks ∧
    Sys2Proof.Machine.WindowLoadsAndStores

/-- R110, R338: an AMO returns the old value and leaves the new one at its home, in a buffer or in device memory, where its line
has an entry of the combining store of its slice from then on. -/
def Obligations.AtomicsUpdateTheirHome : Prop :=
  ∀ s i op (o : OpAM), s.Free → Instr.WellFormed i → amoForm i = some (op, o) →
    (BufferFree s o.spc.toNat (s.g o.base).toNat (amoWidth o.sz) true → (s.core.buf o.spc.toNat).wf = true →
      Runs i s (fun t =>
        WroteG o.d.toNat (word (s.heldNum o.spc.toNat (s.g o.base).toNat (amoWidth o.sz))) t ∧
        HeldWrite o.spc.toNat (s.g o.base).toNat (amoWidth o.sz)
          (atomicValue op (8 * amoWidth o.sz) (s.heldNum o.spc.toNat (s.g o.base).toNat (amoWidth o.sz))
            ((s.g o.val).toNat % 2 ^ (8 * amoWidth o.sz)) ((s.g o.cmp).toNat % 2 ^ (8 * amoWidth o.sz))) s t ∧
        Advanced s t ∧ StoreFrame o.d.toNat s t ∧ t.bd = s.bd)) ∧
    (∀ loc u b, o.spc = 0 → DeviceFree s (s.g o.base).toNat (amoWidth o.sz) .atm .other loc u → loc % amoWidth o.sz = 0 →
      LineHome s loc → s.bd.entry (loc / 64) true s.time = some b → s.mem.wf = true →
      Runs i s (fun t => t.bd = b ∧
        WroteG o.d.toNat (word (s.mem.read loc (amoWidth o.sz))) t ∧
        SeenWrite loc (amoWidth o.sz)
          (atomicValue op (8 * amoWidth o.sz) (s.mem.read loc (amoWidth o.sz))
            ((s.g o.val).toNat % 2 ^ (8 * amoWidth o.sz)) ((s.g o.cmp).toNat % 2 ^ (8 * amoWidth o.sz))) s t ∧
        t.mem.read loc (amoWidth o.sz) = atomicValue op (8 * amoWidth o.sz) (s.mem.read loc (amoWidth o.sz))
            ((s.g o.val).toNat % 2 ^ (8 * amoWidth o.sz)) ((s.g o.cmp).toNat % 2 ^ (8 * amoWidth o.sz)) ∧
        Advanced s t ∧ StoreFrame o.d.toNat s t))

end

namespace Sys2Proof.Machine

/-! ### Control registers, traps and the thread (R61 to R65, R122, R125 to R130, R136, R137) -/

/-- The control registers by number (R61). -/
def controlRegister (s : State) (n : Nat) : Option Word :=
  if n = 0x00 then some s.slot.status else if n = 0x01 then some s.slot.cause else if n = 0x02 then some s.slot.epc
  else if n = 0x03 then some s.slot.trapvec else if n = 0x04 then some s.core.ctxid else if n = 0x05 then some s.core.errmark
  else if n = 0x06 then some s.core.errcnt else if n = 0x07 then some s.core.rndseed else if n = 0x08 then some s.caps
  else if n = 0x09 then some s.core.traceptr else if n = 0x0A then some s.slot.gang else if n = 0x10 then some (word s.slot.vl)
  else if n = 0x11 then some s.slot.vtype else if n = 0x12 then some s.core.f.modq else none

/-- What a write of a control register of the slot leaves unchanged: everything but the slot's STATUS, CAUSE, EPC, TRAPVEC and
where it stands, and of the core everything but RNDSEED and TRACEPTR. -/
structure ControlFrame (s t : State) : Prop where
  outside : t = s.setCore t.core
  core : t.core = { s.core with s0 := t.core.s0, s1 := t.core.s1, rndseed := t.core.rndseed, traceptr := t.core.traceptr }
  other : t.core.slot (!s.hi) = s.core.slot (!s.hi)
  slot : t.slot = { s.slot with status := t.slot.status, cause := t.slot.cause, epc := t.slot.epc, trapvec := t.slot.trapvec,
                                pc := t.slot.pc, loops := t.slot.loops, since := none, behind := none, popAt := none }
  bytes : SameBytes s t

/-- A SYSWR that completes without a queue entry: the control registers after it, by number (R61, R62, R64). -/
def ControlWrite (n : Nat) (v : Word) (s t : State) : Prop :=
  (∀ k, t.slot.status.getLsbD k = if n = 0x00 ∧ (41 ≤ k ∨ k = 8 ∨ k = 9) then v.getLsbD k else s.slot.status.getLsbD k) ∧
  t.slot.epc = (if n = 0x02 then v else s.slot.epc) ∧
  (∀ k, t.slot.trapvec.getLsbD k = if n = 0x03 then decide (6 ≤ k) && v.getLsbD k else s.slot.trapvec.getLsbD k) ∧
  (∀ k, t.core.traceptr.getLsbD k = if n = 0x09 ∧ k = 63 then v.getLsbD 63 else s.core.traceptr.getLsbD k) ∧
  (n ≠ 0x01 → t.slot.cause = s.slot.cause) ∧ t.core.rndseed = s.core.rndseed

/-- THE ENTRY OF A LOCAL TRAP (R122): CAUSE is written, EPC points where the cause says, INH is set, the thread stands at slot 0
of TRAPVEC. Nothing else of the slot changes, and nothing outside it. -/
structure LocalEntry (code sub : Nat) (ret : Word) (s t : State) : Prop where
  outside : t = s.setSlot t.slot
  cause : t.slot.cause = word (256 * sub + code)
  epc : t.slot.epc = ret
  status : ∀ k, t.slot.status.getLsbD k = if k = 3 then true else s.slot.status.getLsbD k
  pc : t.slot.pc = word (s.slot.trapvec.toNat / 64 * 64)
  slot : t.slot = { s.slot with cause := t.slot.cause, epc := ret, status := t.slot.status, pc := t.slot.pc, since := none, behind := none, popAt := none }

/-- THE ENTRY OF A RECORDED TRAP (R63, R381, R382): CAUSE and EPC are written and the thread stops with one record more to be
written, which is fatal when INH was set (R383). -/
structure RecordedEntry (code sub : Nat) (ret : Word) (s t : State) : Prop where
  outside : t = s.setSlot t.slot
  cause : t.slot.cause = word (256 * sub + code)
  epc : t.slot.epc = ret
  stopped : t.slot.run = .stopped
  record : ∃ r : Record, t.slot.pend = s.slot.pend ++ [r] ∧ r.code = code ∧ r.sub = sub ∧ r.rpl = false ∧ r.qf = false ∧
    r.fatal = s.slot.inh ∧ r.hub = false ∧ r.ctx = fld s.core.ctxid 0 16 ∧ r.epc = ret ∧ r.seq = s.slot.th.seq ∧
    r.cl = s.cl ∧ r.core = s.co ∧ r.hi = s.hi ∧ r.d0 = 0 ∧ r.d1 = 0 ∧ r.d2 = 0 ∧ r.d3 = 0
  slot : t.slot = { s.slot with cause := t.slot.cause, epc := ret, run := .stopped, pend := t.slot.pend, since := none, behind := none, popAt := none }

/-- A trap without operands is taken as R63 and R122 say: at TRAPVEC where the cause is marked local, LTE = 1, INH = 0 and
TRAPVEC names a line; else as a record. -/
def Traps (i : Instr) (isLocal : Bool) (code sub : Nat) (epc : Word) (s : State) : Prop :=
  (isLocal = true ∧ s.slot.status.getLsbD 8 = true ∧ s.slot.status.getLsbD 3 = false ∧ 64 ≤ s.slot.trapvec.toNat →
    Runs i s (LocalEntry code sub epc s)) ∧
  (¬(isLocal = true ∧ s.slot.status.getLsbD 8 = true ∧ s.slot.status.getLsbD 3 = false ∧ 64 ≤ s.slot.trapvec.toNat) →
    Runs i s (RecordedEntry code sub epc s))

/-- Elements of a register at the width that a VTYPE image holds (R47, R51). -/
def elementsOf (vt : Word) : Nat := [512, 256, 128, 64][fld vt 0 2]?.getD 0
/-- The VTYPE images that VSETT takes: a format with the width of SEW, block lengths of 1, 16, 32 or 64, a rounding mode, 2 to 8
planes, and no reserved bit (R13, R22, R25, R33, R51). -/
def legalType (t : Word) : Prop :=
  fld t 2 4 = 0 ∧ (fld t 6 4, fld t 0 2) ∈ [(0, 3), (1, 2), (12, 2), (2, 1), (3, 1), (11, 1), (4, 0), (5, 0), (6, 0), (7, 0), (8, 0),
    (9, 0), (10, 0)] ∧ fld t 10 3 ∈ [0, 4, 5, 6] ∧ fld t 13 3 ∈ [0, 4, 5, 6] ∧ fld t 16 3 ≤ 4 ∧ 2 ≤ fld t 20 4 ∧ fld t 20 4 ≤ 8

/-- R61, R125: SYSRD returns each listed register. -/
def SysrdReturnsTheRegister : Prop :=
  ∀ s (o : OpW2) v, s.Free → Instr.WellFormed (.sysrd o) → controlRegister s o.val.toNat = some v →
    Runs (.sysrd o) s (fun t => WroteG o.d.toNat v t ∧ Advanced s t ∧ ScalarFrame o.d.toNat s t)

/-- R61, R62, R64: SYSWR writes the fields that are RW, ignores the registers that are RO, and traps on CAUSE and EPC outside a
handler and on VL, VTYPE and MODQ. A write of STATUS waits for the queue; the statement takes a core with an empty one. -/
def SyswrWritesTheRwFields : Prop :=
  ∀ s (o : OpW2), s.Free → Instr.WellFormed (.syswr o) →
    (o.val.toNat ≠ 0x07 → o.val.toNat < 0x10 → (o.val.toNat = 0x00 → s.core.queue = []) →
      (o.val.toNat = 0x01 ∨ o.val.toNat = 0x02 → s.slot.status.getLsbD 3 = true) →
      Runs (.syswr o) s (fun t => ControlWrite o.val.toNat (s.g o.d) s t ∧ Advanced s t ∧ ControlFrame s t)) ∧
    (o.val.toNat = 0x07 → s.Quiet →
      Runs (.syswr o) s (fun t => t.core.rndseed = word ((s.g o.d).toNat % 2 ^ 32) ∧
        t.slot.gens = seedGens ((s.g o.d).toNat % 2 ^ 32) ∧ (t.core.slot (!s.hi)).gens = seedGens ((s.g o.d).toNat % 2 ^ 32) ∧
        Advanced s t ∧ SameBytes s t ∧ t.core.f = s.core.f ∧ t.core.queue = [] ∧ t.slot.status = s.slot.status ∧
        ∀ n, t.slot.getG n = s.slot.getG n)) ∧
    ((o.val.toNat = 0x01 ∨ o.val.toNat = 0x02) ∧ s.slot.status.getLsbD 3 = false ∨ 0x10 ≤ o.val.toNat →
      Traps (.syswr o) true 0x01 0x06 s.slot.pc s)

/-- R63, R96, R116, R122, R127: TRAP, DSTOP and a VEND outside a block raise their cause; it is taken at TRAPVEC or recorded. -/
def TrapsAreTaken : Prop :=
  ∀ s,
    (∀ o, Instr.WellFormed (.trap o) → Traps (.trap o) true 0x0F o.val.toNat s.slot.npc s) ∧
    Traps .dstop true 0x10 0x00 s.slot.pc s ∧ Traps .vend true 0x01 0x05 s.slot.pc s

/-- R128: HRET clears INH and continues at EPC; outside a handler, and to an odd address, it traps. -/
def HretReturns : Prop :=
  ∀ s, s.Free →
    (s.slot.status.getLsbD 3 = false → Traps .hret true 0x01 0x07 s.slot.pc s) ∧
    (s.slot.status.getLsbD 3 = true → s.slot.epc.toNat % 2 = 1 → Traps .hret true 0x05 0x01 s.slot.pc s) ∧
    (s.slot.status.getLsbD 3 = true → s.slot.epc.toNat % 2 = 0 → ∀ u, Lands s s.slot.epc u →
      Runs .hret s (fun t => t.slot.pc = s.slot.epc ∧
        (∀ k, t.slot.status.getLsbD k = if k = 3 then false else s.slot.status.getLsbD k) ∧
        t = u.setSlot { u.slot with pc := s.slot.epc, status := t.slot.status, since := none, behind := none, popAt := none }))

/-- R129, R130: WAITEV with its latch set clears it and retires, without it the slot waits; after 65,536 cycles of a wait the
latch is set; CEDE changes nothing; HALT ends the thread when none of its commands is in the queue. -/
def WaitsAndTheEndOfAThread : Prop :=
  (∀ s, s.Free → s.slot.latch = true →
    Runs .waitev s (fun t => t.slot.latch = false ∧ Advanced s t ∧ ScalarFrame 0 (s.modSlot (fun x => { x with latch := false })) t)) ∧
  (∀ s, s.slot.latch = false →
    Runs .waitev s (fun t => t = { s.modSlot (fun x => { x with since := some (x.since.getD s.time) }) with time := s.time + 1 })) ∧
  (∀ s cl core slot x t0, x = (s.coreAt cl core).slot (slot != 0) → x.since = some t0 → t0 + 65536 ≤ s.time →
    Runs (.waitevTimeout cl core slot) s (fun t =>
      (t.coreAt cl core).slot (slot != 0) = { x with latch := true } ∧ (t.coreAt cl core).slot (slot == 0) = (s.coreAt cl core).slot (slot == 0) ∧
      (t.cl, t.co, t.hi) = (s.cl, s.co, s.hi) ∧ ∀ k, k ≠ 8 * cl + core → look k t.cores = look k s.cores)) ∧
  (∀ s, s.Free → Runs .cede s (fun t => Advanced s t ∧ ScalarFrame 0 s t)) ∧
  (∀ s, flag s.slot.gang 63 = false → (∀ c ∈ s.core.queue, c.hi ≠ s.hi) →
    Runs .halt s (fun t => t.slot = Slot.fresh s.hi ∧ t.core.f = s.core.f ∧ t.core.h = s.core.h ∧ t.core.queue = s.core.queue ∧
      t.core.slot (!s.hi) = s.core.slot (!s.hi) ∧ (∀ b ∈ t.hub.born, b.1 ≠ s.slot.th.tid) ∧ t.mem = s.mem))

/-- R56, R136, R137: VSETL sets VL to the smaller of its operand and VLMAX, from a g register or from the count it pops; VSETT
takes a legal image and clamps VL. -/
def LengthAndTypeAreSet : Prop :=
  ∀ s, s.Free →
    (∀ o, Instr.WellFormed (.vsetl o) →
      Runs (.vsetl o) s (fun t => t.slot.vl = min (s.g o.a).toNat (elementsOf s.slot.vtype) ∧
        WroteG o.d.toNat (word (min (s.g o.a).toNat (elementsOf s.slot.vtype))) t ∧ Advanced s t ∧
        ScalarFrame o.d.toNat (s.modSlot (fun x => { x with vl := min (s.g o.a).toNat (elementsOf s.slot.vtype) })) t)) ∧
    (∀ o n l, Instr.WellFormed (.vsetlLq o) → s.core.queue = [] → s.core.f.lq[o.a.toNat]? = some (n :: l) →
      0 < s.core.f.occ[o.a.toNat]?.getD 0 →
      Runs (.vsetlLq o) s (fun t => t.slot.vl = min n (elementsOf s.slot.vtype) ∧
        WroteG o.d.toNat (word (min n (elementsOf s.slot.vtype))) t ∧ t.core.f.lq[o.a.toNat]? = some l ∧
        t.core.f.occ[o.a.toNat]?.getD 0 = s.core.f.occ[o.a.toNat]?.getD 0 - 1 ∧ t.core.qpos = (s.core.qpos + 1) % 65536 ∧
        Advanced s t ∧ t.core.f.v = s.core.f.v ∧ t.core.f.m = s.core.f.m ∧ SameBytes s t ∧
        ∀ k, k ≠ o.d.toNat → t.slot.getG k = s.slot.getG k)) ∧
    (∀ o, Instr.WellFormed (.vsetlLq o) → s.core.f.occ[o.a.toNat]?.getD 0 = 0 →
      Traps (.vsetlLq o) true 0x0B 0x00 s.slot.pc s) ∧
    (∀ o, Instr.WellFormed (.vsett o) → legalType (o.imm.setWidth 64) →
      Runs (.vsett o) s (fun t => t.slot.vtype = o.imm.setWidth 64 ∧ t.slot.vl = min s.slot.vl (elementsOf (o.imm.setWidth 64)) ∧
        WroteG o.d.toNat (word (elementsOf (o.imm.setWidth 64))) t ∧ Advanced s t ∧
        ScalarFrame o.d.toNat (s.modSlot (fun x => { x with vtype := o.imm.setWidth 64, vl := min x.vl (elementsOf (o.imm.setWidth 64)) })) t)) ∧
    (∀ o, Instr.WellFormed (.vsett o) → ¬legalType (o.imm.setWidth 64) → Traps (.vsett o) true 0x01 0x04 s.slot.pc s)

end Sys2Proof.Machine

section
open Sys2Proof.Machine

/-- SYSRD returns each named control register; SYSWR writes the RW fields and traps where the table says so (R61, R125; R61, R62,
R64). -/
def Obligations.ControlRegistersAreReadAndWritten : Prop :=
  Sys2Proof.Machine.SysrdReturnsTheRegister ∧ Sys2Proof.Machine.SyswrWritesTheRwFields

/-- TRAP, DSTOP and VEND enter the trap as local or recorded; HRET returns from a local handler (R63, R96, R116, R122, R127;
R128). -/
def Obligations.TrapsAreTakenAndLeft : Prop :=
  Sys2Proof.Machine.TrapsAreTaken ∧ Sys2Proof.Machine.HretReturns

/-- Waits for the event latch, CEDE, HALT; VSETL and VSETT set the length and the type (R129, R130; R56, R136, R137). -/
def Obligations.WaitsEndAndLengthsAreSet : Prop :=
  Sys2Proof.Machine.WaitsAndTheEndOfAThread ∧ Sys2Proof.Machine.LengthAndTypeAreSet

end

namespace Sys2Proof.Machine

/-- A transfer finds an instruction in the slot that it names, unless the line cannot be fetched (R72, R74). -/
def NamesInstruction (s : State) (a : Word) : Prop :=
  ∀ l u, s.fetchLine (lineOf a) = .ok (l, u) → ∃ h x, lineSlot l (slotOf a) = .ins h x

end Sys2Proof.Machine

section
open Sys2Proof.Machine

/-- R72, R74, R75, R116, R119, R120: a VFETCH enters the queue with VL, VTYPE and g0 to g31 as they stand, and the thread goes on;
with VL = 0 its block retires at once and changes no register; where the line that it names has no instruction in the slot it traps
at its commit; one turn of a running block lets the group at the lowest address issue one
lane instruction, here ADD: each of its VPs adds its two elements and stands at the next instruction, and no other VP and no
other lane register changes. -/
def Obligations.VpBlocksRunInGroups : Prop :=
  (∀ s o, Instr.WellFormed (.vfetch o) → s.Quiet → s.slot.vl = 0 → NamesInstruction s (named s o.loff o.slot) →
    Runs (.vfetch o) s (fun t => EngineFrame .vec (.vfetch o) [] [] [] [] [] 0 s t ∧ Advanced s t ∧ t.slot.status = s.slot.status)) ∧
  (∀ s o, Instr.WellFormed (.vfetch o) → s.Free → s.core.queue.length < 256 → (s.eager = false ∨ s.core.queue ≠ []) →
    NamesInstruction s (named s o.loff o.slot) →
    Runs (.vfetch o) s (fun t => Advanced s t ∧ SameBytes s t ∧ t.core.f = s.core.f ∧ t.core.qpos = (s.core.qpos + 1) % 65536 ∧
      ∃ c : Cmd, t.core.queue = s.core.queue ++ [c] ∧ c.ins = .vfetch o ∧ c.qpos = s.core.qpos ∧ c.hi = s.hi ∧ c.addr = s.slot.pc ∧
        c.vl = s.slot.vl ∧ c.vtype = s.slot.vtype ∧ c.snap = some s.slot.g ∧ c.block = none ∧ c.disp = false ∧ c.done = false ∧
        c.ranges = [⟨1, 0, 524287, true⟩, ⟨2, 0, 393215, true⟩, ⟨3, 0, 131071, true⟩])) ∧
  (∀ s o l u, Instr.WellFormed (.vfetch o) → s.fetchLine (lineOf (named s o.loff o.slot)) = .ok (l, u) →
    (lineSlot l (slotOf (named s o.loff o.slot)) = .overlaps → Traps (.vfetch o) true 0x02 0x01 s.slot.pc s) ∧
    (lineSlot l (slotOf (named s o.loff o.slot)) = .none →
      Traps (.vfetch o) true 0x02 (if lineSlot l 0 = .none then 0x03 else 0x02) s.slot.pc s)) ∧
  (∀ s cl core (k : Core) (c : Cmd) o (b : VpBlock) a l (d x y : BitVec 6), k = s.coreAt cl core → k.queue = [c] →
    c.ins = .vfetch o → c.disp = true → c.done = false → c.faulted = false → c.held = false → c.paused = false →
    c.ep = (k.slot c.hi).ep → (k.slot c.hi).badLines.contains (lineOf (word a)) = false → c.block = some b →
    b.round = [] → b.pcs.length ≤ elementsOf c.vtype → a < 2 ^ 64 → some a ∈ b.pcs → (∀ e, some e ∈ b.pcs → a ≤ e) →
    look (lineOf (word a)) b.lines = some l → laneIns l (word a) = .ok (.add ⟨d, x, y⟩) → x.toNat < 32 → y.toNat < 32 →
    Runs (.vpGroupIssue cl core) s (fun t => ∃ (e : Cmd) (z : VpBlock),
      t.coreAt cl core = { k with queue := [e] } ∧ e.block = some z ∧ e.ins = .vfetch o ∧ e.done = false ∧ e.qpos = c.qpos ∧
      (∀ v, v < b.pcs.length →
        z.pcs[v]? = (if b.pcs[v]? = some (some a) then some (some (nextAddr l (word a)).toNat) else b.pcs[v]?) ∧
        elem (z.work[d.toNat]?.getD 0) (vtSew c.vtype) v =
          (if b.pcs[v]? = some (some a) then
            (elem (b.work[x.toNat]?.getD 0) (vtSew c.vtype) v + elem (b.work[y.toNat]?.getD 0) (vtSew c.vtype) v) % 2 ^ vtSew c.vtype
          else elem (b.work[d.toNat]?.getD 0) (vtSew c.vtype) v)) ∧
      (∀ n, n ≠ d.toNat → z.work[n]? = b.work[n]?) ∧ t.mem = s.mem ∧ (t.cl, t.co, t.hi) = (s.cl, s.co, s.hi)))

end

namespace Sys2Proof.Machine

/-! ### Vectors (R46 to R49, R131 to R155) -/

/-- The signed value of a w-bit element. -/
def signedElem (w a : Nat) : Int := (BitVec.ofNat w a).toInt
/-- The encoding of an integer in w bits. -/
def encoded (w : Nat) (z : Int) : Nat := (BitVec.ofInt w z).toNat
/-- An integer held within bounds. -/
def clamped (lo hi z : Int) : Int := max lo (min hi z)
/-- .U of a form of major 0x23 (R81). -/
def unsignedForm (o : OpV4) : Bool := o.opx.getLsbD 1
/-- The value of an element, unsigned under .U. -/
def valued (o : OpV4) (w a : Nat) : Int := if unsignedForm o then (a : Int) else signedElem w a
/-- A value saturated to the w-bit integers, unsigned under .U. -/
def saturated (o : OpV4) (w : Nat) (z : Int) : Nat :=
  if unsignedForm o then encoded w (clamped 0 (2 ^ w - 1) z) else encoded w (clamped (-2 ^ (w - 1)) (2 ^ (w - 1) - 1) z)

/-- The integer forms of major 0x23 with the result of each lane from its two elements of w bits (R139). -/
def integerLane : Instr → Option (OpV4 × (Nat → Nat → Nat → Nat))
  | .vadd o => some (o, fun w a b => (a + b) % 2 ^ w)
  | .vsub o => some (o, fun w a b => (a + 2 ^ w - b) % 2 ^ w)
  | .vmul o => some (o, fun w a b => a * b % 2 ^ w)
  | .vand o => some (o, fun _ a b => Nat.land a b)
  | .vor o => some (o, fun _ a b => Nat.lor a b)
  | .vxor o => some (o, fun _ a b => Nat.xor a b)
  | .vsll o => some (o, fun w a b => a * 2 ^ (b % w) % 2 ^ w)
  | .vsrl o => some (o, fun w a b => a / 2 ^ (b % w))
  | .vsra o => some (o, fun w a b => encoded w (signedElem w a / 2 ^ (b % w)))
  | .vmin o => some (o, fun w a b => if valued o w b < valued o w a then b else a)
  | .vmax o => some (o, fun w a b => if valued o w a < valued o w b then b else a)
  | .vsadd o => some (o, fun w a b => saturated o w (valued o w a + valued o w b))
  | .vssub o => some (o, fun w a b => saturated o w (valued o w a - valued o w b))
  | _ => none

/-- Elements of w bits of vD: the active ones below n are given, every other is as before (R49). -/
def LaneResult (s t : State) (d w n : Nat) (msk : BitVec 3) (f : Nat → Nat) : Prop :=
  ∀ e, e < vlmax w → elem (t.vreg d) w e =
    if e < n ∧ (s.mreg msk.toNat).getLsbD e = true then f e % 2 ^ w else elem (s.vreg d) w e
/-- The sticky flags of STATUS take the flags of the active lanes below n, and no residue is counted (R17, R62). -/
def FlagResult (s t : State) (n : Nat) (msk : BitVec 3) (f : Nat → Nat) : Prop :=
  ∀ k, k < 64 → (t.slot.status.getLsbD k = true ↔ s.slot.status.getLsbD k = true ∨
    (41 ≤ k ∧ k < 48 ∧ ∃ e, e < n ∧ (s.mreg msk.toNat).getLsbD e = true ∧ (f e).testBit (k - 41) = true))
/-- The length of a T4V form at the current SEW. -/
def lengthOf (s : State) (len : BitVec 3) (n : Nat) : Nat := boundLen (vtSew s.slot.vtype) len n

/-- The smaller or larger of two encodings, −0 below +0; a NaN operand gives the canonical NaN, with NV for a signalling one
(R141). -/
def floatPick (larger : Bool) (f : FF) (a b : Nat) : Nat × Nat :=
  if (fval f a).isNan ∨ (fval f b).isNan then (f.nan, if (fval f a).isSig ∨ (fval f b).isSig then fNV else 0)
  else if (if larger then fltz (fval f a) (fval f b) else fltz (fval f b) (fval f a)) = true then (b, 0) else (a, 0)
/-- The arithmetic rounding mode of a VTYPE image: SR acts as RNE (R33, R140). -/
def roundMode (vt : Word) : Nat := if fld vt 16 3 = 4 then 0 else fld vt 16 3

/-- The floating forms of major 0x24 with the result and the flags of each lane from its encodings a, b and c, each result
rounded once (R39, R140 to R142). -/
def floatLane (vt : Word) : Instr → Option (OpV4 × (Nat → Nat → Nat → Nat × Nat))
  | .vfadd o => some (o, fun a b _ => faddR (fmtOf (vtFmt vt)) (roundMode vt) (fval (fmtOf (vtFmt vt)) a) (fval (fmtOf (vtFmt vt)) b))
  | .vfsub o => some (o, fun a b _ => faddR (fmtOf (vtFmt vt)) (roundMode vt) (fval (fmtOf (vtFmt vt)) a) (fval (fmtOf (vtFmt vt)) b).neg)
  | .vfmul o => some (o, fun a b _ => fmulR (fmtOf (vtFmt vt)) (roundMode vt) (fval (fmtOf (vtFmt vt)) a) (fval (fmtOf (vtFmt vt)) b))
  | .vfdiv o => some (o, fun a b _ => fdivR (fmtOf (vtFmt vt)) (roundMode vt) (fval (fmtOf (vtFmt vt)) a) (fval (fmtOf (vtFmt vt)) b))
  | .vfma o => some (o, fun a b c => fmaR (fmtOf (vtFmt vt)) (roundMode vt) (fval (fmtOf (vtFmt vt)) a) (fval (fmtOf (vtFmt vt)) b)
      (fval (fmtOf (vtFmt vt)) c))
  | .vfms o => some (o, fun a b c => fmaR (fmtOf (vtFmt vt)) (roundMode vt) (fval (fmtOf (vtFmt vt)) a) (fval (fmtOf (vtFmt vt)) b)
      (fval (fmtOf (vtFmt vt)) c).neg)
  | .vfmin o => some (o, fun a b _ => floatPick false (fmtOf (vtFmt vt)) a b)
  | .vfmax o => some (o, fun a b _ => floatPick true (fmtOf (vtFmt vt)) a b)
  | .vfsqrt o => some (o, fun a _ _ => fsqrtR (fmtOf (vtFmt vt)) (roundMode vt) (fval (fmtOf (vtFmt vt)) a))
  | .vfabs o => some (o, fun a _ _ =>
      if (fval (fmtOf (vtFmt vt)) a).isNan then ((fmtOf (vtFmt vt)).nan, if (fval (fmtOf (vtFmt vt)) a).isSig then fNV else 0)
      else (a % 2 ^ (fmtWidth (vtFmt vt) - 1), 0))
  | .vfexp o => some (o, fun a _ _ => spExp (vtFmt vt) (vtRm vt) a)
  | .vflog o => some (o, fun a _ _ => spLog (vtFmt vt) (vtRm vt) a)
  | .vfrcp o => some (o, fun a _ _ => spRcp (vtFmt vt) (vtRm vt) a)
  | .vfrsq o => some (o, fun a _ _ => spRsq (vtFmt vt) (vtRm vt) a)
  | .vftanh o => some (o, fun a _ _ => spTanh (vtFmt vt) (vtRm vt) a)
  | _ => none

/-- The integer compares of major 0x26 (R145). -/
def integerCompare : Instr → Option (OpV4 × (Nat → Nat → Nat → Prop))
  | .vcmpEq o => some (o, fun _ a b => a = b)
  | .vcmpNe o => some (o, fun _ a b => a ≠ b)
  | .vcmpLt o => some (o, fun w a b => signedElem w a < signedElem w b)
  | .vcmpGe o => some (o, fun w a b => signedElem w b ≤ signedElem w a)
  | .vcmpLtu o => some (o, fun _ a b => a < b)
  | .vcmpGeu o => some (o, fun _ a b => b ≤ a)
  | _ => none
/-- The floating compares of major 0x26: the result where an operand is NaN, where none is, and whether every NaN raises NV
(R145). -/
def floatCompare : Instr → Option (OpV4 × Bool × (FV → FV → Bool) × Bool)
  | .vfcmpEq o => some (o, false, feq, false)
  | .vfcmpNe o => some (o, true, fun a b => !feq a b, false)
  | .vfcmpLt o => some (o, false, flt, true)
  | .vfcmpGe o => some (o, false, fun a b => !flt a b, true)
  | .vfcmpUn o => some (o, true, fun _ _ => false, false)
  | .vfcmpOrd o => some (o, false, fun _ _ => true, false)
  | _ => none
/-- A mask register written over n positions: the bits above are clear, and m0 discards the write (R48). -/
def MaskResult (s t : State) (d n : Nat) (p : Nat → Prop) : Prop :=
  if d = 0 then t.core.f.m = s.core.f.m
  else ∀ k, k < 512 → ((t.mreg d).getLsbD k = true ↔ k < n ∧ p k)

/-- The mask forms of major 0x27 (R146). -/
def maskLogic : Instr → Option (OpA2 × (Bool → Bool → Bool))
  | .mand o => some (o, fun a b => a && b)
  | .mor o => some (o, fun a b => a || b)
  | .mxor o => some (o, fun a b => a != b)
  | .mandn o => some (o, fun a b => a && !b)
  | _ => none

/-- What a form leaves unchanged that returns a value to gd, or holds commit, without a queue entry of its own (R133): all but gd,
the slot's address and loops, the queue position, the flits that the unit leaves off assembling (R203) and the retire trace. -/
structure ReturnFrame (e : Engine) (i : Instr) (d : Nat) (s t : State) : Prop where
  outside : t = s.setCore t.core
  core : t.core = { s.core with s0 := t.core.s0, s1 := t.core.s1, st := (s.beginVec e i).core.st, qpos := (s.core.qpos + 1) % 65536,
                                trace := t.core.trace, traceptr := t.core.traceptr }
  other : t.core.slot (!s.hi) = s.core.slot (!s.hi)
  slot : t.slot = { s.slot with g := t.slot.g, pc := t.slot.pc, loops := t.slot.loops, since := none, behind := none, popAt := none }
  regs : ∀ n, n ≠ d → t.slot.getG n = s.slot.getG n
  trace : e = .vec ∨ (t.core.trace = s.core.trace ∧ t.core.traceptr = s.core.traceptr)
  bytes : SameBytes s t

/-- The active positions below n, ascending. -/
def activeBelow (s : State) (msk : BitVec 3) (n : Nat) : List Nat := (List.range n).filter (fun e => (s.mreg msk.toNat).getLsbD e)

/-- The moves of major 0x29: what is written to element e of vD, if anything (R148, R149). -/
def movedElem (s : State) (n : Nat) : Instr → Option (OpV4 × (Nat → Option Nat))
  | .vcomp o => some (o, fun e => ((activeBelow s o.msk n)[e]?).map (elem (s.vreg o.a.toNat) (vtSew s.slot.vtype)))
  | .vexpd o => some (o, fun e =>
      if (s.mreg o.msk.toNat).getLsbD e then some (elem (s.vreg o.a.toNat) (vtSew s.slot.vtype) (activeBelow s o.msk e).length) else none)
  | .vslup o => some (o, fun e =>
      if (s.mreg o.msk.toNat).getLsbD e ∧ (s.g o.b).toNat ≤ e then some (elem (s.vreg o.a.toNat) (vtSew s.slot.vtype) (e - (s.g o.b).toNat))
      else none)
  | .vsldn o => some (o, fun e =>
      if (s.mreg o.msk.toNat).getLsbD e then
        some (if e + (s.g o.b).toNat < n then elem (s.vreg o.a.toNat) (vtSew s.slot.vtype) (e + (s.g o.b).toNat) else 0) else none)
  | .vshuf o => some (o, fun e =>
      if (s.mreg o.msk.toNat).getLsbD e then
        some (if (if o.x then (s.g o.b).toNat else elem (s.vreg o.b.toNat) (vtSew s.slot.vtype) e) < n then
          elem (s.vreg o.a.toNat) (vtSew s.slot.vtype) (if o.x then (s.g o.b).toNat else elem (s.vreg o.b.toNat) (vtSew s.slot.vtype) e)
          else 0) else none)
  | .vmerge o => some (o, fun e =>
      some (if (s.mreg o.msk.toNat).getLsbD e then
          (if o.x then (s.g o.b).toNat % 2 ^ vtSew s.slot.vtype else elem (s.vreg o.b.toNat) (vtSew s.slot.vtype) e)
        else elem (s.vreg o.a.toNat) (vtSew s.slot.vtype) e))
  | _ => none
/-- The active elements of vA below n, in ascending order of position, behind the start operand under .S (R151). -/
def summands (s : State) (o : OpV4) (n : Nat) : List Nat :=
  (if o.opx.getLsbD 1 then [elem (s.vreg o.c.toNat) (vtSew s.slot.vtype) 0] else []) ++
    (activeBelow s o.msk n).map (elem (s.vreg o.a.toNat) (vtSew s.slot.vtype))
/-- Element 0 of vD takes a value, where there is a position at all; every other element is as before (R131, R151). -/
def OnlyElementZero (s t : State) (d w n x : Nat) : Prop :=
  ∀ e, e < vlmax w → elem (t.vreg d) w e = if e = 0 ∧ n ≠ 0 then x % 2 ^ w else elem (s.vreg d) w e
/-- The running sum of VSCAN and VSEGSUM: modulo 2^SEW, or one rounding under .F (R42, R153). -/
def scanSum (vt : Word) (o : OpV4) (a b : Nat) : Nat × Nat :=
  if o.b.getLsbD 0 then faddR (fmtOf (vtFmt vt)) (roundMode vt) (fval (fmtOf (vtFmt vt)) a) (fval (fmtOf (vtFmt vt)) b)
  else ((a + b) % 2 ^ vtSew vt, 0)
/-- The sum of a list, left to right; 0 for an empty one. -/
def leftSum (add : Nat → Nat → Nat) : List Nat → Nat
  | [] => 0
  | x :: r => r.foldl add x
/-- The positions at which a segment begins (R153). -/
def segmentHeads (s : State) (c : BitVec 6) (n : Nat) : List Nat := (List.range n).filter (fun e => (s.mreg (c.toNat % 8)).getLsbD e)
/-- The active elements of segment k. -/
def segmentOf (s : State) (o : OpV4) (n k : Nat) : List Nat :=
  ((activeBelow s o.msk n).filter (fun e =>
    decide ((segmentHeads s o.c n)[k]?.getD n ≤ e) && decide (e < (segmentHeads s o.c n)[k + 1]?.getD n))).map
    (elem (s.vreg o.a.toNat) (vtSew s.slot.vtype))
/-- A head of a run of equal keys: the first active position, or one whose key differs from the one before it (R155). -/
def runHead (s : State) (o : OpV4) (e : Nat) : Bool :=
  match (activeBelow s o.msk e).getLast? with
  | none => true
  | some p => elem (s.vreg o.a.toNat) (vtSew s.slot.vtype) p != elem (s.vreg o.a.toNat) (vtSew s.slot.vtype) e
/-- The heads of runs below n (R155). -/
def runHeadsBelow (s : State) (o : OpV4) (n : Nat) : List Nat := (activeBelow s o.msk n).filter (runHead s o)

/-- R139: the integer lanes, with the scalar and cross-lane forms of operands A and B (R134), and the write rule R49. -/
def IntegerLanes : Prop :=
  ∀ s i o f n, s.Quiet → integerLane i = some (o, f) → LenIs s o.len n →
    Runs i s (fun t => EngineFrame .vec i [o.d.toNat] [] [] [] [] o.len s t ∧ Advanced s t ∧ t.slot.status = s.slot.status ∧
      LaneResult s t o.d.toNat (vtSew s.slot.vtype) (lengthOf s o.len n) o.msk (fun e =>
        f (vtSew s.slot.vtype) (laneA s o (vtSew s.slot.vtype) (lengthOf s o.len n) e)
          (laneB s o (vtSew s.slot.vtype) (lengthOf s o.len n) e)))

/-- R138: VIDX writes a ramp. -/
def RampOfIndices : Prop :=
  ∀ s (o : OpI8) n, s.Quiet → LenIs s o.len n →
    Runs (.vidx o) s (fun t => EngineFrame .vec (.vidx o) [o.d.toNat] [] [] [] [] o.len s t ∧ Advanced s t ∧
      t.slot.status = s.slot.status ∧
      LaneResult s t o.d.toNat (vtSew s.slot.vtype) (lengthOf s o.len n) o.msk (fun e =>
        encoded (vtSew s.slot.vtype) (o.start.toInt + e * o.step.toInt)))

/-- R132, R140 to R142: the floating lanes under a format of 0x0 to 0x3; another format traps at commit. -/
def FloatLanes : Prop :=
  ∀ s i o f n, s.Quiet → floatLane s.slot.vtype i = some (o, f) → LenIs s o.len n →
    (vtFmt s.slot.vtype ≤ 3 →
      Runs i s (fun t => EngineFrame .vec i [o.d.toNat] [] [] [] [] o.len s t ∧ Advanced s t ∧
        FlagResult s t (lengthOf s o.len n) o.msk (fun e =>
          (f (laneA s o (vtSew s.slot.vtype) (lengthOf s o.len n) e) (laneB s o (vtSew s.slot.vtype) (lengthOf s o.len n) e)
            (elem (s.vreg o.c.toNat) (vtSew s.slot.vtype) e)).2) ∧
        LaneResult s t o.d.toNat (vtSew s.slot.vtype) (lengthOf s o.len n) o.msk (fun e =>
          (f (laneA s o (vtSew s.slot.vtype) (lengthOf s o.len n) e) (laneB s o (vtSew s.slot.vtype) (lengthOf s o.len n) e)
            (elem (s.vreg o.c.toNat) (vtSew s.slot.vtype) e)).1))) ∧
    (3 < vtFmt s.slot.vtype → Traps i true 0x01 0x08 s.slot.pc s)

/-- R48, R145: the compares write a mask, clear at inactive positions and above the length. -/
def ComparesWriteMasks : Prop :=
  (∀ s i o p n, s.Quiet → integerCompare i = some (o, p) → i.WellFormed → LenIs s o.len n →
    Runs i s (fun t => EngineFrame .vec i [] [o.d.toNat] [] [] [] o.len s t ∧ Advanced s t ∧ t.slot.status = s.slot.status ∧
      MaskResult s t o.d.toNat (lengthOf s o.len n) (fun e => (s.mreg o.msk.toNat).getLsbD e = true ∧
        p (vtSew s.slot.vtype) (laneA s o (vtSew s.slot.vtype) (lengthOf s o.len n) e)
          (laneB s o (vtSew s.slot.vtype) (lengthOf s o.len n) e)))) ∧
  (∀ s i o un (p : FV → FV → Bool) strict n x y, s.Quiet → floatCompare i = some (o, un, p, strict) → i.WellFormed →
    LenIs s o.len n → vtFmt s.slot.vtype ≤ 3 →
    x = (fun e => fval (fmtOf (vtFmt s.slot.vtype)) (laneA s o (vtSew s.slot.vtype) (lengthOf s o.len n) e)) →
    y = (fun e => fval (fmtOf (vtFmt s.slot.vtype)) (laneB s o (vtSew s.slot.vtype) (lengthOf s o.len n) e)) →
    Runs i s (fun t => EngineFrame .vec i [] [o.d.toNat] [] [] [] o.len s t ∧ Advanced s t ∧
      FlagResult s t (lengthOf s o.len n) o.msk (fun e =>
        if (x e).isSig ∨ (y e).isSig ∨ (strict = true ∧ ((x e).isNan ∨ (y e).isNan)) then fNV else 0) ∧
      MaskResult s t o.d.toNat (lengthOf s o.len n) (fun e => (s.mreg o.msk.toNat).getLsbD e = true ∧
        (if (x e).isNan ∨ (y e).isNan then un = true else p (x e) (y e) = true))))

/-- R133, R146, R147, R150: mask logic; the count of a mask to a length queue or to a g register; one element to a g register. -/
def MasksCountsAndElements : Prop :=
  (∀ s i o f, s.Quiet → maskLogic i = some (o, f) → i.WellFormed →
    Runs i s (fun t => EngineFrame .vec i [] [o.d.toNat] [] [] [] 0 s t ∧ Advanced s t ∧ t.slot.status = s.slot.status ∧
      MaskResult s t o.d.toNat s.slot.vl (fun e => f ((s.mreg o.a.toNat).getLsbD e) ((s.mreg o.b.toNat).getLsbD e) = true))) ∧
  (∀ s o, s.Quiet → Instr.WellFormed (.mpopcLq o) → s.core.f.occ[o.d.toNat]?.getD 0 < 16 →
    Runs (.mpopcLq o) s (fun t =>
      t.core.f.lq[o.d.toNat]? = some ((s.core.f.lq[o.d.toNat]?.getD []) ++
        [((List.range s.slot.vl).filter (fun e => (s.mreg o.a.toNat).getLsbD e)).length]) ∧
      t.core.f.occ[o.d.toNat]? = some (s.core.f.occ[o.d.toNat]?.getD 0 + 1) ∧ t.core.f.v = s.core.f.v ∧ t.core.f.m = s.core.f.m ∧
      t.core.queue = [] ∧ t.slot.status = s.slot.status ∧ Advanced s t ∧ SameBytes s t ∧ ∀ k, t.slot.getG k = s.slot.getG k)) ∧
  (∀ s o, s.Free → s.core.queue = [] → Instr.WellFormed (.mpopcG o) →
    Runs (.mpopcG o) s (fun t => ReturnFrame .vec (.mpopcG o) o.d.toNat s t ∧ Advanced s t ∧
      WroteG o.d.toNat (word ((List.range s.slot.vl).filter (fun e => (s.mreg o.a.toNat).getLsbD e)).length) t)) ∧
  (∀ s o uns i, s.Free → s.core.queue = [] → (i = .vmvx o ∧ uns = false ∨ i = .vmvxU o ∧ uns = true) → i.WellFormed →
    ((s.g o.b).toNat < vlmax (vtSew s.slot.vtype) →
      Runs i s (fun t => ReturnFrame .vec i o.d.toNat s t ∧ Advanced s t ∧
        WroteG o.d.toNat (if uns then word (elem (s.vreg o.a.toNat) (vtSew s.slot.vtype) (s.g o.b).toNat)
          else int64 (signedElem (vtSew s.slot.vtype) (elem (s.vreg o.a.toNat) (vtSew s.slot.vtype) (s.g o.b).toNat))) t)) ∧
    (vlmax (vtSew s.slot.vtype) ≤ (s.g o.b).toNat → Traps i true 0x03 0x04 s.slot.pc s))

/-- R151: the integer reductions write element 0 alone. -/
def IntegerReductions : Prop :=
  ∀ s i (o : OpV4) n x, s.Quiet → LenIs s o.len n →
    (i = .vredsum o ∧ x = (summands s o (lengthOf s o.len n)).sum ∨
     (i = .vredmax o ∨ i = .vredmin o) ∧ summands s o (lengthOf s o.len n) = [] ∧ x = 0 ∨
     i = .vredmax o ∧ x ∈ summands s o (lengthOf s o.len n) ∧ (∀ y ∈ summands s o (lengthOf s o.len n),
       if o.opx.getLsbD 0 then y ≤ x else signedElem (vtSew s.slot.vtype) y ≤ signedElem (vtSew s.slot.vtype) x) ∨
     i = .vredmin o ∧ x ∈ summands s o (lengthOf s o.len n) ∧ (∀ y ∈ summands s o (lengthOf s o.len n),
       if o.opx.getLsbD 0 then x ≤ y else signedElem (vtSew s.slot.vtype) x ≤ signedElem (vtSew s.slot.vtype) y)) →
    Runs i s (fun t => EngineFrame .vec i [o.d.toNat] [] [] [] [] o.len s t ∧ Advanced s t ∧ t.slot.status = s.slot.status ∧
      OnlyElementZero s t o.d.toNat (vtSew s.slot.vtype) (lengthOf s o.len n) x)

/-- R41, R151, R152: the floating reductions combine the active elements in the fixed pairwise tree, the start operand last; the
index forms keep the value and its position. -/
def FloatReductions : Prop :=
  (∀ s i (o : OpV4) (cb : Nat → Nat → Nat × Nat) n r, s.Quiet → LenIs s o.len n → vtFmt s.slot.vtype ≤ 3 →
    (i = .vfredsum o ∧ cb = (fun a b => faddR (fmtOf (vtFmt s.slot.vtype)) (roundMode s.slot.vtype)
       (fval (fmtOf (vtFmt s.slot.vtype)) a) (fval (fmtOf (vtFmt s.slot.vtype)) b)) ∨
     i = .vfredmax o ∧ cb = floatPick true (fmtOf (vtFmt s.slot.vtype)) ∨
     i = .vfredmin o ∧ cb = floatPick false (fmtOf (vtFmt s.slot.vtype))) →
    r = treeRoot cb (s.mreg o.msk.toNat) (lengthOf s o.len n) (elem (s.vreg o.a.toNat) (vtSew s.slot.vtype)) →
    Runs i s (fun t => EngineFrame .vec i [o.d.toNat] [] [] [] [] o.len s t ∧ Advanced s t ∧
      OnlyElementZero s t o.d.toNat (vtSew s.slot.vtype) (lengthOf s o.len n)
        (if o.opx.getLsbD 1 then
          (match r.1 with
           | some y => (cb (elem (s.vreg o.c.toNat) (vtSew s.slot.vtype) 0) y).1
           | none => elem (s.vreg o.c.toNat) (vtSew s.slot.vtype) 0)
         else r.1.getD 0))) ∧
  (∀ s i (o : OpV4) big n r, s.Quiet → LenIs s o.len n → vtFmt s.slot.vtype ≤ 3 → i.WellFormed → lengthOf s o.len n ≠ 0 →
    (i = .vargmax o ∧ big = true ∨ i = .vargmin o ∧ big = false) →
    r = (treeRoot (argPick big (fmtOf (vtFmt s.slot.vtype))) (s.mreg o.msk.toNat) (lengthOf s o.len n)
      (fun e => (elem (s.vreg o.a.toNat) (vtSew s.slot.vtype) e, e))).1 →
    Runs i s (fun t => EngineFrame .vec i [o.d.toNat, o.b.toNat] [] [] [] [] o.len s t ∧ Advanced s t ∧
      OnlyElementZero s t o.d.toNat (vtSew s.slot.vtype) (lengthOf s o.len n)
        (match r with
         | some p => if (fval (fmtOf (vtFmt s.slot.vtype)) p.1).isNan then (fmtOf (vtFmt s.slot.vtype)).nan else p.1
         | none => 0) ∧
      OnlyElementZero s t o.b.toNat 32 (lengthOf s o.len n) (match r with | some p => p.2 | none => 0xFFFFFFFF)))

/-- R42, R153: VSCAN writes the running sums, and VSEGSUM the sum of each segment. -/
def ScansAndSegments : Prop :=
  (∀ s (o : OpV4) n (p : Nat → Option Nat), s.Quiet → LenIs s o.len n → (o.b.getLsbD 0 = true → vtFmt s.slot.vtype ≤ 3) →
    p 0 = (if o.opx.getLsbD 1 then some (elem (s.vreg o.c.toNat) (vtSew s.slot.vtype) 0) else none) →
    (∀ e, p (e + 1) = if (s.mreg o.msk.toNat).getLsbD e then
      (match p e with
       | none => some (elem (s.vreg o.a.toNat) (vtSew s.slot.vtype) e)
       | some x => some (scanSum s.slot.vtype o x (elem (s.vreg o.a.toNat) (vtSew s.slot.vtype) e)).1) else p e) →
    Runs (.vscan o) s (fun t => EngineFrame .vec (.vscan o) [o.d.toNat] [] [] [] [] o.len s t ∧ Advanced s t ∧
      ∀ e, e < vlmax (vtSew s.slot.vtype) → elem (t.vreg o.d.toNat) (vtSew s.slot.vtype) e =
        (if e < lengthOf s o.len n then (p (e + 1)).getD 0 % 2 ^ vtSew s.slot.vtype
         else elem (s.vreg o.d.toNat) (vtSew s.slot.vtype) e))) ∧
  (∀ s (o : OpV4) n, s.Quiet → Instr.WellFormed (.vsegsum o) → LenIs s o.len n → (o.b.getLsbD 0 = true → vtFmt s.slot.vtype ≤ 3) →
    Runs (.vsegsum o) s (fun t => EngineFrame .vec (.vsegsum o) [o.d.toNat] [] [] [] [] o.len s t ∧ Advanced s t ∧
      ∀ e, e < vlmax (vtSew s.slot.vtype) → elem (t.vreg o.d.toNat) (vtSew s.slot.vtype) e =
        (if e < (segmentHeads s o.c (lengthOf s o.len n)).length then
          leftSum (fun a b => (scanSum s.slot.vtype o a b).1) (segmentOf s o (lengthOf s o.len n) e) % 2 ^ vtSew s.slot.vtype
         else elem (s.vreg o.d.toNat) (vtSew s.slot.vtype) e)))

/-- R154, R155: VSORTK writes the active keys in stable ascending order, with their payloads under .P; VUNIQ marks the heads of
runs and compacts their keys. -/
def SortsAndRuns : Prop :=
  (∀ s i (o : OpV4) n pay, s.Quiet → LenIs s o.len n → (i = .vsortk o ∧ pay = false ∨ i = .vsortkP o ∧ pay = true) → i.WellFormed →
    Runs i s (fun t => EngineFrame .vec i (if pay then [o.d.toNat, o.c.toNat] else [o.d.toNat]) [] [] [] [] o.len s t ∧
      Advanced s t ∧ t.slot.status = s.slot.status ∧
      ∃ order : List Nat, order.Perm (activeBelow s o.msk (lengthOf s o.len n)) ∧
        order.Pairwise (fun x y =>
          elem (s.vreg o.a.toNat) (vtSew s.slot.vtype) x < elem (s.vreg o.a.toNat) (vtSew s.slot.vtype) y ∨
          elem (s.vreg o.a.toNat) (vtSew s.slot.vtype) x = elem (s.vreg o.a.toNat) (vtSew s.slot.vtype) y ∧ x < y) ∧
        ∀ e, e < vlmax (vtSew s.slot.vtype) →
          elem (t.vreg o.d.toNat) (vtSew s.slot.vtype) e =
            (match order[e]? with
             | some p => elem (s.vreg o.a.toNat) (vtSew s.slot.vtype) p
             | none => elem (s.vreg o.d.toNat) (vtSew s.slot.vtype) e) ∧
          (pay = true → elem (t.vreg o.c.toNat) (vtSew s.slot.vtype) e =
            (match order[e]? with
             | some p => elem (s.vreg o.b.toNat) (vtSew s.slot.vtype) p
             | none => elem (s.vreg o.c.toNat) (vtSew s.slot.vtype) e)))) ∧
  (∀ s (o : OpV4) n, s.Quiet → Instr.WellFormed (.vuniq o) → LenIs s o.len n →
    Runs (.vuniq o) s (fun t => EngineFrame .vec (.vuniq o) [o.d.toNat] [o.c.toNat] [] [] [] o.len s t ∧ Advanced s t ∧
      t.slot.status = s.slot.status ∧
      MaskResult s t o.c.toNat (lengthOf s o.len n) (fun e => e ∈ runHeadsBelow s o (lengthOf s o.len n)) ∧
      ∀ e, e < vlmax (vtSew s.slot.vtype) → elem (t.vreg o.d.toNat) (vtSew s.slot.vtype) e =
        (match (runHeadsBelow s o (lengthOf s o.len n))[e]? with
         | some p => elem (s.vreg o.a.toNat) (vtSew s.slot.vtype) p
         | none => elem (s.vreg o.d.toNat) (vtSew s.slot.vtype) e)))

end Sys2Proof.Machine

section
open Sys2Proof.Machine

/-- Integer and floating lanes of the vector unit: active elements below the length, all else as before (R139; R138; R132, R140
to R142). -/
def Obligations.VectorLanes : Prop :=
  Sys2Proof.Machine.IntegerLanes ∧ Sys2Proof.Machine.RampOfIndices ∧ Sys2Proof.Machine.FloatLanes

/-- Compares write masks; mask logic, counts and single elements (R48, R145; R133, R146, R147, R150). -/
def Obligations.ComparesAndMasks : Prop :=
  Sys2Proof.Machine.ComparesWriteMasks ∧ Sys2Proof.Machine.MasksCountsAndElements

/-- R148, R149: the moves of elements. -/
def Obligations.ElementMoves : Prop :=
  (∀ s i o f n, s.Quiet → i.WellFormed → LenIs s o.len n → movedElem s (lengthOf s o.len n) i = some (o, f) →
    Runs i s (fun t => EngineFrame .vec i [o.d.toNat] [] [] [] [] o.len s t ∧ Advanced s t ∧ t.slot.status = s.slot.status ∧
      ∀ e, e < vlmax (vtSew s.slot.vtype) → elem (t.vreg o.d.toNat) (vtSew s.slot.vtype) e =
        (if e < lengthOf s o.len n then (f e).getD (elem (s.vreg o.d.toNat) (vtSew s.slot.vtype) e)
         else elem (s.vreg o.d.toNat) (vtSew s.slot.vtype) e))) ∧
  (∀ s (o : OpV4) n b, s.Quiet → Instr.WellFormed (.vsperm o) → LenIs s o.len n → lengthOf s o.len n = 2 ^ b → b ≤ 9 →
    Runs (.vsperm o) s (fun t => EngineFrame .vec (.vsperm o) [o.d.toNat] [] [] [] [] o.len s t ∧ Advanced s t ∧
      t.slot.status = s.slot.status ∧
      LaneResult s t o.d.toNat (vtSew s.slot.vtype) (2 ^ b) o.msk (fun e =>
        elem (s.vreg o.a.toNat) (vtSew s.slot.vtype)
          (if b = 0 then e else e * 2 ^ ((s.g o.b).toNat % b) % 2 ^ b + e / 2 ^ (b - (s.g o.b).toNat % b)))))

/-- Reductions write element 0 alone in the fixed order; scans, segment sums, stable sorts, runs of keys (R151; R41, R151, R152;
R42, R153; R154, R155). -/
def Obligations.ReductionsScansAndSorts : Prop :=
  Sys2Proof.Machine.IntegerReductions ∧ Sys2Proof.Machine.FloatReductions ∧ Sys2Proof.Machine.ScansAndSegments ∧ Sys2Proof.Machine.SortsAndRuns

end

namespace Sys2Proof.Machine

/-! ### Conversions and vector memory (R143, R144, R156 to R162) -/

/-- The block length of the scales that a conversion writes: 32 to BFP16, 2^blkA to an MX kind with block scales, else 0 (R144). -/
def blockOf (m : CvtMode) (vt : Word) : Nat :=
  if m.tInt = false ∧ m.tgt = 0xB then 32
  else if m.tInt = false ∧ isMx m.tgt = true ∧ vtBlkA vt ≠ 0 then 2 ^ vtBlkA vt else 0
/-- The values of the active positions below n of block j of a conversion. -/
def blockValues (s : State) (o : OpG8) (m : CvtMode) (n blk j : Nat) : List FV :=
  ((List.range blk).map (· + j * blk)).filterMap (fun i =>
    if i < n ∧ (s.mreg o.msk.toNat).getLsbD i = true then
      some (cvtRead m s.slot.vtype (s.vreg o.a.toNat) (s.kreg o.b.toNat) i).1 else none)
/-- The scale of block j (R23, R144). -/
def blockScale (s : State) (o : OpG8) (m : CvtMode) (n blk j : Nat) : Nat :=
  if m.tgt = 0xB then (bfpExp (blockValues s o m n blk j)).getD 255
  else mxScale m.tgt (vtSfmt s.slot.vtype) (blockValues s o m n blk j)
/-- The draw of element i, 0 but under stochastic rounding (R34). -/
def drawOf (s : State) (m : CvtMode) (i : Nat) : Nat := if m.rm = 4 then (srDraw (elem s.slot.gens 32 i)).1 else 0
/-- The generator of an active element after its draw (R34). -/
def nextDraw (s : State) (o : OpG8) (i : Nat) : Option Nat :=
  if (s.mreg o.msk.toNat).getLsbD i then some (srDraw (elem s.slot.gens 32 i)).2 else none
/-- Element i and its flags of a conversion into scaled blocks: +0 at an inactive position and in a block that holds a NaN or an
infinity (R23, R144). -/
def blockElement (s : State) (o : OpG8) (m : CvtMode) (n blk i : Nat) : Nat × Nat :=
  if (s.mreg o.msk.toNat).getLsbD i = false then (0, 0)
  else
    let x := cvtRead m s.slot.vtype (s.vreg o.a.toNat) (s.kreg o.b.toNat) i
    if (survey (blockValues s o m n blk (i / blk))).1 then (0, fNV ||| x.2)
    else
      let y := if m.tgt = 0xB then bfpMant (blockScale s o m n blk (i / blk)) m.rm (drawOf s m i) x.1
        else mxConv m.tgt (vtSfmt s.slot.vtype) (blockScale s o m n blk (i / blk)) m.rm (drawOf s m i) x.1
      (y.1, x.2 ||| y.2)

/-- A byte of a space: device memory as the thread sees it, or a buffer. -/
def byteOf (s : State) (spc : BitVec 3) (a : Nat) : Byte := if spc = 0 then s.seen a else s.held spc.toNat a
/-- An access to n bytes that the checks of R106 admit, and where its bytes lie: in a buffer at the address itself, in device
memory at the location to which a translation held leads (R388). -/
def Reaches (s : State) (spc : BitVec 3) (ea n : Nat) (acc : Acc) (loc : Nat) : Prop :=
  ea % n = 0 ∧
    (if spc = 0 then ea < 2 ^ 54 ∧ s.xlate ea acc .other = .ok (.mem loc, s)
     else spc.toNat ≤ 3 ∧ ea + n ≤ bufSize spc.toNat ∧ s.core.notHolder spc.toNat ea n = false ∧ loc = ea)
/-- A read there is admitted: the location is local, or its peer has a window that permits it (R406). -/
def Readable (s : State) (spc : BitVec 3) (n loc : Nat) : Prop := spc = 0 → loc < peerBase ∨ s.peerAdmits loc n 0 = true

/-- The address of element i at a signed stride, modulo 2^64 (R156). -/
def placed (base : Word) (i : Nat) (stride : Int) : Nat := (int64 (base.toInt + i * stride)).toNat
/-- Bits of an element under packing, none for whole elements: 4 to a byte of MXFP4, 6 of the 6-bit kinds (R14, R157). -/
def packing (vt : Word) : Option Nat :=
  if fld vt 0 2 = 0 then (if fld vt 6 4 = 6 ∨ fld vt 6 4 = 7 then some 6 else if fld vt 6 4 = 8 then some 4 else none) else none

/-- How the elements of a vector memory form lie in memory: the accesses of element e as addresses and sizes, and for each of its
bits the address of the access, the byte in it, the bit of that byte and the bit of the element. -/
structure Layout where
  accesses : Nat → List (Nat × Nat)
  bits : Nat → List (Nat × Nat × Nat × Nat)
/-- Whole elements of w bits. -/
def wholeLayout (w : Nat) (ad : Nat → Nat) : Layout :=
  ⟨fun e => [(ad e, w / 8)], fun e => (List.range w).map (fun j => (ad e, j / 8, j % 8, j))⟩
/-- A packed run of k-bit elements: element e begins at bit k × e (R157). -/
def packedLayout (k : Nat) (base : Word) : Layout :=
  ⟨fun e => (List.range ((k * e + k - 1) / 8 - k * e / 8 + 1)).map (fun j => (placed base (k * e / 8 + j) 1, 1)),
   fun e => (List.range k).map (fun j => (placed base ((k * e + j) / 8) 1, 0, (k * e + j) % 8, j))⟩
/-- Bit planes: bit e % 8 of byte e / 8 of plane p is bit 7 − p of element e (R24, R157). -/
def planeLayout (planes : Nat) (base stride : Word) : Layout :=
  ⟨fun e => (List.range planes).map (fun p => ((base + word p * stride + word (e / 8)).toNat, 1)),
   fun e => (List.range planes).map (fun p => ((base + word p * stride + word (e / 8)).toNat, 0, e % 8, 7 - p))⟩

/-- Where the elements of a load or store of major 0x2D or 0x2E lie (R156, R157), and the width of a register element. -/
def layoutOf (s : State) : Instr → Option (OpM4 × Nat × Layout)
  | .vld o | .vst o => some (match packing s.slot.vtype with
      | some k => (o, 8, packedLayout k (s.g o.base))
      | none => (o, vtSew s.slot.vtype, wholeLayout (vtSew s.slot.vtype) (fun e => placed (s.g o.base) e (vtSew s.slot.vtype / 8 : Nat))))
  | .vlds o | .vsts o =>
    some (o, vtSew s.slot.vtype, wholeLayout (vtSew s.slot.vtype) (fun e => placed (s.g o.base) e (s.g o.ix).toInt))
  | .vldx o | .vstx o =>
    some (o, vtSew s.slot.vtype, wholeLayout (vtSew s.slot.vtype) (fun e =>
      placed (s.g o.base) (elem (s.vreg o.ix.toNat) (vtSew s.slot.vtype) e) (vtSew s.slot.vtype / 8 : Nat)))
  | .vldbp o | .vstbp o => some (o, 8, planeLayout (vtPln s.slot.vtype) (s.g o.base) (s.g o.ix))
  | .vldk o => some (o, 8, wholeLayout 8 (fun e => placed (s.g o.base) e (s.g o.ix).toInt))
  | .vldw o => some (o, 64, wholeLayout 64 (fun e => placed (s.g o.base) e 8))
  | _ => none
/-- The lengths and formats that a form admits: a packed length fills whole bytes, bit planes hold BPI and a multiple of 8, and
a scale or twiddle register holds 256 or 128 entries (R132, R156, R157). -/
def lengthFits (s : State) (n : Nat) : Instr → Prop
  | .vld _ | .vst _ => match packing s.slot.vtype with
      | some k => n % (if k = 6 then 4 else 2) = 0
      | none => True
  | .vldbp _ | .vstbp _ => vtFmt s.slot.vtype = 0xA ∧ n % 8 = 0
  | .vldk _ => n ≤ 256
  | .vldw _ => n ≤ 128
  | _ => True
/-- A store that writes parts of bytes reads them first. -/
def rereads (s : State) : Instr → Prop
  | .vst _ => packing s.slot.vtype ≠ none
  | .vstbp _ => True
  | _ => False
/-- The number that the bits of element e make up. -/
def gathered (s : State) (spc : BitVec 3) (l : Layout) (loc : Nat → Nat) (e : Nat) : Nat :=
  ((l.bits e).map (fun b => if (byteOf s spc (loc b.1 + b.2.1)).getLsbD b.2.2.1 then 2 ^ b.2.2.2 else 0)).sum
/-- The element of the register that a load writes: v, k under VLDK, w under VLDW. -/
def loadedInto (t : State) (d w e : Nat) : Instr → Nat
  | .vldk _ => elem (t.kreg d) w e
  | .vldw _ => elem (t.wreg d) w e
  | _ => elem (t.vreg d) w e
/-- How many elements the register holds that a load writes. -/
def entriesOf (w : Nat) : Instr → Nat
  | .vldk _ => 256
  | .vldw _ => 128
  | _ => vlmax w

/-- What a command that moves bytes of memory leaves unchanged: everything outside the core, and of the core everything but the
listed registers, the bytes of memory (said apart) and what EngineFrame excepts. -/
structure MemFrame (g : Engine) (i : Instr) (wv wa wk ww : List Nat) (len : BitVec 3) (s t : State) : Prop where
  core : t.core = { s.core with s0 := t.core.s0, s1 := t.core.s1, f := t.core.f, w := t.core.w, a := t.core.a, c := t.core.c,
                                own := t.core.own, ownAge := t.core.ownAge, st := (s.beginVec g i).core.st, queue := [],
                                qpos := (s.core.qpos + 1) % 65536, trace := t.core.trace, traceptr := t.core.traceptr }
  other : t.core.slot (!s.hi) = { s.core.slot (!s.hi) with view := (t.core.slot (!s.hi)).view, past := (t.core.slot (!s.hi)).past }
  slot : t.slot = { s.slot with pc := t.slot.pc, loops := t.slot.loops, since := none, behind := none, popAt := none, view := t.slot.view,
                                past := t.slot.past, status := t.slot.status, rfout := t.slot.rfout }
  status : fld t.slot.status 0 41 = fld s.slot.status 0 41
  trace : g = .vec ∨ (t.core.trace = s.core.trace ∧ t.core.traceptr = s.core.traceptr)
  v : ∀ n, n ∉ wv → t.vreg n = s.vreg n
  k : ∀ n, n ∉ wk → t.kreg n = s.kreg n
  w : ∀ n, n ∉ ww → t.wreg n = s.wreg n
  m : ∀ n, t.mreg n = s.mreg n
  a : ∀ n, n ∉ wa → t.areg n = s.areg n
  lq : ∀ n, n + 4 ≠ len.toNat → t.core.f.lq[n]? = s.core.f.lq[n]? ∧ t.core.f.occ[n]? = s.core.f.occ[n]?
  modq : t.core.f.modq = s.core.f.modq
  cores : ∀ k, k ≠ 8 * s.cl + s.co → look k t.cores = look k s.cores
  clusters : ∀ k, t.clusAt k = s.clusAt k
  points : t.die0 = s.die0 ∧ t.die1 = s.die1 ∧ t.peer = s.peer
  hub : t.hub = s.hub ∧ t.xl = s.xl ∧ t.er = s.er ∧ t.bt = s.bt ∧ t.ex = s.ex ∧ t.time = s.time ∧ t.agenda = s.agenda ∧
    t.out = s.out ∧ t.free = s.free ∧ t.bd = { s.bd with ops := t.bd.ops, held := t.bd.held }

/-- The operation, the width in bits, and for each element the address, the operand and the compare value of a vector atomic or
scatter-add; its mask, length, space and the register of the old values (R160 to R162). -/
structure VectorAtomic where
  op : Nat
  w : Nat
  ad : Nat → Nat
  x : Nat → Nat
  cmp : Nat → Nat
  msk : BitVec 3
  len : BitVec 3
  spc : BitVec 3
  ret : Option Nat

/-- The vector atomics by name (R162), 0 to 11. -/
def vamoForm' : Instr → Option (Nat × OpVA)
  | .vamoAdd o => some (0, o)
  | .vamoAnd o => some (1, o)
  | .vamoOr o => some (2, o)
  | .vamoXor o => some (3, o)
  | .vamoMin o => some (4, o)
  | .vamoMax o => some (5, o)
  | .vamoMinu o => some (6, o)
  | .vamoMaxu o => some (7, o)
  | .vamoFadd o => some (8, o)
  | .vamoBfadd o => some (9, o)
  | .vamoSwap o => some (10, o)
  | .vamoCas o => some (11, o)
  | _ => none
/-- VSCADD adds the binary32 elements of vD, or BF16 elements in a buffer, at vIX-indexed addresses (R160); a VAMO applies vA and
vC at vB-indexed addresses, for elements as wide as SZ says (R161). -/
def vectorAtomic (s : State) : Instr → Option VectorAtomic
  | .vscadd o =>
    if vtFmt s.slot.vtype = 1 ∨ vtFmt s.slot.vtype = 3 ∧ o.spc ≠ 0 then
      some ⟨if vtFmt s.slot.vtype = 1 then 8 else 9, vtSew s.slot.vtype,
        fun e => placed (s.g o.base) (elem (s.vreg o.ix.toNat) (vtSew s.slot.vtype) e) (vtSew s.slot.vtype / 8 : Nat),
        elem (s.vreg o.d.toNat) (vtSew s.slot.vtype), fun _ => 0, o.msk, o.len, o.spc, none⟩
    else none
  | i =>
    match vamoForm' i with
    | some (op, o) =>
      if vtSew s.slot.vtype = 16 * 2 ^ o.sz.toNat then
        some ⟨op, vtSew s.slot.vtype,
          fun e => placed (s.g o.base) (elem (s.vreg o.b.toNat) (vtSew s.slot.vtype) e) (vtSew s.slot.vtype / 8 : Nat),
          elem (s.vreg o.a.toNat) (vtSew s.slot.vtype), elem (s.vreg o.c.toNat) (vtSew s.slot.vtype), o.msk, o.len, o.spc,
          if o.ret then some o.d.toNat else none⟩
      else none
    | none => none
/-- The updates of a list of elements in turn on a memory: the memory after them and the old values. -/
def updates (v : VectorAtomic) (loc : Nat → Nat) : List Nat → Mem → Mem × List Nat
  | [], m => (m, [])
  | e :: r, m =>
    let old := m.read (loc e) (v.w / 8)
    let q := updates v loc r (m.write (loc e) (atomicValue v.op v.w old (v.x e) (v.cmp e)) (v.w / 8))
    (q.1, old :: q.2)
/-- The destination takes the old value at each active position. -/
def OldValues (s t : State) (v : VectorAtomic) (els old : List Nat) : Prop :=
  ∀ d ∈ v.ret, ∀ e, e < vlmax v.w → elem (t.vreg d) v.w e =
    (match els.idxOf? e with | some j => old[j]?.getD 0 | none => elem (s.vreg d) v.w e)

/-- R156, R157: the loads write each active element below the length with the bits that lie at its address. -/
def VectorLoads : Prop :=
  ∀ s i (o : OpM4) w l n (loc : Nat → Nat), s.Quiet → i.WellFormed → layoutOf s i = some (o, w, l) → LenIs s o.len n →
    (∀ o', i ≠ .vst o' ∧ i ≠ .vsts o' ∧ i ≠ .vstx o' ∧ i ≠ .vstbp o') →
    lengthFits s (lengthOf s o.len n) i →
    (∀ e ∈ activeBelow s o.msk (lengthOf s o.len n), ∀ a ∈ l.accesses e,
      Reaches s o.spc a.1 a.2 .rd (loc a.1) ∧ Readable s o.spc a.2 (loc a.1)) →
    Runs i s (fun t => t = s.setCore t.core ∧ SameBytes s t ∧ Advanced s t ∧ t.slot.status = s.slot.status ∧ t.slot.rfout = s.slot.rfout ∧
      MemFrame .vec i (match i with | .vldk _ => [] | .vldw _ => [] | _ => [o.d.toNat]) []
        (match i with | .vldk _ => [o.d.toNat] | _ => []) (match i with | .vldw _ => [o.d.toNat] | _ => []) o.len s t ∧
      ∀ e, e < entriesOf w i → loadedInto t o.d.toNat w e i =
        if e < lengthOf s o.len n ∧ (s.mreg o.msk.toNat).getLsbD e = true then gathered s o.spc l loc e
        else loadedInto s o.d.toNat w e i)

/-- R156 to R158: the stores write the bits of each active element in ascending order of position, so that the highest position
that writes a bit wins, and no other bit of memory. -/
def VectorStores : Prop :=
  ∀ s i (o : OpM4) w l n (loc : Nat → Nat), s.Quiet → i.WellFormed → layoutOf s i = some (o, w, l) → LenIs s o.len n →
    (∃ o', i = .vst o' ∨ i = .vsts o' ∨ i = .vstx o' ∨ i = .vstbp o') →
    lengthFits s (lengthOf s o.len n) i → (∀ spc, (s.core.buf spc).wf = true) →
    (∀ e ∈ activeBelow s o.msk (lengthOf s o.len n), ∀ a ∈ l.accesses e, Reaches s o.spc a.1 a.2 .wr (loc a.1) ∧
      (rereads s i → Readable s o.spc a.2 (loc a.1)) ∧ ∀ b ∈ l.accesses e, loc a.1 = loc b.1 → a.1 = b.1 ∨ ∃ p, i = .vstbp p) →
    Runs i s (fun t => t = s.setCore t.core ∧ Advanced s t ∧ t.slot.status = s.slot.status ∧ t.slot.rfout = s.slot.rfout ∧ MemFrame .vec i [] [] [] [] o.len s t ∧
      (∀ x b, b < 8 → (byteOf t o.spc x).getLsbD b =
        (match ((activeBelow s o.msk (lengthOf s o.len n)).flatMap (fun e =>
            (l.bits e).map (fun z => (loc z.1 + z.2.1, z.2.2.1, (elem (s.vreg o.d.toNat) w e).testBit z.2.2.2)))).reverse.find?
              (fun z => z.1 == x && z.2.1 == b) with
         | some z => z.2.2
         | none => (byteOf s o.spc x).getLsbD b)) ∧
      ∀ spc x, spc ≠ o.spc → byteOf t spc x = byteOf s spc x)

/-- R160 to R162, R337: a scatter-add or vector atomic on a buffer updates its bank in ascending order of position; with RET the
old values stand in vD. -/
def VectorAtomicsOnBuffers : Prop :=
  ∀ s i v n (loc : Nat → Nat), s.Quiet → i.WellFormed → vectorAtomic s i = some v → LenIs s v.len n → v.spc ≠ 0 →
    (s.core.buf v.spc.toNat).wf = true →
    (∀ e ∈ activeBelow s v.msk (lengthOf s v.len n), Reaches s v.spc (v.ad e) (v.w / 8) .atm (loc e)) →
    Runs i s (fun t => t = s.setCore t.core ∧ Advanced s t ∧ t.slot.status = s.slot.status ∧ t.slot.rfout = s.slot.rfout ∧
      MemFrame .vec i v.ret.toList [] [] [] v.len s t ∧
      t.core.buf v.spc.toNat = (updates v loc (activeBelow s v.msk (lengthOf s v.len n)) (s.core.buf v.spc.toNat)).1 ∧
      (∀ b, b ≠ v.spc.toNat → t.core.buf b = s.core.buf b) ∧ (∀ x, t.seen x = s.seen x) ∧
      OldValues s t v (activeBelow s v.msk (lengthOf s v.len n))
        (updates v loc (activeBelow s v.msk (lengthOf s v.len n)) (s.core.buf v.spc.toNat)).2)

/-- The combining stores after one operation for each line of a list, in turn, which find an entry each (R338). -/
def entered (now : Nat) : List Nat → BaseDie → Option BaseDie
  | [], b => some b
  | line :: r, b => (b.entry line true now).bind (entered now r)
/-- R160 to R162, R337, R338, R340: on device memory with nothing in flight to the lines concerned, the forms with RET update the
homes in ascending order, each line taking an entry of its combining store, and return the old values; the others leave as
return-free operations in that order, which RFOUT counts. -/
def VectorAtomicsOnMemory : Prop :=
  ∀ s i v n (loc : Nat → Nat), s.Quiet → i.WellFormed → vectorAtomic s i = some v → LenIs s v.len n → v.spc = 0 → s.mem.wf = true →
    (∀ e ∈ activeBelow s v.msk (lengthOf s v.len n), Reaches s v.spc (v.ad e) (v.w / 8) .atm (loc e) ∧
      loc e % (v.w / 8) = 0 ∧ LineHome s (loc e)) →
    (∀ b, v.ret ≠ none → entered s.time ((activeBelow s v.msk (lengthOf s v.len n)).map (fun e => loc e / 64)) s.bd = some b →
      Runs i s (fun t => Advanced s t ∧ t.slot.status = s.slot.status ∧ t.slot.rfout = s.slot.rfout ∧ MemFrame .vec i v.ret.toList [] [] [] v.len s t ∧ t.bd = b ∧
        t.mem = (updates v loc (activeBelow s v.msk (lengthOf s v.len n)) s.mem).1 ∧
        (∀ b, t.core.buf b = s.core.buf b) ∧
        (∀ x, t.seen x = if ∃ e ∈ activeBelow s v.msk (lengthOf s v.len n), loc e ≤ x ∧ x < loc e + v.w / 8 then t.mem.get x
          else s.seen x) ∧
        OldValues s t v (activeBelow s v.msk (lengthOf s v.len n))
          (updates v loc (activeBelow s v.msk (lengthOf s v.len n)) s.mem).2)) ∧
    (v.ret = none → s.slot.rfout + (activeBelow s v.msk (lengthOf s v.len n)).length ≤ 65535 →
      Runs i s (fun t => Advanced s t ∧ SameBytes s t ∧ t.mem = s.mem ∧ MemFrame .vec i [] [] [] [] v.len s t ∧
        t.slot.status = s.slot.status ∧ t.slot.rfout = s.slot.rfout + (activeBelow s v.msk (lengthOf s v.len n)).length ∧
        t.bd.held = s.bd.held ∧ t.bd.ops = s.bd.ops ++ (activeBelow s v.msk (lengthOf s v.len n)).map (fun e =>
          ⟨s.cl, s.co, s.hi, loc e, v.op, v.w, v.x e, v.cmp e, s.slot.th.tid, s.slot.th.seq, s.xl.age, false, false⟩)))

end Sys2Proof.Machine

section
open Sys2Proof.Machine

/-- R143, R144, R23: VCVT converts the active elements, each rounded once; into scaled blocks it writes the scales too. Under
stochastic rounding each active element takes a draw of its generator. -/
def Obligations.ConversionsReadAndWrite : Prop :=
  ∀ s (o : OpG8) n k m (u : State), s.Quiet → Instr.WellFormed (.vcvt o) → LenIs s o.len n → m = cvtMode o s.slot.vtype →
    k = boundLen (max m.sw m.tw) o.len n → k ≤ vlmax (max m.sw m.tw) →
    ((m.sInt = false ∧ m.src = 0xB ∨ m.tInt = false ∧ m.tgt = 0xB) → k % 32 = 0) →
    u = (if m.rm = 4 then s.modSlot (fun x => { x with gens := mapElems x.gens 32 (nextDraw s o) k }) else s) →
    Runs (.vcvt o) s (fun t =>
      EngineFrame .vec (.vcvt o) [o.d.toNat] [] [] (if blockOf m s.slot.vtype = 0 then [] else [o.b.toNat]) [] o.len u t ∧
      Advanced s t ∧
      (blockOf m s.slot.vtype = 0 →
        FlagResult s t k o.msk (fun e =>
          (cvtRead m s.slot.vtype (s.vreg o.a.toNat) (s.kreg o.b.toNat) e).2 |||
            (cvtWrite m (s.vreg o.a.toNat) (drawOf s m e) e (cvtRead m s.slot.vtype (s.vreg o.a.toNat) (s.kreg o.b.toNat) e).1).2) ∧
        LaneResult s t o.d.toNat m.tw k o.msk (fun e =>
          (cvtWrite m (s.vreg o.a.toNat) (drawOf s m e) e (cvtRead m s.slot.vtype (s.vreg o.a.toNat) (s.kreg o.b.toNat) e).1).1)) ∧
      (blockOf m s.slot.vtype ≠ 0 →
        FlagResult s t k o.msk (fun e => (blockElement s o m k (blockOf m s.slot.vtype) e).2) ∧
        (∀ e, e < vlmax m.tw → elem (t.vreg o.d.toNat) m.tw e =
          if e < k then (blockElement s o m k (blockOf m s.slot.vtype) e).1 % 2 ^ m.tw else elem (s.vreg o.d.toNat) m.tw e) ∧
        (∀ j, j < 256 → elem (t.kreg o.b.toNat) 8 j =
          if j * blockOf m s.slot.vtype < k then blockScale s o m k (blockOf m s.slot.vtype) j % 256 else elem (s.kreg o.b.toNat) 8 j)))

/-- Vector loads and stores in every layout: whole, strided, indexed, packed, bit planes, scales, twiddles (R156, R157; R156 to
R158). -/
def Obligations.VectorLoadsAndStores : Prop :=
  Sys2Proof.Machine.VectorLoads ∧ Sys2Proof.Machine.VectorStores

/-- Scatter-add and vector atomics update their homes in element order; without RET they leave as return-free operations (R160 to
R162, R337; R160 to R162, R337, R340). -/
def Obligations.VectorAtomics : Prop :=
  Sys2Proof.Machine.VectorAtomicsOnBuffers ∧ Sys2Proof.Machine.VectorAtomicsOnMemory

end

namespace Sys2Proof.Machine

/-! ### The matrix array (R163 to R180) -/

/-- The counts of an outer product's two length operands: VL, or the oldest count of a length queue; the second count of the same
queue where both pop it (R56, R167). -/
def PairIs (s : State) (la lb : BitVec 3) (na nb : Nat) : Prop :=
  LenIs s la na ∧
    (if la.toNat < 4 ∨ la ≠ lb then LenIs s lb nb
     else (s.core.f.lq[lb.toNat - 4]?.getD [])[1]? = some nb ∧ 1 < s.core.f.occ[lb.toNat - 4]?.getD 0)
/-- The state whose length queue has been poppedLen. -/
def poppedLen (s : State) (len : BitVec 3) : State :=
  if len.toNat < 4 then s
  else s.modF (fun f => { f with lq := f.lq.setIfInBounds (len.toNat - 4) ((f.lq[len.toNat - 4]?.getD []).drop 1)
                                 occ := f.occ.setIfInBounds (len.toNat - 4) (f.occ[len.toNat - 4]?.getD 0 - 1) })

/-- Accumulator elements of a step: width, columns, and their format, FP32 or FP64 (R52, R166). -/
def accWidth (f64 : Bool) : Nat := if f64 then 64 else 32
/-- See `accWidth`. -/
def accColumns (f64 : Bool) : Nat := if f64 then 48 else 96
/-- See `accWidth`. -/
def accFormat (f64 : Bool) : FF := fmtOf (if f64 then 0 else 1)
/-- An accumulator element after the exact sum of a step's terms has been added and rounded once; a step without a term leaves
it (R40, R169). -/
def accumulated (f64 neg : Bool) (vt : Word) (old : Nat) (ts : List (FV × Nat)) : Nat × Nat :=
  let x := sumExact (ts.map (fun p => if neg then p.1.neg else p.1))
  let r := faddR (accFormat f64) (roundMode vt) (fval (accFormat f64) old) x.1
  (r.1, ts.foldl (fun a p => a ||| p.2) x.2 ||| r.2)
/-- Whether position p of an operand of an outer product takes part. -/
def takesPart (s : State) (msk : BitVec 3) (n p : Nat) : Prop := p < n ∧ (s.mreg msk.toNat).getLsbD p = true
/-- The position of row i, depth k in operand A: FP64 rows 64 to 127 stand in the following register (R167). -/
def rowPosition (f64 : Bool) (kd i k : Nat) : Nat := if f64 then i % 64 else i * kd + k
/-- The terms of accumulator element (i, j): one for each depth at which both operands take part, each a product of two scaled
elements (R167, R169). -/
def outerTerms (s : State) (o : OpM8) (la lb i j : Nat) : List (FV × Nat) :=
  let vt := s.slot.vtype
  let f64 := o.fa.toNat == 0
  let kd := outDepth o.fa.toNat o.fb.toNat (vtPln vt)
  (List.range kd).filterMap (fun k =>
    if rowPosition f64 kd i k < la ∧ (s.mreg o.ma.toNat).getLsbD (rowPosition f64 kd i k) = true ∧
        j * kd + k < lb ∧ (s.mreg o.mb.toNat).getLsbD (j * kd + k) = true then
      some (prod4 (if vtBlkA vt = 0 then FV.one else scaleVal (vtSfmt vt) (elem (s.kreg o.ka.toNat) 8 i))
        (readFmt vt o.fa.toNat (if f64 then elem (s.vreg (o.va.toNat + i / 64)) 64 (i % 64)
          else elem (s.vreg o.va.toNat) (fmtWidth o.fa.toNat) (i * kd + k)))
        (if vtBlkB vt = 0 then FV.one else scaleVal (vtSfmt vt) (elem (s.kreg o.kb.toNat) 8 j))
        (readFmt vt o.fb.toNat (elem (s.vreg o.vb.toNat) (fmtWidth o.fb.toNat) (j * kd + k))))
    else none)
/-- Whether an outer product touches accumulator element (i, j): a position of its row and one of its column take part. -/
def touched (s : State) (o : OpM8) (la lb i j : Nat) : Prop :=
  let kd := outDepth o.fa.toNat o.fb.toNat (vtPln s.slot.vtype)
  i < 128 ∧ j < accColumns (o.fa.toNat == 0) ∧ (∃ k, k < kd ∧ takesPart s o.ma la (rowPosition (o.fa.toNat == 0) kd i k)) ∧
    ∃ k, k < kd ∧ takesPart s o.mb lb (j * kd + k)

/-- The row and column moves: the extent, the bound of x, whether they read the tile, and the tile word of element j (R173). -/
def tileMove : Instr → Option (OpV4 × Nat × Nat × Bool × (Nat → Nat → Nat))
  | .mrowv o => some (o, 96, 128, true, fun x j => 96 * x + j)
  | .mvrow o => some (o, 96, 128, false, fun x j => 96 * x + j)
  | .mcolv o => some (o, 128, 96, true, fun x j => 96 * j + x)
  | .mvcol o => some (o, 128, 96, false, fun x j => 96 * j + x)
  | _ => none

/-- The term of MTILE's accumulator element (i, j) in step k at depth kk: row i of A stands in the panel of step k in W, column j
of B in the A buffer, and a scale serves a block of depths (R178, R179). -/
def panelTerm (s : State) (o : OpG8) (vt ga gb : Word) (k i j kk : Nat) : FV × Nat :=
  let f := mtileF o
  let kd := outDepth f.fa f.fb 8
  let pa := f.m * kd * memBits f.fa / 8
  let pb := f.n * kd * memBits f.fb / 8
  prod4 (if vtBlkA vt = 0 then FV.one else scaleVal (vtSfmt vt) (elem (s.kreg f.ka) 8 (((k * kd + kk) / 2 ^ vtBlkA vt * f.m + i) % 256)))
    (readFmt vt f.fa (s.heldNum 1 (ga.toNat + k * pa) pa / 2 ^ ((i * kd + kk) * memBits f.fa) % 2 ^ memBits f.fa))
    (if vtBlkB vt = 0 then FV.one else scaleVal (vtSfmt vt) (elem (s.kreg f.kb) 8 (((k * kd + kk) / 2 ^ vtBlkB vt * f.n + j) % 256)))
    (readFmt vt f.fb (s.heldNum 2 (gb.toNat + k * pb) pb / 2 ^ ((j * kd + kk) * memBits f.fb) % 2 ^ memBits f.fb))
/-- Accumulator element (i, j) after the first k steps of an MTILE. -/
def afterSteps (s : State) (o : OpG8) (i j : Nat) : Nat → Nat
  | 0 => elem (s.areg o.d.toNat) (accWidth ((mtileF o).fa == 0)) (i * accColumns ((mtileF o).fa == 0) + j)
  | k + 1 => (accumulated ((mtileF o).fa == 0) false s.slot.vtype (afterSteps s o i j k)
      ((List.range (outDepth (mtileF o).fa (mtileF o).fb 8)).map (panelTerm s o s.slot.vtype (s.g o.a) (s.g o.b) k i j))).1
/-- What MTILE checks at commit and at dispatch (R5, R164, R168, R178, R180). -/
structure TileReady (s : State) (o : OpG8) (k : Nat) : Prop where
  unit : s.full = true ∨ (mtileF o).fa ≠ 0
  blocks : blkClash s.slot.vtype (mtileF o).fa (mtileF o).fb = false
  depth : 1 ≤ k ∧ k ≤ 65536 ∧ k % outDepth (mtileF o).fa (mtileF o).fb 8 = 0
  scales : (vtBlkA s.slot.vtype = 0 ∨ cdiv k (2 ^ vtBlkA s.slot.vtype) * (mtileF o).m ≤ 256) ∧
    (vtBlkB s.slot.vtype = 0 ∨ cdiv k (2 ^ vtBlkB s.slot.vtype) * (mtileF o).n ≤ 256)
  bytes : (mtileF o).m * outDepth (mtileF o).fa (mtileF o).fb 8 * memBits (mtileF o).fa % 8 = 0 ∧
    (mtileF o).n * outDepth (mtileF o).fa (mtileF o).fb 8 * memBits (mtileF o).fb % 8 = 0
  a : (s.g o.a).toNat % 64 = 0 ∧
    (s.g o.a).toNat + k * (mtileF o).m * memBits (mtileF o).fa / 8 ≤ 524288 ∧
    s.core.notHolder 1 (s.g o.a).toNat (k * (mtileF o).m * memBits (mtileF o).fa / 8) = false
  b : (s.g o.b).toNat % 64 = 0 ∧
    (s.g o.b).toNat + k * (mtileF o).n * memBits (mtileF o).fb / 8 ≤ 393216 ∧
    s.core.notHolder 2 (s.g o.b).toNat (k * (mtileF o).n * memBits (mtileF o).fb / 8) = false

/-- The generator that element e of a drain draws from (R175), under FP64 and otherwise. -/
def drainGenerator (f64 : Bool) (e : Nat) : Nat := if f64 then (e / 48 * 96 + e % 48) % 512 else e % 512
/-- The generators after the first n elements of a drain under stochastic rounding (R34, R175). -/
def drainedGenerators (s : State) (f64 : Bool) : Nat → BitVec 16384
  | 0 => s.slot.gens
  | n + 1 => setElem (drainedGenerators s f64 n) 32 (drainGenerator f64 n)
      (srDraw (elem (drainedGenerators s f64 n) 32 (drainGenerator f64 n))).2
/-- The modes and constants of the chain that a drain captures (R66, R174). -/
def capturedChain (s : State) : List Nat := s.core.st.chain.flatMap (fun n => [cfgMode (s.node n).cfg, (s.node n).const])
/-- Element e of a drained tile and its flags: through the chain, rounded to the format (R175). -/
def drained (s : State) (a fmt e : Nat) : Nat × Nat :=
  let f64 := fmt == 0
  let rm := vtRm s.slot.vtype
  let v := throughChain (roundMode s.slot.vtype) (capturedChain s) (elem (s.areg a) (accWidth f64) e, 0)
  let r := fround (fmtOf fmt) rm (vtSat s.slot.vtype)
    (if rm = 4 then (srDraw (elem (drainedGenerators s f64 e) 32 (drainGenerator f64 e))).1 else 0)
    (fval (fmtOf (if f64 then 0 else 1)) v.1)
  (r.1, r.2 ||| v.2 ||| if (fval (fmtOf (if f64 then 0 else 1)) v.1).isSig then fNV else 0)
/-- What a drain finds in the chain that it captures (R176). -/
def ChainFits (s : State) (fmt : Nat) : Prop :=
  (∀ n ∈ s.core.st.chain, ∃ x, s.fnode n = some x ∧ cfgMode x.cfg < 6) ∧ (fmt = 0 → s.core.st.chain = [])

/-- R170 to R173: MZERO clears a tile; MLDT and MSTT move its image of 49,152 bytes; the row and column moves transfer its words
under a mask, and an index outside the tile traps. -/
def TilesMove : Prop :=
  (∀ s d, s.Quiet → Runs (.mzero d) s (fun t => EngineFrame .mat (.mzero d) [] [] [d.toNat] [] [] 0 s t ∧ Advanced s t ∧
    t.slot.status = s.slot.status ∧ t.areg d.toNat = if d.toNat < 4 then 0 else s.areg d.toNat)) ∧
  (∀ s (o : OpMT) (loc : Nat → Nat), s.Quiet → Instr.WellFormed (.mldt o) → (s.full = true ∨ o.f64 = false) →
    (s.g o.base).toNat % 64 = 0 → (o.spc ≠ 0 → (s.g o.base).toNat + 49152 ≤ bufSize o.spc.toNat) →
    (∀ l, l < 768 → Reaches s o.spc ((s.g o.base).toNat + 64 * l) 64 .rd (loc l) ∧ Readable s o.spc 64 (loc l)) →
    Runs (.mldt o) s (fun t => t = s.setCore t.core ∧ SameBytes s t ∧ Advanced s t ∧ t.slot.status = s.slot.status ∧
      t.slot.rfout = s.slot.rfout ∧ MemFrame .mat (.mldt o) [] [o.d.toNat] [] [] 0 s t ∧
      ∀ k, k < 49152 → elem (t.areg o.d.toNat) 8 k = (byteOf s o.spc (loc (k / 64) + k % 64)).toNat)) ∧
  (∀ s (o : OpMT) (loc : Nat → Nat), s.Quiet → Instr.WellFormed (.mstt o) → (s.full = true ∨ o.f64 = false) →
    (s.g o.base).toNat % 64 = 0 → (o.spc ≠ 0 → (s.g o.base).toNat + 49152 ≤ bufSize o.spc.toNat) →
    (∀ spc, (s.core.buf spc).wf = true) →
    (∀ l, l < 768 → Reaches s o.spc ((s.g o.base).toNat + 64 * l) 64 .wr (loc l)) →
    Runs (.mstt o) s (fun t => t = s.setCore t.core ∧ Advanced s t ∧ t.slot.status = s.slot.status ∧
      t.slot.rfout = s.slot.rfout ∧ MemFrame .mat (.mstt o) [] [] [] [] 0 s t ∧
      (∀ x, byteOf t o.spc x =
        (match (List.range 768).reverse.find? (fun l => decide (loc l ≤ x) && decide (x < loc l + 64)) with
         | some l => BitVec.ofNat 8 (elem (s.areg o.d.toNat) 8 (64 * l + (x - loc l)))
         | none => byteOf s o.spc x)) ∧
      ∀ spc x, spc ≠ o.spc → byteOf t spc x = byteOf s spc x)) ∧
  (∀ s i (o : OpV4) ext lim out w n, tileMove i = some (o, ext, lim, out, w) → i.WellFormed →
    (lim ≤ (s.g o.b).toNat → Traps i true 0x03 0x04 s.slot.pc s) ∧
    (s.Quiet → (s.g o.b).toNat < lim → LenIs s o.len n → out = true →
      Runs i s (fun t => EngineFrame .mat i [o.d.toNat] [] [] [] [] o.len s t ∧ Advanced s t ∧ t.slot.status = s.slot.status ∧
        LaneResult s t o.d.toNat 32 (min (lengthOf s o.len n) ext) o.msk
          (fun j => elem (s.areg o.a.toNat) 32 (w (s.g o.b).toNat j)))) ∧
    (s.Quiet → (s.g o.b).toNat < lim → LenIs s o.len n → out = false →
      Runs i s (fun t => EngineFrame .mat i [] [] [o.a.toNat] [] [] o.len s t ∧ Advanced s t ∧ t.slot.status = s.slot.status ∧
        (∀ j, j < ext → elem (t.areg o.a.toNat) 32 (w (s.g o.b).toNat j) =
          if j < lengthOf s o.len n ∧ (s.mreg o.msk.toNat).getLsbD j = true then elem (s.vreg o.d.toNat) 32 j
          else elem (s.areg o.a.toNat) 32 (w (s.g o.b).toNat j)) ∧
        ∀ k, k < 12288 → (∀ j, j < ext → k ≠ w (s.g o.b).toNat j) →
          elem (t.areg o.a.toNat) 32 k = elem (s.areg o.a.toNat) 32 k)))

/-- R66, R174 to R177: MCHAIN names the function nodes of the chain and MSETC sets a node's constant; MDRAIN rounds every element
of the tile, put through the chain, and stores it at its place in row order, and with Z clears the tile. -/
def ChainsAndDrains : Prop :=
  (∀ s (o : OpG8) ns, s.Quiet → ns = chainOf o.imm 8 →
    (∀ n ∈ ns, ∃ x, s.fnode n = some x ∧ cfgMode x.cfg < 8 ∧ ¬(s.core.st.graph.state = .running ∧ cfgG x.cfg = true)) →
    Runs (.mchain o) s (fun t => EngineFrame .mat (.mchain o) [] [] [] [] [] 0 (s.modSt (fun x => { x with chain := ns })) t ∧
      Advanced s t ∧ t.slot.status = s.slot.status)) ∧
  (∀ s (o : OpG8), s.Quiet → (s.fnode (16 + o.a.toNat)).isSome = true →
    Runs (.msetc o) s (fun t => EngineFrame .mat (.msetc o) [] [] [] [] [] 0
        (s.modNode (16 + o.a.toNat) (fun x => { x with const := if o.c = 0 then o.imm.toNat else (s.g o.b).toNat % 2 ^ 32 })) t ∧
      Advanced s t ∧ t.slot.status = s.slot.status)) ∧
  (∀ s (o : OpG8) (loc : Nat → Nat) fmt spc n u, s.Quiet → Instr.WellFormed (.mdrain o) → fmt = fld o.imm 0 4 →
    spc = o.imm.extractLsb' 4 3 → n = drainBytes fmt → (s.full = true ∨ fmt ≠ 0) → ChainFits s fmt →
    (s.g o.b).toNat % 64 = 0 → (spc ≠ 0 → (s.g o.b).toNat + n ≤ bufSize spc.toNat) → (∀ b, (s.core.buf b).wf = true) →
    (∀ l, l < n / 64 → Reaches s spc ((s.g o.b).toNat + 64 * l) 64 .wr (loc l)) →
    u = (if vtRm s.slot.vtype = 4 then
      s.modSlot (fun x => { x with gens := drainedGenerators s (fmt == 0) (n / fmtBytes fmt) }) else s) →
    Runs (.mdrain o) s (fun t => t = s.setCore t.core ∧ Advanced s t ∧ t.slot.rfout = s.slot.rfout ∧
      MemFrame .mat (.mdrain o) [] (if o.imm.getLsbD 8 then [o.a.toNat] else []) [] [] 0 u t ∧
      (o.imm.getLsbD 8 = true → o.a.toNat < 4 → t.areg o.a.toNat = 0) ∧
      (∀ x, byteOf t spc x =
        (match (List.range (n / 64)).reverse.find? (fun l => decide (loc l ≤ x) && decide (x < loc l + 64)) with
         | some l => BitVec.ofNat 8 ((drained s o.a.toNat fmt ((64 * l + (x - loc l)) / fmtBytes fmt)).1 /
             256 ^ ((64 * l + (x - loc l)) % fmtBytes fmt))
         | none => byteOf s spc x)) ∧
      ∀ b x, b ≠ spc → byteOf t b x = byteOf s b x))

end Sys2Proof.Machine

section
open Sys2Proof.Machine

/-- R40, R166 to R169: OPACC adds and OPSUB subtracts, in every accumulator element that a row and a column touch, the exact sum
of its products, rounded once; UNIT_ABSENT and the clash of block lengths with formats trap first. -/
def Obligations.OuterProductsAccumulate : Prop :=
  ∀ s i (o : OpM8) neg na nb, i.WellFormed → (i = .opacc o ∧ neg = false ∨ i = .opsub o ∧ neg = true) →
    (s.full = false → o.fa = 0 → Traps i false 0x04 0x00 s.slot.pc s) ∧
    ((s.full = true ∨ o.fa ≠ 0) → blkClash s.slot.vtype o.fa.toNat o.fb.toNat = true → Traps i true 0x01 0x08 s.slot.pc s) ∧
    (s.Quiet → (s.full = true ∨ o.fa ≠ 0) → blkClash s.slot.vtype o.fa.toNat o.fb.toNat = false → PairIs s o.la o.lb na nb →
      ∀ la lb, la = boundLen (fmtWidth o.fa.toNat) o.la na → lb = boundLen (fmtWidth o.fb.toNat) o.lb nb →
      Runs i s (fun t => EngineFrame .mat i [] [] [o.d.toNat] [] [] o.la (poppedLen s o.lb) t ∧ Advanced s t ∧
        (∀ r j, r < 128 → j < accColumns (o.fa.toNat == 0) →
          (touched s o la lb r j →
            elem (t.areg o.d.toNat) (accWidth (o.fa.toNat == 0)) (r * accColumns (o.fa.toNat == 0) + j) =
              (accumulated (o.fa.toNat == 0) neg s.slot.vtype
                (elem (s.areg o.d.toNat) (accWidth (o.fa.toNat == 0)) (r * accColumns (o.fa.toNat == 0) + j))
                (outerTerms s o la lb r j)).1) ∧
          (¬touched s o la lb r j →
            elem (t.areg o.d.toNat) (accWidth (o.fa.toNat == 0)) (r * accColumns (o.fa.toNat == 0) + j) =
              elem (s.areg o.d.toNat) (accWidth (o.fa.toNat == 0)) (r * accColumns (o.fa.toNat == 0) + j))) ∧
        (∀ k, k < 64 → (t.slot.status.getLsbD k = true ↔ s.slot.status.getLsbD k = true ∨
          41 ≤ k ∧ k < 48 ∧ ∃ r j, touched s o la lb r j ∧ (accumulated (o.fa.toNat == 0) neg s.slot.vtype
            (elem (s.areg o.d.toNat) (accWidth (o.fa.toNat == 0)) (r * accColumns (o.fa.toNat == 0) + j))
            (outerTerms s o la lb r j)).2.testBit (k - 41) = true))))

/-- R178 to R180: MTILE accumulates its k-steps in ascending order, each an outer product of two panels; one row of the table
performs one step of a running MTILE, and the last one ends it. -/
def Obligations.MtileAccumulatesItsSteps : Prop :=
  (∀ s (o : OpG8), s.Quiet → Instr.WellFormed (.mtile o) → TileReady s o (s.g o.c).toNat →
    Runs (.mtile o) s (fun t => EngineFrame .mat (.mtile o) [] [] [o.d.toNat] [] [] 0 s t ∧ Advanced s t ∧
      ∀ r j, r < 128 → j < accColumns ((mtileF o).fa == 0) →
        elem (t.areg o.d.toNat) (accWidth ((mtileF o).fa == 0)) (r * accColumns ((mtileF o).fa == 0) + j) =
          if r < (mtileF o).m ∧ j < (mtileF o).n then
            afterSteps s o r j ((s.g o.c).toNat / outDepth (mtileF o).fa (mtileF o).fb 8)
          else elem (s.areg o.d.toNat) (accWidth ((mtileF o).fa == 0)) (r * accColumns ((mtileF o).fa == 0) + j))) ∧
  (∀ s u cl core (o : OpG8) (c : Cmd), u = s.at_ cl core false → Instr.WellFormed (.mtile o) → u.core.queue = [c] →
    c.ins = .mtile o → c.disp = true → c.done = false → c.faulted = false → c.held = false → c.paused = false →
    c.ep = (u.core.slot c.hi).ep → 0 < c.resume →
    c.resume < c.gc.toNat / outDepth (mtileF o).fa (mtileF o).fb 8 → o.d.toNat < 4 →
    Runs (.mtileStep cl core) s (fun t => ∃ (e : Cmd) (a : Vector Tile 4),
      t = s.setCoreAt cl core { u.core with queue := [e], f := { u.core.f with a := a } } ∧
      e = { c with resume := c.resume + 1, flags := e.flags,
                   done := decide (c.resume + 1 = c.gc.toNat / outDepth (mtileF o).fa (mtileF o).fb 8) } ∧
      (∀ n, n ≠ o.d.toNat → a[n]? = u.core.f.a[n]?) ∧
      ∀ r j, r < 128 → j < accColumns ((mtileF o).fa == 0) →
        elem (a[o.d.toNat]?.getD 0) (accWidth ((mtileF o).fa == 0)) (r * accColumns ((mtileF o).fa == 0) + j) =
          if r < (mtileF o).m ∧ j < (mtileF o).n then
            (accumulated ((mtileF o).fa == 0) false c.vtype
              (elem (u.areg o.d.toNat) (accWidth ((mtileF o).fa == 0)) (r * accColumns ((mtileF o).fa == 0) + j))
              ((List.range (outDepth (mtileF o).fa (mtileF o).fb 8)).map (panelTerm u o c.vtype c.ga c.gb c.resume r j))).1
          else elem (u.areg o.d.toNat) (accWidth ((mtileF o).fa == 0)) (r * accColumns ((mtileF o).fa == 0) + j)))

/-- MZERO, tile images, row and column moves; chains and MDRAIN to memory (R170 to R173; R66, R174 to R177). -/
def Obligations.TilesMoveAndDrain : Prop :=
  Sys2Proof.Machine.TilesMove ∧ Sys2Proof.Machine.ChainsAndDrains

end

namespace Sys2Proof.Machine

/-! ### Transforms and residues (R29 to R32, R181 to R200) -/

/-- A point of a register: its real and imaginary components of w bits (R183). -/
def pointOf (f : FF) (v : VReg) (w p : Nat) : FV × FV := (fval f (elem v w (2 * p)), fval f (elem v w (2 * p + 1)))
/-- The twiddle of point p of a BFY (R184). -/
def bfyTwiddle (s : State) (o : OpG8) (p : Nat) : FV × FV :=
  twCplx (o.imm.getLsbD 4) (elem (s.wreg o.c.toNat) 64 ((fld o.imm 5 7 + p * fld o.imm 12 7) % 128))
/-- Component i of the sums, or of the differences, of a BFY on floating points (R183, R184). -/
def bfyComponent (s : State) (o : OpG8) (fmt : Nat) (bottom : Bool) (i : Nat) : Nat × Nat :=
  roundOut (fmtOf fmt) (roundMode s.slot.vtype) (bflyPart (roundMode s.slot.vtype) bottom (i % 2 == 1) (bfyTwiddle s o (i / 2))
    (pointOf (fmtOf fmt) (s.vreg o.a.toNat) (fmtWidth fmt) (i / 2)) (pointOf (fmtOf fmt) (s.vreg o.b.toNat) (fmtWidth fmt) (i / 2)))
/-- Block b of the sums, or of the differences, of a BFY on BFP16 points: exponent, mantissas, flags (R27, R28, R184). -/
def bfyBlock (s : State) (o : OpG8) (bottom : Bool) (b : Nat) : Nat × List Nat × Nat :=
  let ea := elem (s.kreg (fld o.imm 19 4)) 8 b
  let eb := elem (s.kreg (fld o.imm 19 4)) 8 (8 + b)
  bfpBlock (maxExp ea eb) ((List.range 32).map (fun i =>
    bflyPart 0 bottom (i % 2 == 1) (bfyTwiddle s o (16 * b + i / 2))
      (bfpVal ea (elem (s.vreg o.a.toNat) 16 (2 * (16 * b + i / 2))), bfpVal ea (elem (s.vreg o.a.toNat) 16 (2 * (16 * b + i / 2) + 1)))
      (bfpVal eb (elem (s.vreg o.b.toNat) 16 (2 * (16 * b + i / 2))), bfpVal eb (elem (s.vreg o.b.toNat) 16 (2 * (16 * b + i / 2) + 1)))))

/-- An array of components of w bits with its exponent bytes behind it, as a little-endian number (R181). -/
def arrayNumber (w : Nat) (a : List Nat × List Nat) : Nat := packNat w a.1 + 2 ^ (w * a.1.length) * packNat 8 a.2
/-- The array that a pass makes of an array, with its exponents (R183, R186). -/
def passedArray (s : State) (vt : Word) (modq : Nat) (q : Pass) (img : Nat) : List Nat × List Nat :=
  if q.fmt = 0xC then ((q.residues modq (s.twEntry q.c) img).1, [])
  else if q.fmt = 0xB then
    ((q.blocks (s.twEntry q.c) img).flatMap (fun b => b.2.1), (q.blocks (s.twEntry q.c) img).map (·.1))
  else ((q.floats (roundMode vt) (s.twEntry q.c) img).map (·.1), [])
/-- A number shifted right by k bits, to nearest even, with its sign (R28, R189). -/
def shiftedMantissa (m : Int) (k : Nat) : Nat :=
  unsgn 16 (if m < 0 then -(((roundUnits 0 true 0 m.natAbs 1 0 (k : Int)).1 : Nat) : Int)
    else (if m = 0 then 0 else ((roundUnits 0 false 0 m.natAbs 1 0 (k : Int)).1 : Nat) : Int))
/-- The array that a permutation makes: output point p is input point f p; a BFP16 block takes the largest exponent of its
sources, and a block with a source in a NaN block is a NaN block (R188, R189). -/
def permutedArray (fmt : Nat) (cpx : Bool) (n : Nat) (f : Nat → Nat) (img : Nat) : List Nat × List Nat :=
  if fmt = 0xB then
    let cs := compN fmt cpx (2 ^ n)
    let source := fun i => if cpx then 2 * f (i / 2) + i % 2 else f i
    let ex := fun k => bits img (16 * cs + 8 * (k / 32)) 8
    let top := fun b => ((List.range 32).map (fun i => ex (source (32 * b + i)))).foldl max 0
    ((List.range cs).map (fun i => if top (i / 32) = 255 then 0
        else shiftedMantissa (sgn 16 (bits img (16 * source i) 16)) (top (i / 32) - ex (source i))),
      (List.range (cs / 32)).map top)
  else ((List.range (2 ^ n)).map (fun p => bits img (8 * ptBytes fmt cpx * f p) (8 * ptBytes fmt cpx)), [])
/-- The array that BFPNORM makes (R191). -/
def normalisedArray (cpx : Bool) (n img : Nat) : List Nat × List Nat :=
  let cs := compN 0xB cpx (2 ^ n)
  let bs := (List.range (cs / 32)).map (fun b =>
    normBlock (bits img (16 * cs + 8 * b) 8) ((List.range 32).map (fun i => sgn 16 (bits img (16 * (32 * b + i)) 16))))
  (bs.flatMap (fun b => b.2.1), bs.map (·.1))
/-- The width of what a permutation moves at once: a component of a BFP16 array, else a whole point. -/
def movedWidth (fmt : Nat) (cpx : Bool) : Nat := if fmt = 0xB then 16 else 8 * ptBytes fmt cpx
/-- The destination array of a TXF after stage k, as a number (R192, R193). -/
def stageImage (s : State) (o : OpG8) (vt : Word) (modq img : Nat) : Nat → Nat
  | 0 =>
    let fmt := (txfF o).1
    let n := (txfF o).2.2
    let x := arrayNumber (movedWidth fmt (fmt != 0xC)) (permutedArray fmt (fmt != 0xC) n (bitrev n) img)
    if fmt = 0xB then arrayNumber 16 (normalisedArray true n x) else x
  | k + 1 =>
    arrayNumber (compW (txfF o).1) (passedArray s vt modq
      ⟨(txfF o).1, (txfF o).2.1, false, false, (txfF o).2.2, k, 0, 2 ^ ((txfF o).2.2 - (k + 1)), 0, o.c.toNat⟩
      (stageImage s o vt modq img k))
/-- A region of n bytes of the A buffer that the checks of R164 and R185 admit. -/
structure Region (s : State) (base n : Nat) : Prop where
  inside : base + n ≤ 393216
  aligned : base % 64 = 0
  holder : s.core.notHolder 2 base n = false
/-- The A buffer alone has changed, in a region that holds a number of n bytes now. -/
def RegionWrite (base n x : Nat) (s t : State) : Prop :=
  t.heldNum 2 base n = x ∧ (∀ b a, b ≠ 2 ∨ a < base ∨ base + n ≤ a → t.held b a = s.held b a) ∧ ∀ loc, t.seen loc = s.seen loc
/-- The tokens sent to a port one after another. -/
def sentTo (s : State) (p : Nat) (ts : List Token) : State := ts.foldl (fun s t => s.pushPort p t) s

/-- The lanes of the modular forms of major 0x58 in integers, and how many of their operands lie at or above the modulus (R30,
R31, R195, R196). -/
def residueLane (s : State) (q : Nat) : Instr → Option (OpV4 × List (Nat × (Nat → Nat)) × (Nat → Nat))
  | .nadd o => some (o, [(o.d.toNat, fun e => (elem (s.vreg o.a.toNat) 32 e + elem (s.vreg o.b.toNat) 32 e) % q)],
      fun e => b2n (q ≤ elem (s.vreg o.a.toNat) 32 e) + b2n (q ≤ elem (s.vreg o.b.toNat) 32 e))
  | .nsub o => some (o, [(o.d.toNat, fun e =>
        (((elem (s.vreg o.a.toNat) 32 e : Int) - elem (s.vreg o.b.toNat) 32 e) % (q : Int)).toNat)],
      fun e => b2n (q ≤ elem (s.vreg o.a.toNat) 32 e) + b2n (q ≤ elem (s.vreg o.b.toNat) 32 e))
  | .nmul o => some (o, [(o.d.toNat, fun e => elem (s.vreg o.a.toNat) 32 e * elem (s.vreg o.b.toNat) 32 e % q)],
      fun e => b2n (q ≤ elem (s.vreg o.a.toNat) 32 e) + b2n (q ≤ elem (s.vreg o.b.toNat) 32 e))
  | .nmulW o => some (o, [(o.d.toNat, fun e => twMul q (elem (s.vreg o.a.toNat) 32 e % q) (s.wreg o.b.toNat) e)],
      fun e => b2n (q ≤ elem (s.vreg o.a.toNat) 32 e))
  | .nbfy o => some (o,
      [(o.d.toNat, fun e => (elem (s.vreg o.a.toNat) 32 e +
          twMul q (elem (s.vreg o.c.toNat) 32 e % q) (s.wreg o.b.toNat) e) % q),
       (o.d.toNat + 1, fun e => (((elem (s.vreg o.a.toNat) 32 e : Int) -
          twMul q (elem (s.vreg o.c.toNat) 32 e % q) (s.wreg o.b.toNat) e) % (q : Int)).toNat)],
      fun e => b2n (q ≤ elem (s.vreg o.a.toNat) 32 e) + b2n (q ≤ elem (s.vreg o.c.toNat) 32 e))
  | .nfrom o => some (o, [(o.d.toNat, fun e => (signedElem 32 (elem (s.vreg o.a.toNat) 32 e) % (q : Int)).toNat)], fun _ => 0)
  | .nto o => some (o, [(o.d.toNat, fun e =>
        if elem (s.vreg o.a.toNat) 32 e % q ≤ (q - 1) / 2 then elem (s.vreg o.a.toNat) 32 e % q
        else encoded 32 ((elem (s.vreg o.a.toNat) 32 e % q : Nat) - (q : Int)))],
      fun e => b2n (q ≤ elem (s.vreg o.a.toNat) 32 e))
  | _ => none
/-- STATUS after n reduced operands: MODRED is set where there was one, MRCNT rises and saturates, the rest is as before (R30,
R62). -/
def ResidueCount (s t : State) (n : Nat) : Prop :=
  fld t.slot.status 48 16 = min 65535 (fld s.slot.status 48 16 + n) ∧
    ∀ k, k < 48 → (t.slot.status.getLsbD k = true ↔ s.slot.status.getLsbD k = true ∨ 41 ≤ k ∧ fMOD.testBit (k - 41) = true ∧ n ≠ 0)
/-- A modulus that R29 admits. -/
def legalModulus (q : Nat) : Prop := q % 2 = 1 ∧ 3 ≤ q ∧ q < 2 ^ 31
/-- The two factors of a point's product: from vB, or under X = 1 from a twiddle register (R200). -/
def secondPoint (s : State) (o : OpV4) (cj : Bool) (p : Nat) : FV × FV :=
  let f := fmtOf (vtFmt s.slot.vtype)
  let re := if o.x then fval (fmtOf 1) (elem (s.wreg o.b.toNat) 32 (2 * (p % 128))) else fval f (elem (s.vreg o.b.toNat) (vtSew s.slot.vtype) (2 * p))
  let im := if o.x then fval (fmtOf 1) (elem (s.wreg o.b.toNat) 32 (2 * (p % 128) + 1)) else fval f (elem (s.vreg o.b.toNat) (vtSew s.slot.vtype) (2 * p + 1))
  (re, if cj then im.neg else im)
/-- Component e of a complex product, rounded once from the exact sum of two products (R39, R200). -/
def productComponent (s : State) (o : OpV4) (cj : Bool) (e : Nat) : Nat × Nat :=
  let a := pointOf (fmtOf (vtFmt s.slot.vtype)) (s.vreg o.a.toNat) (vtSew s.slot.vtype) (e / 2)
  let b := secondPoint s o cj (e / 2)
  roundOut (fmtOf (vtFmt s.slot.vtype)) (roundMode s.slot.vtype)
    (if e % 2 = 0 then sum2 (roundMode s.slot.vtype) a.1 b.1 a.2.neg b.2 else sum2 (roundMode s.slot.vtype) a.1 b.2 a.2 b.1)

/-- R183, R184: BFY writes the sums to vA and the differences to vB, at the active points; BFP16 points go block by block with
their exponents in the k register. -/
def ButterfliesOnRegisters : Prop :=
  (∀ s (o : OpG8) n fmt, s.Quiet → Instr.WellFormed (.bfy o) → LenIs s o.len n → fmt = fld o.imm 0 4 → fmt ≠ 0xB →
    lengthOf s o.len n ≤ (if fmt = 1 then 64 else 128) →
    Runs (.bfy o) s (fun t => EngineFrame .bfy (.bfy o) [o.a.toNat, o.b.toNat] [] [] [] [] o.len s t ∧ Advanced s t ∧
      ∀ e, e < vlmax (fmtWidth fmt) →
        elem (t.vreg o.a.toNat) (fmtWidth fmt) e =
          (if e < 2 * lengthOf s o.len n ∧ (s.mreg o.msk.toNat).getLsbD (e / 2) = true then (bfyComponent s o fmt false e).1 % 2 ^ fmtWidth fmt
           else elem (s.vreg o.a.toNat) (fmtWidth fmt) e) ∧
        elem (t.vreg o.b.toNat) (fmtWidth fmt) e =
          (if e < 2 * lengthOf s o.len n ∧ (s.mreg o.msk.toNat).getLsbD (e / 2) = true then (bfyComponent s o fmt true e).1 % 2 ^ fmtWidth fmt
           else elem (s.vreg o.b.toNat) (fmtWidth fmt) e))) ∧
  (∀ s (o : OpG8) n, s.Quiet → Instr.WellFormed (.bfy o) → LenIs s o.len n → fld o.imm 0 4 = 0xB →
    lengthOf s o.len n ≤ 128 → lengthOf s o.len n % 16 = 0 →
    Runs (.bfy o) s (fun t =>
      EngineFrame .bfy (.bfy o) [o.a.toNat, o.b.toNat] [] [] [fld o.imm 19 4] [] o.len s t ∧ Advanced s t ∧
      (∀ e, e < 256 →
        elem (t.vreg o.a.toNat) 16 e = (if e < 2 * lengthOf s o.len n then (bfyBlock s o false (e / 32)).2.1[e % 32]?.getD 0 % 65536
          else elem (s.vreg o.a.toNat) 16 e) ∧
        elem (t.vreg o.b.toNat) 16 e = (if e < 2 * lengthOf s o.len n then (bfyBlock s o true (e / 32)).2.1[e % 32]?.getD 0 % 65536
          else elem (s.vreg o.b.toNat) 16 e)) ∧
      ∀ b, b < 256 → elem (t.kreg (fld o.imm 19 4)) 8 b =
        (if b < lengthOf s o.len n / 16 then (bfyBlock s o false b).1 % 256
         else if 8 ≤ b ∧ b < 8 + lengthOf s o.len n / 16 then (bfyBlock s o true (b - 8)).1 % 256
         else elem (s.kreg (fld o.imm 19 4)) 8 b)))

/-- R181 to R187: BPASS replaces the array in the A buffer by one pass over it, or sends the pass's points to a bound port, from a
FIFO that holds nothing. -/
def PassesOverArrays : Prop :=
  (∀ s (o : OpG8) q n, s.Quiet → Instr.WellFormed (.bpass o) → o.imm.getLsbD 14 = false → q = bpassOf o (s.g o.b) →
    s.g o.b &&& 0xFFFF_FC00_FC00_FC00 = 0 → (q.fmt = 0xB → blkPts (!q.g2) ≤ 2 ^ q.n) → n = arrBytes q.fmt (!q.g2) (2 ^ q.n) →
    Region s (s.g o.a).toNat n → s.core.a.wf = true →
    Runs (.bpass o) s (fun t => t = s.setCore t.core ∧ Advanced s t ∧ t.slot.rfout = s.slot.rfout ∧
      MemFrame .bfy (.bpass o) [] [] [] [] 0 s t ∧
      RegionWrite (s.g o.a).toNat n (arrayNumber (compW q.fmt)
        (passedArray s s.slot.vtype (fld s.core.f.modq 0 32) q (s.heldNum 2 (s.g o.a).toNat n))) s t)) ∧
  (∀ s (o : OpG8) q n p ts, s.Quiet → Instr.WellFormed (.bpass o) → o.imm.getLsbD 14 = true → q = bpassOf o (s.g o.b) →
    s.g o.b &&& 0xFFFF_FC00_FC00_FC00 = 0 → n = arrBytes q.fmt (!q.g2) (2 ^ q.n) → Region s (s.g o.a).toNat n →
    p = fld o.imm 15 4 → (s.port p).kind = 7 → (s.port p).dir = 1 → (s.port p).fifo = [] →
    ts = passTokens q (passedArray s s.slot.vtype (fld s.core.f.modq 0 32) q (s.heldNum 2 (s.g o.a).toNat n)).1
      (if o.imm.getLsbD 20 then some (s.port p).rank else none) → ts.length ≤ 128 →
    Runs (.bpass o) s (fun t => EngineFrame .bfy (.bpass o) [] [] [] [] [] 0 (sentTo s p ts) t ∧ Advanced s t))

/-- R188 to R191: BPERM writes a permuted copy, BFPNORM normalises an array in place, TWGEN writes entries of a twiddle register; a
TWGEN of the complex view with N = 0 traps. -/
def ArraysAreMovedAndTwiddlesMade : Prop :=
  (∀ s i (o : OpG8) fmt cpx n by_ f, s.Quiet → i.WellFormed → (fmt, cpx, n, by_) = bpermF o →
    (i = .bperm o ∧ f = (fun p => rotl n p (s.g o.c).toNat) ∨ i = .bpermRev o ∧ f = bitrev n) →
    Region s (s.g o.a).toNat by_ → Region s (s.g o.b).toNat by_ → overlap (s.g o.a).toNat by_ (s.g o.b).toNat by_ = false →
    s.core.a.wf = true →
    Runs i s (fun t => t = s.setCore t.core ∧ Advanced s t ∧ t.slot.rfout = s.slot.rfout ∧ t.slot.status = s.slot.status ∧
      MemFrame .bfy i [] [] [] [] 0 s t ∧
      RegionWrite (s.g o.b).toNat by_ (arrayNumber (movedWidth fmt cpx)
        (permutedArray fmt cpx n f (s.heldNum 2 (s.g o.a).toNat by_))) s t)) ∧
  (∀ s (o : OpG8) cpx n by_, s.Quiet → Instr.WellFormed (.bfpnorm o) → cpx = o.imm.getLsbD 4 → n = fld o.imm 5 4 →
    blkPts cpx ≤ 2 ^ n → by_ = arrBytes 0xB cpx (2 ^ n) → Region s (s.g o.a).toNat by_ → s.core.a.wf = true →
    Runs (.bfpnorm o) s (fun t => t = s.setCore t.core ∧ Advanced s t ∧ t.slot.rfout = s.slot.rfout ∧
      MemFrame .bfy (.bfpnorm o) [] [] [] [] 0 s t ∧
      RegionWrite (s.g o.a).toNat by_ (arrayNumber 16 (normalisedArray cpx n (s.heldNum 2 (s.g o.a).toNat by_))) s t)) ∧
  (∀ s (o : OpG8), Instr.WellFormed (.twgenCplx o) →
    (s.g o.b = 0 → Traps (.twgenCplx o) true 0x03 0x04 s.slot.pc s) ∧
    (s.Quiet → s.g o.b ≠ 0 →
      Runs (.twgenCplx o) s (fun t => EngineFrame .bfy (.twgenCplx o) [] [] [] [] [o.a.toNat] 0 s t ∧ Advanced s t ∧
        t.slot.status = s.slot.status ∧
        ∀ j, j < 128 → elem (t.wreg o.a.toNat) 64 j =
          if j ≤ fld o.imm 8 7 then
            (trigOf true false ((s.g o.c).toNat + j) (s.g o.b).toNat + 2 ^ 32 * trigOf false true ((s.g o.c).toNat + j) (s.g o.b).toNat) % 2 ^ 64
          else elem (s.wreg o.a.toNat) 64 j))) ∧
  (∀ s (o : OpG8) q, s.Quiet → Instr.WellFormed (.twgenMod o) → q = fld s.core.f.modq 0 32 → legalModulus q →
    Runs (.twgenMod o) s (fun t => EngineFrame .bfy (.twgenMod o) [] [] [] [] [o.a.toNat] 0 s t ∧ Advanced s t ∧
      ResidueCount s t (if q ≤ (s.g o.b).toNat then 1 else 0) ∧
      ∀ j, j < 128 → elem (t.wreg o.a.toNat) 64 j =
        if j ≤ fld o.imm 8 7 then (s.g o.b).toNat ^ ((s.g o.c).toNat + j) % q +
          2 ^ 32 * ((s.g o.b).toNat ^ ((s.g o.c).toNat + j) % q * 2 ^ 32 / q)
        else elem (s.wreg o.a.toNat) 64 j))

/-- R192, R193: TXF permutes its source to the destination and runs its n stages there; one row of the table runs one stage of a
running TXF, and the last one ends it. -/
def TransformsRunTheirStages : Prop :=
  (∀ s (o : OpG8) n, s.Quiet → Instr.WellFormed (.txf o) → n = txfBytes o →
    Region s (s.g o.a).toNat n → Region s (s.g o.b).toNat n → overlap (s.g o.a).toNat n (s.g o.b).toNat n = false →
    s.core.a.wf = true →
    Runs (.txf o) s (fun t => t = s.setCore t.core ∧ Advanced s t ∧ t.slot.rfout = s.slot.rfout ∧
      MemFrame .bfy (.txf o) [] [] [] [] 0 s t ∧
      RegionWrite (s.g o.b).toNat n (stageImage s o s.slot.vtype (fld s.core.f.modq 0 32) (s.heldNum 2 (s.g o.a).toNat n)
        (txfF o).2.2) s t)) ∧
  (∀ s u cl core (o : OpG8) (c : Cmd) n, u = s.at_ cl core false → Instr.WellFormed (.txf o) → u.core.queue = [c] →
    c.ins = .txf o → c.disp = true → c.done = false → c.faulted = false → c.held = false → c.paused = false →
    c.ep = (u.core.slot c.hi).ep → 0 < c.resume →
    c.resume ≤ (txfF o).2.2 → n = txfBytes o → c.gb.toNat + n ≤ 393216 → u.core.a.wf = true →
    Runs (.txfStage cl core) s (fun t => ∃ (e : Cmd) (a : Mem),
      t = s.setCoreAt cl core { u.core with queue := [e], a := a } ∧
      e = { c with resume := c.resume + 1, flags := e.flags, mrs := e.mrs, done := decide (c.resume = (txfF o).2.2) } ∧
      RegionWrite c.gb.toNat n (arrayNumber (compW (txfF o).1) (passedArray u c.vtype c.modq
        ⟨(txfF o).1, (txfF o).2.1, false, false, (txfF o).2.2, c.resume - 1, 0, 2 ^ ((txfF o).2.2 - c.resume), 0, o.c.toNat⟩
        (u.heldNum 2 c.gb.toNat n))) u (t.at_ cl core false)))

/-- R29 to R32, R195 to R199: the modular lanes at SEW 32 under the modulus MODQ, with the count of reduced operands; another SEW
traps; NCRT joins two residues; NMODSET sets a legal modulus; NCHK passes within the bound. -/
def ResidueArithmetic : Prop :=
  (∀ s i o l k q n, s.Quiet → residueLane s q i = some (o, l, k) → i.WellFormed → q = fld s.core.f.modq 0 32 → legalModulus q →
    LenIs s o.len n →
    (vtSew s.slot.vtype ≠ 32 → Traps i true 0x01 0x08 s.slot.pc s) ∧
    (vtSew s.slot.vtype = 32 →
      Runs i s (fun t => EngineFrame .vec i (l.map (·.1)) [] [] [] [] o.len s t ∧ Advanced s t ∧
        ResidueCount s t ((activeBelow s o.msk (lengthOf s o.len n)).map k).sum ∧
        ∀ x ∈ l, LaneResult s t x.1 32 (lengthOf s o.len n) o.msk x.2))) ∧
  (∀ s (o : OpV4) q p v n, s.Quiet → Instr.WellFormed (.ncrt o) → vtSew s.slot.vtype = 32 → q = fld s.core.f.modq 0 32 →
    legalModulus q → p = elem (s.vreg o.c.toNat) 32 0 → v = elem (s.vreg o.c.toNat) 32 1 → legalModulus p → p ≠ q →
    LenIs s o.len n → lengthOf s o.len n ≤ 64 →
    Runs (.ncrt o) s (fun t => EngineFrame .vec (.ncrt o) [o.d.toNat] [] [] [] [] o.len s t ∧ Advanced s t ∧
      ResidueCount s t ((activeBelow s o.msk (lengthOf s o.len n)).map (fun e =>
        b2n (q ≤ elem (s.vreg o.a.toNat) 32 e) + b2n (p ≤ elem (s.vreg o.b.toNat) 32 e))).sum ∧
      ∀ e, e < 64 → elem (t.vreg o.d.toNat) 64 e =
        (if e < lengthOf s o.len n ∧ (s.mreg o.msk.toNat).getLsbD e = true then
          (let a := elem (s.vreg o.a.toNat) 32 e % q
           let d := (((elem (s.vreg o.b.toNat) 32 e % p : Nat) - (a : Int)) % (p : Int)).toNat
           let x : Int := (a + q * (d * v % p) : Nat)
           encoded 64 (if ((q * p : Nat) - 1 : Int) < 2 * x then x - (q * p : Nat) else x))
         else elem (s.vreg o.d.toNat) 64 e))) ∧
  (∀ s (o : OpA2), Instr.WellFormed (.nmodset o) →
    (s.Free → legalModulus (s.g o.a).toNat →
      Runs (.nmodset o) s (fun t => Advanced s t ∧ ScalarFrame 0 (s.modF (fun f => { f with modq := s.g o.a })) t)) ∧
    (¬legalModulus (s.g o.a).toNat → Traps (.nmodset o) true 0x03 0x04 s.slot.pc s)) ∧
  (∀ s (o : OpA2), Instr.WellFormed (.nchk o) →
    (¬((s.g o.a).toNat < 2 ^ 32 ∧ (s.g o.b).toNat < 2 ^ 32) → Traps (.nchk o) true 0x03 0x04 s.slot.pc s) ∧
    ((s.g o.a).toNat < 2 ^ 32 → (s.g o.b).toNat < 2 ^ 32 → legalModulus (fld s.core.f.modq 0 32) →
      (s.Free → (s.g o.d).toNat * (s.g o.a).toNat * (s.g o.b).toNat < (fld s.core.f.modq 0 32 - 1) / 2 →
        Runs (.nchk o) s (fun t => Advanced s t ∧ ScalarFrame 0 s t)) ∧
      ((fld s.core.f.modq 0 32 - 1) / 2 ≤ (s.g o.d).toNat * (s.g o.a).toNat * (s.g o.b).toNat →
        Traps (.nchk o) true 0x0D 0x00 s.slot.pc s)))

/-- R200: VCMUL multiplies points, a point being active by the mask bit of its real part; the formats are FP32, FP16 and BF16. -/
def ComplexProducts : Prop :=
  ∀ s i (o : OpV4) cj n, i.WellFormed → (i = .vcmul o ∧ cj = false ∨ i = .vcmulCj o ∧ cj = true) →
    (vtFmt s.slot.vtype = 0 ∨ 3 < vtFmt s.slot.vtype → Traps i true 0x01 0x08 s.slot.pc s) ∧
    (s.Quiet → 1 ≤ vtFmt s.slot.vtype → vtFmt s.slot.vtype ≤ 3 → LenIs s o.len n → lengthOf s o.len n % 2 = 0 →
      lengthOf s o.len n ≤ 512 →
      Runs i s (fun t => EngineFrame .vec i [o.d.toNat] [] [] [] [] o.len s t ∧ Advanced s t ∧
        (∀ e, e < vlmax (vtSew s.slot.vtype) → elem (t.vreg o.d.toNat) (vtSew s.slot.vtype) e =
          if e < lengthOf s o.len n ∧ (s.mreg o.msk.toNat).getLsbD (2 * (e / 2)) = true then
            (productComponent s o cj e).1 % 2 ^ vtSew s.slot.vtype
          else elem (s.vreg o.d.toNat) (vtSew s.slot.vtype) e) ∧
        ∀ k, k < 64 → (t.slot.status.getLsbD k = true ↔ s.slot.status.getLsbD k = true ∨ 41 ≤ k ∧ k < 48 ∧
          ∃ e, e < lengthOf s o.len n ∧ (s.mreg o.msk.toNat).getLsbD (2 * (e / 2)) = true ∧
            (productComponent s o cj e).2.testBit (k - 41) = true)))

end Sys2Proof.Machine

section
open Sys2Proof.Machine

/-- BFY on registers and BPASS over arrays or to a port (R183, R184; R181 to R187). -/
def Obligations.ButterfliesAndPasses : Prop :=
  Sys2Proof.Machine.ButterfliesOnRegisters ∧ Sys2Proof.Machine.PassesOverArrays

/-- Permutations, normalisation, twiddles; TXF is its stages in order, one per row of the table (R188 to R191; R192, R193). -/
def Obligations.ArraysMoveAndTransform : Prop :=
  Sys2Proof.Machine.ArraysAreMovedAndTwiddlesMade ∧ Sys2Proof.Machine.TransformsRunTheirStages

/-- Modular lanes with their residue count, NCRT, NMODSET, NCHK; complex products (R29 to R32, R195 to R199; R200). -/
def Obligations.ResiduesAndComplexProducts : Prop :=
  Sys2Proof.Machine.ResidueArithmetic ∧ Sys2Proof.Machine.ComplexProducts

end

namespace Sys2Proof.Machine

/-! ### Streams and graphs (R201 to R235, R305 to R311) -/

/-- The tokens that stand in the FIFO of a port, oldest first. -/
def tokensAt (s : State) (p : Nat) : List Token := (s.port p).fifo.flatMap (·.toks)
/-- The vector unit pushes tokens to a port, which has room for all of them (R203). -/
def pushedTo (p : Nat) : List Token → State → Option State
  | [], s => some s
  | t :: r, s => (s.pushVec p t).bind (pushedTo p r)
/-- n tokens are taken from a port, each of them checked (R204): the tokens and the state then. -/
def takenFrom (p : Nat) : Nat → State → Option (List Token × State)
  | 0, s => some ([], s)
  | n + 1, s =>
    match s.popChecked p with
    | .ok (some (t, u)) => (takenFrom p n u).map (fun r => (t :: r.1, r.2))
    | _ => none
/-- The count of a pop goes to the length queue that B names, if it names one (R230). -/
def counted (s : State) (b : BitVec 6) (n : Nat) : State :=
  if b.getLsbD 2 then
    s.modF (fun f => { f with lq := f.lq.setIfInBounds (b.toNat % 4) ((f.lq[b.toNat % 4]?.getD []) ++ [n])
                              occ := f.occ.setIfInBounds (b.toNat % 4) (f.occ[b.toNat % 4]?.getD 0 + 1) })
  else s
/-- The word that SPOPK writes for a token (R230). -/
def poppedWord (t : Token) : Nat := if t.kind < 4 then t.val else if t.kind = 4 then 0xFFFFFFFF else t.kind - 8

/-- The bindings by KIND (R226). -/
def bindKind : Instr → Option (Nat × OpG8)
  | .sbindVec o => some (1, o)
  | .sbindPat o => some (2, o)
  | .sbindNin o => some (3, o)
  | .sbindNout o => some (4, o)
  | .sbindNbr o => some (5, o)
  | .sbindRtr o => some (6, o)
  | .sbindBfy o => some (7, o)
  | .sbindArr o => some (8, o)
  | _ => none
/-- The fields of IMM32 of a binding: TARGET, DIR, RANK (R226). -/
def targetOf (o : OpG8) : Nat := o.imm.toNat / 16 % 65536
/-- See `targetOf`. -/
def dirOf (o : OpG8) : Nat := o.imm.toNat / 8 % 2
/-- See `targetOf`. -/
def rankOf (o : OpG8) : Nat := o.imm.toNat % 8
/-- What a binding finds (R226, R227): a port that is unbound, an end that is there and free, a pattern of the declared rank. -/
def BindReady (s : State) (kind : Nat) (o : OpG8) (pat : Option Pattern) : Prop :=
  (s.port o.d.toNat).kind = 0 ∧
  (kind = 5 → (nbrOf s.cl s.co (targetOf o)).isSome ∧ ∀ y ∈ s.core.st.port.toList, ¬(y.kind = 5 ∧ y.dir = dirOf o ∧ y.target = targetOf o)) ∧
  (kind = 6 → targetOf o / 128 % 64 < 40 ∧ targetOf o / 128 % 64 < s.nclus) ∧
  (kind = 2 → ∃ q, s.core.st.pat[targetOf o]? = some (some q) ∧ q.rk = rankOf o ∧ pat = some q) ∧ (kind ≠ 2 → pat = none)

/-- A graph as GSTART leaves it (R222): its ports bound, the first segment word of each segmented writer 0, its members fresh. -/
def startedGraph (s : State) : State :=
  let g := s.core.st.graph
  let s := g.named.foldl (fun s n => if (s.port n.1).kind = 0 then
    s.setPort n.1 { Port.unbound with kind := if n.2.2.1 then 4 else 3, dir := b2n n.2.2.1, rank := namedRank g n,
                                      target := 32 * n.2.2.2 + n.2.1, hi := s.hi } else s) s
  let s := g.members.foldl (fun s m => if cfgType m.2.cfg = 5 ∧ cfgMode m.2.cfg = 1 then
    s.bufWrite (cfgSpc m.2.cfg) (cfgOff2 m.2.cfg) 0 4 else s) s
  s.modGraph (fun h => { h with state := .running, fnode := 0, reported := false, hi := s.hi, rm := vtRm s.slot.vtype,
                                ranges := graphRanges g, ports := g.named.map (·.1),
                                nodes := h.nodes.map (fun n => if cfgG n.2.cfg then (n.1, n.2.start) else n) })
/-- What GSTART finds (R219, R222). -/
structure GraphReady (s : State) : Prop where
  idle : s.core.st.graph.state = .idle ∧ s.core.st.graph.members ≠ []
  closed : ∀ m ∈ s.core.st.graph.members, ∀ f ∈ feeders m.2.cfg, ∃ y ∈ s.core.st.graph.members, y.1 = f
  acyclic : peel 22 s.core.st.graph.members = []
  ports : hasTwice (s.core.st.graph.named.map (·.1)) = false ∧ ∀ n ∈ s.core.st.graph.named, portStarts s s.core.st.graph n = true
  holder : ∀ r ∈ graphRanges s.core.st.graph, s.core.notHolder r.spc r.lo (r.hi + 1 - r.lo) = false
  room : (graphRanges s.core.st.graph).length ≤ 64
/-- The graph stopped in its tracks (R224): its flags delivered, its running nodes frozen. -/
def frozenGraph (s : State) : State :=
  s.graphFlags.modGraph (fun g => { g with state := .frozen, nodes := g.nodes.map (fun n =>
    (n.1, if n.2.state = 2 then { n.2 with state := 3 } else n.2)) })

/-- A configuration word that stands at a location, and the node that it configures (R210, R221). -/
def wordThere (s : State) (spc : BitVec 3) (loc : Nat) : BitVec 256 :=
  BitVec.ofNat 256 (leNat ((List.range 32).map (fun k => byteOf s spc (loc + k))))

/-- A running node of a core's graph (R205): the core's state u, its number, type and contents. -/
structure NodeRuns (s : State) (cl core n ty : Nat) (u : State) (x : Node) : Prop where
  at_ : u = s.at_ cl core false
  node : look n u.core.st.graph.nodes = some x
  runs : x.state = 2 ∧ cfgG x.cfg = true ∧ cfgType x.cfg = ty ∧ x.cut = false
/-- The state after a firing that led to v: the node no longer stalls, and a graph whose members are all done finishes (R220). -/
def afterFiring (s : State) (n : Nat) (v : State) : State :=
  ((v.modNode n (fun y => { y with stalli := false, stallo := false })).checkFinish).at_ s.cl s.co s.hi
/-- A joiner's side has the head token given with its reference, from its links, not replayed (R214). -/
def SideHead (u : State) (n : Nat) (x : Node) (b : Bool) (h : Token × Token × Bool) : Prop := joinHead u n x b = .ok h

/-- R203, R207, R230, R231: SPUSHV and STOK push element tokens, SDONE a done, to a port whose other end is the vector unit; SEW is
32 for SPUSHV, else it traps. -/
def PushesAppendTokens : Prop :=
  (∀ s (o : OpV4), Instr.WellFormed (.spushv o) → vtSew s.slot.vtype ≠ 32 → Traps (.spushv o) true 0x01 0x08 s.slot.pc s) ∧
  (∀ s i d len n ts u, s.Quiet → i.WellFormed → LenIs s len n →
    ((∃ o : OpV4, i = .spushv o ∧ d = o.d.toNat ∧ len = o.len ∧ vtSew s.slot.vtype = 32 ∧
        ts = (activeBelow s o.msk (lengthOf s o.len n)).map (fun e => ⟨o.c.toNat, elem (s.vreg o.a.toNat) 32 e⟩)) ∨
     (∃ o : OpA2, i = .stok o ∧ d = o.d.toNat ∧ len = 0 ∧ ts = [⟨o.b.toNat, (s.g o.a).toNat % 2 ^ 32⟩]) ∨
     (∃ o : OpA2, i = .sdone o ∧ d = o.d.toNat ∧ len = 0 ∧ ts = [⟨4, 0⟩])) →
    s.vecPort d true = true → pushedTo d ts (s.beginVec .vec i) = some u →
    Runs i s (fun t => EngineFrame .vec i [] [] [] [] [] len u t ∧ Advanced s t ∧ t.slot.status = s.slot.status ∧
      tokensAt t d = tokensAt s d ++ ts.map Token.norm ∧ ∀ p, p ≠ d → tokensAt t p = tokensAt s p))

/-- R204, R230, R232: SPOPV takes elements up to a stop or done, SPOPK tokens of every kind up to a done, SPOPG one token; they
give the count to a length queue where B names one, and SPOPG the token to a g register. -/
def PopsTakeTokens : Prop :=
  (∀ s (o : OpV4) n k ts u, s.Quiet → Instr.WellFormed (.spopv o) → vtSew s.slot.vtype = 32 → LenIs s o.len n →
    (o.b.getLsbD 2 = true → s.core.f.occ[o.b.toNat % 4]?.getD 0 < 16) →
    s.vecPort o.d.toNat false = true → k ≤ lengthOf s o.len n →
    takenFrom o.d.toNat k (s.beginVec .vec (.spopv o)) = some (ts, u) → (∀ t ∈ ts, t.kind < 4) →
    (k = lengthOf s o.len n ∨ ∃ t, fifoHead (u.port o.d.toNat).fifo = some t ∧ (8 ≤ t.kind ∨ t.kind = 4)) →
    Runs (.spopv o) s (fun t => EngineFrame .vec (.spopv o) [o.a.toNat] [] [] [] [] o.len (counted u o.b k) t ∧ Advanced s t ∧
      t.slot.status = s.slot.status ∧
      ∀ e, e < 128 → elem (t.vreg o.a.toNat) 32 e =
        if e < k then (ts[e]?.getD ⟨0, 0⟩).val % 2 ^ 32 else elem (s.vreg o.a.toNat) 32 e)) ∧
  (∀ s (o : OpV4) n k ts u, s.Quiet → Instr.WellFormed (.spopk o) → vtSew s.slot.vtype = 32 → LenIs s o.len n →
    (o.b.getLsbD 2 = true → s.core.f.occ[o.b.toNat % 4]?.getD 0 < 16) →
    s.vecPort o.d.toNat false = true → k ≤ lengthOf s o.len n → lengthOf s o.len n ≤ 128 →
    takenFrom o.d.toNat k (s.beginVec .vec (.spopk o)) = some (ts, u) →
    (k = lengthOf s o.len n ∨ (u.port o.d.toNat).done = true) →
    Runs (.spopk o) s (fun t => EngineFrame .vec (.spopk o) [o.c.toNat] [o.a.toNat] [] [] [] o.len (counted u o.b k) t ∧
      Advanced s t ∧ t.slot.status = s.slot.status ∧
      MaskResult s t o.a.toNat k (fun e => (ts[e]?.getD ⟨0, 0⟩).kind < 4) ∧
      ∀ e, e < 128 → elem (t.vreg o.c.toNat) 32 e =
        if e < k then poppedWord (ts[e]?.getD ⟨0, 0⟩) % 2 ^ 32 else elem (s.vreg o.c.toNat) 32 e)) ∧
  (∀ s (o : OpA2) x u, s.Free → s.core.queue = [] → Instr.WellFormed (.spopg o) → s.vecPort o.a.toNat false = true →
    (s.beginVec .vec (.spopg o)).popChecked o.a.toNat = .ok (some (x, u)) →
    Runs (.spopg o) s (fun t => ReturnFrame .vec (.spopg o) o.d.toNat u t ∧ Advanced s t ∧
      WroteG o.d.toNat (word (x.kind * 2 ^ 32 + x.val)) t))

/-- R205, R211 to R216: a scanner emits the coordinates and references of a fibre and closes it; a joiner acts on the heads of its
sides as its table says; a repeater answers each element of its shape with its item. -/
def ScannersJoinersRepeatersFire : Prop :=
  (∀ s cl core n u x, NodeRuns s cl core n 0 u x →
    (∀ r p e v, x.fib = some (r, p, e) →
      u.emits n [(0, ⟨1, if cfgMode x.cfg % 2 = 1 then p else u.heldNum (cfgSpc x.cfg) (cfgOff2 x.cfg + 4 * p) 4⟩),
        (1, ⟨2, if cfgMode x.cfg % 2 = 1 then (r * cfgLim x.cfg + p) % 2 ^ 32 else p⟩)] = .ok v →
      Runs (.scannerFire cl core n) s (fun t =>
        t = afterFiring s n (v.modNode n (fun y => { y with fib := if p + 1 < e then some (r, p + 1, e) else none })))) ∧
    (∀ k v, x.fib = none → scanHead u n x = .ok ⟨8 + k, 0⟩ → u.emits n [(0, Token.stop (k + 1)), (1, Token.stop (k + 1))] = .ok v →
      Runs (.scannerFire cl core n) s (fun t =>
        t = afterFiring s n ((scanTake v n x).modNode n (fun y => { y with owed := false })))) ∧
    (∀ h v, x.fib = none → x.owed = true → scanHead u n x = .ok h → h.kind < 8 →
      u.emits n [(0, Token.stop 0), (1, Token.stop 0)] = .ok v →
      Runs (.scannerFire cl core n) s (fun t => t = afterFiring s n (v.modNode n (fun y => { y with owed := false })))) ∧
    (∀ v, x.fib = none → x.owed = false → scanHead u n x = .ok Token.done → u.emits n [(0, Token.done), (1, Token.done)] = .ok v →
      Runs (.scannerFire cl core n) s (fun t => t = afterFiring s n (scanTake v n x))) ∧
    (∀ h fib, x.fib = none → x.owed = false → scanHead u n x = .ok h → h.kind < 4 →
      (if h.kind = 3 then .ok none else fibreOf u x.cfg h.val) = .ok fib →
      Runs (.scannerFire cl core n) s (fun t =>
        t = afterFiring s n ((scanTake u n x).modNode n (fun y => { y with fib := fib, owed := true }))))) ∧
  (∀ s cl core n u x a b, NodeRuns s cl core n 1 u x → joinHead u n x false = .ok a → joinHead u n x true = .ok b →
    (∀ e, a.1.isElem = true → b.1.isElem = true →
      e = (if a.1.val < b.1.val then (joinTable x.cfg).1 else if a.1.val = b.1.val then (joinTable x.cfg).2.1 else (joinTable x.cfg).2.2.1) →
      (e / 4 % 4 = 2 → x.nA ≤ 256) → (e % 4 = 2 → x.nB ≤ 256) →
      ∀ v, (if e / 16 % 2 = 1 then
          (if a.1.val < b.1.val then u.emits n [(0, a.1), (1, a.2.1), (2, ⟨3, 0⟩)]
           else if a.1.val = b.1.val then u.emits n [(0, a.1), (1, a.2.1), (2, b.2.1)]
           else u.emits n [(0, b.1), (1, ⟨3, 0⟩), (2, b.2.1)]) else .ok u) = .ok v →
        Runs (.joinerFire cl core n) s (fun t =>
          t = afterFiring s n (joinAct (joinAct v n x false a (e / 4 % 4)) n x true b (e % 4)))) ∧
    (∀ v, a.1.isElem = true → b.1.isElem = false →
      (if (joinTable x.cfg).2.2.2 / 2 % 2 = 1 then u.emits n [(0, a.1), (1, a.2.1), (2, ⟨3, 0⟩)] else .ok u) = .ok v →
      Runs (.joinerFire cl core n) s (fun t => t = afterFiring s n (joinAdvance v n x false a))) ∧
    (∀ v, a.1.isElem = false → b.1.isElem = false → a.1.kind = b.1.kind →
      u.emits n [(0, a.1), (1, a.1), (2, a.1)] = .ok v →
      Runs (.joinerFire cl core n) s (fun t => t = afterFiring s n (joinAdvance (joinAdvance v n x false a) n x true b)))) ∧
  (∀ s cl core n u x h, NodeRuns s cl core n 2 u x → u.headAt n 1 = .ok h →
    (∀ i, x.item = none → u.headAt n 0 = .ok i → i.isElem = true → h.kind ≠ 4 →
      Runs (.repeaterFire cl core n) s (fun t =>
        t = afterFiring s n ((u.takeAt n 0).modNode n (fun y => { y with item := some i })))) ∧
    (∀ i v, x.item = some i → u.checkAt n 0 = .ok () → h.isElem = true → u.emits n [(0, i)] = .ok v →
      Runs (.repeaterFire cl core n) s (fun t => t = afterFiring s n (v.takeAt n 1))) ∧
    (∀ i v, x.item = some i → u.checkAt n 0 = .ok () → h.kind = 8 → u.emits n [(0, h)] = .ok v →
      Runs (.repeaterFire cl core n) s (fun t =>
        t = afterFiring s n ((v.takeAt n 1).modNode n (fun y => { y with item := none })))) ∧
    (∀ i j v, x.item = some i → 8 < h.kind → u.headAt n 0 = .ok j → j.kind + 1 = h.kind → u.emits n [(0, h)] = .ok v →
      Runs (.repeaterFire cl core n) s (fun t =>
        t = afterFiring s n (((v.takeAt n 1).takeAt n 0).modNode n (fun y => { y with item := none })))))

/-- R217 to R219: a reducer folds elements and gives its accumulator at a stop; a function node computes, and fetches from its
buffer in two steps; a writer stores elements and segment ends. -/
def ReducersFunctionsWritersFire : Prop :=
  (∀ s cl core n u x h, NodeRuns s cl core n 3 u x → u.headAt n 0 = .ok h →
    (h.isElem = true → Runs (.reducerFire cl core n) s (fun t => t = afterFiring s n ((u.takeAt n 0).modNode n (fun y =>
      { y with acc := (redOp (cfgMode x.cfg) (arithRm u.core.st.graph.rm) x.acc h.val).1
               flags := y.flags ||| (redOp (cfgMode x.cfg) (arithRm u.core.st.graph.rm) x.acc h.val).2 })))) ∧
    (∀ v, 8 ≤ h.kind → x.owed = false → u.emits n [(0, ⟨0, x.acc⟩)] = .ok v →
      Runs (.reducerFire cl core n) s (fun t => t = afterFiring s n
        (if h.kind = 8 ∧ cfgRank x.cfg ≠ 0 then (v.modNode n (fun y => { y with acc := y.const })).takeAt n 0
         else (v.modNode n (fun y => { y with acc := y.const })).modNode n (fun y => { y with owed := true })))) ∧
    (∀ v, h.kind = 4 → u.emits n [(0, Token.done)] = .ok v →
      Runs (.reducerFire cl core n) s (fun t => t = afterFiring s n (v.takeAt n 0)))) ∧
  (∀ s cl core n u x h, NodeRuns s cl core n 4 u x → x.fetch = none → u.headAt n 0 = .ok h →
    (∀ v, cfgMode x.cfg < 7 → 0 < cfgMode x.cfg → h.isElem = true →
      (match (fnOp (cfgMode x.cfg) (arithRm u.core.st.graph.rm) h.val x.const).1 with
       | some y => u.emits n [(0, ⟨0, y⟩)]
       | none => .ok u) = .ok v →
      Runs (.functionFire cl core n) s (fun t => t = afterFiring s n ((v.takeAt n 0).modNode n (fun y =>
        { y with flags := y.flags ||| (fnOp (cfgMode x.cfg) (arithRm u.core.st.graph.rm) h.val x.const).2 })))) ∧
    (∀ b v, 8 ≤ cfgMode x.cfg → h.isElem = true → u.headAt n 1 = .ok b → b.isElem = true →
      u.emits n [(0, ⟨0, (fnOp (cfgMode x.cfg) (arithRm u.core.st.graph.rm) h.val b.val).1.getD 0⟩)] = .ok v →
      Runs (.functionFire cl core n) s (fun t => t = afterFiring s n (((v.takeAt n 0).takeAt n 1).modNode n (fun y =>
        { y with flags := y.flags ||| (fnOp (cfgMode x.cfg) (arithRm u.core.st.graph.rm) h.val b.val).2 })))) ∧
    (∀ v, cfgMode x.cfg < 8 → h.isElem = false ∨ cfgMode x.cfg = 0 → u.emits n [(0, h)] = .ok v →
      Runs (.functionFire cl core n) s (fun t => t = afterFiring s n (v.takeAt n 0))) ∧
    (cfgMode x.cfg = 7 → h.kind = 2 → cfgOff1 x.cfg + 4 * h.val + 4 ≤ bufSize (cfgSpc x.cfg) →
      Runs (.functionFire cl core n) s (fun t =>
        t = afterFiring s n ((u.takeAt n 0).modNode n (fun y => { y with fetch := some h.val }))))) ∧
  (∀ s cl core n u x r v, NodeRuns s cl core n 4 u x → x.fetch = some r →
    u.emits n [(0, ⟨0, u.heldNum (cfgSpc x.cfg) (cfgOff1 x.cfg + 4 * r) 4⟩)] = .ok v →
    Runs (.fetchReply cl core n) s (fun t => t = afterFiring s n (v.modNode n (fun y => { y with fetch := none })))) ∧
  (∀ s cl core n u x h, NodeRuns s cl core n 5 u x → u.headAt n 0 = .ok h →
    (h.isElem = true → x.wn < cfgLim x.cfg → cfgOff1 x.cfg + 4 * x.wn + 4 ≤ bufSize (cfgSpc x.cfg) →
      Runs (.writerFire cl core n) s (fun t => t = afterFiring s n
        (((u.bufWrite (cfgSpc x.cfg) (cfgOff1 x.cfg + 4 * x.wn) h.val 4).takeAt n 0).modNode n (fun y =>
          { y with wn := y.wn + 1, count := min (2 ^ 24 - 1) (y.count + 1) })))) ∧
    (8 ≤ h.kind → cfgMode x.cfg = 1 → cfgOff2 x.cfg + 4 * (x.wf + 1) + 4 ≤ bufSize (cfgSpc x.cfg) →
      Runs (.writerFire cl core n) s (fun t => t = afterFiring s n
        (((u.bufWrite (cfgSpc x.cfg) (cfgOff2 x.cfg + 4 * (x.wf + 1)) x.wn 4).takeAt n 0).modNode n (fun y => { y with wf := y.wf + 1 })))) ∧
    (h.kind = 4 → Runs (.writerFire cl core n) s (fun t =>
      t = afterFiring s n ((u.takeAt n 0).modNode n (fun y => { y with done := true })))))

end Sys2Proof.Machine

section
open Sys2Proof.Machine

/-- SPUSHV, STOK and SDONE append tokens; SPOPV, SPOPK and SPOPG take them (R203, R207, R230, R231; R204, R230, R232). -/
def Obligations.TokensArePushedAndPopped : Prop :=
  Sys2Proof.Machine.PushesAppendTokens ∧ Sys2Proof.Machine.PopsTakeTokens

/-- R226 to R228, R231, R233: a binding gives an unbound port its end, direction, rank and pattern; SUNB empties a port that no
running graph names; SPAT, SRANK and RSTAGE set a pattern, a rank and a router stage. -/
def Obligations.PortsAreBoundAndSet : Prop :=
  (∀ s i (o : OpG8) kind pat, s.Quiet → i.WellFormed → bindKind i = some (kind, o) → BindReady s kind o pat →
    Runs i s (fun t => Advanced s t ∧ t.slot.status = s.slot.status ∧
      EngineFrame .seq i [] [] [] [] [] 0 ((s.setPort o.d.toNat
        { Port.unbound with kind := kind, dir := dirOf o, rank := rankOf o, target := targetOf o, hi := s.hi, ep := s.slot.ep,
                            bind := s.core.st.binds + 1, pat := pat, range := pat.map (fun q => patRange q (dirOf o)) }).modSt
        (fun x => { x with binds := x.binds + 1 })) t)) ∧
  (∀ s (o : OpG8), s.Quiet → Instr.WellFormed (.sunb o) →
    ((s.core.st.graph.state = .running ∨ s.core.st.graph.state = .frozen) → ∀ n ∈ s.core.st.graph.named, n.1 ≠ o.d.toNat) →
    Runs (.sunb o) s (fun t => Advanced s t ∧ t.slot.status = s.slot.status ∧
      EngineFrame .seq (.sunb o) [] [] [] [] [] 0 (s.unbind o.d.toNat) t)) ∧
  (∀ s (o : OpG8) p, s.Quiet → Instr.WellFormed (.spat o) → p = spatOf o (s.g o.a) (s.g o.b) (s.g o.c) →
    1 ≤ p.c0 → p.c0 ≤ 2 ^ 24 → 1 ≤ p.c1 → p.c1 ≤ 2 ^ 24 →
    p.base % 2 ^ p.esz = 0 → p.s0 % (2 ^ p.esz : Nat) = 0 → p.s1 % (2 ^ p.esz : Nat) = 0 →
    patInside p (if p.spc = 0 then 2 ^ 54 else bufSize p.spc) = true →
    Runs (.spat o) s (fun t => Advanced s t ∧ t.slot.status = s.slot.status ∧
      EngineFrame .seq (.spat o) [] [] [] [] [] 0
        (s.modSt (fun x => { x with pat := x.pat.setIfInBounds o.d.toNat (some p) })) t)) ∧
  (∀ s (o : OpA2), s.Quiet → Instr.WellFormed (.srank o) → (s.port o.d.toNat).kind ≠ 0 → (s.port o.d.toNat).passed = false →
    Runs (.srank o) s (fun t => Advanced s t ∧ t.slot.status = s.slot.status ∧
      EngineFrame .seq (.srank o) [] [] [] [] [] 0 (s.setPort o.d.toNat { s.port o.d.toNat with rank := o.b.toNat }) t)) ∧
  (∀ s (o : OpG8), s.Quiet → Instr.WellFormed (.rstage o) → (s.port o.c.toNat).kind = 6 → (s.port o.c.toNat).dir = 1 →
    Runs (.rstage o) s (fun t => Advanced s t ∧ t.slot.status = s.slot.status ∧
      EngineFrame .seq (.rstage o) [] [] [] [] [] 0 (s.setPort o.c.toNat
        { s.port o.c.toNat with stage := ⟨o.imm.toNat % 4, o.imm.toNat / 4 % 16, o.imm.toNat / 64 % 256, s.g o.a⟩ }) t))

/-- R220 to R225, R235: the graph-control forms: configuration from words in memory, start, stop, reset, wait and status. -/
def Obligations.GraphsAreConfiguredAndRun : Prop :=
  (∀ s i (o : OpG8) spc n all (loc : Nat → Nat) (ws : List (BitVec 256 × Nat)), s.Quiet → i.WellFormed → spc = o.imm.extractLsb' 0 3 →
    (i = .gcfg o ∧ n = o.imm.toNat / 8 % 32 ∧ all = true ∨ i = .gnode o ∧ n = 1 ∧ all = false) →
    (s.core.st.graph.state = .none ∨ s.core.st.graph.state = .idle) →
    (s.g o.a).toNat % 32 = 0 → (spc ≠ 0 → (s.g o.a).toNat + 32 * n ≤ bufSize spc.toNat) → (spc = 0 → (s.g o.a).toNat < 2 ^ 54) →
    (∀ k, k < n → Reaches s spc ((s.g o.a).toNat + 32 * k) 32 .rd (loc k) ∧ Readable s spc 32 (loc k)) →
    ws = (List.range n).map (fun k => (wordThere s spc (loc k), spc.toNat * 2 ^ 54 + ((s.g o.a).toNat + 32 * k))) →
    (∀ w ∈ ws, cfgBad w.1 = false) → hasTwice (ws.map (fun w => cfgNode w.1)) = false →
    Runs i s (fun t => Advanced s t ∧ SameBytes s t ∧ t.slot.status = s.slot.status ∧ t.slot.rfout = s.slot.rfout ∧
      MemFrame .seq i [] [] [] [] 0 (s.modGraph (fun g =>
        let h := { g with nodes := ws.foldl (fun l (w : BitVec 256 × Nat) => put (cfgNode w.1) (Node.ofWord w.1 w.2) l) (if all then [] else g.nodes)
                          reported := false }
        { h with state := if h.members = [] then .none else .idle })) t)) ∧
  (∀ s (o : OpG8), s.Quiet → Instr.WellFormed (.gstart o) → GraphReady s →
    Runs (.gstart o) s (fun t => Advanced s t ∧ t.slot.status = s.slot.status ∧
      EngineFrame .seq (.gstart o) [] [] [] [] [] 0 (startedGraph s) t)) ∧
  (∀ s i (o : OpG8), s.Quiet → i.WellFormed → (i = .gstop o ∨ i = .greset o) →
    ((s.core.st.graph.state = .none ∨ s.core.st.graph.state = .idle) →
      Runs i s (fun t => Advanced s t ∧ t.slot.status = s.slot.status ∧ EngineFrame .seq i [] [] [] [] [] 0 s t)) ∧
    (s.core.st.graph.state = .finished →
      Runs i s (fun t => Advanced s t ∧ t.slot.status = s.slot.status ∧
        EngineFrame .seq i [] [] [] [] [] 0 (s.tearDown false) t)) ∧
    (s.core.st.graph.state = .running → i = .greset o →
      Runs i s (fun t => Advanced s t ∧ EngineFrame .seq i [] [] [] [] [] 0 (s.graphFlags.tearDown false) t)) ∧
    (s.core.st.graph.state = .frozen → i = .greset o →
      Runs i s (fun t => Advanced s t ∧ EngineFrame .seq i [] [] [] [] [] 0 (s.tearDown true) t)) ∧
    (s.core.st.graph.state = .running → i = .gstop o →
      Runs i s (fun t => t.slot.run = .stopped ∧ t.core.st.graph = (frozenGraph s).core.st.graph ∧
        (fld t.slot.cause 0 8, fld t.slot.cause 8 8, flag t.slot.cause 30, fld t.slot.cause 48 16) =
          (0x0C, 0x03, true, s.core.qpos % 65536) ∧ SameBytes s t))) ∧
  (∀ s (o : OpG8), s.Free → s.core.queue = [] → Instr.WellFormed (.gwait o) → s.core.st.graph.state ≠ .running →
    Runs (.gwait o) s (fun t => ReturnFrame .seq (.gwait o) 0 s t ∧ Advanced s t)) ∧
  (∀ s (o : OpA2) v, s.Free → s.core.queue = [] → Instr.WellFormed (.gstat o) → s.statWord (s.g o.a).toNat = some v →
    Runs (.gstat o) s (fun t => ReturnFrame .seq (.gstat o) o.d.toNat s t ∧ Advanced s t ∧ WroteG o.d.toNat v t)) ∧
  (∀ s (o : OpA2), s.Free → s.core.queue = [] → Instr.WellFormed (.gquiet o) →
    Runs (.gquiet o) s (fun t => ReturnFrame .seq (.gquiet o) o.d.toNat s t ∧ Advanced s t ∧ WroteG o.d.toNat s.quietWord t))

/-- The firing rules of the six types of fibre nodes (R205, R211 to R216; R217 to R219). -/
def Obligations.NodesFire : Prop :=
  Sys2Proof.Machine.ScannersJoinersRepeatersFire ∧ Sys2Proof.Machine.ReducersFunctionsWritersFire

end

namespace Sys2Proof.Machine

/-! ### What moves tokens (R208, R227, R229, R305 to R311) -/

/-- The state of a core that an event of the table leaves, seen from where the machine stands. -/
def backFrom (s v : State) : State := v.at_ s.cl s.co s.hi
/-- The token that a reading pattern makes of a loaded value (R229). -/
def patternToken (q : Pattern) (x : Nat) : Token :=
  ⟨q.kind, if q.sx then encoded 32 ((BitVec.ofNat (8 * 2 ^ q.esz) x).toInt) else x⟩
/-- A pattern's port that has moved its element: the next position, and the phase after it (R229). -/
def patternStep (x : Port) (q : Pattern) : Port :=
  if x.i + 1 < q.c0 then { x with i := x.i + 1 }
  else { x with o := x.o + 1, i := 0,
                phase := if x.dir = 0 ∧ (q.c1 ≤ x.o + 1 ∨ q.rk = 1) then 1 else 0 }
/-- The tokens of an MDRAIN to a port (R176): 96 elements and a stop for each of 128 rows, the last stop of rank 1, or of the
port's rank before a done. -/
def drainedToken (s : State) (a rank : Nat) (fin : Bool) (k : Nat) : Token :=
  if 128 ≤ k / 97 then Token.done
  else if k % 97 < 96 then ⟨0, (drained s a 1 (96 * (k / 97) + k % 97)).1⟩
  else Token.stop (if k / 97 < 127 then 0 else if fin then rank else 1)

/-- R203, R208, R229, R296: a reading pattern emits its elements, stops and done one by one, as the slot that bound it sees memory,
here with no acquire of that slot since; a writing pattern stores the elements that it
takes. -/
def PatternsMoveElements : Prop :=
  (∀ s u cl core p x q, x = (s.at_ cl core false).port p → u = s.at_ cl core x.hi → x.ep = u.slot.ep → u.clus.preempt = false →
    x.kind = 2 → x.dir = 0 → x.pat = some q → u.portRoom p = true → p < 16 →
    (∀ spc loc, x.phase = 0 → q.spc = spc.toNat → Reaches u spc (x.patAddr q) (2 ^ q.esz) .rd loc → Readable u spc (2 ^ q.esz) loc →
      Runs (.patternRead cl core p) s (fun t => SameBytes u (t.at_ cl core x.hi) ∧ (t.cl, t.co, t.hi) = (s.cl, s.co, s.hi) ∧
        (t.at_ cl core false).core.st = ((u.pushPort p (patternToken q (leNat ((List.range (2 ^ q.esz)).map (fun k => byteOf u spc (loc + k)))))).setPort p
          (patternStep ((u.pushPort p (patternToken q (leNat ((List.range (2 ^ q.esz)).map (fun k => byteOf u spc (loc + k)))))).port p) q)).core.st ∧
        (t.at_ cl core false).core.f = u.core.f ∧ t.mem = s.mem)) ∧
    (x.phase = 1 →
      Runs (.patternRead cl core p) s (fun t => t = backFrom s (
        let v := u.pushPort p (Token.stop (if q.c1 ≤ x.o ∧ q.rk = 1 then 1 else 0))
        v.setPort p { v.port p with phase := if q.c1 ≤ x.o then 2 else 0 }))) ∧
    (x.phase = 2 →
      Runs (.patternRead cl core p) s (fun t => t = backFrom s (
        let v := u.pushPort p Token.done
        v.setPort p { v.port p with phase := 3 })))) ∧
  (∀ s u v cl core p x q tok g, u = s.at_ cl core false → x = u.port p → x.kind = 2 → x.dir = 1 → x.phase = 0 → p < 16 →
    x.pat = some q → fifoHead x.fifo = some tok → grammarCheck x.gram x.rank (fun _ => true) tok = .ok g →
    u.popPort p = some (tok, v) →
    (tok.kind ≥ 4 → Runs (.patternWrite cl core p) s (fun t =>
      t = backFrom s (v.setPort p { v.port p with gram := g, phase := if tok.kind = 4 then 3 else 0 }))) ∧
    (∀ spc loc, tok.kind < 4 → x.o < q.c1 → q.spc = spc.toNat → Reaches u spc (x.patAddr q) (2 ^ q.esz) .wr loc →
      (∀ b, (u.core.buf b).wf = true) →
      Runs (.patternWrite cl core p) s (fun t => (t.cl, t.co, t.hi) = (s.cl, s.co, s.hi) ∧
        (t.at_ cl core false).core.st = (v.setPort p (patternStep { v.port p with gram := g } q)).core.st ∧
        (∀ a, byteOf (t.at_ cl core false) spc a = if loc ≤ a ∧ a < loc + 2 ^ q.esz then BitVec.ofNat 8 (tok.val / 256 ^ (a - loc))
          else byteOf u spc a) ∧
        (∀ b a, b ≠ spc → byteOf (t.at_ cl core false) b a = byteOf u b a) ∧ t.mem = s.mem)))

/-- R208, R227, R233, R305 to R310: a flit leaves its port for the neighbour's link, or for a router's queue, comes in from either,
which owes its credit from then on, and its credit returns. -/
def FlitsTravel : Prop :=
  (∀ s u cl core link k c l p f x far, u = s.at_ cl core false → nbrOf cl core link = some (k, c, l) →
    u.findPort (fun y => y.kind == 5 && y.dir == 1 && y.target == link) = some p → (u.port p).send = some (f, x) →
    far = u.coreAt k c → l < 4 → (far.st.link[l]?.getD []).length < 2 →
    Runs (.linkFlit cl core link) s (fun t => t = backFrom s ((u.setPort p x).setCoreAt k c
      { far with st := { far.st with link := far.st.link.setIfInBounds l ((far.st.link[l]?.getD []) ++ [f]) } }))) ∧
  (∀ s u cl index p f x n v, index < 128 → u = s.at_ cl (index / 16) false → p = index % 16 → (u.port p).kind = 6 → (u.port p).dir = 1 →
    (u.port p).send = some (f, x) →
    n = (⟨f, cl, index / 16, p, (u.port p).bind, (u.port p).target / 128 % 64, (u.port p).target / 16 % 8, (u.port p).target % 16, cl, false,
      (u.port p).stage⟩ : NetFlit) →
    ((u.port p).stage.mode ≠ 2 ∨ f.key = none) → u.enterRouter n = some v →
    Runs (.routerFlit cl index) s (fun t => t = backFrom s (v.setPort p x))) ∧
  (∀ s cl index n v, 128 ≤ index → s.bd.net[index - 128]? = some n →
    (∀ e ∈ s.bd.net.take (index - 128), e.sameQueue n = false) → n.at_ ≠ n.dCl → nextRouter n.at_ n.dCl = cl →
    ({ s with bd := { s.bd with net := s.bd.net.eraseIdx (index - 128) } } : State).enterRouter { n with at_ := cl } = some v →
    Runs (.routerFlit cl index) s (fun t => t = v.bumpRouter n.at_ 0 1)) ∧
  (∀ s u cl core p f r, u = s.at_ cl core false → (u.port p).kind = 5 → (u.port p).dir = 0 →
    u.core.st.link[(u.port p).target]? = some (f :: r) → (u.port p).fifo.length < 8 →
    Runs (.flitArrive cl core p) s (fun t => t = backFrom s ((u.setPort p { u.port p with fifo := (u.port p).fifo ++ [f] }).modSt
      (fun y => { y with link := y.link.setIfInBounds (u.port p).target r, owed := y.owed ++ [(f.src, f.n)] })))) ∧
  (∀ s u cl core p n k, u = s.at_ cl core false → (u.port p).kind = 6 → (u.port p).dir = 0 →
    u.bd.net[k]? = some n → n.at_ = cl → n.dCl = cl → n.dCore = core → n.dPort = p → n.stage.mode ≠ 3 →
    (u.port p).target = 128 * n.sCl + 16 * n.sCore + n.sPort → (u.port p).fifo.length < 8 →
    (∀ j e, j < k → u.bd.net[j]? = some e → e.dPort ≠ p ∨ e.at_ ≠ cl ∨ e.dCl ≠ cl ∨ e.stage.mode ≠ 3 ∧ e.dCore ≠ core) →
    Runs (.flitArrive cl core p) s (fun t => t = backFrom s
      (((({ u with bd := { u.bd with net := u.bd.net.eraseIdx k } } : State).setPort p
        { u.port p with fifo := (u.port p).fifo ++ [n.flit] }).modSt
        (fun y => { y with owed := y.owed ++ [(n.flit.src, n.flit.n)] })).bumpRouter cl 0 1))) ∧
  (∀ s u cl core, u = s.at_ cl core false → Runs (.slotCreditReturn cl core) s (fun t => t = backFrom s
    (u.modSt (fun x => { x with owed := x.owed.drop 1 }))))

/-- R165, R176: MDRAIN to a port sends what its FIFO takes and waits with the rest; when the FIFO has been emptied, the matrix channel
goes on with it, and after its last token it clears the tile under Z and retires. -/
def DrainsToPorts : Prop :=
  (∀ s (o : OpG8) p tok, s.Quiet → Instr.WellFormed (.mdrainStream o) → fld o.imm 0 4 = 1 → ChainFits s 1 →
    p = o.c.toNat → (s.port p).kind = 8 → (s.port p).dir = 1 → 1 ≤ (s.port p).rank → (s.port p).fifo = [] →
    vtRm s.slot.vtype ≠ 4 → tok = drainedToken s o.a.toNat (s.port p).rank (o.imm.getLsbD 9) →
    Runs (.mdrainStream o) s (fun t => Advanced s t ∧ SameBytes s t ∧
      t.core.st = (sentTo s p ((List.range 128).map tok)).core.st ∧ t.core.f = s.core.f ∧
      ∃ c : Cmd, t.core.queue = [c] ∧ c.ins = .mdrainStream o ∧ c.disp = true ∧ c.done = false ∧ c.resume = 128 ∧ c.qpos = s.core.qpos ∧
        c.tile = some (s.areg o.a.toNat) ∧ c.prog = capturedChain s ∧ c.vtype = s.slot.vtype)) ∧
  (∀ s u cl core (o : OpG8) (c : Cmd) p tok tile m, u = s.at_ cl core false → u.clus.preempt = false → u.core.queue = [c] →
    c.ins = .mdrainStream o → c.eng = .mat → c.disp = true → c.done = false → c.faulted = false → c.held = false → c.paused = false → c.hi = false →
    c.ep = u.slot.ep → c.tile = some tile → c.prog = [] → vtRm c.vtype ≠ 4 → c.flags = 0 → c.mrs = 0 →
    m = 12416 + (if o.imm.getLsbD 9 then 1 else 0) → c.resume ≤ m → m ≤ c.resume + 128 →
    fld o.imm 0 4 = 1 → p = o.c.toNat → p < 16 → (u.port p).kind = 8 → (u.port p).dir = 1 → 1 ≤ (u.port p).rank → (u.port p).fifo = [] →
    tok = (fun k => if 128 ≤ k / 97 then Token.done
      else if k % 97 < 96 then ⟨0, (fround (fmtOf 1) (vtRm c.vtype) (vtSat c.vtype) 0 (fval (fmtOf 1) (elem tile 32 (96 * (k / 97) + k % 97)))).1⟩
      else Token.stop (if k / 97 < 127 then 0 else if o.imm.getLsbD 9 then (u.port p).rank else 1)) →
    Runs (.commandDispatch cl core 1) s (fun t => (t.cl, t.co, t.hi) = (s.cl, s.co, s.hi) ∧ (t.at_ cl core false).core.queue = [] ∧
      (t.at_ cl core false).core.st = (sentTo u p ((List.range (m - c.resume)).map (fun k => tok (c.resume + k)))).core.st ∧
      (t.at_ cl core false).areg o.a.toNat = (if o.imm.getLsbD 8 then 0 else u.areg o.a.toNat) ∧
      (∀ n, n ≠ o.a.toNat → (t.at_ cl core false).areg n = u.areg n) ∧
      (t.at_ cl core false).core.f = { u.core.f with a := (t.at_ cl core false).core.f.a } ∧ t.mem = s.mem))

end Sys2Proof.Machine

section
open Sys2Proof.Machine

/-- Pattern engines read and write memory element by element; flits move over links and routers (R203, R208, R229; R208, R227,
R233, R305 to R310). -/
def Obligations.PatternsMoveElementsAndFlitsTravel : Prop :=
  Sys2Proof.Machine.PatternsMoveElements ∧ Sys2Proof.Machine.FlitsTravel

end

namespace Sys2Proof.Machine

/-! ### Copies, handles, barriers, phases and gangs (R236 to R262, R277) -/

/-- A copy as it is committed (R66, R246). -/
def copyEntry (s : State) (i : Instr) (o : OpG8) : Cmd :=
  ({ eng := .copy, ins := i, lens := [o.len], ga := s.g o.a, gb := s.g o.b, gc := s.g o.c } : Ticket).entry s
/-- The copy as its dispatch fixes it: n elements, what it has captured, nothing landed. -/
def startedCopy (s : State) (i : Instr) (o : OpG8) (n : Nat) (prog : List Nat) : Cmd :=
  { copyEntry s i o with prog := prog, tr := (n, 0, 0, 0) }
/-- The checks that a copy of n elements meets at commit and at dispatch (R246, R247, R251 to R253). -/
structure CopyFits (s : State) (i : Instr) (k : Nat) (o : OpG8) (n : Nat) : Prop where
  shape : match k with
    | 0 => fld (s.g o.c) 0 20 ≠ 0
    | 1 => fld (s.g o.c) 8 12 ≠ 0 ∧ fld (s.g o.c) 2 6 = 0
    | _ => fld (s.g o.c) 0 20 ≠ 0 ∧ fld (s.g o.c) 42 22 ≠ 0 ∧ n ≤ 128
  low : (o.imm.getLsbD 6 = true ∨ fld o.imm 0 3 ≠ 0 ∨ (s.g o.a).toNat < 2 ^ 54) ∧
    (o.imm.getLsbD 7 = true ∨ fld o.imm 3 3 ≠ 0 ∨ (s.g o.b).toNat < 2 ^ 54)
  commit : if o.len = 0 then s.copyBounds k o (copyEntry s i o) s.slot.vl 0 0 false = .ok ()
    else k ≠ 1 ∨ fld (s.g o.c) 20 22 = 0 ∨ fld (s.g o.c) 8 12 * 2 ^ fld (s.g o.c) 0 2 ≤ fld (s.g o.c) 20 22
  handle : (o.imm.getLsbD 6 = true ∨ o.imm.getLsbD 7 = true) → (s.core.handle o.d.toNat).buf ≠ 0 ∧ (s.core.handle o.d.toNat).buf < 4 ∧
    (s.core.handle o.d.toNat).held = true
  dispatch : s.copyBounds k o (copyEntry s i o) n 0 0 true = .ok ()
  ready : (s.copyState o.d.toNat).ready = true
  home : ∀ h, (s.core.handle o.d.toNat).home = some h → h.2 < 32

/-- The byte at an offset of a side of a copy: of device memory as the thread sees it, or of a buffer of a core of the cluster. -/
def sideByte (s : State) (x : Side) (loc : Nat → Nat) (a : Nat) : Byte :=
  if x.spc = 0 then s.seen (loc (x.base + a)) else ((s.coreAt s.cl x.co).buf x.spc).get (x.base + a)
/-- A device side of a copy whose used offsets have translations held, to local memory, byte after byte within a page. -/
def SidePlaced (s : State) (x : Side) (acc : Acc) (loc : Nat → Nat) (used : Nat → Prop) : Prop :=
  x.spc = 0 → ∀ a, used a → x.base + a < 2 ^ 54 ∧ s.xlate (x.base + a) acc .other = .ok (.mem (loc (x.base + a)), s) ∧
    loc (x.base + a) < peerBase ∧
    (used (a + 1) → (x.base + a + 1) % 65536 ≠ 0 → loc (x.base + a + 1) = loc (x.base + a) + 1)
/-- Every buffer of every core of the cluster is in canonical form. -/
def BuffersWf (s : State) : Prop := ∀ co spc, ((s.coreAt s.cl co).buf spc).wf = true
/-- A copy on handle d leaves all else as it was: the registers, streams and control of its core but the event latches; every other
handle; every other core but the handle's home core. -/
structure CopyFrame (d : Nat) (len : BitVec 3) (s t : State) : Prop where
  files : t.core.f.v = s.core.f.v ∧ t.core.f.m = s.core.f.m ∧ t.core.f.a = s.core.f.a ∧ t.core.f.k = s.core.f.k ∧ t.core.f.w = s.core.f.w ∧
    t.core.f.modq = s.core.f.modq ∧ ∀ n, n + 4 ≠ len.toNat → t.core.f.lq[n]? = s.core.f.lq[n]? ∧ t.core.f.occ[n]? = s.core.f.occ[n]?
  core : t.core.queue = [] ∧ t.core.qpos = (s.core.qpos + 1) % 65536 ∧ t.core.st = s.core.st ∧ t.core.ctxid = s.core.ctxid ∧
    t.core.errcnt = s.core.errcnt ∧ t.core.errmark = s.core.errmark ∧ t.core.rndseed = s.core.rndseed ∧ t.core.trace = s.core.trace
  slot : t.slot = { s.slot with pc := t.slot.pc, loops := t.slot.loops, since := none, behind := none, popAt := none, view := t.slot.view,
                                past := t.slot.past, latch := true }
  other : t.core.slot (!s.hi) = { s.core.slot (!s.hi) with view := (t.core.slot (!s.hi)).view, past := (t.core.slot (!s.hi)).past, latch := true }
  handles : ∀ n, n ≠ d → (s.core.handle d).home ≠ some (s.co, n) → t.core.handle n = s.core.handle n
  cores : ∀ k, k ≠ 8 * s.cl + s.co → (∀ h, (s.core.handle d).home = some h → k ≠ 8 * s.cl + h.1) → look k t.cores = look k s.cores
  clusters : ∀ k, t.clusAt k = s.clusAt k
  mem : t.mem = s.mem ∧ t.hub = s.hub ∧ t.bd = s.bd ∧ t.ex = s.ex ∧ t.xl = s.xl ∧ t.time = s.time

/-- Where a barrier object lies that an address word names: a buffer of a core of the cluster, or a location (R256). -/
def objectAt (s : State) (w : Word) (loc : Nat) : Nat :=
  if w.getLsbD 63 then ((s.coreAt s.cl (fld w 21 3)).buf (fld w 19 2)).read (fld w 0 19) 16 else s.mem.read loc 16
/-- The home of a location behind all that the core has sent to its line, with what waits there for the line performed (R337,
R338). -/
def reached (s : State) (loc : Nat) : State := ((s.settle (loc / 64)).lineHome loc).fillLine (loc / 64)
/-- The line of a location of local memory has or finds an entry of its slice's combining store (R338). -/
def EntryFor (s : State) (loc : Nat) : Prop :=
  loc < peerBase → ((reached s loc).bd.entry (loc / 64) true s.time).isSome = true
/-- A barrier object updated; in device memory the update is performed at its home, whose line takes an entry of the combining
store (R250, R256, R336, R338), and the core's later loads see it (R300). -/
def objectUpdated (s : State) (w : Word) (loc : Nat) (f : Nat → Nat) : State :=
  if w.getLsbD 63 then s.barBuf (fld w 21 3) (fld w 19 2) (fld w 0 19) f
  else
    let h := reached s loc
    let new := barSettle (f (h.mem.read loc 16))
    ({ h with mem := h.mem.write loc new 16,
              bd := if peerBase ≤ loc then h.bd else (h.bd.entry (loc / 64) true s.time).getD h.bd }).noteOwn loc new 16
/-- An address word that the checks admit, with its location when it names device memory (R256, R392). -/
def ObjectReady (s : State) (w : Word) (acc : Acc) (loc : Nat) : Prop :=
  w.toNat % 16 = 0 ∧
    (if w.getLsbD 63 then fld w 24 39 = 0 ∧ fld w 19 2 ≠ 0 ∧ fld w 0 19 + 16 ≤ bufSize (fld w 19 2)
     else w.toNat < 2 ^ 54 ∧ s.xlate w.toNat acc .other = .ok (.mem loc, s) ∧
       (loc < peerBase ∨ s.peerAdmits loc 16 (if acc = .rd then 0 else 2) = true))
/-- The rule of every update: with no arrival and no byte pending the phase bit turns and the arrivals start again (R256). -/
def settled (x : Nat) : Nat :=
  if x / 2 ^ 80 % 65536 = 0 ∧ x / 2 ^ 32 % 2 ^ 32 = 0 then
    x - x / 2 ^ 80 % 65536 * 2 ^ 80 + x / 2 ^ 96 % 65536 * 2 ^ 80 + (if x.testBit 127 then 0 else 2 ^ 127) - (if x.testBit 127 then 2 ^ 127 else 0)
  else x
/-- A barrier object with n arrivals expected. -/
def freshObject (scope n : Nat) : Nat := scope % 8 * 2 ^ 124 + n * 2 ^ 96 + n * 2 ^ 80
/-- n more bytes expected, modulo 2^32 (R257). -/
def expecting (n x : Nat) : Nat := x - x / 2 ^ 32 % 2 ^ 32 * 2 ^ 32 + (x / 2 ^ 32 % 2 ^ 32 + n) % 2 ^ 32 * 2 ^ 32
/-- k arrivals; a surplus leaves none pending and sets OVR (R258). -/
def arrivedBy (k x : Nat) : Nat :=
  let r := x / 2 ^ 80 % 65536
  if r < k then x - r * 2 ^ 80 + (if x.testBit 123 then 0 else 2 ^ 123) else x - k * 2 ^ 80

/-- What PHASE does before it looks at the errors (R262). -/
def phased (s : State) (scope : Nat) : State :=
  let t := (s.release scope).acquire
  if scope = 0 then t.modSlot (fun x => { x with lines := [], badLines := [] }) else t

/-- A gang word that names the core (R259). -/
def gangLegal (s : State) (w : Word) : Prop := 1 ≤ fld w 8 10 ∧ fld w 8 10 ≤ 512 ∧ fld w 18 46 = 0 ∧ w.getLsbD s.co = true
/-- A slot that has joined: its GANG register names the members, its rank and GVL (R64, R259). -/
def joined (s : State) (w : Word) : State := s.modSlot (fun x => { x with gang := gangReg w s.co, strips := 0 })

/-- R240, R246 to R253: CPY, CPYT and CPYG move every element of their source to its place; of CPYG an index outside the table gives
the fill byte. The handle, which carries no barrier here, turns full, or free where it was the source. -/
def CopiesMoveTheirElements : Prop :=
  ∀ s i k (o : OpG8) n m c x y (loc : Nat → Nat) (from_ to_ : Nat → Prop), s.Quiet → i.WellFormed →
    (i = .cpy o ∧ k = 0 ∨ i = .cpyt o ∧ k = 1 ∨ i = .cpyg o ∧ k = 2) →
    LenIs s o.len m → n = lengthOf s o.len m → CopyFits s i k o n → BuffersWf s → (s.core.handle o.d.toNat).bar = false →
    c = startedCopy s i o n (if k = 2 then (List.range n).map (fun e => elem (s.vreg (fld o.imm 8 6)) 32 e) else []) →
    x = s.srcSide o c → y = s.dstSide o c →
    from_ = (fun a => ∃ e, e < n ∧ ∃ p ∈ copyPieces k c e, ∃ b, p.1 = some b ∧ b ≤ a ∧ a < b + p.2.2) →
    to_ = (fun a => ∃ e, e < n ∧ ∃ p ∈ copyPieces k c e, p.2.1 ≤ a ∧ a < p.2.1 + p.2.2) →
    SidePlaced s x .rd loc from_ → SidePlaced s y .wr loc to_ →
    (∀ v w, (x.spc = 0 ∧ (∃ a, from_ a ∧ v = x.base + a) ∨ y.spc = 0 ∧ ∃ a, to_ a ∧ v = y.base + a) →
      (y.spc = 0 ∧ ∃ b, to_ b ∧ w = y.base + b) → loc v = loc w → v = w) →
    Runs i s (fun t => Advanced s t ∧ CopyFrame o.d.toNat o.len s t ∧
      (∀ e, e < n → ∀ p ∈ copyPieces k c e, ∀ j, j < p.2.2 → sideByte t y loc (p.2.1 + j) =
        match p.1 with
        | some a => sideByte s x loc (a + j)
        | none => BitVec.ofNat 8 (fld o.imm 24 8)) ∧
      (∀ co spc a, ¬(spc = y.spc ∧ co = y.co ∧ ∃ b, to_ b ∧ a = y.base + b) →
        ((t.coreAt s.cl co).buf spc).get a = ((s.coreAt s.cl co).buf spc).get a) ∧
      (∀ l, ¬(y.spc = 0 ∧ ∃ b, to_ b ∧ l = loc (y.base + b)) → t.seen l = s.seen l) ∧
      t.copyState o.d.toNat = { s.copyState o.d.toNat with
        state := if o.imm.getLsbD 6 then 0 else 2, expect := n, landed := n,
        cstat := if k = 2 ∧ ∃ e, e < n ∧ fld (s.g o.c) 42 22 ≤ elem (s.vreg (fld o.imm 8 6)) 32 e then 1 else 0 })

/-- R254, R255: CPYZ between buffers checks its block, decodes it, writes as much as CAP admits and RESULT, and the handle carries the
status. -/
def BlocksAreDecodedByCpyz : Prop :=
  ∀ s (o : OpG8) c x y w block dec bad st, s.Quiet → Instr.WellFormed (.cpyz o) → o.len = 0 → BuffersWf s → (s.copyState o.d.toNat).ready = true →
    (∀ h, (s.core.handle o.d.toNat).home = some h → h.2 < 32) → (s.core.handle o.d.toNat).bar = false → o.imm.getLsbD 6 = false → o.imm.getLsbD 7 = false → fld o.imm 0 3 ≠ 0 → fld o.imm 3 3 ≠ 0 →
    fld o.imm 14 3 ≠ 0 → (s.g o.c).toNat % 32 = 0 → (s.g o.c).toNat + 32 ≤ bufSize (fld o.imm 14 3) →
    s.core.notHolder (fld o.imm 14 3) (s.g o.c).toNat 32 = false →
    w = (fun k => s.heldNum (fld o.imm 14 3) ((s.g o.c).toNat + 4 * k) 4) →
    1 ≤ w 0 → w 0 ≤ 4194304 → 1 ≤ w 1 → w 1 ≤ 4194304 → 1 ≤ w 3 → w 3 ≤ 3 → w 6 = 0 → w 7 = 0 →
    c = startedCopy s (.cpyz o) o 1 [w 0, w 1, w 2, w 3] → x = s.srcSide o c → y = s.dstSide o c →
    s.copyBounds 3 o (copyEntry s (.cpyz o) o) 1 (w 0) (w 1) true = .ok () →
    ((s.g o.c).toNat + 24 ≤ y.base ∨ y.base + w 1 ≤ (s.g o.c).toNat + 16 ∨ y.spc ≠ fld o.imm 14 3) →
    block = (List.range (w 0)).map (fun j => s.held x.spc (x.base + j)) →
    bad = (decide (2 ≤ w 3) && decide (crc32c block ≠ w 2)) → dec = (if w 3 % 2 = 1 then lz4 block else (block, false)) →
    st = (if bad = true then 2 else max (if dec.2 then 4 else 0) (if w 1 < dec.1.length then 3 else 0)) →
    Runs (.cpyz o) s (fun t => Advanced s t ∧ CopyFrame o.d.toNat 0 s t ∧
      (∀ j, j < w 1 → t.held y.spc (y.base + j) =
        if bad = false ∧ j < dec.1.length then dec.1[j]?.getD 0 else s.held y.spc (y.base + j)) ∧
      t.heldNum (fld o.imm 14 3) ((s.g o.c).toNat + 16) 8 = (if bad = true then 0 else dec.1.length) * 2 ^ 32 + st ∧
      (∀ b a, ¬(b = y.spc ∧ y.base ≤ a ∧ a < y.base + w 1) → ¬(b = fld o.imm 14 3 ∧ (s.g o.c).toNat + 16 ≤ a ∧ a < (s.g o.c).toNat + 24) →
        t.held b a = s.held b a) ∧ (∀ l, t.seen l = s.seen l) ∧
      t.copyState o.d.toNat = { s.copyState o.d.toNat with state := 2, expect := 1, landed := 1, cstat := st } ∧
      t.core.copyChk = s.core.copyChk + (if bad = true then 1 else 0) ∧
      t.core.copyOvf = s.core.copyOvf + (if bad = false ∧ w 1 < dec.1.length then 1 else 0))

/-- R240, R248, R250: one element of a CPY between buffers of a core lands out of turn, LANDED is the count of leading elements that
have landed, and the barrier of the handle is debited its bytes; when all have landed the copy completes. -/
def CopyElementsLandInAnyOrder : Prop :=
  (∀ s u cl core q e (o : OpG8) (c : Cmd) g, u = s.at_ cl core false → u.core.queue = [c] → c.qpos = q → c.hi = false → c.ins = .cpy o →
    c.disp = true → c.done = false → c.faulted = false → c.held = false → 0 < c.resume → e < c.cpCount → c.cpLanded e = false → Instr.WellFormed (.cpy o) →
    o.imm.getLsbD 6 = false → o.imm.getLsbD 7 = false → fld o.imm 0 3 ≠ 0 → fld o.imm 3 3 ≠ 0 → g = copyGeo 0 c.gc c.cpCount → 0 < g.1 →
    (u.core.handle o.d.toNat).home = none → ((u.core.handle o.d.toNat).bar = true → fld o.imm 3 3 ≠ 3) →
    (u.core.buf (fld o.imm 3 3)).wf = true → u.core.c.wf = true →
    Runs (.copyElementLand cl core q e) s (fun t => ∃ z : Cmd, (t.cl, t.co, t.hi) = (s.cl, s.co, s.hi) ∧
      (t.at_ cl core false).core.queue = [z] ∧ z.ins = .cpy o ∧ z.done = false ∧ (∀ j, z.cpLanded j = (c.cpLanded j || j == e)) ∧
      (∀ a, (t.at_ cl core false).held (fld o.imm 3 3) a =
        if c.gb.toNat + e * g.2.2.1 ≤ a ∧ a < c.gb.toNat + e * g.2.2.1 + g.1 then
          u.held (fld o.imm 0 3) (c.ga.toNat + e * g.2.1 + (a - (c.gb.toNat + e * g.2.2.1)))
        else u.held (fld o.imm 3 3) a) ∧
      ((t.at_ cl core false).core.handle o.d.toNat).landed = z.cpLead ∧
      ((u.core.handle o.d.toNat).bar = true →
        (t.at_ cl core false).core.c.read (u.core.handle o.d.toNat).boff 16 =
          settled (expecting (2 ^ 32 - g.1) (u.core.c.read (u.core.handle o.d.toNat).boff 16)) % 2 ^ 128) ∧
      t.mem = s.mem ∧ (t.at_ cl core false).core.f = u.core.f)) ∧
  (∀ s u cl core q k (o : OpG8) (c : Cmd), u = s.at_ cl core false → u.core.queue = [c] → c.qpos = q → c.hi = false →
    copyKind c.ins = some (k, o) → c.eng = .copy → c.under = true → 0 < c.resume → c.cpNext = none →
    (u.core.handle o.d.toNat).home = none → (u.core.handle o.d.toNat).bar = false → o.d.toNat < 32 →
    Runs (.copyComplete cl core q) s (fun t => (t.cl, t.co, t.hi) = (s.cl, s.co, s.hi) ∧ (t.at_ cl core false).core.queue = [] ∧
      (t.at_ cl core false).core.handle o.d.toNat = { u.core.handle o.d.toNat with
        state := if (u.core.handle o.d.toNat).state = 3 then 0 else 2, landed := (u.core.handle o.d.toNat).expect, cstat := c.cpStat } ∧
      (∀ n, n ≠ o.d.toNat → (t.at_ cl core false).core.handle n = u.core.handle n) ∧ (t.at_ cl core false).core.f = u.core.f ∧
      (t.at_ cl core false).slot.latch = true ∧ t.mem = s.mem))

/-- R261, R262: PHASE releases and acquires at its scope, at core scope drops the fetched lines, and stops on new errors under ERRPOL;
FENCE.E and NMFENCE pass when nothing that they wait for is left. -/
def PhasesAndFences : Prop :=
  (∀ s (o : BitVec 3), s.Free → Instr.WellFormed (.phase o) → (∀ c ∈ s.core.queue, c.hi = s.hi → c.done = true ∨ s.transfers c = false) →
    (s.core.errmark = s.core.errcnt ∨ s.slot.status.getLsbD 9 = false →
      Runs (.phase o) s (fun t => Advanced s t ∧
        ScalarFrame 0 ((phased s o.toNat).modCore (fun c => { c with errmark := c.errcnt })) t)) ∧
    (s.core.errmark ≠ s.core.errcnt → s.slot.status.getLsbD 9 = true →
      Runs (.phase o) s (fun t => t = ((phased s o.toNat).modCore (fun c => { c with errmark := c.errcnt })).takeTrap
        { code := 0x11, sub := 0, epc := some s.slot.npc, d0 := s.core.errcnt, d1 := s.core.errmark }))) ∧
  (∀ s, s.Free → s.older = [] → Runs .fenceE s (fun t => Advanced s t ∧ ScalarFrame 0 s t)) ∧
  (∀ s, s.Free → s.slot.rfout = 0 → (∀ c ∈ s.core.queue, c.hi = s.hi → c.done = true ∨ c.returnFree = false) →
    Runs .nmfence s (fun t => Advanced s t ∧ ScalarFrame 0 s t))

/-- R64, R259, R260, R277: the member that completes a gang, or finds it complete, takes its rank and the GANG register; GANGOFF leaves
when all have left; rank 0 of a gang loads a strip, and each other member takes it. -/
def GangsFormShareAndEnd : Prop :=
  (∀ s (o : OpA2), Instr.WellFormed (.gangon o) → ¬gangLegal s (s.g o.a) → Traps (.gangon o) true 0x03 0x04 s.slot.pc s) ∧
  (∀ s (o : OpA2) w, s.Free → Instr.WellFormed (.gangon o) → w = s.g o.a → gangLegal s w → s.slot.gang.getLsbD 63 = false →
    (∀ g, s.myGang = some g → g.formed = true →
      Runs (.gangon o) s (fun t => Advanced s t ∧ WroteG o.d.toNat (word (gangRank w s.co)) t ∧
        ScalarFrame o.d.toNat (joined (s.modMyGang (fun g => { g with formed := true })) w) t)) ∧
    (∀ g, s.myGang = none → firstSat (fun g => !g.formed && g.wd == w) s.clus.gangs = some g →
      (∀ h ∈ s.clus.gangs, h.has s.co (!s.hi) = false) → (∀ c ∈ gangCores w, c = s.co ∨ ∃ p ∈ g.mem, p.1 = c) →
      Runs (.gangon o) s (fun t => Advanced s t ∧ WroteG o.d.toNat (word (gangRank w s.co)) t ∧
        ScalarFrame o.d.toNat (joined (s.modGangs (replFirst (fun g => !g.formed && g.wd == w)
          (fun g => { g with mem := g.mem ++ [(s.co, s.hi)], formed := true }))) w) t)) ∧
    (s.clus.gangs = [] → gangCores w = [s.co] →
      Runs (.gangon o) s (fun t => Advanced s t ∧ WroteG o.d.toNat (word 0) t ∧
        ScalarFrame o.d.toNat (joined (s.modGangs (fun _ => [⟨w, [(s.co, s.hi)], true, [], []⟩])) w) t))) ∧
  (∀ s (o : OpA2) g, s.Free → Instr.WellFormed (.gangoff o) → s.slot.gang.getLsbD 63 = true → s.myGang = some g →
    (∀ c ∈ gangCores g.wd, c = s.co ∨ c ∈ g.off) → s.gangBusy g = false →
    Runs (.gangoff o) s (fun t => Advanced s t ∧ WroteG o.d.toNat (word (fld s.slot.gang 0 8)) t ∧ t.slot.gang = 0 ∧ t.myGang = none ∧
      (∀ n, n ≠ o.d.toNat → t.slot.getG n = s.slot.getG n) ∧ t.core.f = s.core.f ∧ t.mem = s.mem)) ∧
  (∀ s (o : OpM4) n gvl key (loc : Nat → Nat) xs u, s.Quiet → Instr.WellFormed (.vldg o) → s.slot.gang.getLsbD 63 = true →
    s.myGang.isSome = true → gvl = fld s.slot.gang 19 10 → gvl ≤ vlmax (vtSew s.slot.vtype) → n = s.slot.strips →
    key = (o.d.toNat, vtSewCode s.slot.vtype) →
    (fld s.slot.gang 16 3 = 0 →
      (∀ e, e < gvl → Reaches s o.spc (placed (s.g o.base) e (vtSew s.slot.vtype / 8 : Nat)) (vtSew s.slot.vtype / 8) .rd (loc e) ∧
        Readable s o.spc (vtSew s.slot.vtype / 8) (loc e)) →
      xs = (List.range gvl).map (fun e => leNat ((List.range (vtSew s.slot.vtype / 8)).map (fun k => byteOf s o.spc (loc e + k)))) →
      u = (s.modMyGang (fun g => { g with strips := put n (key, xs, []) g.strips })).tookStrip n →
      Runs (.vldg o) s (fun t => Advanced s t ∧ (∀ l, t.seen l = s.seen l) ∧ MemFrame .vec (.vldg o) [o.d.toNat] [] [] [] 0 u t ∧
        ∀ e, e < vlmax (vtSew s.slot.vtype) → elem (t.vreg o.d.toNat) (vtSew s.slot.vtype) e =
          if e < gvl then xs[e]?.getD 0 else elem (s.vreg o.d.toNat) (vtSew s.slot.vtype) e)) ∧
    (∀ took, fld s.slot.gang 16 3 ≠ 0 → s.myGang.bind (fun g => g.strip n) = some (key, xs, took) → xs.length = gvl →
      (∀ x ∈ xs, x < 2 ^ vtSew s.slot.vtype) → o.spc = 0 → o.base = 0 →
      Runs (.vldg o) s (fun t => Advanced s t ∧ EngineFrame .vec (.vldg o) [o.d.toNat] [] [] [] [] 0 (s.tookStrip n) t ∧
        ∀ e, e < vlmax (vtSew s.slot.vtype) → elem (t.vreg o.d.toNat) (vtSew s.slot.vtype) e =
          if e < gvl then xs[e]?.getD 0 else elem (s.vreg o.d.toNat) (vtSew s.slot.vtype) e))) ∧
  (∀ s u cl core (o : OpM4) (c : Cmd) n gvl key xs took, u = s.at_ cl core false → u.core.queue = [c] → c.hi = false → c.ins = .vldg o →
    c.eng = .vec → c.ena = false → c.disp = true → c.done = false → c.faulted = false → u.slot.gang.getLsbD 63 = true → u.myGang.isSome = true →
    gvl = fld u.slot.gang 19 10 → gvl ≤ vlmax (vtSew c.vtype) → n = u.slot.strips → key = (o.d.toNat, vtSewCode c.vtype) →
    fld u.slot.gang 16 3 ≠ 0 → u.myGang.bind (fun g => g.strip n) = some (key, xs, took) → xs.length = gvl →
    (∀ x ∈ xs, x < 2 ^ vtSew c.vtype) →
    Runs (.vldgDeliver cl core) s (fun t => (t.cl, t.co, t.hi) = (s.cl, s.co, s.hi) ∧ (t.at_ cl core false).core.queue = [] ∧
      (∀ k, k ≠ o.d.toNat → (t.at_ cl core false).vreg k = u.vreg k) ∧ t.mem = s.mem ∧
      ∀ e, e < vlmax (vtSew c.vtype) → elem ((t.at_ cl core false).vreg o.d.toNat) (vtSew c.vtype) e =
        if e < gvl then xs[e]?.getD 0 else elem (u.vreg o.d.toNat) (vtSew c.vtype) e))

end Sys2Proof.Machine

section
open Sys2Proof.Machine

/-- CPY, CPYT, CPYG and CPYZ; an element that lands out of turn; completion of a copy (R240, R246 to R253; R254, R255; R240,
R248, R250). -/
def Obligations.CopiesMoveAndDecode : Prop :=
  Sys2Proof.Machine.CopiesMoveTheirElements ∧ Sys2Proof.Machine.BlocksAreDecodedByCpyz ∧ Sys2Proof.Machine.CopyElementsLandInAnyOrder

/-- R58, R239, R242 to R245: HALLOC gives a free handle a region that overlaps no other, HFREE frees it, HGIVE offers it with a release
and HTAKE takes an offer with an acquire; HWAIT passes a ready handle and HSTAT reads its word. -/
def Obligations.HandlesPassRegions : Prop :=
  (∀ s (o : OpA2) w, s.Quiet → Instr.WellFormed (.halloc o) → w = s.g o.a → regionBad w = false →
    (fld w 62 2 ≠ 0 → fld w 0 19 + fld w 22 20 ≤ bufSize (fld w 62 2)) →
    (s.copyState o.d.toNat).ready = true → (s.core.handle o.d.toNat).buf = 0 →
    (fld w 62 2 ≠ 0 → ∀ x ∈ s.core.h.toList, ¬(x.buf = fld w 62 2 ∧ x.home = none ∧ overlap (fld w 0 19) (fld w 22 20) x.off x.len = true)) →
    Runs (.halloc o) s (fun t => Advanced s t ∧ t.slot.status = s.slot.status ∧ EngineFrame .copy (.halloc o) [] [] [] [] [] 0
      (s.setHandle o.d.toNat { s.core.handle o.d.toNat with
        held := true, holder := s.co, buf := fld w 62 2, bar := w.getLsbD 61, cstat := 0, expect := 0, landed := 0,
        off := fld w 0 19, len := fld w 22 20, boff := fld w 42 19, home := none }) t)) ∧
  (∀ s (o : OpA2), s.Quiet → Instr.WellFormed (.hfree o) → (s.copyState o.d.toNat).ready = true →
    (s.core.handle o.d.toNat).buf ≠ 0 → (s.core.handle o.d.toNat).held = true → (s.core.handle o.d.toNat).home = none →
    Runs (.hfree o) s (fun t => Advanced s t ∧ t.slot.status = s.slot.status ∧
      EngineFrame .copy (.hfree o) [] [] [] [] [] 0 (s.setHandle o.d.toNat Handle.free).latchCore t)) ∧
  (∀ s (o : OpA2), s.Quiet → Instr.WellFormed (.hgive o) → (s.g o.a).toNat < 8 → (s.g o.a).toNat ≠ s.co →
    (s.copyState o.d.toNat).ready = true → (s.core.handle o.d.toNat).buf ≠ 0 → (s.core.handle o.d.toNat).held = true →
    Runs (.hgive o) s (fun t => Advanced s t ∧ t.slot.status = s.slot.status ∧ EngineFrame .copy (.hgive o) [] [] [] [] [] 0
      (let home := (s.core.handle o.d.toNat).home.getD (s.co, o.d.toNat)
       let u := (s.release 1).modClus (fun k => { k with offers := k.offers ++ [⟨home.1, home.2, s.co, o.d.toNat, (s.g o.a).toNat⟩] })
       if (s.core.handle o.d.toNat).home = none then
         u.setHandle o.d.toNat { s.core.handle o.d.toNat with held := false, holder := (s.g o.a).toNat }
       else (u.turnHandle o.d.toNat Handle.free).onCo home.1 (fun x =>
         x.setHandle home.2 { x.core.handle home.2 with holder := (s.g o.a).toNat })) t)) ∧
  (∀ s (o : OpA2) f, s.Quiet → Instr.WellFormed (.htake o) → fld (s.g o.a) 3 5 = 0 → fld (s.g o.a) 13 51 = 0 → fld (s.g o.a) 0 3 ≠ s.co →
    s.offerFor (s.g o.a) = some f →
    (if f.homeCore = s.co then o.d.toNat = f.homeH else (s.core.handle o.d.toNat).buf = 0 ∧ (s.core.handle o.d.toNat).state = 0) →
    Runs (.htake o) s (fun t => Advanced s t ∧ t.slot.status = s.slot.status ∧ EngineFrame .copy (.htake o) [] [] [] [] [] 0
      (let u := (s.modClus (fun k => { k with offers := dropFirst (fun x => x == f) k.offers })).acquire
       let h := (s.coreAt s.cl f.homeCore).handle f.homeH
       let v := u.setHandle o.d.toNat (if f.homeCore = s.co then { s.core.handle o.d.toNat with held := true, holder := s.co }
         else { h with held := true, holder := s.co, home := some (f.homeCore, f.homeH) })
       if f.homeCore ≠ s.co ∧ (h.state ≠ 0 ∨ (s.core.handle o.d.toNat).landed < h.landed) then v.latchCore else v) t)) ∧
  (∀ s (o : OpA2), s.Free → Instr.WellFormed (.hwait o) → (s.g o.a).toNat ≤ 512 →
    (∀ c ∈ s.older, c.willCopy o.d.toNat = false) →
    ((s.copyState o.d.toNat).state = 0 ∨ (s.copyState o.d.toNat).state = 2 ∨
      0 < (s.g o.a).toNat ∧ (s.g o.a).toNat ≤ (s.copyState o.d.toNat).landed) →
    Runs (.hwait o) s (fun t => Advanced s t ∧ ScalarFrame 0 s t)) ∧
  (∀ s (o : OpA2) e x, s.Free → Instr.WellFormed (.hstat o) → (∀ c ∈ s.older, c.willCopy o.d.toNat = false) →
    e = s.core.handle o.d.toNat → x = s.copyState o.d.toNat →
    Runs (.hstat o) s (fun t => Advanced s t ∧ ScalarFrame o.a.toNat s t ∧
      WroteG o.a.toNat (word (x.state * 2 ^ 62 + (if e.held then 2 ^ 61 else 0) + e.holder * 2 ^ 58 + e.buf * 2 ^ 56 +
        (if e.bar then 2 ^ 55 else 0) + x.cstat * 2 ^ 51 + x.expect * 2 ^ 32 + x.landed * 2 ^ 16)) t))

/-- R250, R256 to R258: BINIT writes an object, BEXPECT raises its bytes, BARRIVE releases and arrives; an object with nothing pending
turns its phase; BWAIT passes and BTEST reads, with an acquire where the phase has turned. -/
def Obligations.BarriersCountAndTurn : Prop :=
  (∀ s i (o : OpA2) f loc, s.Quiet → i.WellFormed → ObjectReady s (s.g o.d) .atm loc →
    ((s.g o.d).getLsbD 63 = false → EntryFor s loc) →
    (i = .binit o ∧ 1 ≤ (s.g o.a).toNat ∧ (s.g o.a).toNat ≤ 65535 ∧ f = (fun _ => barInit o.b.toNat (s.g o.a).toNat) ∨
     i = .bexpect o ∧ 1 ≤ (s.g o.a).toNat ∧ (s.g o.a).toNat < 2 ^ 31 ∧ f = barBytes ((s.g o.a).toNat : Int)) →
    Runs i s (fun t => Advanced s t ∧ t.slot.status = s.slot.status ∧
      EngineFrame .copy i [] [] [] [] [] 0 (objectUpdated s (s.g o.d) loc f) t)) ∧
  (∀ s (o : OpA2) loc, s.Quiet → Instr.WellFormed (.barrive o) → (s.g o.a).toNat < 65536 →
    ObjectReady s (s.g o.d) .atm loc → ((s.g o.d).getLsbD 63 = false → EntryFor (s.release o.b.toNat) loc) →
    Runs (.barrive o) s (fun t => Advanced s t ∧ t.slot.status = s.slot.status ∧
      EngineFrame .vec (.barrive o) [] [] [] [] [] 0 (objectUpdated (s.release o.b.toNat) (s.g o.d) loc
        (barArrive (if s.g o.a = 0 then 1 else (s.g o.a).toNat))) t)) ∧
  (∀ s w loc f, BuffersWf s → w.getLsbD 63 = true → ObjectReady s w .atm loc → f (objectAt s w loc) < 2 ^ 128 →
    objectAt (objectUpdated s w loc f) w loc = settled (f (objectAt s w loc))) ∧
  (∀ x n k, x < 2 ^ 128 → k < 65536 → n < 2 ^ 31 →
    barInit k n = freshObject k (n % 65536) ∧ barBytes (n : Int) x = expecting n x ∧ barArrive k x = arrivedBy k x) ∧
  (∀ s (o : OpA2) loc u, s.Free → Instr.WellFormed (.bwait o) → ObjectReady s (s.g o.d) .rd loc →
    u = (if (s.g o.d).getLsbD 63 then s else (s.settle (loc / 64)).lineHome loc) →
    (objectAt u (s.g o.d) loc).testBit 127 ≠ (s.g o.a).getLsbD 0 →
    Runs (.bwait o) s (fun t => Advanced s t ∧ ScalarFrame 0 u.acquire t)) ∧
  (∀ s (o : OpA2) loc u, s.Free → Instr.WellFormed (.btest o) → ObjectReady s (s.g o.d) .rd loc →
    u = (if (s.g o.d).getLsbD 63 then s else (s.settle (loc / 64)).lineHome loc) →
    Runs (.btest o) s (fun t => Advanced s t ∧ WroteG o.a.toNat (word (objectAt u (s.g o.d) loc / 2 ^ 64)) t ∧
      ScalarFrame o.a.toNat (if (objectAt u (s.g o.d) loc).testBit 127 ≠ (s.g o.a).getLsbD 0 then u.acquire else u) t)) ∧
  (∀ s u v cl core q (o : OpA2) (c : Cmd) loc, u = s.at_ cl core false → u.core.queue = [c] → c.qpos = q → c.hi = false →
    c.ins = .barrive o → c.eng = .vec → c.ena = false → c.under = true → 0 < c.resume →
    ObjectReady u c.ga .atm loc → (c.ga.getLsbD 63 = false → EntryFor (u.release o.b.toNat) loc) → fld c.gb 0 16 ≠ 0 →
    v = objectUpdated (u.release o.b.toNat) c.ga loc (barArrive (fld c.gb 0 16)) →
    Runs (.barriveFire cl core q) s (fun t => (t.cl, t.co, t.hi) = (s.cl, s.co, s.hi) ∧ (t.at_ cl core false).core.queue = [] ∧
      t.mem = v.mem ∧ (∀ co b, (t.coreAt cl co).buf b = (v.coreAt cl co).buf b) ∧ (t.at_ cl core false).core.f = u.core.f))

/-- PHASE and the fences; gangs form, share strips and end (R261, R262; R64, R259, R260, R277). -/
def Obligations.PhasesFencesAndGangs : Prop :=
  Sys2Proof.Machine.PhasesAndFences ∧ Sys2Proof.Machine.GangsFormShareAndEnd

end

namespace Sys2Proof.Machine

/-! ### Collectives, coded packets and expert rows (R263 to R265, R312 to R334, R446) -/

/-- n bytes at an address of a context lie in one page whose translation the hub holds, in local memory (R388, R395). -/
def HubFinds (s : State) (ctx va n : Nat) (acc : Acc) (loc : Nat) : Prop :=
  0 < n ∧ va % 65536 + n ≤ 65536 ∧ s.xlateHub ctx va acc = .ok (.mem loc, s) ∧ loc < peerBase
/-- The number by which the event rows name the collective of a rank. -/
def collName (c : Coll) : Nat := c.num + 2 ^ 32 * c.rank
/-- A rank whose collective runs and waits for no action. -/
def CollRuns (s : State) (c : Coll) : Prop := s.coll c.num c.rank = some c ∧ c.fin = false ∧ c.wait = false ∧ c.boot = false ∧ c.num < 2 ^ 32
/-- The address in DST or SRC of a chunk of a block (R447). -/
def chunkAddr (c : Coll) (base block k : Nat) : Nat := base + (block * c.count + k * c.chunk) * c.es
/-- The collective as COLL starts it (R264): its block's fields, and who issued it. -/
def startedColl (u : State) (a : Nat) (p : Coll) : Coll :=
  { p with num := u.ex.num, id := u.ex.num, ctx := fld u.core.ctxid 0 16, cl := u.cl, core := u.co, hi := u.hi, seq := u.slot.th.seq, blk := a,
           tag := u.xl.age, at_ := u.time }
/-- The pieces of DST that a chunk of an uncoded collective over n ranks writes: block number and bytes, where x q b are the
bytes of block b that rank q sends; reductions fold the ranks in ascending order (R332, R447). -/
def collPieces (c : Coll) (n k : Nat) (x : Nat → Nat → List Byte) : List (Nat × List Byte) :=
  let fold := fun b => redFold c.dtype c.redop c.es (c.chunkLen k) ((List.range n).map (fun q => x q b))
  match c.opc with
  | 0 => [(0, fold 0)]
  | 1 => [(0, fold c.rank)]
  | 2 => (List.range n).map (fun q => (q, x q 0))
  | 3 => (List.range n).map (fun q => (q, x q c.rank))
  | 4 => [(0, x c.root 0)]
  | _ => if c.rank = c.root then [(0, fold 0)] else []
/-- A block delivered to a receiver's DST at a location: its bytes, the note that it has come, the AWAITED entry of it filled
(R315, R321). -/
def delivered (s : State) (num rcv : Nat) (blk : BlockId) (x : List Byte) (loc : Nat) : State :=
  ((((s.hubPut loc x).modColl num rcv (fun c => { c with got := c.got ++ [blk] })).modEx (fun e => { e with side := e.side.map (fun i =>
    if i.num = num ∧ i.rank = rcv ∧ i.blk = blk ∧ i.data = none then { i with data := some x } else i) })).traffic num)
/-- The receiver of a block runs, has not had it, and its place in DST is found (R321). -/
def CanDeliver (s : State) (num rcv : Nat) (blk : BlockId) (n loc : Nat) : Prop :=
  ∃ c, CollRuns s c ∧ c.num = num ∧ c.rank = rcv ∧ blk ∉ c.got ∧
    HubFinds s c.ctx (chunkAddr c c.dst blk.src blk.chunk + 4096 * blk.seg) n .wr loc
/-- Two packets that have not been coded may share a coded one (R316): of one collective, to two receivers that advertise each
other's block, with room in the retransmit buffer. -/
def pairs (s : State) (p q : Packet) : Prop :=
  q.coded = none ∧ q.num = p.num ∧ q.gid = p.gid ∧ q.rcv ≠ p.rcv ∧ s.advertises p p.rcv q.blk = true ∧ s.advertises p q.rcv p.blk = true ∧
  s.ex.retrBytes + 128 + 64 * ((p.len + 63) / 64) + 64 * ((q.len + 63) / 64) ≤ 4 * 2 ^ 20
/-- The coded packet of two, with the first one's receiver before the second's (R316, R317). -/
def codedPair (tag : Nat) (p q : Packet) : Packet :=
  { p with data := xorBytes p.data q.data, coded := some (q.rcv, q.blk, q.len), rtag := tag, via := none }
/-- The same coded packet as the second receiver takes it. -/
def codedSwap (tag : Nat) (p q : Packet) : Packet :=
  { codedPair tag p q with rcv := q.rcv, blk := q.blk, len := q.len, coded := some (p.rcv, p.blk, p.len) }
/-- A message to the hub that coded a packet, by the port toward it (R317, R319, R320). -/
def sentToHub (s : State) (hub : Nat) (m : Poest) : State := s.emit (.poest (Config.fabricPort hub).toNat m)
/-- A coded packet decoded with the other block, and acknowledged to the hub that coded it (R319). -/
def decodedPacket (s : State) (i : Nat) (p : Packet) (x : List Byte) (loc : Nat) : State :=
  let used := fun (k : SideEnt) => k.num == p.num && k.rank == p.rcv && k.blk == p.other
  let t := (delivered s p.num p.rcv p.blk ((xorBytes p.data x).take p.len) loc).modEx (fun e =>
    { e with dec := e.dec.eraseIdx i, side := e.side.filter (fun k => !used k) ++ e.side.filter used })
  match p.chub with
  | none => t.modEx (fun e => { e with acks := e.acks ++ [(p.rtag, p.rcv)] })
  | some hub => sentToHub t hub (.ack hub p.rtag p.rcv)
/-- A coded packet that its receiver cannot decode: a fallback is asked for, at the hub that coded it (R320). -/
def missedPacket (s : State) (i : Nat) (p : Packet) : State :=
  let t := (s.modEx (fun e => { e with dec := e.dec.eraseIdx i,
                                       fall := e.fall ++ [⟨p.rtag, p.rcv, p.num, p.blk, p.chub, none⟩] })).exCount 1
  match p.chub with
  | none => t
  | some hub => sentToHub t hub (.fallback hub p.rtag p.rcv)
/-- No rank is left with a packet to enter the coding queue (R316). -/
def QueueFed (s : State) : Prop :=
  ∀ c ∈ s.ex.colls, s.codes c = false ∨ c.fin = true ∨ c.wait = true ∨ c.boot = true ∨ s.collFull c.gid c.num = false ∨
    c.packets (s.ranks c.gid).length ≤ c.sent

/-- A rank's expert descriptor is found, its replica table gives every expert a replica and names ranks of the group, and the
descriptor is the one given (R324). -/
def HasDesc (s : State) (c : Coll) (d : ExpDesc) : Prop :=
  ∃ loc tb, c.expt % 64 = 0 ∧ HubFinds s c.ctx c.expt 64 .rd loc ∧ parseExp (s.hubBytes loc 64) = some d ∧
    s.cRead c d.repl (16 * d.nexp) = .ok (tb, s) ∧
    ∀ e, e < d.nexp → replRow tb e ≠ [] ∧ ∀ p ∈ replRow tb e, p.2 < (s.ranks c.gid).length
/-- The replica list of an expert: index and rank of each entry that is not empty, in order (R324). -/
def HasReplicas (s : State) (c : Coll) (d : ExpDesc) (e : Nat) (l : List (Nat × Nat)) : Prop :=
  ∃ loc, HubFinds s c.ctx (d.repl + 16 * e) 16 .rd loc ∧
    l = ((List.range 8).map (fun i => (i, leNat (s.hubBytes (loc + 2 * i) 2)))).filter (fun p => p.2 != 65535)

end Sys2Proof.Machine

section
open Sys2Proof.Machine

/-- R263 to R265: COLL, after a phase boundary at system scope, reads and checks its block, clears STATUS and the counter, gives the
collective's number and starts it; a malformed block and a nonzero B operand trap. The statement takes an uncoded block that
begins a run of its group; the other hubs of the group are told of the rank. CCWAIT returns the counter when it has come far enough or DONE is set, else waits; CCREAD returns STATUS. -/
def Obligations.CollectivesStartAndAreRead : Prop :=
  (∀ s (o : OpA2), Instr.WellFormed (.coll o) → s.g o.b ≠ 0 → Traps (.coll o) true 0x03 0x04 s.slot.pc s) ∧
  (∀ s u (o : OpA2) a loc bs n, s.Free → Instr.WellFormed (.coll o) → s.g o.b = 0 → a = (s.g o.a).toNat → a < 2 ^ 54 → a % 128 = 0 →
    phaseAct 4 s = .ok u → u.bt.staged = [] → HubFinds u (fld u.core.ctxid 0 16) a 128 .rd loc → bs = u.hubBytes loc 128 →
    n = (u.ranks (leField bs 4 2)).length →
    (u.parseColl (if leField bs 6 2 < n then some n else none) bs = none →
      Runs (.coll o) s (fun t => t = u.takeTrap { code := 0x03, sub := 0x08 })) ∧
    (∀ p l1 l2, leField bs 6 2 < n → u.parseColl (some n) bs = some p → p.flags % 2 = 0 →
      (∀ k ∈ u.ex.colls, k.gid ≠ p.gid ∧ k.num ≠ u.ex.num) → (∀ x ∈ u.ex.far, x.gid ≠ p.gid ∨ x.num ≠ u.ex.num) →
      HubFinds u (fld u.core.ctxid 0 16) (a + 0x48) 8 .wr l1 → HubFinds u (fld u.core.ctxid 0 16) p.cntr 8 .wr l2 →
      Runs (.coll o) s (fun t => Advanced s t ∧ WroteG o.d.toNat (word u.ex.num) t ∧
        ScalarFrame o.d.toNat ((((u.hubPut l1 (List.replicate 8 0)).hubPut l2 (List.replicate 8 0)).modEx (fun x =>
          { x with num := (x.num + 1) % 2 ^ 32, colls := x.colls ++ [startedColl u a p] })).toGroup p.gid
            (.joined p.gid u.ex.num p.rank p.terms false)) t))) ∧
  (∀ s u (o : OpA2) a loc bs l2 x, s.Free → Instr.WellFormed (.ccwait o) → a = (s.g o.a).toNat → u = s.acquire → u.core.reads s.hi u.slot.ep = false →
    Reaches u 0 a 128 .rd loc → Readable u 0 128 loc → bs = (List.range 128).map (fun k => u.seen (loc + k)) →
    Reaches u 0 (leField bs 0x28 8) 8 .rd l2 → Readable u 0 8 l2 → x = u.seenNum l2 8 →
    ((s.g o.b).toNat ≤ x ∨ 128 ≤ (u.seen (loc + 0x4F)).toNat →
      Runs (.ccwait o) s (fun t => Advanced s t ∧ WroteG o.d.toNat (word x) t ∧ ScalarFrame o.d.toNat u t)) ∧
    (x < (s.g o.b).toNat → (u.seen (loc + 0x4F)).toNat < 128 →
      Runs (.ccwait o) s (fun t => t.time = s.time + 1 ∧ t.slot.pc = s.slot.pc ∧ t.slot.g = s.slot.g ∧ t.mem = s.mem ∧
        SameBytes u t ∧ t.core.f = s.core.f ∧ t.core.queue = s.core.queue))) ∧
  (∀ s u (o : OpA2) a loc, s.Free → Instr.WellFormed (.ccread o) → a = (s.g o.a).toNat → a % 128 = 0 → a < 2 ^ 54 → u = s.acquire →
    Reaches u 0 (a + 0x48) 8 .rd loc → Readable u 0 8 loc →
    Runs (.ccread o) s (fun t => Advanced s t ∧ WroteG o.d.toNat (word (u.seenNum loc 8)) t ∧
      ScalarFrame o.d.toNat (u.viewRead loc 8).2 t))

/-- R265, R331 to R333, R446, R447: a chunk of a collective is written to DST and counted; after the last, DONE is written; traffic that
does not come, or a route that is down, ends a collective with code 3; a TRANSLATION fault stops it with a record. -/
def Obligations.ChunksAreCounted : Prop :=
  (∀ s u c l (loc : Nat → Nat) l2, CollRuns s c → s.ex.inbox = [] → c.opc < 6 → c.sched % 256 ≠ 4 → c.done + 1 < c.chunks →
    s.collFull c.gid c.num = true → (s.codes c = true ∨ c.done < c.sent ∨ ∀ q, s.farPort c.gid q = none) →
    u = (if s.codes c = true ∨ c.done < c.sent then s else s.modColl c.num c.rank (fun c => { c with sent := c.done + 1 })) →
    u.chunkPieces c c.done = .ok (some l, u) →
    (∀ p ∈ l, HubFinds u c.ctx (chunkAddr c c.dst p.1 c.done) p.2.length .wr (loc p.1)) → HubFinds u c.ctx c.cntr 8 .wr l2 →
    Runs (.collChunkComplete (collName c)) s (fun t => t =
      (((l.foldl (fun u p => u.hubPut (loc p.1) p.2) u).hubPut l2 (leBytes 8 (c.done + 1))).modColl c.num c.rank
        (fun c => { c with done := c.done + 1 })).traffic c.num)) ∧
  (∀ s c k n (x : Nat → Coll) (loc : Nat → Nat → Nat), c.opc < 6 → s.codes c = false → n = (s.ranks c.gid).length → c.rank < n → c.root < n →
    (∀ q, q < n → s.rankHere c.gid q = true ∧ s.coll c.num q = some (x q) ∧ (x q).fin = false ∧ (x q).wait = false) →
    (∀ q b, q < n → b < n → HubFinds s (x q).ctx (chunkAddr c (x q).src b k) (c.chunkLen k * c.es) .rd (loc q b)) →
    s.chunkPieces c k = .ok (some (collPieces c n k (fun q b => s.hubBytes (loc q b) (c.chunkLen k * c.es))), s)) ∧
  (∀ s c loc, CollRuns s c → s.ex.inbox = [] → c.done = c.chunks → s.mayEnd c (decide (c.at_ + 2 ^ 24 ≤ s.time)) = true → s.mem.wf = true →
    HubFinds s c.ctx (c.blk + 0x48) 8 .wr loc →
    Runs (.collChunkComplete (collName c)) s (fun t =>
      t = (s.hubPut loc (leBytes 8 (c.endWord s.xcode 0))).endColl c 0 ∧
      t.hubBytes loc 8 = leBytes 8 (2 ^ 63 + (if c.flags % 2 = 1 ∧ s.full = false then 2 ^ 62 else 0) + c.ovf))) ∧
  (∀ s c, CollRuns s c → (s.routeDown c.gid = true ∨ c.at_ + 2 ^ 24 ≤ s.time ∧ (c.done ≠ c.chunks ∨ 6 ≤ c.opc) ∧
      ∃ q, q < (s.ranks c.gid).length ∧ c.needs q = true) →
    Runs (.collTrafficTimeout (collName c)) s (fun t => t = s.endColl c 3)) ∧
  (∀ s c va sub e, CollRuns s c → s.xlateHub c.ctx va .rd = .error (0x06, sub, e) →
    Runs (.hubTranslationFault (collName c) va) s (fun t => t =
      ((((s.hubDrop c.ctx va .rd).hubDrop c.ctx va .wr).modColl c.num c.rank (fun k => { k with wait := true }))).modHub (fun h => { h with hubPend := h.hubPend ++
        [{ code := 0x06, sub := sub, rpl := true, qf := false, fatal := false, hub := true, qpos := 0, ctx := c.ctx, epc := 0,
           seq := c.seq, cl := c.cl, core := c.core, hi := c.hi, d0 := word va, d1 := word c.id, d2 := 5, d3 := e }] })))

/-- R315 to R323: an advertisement arrives; the packet at the front of the coding queue leaves coded with the first partner, or alone;
a coded packet is decoded with the block that its receiver holds, parked on an AWAITED one, or missed; a fallback brings the
original; the second acknowledgement frees the retransmit entry. -/
def Obligations.CodedPacketsTravel : Prop :=
  (∀ s num rank, num < 2 ^ 32 →
    (s.ex.inbox = [] → Runs (.advertisementArrive (num + 2 ^ 32 * rank)) s (fun t => t = s.modColl num rank (fun c => { c with advIn := true }))) ∧
    (∀ port q gid l, s.ex.inbox = [(port, .advert gid num rank l)] → s.farPort gid rank = some q →
      Runs (.advertisementArrive (num + 2 ^ 32 * rank)) s (fun t => t =
        (s.modEx (fun e => { e with inbox := [] })).modFar gid num rank (fun x => { x with adv := some l })))) ∧
  (∀ s p l, s.ex.inbox = [] → s.ex.codeq = p :: l → p.coded = none → QueueFed s →
    (∀ a q b, l = a ++ q :: b → a.length < 15 → pairs s p q → (∀ x ∈ a, ¬pairs s p x) →
      s.rankHere p.gid p.rcv = true → s.rankHere p.gid q.rcv = true →
      Runs .codingQueueHead s (fun t => t = (s.modEx (fun e => { e with
        codeq := a ++ b, tag := (e.tag + 1) % 65536,
        retr := e.retr ++ [⟨s.ex.tag, p, q, [p.rcv, q.rcv]⟩],
        dec := e.dec ++ [codedPair s.ex.tag p q, codedSwap s.ex.tag p q] })).exCount 0)) ∧
    ((∀ x ∈ l.take 15, ¬pairs s p x) →
      (∀ loc, s.farPort p.gid p.rcv = none → (∀ f ∈ s.ex.fall, f.chub = none) → CanDeliver s p.num p.rcv p.blk p.data.length loc →
        Runs .codingQueueHead s (fun t => t = (delivered s p.num p.rcv p.blk p.data loc).modEx (fun e => { e with codeq := l }))) ∧
      (∀ port, s.farPort p.gid p.rcv = some port →
        Runs .codingQueueHead s (fun t => t = (s.modEx (fun e => { e with codeq := l })).emit (.poest port (.block p.bytes)))))) ∧
  (∀ s i p, s.ex.dec[i]? = some p → s.rcvWaits p.num p.rcv = false →
    (∀ x loc e, s.sideOf p.num p.rcv p.other = some e → e.data = some x →
      CanDeliver s p.num p.rcv p.blk ((xorBytes p.data x).take p.len).length loc →
      Runs (.codedPacketDecode i) s (fun t => t = decodedPacket s i p x loc) ∧
      (p.parked.isSome = true → Runs (.awaitedBlockFill i) s (fun t => t = decodedPacket s i p x loc))) ∧
    (∀ e, s.sideOf p.num p.rcv p.other = some e → e.data = none → p.parked = none →
      (s.ex.dec.filter (fun q => q.parked.isSome)).length < 256 →
      Runs (.codedPacketDecode i) s (fun t => t = s.modEx (fun x => { x with dec := x.dec.set i { p with parked := some s.time } }))) ∧
    (s.sideOf p.num p.rcv p.other = none → Runs (.codedPacketDecode i) s (fun t => t = missedPacket s i p)) ∧
    (∀ t0, p.parked = some t0 → t0 + 2 ^ 20 ≤ s.time → (∀ e, s.sideOf p.num p.rcv p.other = some e → e.data = none) →
      Runs (.decodeTimeout i) s (fun t => t = (missedPacket s i p).exCount 2))) ∧
  (∀ s i f r p, s.ex.inbox = [] → s.ex.fall[i]? = some f → f.chub = none →
    firstSat (fun r => r.tag == f.tag && r.owed.contains f.rcv) s.ex.retr = some r → p = (if r.p.rcv = f.rcv then r.p else r.q) →
    (∀ loc, s.farPort p.gid p.rcv = none → CanDeliver s p.num f.rcv p.blk p.data.length loc →
      Runs (.fallbackRequest i) s (fun t => t = ((delivered s p.num f.rcv p.blk p.data loc).modEx (fun e =>
        { e with fall := e.fall.eraseIdx i, acks := e.acks ++ [(f.tag, f.rcv)] })).exCount 3)) ∧
    (∀ port, s.farPort p.gid p.rcv = some port →
      Runs (.fallbackRequest i) s (fun t => t = ((s.modEx (fun e => { e with fall := e.fall.eraseIdx i })).emit
        (.poest port (.block p.bytes))).exCount 3))) ∧
  (∀ s i tag rcv, s.ex.inbox = [] → s.ex.acks[i]? = some (tag, rcv) →
    Runs (.codedAck i) s (fun t => t = s.modEx (fun e => { e with
      acks := e.acks.eraseIdx i,
      retr := (e.retr.map (fun r => if r.tag = tag then { r with owed := r.owed.filter (fun k => k != rcv) } else r)).filter
        (fun r => r.tag != tag || !r.owed.isEmpty) })))

/-- R324 to R328: a rank sends its next token toward the replica with the shortest egress queue; a row request is granted the next
free row of the hosting rank, which takes the token, or refused; a refused token goes to the next replica or overflows; a
combined row returns to the token's place. -/
def Obligations.ExpertRowsAreGranted : Prop :=
  (∀ s c d l i r loc, CollRuns s c → c.opc = 6 → c.sent < c.count → s.collFull c.gid c.num = true → HasDesc s c d →
    HubFinds s c.ctx (d.ids + 4 * c.sent) 4 .rd loc → leNat (s.hubBytes loc 4) < d.nexp → HasReplicas s c d (leNat (s.hubBytes loc 4)) l →
    (i, r) ∈ l → (∀ p ∈ l, s.egress c.gid r < s.egress c.gid p.2 ∨ s.egress c.gid r = s.egress c.gid p.2 ∧ i ≤ p.1) →
    Runs (.expertTokenSend (collName c) i) s (fun t => t =
      ((s.modEgress c.gid r (fun n => n + d.rowb)).modColl c.num c.rank (fun c => { c with sent := c.sent + 1 })).modEx
        (fun x => { x with rows := x.rows ++ [⟨c.num, c.rank, c.sent, leNat (s.hubBytes loc 4), i, [i], false, r, d.rowb, false, none⟩] }))) ∧
  (∀ s i r c d h hd hl l1, s.ex.inbox = [] → s.ex.rows[i]? = some r → r.refused = false → r.sent = false → r.data = none →
    CollRuns s c → c.num = r.num → c.rank = r.rank → s.collFull c.gid c.num = true → HasDesc s c d →
    s.farPort c.gid r.dst = none → CollRuns s h → h.num = c.num → h.rank = r.dst → HasDesc s h hd →
    1 ≤ hd.nhost → HubFinds s h.ctx hd.host (16 * hd.nhost) .rd hl → HubFinds s c.ctx (c.src + r.token * d.rowb) d.rowb .rd l1 →
    (freeRow h (s.hubBytes hl (16 * hd.nhost)) r.expert hd.nhost = none →
      Runs (.rowRequest i) s (fun t => t =
        ((s.modEgress c.gid r.dst (fun n => n - r.bytes)).modEx (fun x => { x with rows := x.rows.set i { r with refused := true } })).exCount 6)) ∧
    (∀ k n l2 l3 l4, freeRow h (s.hubBytes hl (16 * hd.nhost)) r.expert hd.nhost = some (k, n) →
      HubFinds s h.ctx (h.dst + n * hd.rowb) d.rowb .wr l2 →
      HubFinds s h.ctx (hd.tags + 8 * n) 8 .wr l3 → HubFinds s c.ctx (d.place + 8 * r.token) 8 .wr l4 →
      Runs (.rowRequest i) s (fun t =>
        t.mem = (((s.hubPut l2 (s.hubBytes l1 d.rowb)).hubPut l3 (leBytes 8 (r.rank * 2 ^ 48 + r.token % 2 ^ 40))).hubPut l4
          (leBytes 8 (r.dst * 2 ^ 32 + n % 2 ^ 32))).mem ∧
        t.ex.rows = s.ex.rows.eraseIdx i ∧ t.egress c.gid r.dst = s.egress c.gid r.dst - r.bytes ∧
        (∃ x, t.coll c.num c.rank = some x ∧ x.tok = r.token :: c.tok) ∧
        (∃ x, t.coll c.num r.dst = some x ∧ x.rows = put k ((look k h.rows).getD 0 + 1) h.rows) ∧
        t.cores = s.cores ∧ t.hub = s.hub ∧ t.bd = s.bd))) ∧
  (∀ s i r c d port l1, s.ex.inbox = [] → s.ex.rows[i]? = some r → r.refused = false → r.sent = false → r.data = none →
    CollRuns s c → c.num = r.num → c.rank = r.rank → s.collFull c.gid c.num = true → HasDesc s c d →
    s.farPort c.gid r.dst = some port → HubFinds s c.ctx (c.src + r.token * d.rowb) d.rowb .rd l1 →
    Runs (.rowRequest i) s (fun t => t = ((s.modEgress c.gid r.dst (fun n => n - r.bytes)).modEx
      (fun x => { x with rows := x.rows.set i { r with sent := true } })).emit
        (.poest port (.row c.gid c.num c.rank r.dst r.token r.expert (s.hubBytes l1 d.rowb))))) ∧
  (∀ s i r c d l, s.ex.inbox = [] → s.ex.rows[i]? = some r → r.refused = true → CollRuns s c → c.num = r.num → c.rank = r.rank →
    s.collFull c.gid c.num = true → HasDesc s c d → HasReplicas s c d r.expert l →
    (∀ k rank, nextReplica l r = some (k, rank) →
      Runs (.rowRefused i) s (fun t => t = (s.modEx (fun x => { x with rows := x.rows.set i { r with
        replica := k, tried := k :: r.tried, refused := false, dst := rank, bytes := d.rowb } })).modEgress
        c.gid rank (fun n => n + d.rowb))) ∧
    (∀ l1 l2 l3 l4 n u, nextReplica l r = none → HubFinds s c.ctx c.ovfl 8 .rd l1 → HubFinds s c.ctx (d.place + 8 * r.token) 8 .wr l2 →
      HubFinds s c.ctx (c.blk + 0x48) 8 .wr l4 → n = leNat (s.hubBytes l1 8) % 2 ^ 32 → c.ovf < 2 ^ 32 - 1 →
      (c.ovf < n → HubFinds s c.ctx (c.ovfl + 8 + 8 * c.ovf) 8 .wr l3) →
      u = s.hubPut l2 (leBytes 8 (2 ^ 63)) →
      Runs (.rowRefused i) s (fun t => t = ((((if c.ovf < n then u.hubPut l3 (leBytes 8 r.token) else u).hubPut l4 (leBytes 8 (c.ovf + 1))).modColl
        c.num c.rank (fun x => { x with ovf := x.ovf + 1, tok := r.token :: x.tok })).modEx (fun x => { x with rows := x.rows.eraseIdx i })).exCount 7))) ∧
  (∀ s h hd n hl l1 c cd l2 l3 l4 tok, s.ex.inbox = [] → CollRuns s h → h.opc = 7 → s.collFull h.gid h.num = true → look n h.rows = none →
    HasDesc s h hd →
    HubFinds s h.ctx hd.host (16 * hd.nhost) .rd hl → (∃ i, i < hd.nhost ∧ (hostRow (s.hubBytes hl (16 * hd.nhost)) i).2.1 ≤ n ∧
      n < (hostRow (s.hubBytes hl (16 * hd.nhost)) i).2.1 + (hostRow (s.hubBytes hl (16 * hd.nhost)) i).2.2) →
    HubFinds s h.ctx (hd.tags + 8 * n) 8 .rd l1 → CollRuns s c → c.num = h.num → s.farPort h.gid c.rank = none →
    leNat (s.hubBytes l1 8) = c.rank * 2 ^ 48 + tok → tok < 2 ^ 40 →
    tok < c.count → tok ∉ c.tok → HasDesc s c cd → HubFinds s c.ctx (cd.place + 8 * tok) 8 .rd l2 →
    leNat (s.hubBytes l2 8) = h.rank * 2 ^ 32 + n → HubFinds s h.ctx (h.src + n * hd.rowb) hd.rowb .rd l3 →
    HubFinds s c.ctx (c.dst + tok * cd.rowb) hd.rowb .wr l4 →
    Runs (.expertCombineRow (collName h) n) s (fun t => t =
      (((s.hubPut l4 (s.hubBytes l3 hd.rowb)).modColl h.num h.rank (fun h => { h with rows := put n 1 h.rows })).modColl
        c.num c.rank (fun c => { c with tok := tok :: c.tok })).traffic c.num))

end

namespace Sys2Proof.Machine

/-! ### Near memory (R335 to R353) -/

/-- The current contents of an operation's home after it has been performed (R110, R337). -/
def performed (o : SliceOp) (m : Mem) : Mem :=
  m.write o.loc (atomicValue o.op o.w (m.read o.loc (o.w / 8)) o.x o.cmp) (o.w / 8)
/-- The state after an operation has been performed at its home: both slots of its core see the write (R300, R337). -/
def performedBy (s : State) (o : SliceOp) : State :=
  ({ s with mem := performed o s.mem }).setCoreAt o.cl o.core ((s.coreAt o.cl o.core).notes o.loc
    (atomicValue o.op o.w (s.mem.read o.loc (o.w / 8)) o.x o.cmp) (o.w / 8))
/-- An operation on local memory of 16, 32 or 64 bits whose operands have its width. -/
def SliceOp.plain (o : SliceOp) : Prop :=
  o.loc < peerBase ∧ (o.w = 16 ∨ o.w = 32 ∨ o.w = 64) ∧ o.x < 2 ^ o.w ∧ o.cmp < 2 ^ o.w
/-- A BRULE that meets its checks (R266): n rule words in buffer spc at a, none malformed. -/
structure RulesReady (s : State) (o : OpG8) (spc a n : Nat) (ws : List Word) : Prop where
  full : s.full = true
  space : 1 ≤ spc ∧ spc ≤ 3 ∧ a + 8 * n ≤ bufSize spc ∧ a % 128 = 0
  holder : s.core.notHolder spc a (8 * n) = false
  words : ws = (List.range n).map (fun i => word (s.heldNum spc (a + 8 * i) 8))
  good : ∀ w ∈ ws, ruleBad n w = false
  ready : (s.copyState o.d.toNat).ready = true ∧ (s.core.handle o.d.toNat).home = none ∧ o.d.toNat < 32
/-- A walk run from a state that it does not change: rules and moves between stacks until it ends; code, steps and row
(R345, R349). -/
def walkEnds (s : State) : Nat → Walk → Option (Nat × Nat × List Byte)
  | 0, _ => none
  | f + 1, w =>
    match s.stride w with
    | .go w' => walkEnds s f { w' with mig := none }
    | .move st e => walkEnds s f { w with stack := st, mig := none, mov := none, ent := some e }
    | .stop code n row => some (code, n, row)
    | .wait _ => none
/-- The walk of a lane as BWALK starts it on a stack (R267, R347). -/
def laneWalk (s : State) (o : OpG8) (p : Prog) (lane st : Nat) : Walk :=
  ⟨elem (s.vreg o.a.toNat) 64 lane, 0, regRoot (s.region (fld s.core.ctxid 0 16) p.region), List.replicate 64 0, 0, 0, s.cl, s.co,
    s.core.qpos, lane, p, fld s.core.ctxid 0 16, fld o.imm 4 13, st, none, none, none, false⟩
/-- A walk that has not moved for 65,536 cycles, nor waited for 2^20 (R349, R350). -/
def InTime (s : State) (w : Walk) : Prop :=
  (∀ m, w.mig = some m → s.time < m.1 + 65536) ∧ ∀ t0, w.mov = some t0 → s.time < t0 + 2 ^ 20
/-- A walk that may take a step (R345, R350): its region is valid, nothing of it is gone, its limit and its time are not reached. -/
def WalkRuns (s : State) (i : Nat) (w : Walk) : Prop :=
  s.bd.walks[i]? = some w ∧ (∀ j x, j < i → s.bd.walks[j]? = some x → walkIs w.cl w.core w.qpos w.lane x = false) ∧ InTime s w ∧ w.gone = false ∧
  regValid (s.region w.ctx w.prog.region) = true ∧ w.n ≠ w.lim
/-- The walk after a step: STEPS of its stack rises and the walk is the one given (R345, R353). -/
def stepped (s : State) (i : Nat) (w w' : Walk) : State :=
  (s.walkCount w.stack 1).modBd (fun b => { b with walks := b.walks.set i w' })
/-- A walk has ended: WALKS, and DROPS for code 5, of its stack have risen, it is gone, and its row and its status word stand in
the A buffer of its core (R267, R353). -/
def WalkEnded (s : State) (i : Nat) (w : Walk) (steps code n : Nat) (row : List Byte) (t : State) : Prop :=
  t.bd.walks = s.bd.walks.eraseIdx i ∧
  (∀ k, (look k t.bd.ctr).getD 0 =
    if k = 4 * w.stack ∨ k = 4 * w.stack + 1 ∧ steps = 1 ∨ k = 4 * w.stack + 3 ∧ code = 5 then ((look k s.bd.ctr).getD 0 + 1) % 2 ^ 64
    else (look k s.bd.ctr).getD 0) ∧
  t.mem = s.mem ∧ (t.cl, t.co, t.hi) = (s.cl, s.co, s.hi) ∧
  ∀ (c : Cmd) (o : OpG8), (s.coreAt w.cl w.core).cmd w.qpos = some c → c.ins = .bwalk o → (s.coreAt w.cl w.core).a.wf = true →
    (c.gb.toNat + 64 * w.lane + 64 ≤ c.gc.toNat + 4 * w.lane ∨ c.gc.toNat + 4 * w.lane + 4 ≤ c.gb.toNat + 64 * w.lane) →
    ((t.coreAt w.cl w.core).a.read (c.gb.toNat + 64 * w.lane) 64 = leNat row ∧
     (t.coreAt w.cl w.core).a.read (c.gc.toNat + 4 * w.lane) 4 = (code + n * 65536) % 2 ^ 32 ∧
     ∀ a, ¬(c.gb.toNat + 64 * w.lane ≤ a ∧ a < c.gb.toNat + 64 * w.lane + 64) →
       ¬(c.gc.toNat + 4 * w.lane ≤ a ∧ a < c.gc.toNat + 4 * w.lane + 4) →
       (t.coreAt w.cl w.core).a.get a = (s.coreAt w.cl w.core).a.get a)
/-- A field of a rule word (R344). -/
def ruleField (r : Word) (lo n : Nat) : Nat := r.toNat / 2 ^ lo % 2 ^ n
/-- A signed rule field. -/
def ruleSigned (r : Word) (lo n : Nat) : Int := ((ruleField r lo n : Nat) : Int).bmod (2 ^ n)
/-- n bytes of the walk's 64-byte line from an offset, little-endian. -/
def walkBytes (w : Walk) (off n : Nat) : Nat := leNat ((w.b.drop off).take n)

/-- R266, R267, R341, R345 to R349: BRULE replaces its program slot as one action; BWALK sends one walk for each active lane of A
through its program, and its rows and status words lie in the A buffer when its handle turns full. -/
def RulesAndWalksRun : Prop :=
  (∀ s (o : OpG8) spc a n ws, s.Quiet → Instr.WellFormed (.brule o) → spc = fld o.imm 12 3 → n = fld o.imm 4 4 + 1 → a = (s.g o.a).toNat →
    RulesReady s o spc a n ws →
    Runs (.brule o) s (fun t => Advanced s t ∧ EngineFrame .copy (.brule o) [] [] [] [] [] 0
      ((s.modBd (fun b => { b with progs := put (16 * fld s.core.ctxid 0 16 + fld o.imm 0 4) ⟨fld o.imm 8 4, ws⟩ b.progs })).setHandle o.d.toNat
        { s.core.handle o.d.toNat with state := 2, expect := 1, landed := 1, cstat := 0 }).latchCore t)) ∧
  (∀ s (o : OpG8) m n b w p (r : Nat → Nat × Nat × List Byte), s.Quiet → Instr.WellFormed (.bwalk o) → s.full = true →
    vtSewCode s.slot.vtype = 3 → LenIs s o.len m → n = boundLen 64 o.len m → n ≤ 64 → b = (s.g o.b).toNat → w = (s.g o.c).toNat → b % 64 = 0 → w % 4 = 0 →
    b + 64 * n ≤ 393216 → w + 4 * n ≤ 393216 → (b + 64 * n ≤ w ∨ w + 4 * n ≤ b) → s.core.a.wf = true →
    s.core.notHolder 2 b (64 * n) = false → s.core.notHolder 2 w (4 * n) = false →
    look (16 * fld s.core.ctxid 0 16 + fld o.imm 0 4) s.bd.progs = some p → regValid (s.region (fld s.core.ctxid 0 16) p.region) = true →
    (s.copyState o.d.toNat).ready = true → (s.core.handle o.d.toNat).home = none → (s.core.handle o.d.toNat).bar = false → o.d.toNat < 32 →
    s.bd.walks = [] → (∀ st i, st < 8 → i < n → (s.mreg o.msk.toNat).getLsbD i = true → walkEnds s 16384 (laneWalk s o p i st) = some (r i)) →
    (o.imm.getLsbD 17 = true → ∀ i, i < n → (s.mreg o.msk.toNat).getLsbD i = true → (r i).1 < 2) →
    Runs (.bwalk o) s (fun t => Advanced s t ∧
      (∀ i, i < n → (s.mreg o.msk.toNat).getLsbD i = true →
        t.heldNum 2 (b + 64 * i) 64 = leNat (r i).2.2 ∧ t.heldNum 2 (w + 4 * i) 4 = ((r i).1 + (r i).2.1 * 65536) % 2 ^ 32) ∧
      (∀ a, (∀ i, i < n → (s.mreg o.msk.toNat).getLsbD i = true → ¬(b + 64 * i ≤ a ∧ a < b + 64 * i + 64) ∧ ¬(w + 4 * i ≤ a ∧ a < w + 4 * i + 4)) →
        t.held 2 a = s.held 2 a) ∧ (∀ a, t.held 1 a = s.held 1 a ∧ t.held 3 a = s.held 3 a) ∧ t.mem = s.mem ∧ t.bd.walks = [] ∧
      t.core.handle o.d.toNat = { s.core.handle o.d.toNat with state := 2, expect := n, landed := n, cstat := 0 } ∧
      t.core.queue = [] ∧ t.core.f.v = s.core.f.v ∧ t.core.f.m = s.core.f.m ∧ t.core.f.a = s.core.f.a ∧ t.core.st = s.core.st ∧
      t.slot.g = s.slot.g ∧ t.slot.status = s.slot.status))

/-- R344 to R346: one rule of a walk: LOAD, CMP, HASH, PTR and END, each with what it reads and where it goes, and the ends at the
limit and at a bad address. -/
def WalksTakeTheirRules : Prop :=
  ∀ s i w r d a len e, WalkRuns s i w → r = nthD 0 w.prog.rules w.pc → d = s.region w.ctx w.prog.region →
    a = (w.p : Int) + ruleSigned r 32 16 → len = ruleField r 52 8 → e = (regFirst d + a.toNat / 2 ^ 27, s.block (regFirst d + a.toNat / 2 ^ 27)) →
    (ruleField r 60 4 = 0 → w.p ≠ 0 → 0 ≤ a → a + len ≤ regSize d → a.toNat / 64 = (a.toNat + len - 1) / 64 → e.2.getLsbD 63 = true →
      ((e.2.getLsbD 62 = false ∨ e.1 ∉ s.bd.movAck) →
        (fld e.2 0 3 = w.stack →
          Runs (.walkStep i) s (fun t => t = stepped s i w { w with
            b := (s.mem.readList (fld e.2 3 25 * 2 ^ 27 + a.toNat % 2 ^ 27) len ++ List.replicate 64 0).take 64
            pc := ruleField r 0 4, n := w.n + 1, ent := some e.1, mov := none, mig := none })) ∧
        (fld e.2 0 3 ≠ w.stack →
          Runs (.walkStep i) s (fun t => t = s.modBd (fun b => { b with walks := b.walks.set i { w with
            mig := some ((w.mig.map (·.1)).getD s.time, fld e.2 0 3), mov := none, ent := some e.1 } })))) ∧
      (e.2.getLsbD 62 = true → e.1 ∈ s.bd.movAck →
        Runs (.walkStep i) s (fun t => t = s.modBd (fun b => { b with walks := b.walks.set i { w with
          mov := some (w.mov.getD s.time), mig := none, ent := some e.1 } })))) ∧
    (ruleField r 60 4 = 0 → w.p = 0 → Runs (.walkStep i) s (WalkEnded s i w 1 4 (w.n + 1) [])) ∧
    (ruleField r 60 4 = 0 → w.p ≠ 0 → (a < 0 ∨ (regSize d : Int) < a + len ∨ a.toNat / 64 ≠ (a.toNat + len - 1) / 64 ∨ e.2.getLsbD 63 = false) →
      Runs (.walkStep i) s (WalkEnded s i w 1 3 (w.n + 1) [])) ∧
    (∀ n x v g, ruleField r 60 4 = 1 → n = 2 ^ ruleField r 56 4 → v = walkBytes w (ruleField r 40 8) n →
      x = (if r.getLsbD 55 then w.h else w.k) % 2 ^ (8 * n) →
      g = (if x = v then ruleField r 0 4
        else if (if r.getLsbD 54 then (x : Int).bmod (2 ^ (8 * n)) < (v : Int).bmod (2 ^ (8 * n)) else x < v) then ruleField r 8 4 else ruleField r 4 4) →
      Runs (.walkStep i) s (fun t => t = stepped s i w { w with n := w.n + 1, mig := none, pc := g })) ∧
    (∀ h k g, ruleField r 60 4 = 2 → h = ((((w.k ^^^ (w.k / 2 ^ 32)) ^^^ ruleField r 16 32) * 0x9E3779B97F4A7C15) % 2 ^ 64) → k = ruleField r 52 8 → k ≤ 40 →
      g = (if k = 0 then w.p else (w.p + h / 2 ^ (64 - k) * 2 ^ ruleField r 48 4) % 2 ^ 40) →
      Runs (.walkStep i) s (fun t => t = stepped s i w { w with h := h, n := w.n + 1, mig := none, pc := ruleField r 0 4, p := g })) ∧
    (∀ q, ruleField r 60 4 = 3 → q = walkBytes w (ruleField r 40 8) (2 ^ ruleField r 56 4) % 2 ^ 40 →
      (q = 0 → r.getLsbD 55 = false → Runs (.walkStep i) s (WalkEnded s i w 1 4 (w.n + 1) [])) ∧
      (q ≠ 0 → Runs (.walkStep i) s (fun t => t = stepped s i w { w with n := w.n + 1, mig := none, p := q, pc := ruleField r 0 4 })) ∧
      (q = 0 → r.getLsbD 55 = true → Runs (.walkStep i) s (fun t => t = stepped s i w { w with n := w.n + 1, mig := none, pc := ruleField r 4 4 }))) ∧
    (∀ f, ruleField r 60 4 = 4 + f → f < 2 → Runs (.walkStep i) s (WalkEnded s i w 1 f (w.n + 1)
      (((w.b.drop (ruleField r 40 8)).take (ruleField r 52 8) ++ List.replicate 64 0).take 64)))

/-- R342, R343, R345, R349, R350, R352: a walk ends at its limit and when its region is gone; a moving walk is delivered to a stack that has
room, and dropped after 65,536 cycles; a walk that waits for a moving block is dropped after 2^20 cycles; the base dies acknowledge a
move; the high word commits a region descriptor whose blocks the table names, else the write is refused. -/
def WalksMoveWaitAndAreDropped : Prop :=
  (∀ s i w, s.bd.walks[i]? = some w → (∀ j x, j < i → s.bd.walks[j]? = some x → walkIs w.cl w.core w.qpos w.lane x = false) →
    ((w.gone = true ∨ regValid (s.region w.ctx w.prog.region) = false) → Runs (.walkStep i) s (WalkEnded s i w 0 5 w.n [])) ∧
    (InTime s w → w.gone = false → regValid (s.region w.ctx w.prog.region) = true → w.n = w.lim → Runs (.walkStep i) s (WalkEnded s i w 0 2 w.n [])) ∧
    (¬InTime s w → Runs (.walkStep i) s (WalkEnded s i w 0 5 w.n []) ∧ Runs (.walkMigrate i) s (WalkEnded s i w 0 5 w.n [])) ∧
    (∀ t0 st, w.mig = some (t0, st) → InTime s w → (s.bd.walks.filter (fun x => x.stack == st)).length < 512 →
      Runs (.walkMigrate i) s (fun t => t = (s.modBd (fun b => { b with walks := b.walks.set i { w with stack := st, mig := none } })).walkCount st 2)) ∧
    (∀ t0 st, w.mig = some (t0, st) → t0 + 65536 ≤ s.time → Runs (.migrationTimeout i) s (WalkEnded s i w 0 5 w.n [])) ∧
    (∀ t0, w.mov = some t0 → t0 + 2 ^ 20 ≤ s.time → Runs (.movWaitTimeout i) s (WalkEnded s i w 0 5 w.n []))) ∧
  (∀ s e, (s.block e).getLsbD 62 = true → e ∉ s.bd.movAck →
    Runs (.blockMovAck e) s (fun t => t = s.modBd (fun b => { b with movAck := e :: b.movAck }))) ∧
  (∀ s c r v k lo (fits : Prop), c < 4096 → r < 16 → k = 16 * c + r → lo = (look k s.bd.regLow).getD (s.region c r).1 →
    fits = (v % 2 ^ 40 ≠ 0 ∧ v % 64 = 0 ∧ fld lo 0 12 + (v % 2 ^ 40 + (2 ^ 27 - 1)) / 2 ^ 27 ≤ 4096 ∧
      ∀ j, j < (v % 2 ^ 40 + (2 ^ 27 - 1)) / 2 ^ 27 → (s.block (fld lo 0 12 + j)).getLsbD 63 = true) →
    ((v / 2 ^ 63) % 2 = 1 → ¬fits →
      Runs (.walkRegionCommit c r v) s (fun t => t = s.emit (.hostError (0x500000 + 16 * k + 8)))) ∧
    ((v / 2 ^ 63) % 2 = 1 → fits →
      Runs (.walkRegionCommit c r v) s (fun t => t = s.modBd (fun b => { b with
        regions := put k (lo &&& 0xFFFFFFFFFF000FFF, word v &&& 0x800000FFFFFFFFFF) b.regions, regLow := drop k b.regLow }))) ∧
    ((v / 2 ^ 63) % 2 = 0 →
      Runs (.walkRegionCommit c r v) s (fun t => t = s.modBd (fun b => { b with
        regions := put k (lo &&& 0xFFFFFFFFFF000FFF, word v &&& 0x800000FFFFFFFFFF) b.regions, regLow := drop k b.regLow
        walks := b.walks.map (fun w => if w.ctx = c ∧ w.prog.region = r then { w with gone := true } else w) }))))

end Sys2Proof.Machine

section
open Sys2Proof.Machine

/-- R336 to R340: an operation that finds its line in the combining store is performed and acknowledged, and its core's later loads see
it; else it waits there, with an entry of the slice's 64; the line's read performs the waiting ones in order; a line clean for 1,024
cycles is released; an acknowledgement lowers RFOUT. -/
def Obligations.SlicesPerformAndCombine : Prop :=
  (∀ s i (o : SliceOp), s.bd.ops[i]? = some o → o.acked = false → o.waits = false → o.plain →
    (∀ j p, j < i → s.bd.ops[j]? = some p → p.acked = true ∨ p.waits = true ∨ (p.cl, p.core, p.hi) ≠ (o.cl, o.core, o.hi) ∨
      p.loc + p.w / 8 ≤ o.loc ∨ o.loc + o.w / 8 ≤ p.loc) →
    (∀ h, firstSat (fun h => h.line == o.loc / 64) s.bd.held = some h → h.filled = true →
      Runs (.sliceOperation i) s (fun t => t = (performedBy s o).modBd (fun b => { b with
        ops := b.ops.set i { o with acked := true },
        held := b.held.map (fun h => if h.line = o.loc / 64 then { h with since := s.time } else h) }))) ∧
    ((∀ h, firstSat (fun h => h.line == o.loc / 64) s.bd.held = some h → h.filled = false) →
      (∀ b, s.bd.entry (o.loc / 64) false s.time = some b →
        Runs (.sliceOperation i) s (fun t => t = s.modBd (fun _ => { b with ops := s.bd.ops.eraseIdx i ++ [{ o with waits := true }] }))) ∧
      (s.bd.entry (o.loc / 64) false s.time = none → Runs (.sliceOperation i) s (fun t => t = s)))) ∧
  (∀ (b : BaseDie) line f now mine, mine = b.held.filter (fun h => sliceOf h.line == sliceOf line) →
    ((∃ h ∈ b.held, h.line = line) → b.entry line f now = some { b with
      held := b.held.map (fun h => if h.line = line then { h with since := now } else h) }) ∧
    ((∀ h ∈ b.held, h.line ≠ line) →
      (mine.length < 64 → b.entry line f now = some { b with held := b.held ++ [⟨line, f, now⟩] }) ∧
      (64 ≤ mine.length → (∀ h ∈ mine, h.filled = false) → b.entry line f now = none) ∧
      (64 ≤ mine.length → (∃ h ∈ mine, h.filled = true) → ∃ v ∈ mine, v.filled = true ∧
        (∀ h ∈ mine, h.filled = true → v.since ≤ h.since) ∧
        b.entry line f now = some { b with held := b.held.filter (fun h => h.line != v.line) ++ [⟨line, f, now⟩] }))) ∧
  (∀ s line, (∀ o ∈ s.bd.ops, o.waits = true → o.acked = false → o.loc / 64 = line → o.plain) →
    Runs (.combiningFill line) s (fun t => t =
      ((s.bd.ops.filter (fun o => o.waits && !o.acked && o.loc / 64 == line)).foldl performedBy s).modBd (fun b => { b with
        ops := b.ops.map (fun o => if o.waits ∧ o.acked = false ∧ o.loc / 64 = line then { o with acked := true, waits := false } else o),
        held := b.held.map (fun h => if h.line = line then { h with filled := true, since := s.time } else h) }))) ∧
  (∀ s line, Runs (.combiningRelease line) s (fun t => t = { s with bd := { s.bd with
    held := s.bd.held.filter (fun h => h.line != line || !h.filled || decide (s.time < h.since + 1024)) } })) ∧
  (∀ s cl core slot a (o : SliceOp) b u, s.bd.ops = a ++ o :: b → o.acked = true → (o.cl, o.core, o.hi) = (cl, core, slot != 0) →
    (∀ p ∈ a, ¬(p.acked = true ∧ (p.cl, p.core, p.hi) = (cl, core, slot != 0))) → u = (s.modBd (fun x => { x with ops := a ++ b })).at_ cl core (slot != 0) →
    Runs (.returnFreeAck cl core slot) s (fun t => t = backFrom s
      (if u.slot.th.tid = o.tid then u.setSlot { u.slot with rfout := u.slot.rfout - 1 } else u)))

/-- BRULE and BWALK; each rule of a walk; limits, migration, moving blocks, region descriptors (R266, R267, R341, R345 to R349;
R344 to R346; R342, R343, R345, R349, R350, R352). -/
def Obligations.RulesAndWalksRun : Prop :=
  Sys2Proof.Machine.RulesAndWalksRun ∧ Sys2Proof.Machine.WalksTakeTheirRules ∧ Sys2Proof.Machine.WalksMoveWaitAndAreDropped

end

namespace Sys2Proof.Machine

/-! ### Stage queues, launches, groups, pre-emption and traps (R268 to R285, R364 to R387) -/

/-- The cluster's stage queues after an item has been taken or put, and the waits of the stage begun anew (R283). -/
def queueSet (s : State) (co st : Nat) (q : List Word) (at_ : Nat) : State :=
  (s.modClus (fun k => { k with stq := k.stq.setIfInBounds (7 * co + st - 1) q,
                                stqAt := k.stqAt.setIfInBounds (7 * co + st - 1) at_ })).mapCores s.cl
    (fun _ c => c.mapSlots (fun x => if x.th.stage = st then { x with popAt := x.popAt.map (fun _ => s.time) } else x))
/-- The items of a core's queue of a stage, head first (R278). -/
def stageQueue (s : State) (cl co st : Nat) : List Word := (s.clusAt cl).stq[7 * co + st - 1]?.getD []
/-- A new thread of a launch at a place and a stage (R44, R274, R366): what its slot holds. -/
structure ThreadStarted (l : Launch) (num cl : Nat) (p : Nat × Bool) (stage : Nat) (t : State) : Prop where
  runs : (t.slotIn cl p).run = .running
  pc : (t.slotIn cl p).pc = word (l.code + l.soff[stage]?.getD 0)
  param : (t.slotIn cl p).getG 1 = word l.param ∧ ∀ n, n ≠ 1 → (t.slotIn cl p).getG n = 0
  place : (t.slotIn cl p).th.x = num % l.nx ∧ (t.slotIn cl p).th.y = num / l.nx % l.ny ∧ (t.slotIn cl p).th.z = num / (l.nx * l.ny) ∧
    (t.slotIn cl p).th.num = p.1 + (if p.2 then 8 else 0) ∧ (t.slotIn cl p).th.stage = stage ∧ (t.slotIn cl p).th.seq = l.seq
  trapvec : (t.slotIn cl p).trapvec = l.trapvec
  fresh : (t.slotIn cl p).loops = [] ∧ (t.slotIn cl p).pend = [] ∧ (t.slotIn cl p).stop = none ∧ (t.slotIn cl p).vl = (Slot.fresh p.2).vl
/-- The conditions of a row of R282 that start an instance: row 0 by occupancy, 1 by age, 2 by closure. -/
def rowStarts (s : State) (l : Launch) (cl co st row : Nat) : Prop :=
  (s.clusAt cl).preempt = false ∧ st ∉ (s.clusAt cl).shut ∧ 1 ≤ st ∧ st < l.ns ∧ stageQueue s cl co st ≠ [] ∧ l.killed = false ∧
  (row = 0 ∧ l.fk[st - 1]?.getD 0 ≤ (stageQueue s cl co st).length ∧ s.instances cl st < l.lk[st - 1]?.getD 0 ∧
      (st + 1 = l.ns ∨ (stageQueue s cl co (st + 1)).length ≤ 56) ∨
   row = 1 ∧ ((s.clusAt cl).stqAt[7 * co + st - 1]?.getD 0) + 1024 ≤ s.time ∧ s.instances cl st = 0 ∨
   row = 2 ∧ st ∈ (s.clusAt cl).closed ∧ s.instances cl st = 0)

/-- 128 bytes of device memory that the current thread reads: the descriptor of a launch at an address (R364). -/
def DescAt (u : State) (a loc : Nat) : Prop :=
  a < 2 ^ 54 ∧ a % 65536 + 128 ≤ 65536 ∧ u.xlate a .rd .other = .ok (.mem loc, u) ∧ (loc < peerBase ∨ u.peerAdmits loc 128 0 = true)
/-- The bytes of a completion record (R374). -/
def recordOf (l : Launch) : List Byte :=
  leBytes 8 (2 ^ 63 + (if l.killed then 2 else if l.faulted then 1 else 0) * 2 ^ 61 + min l.dropped (2 ^ 32 - 1)) ++ leBytes 8 (l.seq % 2 ^ 32)

/-- The THRACT word that an action leaves (R385). -/
def actionWord (act cl co : Nat) (hi : Bool) (ctx : Nat) : Word :=
  word (act * 2 ^ 60 + cl * 2 ^ 16 + co * 2 ^ 13 + (if hi then 2 ^ 12 else 0) + ctx)
/-- A slot that is stopped at a written record, whose action the host names (R384, R385). -/
def StoppedAt (s : State) (cl co : Nat) (hi : Bool) (ctx : Nat) (r : Record) : Prop :=
  cl < 40 ∧ co < 8 ∧ ctx < 4096 ∧ ((s.coreAt cl co).slot hi).run = .stopped ∧ ((s.coreAt cl co).slot hi).stop = some r ∧
  fld (s.coreAt cl co).ctxid 0 16 = ctx ∧ ∀ q ∈ s.hub.hubStop, q.ctx ≠ ctx

/-- R268, R279, R283, R285: TQPUSH appends an item to its core's queue of a later stage or answers that it is full; TQPOP takes the head of its own queue or the
tail of the next core's that holds one, owners before thieves and each in ascending place, and answers that the stage is closed, from
then on, or empty, or waits. -/
def StageQueuesPassItems : Prop :=
  (∀ s (o : OpA2) st, Instr.WellFormed (.tqpush o) → st = (s.g o.b).toNat → s.Free →
    ((s.g o.a).getLsbD 63 = true ∨ s.slot.th.ns ≤ st ∨ st ≤ s.slot.th.stage → Traps (.tqpush o) true 0x03 0x04 s.slot.pc s) ∧
    ((s.g o.a).getLsbD 63 = false → st < s.slot.th.ns → s.slot.th.stage < st →
      ((stageQueue s s.cl s.co st).length < 64 → Runs (.tqpush o) s (fun t => Advanced s t ∧ WroteG o.d.toNat 1 t ∧
        ScalarFrame o.d.toNat ((queueSet s s.co st (stageQueue s s.cl s.co st ++ [s.g o.a])
          (if stageQueue s s.cl s.co st = [] then s.time else s.clus.stqAt[7 * s.co + st - 1]?.getD 0)).modSlot (fun x => { x with latch := true })) t)) ∧
      (64 ≤ (stageQueue s s.cl s.co st).length → Runs (.tqpush o) s (fun t => Advanced s t ∧ WroteG o.d.toNat 0 t ∧
        ScalarFrame o.d.toNat (s.modSlot (fun x => { x with latch := true })) t)))) ∧
  (∀ s (o : OpA2) st, Instr.WellFormed (.tqpop o) → o.b = 0 → st = s.slot.th.stage → s.Free →
    (1 < (s.g o.a).toNat → Traps (.tqpop o) true 0x03 0x04 s.slot.pc s) ∧
    ((s.g o.a).toNat ≤ 1 → (st = 0 ∨ s.slot.retired = true) →
      Runs (.tqpop o) s (fun t => Advanced s t ∧ WroteG o.d.toNat 0x8000000000000000 t ∧ ScalarFrame o.d.toNat s t)) ∧
    ((s.g o.a).toNat ≤ 1 → st ≠ 0 → s.slot.retired = false → s.co < 8 →
      (∀ n x, n = ((s.waiters st).filter (fun r => r.1 == s.co && placeBefore r (s.co, s.hi))).length → (stageQueue s s.cl s.co st)[n]? = some x →
        Runs (.tqpop o) s (fun t => Advanced s t ∧ WroteG o.d.toNat (x &&& 0x7FFFFFFFFFFFFFFF) t ∧
          ScalarFrame o.d.toNat ((queueSet s s.co st ((stageQueue s s.cl s.co st).eraseIdx n) s.time).modSlot (fun x => { x with popped := true })) t)) ∧
      (∀ i c x q, 1 ≤ i → i ≤ 7 → c = (s.co + i) % 8 → (∀ j, j < i → stageQueue s s.cl ((s.co + j) % 8) st = []) → stageQueue s s.cl c st = q ++ [x] →
        ((s.waiters st).filter (fun r => r.1 == c)).length ≤ q.length →
        (∀ r ∈ s.waiters st, r.1 ≠ c → s.clus.scan r.1 st = some c → placeBefore r (s.co, s.hi) = false) →
        Runs (.tqpop o) s (fun t => Advanced s t ∧ WroteG o.d.toNat (x &&& 0x7FFFFFFFFFFFFFFF) t ∧
          ScalarFrame o.d.toNat ((queueSet s ((s.co + i) % 8) st q s.time).modSlot (fun x => { x with popped := true })) t)) ∧
      ((∀ j, j < 8 → stageQueue s s.cl ((s.co + j) % 8) st = []) →
        (st ∈ s.clus.closed → Runs (.tqpop o) s (fun t => Advanced s t ∧ WroteG o.d.toNat 0x8000000000000000 t ∧
          ScalarFrame o.d.toNat (s.modSlot (fun x => { x with retired := true })) t)) ∧
        (st ∉ s.clus.closed → s.g o.a = 1 →
          Runs (.tqpop o) s (fun t => Advanced s t ∧ WroteG o.d.toNat 0xC000000000000000 t ∧ ScalarFrame o.d.toNat s t)) ∧
        (st ∉ s.clus.closed → s.g o.a = 0 →
          Runs (.tqpop o) s (fun t => t = { s.modSlot (fun x => { x with popAt := some (x.popAt.getD s.time) }) with time := s.time + 1 })))))

/-- R277, R282, R283: an instance starts by occupancy or closure, or by age, at the first free place of its own core, else of the cluster, for
the first queue in ascending stage and then core, one in a cycle; an
instance that has waited 2,048 cycles while its stage's queues were empty retires. -/
def InstancesStartAndRetire : Prop :=
  (∀ s cl co st g l p row i, (s.clusAt cl).group = some g → s.launch g.seq = some l → rowStarts s l cl co st row →
    (i = Instr.stageInstanceStart cl co st ∧ (row = 0 ∨ row = 2 ∧ ¬rowStarts s l cl co st 0) ∨ i = Instr.stageAgeExpiry cl co st ∧ row = 1) →
    (∀ co' st' row', (st' < st ∨ st' = st ∧ co' < co) → co' < 8 → row' ≤ 2 → ¬rowStarts s l cl co' st' row') → st ≤ 7 → co < 8 →
    (s.clusAt cl).startedAt ≠ some s.time →
    firstSat (fun q => (s.slotIn cl q).run == .vacant) ([(co, false), (co, true)] ++ places) = some p → p.1 < 8 →
    Runs i s (fun t => ThreadStarted l g.num cl p st t ∧ (t.slotIn cl p).closer = decide (row = 2) ∧
      (t.clusAt cl) = { s.clusAt cl with startedAt := some s.time } ∧ t.mem = s.mem ∧ (∀ k, k ≠ 8 * cl + p.1 → look k t.cores = look k s.cores) ∧ (t.cl, t.co, t.hi) = (s.cl, s.co, s.hi))) ∧
  (∀ s u cl co slot t0, u = s.at_ cl co (slot != 0) → u.slot.popAt = some t0 → u.slot.run = .running → t0 + 2048 ≤ s.time →
    1 ≤ u.slot.th.stage → (∀ c, c < 8 → stageQueue s cl c u.slot.th.stage = []) → (u.slot.gang.getLsbD 63 = false ∨ u.myGang = none) →
    u.clus.preempt = false →
    Runs (.instanceRetire cl co slot) s (fun t => t = backFrom s (u.modSlot (fun x => { x with retired := true }))))

/-- R269, R270, R364 to R366, R370: LAUNCH, after a phase boundary at device scope, reads its descriptor, enqueues the child and returns its number; JOIN returns the
counts of the END codes of the children that it names, with an acquire; the candidate that ranks first, once the head of every running
queue has been read, is admitted; one with no group completes at once. -/
def LaunchesAreMadeAndJoined : Prop :=
  (∀ s u (o : OpA2) a loc, s.Free → Instr.WellFormed (.launch o) → (s.full = true ∨ fld (s.g o.b) 20 20 = 0) → fld (s.g o.b) 40 24 = 0 →
    a = (s.g o.a).toNat → a % 64 = 0 → phaseAct 3 s = .ok u → DescAt u a loc →
    (parseDesc s.full ((List.range 128).map (fun k => u.seen (loc + k))) = none →
      Runs (.launch o) s (fun t => t = (u.viewRead loc 128).2.takeTrap { code := 0x03, sub := 0x08 })) ∧
    (∀ l n, parseDesc s.full ((List.range 128).map (fun k => u.seen (loc + k))) = some l → u.hub.kids.length < 1024 →
      n = (if u.hub.seq + 1 = 2 ^ 32 then 1 else u.hub.seq + 1) →
      Runs (.launch o) s (fun t => Advanced s t ∧ WroteG o.d.toNat (word n) t ∧
        ScalarFrame o.d.toNat ((u.viewRead loc 128).2.modHub (fun h => { h with
          seq := n, kidAt := if h.kids = [] then s.time else h.kidAt, born := h.born ++ [(s.slot.th.tid, n)]
          kids := h.kids ++ [{ l with seq := n, ctx := fld s.core.ctxid 0 16, pri := max l.pri (fld s.slot.status 1 2), at_ := s.time
                                      mask := if s.g o.b = 0 then l.mask else (s.g o.b).toNat
                                      parent := some (s.slot.th.tid, s.slot.th.seq) }] })) t))) ∧
  (∀ s (o : OpA2) n (named : Nat → Bool) (done : List EndedKid), s.Free → Instr.WellFormed (.join o) → o.b = 0 → n = (s.g o.a).toNat →
    named = (fun q => n == 0 || q == n) → done = s.hub.ended.filter (fun k => k.tid == s.slot.th.tid && named k.seq) →
    (n ≠ 0 → (s.slot.th.tid, n) ∉ s.hub.born → Traps (.join o) true 0x03 0x04 s.slot.pc s) ∧
    ((n = 0 ∨ (s.slot.th.tid, n) ∈ s.hub.born) →
      ((∀ q, (s.slot.th.tid, q) ∈ s.hub.born → named q = true → ∃ k ∈ done, k.seq = q) →
        Runs (.join o) s (fun t => Advanced s t ∧ WroteG o.d.toNat (word ((done.filter (fun k => k.code == 0)).length % 2 ^ 20 * 2 ^ 40 +
            (done.filter (fun k => k.code == 1)).length % 2 ^ 20 * 2 ^ 20 + (done.filter (fun k => k.code == 2)).length % 2 ^ 20)) t ∧
          ScalarFrame o.d.toNat ((s.modHub (fun h => { h with
            born := h.born.filter (fun b => !(b.1 == s.slot.th.tid && named b.2))
            ended := h.ended.filter (fun k => !(k.tid == s.slot.th.tid && named k.seq)) })).acquire) t)) ∧
      (∀ q, (s.slot.th.tid, q) ∈ s.hub.born → named q = true → (∀ k ∈ done, k.seq ≠ q) →
        Runs (.join o) s (fun t => t = { s with time := s.time + 1 })))) ∧
  (∀ s c n h, s.hub.run.length < 64 → s.headsRead = true → c ∈ s.candidates → h = ((s.lnq c.src).head + 1) % 2 ^ 17 → (∀ d ∈ s.candidates, d = c ∨ Cand.before s.time c d = true ∧ Cand.before s.time d c = false) →
    (c.l.groups = 0 → Runs .launchAdmit s (fun t => ∃ l, (s.admitCand c).hub.run.getLast? = some l ∧ t = (s.admitCand c).completeLaunch l)) ∧
    (c.l.groups ≠ 0 → c.src = 64 → s.hub.kids.head? = some c.l →
      Runs .launchAdmit s (fun t => t = s.modHub (fun h => { h with
        order := h.order + 1, run := h.run ++ [{ c.l with order := h.order + 1 }], kids := h.kids.tail, kidAt := s.time }))) ∧
    (c.l.groups ≠ 0 → c.src < 64 → n = (if s.hub.seq + 1 = 2 ^ 32 then 1 else s.hub.seq + 1) →
      Runs .launchAdmit s (fun t => t = (s.modHub (fun h => { h with
        order := h.order + 1, seq := n, run := h.run ++ [{ c.l with seq := n, order := h.order + 1 }] })).setLnq c.src
        { s.lnq c.src with ctl := setFld (s.lnq c.src).ctl 17 17 h, cand := none, headAt := s.time,
                            arr := (s.lnq c.src).arr.filter (fun p => decide (1 ≤ (p.1 + 2 ^ 17 - h) % 2 ^ 17 ∧ (p.1 + 2 ^ 17 - h) % 2 ^ 17 ≤ 2 ^ 16)) })))

/-- R273, R274, R371, R373, R374: the launch that ranks first starts its next group on the lowest free cluster that it may use; a launch with no group and no
return-free operation left releases its stores, writes its completion record and is gone. -/
def GroupsStartAndLaunchesComplete : Prop :=
  (∀ s l cl, l ∈ s.hub.run → s.launch l.seq = some l → s.hasNext l = true → s.freeCluster l = some cl → 1 ≤ l.nt → l.nt ≤ 16 →
    (∀ k ∈ s.hub.run, s.finds k = true → k = l ∨ Launch.before l k = true ∧ Launch.before k l = false) →
    Runs .groupStart s (fun t => (t.clusAt cl).group = some ⟨l.seq, l.next, s.hub.order + 1⟩ ∧
      (∀ k p, k < l.nt → places[k]? = some p → ThreadStarted l l.next cl p 0 t) ∧
      t.launch l.seq = some { l with next := l.next + 1, ran := if l.ran.contains cl then l.ran else cl :: l.ran } ∧
      (∀ k, k ≠ cl → look k t.clusters = look k s.clusters) ∧ (∀ k, k / 8 ≠ cl → look k t.cores = look k s.cores) ∧ t.mem = s.mem)) ∧
  (∀ s l u v loc, s.launch l.seq = some l → s.launchOver l = true → (∀ o ∈ s.bd.ops, o.seq ≠ l.seq) → u = s.releaseAll l.scope l.ran →
    (if l.cmpl = 0 then v = u else HubFinds u l.ctx l.cmpl 16 .wr loc ∧ v = u.hubPut loc (recordOf l)) → l.queue = none → l.flags / 4 % 2 = 0 →
    Runs (.launchComplete l.seq) s (fun t => t = v.modHub (fun h => { h with
      run := dropFirst (fun k => k.seq == l.seq) h.run
      ended := match l.parent with
        | some (tid, _) => if (tid, l.seq) ∈ h.born then h.ended ++ [⟨tid, l.seq, if l.killed then 2 else if l.faulted then 1 else 0⟩] else h.ended
        | none => h.ended })))

/-- R381 to R383, R446: the oldest record of a slot, or of the hub, is written at PROD and the index register advances; a fatal one that finds no room counts in
FATALPEND; the host frees records through CONS. -/
def RecordsAreWritten : Prop :=
  (∀ s u cl co slot (r : Record) l x loc, u = s.at_ cl co (slot != 0) → cl < 64 → u.slot.pend = r :: l → u.slot.stop = none → x = s.hub.trqidx →
    HubFinds s (fld s.hub.trqbase 0 12) (fld s.hub.trqbase 12 42 * 4096 + 64 * fld x 0 12) 64 .wr loc →
    (if r.fatal then fld x 32 13 < 4096 else fld x 32 13 < 4064) →
    Runs (.trapRecordWrite cl co slot) s (fun t => t = backFrom s (((u.hubPut loc (r.bytes cl (x.getLsbD 28) s.hub.trqseq)).modHub (fun h => { h with
        trqidx := setFld (setFld (setFld x 0 12 ((fld x 0 12 + 1) % 4096)) 32 13 (fld x 32 13 + 1)) 28 1
          (if (fld x 0 12 + 1) % 4096 = 0 then (if x.getLsbD 28 then 0 else 1) else (if x.getLsbD 28 then 1 else 0))
        trqseq := (h.trqseq + 1) % 2 ^ 63 })).modSlot (fun y => { y with pend := l, stop := some r })))) ∧
  (∀ s u cl co slot (r : Record) l, u = s.at_ cl co (slot != 0) → cl < 64 → u.slot.pend = r :: l → u.slot.stop = none → r.fatal = true → 4096 ≤ fld s.hub.trqidx 32 13 →
    s.hub.fatalpend = 0 → r.ctx < 65536 →
    Runs (.trapRecordWrite cl co slot) s (fun t => t.hub = { s.hub with fatalpend := word (2 ^ 63 + 2 ^ 32 + r.ctx) } ∧ t.mem = s.mem ∧
      ∀ k c, look k t.cores = some c → fld c.ctxid 0 16 = r.ctx → c.s0.run ≠ .running ∧ c.s1.run ≠ .running ∧
        (∀ e ∈ c.queue, e.held = true) ∧ c.st.graph.state ≠ .running)) ∧
  (∀ s u cl co slot (r : Record) l e, u = s.at_ cl co (slot != 0) → cl < 64 → u.slot.pend = r :: l → u.slot.stop = none → r.fatal = true →
    fld s.hub.trqidx 32 13 < 4096 → s.hub.fatalpend = 0 → r.ctx < 65536 →
    s.xlateHub (fld s.hub.trqbase 0 12) (fld s.hub.trqbase 12 42 * 4096 + 64 * fld s.hub.trqidx 0 12) .wr = .error e →
    Runs (.trapRecordWrite cl co slot) s (fun t => t.hub = { s.hub with fatalpend := word (2 ^ 63 + 2 ^ 32 + r.ctx) } ∧ t.mem = s.mem ∧
      t.out = .irq 0x140008 :: s.out)) ∧
  (∀ s co slot (r : Record) l x loc, s.hub.hubPend = r :: l → x = s.hub.trqidx → fld x 32 13 < 4064 → fld x 0 12 < 4095 →
    HubFinds s (fld s.hub.trqbase 0 12) (fld s.hub.trqbase 12 42 * 4096 + 64 * fld x 0 12) 64 .wr loc →
    Runs (.trapRecordWrite 64 co slot) s (fun t => t = (s.hubPut loc (r.bytes r.cl (x.getLsbD 28) s.hub.trqseq)).modHub (fun h => { h with
      trqidx := setFld (setFld x 0 12 (fld x 0 12 + 1)) 32 13 (fld x 32 13 + 1), trqseq := (h.trqseq + 1) % 2 ^ 63
      hubPend := l, hubStop := h.hubStop ++ [r] }))) ∧
  (∀ s v n, n = (v % 4096 + 4096 - fld s.hub.trqidx 16 12) % 4096 → n ≤ fld s.hub.trqidx 32 13 →
    Runs (.trqConsume v) s (fun t => t = s.modHub (fun h => { h with
      trqidx := setFld (setFld h.trqidx 16 12 (v % 4096)) 32 13 (fld h.trqidx 32 13 - n) })))

/-- R378, R384, R385: REPLAY, RESUME, STEP and END act on a slot that is stopped at its record; KILL ends everything of a context. -/
def ActionsAreApplied : Prop :=
  (∀ s u cl co hi ctx arg (r : Record), StoppedAt s cl co hi ctx r → u = s.at_ cl co hi → r.fatal = false →
    (r.rpl = true → Runs (.replay cl co (if hi then 1 else 0) ctx arg) s (fun t => t.hub.thract = actionWord 0 cl co hi ctx ∧ t.hub.thrarg = word arg ∧
      (t.at_ cl co hi).slot = { u.slot with pc := r.epc, stop := none, run := if u.slot.pend = [] then .running else .stopped } ∧
      (t.at_ cl co hi).core.queue = u.core.queue.map (fun e => if e.hi = hi then { e with held := false, faulted := false } else e) ∧
      (t.at_ cl co hi).core.f = u.core.f ∧ t.mem = s.mem)) ∧
    (arg < 2 ^ 64 → arg % 2 = 0 → (∀ e ∈ u.core.queue, e.hi = hi → e.disp = true ∧ e.faulted = false) →
      Runs (.resume cl co (if hi then 1 else 0) ctx arg) s (fun t => t.hub.thract = actionWord 1 cl co hi ctx ∧
        (t.at_ cl co hi).slot = { u.slot with
          pc := word arg, stop := none, run := if u.slot.pend = [] then .running else .stopped, status := setFld u.slot.status 3 1 0 } ∧
        (t.at_ cl co hi).core.queue = u.core.queue ∧ (t.at_ cl co hi).core.f = u.core.f ∧ t.mem = s.mem)) ∧
    (r.code = 0x10 → Runs (.stepOne cl co (if hi then 1 else 0) ctx arg) s (fun t => t.hub.thract = actionWord 2 cl co hi ctx ∧
      (t.at_ cl co hi).slot = { u.slot with stepping := true, stop := none, run := if u.slot.pend = [] then .running else .stopped } ∧
      (t.at_ cl co hi).core.f = u.core.f ∧ t.mem = s.mem))) ∧
  (∀ s u cl co hi ctx arg (r : Record), StoppedAt s cl co hi ctx r → u = s.at_ cl co hi →
    Runs (.endThread cl co (if hi then 1 else 0) ctx arg) s (fun t => t.hub.thract = actionWord 3 cl co hi ctx ∧
      (t.at_ cl co hi).slot.run = .vacant ∧ t.mem = s.mem ∧ (∀ l, s.launch u.slot.th.seq = some l → ∃ k, t.launch u.slot.th.seq = some k ∧ k.faulted = true))) ∧
  (∀ s ctx, (s.ex.colls.map (fun c => (c.num, c.rank))).Nodup → ((s.ex.colls.filter (fun c => c.boot)).map (fun c => c.id)).Nodup →
    Runs (.kill ctx) s (fun t =>
      (∀ cl co, fld (s.coreAt cl co).ctxid 0 16 = ctx → co < 8 →
        (t.coreAt cl co).s0.run = .vacant ∧ (t.coreAt cl co).s1.run = .vacant ∧ (t.coreAt cl co).queue = []) ∧
      (∀ w ∈ t.bd.walks, w.ctx ≠ ctx) ∧ (∀ l ∈ t.hub.run, l.ctx = ctx → l.killed = true) ∧ (∀ l ∈ t.hub.kids, l.ctx = ctx → l.killed = true) ∧
      (∀ c ∈ t.ex.colls, c.ctx = ctx → c.fin = true) ∧ (∀ r ∈ t.hub.hubStop, r.ctx ≠ ctx)))

end Sys2Proof.Machine

section
open Sys2Proof.Machine

/-- TQPUSH and TQPOP; instances start by occupancy, age or closure, and retire (R268, R279, R283, R285; R277, R282, R283). -/
def Obligations.StageQueuesPassItems : Prop :=
  Sys2Proof.Machine.StageQueuesPassItems ∧ Sys2Proof.Machine.InstancesStartAndRetire

/-- LAUNCH and JOIN; admission, group start, completion (R269, R270, R364 to R366, R370; R273, R274, R371, R373, R374). -/
def Obligations.LaunchesRunTheirGroups : Prop :=
  Sys2Proof.Machine.LaunchesAreMadeAndJoined ∧ Sys2Proof.Machine.GroupsStartAndLaunchesComplete

/-- R367 to R369: the host starts, feeds and destroys a launch queue; the hub reads the packet at HEAD whole, halts the queue at a read that faults, and reports
a malformed packet and passes it. -/
def Obligations.LaunchQueuesAreServed : Prop :=
  (∀ s n v c, n < 64 → (s.lnq n).st = 0 → c = v / 2 ^ 36 % 4096 → s.ctxValid c = true → v % 2 ^ 17 ≤ 2 ^ (v / 2 ^ 52 % 32) →
    4 ≤ v / 2 ^ 52 % 32 → v / 2 ^ 52 % 32 ≤ 16 →
    Runs (.lnqStart n v) s (fun t => (t.lnq n).st = 1 ∧ (t.lnq n).head = 0 ∧ (t.lnq n).tail = v % 2 ^ 17 ∧ (t.lnq n).ctx = c ∧
      (t.lnq n).size = 2 ^ (v / 2 ^ 52 % 32) ∧ (t.lnq n).base = (s.lnq n).base ∧ (t.lnq n).cand = none ∧
      (∀ k, k ≠ n → t.lnq k = s.lnq k) ∧ t.mem = s.mem ∧ t.hub.run = s.hub.run)) ∧
  (∀ s n v, n < 64 → (s.lnq n).st = 1 → v < 2 ^ 17 →
    ((v + 2 ^ 17 - (s.lnq n).head) % 2 ^ 17 ≤ (s.lnq n).size →
      Runs (.lnqTail n v) s (fun t => (t.lnq n).tail = v ∧ (t.lnq n).head = (s.lnq n).head ∧ (t.lnq n).st = 1 ∧
        (t.lnq n).arr = (s.lnq n).arr ++ [(v, s.time)] ∧ (∀ k, k ≠ n → t.lnq k = s.lnq k) ∧ t.mem = s.mem)) ∧
    ((s.lnq n).size < (v + 2 ^ 17 - (s.lnq n).head) % 2 ^ 17 →
      Runs (.lnqTail n v) s (fun t => (t.lnq n).tail = (s.lnq n).tail ∧ (t.lnq n).fault = word (2 ^ 63 + 2 ^ 61) ∧
        t.out = .irq (0x130010 + 32 * n) :: s.out))) ∧
  (∀ s n, n < 64 → (s.lnq n).st = 1 → (s.lnq n).occ ≤ (s.lnq n).size →
    Runs (.lnqDestroy n) s (fun t => (t.lnq n).cand = none ∧ t.mem = s.mem ∧ t.hub.run = s.hub.run ∧
      if ∃ l ∈ s.hub.run, l.queue = some n then (t.lnq n).st = 3 ∧ t.out = s.out else (t.lnq n).st = 0 ∧ t.out = .irq (0x130010 + 32 * n) :: s.out)) ∧
  (∀ s n q a l1, n < 64 → q = s.lnq n → q.st = 1 → q.occ ≠ 0 → q.cand = none → a = q.base.toNat + 128 * (q.head % q.size) →
    (∀ x, s.hubRead q.ctx a 64 = .error x →
      Runs (.lnqPacketRead n) s (fun t => (t.lnq n).st = 2 ∧ (t.lnq n).head = q.head ∧ (t.lnq n).fault = word (2 ^ 63 + a % 2 ^ 54) ∧
        t.out = .irq (0x130010 + 32 * n) :: s.out ∧ t.mem = s.mem)) ∧
    (∀ l2 bs, HubFinds s q.ctx a 64 .rd l1 → HubFinds s q.ctx (a + 64) 64 .rd l2 → bs = s.hubBytes l1 64 ++ s.hubBytes l2 64 →
      (∀ l, parseDesc s.full bs = some l →
        Runs (.lnqPacketRead n) s (fun t => t = s.setLnq n { q with cand := some { l with
          ctx := q.ctx, pri := max l.pri (fld q.ctl 60 2), queue := some n, at_ := q.arrived } })) ∧
      (parseDesc s.full bs = none → leField bs 0x48 8 = 0 →
        Runs (.lnqPacketRead n) s (fun t => (t.lnq n).head = (q.head + 1) % 2 ^ 17 ∧ (t.lnq n).st = 1 ∧ (t.lnq n).fault = word (2 ^ 63 + 2 * 2 ^ 61 + a % 2 ^ 54) ∧
          t.out = .irq (0x130010 + 32 * n) :: s.out ∧ t.mem = s.mem))))

/-- R287, R371, R372, R375 to R377, R379, R380: a pre-emption request, of the operating system or for the victim that the hub chooses, stops
the cluster's commits and sets its latches; a running macro command stops; a node whose inputs hold markers and that cannot fire is
cut; a group at its stop is written to its area and leaves; a saved group is read back onto a free cluster for which its launch ranks
first. -/
def Obligations.GroupsArePreempted : Prop :=
  (∀ s cl os, cl < 64 → (s.clusAt cl).group.isSome = true → (os ≠ 0 ∨ s.hubPreempts cl = true) →
    Runs (.preemptRequest (cl + 64 * os)) s (fun t => t.clusAt cl = { s.clusAt cl with preempt := true } ∧
      (∀ co, co < 8 → (look (8 * cl + co) s.cores).isSome = true →
        t.coreAt cl co = { s.coreAt cl co with s0 := { (s.coreAt cl co).s0 with latch := true }, s1 := { (s.coreAt cl co).s1 with latch := true } }) ∧
      (∀ k, k / 8 ≠ cl → look k t.cores = look k s.cores) ∧ t.mem = s.mem ∧ t.hub = s.hub)) ∧
  (∀ (s : State) cl, s.hubPreempts cl = true ↔ ∃ l ∈ s.hub.run, s.finds l = false ∧ s.victim l = some cl ∧
    ∀ k, k < 40 → (s.clusAt k).preempt = true → s.wants l k = false) ∧
  (∀ (s : State) cl, cl < 64 → s.hubPreempts cl = false → Runs (.preemptRequest cl) s (fun t => t = s)) ∧
  (∀ (s : State) (l : Launch) cl, s.victim l = some cl → cl < 40 ∧ s.pinned cl = false ∧ (s.clusAt cl).preempt = false ∧ s.wants l cl = true ∧
    ∃ g v, (s.clusAt cl).group = some g ∧ s.launch g.seq = some v ∧ l.pri < v.pri ∧
      ∀ k h w, k < 40 → (s.clusAt k).group = some h → s.launch h.seq = some w → s.pinned k = false → (s.clusAt k).preempt = false →
        s.wants l k = true → l.pri < w.pri → w.pri < v.pri ∨ w.pri = v.pri ∧ h.order ≤ g.order) ∧
  (∀ s u cl co n e, engineOf n = some e → u = s.at_ cl co false → u.clus.preempt = true →
    Runs (.macroStop cl co n) s (fun t => t = backFrom s (u.modCore (fun k => { k with queue := k.queue.map (fun c =>
      if c.eng = e ∧ c.under = true ∧ c.macro = true then { c with paused := true } else c) })))) ∧
  (∀ s u cl co n x, u = s.at_ cl co false → look n u.core.st.graph.nodes = some x → u.clus.preempt = true → u.core.st.graph.state = .running →
    x.state = 2 → x.fetch = none →
    (cfgType x.cfg = 0 ∧ 2 ≤ cfgMode x.cfg ∨ (∀ f ∈ feeders x.cfg, (u.node f).cut = true ∨ (u.node f).done = true) ∧
      (∀ q ∈ cfgPorts x.cfg, q.2.1 = true ∨ u.portMarked q.1 = true) ∧ u.canFire n x = false) →
    Runs (.nodeCut cl co n) s (fun t => t = backFrom s (u.modNode n (fun y => { y with cut := true })))) ∧
  (∀ s cl area g, cl < 64 → (s.clusAt cl).group = some g → (s.clusAt cl).preempt = true → (∀ co, co < 8 → s.coreStopped cl co = true) →
    area % 65536 = 0 → area + 0x10000 + 0x1D0000 * 8 ≤ s.hbm → s.MemWf → (∀ p ∈ s.cores, ∀ q ∈ s.cores, p.1 = q.1 → p = q) →
    Runs (.groupSave (cl + 64) area) s (fun t => (t.clusAt cl).group = some g ∧ (t.clusAt cl).preempt = false ∧ t.hub = s.hub ∧
      ∀ co hi, co < 8 → ((s.coreAt cl co).slot hi).run ≠ .vacant → ((t.coreAt cl co).slot hi).run = .stopped ∧
        ∃ r, ((t.coreAt cl co).slot hi).pend = ((s.coreAt cl co).slot hi).pend ++ [r] ∧ r.fatal = true) ∧
    Runs (.groupSave cl area) s (fun t => (t.clusAt cl).group = none ∧
      (∀ co off, co < 8 → off < 0x80000 → t.mem.get (area + 0x10000 + 0x1D0000 * co + off) = (s.coreAt cl co).w.get off) ∧
      (∀ co off, co < 8 → off < 0x60000 → t.mem.get (area + 0x10000 + 0x1D0000 * co + 0x80000 + off) = (s.coreAt cl co).a.get off) ∧
      (∀ co off, co < 8 → off < 0x20000 → t.mem.get (area + 0x10000 + 0x1D0000 * co + 0xE0000 + off) = (s.coreAt cl co).c.get off) ∧
      (∀ co, co < 8 → (t.coreAt cl co).s0.run = .vacant ∧ (t.coreAt cl co).s1.run = .vacant ∧ (t.coreAt cl co).queue = []) ∧
      ∃ e : Saved, t.hub.saved = s.hub.saved ++ [e] ∧ e.grp = g ∧ e.cl = cl ∧ e.area = area ∧ e.pinned = s.pinned cl)) ∧
  (∀ s cl i (v : Saved) l, cl < 64 → s.hub.saved[i]? = some v → s.launch v.grp.seq = some l → (s.clusAt cl).group = none → s.firstFor l cl = true →
    (v.pinned = false ∨ cl = v.cl) → v.cores.length = 8 → s.mem.wf = true →
    Runs (.groupRestore cl i) s (fun t => (t.clusAt cl).group = v.clus.group ∧ (t.clusAt cl).preempt = false ∧ t.mem = s.mem ∧
      (∀ co c, v.cores[co]? = some c →
        (t.coreAt cl co).s0 = { c.s0 with lines := [], badLines := [] } ∧ (t.coreAt cl co).s1 = { c.s1 with lines := [], badLines := [] } ∧
        (t.coreAt cl co).f.m = c.f.m ∧ (t.coreAt cl co).h = c.h ∧
        (∀ off, off < 0x80000 → (t.coreAt cl co).w.get off = s.mem.get (v.area + 0x10000 + 0x1D0000 * co + off)) ∧
        (∀ j e, (t.coreAt cl co).queue[j]? = some e →
          e.qpos = s.mem.read (v.area + 0x10000 + 0x1D0000 * co + 0x140000 + 128 * j + 18) 2 ∧
          e.ga = word (s.mem.read (v.area + 0x10000 + 0x1D0000 * co + 0x140000 + 128 * j + 40) 8)) ∧
        ∀ n, n < 64 → (c.cutWork = none ∨ 32 ≤ n) → (t.coreAt cl co).f.v[n]?.getD 0 = BitVec.ofNat 4096 (s.mem.read (v.area + 0x10000 + 0x1D0000 * co + 0x130000 + 512 * n) 512))))

/-- Trap records are written and consumed; REPLAY, RESUME, STEP, END and KILL act (R381 to R383, R446; R378, R384, R385). -/
def Obligations.RecordsAndActions : Prop :=
  Sys2Proof.Machine.RecordsAreWritten ∧ Sys2Proof.Machine.ActionsAreApplied

end

namespace Sys2Proof.Machine

/-! ### Translation, storage, errors, boot (R392 to R444) -/

/-- An invalidation row of the table with its KIND, context and address (R397). -/
def invalidation : Instr → Option (Nat × Nat × Nat)
  | .tlbinvPage64k c v => some (0, c, v)
  | .tlbinvPage128m c v => some (1, c, v)
  | .tlbinvPage256g c v => some (2, c, v)
  | .tlbinvContext c => some (3, c, 0)
  | .tlbinvAll => some (4, 0, 0)
  | _ => none
/-- A translation that an invalidation word covers (R397). -/
def coveredBy (v : Word) (e : TlbEnt) : Prop :=
  v.toNat / 2 ^ 60 % 8 = 4 ∨ e.ctx = v.toNat / 16 % 4096 ∧ (v.toNat / 2 ^ 60 % 8 = 3 ∨
    ∃ a, v.toNat / 2 ^ 16 % 2 ^ 38 * 2 ^ 16 / pageSize (v.toNat / 2 ^ 60 % 8) = a / pageSize (v.toNat / 2 ^ 60 % 8) ∧ e.va ≤ a ∧ a < e.va + e.size)
/-- The ring entries that a post up to t forwards (R413). -/
def posted (q : Nvq) (t : Nat) : List Nat := (List.range ((t + q.size - q.sqf) % q.size)).map (fun j => (q.sqf + j) % q.size)
/-- The completion entries of a pair whose last byte a write of n bytes at an address covers (R415). -/
def completed (q : Nvq) (va n : Nat) : Nat :=
  ((List.range q.size).filter (fun i => decide (va ≤ q.cq.toNat + 16 * i + 15 ∧ q.cq.toNat + 16 * i + 15 < va + n))).length
/-- An export window of this package that admits an access of n bytes from a port (R405): 0 read, 1 write, 2 atomic, 3
return-free. -/
def WindowAdmits (s : State) (port a n kind : Nat) : Prop :=
  ∃ w lo hi, w < 64 ∧ lo = (look (2 * w) s.xl.pxw).getD 0 ∧ hi = (look (2 * w + 1) s.xl.pxw).getD 0 ∧ lo.getLsbD 63 = true ∧ fld lo 56 4 = port ∧
    fld lo 16 36 * 65536 ≤ a ∧ a + n ≤ fld hi 16 36 * 65536 + 65536 ∧
    (kind = 0 → lo.getLsbD 60 = true) ∧ (kind = 1 → lo.getLsbD 61 = true) ∧ (kind = 2 → lo.getLsbD 62 = true) ∧
    (kind = 3 → lo.getLsbD 62 = true ∧ lo.getLsbD 61 = true)

/-- The bytes of an error record (R426): class, unit, context, location, time, tag and sequence number. -/
def errorRecord (s : State) (cls unit ctx loc : Nat) : List Byte :=
  leBytes 8 (cls * 2 ^ 56 + unit * 2 ^ 48 + ctx % 65536) ++ leBytes 8 loc ++ leBytes 8 s.time ++
    leBytes 8 ((if s.er.elgidx.getLsbD 26 then 2 ^ 63 else 0) + s.er.elgseq % 2 ^ 63)
/-- The log has room for a class of error, before its last slot (R426): a corrected error leaves the last 64 free. -/
def LogRoom (s : State) (cls : Nat) : Prop :=
  fld s.er.elgidx 32 11 < (if cls = 1 then 960 else 1024) ∧ fld s.er.elgidx 0 10 < 1023 ∧
  s.er.elgbase.toNat + 32 * fld s.er.elgidx 0 10 + 32 ≤ s.hbm
/-- The state with one record more in the log (R426, R432). -/
def recorded (s : State) (cls unit ctx loc : Nat) : State :=
  let k := 20 * 65536 + unit * 256 + cls
  { s with
    mem := s.mem.writeList (s.er.elgbase.toNat + 32 * fld s.er.elgidx 0 10) (errorRecord s cls unit ctx loc)
    er := { s.er with
      elgidx := setFld (setFld s.er.elgidx 0 10 (fld s.er.elgidx 0 10 + 1)) 32 11 (fld s.er.elgidx 32 11 + 1)
      elgseq := (s.er.elgseq + 1) % 2 ^ 63
      tlm := put k (((look k s.er.tlm).getD 0 + 1) % 2 ^ 64) s.er.tlm } }
/-- A test of a unit pending from now on (R427). -/
def tested (s : State) (unit place : Nat) : State :=
  { s with er := { s.er with tests := if (unit, place) ∈ s.er.tests then s.er.tests else s.er.tests ++ [(unit, place)] } }

/-- A measurement register extended (R436). -/
def measured (m : BitVec 384) (type svn : Nat) (digest : BitVec 384) : BitVec 384 :=
  sha3 (leBytes 48 m.toNat ++ leBytes 2 type ++ leBytes 2 svn ++ leBytes 48 digest.toNat)
/-- An image that every check of R435 passes, in their order. -/
structure ImageGood (s : State) (type : Nat) (bs : List Byte) : Prop where
  shape : 5440 + leField bs 8 8 ≤ bs.length ∧ leField bs 0 4 = 0x4B574E49 ∧ leField bs 4 2 = type ∧ 1 ≤ leField bs 8 8 ∧ leField bs 8 8 ≤ 2 ^ 28 ∧
    leField bs 0x1535 11 = 0
  place : if type = 4 then leField bs 0x10 8 = 0 else leField bs 0x10 8 % 65536 = 0 ∧ leField bs 0x10 8 + leField bs 8 8 ≤ s.hbm
  keys : sha3 ((bs.drop 0x48).take 32) = Config.keyHash false ∧ sha3 ((bs.drop 0x68).take 1952) = Config.keyHash true
  svn : (look type s.bt.rollback).getD 0 ≤ leField bs 6 2
  digest : sha3 ((bs.drop 5440).take (leField bs 8 8)) = BitVec.ofNat 384 (leField bs 0x18 48)
  signed : ed25519 ((bs.drop 0x48).take 32) (bs.take 0x48) ((bs.drop 0x808).take 64) = true ∧
    mldsa ((bs.drop 0x68).take 1952) (bs.take 0x48) ((bs.drop 0x848).take 3309) = true

/-- R271, R411 to R415: a queue pair starts when its registers fit, and is destroyed; SQPOST forwards the new entries to the shadow ring and rings the
drive's doorbell; CQPOLL finds an entry of the present phase. -/
def QueuePairsPostAndPoll : Prop :=
  (∀ s n v q, n < 1024 → (s.nvq n).st = 0 → q = { s.nvq n with ctl := setFld (word v) 62 2 1 &&& 0x30F0FFFFFFFFF000 } → s.nvqFit q = true →
    Runs (.nvqStart n v) s (fun t => (t.nvq n).st = 1 ∧ (t.nvq n).qid = v / 65536 % 65536 ∧ (t.nvq n).ctx = v / 2 ^ 32 % 65536 ∧
      (t.nvq n).stat = 0x0001000000000000 ∧ (t.nvq n).sq = (s.nvq n).sq ∧ (t.nvq n).cq = (s.nvq n).cq ∧ (∀ k, k ≠ n → t.nvq k = s.nvq k) ∧ t.mem = s.mem)) ∧
  (∀ s n, n < 1024 → ((s.nvq n).st = 1 ∨ (s.nvq n).st = 2) →
    Runs (.nvqDestroy n) s (fun t => t = s.setNvq n { s.nvq n with ctl := setFld (s.nvq n).ctl 62 2 3 })) ∧
  (∀ s n b, (s.nvq n).st = 3 → (b ≠ 0 ∨ (s.nvq n).open_ = 0) →
    Runs (.nvqDestroyDone n b) s (fun t => t = (s.setNvq n { s.nvq n with ctl := setFld (s.nvq n).ctl 62 2 0 }).emit (.irq (0x200000 + 64 * n)))) ∧
  (∀ s u (o : OpA2) n x q (loc : Nat → Nat) w, s.Free → Instr.WellFormed (.sqpost o) → n = (s.g o.a).toNat → x = (s.g o.b).toNat → n < 1024 →
    q = s.nvq n → x < q.size → q.sqf < q.size → q.size ≤ 4096 → q.st = 1 → q.ctx = fld s.core.ctxid 0 16 → phaseAct 4 s = .ok u →
    (∀ i ∈ posted q x, HubFinds u q.ctx (q.sq.toNat + 64 * i) 64 .rd (loc i) ∧ u.shadow n + 64 * i + 64 ≤ u.hbm) →
    w = ({ u with mem := (posted q x).foldl (fun m i => m.writeList (u.shadow n + 64 * i)
      (({ u with mem := m } : State).hubBytes (loc i) 64)) u.mem }).setNvq n
      { q with stat := setFld (setFld q.stat 16 16 x) 32 16 x, open_ := q.open_ + (posted q x).length } →
    Runs (.sqpost o) s (fun t => Advanced s t ∧ WroteG o.d.toNat (word q.sqt) t ∧
      ScalarFrame o.d.toNat (if x = q.sqf then w else w.emit (.doorbell q.rp ((q.db.toNat + 2 * q.qid * (4 * 2 ^ fld q.ctl 12 4)) % 2 ^ 64) x)) t)) ∧
  (∀ s (o : OpA2) n q loc h u, s.Free → Instr.WellFormed (.cqpoll o) → n = (s.g o.a).toNat → n < 1024 → (s.g o.b).toNat ≤ 1 → q = s.nvq n → q.st = 1 →
    q.ctx = fld s.core.ctxid 0 16 → s.xlate (q.cq.toNat + 16 * q.cqh) .rd .other = .ok (.mem loc, s) → loc < peerBase →
    h = (q.cqh + 1) % q.size → ((s.hubByte (loc + 14)).getLsbD 0 ≠ q.ep →
      Runs (.cqpoll o) s (fun t => Advanced s t ∧ WroteG o.d.toNat (word q.cqh) t ∧ ScalarFrame o.d.toNat s t)) ∧
    ((s.hubByte (loc + 14)).getLsbD 0 = q.ep →
      u = (if s.g o.b = 1 then (s.acquire.setNvq n { q with
          stat := if h = 0 then setFld (setFld q.stat 0 16 0) 48 1 (if q.ep then 0 else 1) else setFld q.stat 0 16 h }).emit
          (.doorbell q.rp ((q.db.toNat + (2 * q.qid + 1) * (4 * 2 ^ fld q.ctl 12 4)) % 2 ^ 64) h) else s.acquire) →
      Runs (.cqpoll o) s (fun t => Advanced s t ∧ WroteG o.d.toNat (word (2 ^ 63 + q.cqh)) t ∧ ScalarFrame o.d.toNat u t)))

/-- R337, R404 to R406, R412 to R415: a drive reads its shadow ring and reads and writes memory of its context, and a completion entry sets the latches; what its pair does
not admit is refused and counted; a peer reads, writes and updates what an export window admits, and all else is refused and counted. -/
def DrivesAndPeersAccessMemory : Prop :=
  (∀ s port addr n w data, port < 4 → s.xl.rootUp.getLsbD port = false → Runs (.driveAccess port addr n w data) s (fun t => t = s)) ∧
  (∀ s port addr n w data k va q u, (4 ≤ port ∨ s.xl.rootUp.getLsbD port = true) → k = addr / 2 ^ 54 % 1024 → va = addr % 2 ^ 53 → q = s.nvq k →
    u = { s with xl := { s.xl with crc := drop (16 + port) s.xl.crc } } →
    ((q.st = 0 ∨ q.rp ≠ port ∨ 2 ^ 53 < va + n) →
      Runs (.driveAccess port addr n w data) s (fun t => (t.nvq k).stat = setFld q.stat 49 15 (min 32767 (fld q.stat 49 15 + 1)) ∧ t.mem = s.mem ∧
        t.out = (if w = 0 then .driveReply false 0 :: s.out else s.out))) ∧
    (q.st ≠ 0 → q.rp = port → va + n ≤ 2 ^ 53 →
      (addr / 2 ^ 53 % 2 = 1 → w = 0 → va + n ≤ 64 * q.size → s.shadow k + va + n ≤ s.hbm →
        Runs (.driveAccess port addr n w data) s (fun t => t = u.emit (.driveReply true (s.mem.read (s.shadow k + va) n)))) ∧
      (∀ loc, addr / 2 ^ 53 % 2 = 0 → w = 0 → HubFinds s q.ctx va n .rd loc →
        Runs (.driveAccess port addr n w data) s (fun t => t = u.emit (.driveReply true (leNat (s.hubBytes loc n))))) ∧
      (∀ loc, addr / 2 ^ 53 % 2 = 0 → w ≠ 0 → HubFinds s q.ctx va n .wr loc →
        Runs (.driveAccess port addr n w data) s (fun t => t.mem = (s.hubPut loc (leBytes n data)).mem ∧ t.out = s.out ∧
          (t.nvq k).open_ = q.open_ - completed q va n ∧
          ∀ j c, look j s.cores = some c → look j t.cores = some (if 0 < completed q va n ∧ fld c.ctxid 0 16 = q.ctx then
            { c with s0 := { c.s0 with latch := true }, s1 := { c.s1 with latch := true } } else c))))) ∧
  (∀ s port kind a n data u, u = { s with xl := { s.xl with crc := drop port s.xl.crc } } →
    (WindowAdmits s port a n (kind % 4) → a + n ≤ s.hbm →
      (kind % 4 = 0 → Runs (.peerAccessArrive port kind a n data) s (fun t => t = u.emit (.peerReply true (s.mem.read a n)))) ∧
      (kind % 4 = 1 → Runs (.peerAccessArrive port kind a n data) s (fun t => t = { u with
        mem := s.mem.write a data n, out := .peerReply true 0 :: s.out })) ∧
      (2 ≤ kind % 4 → (n = 2 ∨ n = 4 ∨ n = 8) → data / 2 ^ 64 < 2 ^ (8 * n) → data % 2 ^ 64 < 2 ^ (8 * n) → s.bd.ops = [] → (∀ h ∈ s.bd.held, h.line ≠ a / 64) →
        (s.bd.entry (a / 64) true s.time = none → Runs (.peerAccessArrive port kind a n data) s (fun t => t = u)) ∧
        (∀ b, s.bd.entry (a / 64) true s.time = some b → Runs (.peerAccessArrive port kind a n data) s (fun t => t = { u with
          bd := b
          mem := s.mem.write a (atomicValue (kind / 4) (8 * n) (s.mem.read a n) (data % 2 ^ 64) (data / 2 ^ 64)) n
          out := .peerReply true (if kind % 4 = 2 then s.mem.read a n else 0) :: s.out })))) ∧
    (¬WindowAdmits s port a n (kind % 4) →
      ((kind % 4 = 0 ∨ kind % 4 = 2) → Runs (.peerAccessArrive port kind a n data) s (fun t => t = u.emit (.peerReply false 0))) ∧
      ((kind % 4 = 1 ∨ kind % 4 = 3) → Runs (.peerAccessArrive port kind a n data) s (fun t => t = { u with
        xl := { u.xl with peerRej := (s.xl.peerRej + 1) % 2 ^ 64 }, out := .peerReply false 0 :: s.out }))))

/-- R17, R275, R276: the engine dispatches its oldest command, here MZERO, which runs and leaves the queue; a command that has done its last step retires
with its flags and residue count. -/
def CommandsDispatchAndRetire : Prop :=
  (∀ s u cl co d (c : Cmd), u = s.at_ cl co false → u.clus.preempt = false → u.eager = true → u.core.queue = [c] → c.ins = .mzero d → c.eng = .mat → c.disp = false →
    c.done = false → c.held = false → c.faulted = false → c.hi = false → c.ranges = [] → c.pops = [] → c.vls = [] → u.slot.run = .running → c.flags = 0 → c.mrs = 0 → u.core.heldRanges = [] →
    d.toNat < 4 →
    Runs (.commandDispatch cl co 1) s (fun t => (t.at_ cl co false).core = { u.core with
      queue := [], f := { u.core.f with a := u.core.f.a.setIfInBounds d.toNat 0 }, s0 := (t.at_ cl co false).core.s0 } ∧
      fld (t.at_ cl co false).slot.status 0 41 = fld u.slot.status 0 41 ∧ t.mem = s.mem ∧ (t.cl, t.co, t.hi) = (s.cl, s.co, s.hi))) ∧
  (∀ s u cl co q (c : Cmd), u = s.at_ cl co false → u.core.queue = [c] → c.qpos = q → c.done = true → c.eng ≠ .vec → c.hi = false → c.flags < 128 →
    Runs (.commandRetire cl co q) s (fun t => (t.at_ cl co false).core.queue = [] ∧ (t.at_ cl co false).core.f = u.core.f ∧
      (∀ k, k < 7 → (t.at_ cl co false).slot.status.getLsbD (41 + k) = (u.slot.status.getLsbD (41 + k) || c.flags.testBit k)) ∧
      fld (t.at_ cl co false).slot.status 48 16 = min 65535 (fld u.slot.status 48 16 + c.mrs) ∧
      fld (t.at_ cl co false).slot.status 0 41 = fld u.slot.status 0 41 ∧ t.mem = s.mem ∧ (t.cl, t.co, t.hi) = (s.cl, s.co, s.hi)))

end Sys2Proof.Machine

section
open Sys2Proof.Machine

/-- MDRAIN to a port; dispatch of the oldest command and retirement of a finished one (R165, R176; R17, R275, R276). -/
def Obligations.DrainsStreamAndCommandsRetire : Prop :=
  Sys2Proof.Machine.DrainsToPorts ∧ Sys2Proof.Machine.CommandsDispatchAndRetire

/-- R397 to R400: an invalidation starts when none is under way; at its end every translation that it covers is gone, every store has
reached its home and AGE has risen; the husk queue takes frames with a stamp and gives one back when no older access is left. -/
def Obligations.InvalidationsAndHusks : Prop :=
  (∀ s i kind ctx va, invalidation i = some (kind, ctx, va) →
    (s.xl.tlbinv.getLsbD 63 = false → Runs i s (fun t => t = { s with xl := { s.xl with
      tlbinv := word (2 ^ 63 + kind * 2 ^ 60 + va / 65536 % 2 ^ 38 * 65536 + ctx % 4096 * 16) } })) ∧
    (s.xl.tlbinv.getLsbD 63 = true → Runs i s (fun t => t = s))) ∧
  (∀ s, s.xl.tlbinv.getLsbD 63 = true →
    Runs .tlbinvDone s (fun t => t.xl.tlbinv = s.xl.tlbinv &&& 0x7FFFFFFFFFFFFFFF ∧ t.xl.age = (s.xl.age + 1) % 2 ^ 48 ∧
      (∀ e, e ∈ t.xl.tlb ↔ e ∈ s.xl.tlb ∧ ¬coveredBy s.xl.tlbinv e) ∧
      (∀ cl co e, e ∈ (t.coreAt cl co).tlb ↔ e ∈ (s.coreAt cl co).tlb ∧ ¬coveredBy s.xl.tlbinv e) ∧
      (∀ k e, e ∈ (t.clusAt k).tlb ↔ e ∈ (s.clusAt k).tlb ∧ ¬coveredBy s.xl.tlbinv e) ∧
      (∀ k, (t.clusAt k).dirty = []) ∧ t.die0 = [] ∧ t.die1 = [] ∧ t.peer = [] ∧ t.hub = s.hub)) ∧
  (∀ s v, (s.xl.husk.length < 4096 → Runs (.huskin v) s (fun t => t = { s with xl := { s.xl with
      husk := s.xl.husk ++ [(word v &&& 0x000FFFFFFFFF0003, s.xl.age)] } })) ∧
    (4096 ≤ s.xl.husk.length → Runs (.huskin v) s (fun t => t = { s with xl := { s.xl with huskRef := true } }))) ∧
  (∀ s f a l, s.xl.husk = (f, a) :: l →
    ((∀ x ∈ s.xl.age :: s.tags, a ≤ x) → Runs .huskout s (fun t => t = { s with
      xl := { s.xl with husk := l }, out := .readReply (setFld f 63 1 1).toNat :: s.out })) ∧
    ((∃ x ∈ s.xl.age :: s.tags, x < a) → Runs .huskout s (fun t => t = { s with out := .readReply 0 :: s.out }))) ∧
  (∀ s, s.xl.husk = [] → Runs .huskout s (fun t => t = { s with out := .readReply 0 :: s.out }))

/-- R397, R399: every row of the invalidation and husk registers completes, form by form: while an invalidation is under way a new one changes
nothing; else TLBINV takes BUSY with the KIND, the page of 64 KiB and the context named; with none under way its end changes nothing; HUSKIN
queues the frame with AGE, or reports a full queue; HUSKOUT answers the oldest frame, or 0 while an access as old is in flight or the queue is empty. -/
def Obligations.InvalidationAndHuskRowsComplete : Prop :=
  (∀ (s : State) c v (row : Instr) kind,
    (row, kind) ∈ [(Instr.tlbinvPage64k c v, 0), (.tlbinvPage128m c v, 1), (.tlbinvPage256g c v, 2), (.tlbinvContext c, 3), (.tlbinvAll, 4)] →
    exec row s = .next (if s.xl.tlbinv.getLsbD 63 then s else { s with xl := { s.xl with
      tlbinv := word (2 ^ 63 + kind * 2 ^ 60 + (if kind ≤ 2 then v / 65536 % 2 ^ 38 * 65536 else 0) + (if kind ≤ 3 then c % 4096 * 16 else 0)) } })) ∧
  (∀ s : State, s.xl.tlbinv.getLsbD 63 = false → exec .tlbinvDone s = .next s) ∧
  (∀ s : State, s.xl.tlbinv.getLsbD 63 = true → ∃ t, exec .tlbinvDone s = .next t ∧ t.xl.tlbinv.getLsbD 63 = false ∧ t.xl.age = (s.xl.age + 1) % 2 ^ 48) ∧
  (∀ (s : State) v, exec (.huskin v) s = .next { s with xl := if s.xl.husk.length < 4096 then
    { s.xl with husk := s.xl.husk ++ [(word v &&& 0x000FFFFFFFFF0003, s.xl.age)] } else { s.xl with huskRef := true } }) ∧
  (∀ s : State, ∃ r t, exec .huskout s = .next (t.emit (.readReply r)) ∧
    ((r = 0 ∧ t = s) ∨ ∃ f a l, s.xl.husk = (f, a) :: l ∧ r = (setFld f 63 1 1).toNat ∧ t = { s with xl := { s.xl with husk := l } } ∧
      a ≤ s.xl.age ∧ ∀ x ∈ s.tags, a ≤ x) ∧
    ((∃ f a l, s.xl.husk = (f, a) :: l ∧ ∀ x ∈ s.xl.age :: s.tags, a ≤ x) → r ≠ 0))

/-- Queue pairs, SQPOST and CQPOLL; accesses of drives and of peers within their windows (R271, R411 to R415; R337, R404 to R406,
R412 to R415). -/
def Obligations.StoragePairsAndPeers : Prop :=
  Sys2Proof.Machine.QueuePairsPostAndPoll ∧ Sys2Proof.Machine.DrivesAndPeersAccessMemory

/-- R423 to R427, R431: a corrected error is recorded and its unit tested; an uncorrectable one of a memory line or buffer granule zero-fills it and is charged to
the context that met it; a scrub does the same for a line or granule that nobody reads; a link error is recorded, and the 16th refusal of
one flit in a row takes a fabric port or a root port down; the host consumes records. -/
def Obligations.ErrorsAreRecorded : Prop :=
  (∀ s loc ctx, LogRoom s 1 →
    Runs (.eccCorrected 0 loc ctx) s (fun t => t = tested (recorded s 1 0 ctx loc) 0 (Config.placeOf 0 (loc / 64)))) ∧
  (∀ s loc cl co charged u, loc < s.hbm → s.MemWf → u = s.at_ cl co false → charged ≤ 1 →
    LogRoom s 2 → (∀ k, k < 64 → ¬(s.er.elgbase.toNat + 32 * fld s.er.elgidx 0 10 ≤ loc / 64 * 64 + k ∧
      loc / 64 * 64 + k < s.er.elgbase.toNat + 32 * fld s.er.elgidx 0 10 + 32)) →
    Runs (.eccUncorrectable 0 loc cl co charged) s (fun t =>
      (∀ a, a / 64 = loc / 64 → t.mem.get a = 0) ∧
      (∀ a, a / 64 ≠ loc / 64 → t.mem.get a = (recorded s (if charged = 0 then 3 else 2) 0 (if charged = 0 then 65535 else fld u.core.ctxid 0 16) loc).mem.get a) ∧
      (t.at_ cl co false).core.errcnt = (if charged = 0 then u.core.errcnt else word ((u.core.errcnt.toNat + 1) % 2 ^ 32)) ∧
      (0, Config.placeOf 0 (loc / 64)) ∈ t.er.tests ∧ t.hub = s.hub)) ∧
  (∀ s line v, 64 * line < s.hbm → (∀ h ∈ s.bd.held, h.line ≠ line) →
    (v = 0 → Runs (.hbmScrub line v) s (fun t => t = s.tally (21 * 65536))) ∧
    (v = 1 → LogRoom s 1 → Runs (.hbmScrub line v) s (fun t =>
      t = tested (recorded (s.tally (21 * 65536)) 1 0 65535 (64 * line)) 0 (Config.placeOf 0 line))) ∧
    (2 ≤ v → LogRoom s 3 → Runs (.hbmScrub line v) s (fun t =>
      t = tested (recorded { s.tally (21 * 65536) with mem := s.mem.write (64 * line) 0 64 } 3 0 65535 (64 * line)) 0 (Config.placeOf 0 line)))) ∧
  (∀ s cl co g, cl < 40 → co < 8 → g < 65536 → (∀ p ∈ s.cores, p.2.w.wf = true) → fld s.er.elgidx 32 11 < 1024 →
    Runs (.bufferScrub cl co 2 g 2) s (fun t => (∀ a, (t.coreAt cl co).w.get a = if a / 8 = g then 0 else (s.coreAt cl co).w.get a) ∧
      (t.coreAt cl co).a = (s.coreAt cl co).a ∧ (t.coreAt cl co).f = (s.coreAt cl co).f ∧ (t.coreAt cl co).errcnt = (s.coreAt cl co).errcnt)) ∧
  (∀ s port n, port < 16 → s.xl.up.getLsbD port = true → n = (look port s.xl.crc).getD 0 + 1 → LogRoom s 5 →
    (n < 16 → Runs (.linkCrcFail 8 port) s (fun t =>
      t = { (recorded s 5 8 65535 port).tally (20 * 65536 + 8 * 256 + 1) with xl := { s.xl with crc := put port n s.xl.crc } })) ∧
    (16 ≤ n → (∀ c ∈ s.ex.colls, c.fin = false → Rank.far port ∉ s.ranks c.gid) →
      Runs (.linkCrcFail 8 port) s (fun t => (∀ p, t.xl.up.getLsbD p = (s.xl.up.getLsbD p && p != port)) ∧ look port t.xl.crc = look port (drop port s.xl.crc) ∧
        (8, port) ∈ t.er.tests ∧ t.mem = (recorded s 5 8 65535 port).mem ∧ t.cores = s.cores))) ∧
  (∀ s port n, port < 4 → s.xl.rootUp.getLsbD port = true → n = (look (16 + port) s.xl.crc).getD 0 + 1 → LogRoom s 5 →
    Runs (.linkCrcFail 9 port) s (fun t => (∀ p, t.xl.rootUp.getLsbD p = (s.xl.rootUp.getLsbD p && (decide (n < 16) || p != port))) ∧
      (n < 16 → look (16 + port) t.xl.crc = some n ∧ t.er.tests = s.er.tests) ∧ (16 ≤ n → (9, port) ∈ t.er.tests) ∧ t.xl.up = s.xl.up ∧
      t.mem = (recorded s 5 9 65535 port).mem ∧ t.cores = s.cores)) ∧
  (∀ s v n, n = (v / 65536 % 1024 + 1024 - fld s.er.elgidx 16 10) % 1024 → n ≤ fld s.er.elgidx 32 11 →
    Runs (.elgConsume v) s (fun t => t.er = { s.er with elgidx :=
      (let j := setFld (setFld s.er.elgidx 16 10 (v / 65536 % 1024)) 32 11 (fld s.er.elgidx 32 11 - n)
       if v / 2 ^ 48 % 65536 = 0 then setFld j 48 16 0 else j) } ∧ t.mem = s.mem ∧ t.cores = s.cores))

/-- R428 to R432: a test's first verdicts are transient; a lasting fault takes a spare, and without one its unit is withdrawn, a core only at a swap point; a spare core changes places with the one
that has served longest; calibrations pause; the snapshot copies the counters. -/
def Obligations.UnitsAreRepairedAndMaintained : Prop :=
  (∀ s loc, s.er.tests = [(0, Config.placeOf 0 (loc / 64))] → s.er.transient = [] → LogRoom s 0x10 →
    Runs (.selfTestEnd 0 loc 0) s (fun t => t.er.tests = [] ∧ t.er.transient = [(0, Config.placeOf 0 (loc / 64), s.time)] ∧
      t.mem = (recorded s 0x10 0 65535 loc).mem ∧ t.cores = s.cores ∧ t.er.repaired = s.er.repaired)) ∧
  (∀ s loc k, s.er.tests = [(0, Config.placeOf 0 (loc / 64))] → k = (Config.channelOf (Config.placeOf 0 (loc / 64))).toNat → LogRoom s 0x11 → LogRoom s 0x12 →
    Runs (.selfTestEnd 0 loc 1) s (fun t => t.er.tests = [] ∧
      if (look k s.er.spares).getD 0 < 64 then
        t.er.repaired = s.er.repaired ++ [(0, Config.placeOf 0 (loc / 64))] ∧ (look k t.er.spares).getD 0 = (look k s.er.spares).getD 0 + 1 ∧
          t.mem = (recorded s 0x11 0 65535 loc).mem
      else t.er.repaired = s.er.repaired ∧ t.mem = (recorded s 0x12 0 65535 loc).mem)) ∧
  (∀ s loc m cl p, cl = loc / 1024 % 64 → p = loc / 64 % 16 → loc < 65536 → (6, loc / 64) ∈ s.er.tests →
    ((s.clusAt cl).group ≠ none → Runs (.selfTestEnd 6 loc m) s (fun t => t = s)) ∧
    (∀ sp, (s.clusAt cl).group = none → (s.clusAt cl).spare = some sp → (s.clusAt cl).toSwap = [] → sp ≠ p → m ≠ 0 → LogRoom s 0x11 →
      Runs (.selfTestEnd 6 loc m) s (fun t => (t.clusAt cl).spare = none ∧
        (t.clusAt cl).phys = (s.clusAt cl).phys.map (fun x => if x = p then sp else x) ∧ t.er.repaired = s.er.repaired ++ [(6, 16 * cl + p)] ∧
        t.er.cloff = s.er.cloff ∧ t.mem = (recorded s 0x11 6 65535 loc).mem))) ∧
  (∀ s cl k p, cl < 40 → k = s.clusAt cl → k.spare = some p → k.group = none → k.rotAt + 2 ^ 43 ≤ s.time → k.phys.length = 8 → k.served.length = 8 →
    (∀ x ∈ k.served, x ≤ s.time) →
    Runs (.wearRotation cl) s (fun t => ∃ co, co < 8 ∧ (∀ j, j < 8 → k.served[co]?.getD 0 ≤ k.served[j]?.getD 0) ∧
      (t.clusAt cl).phys = k.phys.set co p ∧ (t.clusAt cl).spare = k.phys[co]? ∧ (t.clusAt cl).served = k.served.set co s.time ∧
      (t.clusAt cl).rotAt = s.time ∧ t.cores = s.cores)) ∧
  (∀ s c, Runs (.phyCalibration c) s (fun t => t = (s.tally (23 * 65536)).emit (.pause 0 c))) ∧
  (∀ s p l, Runs (.serdesCalibration p l) s (fun t => t = (s.tally (23 * 65536)).emit (.pause 1 (64 * p + l)))) ∧
  (∀ s p, Runs (.pcieEqualisation p) s (fun t => t = s.emit (.pause 2 p))) ∧
  (∀ s, Runs .telemetrySnapshot s (fun t => t.cores = s.cores ∧ t.hub = s.hub ∧ t.er = s.er ∧
    t.mem = counterKeys.zipIdx.foldl (fun (m : Mem) (e : Nat × Nat) =>
      let a := s.er.tlmbase.toNat + (countersAt + 8 * e.2 - 0x400000)
      if a + 8 ≤ s.hbm then m.write a (s.counter e.1 % 2 ^ 64) 8 else m) s.mem))

/-- R433 to R439, R443: RESET and power-up leave the machine at its reset values but for what survives; a boot stage measures and loads an image that every check passes and
stops at one that fails; firmware is verified, staged and replaced; the rollback counters only rise; the host extends MREG4 to MREG7 and reads a quote. -/
def Obligations.BootIsMeasured : Prop :=
  (∀ s cause, s.bt.powered = true →
    Runs (.resetPin cause) s (fun t => t.cores = [] ∧ t.clusters = s.er.repairedClusters ∧ t.hub = State.reset.hub ∧ t.xl = State.reset.xl ∧ t.ex = State.reset.ex ∧
      t.bd = State.reset.bd ∧ t.time = 0 ∧ t.mem = s.mem ∧ t.bt.bootstat = word (cause % 4 * 4096) ∧ (∀ i, i < 9 → t.bt.mreg[i]? = some 0) ∧
      t.bt.rollback = s.bt.rollback ∧ t.er.cloff = s.er.cloff ∧ t.er.repaired = s.er.repaired ∧ t.variant = s.variant)) ∧
  (∀ s, s.bt.powered = false →
    Runs .powerUp s (fun t => t.cores = [] ∧ t.clusters = s.er.repairedClusters ∧ t.hub = State.reset.hub ∧ t.bt.powered = true ∧ t.mem = [] ∧ t.time = 0 ∧
      t.bt.bootstat.toNat = s.bt.bootstat.toNat / 4096 % 4 * 4096 ∧ t.er.cloff = s.er.cloff)) ∧
  (∀ s image bs, s.bt.powered = true → fld s.bt.bootstat 0 4 = 0 →
    (fld s.bt.bootstat 4 4 = 2 → bs = Config.imageBytes 3 image →
      (ImageGood s 3 bs → Runs (.bootStage image 0) s (fun t => fld t.bt.bootstat 4 4 = 3 ∧ fld t.bt.bootstat 0 4 = 0 ∧
        t.bt.mreg[3]? = some (measured (s.bt.mreg[3]?.getD 0) 3 (leField bs 6 2) (BitVec.ofNat 384 (leField bs 0x18 48))) ∧
        (∀ i, i ≠ 3 → t.bt.mreg[i]? = s.bt.mreg[i]?) ∧
        t.mem = s.mem.writeList (leField bs 0x10 8) ((bs.drop 5440).take (leField bs 8 8)) ∧ t.cores = s.cores)) ∧
      (¬ImageGood s 3 bs → Runs (.bootStage image 0) s (fun t => fld t.bt.bootstat 4 4 = 2 ∧ fld t.bt.bootstat 0 4 = s.imageCheck 3 bs ∧
        1 ≤ s.imageCheck 3 bs ∧ s.imageCheck 3 bs ≤ 6 ∧ t.bt.mreg = s.bt.mreg ∧ t.mem = s.mem)))) ∧
  (∀ s k v, Runs (.rollbackAdvance k v) s (fun t =>
    (∀ j, (look j s.bt.rollback).getD 0 ≤ (look j t.bt.rollback).getD 0) ∧ (1 ≤ k → k ≤ 5 → v ≤ 255 → v ≤ (look k t.bt.rollback).getD 0) ∧
    t.mem = s.mem ∧ t.cores = s.cores)) ∧
  (∀ s v slot a n bs, slot = v % 256 → a = s.bt.hzloada.toNat → n = s.bt.hzloadl.toNat → a % 64 = 0 → a + n ≤ s.hbm → bs = s.mem.readList a n →
    (ImageGood s 4 bs → Runs (.hzload v) s (fun t => t.bt.staged = put slot bs s.bt.staged ∧ t.bt.hzstat = word (2 ^ 63 + slot * 256) ∧ t.bt.hzload = word slot ∧
      t.bt.hzslots = s.bt.hzslots ∧ t.mem = s.mem)) ∧
    (¬ImageGood s 4 bs → Runs (.hzload v) s (fun t => t.bt.staged = s.bt.staged ∧ fld t.bt.hzstat 0 8 = s.imageCheck 4 bs ∧ fld t.bt.hzstat 8 8 = slot ∧ t.bt.hzstat.getLsbD 63 = s.bt.hzstat.getLsbD 63 ∧
      1 ≤ s.imageCheck 4 bs ∧ t.bt.hzslots = s.bt.hzslots ∧ t.mem = s.mem))) ∧
  (∀ s slot image, s.bt.staged = [(slot, image)] → (∀ c ∈ s.ex.colls, c.fin = true ∨ c.sched % 256 ≠ 4 ∨ c.sched / 256 ≠ slot) →
    Runs .hzSlotReplace s (fun t => look slot t.bt.hzslots = some image ∧ t.bt.staged = [] ∧ t.bt.hzstat.getLsbD 63 = false ∧
      (∀ k, k ≠ slot → look k t.bt.hzslots = look k s.bt.hzslots))) ∧
  (∀ s v reg d, reg = v / 2 ^ 32 % 16 → d = BitVec.ofNat 384 (leNat (s.bt.mregxd.toList.flatMap (fun w => leBytes 8 w.toNat))) →
    (4 ≤ reg → reg ≤ 7 → Runs (.mregxgo v) s (fun t =>
      t.bt.mreg[reg]? = some (measured (s.bt.mreg[reg]?.getD 0) (v / 65536 % 65536) (v % 65536) d) ∧ (∀ i, i ≠ reg → t.bt.mreg[i]? = s.bt.mreg[i]?) ∧
        t.bt.mregxgo.getLsbD 63 = false ∧ t.bt.mregxgo.getLsbD 62 = false)) ∧
    (¬(4 ≤ reg ∧ reg ≤ 7) → Runs (.mregxgo v) s (fun t => t.bt.mreg = s.bt.mreg ∧ t.bt.mregxgo.getLsbD 63 = false ∧ t.bt.mregxgo.getLsbD 62 = true))) ∧
  (∀ s nonce m, m = leBytes 32 nonce ++ s.bt.mreg.toList.flatMap (fun r => leBytes 48 r.toNat) →
    (∀ x a c, s.bt.agentAt = some x → s.bt.aliasKeys = some (a, c) →
      Runs (.redfishQuote nonce) s (fun t => t = s.emit (.quote (m ++ Config.quoteSigs a m ++ c)))) ∧
    (s.bt.agentAt = none ∨ s.bt.aliasKeys = none → Runs (.redfishQuote nonce) s (fun t => t = s)))

/-- R401, R407, R441 to R443: a host write takes effect as its register says, and read-only words ignore it; a hot sample forces a level and THERM, 120 °C removes core power; the level in force
is the larger of the limit's and the temperature's; a rail moves 5 mV within its range. -/
def Obligations.RegistersPowerAndTemperature : Prop :=
  (∀ s v n, n < 4096 → ((look n s.xl.ctxtab).getD 0).getLsbD 63 = false →
    Runs (.registerWrite (0x100000 + 8 * n) v) s (fun t => t = { s with xl := { s.xl with ctxtab := put n (word v &&& 0x800FFFFFFFFFFF00) s.xl.ctxtab } })) ∧
  (∀ s v, Runs (.registerWrite 0x140020 v) s (fun t => t = { s with hub := { s.hub with thrarg := word v } }) ∧
    Runs (.registerWrite 0x300000 v) s (fun t => t = { s with er := { s.er with elgbase := word v &&& 0x000FFFFFFFFF8000 } }) ∧
    (300 ≤ v % 2048 → v % 2048 ≤ (if s.full then 1600 else 950) →
      Runs (.registerWrite 0x610020 v) s (fun t => t = { s with bt := { s.bt with pwrctl := setFld s.bt.pwrctl 0 11 (v % 2048) } })) ∧
    ((v % 2048 < 300 ∨ (if s.full then 1600 else 950) < v % 2048) → Runs (.registerWrite 0x610020 v) s (fun t => t = s))) ∧
  (∀ s off v, off ∈ [0x110008, 0x110010, 0x110020, 0x300010, 0x300020, 0x610018, 0x610028, 0x610040, 0x400000] → Runs (.registerWrite off v) s (fun t => t = s)) ∧
  (∀ s c, c ≤ 255 → Runs (.thermalSample c) s (fun t => t.bt.temps = s.bt.temps.filter (fun x => decide (s.time < x.1 + 65536)) ++ [(s.time, c)] ∧
    fld t.bt.pwrctl 37 3 = max s.bt.plevel (if 110 ≤ c then 7 else if 105 ≤ c then 4 else 0) % 8 ∧
    t.bt.pwrctl.getLsbD 36 = decide (s.bt.plevel < (if 110 ≤ c then 7 else if 105 ≤ c then 4 else 0)) ∧ c ≤ fld t.bt.pwrctl 28 8 ∧
    fld t.bt.pwrctl 0 11 = fld s.bt.pwrctl 0 11 ∧ t.mem = s.mem ∧ t.cores = s.cores)) ∧
  (∀ s c, s.bt.powered = true → (120 ≤ c → Runs (.thermtrip c) s (fun t => t.bt.powered = false ∧ t.cores = [] ∧ t.clusters = [] ∧ t.die0 = [] ∧ t.die1 = [] ∧
      fld t.bt.bootstat 12 4 = 2 ∧ t.out = .thermtrip :: s.out ∧ t.mem = s.mem)) ∧ (c < 120 → Runs (.thermtrip c) s (fun t => t = s))) ∧
  (∀ s n, Runs (.throttleUpdate n) s (fun t => t.bt.plevel = min 7 n ∧ min 7 n ≤ fld t.bt.pwrctl 37 3 ∧ t.bt.temps = s.bt.temps ∧ t.mem = s.mem)) ∧
  (∀ s rail up mv at_, s.bt.trim[rail]? = some (mv, at_) → at_ ≤ s.time →
    (up ≠ 0 → 630 ≤ mv → mv ≤ 710 → Runs (.trimStep rail up) s (fun t => t = { s with bt := { s.bt with trim := s.bt.trim.set rail (mv + 5, s.time + 2 ^ 20) } })) ∧
    (up = 0 → 640 ≤ mv → mv ≤ 720 → Runs (.trimStep rail up) s (fun t => t = { s with bt := { s.bt with trim := s.bt.trim.set rail (mv - 5, s.time + 2 ^ 20) } })))

end

namespace Sys2Proof.Machine

/-! ### The machine as a whole (R67 to R75, R299, R366 to R444) -/

/-- A form of the control thread (majors 0x00 to 0x0E, 0x12 to 0x14 and the fences of 0x07): arithmetic, transfers, scalar loads, stores and
atomics, control registers, phase boundaries. -/
def controlForm : Instr → Bool
  | .nop | .add _ | .sub _ | .and_ _ | .or_ _ | .xor_ _ | .sll _ | .srl _ | .sra _ | .slt _ | .sltu _ | .min _ | .max _ | .addW _ | .subW _
  | .sllW _ | .srlW _ | .sraW _ | .addi _ | .andi _ | .ori _ | .xori _ | .slli _ | .srli _ | .srai _ | .slti _ | .addiW _ | .slliW _
  | .srliW _ | .sraiW _ | .mul _ | .mulh _ | .mulhu _ | .div _ | .divu _ | .rem _ | .remu _ | .mulW _ | .divW _ | .divuW _ | .remW _
  | .remuW _ | .clz _ | .ctz _ | .popc _ | .sel _ | .limmT4w _ | .limmT8w _ | .addpc _ | .getid _ | .caps _ | .bEq _ | .bNe _ | .bLt _
  | .bGe _ | .bLtu _ | .bGeu _ | .jmp _ | .call _ | .jmpr _ | .loop _ | .ld _ | .st _ | .amoAdd _ | .amoAnd _ | .amoOr _ | .amoXor _
  | .amoMin _ | .amoMax _ | .amoMinu _ | .amoMaxu _ | .amoFadd _ | .amoBfadd _ | .amoSwap _ | .amoCas _ | .sysrd _ | .hret | .dstop
  | .trap _ | .cede | .waitev | .vsetl _ | .vsett _ | .phase _ | .fenceE | .nmfence => true
  | _ => false
/-- A turn of the agenda in which memory may change but no row of the table takes place. -/
def quiet : Turn → Prop
  | .slot _ _ _ => False
  | .event _ => False
  | _ => True

end Sys2Proof.Machine

section
open Sys2Proof.Machine

/-- R67 to R70, R76 to R86: every well-formed instruction that has an encoding is read back from it, with every operand. -/
def Obligations.EncodedInstructionsDecode : Prop :=
  ∀ i e, i.WellFormed → i.encode = some e → decode e.head e.tail = .ok i

/-- R67 to R70, R76 to R86: a head and a tail of its size that the decoder takes are the encoding of what it reads: no two words are one
instruction, and no bit that names none is ignored. -/
def Obligations.DecodedWordsEncodeBack : Prop :=
  ∀ h t i, t.toNat < 2 ^ (8 * tailSize h) → decode h t = .ok i → i.encode = some ⟨h, t⟩

/-- R86, R90, R93, R97, R131: words written out from the encodings, and what they stand for: NOP; ADD g3, g1, g2; ADDI; LIMM of a 32-bit
constant; CAPS g7; VSETL. A head of all zeros is no instruction. -/
def Obligations.SpecWordsDecode : Prop :=
  decode 0x0001 0 = .ok .nop ∧ decode 0x4083 0x0081 = .ok (.add ⟨3, 1, 2⟩) ∧ decode 0x8105 0x00400007 = .ok (.addi ⟨5, 1, 7⟩) ∧
  decode 0x8302 8 = .ok (.limmT4w ⟨2, 8⟩) ∧ decode 0x0987 0 = .ok (.caps 7) ∧ decode 0x5003 0x0002 = .ok (.vsetl ⟨3, 2, 0⟩) ∧
  (∀ i, decode 0x0000 0 ≠ .ok i)

/-- R69 to R74, R394: when nothing else is due and the slot may run, a step fetches the line of the address, and runs the instruction
that its decoding gives with the address that follows noted; a line not fetched yet is the image of its 64 bytes as the core finds them; a word
that decodes to nothing traps. An event or a turn of another slot, when due, is the step. -/
def Obligations.StepRunsTheDecodedInstruction : Prop :=
  (∀ s l u h x, s.agenda = [] → s.slot.run = .running → s.clus.preempt = false → s.fetchLine (lineOf s.slot.pc) = .ok (l, u) →
    lineOf s.slot.pc ∉ u.slot.badLines → lineSlot l (slotOf s.slot.pc) = .ins h x →
    (∀ i, decode h x = .ok i → step s = exec i (u.modSlot (fun y => { y with npc := nextAddr l s.slot.pc }))) ∧
    (∀ r, decode h x = .error r → step s = .next (u.takeTrap (Trap.ill r.sub.toNat)))) ∧
  (∀ (s : State) la l, look la s.slot.lines = some l → s.fetchLine la = .ok (l, s)) ∧
  (∀ (s : State) la loc, look la s.slot.lines = none → s.xlate la .fx .fetch = .ok (.mem loc, s) →
    ∃ l : Line, s.fetchLine la = .ok (l, s.modSlot (fun x => { x with lines := (la, l) :: x.lines })) ∧
      ∀ k, k < 64 → l.extractLsb' (8 * k) 8 = s.newest (loc + k)) ∧
  (∀ s i r, s.agenda = .event i :: r → step s = exec i { s with agenda := r }) ∧
  (∀ s cl co hi r u, s.agenda = .slot cl co hi :: r → u = { s with agenda := [], cl := cl, co := co, hi := hi } →
    (u.slot.run ≠ .running ∨ u.clus.preempt = true) → step s = .next { s with agenda := r, cl := cl, co := co, hi := hi, time := s.time + 1 })

/-- R367, R381, R400, R411, R426, R433, R436, R441, R442: what reset leaves: the registers of the hub at the values that the spec gives, no thread, no
launch, no translation; and memory in canonical form. -/
def Obligations.ResetLeavesTheSpecsValues : Prop :=
  (∀ cl co hi, ((State.reset.coreAt cl co).slot hi).run = .vacant) ∧ State.reset.hub.run = [] ∧ State.reset.xl.ctxtab = [] ∧ State.reset.xl.tlb = [] ∧
  State.reset.xl.age = 0 ∧ State.reset.xl.tlbinv = 0 ∧ State.reset.xl.husk = [] ∧ State.reset.time = 0 ∧
  (∀ n, (State.reset.lnq n).st = 0 ∧ (State.reset.lnq n).size = 16) ∧ State.reset.hub.trqidx = word (2 ^ 28) ∧ State.reset.hub.fatalpend = 0 ∧
  (∀ n, (State.reset.nvq n).st = 0 ∧ (State.reset.nvq n).size = 2 ∧ (State.reset.nvq n).ep = true) ∧ State.reset.er.elgidx = word (2 ^ 26) ∧
  (∀ i, i < 9 → State.reset.bt.mreg[i]? = some 0) ∧ fld State.reset.bt.pwrctl 0 11 = 1600 ∧ State.reset.bt.trim.map (·.1) = [675, 675] ∧
  State.reset.MemWf

/-- R299: the model's canonical form of memory is kept by every instruction of the control thread where no translation leads to the management
window (R401), whose registers act on the whole package, and by every quiet turn:
equal memories stay equal data. -/
def Obligations.MemoryStaysCanonical : Prop :=
  (∀ s t i, s.MemWf → (∀ va acc form off u, s.xlate va acc form ≠ .ok (.mgmt off, u)) → controlForm i = true → exec i s = .next t →
    t.MemWf) ∧
  (∀ s t x r, s.MemWf → s.agenda = x :: r → quiet x → step s = .next t → t.MemWf)

/-- R46: g1 to g31 hold what was written, g0 reads as zero, a write to g0 is discarded: a form of the control thread whose
destination is g0 changes no register, raises no trap and goes on. -/
def Obligations.ZeroRegisterDiscardsWrites : Prop :=
  (∀ s : State, s.g (0 : BitVec 6) = 0) ∧
  (∀ (s : State) (n m : BitVec 6) v, n.toNat < 32 → n ≠ 0 → (s.setG n v).g m = if m = n then v else s.g m) ∧
  (∀ (s : State) v, (s.setG (0 : BitVec 6) v).slot = s.slot) ∧
  (∀ s i v, s.Free → i.WellFormed → (integerForm s i = some (0, v) ∨ productForm s i = some (0, v) ∨ plainForm s i = some (0, v)) →
    Runs i s (fun t => Advanced s t ∧ (∀ n, t.slot.getG n = s.slot.getG n) ∧
      (t.slot.run, t.slot.cause, t.slot.epc, t.slot.pend) = (s.slot.run, s.slot.cause, s.slot.epc, s.slot.pend)))

/-- R85: a head whose major is one of the unassigned ones is no instruction, whatever the rest of it and its tail hold; a step that comes to it
raises ILLEGAL_INSTRUCTION with SUB 0x01. -/
def Obligations.UnassignedMajorsTrap : Prop :=
  ∀ (h : BitVec 16) (x : BitVec 64) m, m = h.toNat / 128 % 128 →
    (0x15 ≤ m ∧ m ≤ 0x1E ∨ 0x30 ≤ m ∧ m ≤ 0x4F ∨ 0x5C ≤ m ∧ m ≤ 0x5F ∨ 0x68 ≤ m ∧ m ≤ 0x6F ∨ 0x7A ≤ m ∧ m ≤ 0x7F) →
    decode h x = .error .unassigned ∧
    ∀ s l u, s.agenda = [] → s.slot.run = .running → s.clus.preempt = false → s.fetchLine (lineOf s.slot.pc) = .ok (l, u) →
      lineOf s.slot.pc ∉ u.slot.badLines → lineSlot l (slotOf s.slot.pc) = .ins h x →
      step s = .next (u.takeTrap { code := 0x01, sub := 0x01 })

/-- R279: a TQPUSH that names a stage at or below the thread's own traps at commit, and so do a stage at or above the launch's count and an
item with bit 63 set; no queue changes then. -/
def Obligations.ItemsFlowForwardOnly : Prop :=
  ∀ s (o : OpA2), Instr.WellFormed (.tqpush o) →
    ((s.g o.b).toNat ≤ s.slot.th.stage ∨ s.slot.th.ns ≤ (s.g o.b).toNat ∨ (s.g o.a).getLsbD 63 = true) →
    Traps (.tqpush o) true 0x03 0x04 s.slot.pc s ∧ Runs (.tqpush o) s (fun t => ∀ k, t.clusAt k = s.clusAt k)

/-- R346: what a HASH rule leaves in register H of its walk, what it adds under its count of bits, and the three keys that the rule works out. -/
def Obligations.HashesFollowTheRule : Prop :=
  (∀ s i w r x h, WalkRuns s i w → r = nthD 0 w.prog.rules w.pc → ruleField r 60 4 = 2 → ruleField r 52 8 ≤ 40 →
    x = ((w.k ^^^ (w.k / 2 ^ 32)) ^^^ ruleField r 16 32) → h = x * 0x9E3779B97F4A7C15 % 2 ^ 64 →
    Runs (.walkStep i) s (fun t => ∃ v, t.bd.walks[i]? = some v ∧ v.h = h ∧ v.pc = ruleField r 0 4 ∧
      v.p = (if ruleField r 52 8 = 0 then w.p else (w.p + h / 2 ^ (64 - ruleField r 52 8) * 2 ^ ruleField r 48 4) % 2 ^ 40))) ∧
  ruleHash 1 0 = 0x9E3779B97F4A7C15 ∧ ruleHash 2 0 = 0x3C6EF372FE94F82A ∧ ruleHash 22 0 = 0x98C475F0F066A9CE ∧
  ruleHash 1 0 / 2 ^ 60 = 9 ∧ ruleHash 2 0 / 2 ^ 60 = 3 ∧ ruleHash 22 0 / 2 ^ 60 = 9

/-- R441: a rail moves by 5 mV, within 635 to 715 mV, at most once in 2^20 cycles; nothing else changes, neither a result nor the cycle count. -/
def Obligations.RailsStepWithinTheirRange : Prop :=
  ∀ s rail up mv at_ next, s.bt.trim[rail]? = some (mv, at_) → next = (if up ≠ 0 then mv + 5 else mv - 5) →
    (at_ ≤ s.time → 635 ≤ next → next ≤ 715 →
      Runs (.trimStep rail up) s (fun t => t = { s with bt := { s.bt with trim := s.bt.trim.set rail (next, s.time + 2 ^ 20) } })) ∧
    (s.time < at_ ∨ next < 635 ∨ 715 < next → Runs (.trimStep rail up) s (fun t => t = s))

end
end

