-- ==== Sys2Proof/Laws/Mem.lean ====
section
/-! SUPPORT. The laws of the sparse byte store: reading after writing, and that every operation keeps the canonical form. -/

namespace Sys2Proof.Machine

theorem Mem.wfFrom_mono {lo lo' : Nat} (h : lo ≤ lo') {m : Mem} (hm : Mem.wfFrom lo' m = true) : Mem.wfFrom lo m = true := by
  cases m with
  | nil => rfl
  | cons p r => obtain ⟨k, b⟩ := p; simp [Mem.wfFrom] at hm ⊢; exact ⟨⟨by omega, hm.1.2⟩, hm.2⟩
theorem Mem.get_below {lo a : Nat} {m : Mem} (hm : Mem.wfFrom lo m = true) (h : a < lo) : m.get a = Mem.blank := by
  cases m with
  | nil => rfl
  | cons p r =>
    obtain ⟨k, b⟩ := p; simp [Mem.wfFrom] at hm
    have h1 : k ≠ a := by omega
    have h2 : a < k := by omega
    simp [Mem.get, h1, h2]
/-- A byte written is read back, and no other byte changes (R299). -/
theorem Mem.get_set {lo : Nat} {m : Mem} (hm : Mem.wfFrom lo m = true) (a b : Nat) (x : Byte) :
    (m.set a x).get b = if b = a then x else m.get b := by
  induction m generalizing lo with
  | nil =>
    by_cases hx : x = Mem.blank <;> by_cases hb : b = a
    · simp [Mem.set, Mem.get, hx]
    · simp [Mem.set, Mem.get, hx]
    · simp [Mem.set, Mem.get, hx, hb]
    · simp [Mem.set, Mem.get, hx, hb, Ne.symm hb]
  | cons p r ih =>
    obtain ⟨k, c⟩ := p
    simp only [Mem.wfFrom, Bool.and_eq_true, decide_eq_true_eq] at hm
    have hr := hm.2
    by_cases h1 : a = k
    · subst h1
      by_cases hx : x = Mem.blank
      · simp only [Mem.set, hx, if_true]
        by_cases hb : b = a
        · subst hb; simp [Mem.get_below hr (Nat.lt_succ_self _)]
        · simp only [hb, if_false, Mem.get, Ne.symm hb]
          by_cases hlt : b < a
          · have : Mem.get r b = Mem.blank := Mem.get_below hr (by omega)
            simp [hlt, this]
          · simp [hlt]
      · by_cases hb : b = a
        · subst hb; simp [Mem.set, Mem.get, hx]
        · simp [Mem.set, Mem.get, hx, hb, Ne.symm hb]
    · by_cases h2 : a < k
      · by_cases hx : x = Mem.blank
        · simp only [Mem.set, h1, h2, hx, if_false, if_true]
          by_cases hb : b = a
          · subst hb; simp [Mem.get, h2, Ne.symm h1]
          · simp [hb]
        · by_cases hb : b = a
          · subst hb; simp [Mem.set, Mem.get, h1, h2, hx]
          · by_cases hl : b < a
            · have : b < k := by omega
              have : k ≠ b := by omega
              simp_all [Mem.set, Mem.get, Ne.symm hb]
            · simp [Mem.set, Mem.get, h1, h2, hx, hb, Ne.symm hb, hl]
      · simp only [Mem.set, h1, h2, if_false, Mem.get]
        by_cases hk : k = b
        · subst hk; simp [Ne.symm h1]
        · by_cases hl : b < k
          · have : b ≠ a := by omega
            simp [hk, hl, this]
          · simp [hk, hl, ih hr]
/-- Writing a byte keeps the canonical form. -/
theorem Mem.wfFrom_set {lo : Nat} {m : Mem} (hm : Mem.wfFrom lo m = true) (a : Nat) (x : Byte) (h : lo ≤ a) :
    Mem.wfFrom lo (m.set a x) = true := by
  induction m generalizing lo with
  | nil => by_cases hx : x = Mem.blank <;> simp [Mem.set, Mem.wfFrom, hx, h]
  | cons p r ih =>
    obtain ⟨k, c⟩ := p
    have hm' := hm
    simp only [Mem.wfFrom, Bool.and_eq_true, decide_eq_true_eq] at hm
    unfold Mem.set
    split
    · subst_vars
      split
      · exact Mem.wfFrom_mono (by omega) hm.2
      · simp_all [Mem.wfFrom]
    · split
      · split
        · exact hm'
        · simp_all [Mem.wfFrom] <;> omega
      · simp only [Mem.wfFrom, Bool.and_eq_true, decide_eq_true_eq]
        exact ⟨hm.1, ih hm.2 (by omega)⟩
theorem Mem.wf_set {m : Mem} (hm : m.wf = true) (a : Nat) (x : Byte) : (m.set a x).wf = true :=
  Mem.wfFrom_set hm a x (Nat.zero_le a)
theorem Mem.wf_write {m : Mem} (hm : m.wf = true) (a x n : Nat) : (m.write a x n).wf = true := by
  induction n generalizing m a x with
  | zero => exact hm
  | succ n ih => exact ih (Mem.wf_set hm _ _) _ _
theorem Mem.wf_writeList {m : Mem} (hm : m.wf = true) (a : Nat) (l : List Byte) : (m.writeList a l).wf = true := by
  induction l generalizing m a with
  | nil => exact hm
  | cons b r ih => exact ih (Mem.wf_set hm _ _) _
theorem Mem.wf_nil : Mem.wf [] = true := rfl
/-- A byte outside the bytes written reads as before. -/
theorem Mem.get_write_out {m : Mem} (hm : m.wf = true) (a x n b : Nat) (h : b < a ∨ a + n ≤ b) :
    (m.write a x n).get b = m.get b := by
  induction n generalizing m a x with
  | zero => rfl
  | succ n ih =>
    have hne : b ≠ a := by omega
    rw [Mem.write, ih (Mem.wf_set hm _ _) _ _ (by omega), Mem.get_set hm, if_neg hne]
/-- Byte i of a number written is byte i of the number, little-endian (R9). -/
theorem Mem.get_write {m : Mem} (hm : m.wf = true) (a x n i : Nat) (h : i < n) :
    (m.write a x n).get (a + i) = BitVec.ofNat 8 (x / 256 ^ i) := by
  induction n generalizing m a x i with
  | zero => omega
  | succ n ih =>
    cases i with
    | zero => rw [Mem.write, Mem.get_write_out (Mem.wf_set hm _ _) _ _ _ _ (by omega), Nat.add_zero, Mem.get_set hm]; simp
    | succ i =>
      have := ih (Mem.wf_set hm a (BitVec.ofNat 8 x)) (a + 1) (x / 256) i (by omega)
      rw [Mem.write, show a + (i + 1) = a + 1 + i by omega, this, Nat.div_div_eq_div_mul, Nat.pow_succ, Nat.mul_comm 256]
theorem Mem.read_lt (m : Mem) (a n : Nat) : m.read a n < 256 ^ n := by
  induction n generalizing a with
  | zero => simp [Mem.read]
  | succ n ih => have := ih (a + 1); have := (m.get a).isLt; simp only [Mem.read, Nat.pow_succ]; omega
theorem Mem.read_congr {m m' : Mem} {a n : Nat} (h : ∀ i, i < n → m.get (a + i) = m'.get (a + i)) : m.read a n = m'.read a n := by
  induction n generalizing a with
  | zero => rfl
  | succ n ih =>
    have h0 : m.get a = m'.get a := by simpa using h 0 (by omega)
    have h1 : m.read (a + 1) n = m'.read (a + 1) n := ih fun i hi => by
      have := h (i + 1) (by omega)
      rwa [show a + 1 + i = a + (i + 1) by omega]
    simp only [Mem.read]
    rw [h0, h1]
/-- What was written is read back, modulo 2^(8n). -/
theorem Mem.read_write {m : Mem} (hm : m.wf = true) (a x n : Nat) : (m.write a x n).read a n = x % 256 ^ n := by
  induction n generalizing m a x with
  | zero => simp [Mem.read, Nat.mod_one]
  | succ n ih =>
    have h0 : (m.write a x (n + 1)).get a = BitVec.ofNat 8 x := by
      simpa using Mem.get_write hm a x (n + 1) 0 (by omega)
    have h1 : (m.write a x (n + 1)).read (a + 1) n = x / 256 % 256 ^ n := ih (Mem.wf_set hm a (BitVec.ofNat 8 x)) (a + 1) (x / 256)
    rw [Mem.read, h0, h1, BitVec.toNat_ofNat, show (256 : Nat) ^ (n + 1) = 256 * 256 ^ n by rw [Nat.pow_succ, Nat.mul_comm], Nat.mod_mul]
/-- A read of bytes that a write left alone finds what it found before. -/
theorem Mem.read_write_out {m : Mem} (hm : m.wf = true) (a x n b k : Nat) (h : b + k ≤ a ∨ a + n ≤ b) :
    (m.write a x n).read b k = m.read b k :=
  Mem.read_congr fun i hi => Mem.get_write_out hm _ _ _ _ (by omega)
/-- An overlay gives the last byte set at an address. -/
theorem Overlay.get_set (o : Overlay) (a b : Nat) (x : Byte) : (o.set a x).get? b = if b = a then some x else o.get? b := by
  induction o with
  | nil =>
    by_cases h : b = a
    · simp [Overlay.set, Overlay.get?, h]
    · simp [Overlay.set, Overlay.get?, h, Ne.symm h]
  | cons p r ih =>
    obtain ⟨k, c⟩ := p
    by_cases hk : k = a
    · subst hk
      by_cases h : b = k
      · subst h; simp [Overlay.set, Overlay.get?]
      · simp [Overlay.set, Overlay.get?, h, Ne.symm h]
    · by_cases h : k = b
      · subst h; simp [Overlay.set, Overlay.get?, hk]
      · simp [Overlay.set, Overlay.get?, hk, h, ih]
theorem Overlay.wf_toMem (o : Overlay) {m : Mem} (hm : m.wf = true) : (o.toMem m).wf = true := by
  unfold Overlay.toMem
  induction o generalizing m with
  | nil => exact hm
  | cons p r ih => exact ih (Mem.wf_set hm _ _)

theorem Mem.wfFrom_iff (lo : Nat) (m : Mem) :
    Mem.wfFrom lo m = true ↔ (∀ c ∈ m, lo ≤ c.1 ∧ c.2 ≠ Mem.blank) ∧ m.Pairwise (fun c d => c.1 < d.1) := by
  induction m generalizing lo with
  | nil => simp [Mem.wfFrom]
  | cons p r ih =>
    obtain ⟨k, b⟩ := p
    simp only [Mem.wfFrom, Bool.and_eq_true, decide_eq_true_eq, ih, List.mem_cons, forall_eq_or_imp, List.pairwise_cons, bne_iff_ne]
    constructor
    · rintro ⟨⟨h1, h2⟩, h3, h4⟩
      exact ⟨⟨⟨h1, h2⟩, fun c hc => ⟨by have := (h3 c hc).1; omega, (h3 c hc).2⟩⟩, fun c hc => by have := (h3 c hc).1; omega, h4⟩
    · rintro ⟨⟨⟨h1, h2⟩, h3⟩, h4, h5⟩
      exact ⟨⟨h1, h2⟩, fun c hc => ⟨h4 c hc, (h3 c hc).2⟩, h5⟩
theorem Mem.wfFrom_of_mem {lo : Nat} {m : Mem} (hm : Mem.wfFrom lo m = true) : ∀ c ∈ m, lo ≤ c.1 ∧ c.2 ≠ Mem.blank :=
  ((Mem.wfFrom_iff lo m).mp hm).1
theorem Mem.wf_pairwise {m : Mem} (hm : m.wf = true) : m.Pairwise (fun c d => c.1 < d.1) := ((Mem.wfFrom_iff 0 m).mp hm).2
theorem Mem.wf_iff (m : Mem) : m.wf = true ↔ (∀ c ∈ m, c.2 ≠ Mem.blank) ∧ m.Pairwise (fun c d => c.1 < d.1) := by
  rw [Mem.wf, Mem.wfFrom_iff]; simp
theorem Mem.wf_slice {m : Mem} (hm : m.wf = true) (a n : Nat) : (m.slice a n).wf = true := by
  rw [Mem.wf_iff] at hm ⊢
  refine ⟨?_, ?_⟩
  · intro c hc
    simp only [Mem.slice, List.mem_map, List.mem_filter] at hc
    obtain ⟨d, ⟨hd, _⟩, rfl⟩ := hc
    exact hm.1 d hd
  · unfold Mem.slice
    rw [List.pairwise_map]
    refine (hm.2.filter _).imp_of_mem ?_
    intro c d hc hd hlt
    simp only [List.mem_filter, Bool.and_eq_true, decide_eq_true_eq] at hc hd
    show c.1 - a < d.1 - a
    omega
theorem Mem.wf_blit {m x : Mem} (hm : m.wf = true) (hx : x.wf = true) (a n : Nat) : (m.blit a n x).wf = true := by
  rw [Mem.wf_iff] at hm hx ⊢
  refine ⟨?_, ?_⟩
  · intro c hc
    simp only [Mem.blit, List.mem_append, List.mem_map, List.mem_filter] at hc
    rcases hc with (⟨h, _⟩ | ⟨d, ⟨hd, _⟩, rfl⟩) | ⟨h, _⟩
    · exact hm.1 c h
    · exact hx.1 d hd
    · exact hm.1 c h
  · simp only [Mem.blit, List.pairwise_append, List.pairwise_map, List.mem_append, List.mem_map, List.mem_filter,
      decide_eq_true_eq]
    refine ⟨⟨hm.2.filter _, ((hx.2.filter _).imp fun h => by simpa using h), ?_⟩, hm.2.filter _, ?_⟩
    · rintro c ⟨_, hc⟩ d ⟨e, ⟨_, he⟩, rfl⟩; simp; omega
    · rintro c (⟨_, hc⟩ | ⟨e, ⟨_, he⟩, rfl⟩) d ⟨_, hd⟩
      · omega
      · simp; omega

end Sys2Proof.Machine
end

