-- ==== Sys2Proof/Laws/State.lean ====
section
/-! SUPPORT. One lemma per field and update of the state, true by unfolding, and the laws of reading a core or a slot after
writing one: no later proof unfolds a record update. -/

namespace Sys2Proof.Machine

/-! ## Lists keyed by numbers -/

@[simp] theorem look_put_self {α : Type} (k : Nat) (a : α) (l : List (Nat × α)) : look k (put k a l) = some a := by
  induction l with
  | nil => simp [put, look]
  | cons p r ih => obtain ⟨j, b⟩ := p; by_cases h : j = k <;> simp [put, look, h, ih]
theorem look_put_ne {α : Type} {k j : Nat} (h : k ≠ j) (a : α) (l : List (Nat × α)) :
    look k (put j a l) = look k l := by
  induction l with
  | nil => simp [put, look, Ne.symm h]
  | cons p r ih =>
    obtain ⟨i, b⟩ := p
    by_cases hi : i = j
    · subst hi; simp [put, look, Ne.symm h]
    · by_cases hk : i = k
      · subst hk; simp [put, look, hi]
      · simp [put, look, hi, hk, ih]
@[simp] theorem put_put {α : Type} (k : Nat) (a b : α) (l : List (Nat × α)) : put k b (put k a l) = put k b l := by
  induction l with
  | nil => simp [put]
  | cons p r ih => obtain ⟨j, c⟩ := p; by_cases h : j = k <;> simp [put, h, ih]

/-! ## Fields of the state after an update of a core, a slot, a register or a cluster -/

@[simp] theorem State.setCoreAt_variant (s : State) (cl co : Nat) (c : Core) : (s.setCoreAt cl co c).variant = s.variant := rfl
@[simp] theorem State.setCoreAt_stepping (s : State) (cl co : Nat) (c : Core) : (s.setCoreAt cl co c).stepping = s.stepping := rfl
@[simp] theorem State.setCoreAt_cl (s : State) (cl co : Nat) (c : Core) : (s.setCoreAt cl co c).cl = s.cl := rfl
@[simp] theorem State.setCoreAt_co (s : State) (cl co : Nat) (c : Core) : (s.setCoreAt cl co c).co = s.co := rfl
@[simp] theorem State.setCoreAt_hi (s : State) (cl co : Nat) (c : Core) : (s.setCoreAt cl co c).hi = s.hi := rfl
@[simp] theorem State.setCoreAt_agenda (s : State) (cl co : Nat) (c : Core) : (s.setCoreAt cl co c).agenda = s.agenda := rfl
@[simp] theorem State.setCoreAt_eager (s : State) (cl co : Nat) (c : Core) : (s.setCoreAt cl co c).eager = s.eager := rfl
@[simp] theorem State.setCoreAt_time (s : State) (cl co : Nat) (c : Core) : (s.setCoreAt cl co c).time = s.time := rfl
@[simp] theorem State.setCoreAt_free (s : State) (cl co : Nat) (c : Core) : (s.setCoreAt cl co c).free = s.free := rfl
@[simp] theorem State.setCoreAt_clusters (s : State) (cl co : Nat) (c : Core) : (s.setCoreAt cl co c).clusters = s.clusters := rfl
@[simp] theorem State.setCoreAt_mem (s : State) (cl co : Nat) (c : Core) : (s.setCoreAt cl co c).mem = s.mem := rfl
@[simp] theorem State.setCoreAt_die0 (s : State) (cl co : Nat) (c : Core) : (s.setCoreAt cl co c).die0 = s.die0 := rfl
@[simp] theorem State.setCoreAt_die1 (s : State) (cl co : Nat) (c : Core) : (s.setCoreAt cl co c).die1 = s.die1 := rfl
@[simp] theorem State.setCoreAt_dieAge0 (s : State) (cl co : Nat) (c : Core) : (s.setCoreAt cl co c).dieAge0 = s.dieAge0 := rfl
@[simp] theorem State.setCoreAt_dieAge1 (s : State) (cl co : Nat) (c : Core) : (s.setCoreAt cl co c).dieAge1 = s.dieAge1 := rfl
@[simp] theorem State.setCoreAt_peer (s : State) (cl co : Nat) (c : Core) : (s.setCoreAt cl co c).peer = s.peer := rfl
@[simp] theorem State.setCoreAt_peerAge (s : State) (cl co : Nat) (c : Core) : (s.setCoreAt cl co c).peerAge = s.peerAge := rfl
@[simp] theorem State.setCoreAt_hub (s : State) (cl co : Nat) (c : Core) : (s.setCoreAt cl co c).hub = s.hub := rfl
@[simp] theorem State.setCoreAt_xl (s : State) (cl co : Nat) (c : Core) : (s.setCoreAt cl co c).xl = s.xl := rfl
@[simp] theorem State.setCoreAt_ex (s : State) (cl co : Nat) (c : Core) : (s.setCoreAt cl co c).ex = s.ex := rfl
@[simp] theorem State.setCoreAt_bd (s : State) (cl co : Nat) (c : Core) : (s.setCoreAt cl co c).bd = s.bd := rfl
@[simp] theorem State.setCoreAt_er (s : State) (cl co : Nat) (c : Core) : (s.setCoreAt cl co c).er = s.er := rfl
@[simp] theorem State.setCoreAt_bt (s : State) (cl co : Nat) (c : Core) : (s.setCoreAt cl co c).bt = s.bt := rfl
@[simp] theorem State.setCoreAt_out (s : State) (cl co : Nat) (c : Core) : (s.setCoreAt cl co c).out = s.out := rfl
@[simp] theorem State.setCore_variant (s : State) (c : Core) : (s.setCore c).variant = s.variant := rfl
@[simp] theorem State.setCore_stepping (s : State) (c : Core) : (s.setCore c).stepping = s.stepping := rfl
@[simp] theorem State.setCore_cl (s : State) (c : Core) : (s.setCore c).cl = s.cl := rfl
@[simp] theorem State.setCore_co (s : State) (c : Core) : (s.setCore c).co = s.co := rfl
@[simp] theorem State.setCore_hi (s : State) (c : Core) : (s.setCore c).hi = s.hi := rfl
@[simp] theorem State.setCore_agenda (s : State) (c : Core) : (s.setCore c).agenda = s.agenda := rfl
@[simp] theorem State.setCore_eager (s : State) (c : Core) : (s.setCore c).eager = s.eager := rfl
@[simp] theorem State.setCore_time (s : State) (c : Core) : (s.setCore c).time = s.time := rfl
@[simp] theorem State.setCore_free (s : State) (c : Core) : (s.setCore c).free = s.free := rfl
@[simp] theorem State.setCore_clusters (s : State) (c : Core) : (s.setCore c).clusters = s.clusters := rfl
@[simp] theorem State.setCore_mem (s : State) (c : Core) : (s.setCore c).mem = s.mem := rfl
@[simp] theorem State.setCore_die0 (s : State) (c : Core) : (s.setCore c).die0 = s.die0 := rfl
@[simp] theorem State.setCore_die1 (s : State) (c : Core) : (s.setCore c).die1 = s.die1 := rfl
@[simp] theorem State.setCore_dieAge0 (s : State) (c : Core) : (s.setCore c).dieAge0 = s.dieAge0 := rfl
@[simp] theorem State.setCore_dieAge1 (s : State) (c : Core) : (s.setCore c).dieAge1 = s.dieAge1 := rfl
@[simp] theorem State.setCore_peer (s : State) (c : Core) : (s.setCore c).peer = s.peer := rfl
@[simp] theorem State.setCore_peerAge (s : State) (c : Core) : (s.setCore c).peerAge = s.peerAge := rfl
@[simp] theorem State.setCore_hub (s : State) (c : Core) : (s.setCore c).hub = s.hub := rfl
@[simp] theorem State.setCore_xl (s : State) (c : Core) : (s.setCore c).xl = s.xl := rfl
@[simp] theorem State.setCore_ex (s : State) (c : Core) : (s.setCore c).ex = s.ex := rfl
@[simp] theorem State.setCore_bd (s : State) (c : Core) : (s.setCore c).bd = s.bd := rfl
@[simp] theorem State.setCore_er (s : State) (c : Core) : (s.setCore c).er = s.er := rfl
@[simp] theorem State.setCore_bt (s : State) (c : Core) : (s.setCore c).bt = s.bt := rfl
@[simp] theorem State.setCore_out (s : State) (c : Core) : (s.setCore c).out = s.out := rfl
@[simp] theorem State.modCore_variant (s : State) (f : Core → Core) : (s.modCore f).variant = s.variant := rfl
@[simp] theorem State.modCore_stepping (s : State) (f : Core → Core) : (s.modCore f).stepping = s.stepping := rfl
@[simp] theorem State.modCore_cl (s : State) (f : Core → Core) : (s.modCore f).cl = s.cl := rfl
@[simp] theorem State.modCore_co (s : State) (f : Core → Core) : (s.modCore f).co = s.co := rfl
@[simp] theorem State.modCore_hi (s : State) (f : Core → Core) : (s.modCore f).hi = s.hi := rfl
@[simp] theorem State.modCore_agenda (s : State) (f : Core → Core) : (s.modCore f).agenda = s.agenda := rfl
@[simp] theorem State.modCore_eager (s : State) (f : Core → Core) : (s.modCore f).eager = s.eager := rfl
@[simp] theorem State.modCore_time (s : State) (f : Core → Core) : (s.modCore f).time = s.time := rfl
@[simp] theorem State.modCore_free (s : State) (f : Core → Core) : (s.modCore f).free = s.free := rfl
@[simp] theorem State.modCore_clusters (s : State) (f : Core → Core) : (s.modCore f).clusters = s.clusters := rfl
@[simp] theorem State.modCore_mem (s : State) (f : Core → Core) : (s.modCore f).mem = s.mem := rfl
@[simp] theorem State.modCore_die0 (s : State) (f : Core → Core) : (s.modCore f).die0 = s.die0 := rfl
@[simp] theorem State.modCore_die1 (s : State) (f : Core → Core) : (s.modCore f).die1 = s.die1 := rfl
@[simp] theorem State.modCore_dieAge0 (s : State) (f : Core → Core) : (s.modCore f).dieAge0 = s.dieAge0 := rfl
@[simp] theorem State.modCore_dieAge1 (s : State) (f : Core → Core) : (s.modCore f).dieAge1 = s.dieAge1 := rfl
@[simp] theorem State.modCore_peer (s : State) (f : Core → Core) : (s.modCore f).peer = s.peer := rfl
@[simp] theorem State.modCore_peerAge (s : State) (f : Core → Core) : (s.modCore f).peerAge = s.peerAge := rfl
@[simp] theorem State.modCore_hub (s : State) (f : Core → Core) : (s.modCore f).hub = s.hub := rfl
@[simp] theorem State.modCore_xl (s : State) (f : Core → Core) : (s.modCore f).xl = s.xl := rfl
@[simp] theorem State.modCore_ex (s : State) (f : Core → Core) : (s.modCore f).ex = s.ex := rfl
@[simp] theorem State.modCore_bd (s : State) (f : Core → Core) : (s.modCore f).bd = s.bd := rfl
@[simp] theorem State.modCore_er (s : State) (f : Core → Core) : (s.modCore f).er = s.er := rfl
@[simp] theorem State.modCore_bt (s : State) (f : Core → Core) : (s.modCore f).bt = s.bt := rfl
@[simp] theorem State.modCore_out (s : State) (f : Core → Core) : (s.modCore f).out = s.out := rfl
@[simp] theorem State.setSlot_variant (s : State) (x : Slot) : (s.setSlot x).variant = s.variant := rfl
@[simp] theorem State.setSlot_stepping (s : State) (x : Slot) : (s.setSlot x).stepping = s.stepping := rfl
@[simp] theorem State.setSlot_cl (s : State) (x : Slot) : (s.setSlot x).cl = s.cl := rfl
@[simp] theorem State.setSlot_co (s : State) (x : Slot) : (s.setSlot x).co = s.co := rfl
@[simp] theorem State.setSlot_hi (s : State) (x : Slot) : (s.setSlot x).hi = s.hi := rfl
@[simp] theorem State.setSlot_agenda (s : State) (x : Slot) : (s.setSlot x).agenda = s.agenda := rfl
@[simp] theorem State.setSlot_eager (s : State) (x : Slot) : (s.setSlot x).eager = s.eager := rfl
@[simp] theorem State.setSlot_time (s : State) (x : Slot) : (s.setSlot x).time = s.time := rfl
@[simp] theorem State.setSlot_free (s : State) (x : Slot) : (s.setSlot x).free = s.free := rfl
@[simp] theorem State.setSlot_clusters (s : State) (x : Slot) : (s.setSlot x).clusters = s.clusters := rfl
@[simp] theorem State.setSlot_mem (s : State) (x : Slot) : (s.setSlot x).mem = s.mem := rfl
@[simp] theorem State.setSlot_die0 (s : State) (x : Slot) : (s.setSlot x).die0 = s.die0 := rfl
@[simp] theorem State.setSlot_die1 (s : State) (x : Slot) : (s.setSlot x).die1 = s.die1 := rfl
@[simp] theorem State.setSlot_dieAge0 (s : State) (x : Slot) : (s.setSlot x).dieAge0 = s.dieAge0 := rfl
@[simp] theorem State.setSlot_dieAge1 (s : State) (x : Slot) : (s.setSlot x).dieAge1 = s.dieAge1 := rfl
@[simp] theorem State.setSlot_peer (s : State) (x : Slot) : (s.setSlot x).peer = s.peer := rfl
@[simp] theorem State.setSlot_peerAge (s : State) (x : Slot) : (s.setSlot x).peerAge = s.peerAge := rfl
@[simp] theorem State.setSlot_hub (s : State) (x : Slot) : (s.setSlot x).hub = s.hub := rfl
@[simp] theorem State.setSlot_xl (s : State) (x : Slot) : (s.setSlot x).xl = s.xl := rfl
@[simp] theorem State.setSlot_ex (s : State) (x : Slot) : (s.setSlot x).ex = s.ex := rfl
@[simp] theorem State.setSlot_bd (s : State) (x : Slot) : (s.setSlot x).bd = s.bd := rfl
@[simp] theorem State.setSlot_er (s : State) (x : Slot) : (s.setSlot x).er = s.er := rfl
@[simp] theorem State.setSlot_bt (s : State) (x : Slot) : (s.setSlot x).bt = s.bt := rfl
@[simp] theorem State.setSlot_out (s : State) (x : Slot) : (s.setSlot x).out = s.out := rfl
@[simp] theorem State.modSlot_variant (s : State) (f : Slot → Slot) : (s.modSlot f).variant = s.variant := rfl
@[simp] theorem State.modSlot_stepping (s : State) (f : Slot → Slot) : (s.modSlot f).stepping = s.stepping := rfl
@[simp] theorem State.modSlot_cl (s : State) (f : Slot → Slot) : (s.modSlot f).cl = s.cl := rfl
@[simp] theorem State.modSlot_co (s : State) (f : Slot → Slot) : (s.modSlot f).co = s.co := rfl
@[simp] theorem State.modSlot_hi (s : State) (f : Slot → Slot) : (s.modSlot f).hi = s.hi := rfl
@[simp] theorem State.modSlot_agenda (s : State) (f : Slot → Slot) : (s.modSlot f).agenda = s.agenda := rfl
@[simp] theorem State.modSlot_eager (s : State) (f : Slot → Slot) : (s.modSlot f).eager = s.eager := rfl
@[simp] theorem State.modSlot_time (s : State) (f : Slot → Slot) : (s.modSlot f).time = s.time := rfl
@[simp] theorem State.modSlot_free (s : State) (f : Slot → Slot) : (s.modSlot f).free = s.free := rfl
@[simp] theorem State.modSlot_clusters (s : State) (f : Slot → Slot) : (s.modSlot f).clusters = s.clusters := rfl
@[simp] theorem State.modSlot_mem (s : State) (f : Slot → Slot) : (s.modSlot f).mem = s.mem := rfl
@[simp] theorem State.modSlot_die0 (s : State) (f : Slot → Slot) : (s.modSlot f).die0 = s.die0 := rfl
@[simp] theorem State.modSlot_die1 (s : State) (f : Slot → Slot) : (s.modSlot f).die1 = s.die1 := rfl
@[simp] theorem State.modSlot_dieAge0 (s : State) (f : Slot → Slot) : (s.modSlot f).dieAge0 = s.dieAge0 := rfl
@[simp] theorem State.modSlot_dieAge1 (s : State) (f : Slot → Slot) : (s.modSlot f).dieAge1 = s.dieAge1 := rfl
@[simp] theorem State.modSlot_peer (s : State) (f : Slot → Slot) : (s.modSlot f).peer = s.peer := rfl
@[simp] theorem State.modSlot_peerAge (s : State) (f : Slot → Slot) : (s.modSlot f).peerAge = s.peerAge := rfl
@[simp] theorem State.modSlot_hub (s : State) (f : Slot → Slot) : (s.modSlot f).hub = s.hub := rfl
@[simp] theorem State.modSlot_xl (s : State) (f : Slot → Slot) : (s.modSlot f).xl = s.xl := rfl
@[simp] theorem State.modSlot_ex (s : State) (f : Slot → Slot) : (s.modSlot f).ex = s.ex := rfl
@[simp] theorem State.modSlot_bd (s : State) (f : Slot → Slot) : (s.modSlot f).bd = s.bd := rfl
@[simp] theorem State.modSlot_er (s : State) (f : Slot → Slot) : (s.modSlot f).er = s.er := rfl
@[simp] theorem State.modSlot_bt (s : State) (f : Slot → Slot) : (s.modSlot f).bt = s.bt := rfl
@[simp] theorem State.modSlot_out (s : State) (f : Slot → Slot) : (s.modSlot f).out = s.out := rfl
@[simp] theorem State.setG_variant (s : State) {w : Nat} (n : BitVec w) (v : Word) : (s.setG n v).variant = s.variant := rfl
@[simp] theorem State.setG_stepping (s : State) {w : Nat} (n : BitVec w) (v : Word) : (s.setG n v).stepping = s.stepping := rfl
@[simp] theorem State.setG_cl (s : State) {w : Nat} (n : BitVec w) (v : Word) : (s.setG n v).cl = s.cl := rfl
@[simp] theorem State.setG_co (s : State) {w : Nat} (n : BitVec w) (v : Word) : (s.setG n v).co = s.co := rfl
@[simp] theorem State.setG_hi (s : State) {w : Nat} (n : BitVec w) (v : Word) : (s.setG n v).hi = s.hi := rfl
@[simp] theorem State.setG_agenda (s : State) {w : Nat} (n : BitVec w) (v : Word) : (s.setG n v).agenda = s.agenda := rfl
@[simp] theorem State.setG_eager (s : State) {w : Nat} (n : BitVec w) (v : Word) : (s.setG n v).eager = s.eager := rfl
@[simp] theorem State.setG_time (s : State) {w : Nat} (n : BitVec w) (v : Word) : (s.setG n v).time = s.time := rfl
@[simp] theorem State.setG_free (s : State) {w : Nat} (n : BitVec w) (v : Word) : (s.setG n v).free = s.free := rfl
@[simp] theorem State.setG_clusters (s : State) {w : Nat} (n : BitVec w) (v : Word) : (s.setG n v).clusters = s.clusters := rfl
@[simp] theorem State.setG_mem (s : State) {w : Nat} (n : BitVec w) (v : Word) : (s.setG n v).mem = s.mem := rfl
@[simp] theorem State.setG_die0 (s : State) {w : Nat} (n : BitVec w) (v : Word) : (s.setG n v).die0 = s.die0 := rfl
@[simp] theorem State.setG_die1 (s : State) {w : Nat} (n : BitVec w) (v : Word) : (s.setG n v).die1 = s.die1 := rfl
@[simp] theorem State.setG_dieAge0 (s : State) {w : Nat} (n : BitVec w) (v : Word) : (s.setG n v).dieAge0 = s.dieAge0 := rfl
@[simp] theorem State.setG_dieAge1 (s : State) {w : Nat} (n : BitVec w) (v : Word) : (s.setG n v).dieAge1 = s.dieAge1 := rfl
@[simp] theorem State.setG_peer (s : State) {w : Nat} (n : BitVec w) (v : Word) : (s.setG n v).peer = s.peer := rfl
@[simp] theorem State.setG_peerAge (s : State) {w : Nat} (n : BitVec w) (v : Word) : (s.setG n v).peerAge = s.peerAge := rfl
@[simp] theorem State.setG_hub (s : State) {w : Nat} (n : BitVec w) (v : Word) : (s.setG n v).hub = s.hub := rfl
@[simp] theorem State.setG_xl (s : State) {w : Nat} (n : BitVec w) (v : Word) : (s.setG n v).xl = s.xl := rfl
@[simp] theorem State.setG_ex (s : State) {w : Nat} (n : BitVec w) (v : Word) : (s.setG n v).ex = s.ex := rfl
@[simp] theorem State.setG_bd (s : State) {w : Nat} (n : BitVec w) (v : Word) : (s.setG n v).bd = s.bd := rfl
@[simp] theorem State.setG_er (s : State) {w : Nat} (n : BitVec w) (v : Word) : (s.setG n v).er = s.er := rfl
@[simp] theorem State.setG_bt (s : State) {w : Nat} (n : BitVec w) (v : Word) : (s.setG n v).bt = s.bt := rfl
@[simp] theorem State.setG_out (s : State) {w : Nat} (n : BitVec w) (v : Word) : (s.setG n v).out = s.out := rfl
@[simp] theorem State.modF_variant (s : State) (f : Files → Files) : (s.modF f).variant = s.variant := rfl
@[simp] theorem State.modF_stepping (s : State) (f : Files → Files) : (s.modF f).stepping = s.stepping := rfl
@[simp] theorem State.modF_cl (s : State) (f : Files → Files) : (s.modF f).cl = s.cl := rfl
@[simp] theorem State.modF_co (s : State) (f : Files → Files) : (s.modF f).co = s.co := rfl
@[simp] theorem State.modF_hi (s : State) (f : Files → Files) : (s.modF f).hi = s.hi := rfl
@[simp] theorem State.modF_agenda (s : State) (f : Files → Files) : (s.modF f).agenda = s.agenda := rfl
@[simp] theorem State.modF_eager (s : State) (f : Files → Files) : (s.modF f).eager = s.eager := rfl
@[simp] theorem State.modF_time (s : State) (f : Files → Files) : (s.modF f).time = s.time := rfl
@[simp] theorem State.modF_free (s : State) (f : Files → Files) : (s.modF f).free = s.free := rfl
@[simp] theorem State.modF_clusters (s : State) (f : Files → Files) : (s.modF f).clusters = s.clusters := rfl
@[simp] theorem State.modF_mem (s : State) (f : Files → Files) : (s.modF f).mem = s.mem := rfl
@[simp] theorem State.modF_die0 (s : State) (f : Files → Files) : (s.modF f).die0 = s.die0 := rfl
@[simp] theorem State.modF_die1 (s : State) (f : Files → Files) : (s.modF f).die1 = s.die1 := rfl
@[simp] theorem State.modF_dieAge0 (s : State) (f : Files → Files) : (s.modF f).dieAge0 = s.dieAge0 := rfl
@[simp] theorem State.modF_dieAge1 (s : State) (f : Files → Files) : (s.modF f).dieAge1 = s.dieAge1 := rfl
@[simp] theorem State.modF_peer (s : State) (f : Files → Files) : (s.modF f).peer = s.peer := rfl
@[simp] theorem State.modF_peerAge (s : State) (f : Files → Files) : (s.modF f).peerAge = s.peerAge := rfl
@[simp] theorem State.modF_hub (s : State) (f : Files → Files) : (s.modF f).hub = s.hub := rfl
@[simp] theorem State.modF_xl (s : State) (f : Files → Files) : (s.modF f).xl = s.xl := rfl
@[simp] theorem State.modF_ex (s : State) (f : Files → Files) : (s.modF f).ex = s.ex := rfl
@[simp] theorem State.modF_bd (s : State) (f : Files → Files) : (s.modF f).bd = s.bd := rfl
@[simp] theorem State.modF_er (s : State) (f : Files → Files) : (s.modF f).er = s.er := rfl
@[simp] theorem State.modF_bt (s : State) (f : Files → Files) : (s.modF f).bt = s.bt := rfl
@[simp] theorem State.modF_out (s : State) (f : Files → Files) : (s.modF f).out = s.out := rfl
@[simp] theorem State.setV_variant (s : State) (n : Nat) (x : VReg) : (s.setV n x).variant = s.variant := rfl
@[simp] theorem State.setV_stepping (s : State) (n : Nat) (x : VReg) : (s.setV n x).stepping = s.stepping := rfl
@[simp] theorem State.setV_cl (s : State) (n : Nat) (x : VReg) : (s.setV n x).cl = s.cl := rfl
@[simp] theorem State.setV_co (s : State) (n : Nat) (x : VReg) : (s.setV n x).co = s.co := rfl
@[simp] theorem State.setV_hi (s : State) (n : Nat) (x : VReg) : (s.setV n x).hi = s.hi := rfl
@[simp] theorem State.setV_agenda (s : State) (n : Nat) (x : VReg) : (s.setV n x).agenda = s.agenda := rfl
@[simp] theorem State.setV_eager (s : State) (n : Nat) (x : VReg) : (s.setV n x).eager = s.eager := rfl
@[simp] theorem State.setV_time (s : State) (n : Nat) (x : VReg) : (s.setV n x).time = s.time := rfl
@[simp] theorem State.setV_free (s : State) (n : Nat) (x : VReg) : (s.setV n x).free = s.free := rfl
@[simp] theorem State.setV_clusters (s : State) (n : Nat) (x : VReg) : (s.setV n x).clusters = s.clusters := rfl
@[simp] theorem State.setV_mem (s : State) (n : Nat) (x : VReg) : (s.setV n x).mem = s.mem := rfl
@[simp] theorem State.setV_die0 (s : State) (n : Nat) (x : VReg) : (s.setV n x).die0 = s.die0 := rfl
@[simp] theorem State.setV_die1 (s : State) (n : Nat) (x : VReg) : (s.setV n x).die1 = s.die1 := rfl
@[simp] theorem State.setV_dieAge0 (s : State) (n : Nat) (x : VReg) : (s.setV n x).dieAge0 = s.dieAge0 := rfl
@[simp] theorem State.setV_dieAge1 (s : State) (n : Nat) (x : VReg) : (s.setV n x).dieAge1 = s.dieAge1 := rfl
@[simp] theorem State.setV_peer (s : State) (n : Nat) (x : VReg) : (s.setV n x).peer = s.peer := rfl
@[simp] theorem State.setV_peerAge (s : State) (n : Nat) (x : VReg) : (s.setV n x).peerAge = s.peerAge := rfl
@[simp] theorem State.setV_hub (s : State) (n : Nat) (x : VReg) : (s.setV n x).hub = s.hub := rfl
@[simp] theorem State.setV_xl (s : State) (n : Nat) (x : VReg) : (s.setV n x).xl = s.xl := rfl
@[simp] theorem State.setV_ex (s : State) (n : Nat) (x : VReg) : (s.setV n x).ex = s.ex := rfl
@[simp] theorem State.setV_bd (s : State) (n : Nat) (x : VReg) : (s.setV n x).bd = s.bd := rfl
@[simp] theorem State.setV_er (s : State) (n : Nat) (x : VReg) : (s.setV n x).er = s.er := rfl
@[simp] theorem State.setV_bt (s : State) (n : Nat) (x : VReg) : (s.setV n x).bt = s.bt := rfl
@[simp] theorem State.setV_out (s : State) (n : Nat) (x : VReg) : (s.setV n x).out = s.out := rfl
@[simp] theorem State.setA_variant (s : State) (n : Nat) (x : Tile) : (s.setA n x).variant = s.variant := rfl
@[simp] theorem State.setA_stepping (s : State) (n : Nat) (x : Tile) : (s.setA n x).stepping = s.stepping := rfl
@[simp] theorem State.setA_cl (s : State) (n : Nat) (x : Tile) : (s.setA n x).cl = s.cl := rfl
@[simp] theorem State.setA_co (s : State) (n : Nat) (x : Tile) : (s.setA n x).co = s.co := rfl
@[simp] theorem State.setA_hi (s : State) (n : Nat) (x : Tile) : (s.setA n x).hi = s.hi := rfl
@[simp] theorem State.setA_agenda (s : State) (n : Nat) (x : Tile) : (s.setA n x).agenda = s.agenda := rfl
@[simp] theorem State.setA_eager (s : State) (n : Nat) (x : Tile) : (s.setA n x).eager = s.eager := rfl
@[simp] theorem State.setA_time (s : State) (n : Nat) (x : Tile) : (s.setA n x).time = s.time := rfl
@[simp] theorem State.setA_free (s : State) (n : Nat) (x : Tile) : (s.setA n x).free = s.free := rfl
@[simp] theorem State.setA_clusters (s : State) (n : Nat) (x : Tile) : (s.setA n x).clusters = s.clusters := rfl
@[simp] theorem State.setA_mem (s : State) (n : Nat) (x : Tile) : (s.setA n x).mem = s.mem := rfl
@[simp] theorem State.setA_die0 (s : State) (n : Nat) (x : Tile) : (s.setA n x).die0 = s.die0 := rfl
@[simp] theorem State.setA_die1 (s : State) (n : Nat) (x : Tile) : (s.setA n x).die1 = s.die1 := rfl
@[simp] theorem State.setA_dieAge0 (s : State) (n : Nat) (x : Tile) : (s.setA n x).dieAge0 = s.dieAge0 := rfl
@[simp] theorem State.setA_dieAge1 (s : State) (n : Nat) (x : Tile) : (s.setA n x).dieAge1 = s.dieAge1 := rfl
@[simp] theorem State.setA_peer (s : State) (n : Nat) (x : Tile) : (s.setA n x).peer = s.peer := rfl
@[simp] theorem State.setA_peerAge (s : State) (n : Nat) (x : Tile) : (s.setA n x).peerAge = s.peerAge := rfl
@[simp] theorem State.setA_hub (s : State) (n : Nat) (x : Tile) : (s.setA n x).hub = s.hub := rfl
@[simp] theorem State.setA_xl (s : State) (n : Nat) (x : Tile) : (s.setA n x).xl = s.xl := rfl
@[simp] theorem State.setA_ex (s : State) (n : Nat) (x : Tile) : (s.setA n x).ex = s.ex := rfl
@[simp] theorem State.setA_bd (s : State) (n : Nat) (x : Tile) : (s.setA n x).bd = s.bd := rfl
@[simp] theorem State.setA_er (s : State) (n : Nat) (x : Tile) : (s.setA n x).er = s.er := rfl
@[simp] theorem State.setA_bt (s : State) (n : Nat) (x : Tile) : (s.setA n x).bt = s.bt := rfl
@[simp] theorem State.setA_out (s : State) (n : Nat) (x : Tile) : (s.setA n x).out = s.out := rfl
@[simp] theorem State.modCmd_variant (s : State) (q : Nat) (f : Cmd → Cmd) : (s.modCmd q f).variant = s.variant := rfl
@[simp] theorem State.modCmd_stepping (s : State) (q : Nat) (f : Cmd → Cmd) : (s.modCmd q f).stepping = s.stepping := rfl
@[simp] theorem State.modCmd_cl (s : State) (q : Nat) (f : Cmd → Cmd) : (s.modCmd q f).cl = s.cl := rfl
@[simp] theorem State.modCmd_co (s : State) (q : Nat) (f : Cmd → Cmd) : (s.modCmd q f).co = s.co := rfl
@[simp] theorem State.modCmd_hi (s : State) (q : Nat) (f : Cmd → Cmd) : (s.modCmd q f).hi = s.hi := rfl
@[simp] theorem State.modCmd_agenda (s : State) (q : Nat) (f : Cmd → Cmd) : (s.modCmd q f).agenda = s.agenda := rfl
@[simp] theorem State.modCmd_eager (s : State) (q : Nat) (f : Cmd → Cmd) : (s.modCmd q f).eager = s.eager := rfl
@[simp] theorem State.modCmd_time (s : State) (q : Nat) (f : Cmd → Cmd) : (s.modCmd q f).time = s.time := rfl
@[simp] theorem State.modCmd_free (s : State) (q : Nat) (f : Cmd → Cmd) : (s.modCmd q f).free = s.free := rfl
@[simp] theorem State.modCmd_clusters (s : State) (q : Nat) (f : Cmd → Cmd) : (s.modCmd q f).clusters = s.clusters := rfl
@[simp] theorem State.modCmd_mem (s : State) (q : Nat) (f : Cmd → Cmd) : (s.modCmd q f).mem = s.mem := rfl
@[simp] theorem State.modCmd_die0 (s : State) (q : Nat) (f : Cmd → Cmd) : (s.modCmd q f).die0 = s.die0 := rfl
@[simp] theorem State.modCmd_die1 (s : State) (q : Nat) (f : Cmd → Cmd) : (s.modCmd q f).die1 = s.die1 := rfl
@[simp] theorem State.modCmd_dieAge0 (s : State) (q : Nat) (f : Cmd → Cmd) : (s.modCmd q f).dieAge0 = s.dieAge0 := rfl
@[simp] theorem State.modCmd_dieAge1 (s : State) (q : Nat) (f : Cmd → Cmd) : (s.modCmd q f).dieAge1 = s.dieAge1 := rfl
@[simp] theorem State.modCmd_peer (s : State) (q : Nat) (f : Cmd → Cmd) : (s.modCmd q f).peer = s.peer := rfl
@[simp] theorem State.modCmd_peerAge (s : State) (q : Nat) (f : Cmd → Cmd) : (s.modCmd q f).peerAge = s.peerAge := rfl
@[simp] theorem State.modCmd_hub (s : State) (q : Nat) (f : Cmd → Cmd) : (s.modCmd q f).hub = s.hub := rfl
@[simp] theorem State.modCmd_xl (s : State) (q : Nat) (f : Cmd → Cmd) : (s.modCmd q f).xl = s.xl := rfl
@[simp] theorem State.modCmd_ex (s : State) (q : Nat) (f : Cmd → Cmd) : (s.modCmd q f).ex = s.ex := rfl
@[simp] theorem State.modCmd_bd (s : State) (q : Nat) (f : Cmd → Cmd) : (s.modCmd q f).bd = s.bd := rfl
@[simp] theorem State.modCmd_er (s : State) (q : Nat) (f : Cmd → Cmd) : (s.modCmd q f).er = s.er := rfl
@[simp] theorem State.modCmd_bt (s : State) (q : Nat) (f : Cmd → Cmd) : (s.modCmd q f).bt = s.bt := rfl
@[simp] theorem State.modCmd_out (s : State) (q : Nat) (f : Cmd → Cmd) : (s.modCmd q f).out = s.out := rfl
@[simp] theorem State.setClusAt_variant (s : State) (k : Nat) (c : Cluster) : (s.setClusAt k c).variant = s.variant := rfl
@[simp] theorem State.setClusAt_stepping (s : State) (k : Nat) (c : Cluster) : (s.setClusAt k c).stepping = s.stepping := rfl
@[simp] theorem State.setClusAt_cl (s : State) (k : Nat) (c : Cluster) : (s.setClusAt k c).cl = s.cl := rfl
@[simp] theorem State.setClusAt_co (s : State) (k : Nat) (c : Cluster) : (s.setClusAt k c).co = s.co := rfl
@[simp] theorem State.setClusAt_hi (s : State) (k : Nat) (c : Cluster) : (s.setClusAt k c).hi = s.hi := rfl
@[simp] theorem State.setClusAt_agenda (s : State) (k : Nat) (c : Cluster) : (s.setClusAt k c).agenda = s.agenda := rfl
@[simp] theorem State.setClusAt_eager (s : State) (k : Nat) (c : Cluster) : (s.setClusAt k c).eager = s.eager := rfl
@[simp] theorem State.setClusAt_time (s : State) (k : Nat) (c : Cluster) : (s.setClusAt k c).time = s.time := rfl
@[simp] theorem State.setClusAt_free (s : State) (k : Nat) (c : Cluster) : (s.setClusAt k c).free = s.free := rfl
@[simp] theorem State.setClusAt_cores (s : State) (k : Nat) (c : Cluster) : (s.setClusAt k c).cores = s.cores := rfl
@[simp] theorem State.setClusAt_mem (s : State) (k : Nat) (c : Cluster) : (s.setClusAt k c).mem = s.mem := rfl
@[simp] theorem State.setClusAt_die0 (s : State) (k : Nat) (c : Cluster) : (s.setClusAt k c).die0 = s.die0 := rfl
@[simp] theorem State.setClusAt_die1 (s : State) (k : Nat) (c : Cluster) : (s.setClusAt k c).die1 = s.die1 := rfl
@[simp] theorem State.setClusAt_dieAge0 (s : State) (k : Nat) (c : Cluster) : (s.setClusAt k c).dieAge0 = s.dieAge0 := rfl
@[simp] theorem State.setClusAt_dieAge1 (s : State) (k : Nat) (c : Cluster) : (s.setClusAt k c).dieAge1 = s.dieAge1 := rfl
@[simp] theorem State.setClusAt_peer (s : State) (k : Nat) (c : Cluster) : (s.setClusAt k c).peer = s.peer := rfl
@[simp] theorem State.setClusAt_peerAge (s : State) (k : Nat) (c : Cluster) : (s.setClusAt k c).peerAge = s.peerAge := rfl
@[simp] theorem State.setClusAt_hub (s : State) (k : Nat) (c : Cluster) : (s.setClusAt k c).hub = s.hub := rfl
@[simp] theorem State.setClusAt_xl (s : State) (k : Nat) (c : Cluster) : (s.setClusAt k c).xl = s.xl := rfl
@[simp] theorem State.setClusAt_ex (s : State) (k : Nat) (c : Cluster) : (s.setClusAt k c).ex = s.ex := rfl
@[simp] theorem State.setClusAt_bd (s : State) (k : Nat) (c : Cluster) : (s.setClusAt k c).bd = s.bd := rfl
@[simp] theorem State.setClusAt_er (s : State) (k : Nat) (c : Cluster) : (s.setClusAt k c).er = s.er := rfl
@[simp] theorem State.setClusAt_bt (s : State) (k : Nat) (c : Cluster) : (s.setClusAt k c).bt = s.bt := rfl
@[simp] theorem State.setClusAt_out (s : State) (k : Nat) (c : Cluster) : (s.setClusAt k c).out = s.out := rfl
@[simp] theorem State.modClus_variant (s : State) (f : Cluster → Cluster) : (s.modClus f).variant = s.variant := rfl
@[simp] theorem State.modClus_stepping (s : State) (f : Cluster → Cluster) : (s.modClus f).stepping = s.stepping := rfl
@[simp] theorem State.modClus_cl (s : State) (f : Cluster → Cluster) : (s.modClus f).cl = s.cl := rfl
@[simp] theorem State.modClus_co (s : State) (f : Cluster → Cluster) : (s.modClus f).co = s.co := rfl
@[simp] theorem State.modClus_hi (s : State) (f : Cluster → Cluster) : (s.modClus f).hi = s.hi := rfl
@[simp] theorem State.modClus_agenda (s : State) (f : Cluster → Cluster) : (s.modClus f).agenda = s.agenda := rfl
@[simp] theorem State.modClus_eager (s : State) (f : Cluster → Cluster) : (s.modClus f).eager = s.eager := rfl
@[simp] theorem State.modClus_time (s : State) (f : Cluster → Cluster) : (s.modClus f).time = s.time := rfl
@[simp] theorem State.modClus_free (s : State) (f : Cluster → Cluster) : (s.modClus f).free = s.free := rfl
@[simp] theorem State.modClus_cores (s : State) (f : Cluster → Cluster) : (s.modClus f).cores = s.cores := rfl
@[simp] theorem State.modClus_mem (s : State) (f : Cluster → Cluster) : (s.modClus f).mem = s.mem := rfl
@[simp] theorem State.modClus_die0 (s : State) (f : Cluster → Cluster) : (s.modClus f).die0 = s.die0 := rfl
@[simp] theorem State.modClus_die1 (s : State) (f : Cluster → Cluster) : (s.modClus f).die1 = s.die1 := rfl
@[simp] theorem State.modClus_dieAge0 (s : State) (f : Cluster → Cluster) : (s.modClus f).dieAge0 = s.dieAge0 := rfl
@[simp] theorem State.modClus_dieAge1 (s : State) (f : Cluster → Cluster) : (s.modClus f).dieAge1 = s.dieAge1 := rfl
@[simp] theorem State.modClus_peer (s : State) (f : Cluster → Cluster) : (s.modClus f).peer = s.peer := rfl
@[simp] theorem State.modClus_peerAge (s : State) (f : Cluster → Cluster) : (s.modClus f).peerAge = s.peerAge := rfl
@[simp] theorem State.modClus_hub (s : State) (f : Cluster → Cluster) : (s.modClus f).hub = s.hub := rfl
@[simp] theorem State.modClus_xl (s : State) (f : Cluster → Cluster) : (s.modClus f).xl = s.xl := rfl
@[simp] theorem State.modClus_ex (s : State) (f : Cluster → Cluster) : (s.modClus f).ex = s.ex := rfl
@[simp] theorem State.modClus_bd (s : State) (f : Cluster → Cluster) : (s.modClus f).bd = s.bd := rfl
@[simp] theorem State.modClus_er (s : State) (f : Cluster → Cluster) : (s.modClus f).er = s.er := rfl
@[simp] theorem State.modClus_bt (s : State) (f : Cluster → Cluster) : (s.modClus f).bt = s.bt := rfl
@[simp] theorem State.modClus_out (s : State) (f : Cluster → Cluster) : (s.modClus f).out = s.out := rfl
@[simp] theorem State.at__variant (s : State) (cl co : Nat) (hi : Bool) : (s.at_ cl co hi).variant = s.variant := rfl
@[simp] theorem State.at__stepping (s : State) (cl co : Nat) (hi : Bool) : (s.at_ cl co hi).stepping = s.stepping := rfl
@[simp] theorem State.at__agenda (s : State) (cl co : Nat) (hi : Bool) : (s.at_ cl co hi).agenda = s.agenda := rfl
@[simp] theorem State.at__eager (s : State) (cl co : Nat) (hi : Bool) : (s.at_ cl co hi).eager = s.eager := rfl
@[simp] theorem State.at__time (s : State) (cl co : Nat) (hi : Bool) : (s.at_ cl co hi).time = s.time := rfl
@[simp] theorem State.at__free (s : State) (cl co : Nat) (hi : Bool) : (s.at_ cl co hi).free = s.free := rfl
@[simp] theorem State.at__cores (s : State) (cl co : Nat) (hi : Bool) : (s.at_ cl co hi).cores = s.cores := rfl
@[simp] theorem State.at__clusters (s : State) (cl co : Nat) (hi : Bool) : (s.at_ cl co hi).clusters = s.clusters := rfl
@[simp] theorem State.at__mem (s : State) (cl co : Nat) (hi : Bool) : (s.at_ cl co hi).mem = s.mem := rfl
@[simp] theorem State.at__die0 (s : State) (cl co : Nat) (hi : Bool) : (s.at_ cl co hi).die0 = s.die0 := rfl
@[simp] theorem State.at__die1 (s : State) (cl co : Nat) (hi : Bool) : (s.at_ cl co hi).die1 = s.die1 := rfl
@[simp] theorem State.at__dieAge0 (s : State) (cl co : Nat) (hi : Bool) : (s.at_ cl co hi).dieAge0 = s.dieAge0 := rfl
@[simp] theorem State.at__dieAge1 (s : State) (cl co : Nat) (hi : Bool) : (s.at_ cl co hi).dieAge1 = s.dieAge1 := rfl
@[simp] theorem State.at__peer (s : State) (cl co : Nat) (hi : Bool) : (s.at_ cl co hi).peer = s.peer := rfl
@[simp] theorem State.at__peerAge (s : State) (cl co : Nat) (hi : Bool) : (s.at_ cl co hi).peerAge = s.peerAge := rfl
@[simp] theorem State.at__hub (s : State) (cl co : Nat) (hi : Bool) : (s.at_ cl co hi).hub = s.hub := rfl
@[simp] theorem State.at__xl (s : State) (cl co : Nat) (hi : Bool) : (s.at_ cl co hi).xl = s.xl := rfl
@[simp] theorem State.at__ex (s : State) (cl co : Nat) (hi : Bool) : (s.at_ cl co hi).ex = s.ex := rfl
@[simp] theorem State.at__bd (s : State) (cl co : Nat) (hi : Bool) : (s.at_ cl co hi).bd = s.bd := rfl
@[simp] theorem State.at__er (s : State) (cl co : Nat) (hi : Bool) : (s.at_ cl co hi).er = s.er := rfl
@[simp] theorem State.at__bt (s : State) (cl co : Nat) (hi : Bool) : (s.at_ cl co hi).bt = s.bt := rfl
@[simp] theorem State.at__out (s : State) (cl co : Nat) (hi : Bool) : (s.at_ cl co hi).out = s.out := rfl
@[simp] theorem State.emit_variant (s : State) (o : Out) : (s.emit o).variant = s.variant := rfl
@[simp] theorem State.emit_stepping (s : State) (o : Out) : (s.emit o).stepping = s.stepping := rfl
@[simp] theorem State.emit_cl (s : State) (o : Out) : (s.emit o).cl = s.cl := rfl
@[simp] theorem State.emit_co (s : State) (o : Out) : (s.emit o).co = s.co := rfl
@[simp] theorem State.emit_hi (s : State) (o : Out) : (s.emit o).hi = s.hi := rfl
@[simp] theorem State.emit_agenda (s : State) (o : Out) : (s.emit o).agenda = s.agenda := rfl
@[simp] theorem State.emit_eager (s : State) (o : Out) : (s.emit o).eager = s.eager := rfl
@[simp] theorem State.emit_time (s : State) (o : Out) : (s.emit o).time = s.time := rfl
@[simp] theorem State.emit_free (s : State) (o : Out) : (s.emit o).free = s.free := rfl
@[simp] theorem State.emit_cores (s : State) (o : Out) : (s.emit o).cores = s.cores := rfl
@[simp] theorem State.emit_clusters (s : State) (o : Out) : (s.emit o).clusters = s.clusters := rfl
@[simp] theorem State.emit_mem (s : State) (o : Out) : (s.emit o).mem = s.mem := rfl
@[simp] theorem State.emit_die0 (s : State) (o : Out) : (s.emit o).die0 = s.die0 := rfl
@[simp] theorem State.emit_die1 (s : State) (o : Out) : (s.emit o).die1 = s.die1 := rfl
@[simp] theorem State.emit_dieAge0 (s : State) (o : Out) : (s.emit o).dieAge0 = s.dieAge0 := rfl
@[simp] theorem State.emit_dieAge1 (s : State) (o : Out) : (s.emit o).dieAge1 = s.dieAge1 := rfl
@[simp] theorem State.emit_peer (s : State) (o : Out) : (s.emit o).peer = s.peer := rfl
@[simp] theorem State.emit_peerAge (s : State) (o : Out) : (s.emit o).peerAge = s.peerAge := rfl
@[simp] theorem State.emit_hub (s : State) (o : Out) : (s.emit o).hub = s.hub := rfl
@[simp] theorem State.emit_xl (s : State) (o : Out) : (s.emit o).xl = s.xl := rfl
@[simp] theorem State.emit_ex (s : State) (o : Out) : (s.emit o).ex = s.ex := rfl
@[simp] theorem State.emit_bd (s : State) (o : Out) : (s.emit o).bd = s.bd := rfl
@[simp] theorem State.emit_er (s : State) (o : Out) : (s.emit o).er = s.er := rfl
@[simp] theorem State.emit_bt (s : State) (o : Out) : (s.emit o).bt = s.bt := rfl
@[simp] theorem State.setM_variant (s : State) (n : Nat) (x : MReg) : (s.setM n x).variant = s.variant := by unfold State.setM; split <;> rfl
@[simp] theorem State.raise_variant (s : State) (c : Cmd) (n : Nat) : (s.raise c n).variant = s.variant := by unfold State.raise; split <;> rfl
@[simp] theorem State.setM_stepping (s : State) (n : Nat) (x : MReg) : (s.setM n x).stepping = s.stepping := by unfold State.setM; split <;> rfl
@[simp] theorem State.raise_stepping (s : State) (c : Cmd) (n : Nat) : (s.raise c n).stepping = s.stepping := by unfold State.raise; split <;> rfl
@[simp] theorem State.setM_cl (s : State) (n : Nat) (x : MReg) : (s.setM n x).cl = s.cl := by unfold State.setM; split <;> rfl
@[simp] theorem State.raise_cl (s : State) (c : Cmd) (n : Nat) : (s.raise c n).cl = s.cl := by unfold State.raise; split <;> rfl
@[simp] theorem State.setM_co (s : State) (n : Nat) (x : MReg) : (s.setM n x).co = s.co := by unfold State.setM; split <;> rfl
@[simp] theorem State.raise_co (s : State) (c : Cmd) (n : Nat) : (s.raise c n).co = s.co := by unfold State.raise; split <;> rfl
@[simp] theorem State.setM_hi (s : State) (n : Nat) (x : MReg) : (s.setM n x).hi = s.hi := by unfold State.setM; split <;> rfl
@[simp] theorem State.raise_hi (s : State) (c : Cmd) (n : Nat) : (s.raise c n).hi = s.hi := by unfold State.raise; split <;> rfl
@[simp] theorem State.setM_agenda (s : State) (n : Nat) (x : MReg) : (s.setM n x).agenda = s.agenda := by unfold State.setM; split <;> rfl
@[simp] theorem State.raise_agenda (s : State) (c : Cmd) (n : Nat) : (s.raise c n).agenda = s.agenda := by unfold State.raise; split <;> rfl
@[simp] theorem State.setM_eager (s : State) (n : Nat) (x : MReg) : (s.setM n x).eager = s.eager := by unfold State.setM; split <;> rfl
@[simp] theorem State.raise_eager (s : State) (c : Cmd) (n : Nat) : (s.raise c n).eager = s.eager := by unfold State.raise; split <;> rfl
@[simp] theorem State.setM_time (s : State) (n : Nat) (x : MReg) : (s.setM n x).time = s.time := by unfold State.setM; split <;> rfl
@[simp] theorem State.raise_time (s : State) (c : Cmd) (n : Nat) : (s.raise c n).time = s.time := by unfold State.raise; split <;> rfl
@[simp] theorem State.setM_free (s : State) (n : Nat) (x : MReg) : (s.setM n x).free = s.free := by unfold State.setM; split <;> rfl
@[simp] theorem State.raise_free (s : State) (c : Cmd) (n : Nat) : (s.raise c n).free = s.free := by unfold State.raise; split <;> rfl
@[simp] theorem State.setM_clusters (s : State) (n : Nat) (x : MReg) : (s.setM n x).clusters = s.clusters := by unfold State.setM; split <;> rfl
@[simp] theorem State.raise_clusters (s : State) (c : Cmd) (n : Nat) : (s.raise c n).clusters = s.clusters := by unfold State.raise; split <;> rfl
@[simp] theorem State.setM_mem (s : State) (n : Nat) (x : MReg) : (s.setM n x).mem = s.mem := by unfold State.setM; split <;> rfl
@[simp] theorem State.raise_mem (s : State) (c : Cmd) (n : Nat) : (s.raise c n).mem = s.mem := by unfold State.raise; split <;> rfl
@[simp] theorem State.setM_die0 (s : State) (n : Nat) (x : MReg) : (s.setM n x).die0 = s.die0 := by unfold State.setM; split <;> rfl
@[simp] theorem State.raise_die0 (s : State) (c : Cmd) (n : Nat) : (s.raise c n).die0 = s.die0 := by unfold State.raise; split <;> rfl
@[simp] theorem State.setM_die1 (s : State) (n : Nat) (x : MReg) : (s.setM n x).die1 = s.die1 := by unfold State.setM; split <;> rfl
@[simp] theorem State.raise_die1 (s : State) (c : Cmd) (n : Nat) : (s.raise c n).die1 = s.die1 := by unfold State.raise; split <;> rfl
@[simp] theorem State.setM_dieAge0 (s : State) (n : Nat) (x : MReg) : (s.setM n x).dieAge0 = s.dieAge0 := by unfold State.setM; split <;> rfl
@[simp] theorem State.raise_dieAge0 (s : State) (c : Cmd) (n : Nat) : (s.raise c n).dieAge0 = s.dieAge0 := by unfold State.raise; split <;> rfl
@[simp] theorem State.setM_dieAge1 (s : State) (n : Nat) (x : MReg) : (s.setM n x).dieAge1 = s.dieAge1 := by unfold State.setM; split <;> rfl
@[simp] theorem State.raise_dieAge1 (s : State) (c : Cmd) (n : Nat) : (s.raise c n).dieAge1 = s.dieAge1 := by unfold State.raise; split <;> rfl
@[simp] theorem State.setM_peer (s : State) (n : Nat) (x : MReg) : (s.setM n x).peer = s.peer := by unfold State.setM; split <;> rfl
@[simp] theorem State.raise_peer (s : State) (c : Cmd) (n : Nat) : (s.raise c n).peer = s.peer := by unfold State.raise; split <;> rfl
@[simp] theorem State.setM_peerAge (s : State) (n : Nat) (x : MReg) : (s.setM n x).peerAge = s.peerAge := by unfold State.setM; split <;> rfl
@[simp] theorem State.raise_peerAge (s : State) (c : Cmd) (n : Nat) : (s.raise c n).peerAge = s.peerAge := by unfold State.raise; split <;> rfl
@[simp] theorem State.setM_hub (s : State) (n : Nat) (x : MReg) : (s.setM n x).hub = s.hub := by unfold State.setM; split <;> rfl
@[simp] theorem State.raise_hub (s : State) (c : Cmd) (n : Nat) : (s.raise c n).hub = s.hub := by unfold State.raise; split <;> rfl
@[simp] theorem State.setM_xl (s : State) (n : Nat) (x : MReg) : (s.setM n x).xl = s.xl := by unfold State.setM; split <;> rfl
@[simp] theorem State.raise_xl (s : State) (c : Cmd) (n : Nat) : (s.raise c n).xl = s.xl := by unfold State.raise; split <;> rfl
@[simp] theorem State.setM_ex (s : State) (n : Nat) (x : MReg) : (s.setM n x).ex = s.ex := by unfold State.setM; split <;> rfl
@[simp] theorem State.raise_ex (s : State) (c : Cmd) (n : Nat) : (s.raise c n).ex = s.ex := by unfold State.raise; split <;> rfl
@[simp] theorem State.setM_bd (s : State) (n : Nat) (x : MReg) : (s.setM n x).bd = s.bd := by unfold State.setM; split <;> rfl
@[simp] theorem State.raise_bd (s : State) (c : Cmd) (n : Nat) : (s.raise c n).bd = s.bd := by unfold State.raise; split <;> rfl
@[simp] theorem State.setM_er (s : State) (n : Nat) (x : MReg) : (s.setM n x).er = s.er := by unfold State.setM; split <;> rfl
@[simp] theorem State.raise_er (s : State) (c : Cmd) (n : Nat) : (s.raise c n).er = s.er := by unfold State.raise; split <;> rfl
@[simp] theorem State.setM_bt (s : State) (n : Nat) (x : MReg) : (s.setM n x).bt = s.bt := by unfold State.setM; split <;> rfl
@[simp] theorem State.raise_bt (s : State) (c : Cmd) (n : Nat) : (s.raise c n).bt = s.bt := by unfold State.raise; split <;> rfl
@[simp] theorem State.setM_out (s : State) (n : Nat) (x : MReg) : (s.setM n x).out = s.out := by unfold State.setM; split <;> rfl
@[simp] theorem State.raise_out (s : State) (c : Cmd) (n : Nat) : (s.raise c n).out = s.out := by unfold State.raise; split <;> rfl
@[simp] theorem State.at_cl (s : State) (cl co : Nat) (hi : Bool) : (s.at_ cl co hi).cl = cl := rfl
@[simp] theorem State.at_co (s : State) (cl co : Nat) (hi : Bool) : (s.at_ cl co hi).co = co := rfl
@[simp] theorem State.at_hi (s : State) (cl co : Nat) (hi : Bool) : (s.at_ cl co hi).hi = hi := rfl
@[simp] theorem State.emit_out (s : State) (o : Out) : (s.emit o).out = o :: s.out := rfl

/-! ## A core's fields after a slot of it has been replaced -/

@[simp] theorem Core.setSlot_f (k : Core) (hi : Bool) (x : Slot) : (k.setSlot hi x).f = k.f := by cases hi <;> rfl
@[simp] theorem Core.setSlot_w (k : Core) (hi : Bool) (x : Slot) : (k.setSlot hi x).w = k.w := by cases hi <;> rfl
@[simp] theorem Core.setSlot_a (k : Core) (hi : Bool) (x : Slot) : (k.setSlot hi x).a = k.a := by cases hi <;> rfl
@[simp] theorem Core.setSlot_c (k : Core) (hi : Bool) (x : Slot) : (k.setSlot hi x).c = k.c := by cases hi <;> rfl
@[simp] theorem Core.setSlot_h (k : Core) (hi : Bool) (x : Slot) : (k.setSlot hi x).h = k.h := by cases hi <;> rfl
@[simp] theorem Core.setSlot_st (k : Core) (hi : Bool) (x : Slot) : (k.setSlot hi x).st = k.st := by cases hi <;> rfl
@[simp] theorem Core.setSlot_ctxid (k : Core) (hi : Bool) (x : Slot) : (k.setSlot hi x).ctxid = k.ctxid := by cases hi <;> rfl
@[simp] theorem Core.setSlot_errmark (k : Core) (hi : Bool) (x : Slot) : (k.setSlot hi x).errmark = k.errmark := by cases hi <;> rfl
@[simp] theorem Core.setSlot_errcnt (k : Core) (hi : Bool) (x : Slot) : (k.setSlot hi x).errcnt = k.errcnt := by cases hi <;> rfl
@[simp] theorem Core.setSlot_rndseed (k : Core) (hi : Bool) (x : Slot) : (k.setSlot hi x).rndseed = k.rndseed := by cases hi <;> rfl
@[simp] theorem Core.setSlot_traceptr (k : Core) (hi : Bool) (x : Slot) : (k.setSlot hi x).traceptr = k.traceptr := by cases hi <;> rfl
@[simp] theorem Core.setSlot_trace (k : Core) (hi : Bool) (x : Slot) : (k.setSlot hi x).trace = k.trace := by cases hi <;> rfl
@[simp] theorem Core.setSlot_queue (k : Core) (hi : Bool) (x : Slot) : (k.setSlot hi x).queue = k.queue := by cases hi <;> rfl
@[simp] theorem Core.setSlot_qpos (k : Core) (hi : Bool) (x : Slot) : (k.setSlot hi x).qpos = k.qpos := by cases hi <;> rfl
@[simp] theorem Core.setSlot_own (k : Core) (hi : Bool) (x : Slot) : (k.setSlot hi x).own = k.own := by cases hi <;> rfl
@[simp] theorem Core.setSlot_ownAge (k : Core) (hi : Bool) (x : Slot) : (k.setSlot hi x).ownAge = k.ownAge := by cases hi <;> rfl
@[simp] theorem Core.setSlot_tlb (k : Core) (hi : Bool) (x : Slot) : (k.setSlot hi x).tlb = k.tlb := by cases hi <;> rfl
@[simp] theorem Core.setSlot_launch (k : Core) (hi : Bool) (x : Slot) : (k.setSlot hi x).launch = k.launch := by cases hi <;> rfl
@[simp] theorem Core.setSlot_copyChk (k : Core) (hi : Bool) (x : Slot) : (k.setSlot hi x).copyChk = k.copyChk := by cases hi <;> rfl
@[simp] theorem Core.setSlot_copyOvf (k : Core) (hi : Bool) (x : Slot) : (k.setSlot hi x).copyOvf = k.copyOvf := by cases hi <;> rfl
@[simp] theorem Core.slot_setSlot (k : Core) (hi : Bool) (x : Slot) : (k.setSlot hi x).slot hi = x := by cases hi <;> rfl
@[simp] theorem Core.slot_setSlot_not (k : Core) (hi : Bool) (x : Slot) : (k.setSlot hi x).slot (!hi) = k.slot (!hi) := by
  cases hi <;> rfl
@[simp] theorem Core.setSlot_setSlot (k : Core) (hi : Bool) (x y : Slot) : (k.setSlot hi x).setSlot hi y = k.setSlot hi y := by
  cases hi <;> rfl
@[simp] theorem Core.setSlot_slot (k : Core) (hi : Bool) : k.setSlot hi (k.slot hi) = k := by cases hi <;> rfl
@[simp] theorem Core.slot_with_f (k : Core) (hi : Bool) (x) : Core.slot { k with f := x } hi = k.slot hi := rfl
@[simp] theorem Core.slot_with_w (k : Core) (hi : Bool) (x) : Core.slot { k with w := x } hi = k.slot hi := rfl
@[simp] theorem Core.slot_with_a (k : Core) (hi : Bool) (x) : Core.slot { k with a := x } hi = k.slot hi := rfl
@[simp] theorem Core.slot_with_c (k : Core) (hi : Bool) (x) : Core.slot { k with c := x } hi = k.slot hi := rfl
@[simp] theorem Core.slot_with_h (k : Core) (hi : Bool) (x) : Core.slot { k with h := x } hi = k.slot hi := rfl
@[simp] theorem Core.slot_with_st (k : Core) (hi : Bool) (x) : Core.slot { k with st := x } hi = k.slot hi := rfl
@[simp] theorem Core.slot_with_ctxid (k : Core) (hi : Bool) (x) : Core.slot { k with ctxid := x } hi = k.slot hi := rfl
@[simp] theorem Core.slot_with_errmark (k : Core) (hi : Bool) (x) : Core.slot { k with errmark := x } hi = k.slot hi := rfl
@[simp] theorem Core.slot_with_errcnt (k : Core) (hi : Bool) (x) : Core.slot { k with errcnt := x } hi = k.slot hi := rfl
@[simp] theorem Core.slot_with_rndseed (k : Core) (hi : Bool) (x) : Core.slot { k with rndseed := x } hi = k.slot hi := rfl
@[simp] theorem Core.slot_with_traceptr (k : Core) (hi : Bool) (x) : Core.slot { k with traceptr := x } hi = k.slot hi := rfl
@[simp] theorem Core.slot_with_trace (k : Core) (hi : Bool) (x) : Core.slot { k with trace := x } hi = k.slot hi := rfl
@[simp] theorem Core.slot_with_queue (k : Core) (hi : Bool) (x) : Core.slot { k with queue := x } hi = k.slot hi := rfl
@[simp] theorem Core.slot_with_qpos (k : Core) (hi : Bool) (x) : Core.slot { k with qpos := x } hi = k.slot hi := rfl
@[simp] theorem Core.slot_with_own (k : Core) (hi : Bool) (x) : Core.slot { k with own := x } hi = k.slot hi := rfl
@[simp] theorem Core.slot_with_ownAge (k : Core) (hi : Bool) (x) : Core.slot { k with ownAge := x } hi = k.slot hi := rfl
@[simp] theorem Core.slot_with_tlb (k : Core) (hi : Bool) (x) : Core.slot { k with tlb := x } hi = k.slot hi := rfl
@[simp] theorem Core.slot_with_launch (k : Core) (hi : Bool) (x) : Core.slot { k with launch := x } hi = k.slot hi := rfl
@[simp] theorem Core.slot_with_copyChk (k : Core) (hi : Bool) (x) : Core.slot { k with copyChk := x } hi = k.slot hi := rfl
@[simp] theorem Core.slot_with_copyOvf (k : Core) (hi : Bool) (x) : Core.slot { k with copyOvf := x } hi = k.slot hi := rfl

/-! ## Reading a core or a slot after writing one -/

@[simp] theorem State.coreAt_setCoreAt (s : State) (cl co : Nat) (c : Core) : (s.setCoreAt cl co c).coreAt cl co = c := by
  simp [State.coreAt, State.setCoreAt]
theorem State.coreAt_setCoreAt_ne (s : State) {cl co cl' co' : Nat} (c : Core) (h : 8 * cl' + co' ≠ 8 * cl + co) :
    (s.setCoreAt cl co c).coreAt cl' co' = s.coreAt cl' co' := by
  simp [State.coreAt, State.setCoreAt, look_put_ne h]
@[simp] theorem State.setCoreAt_setCoreAt (s : State) (cl co : Nat) (c d : Core) :
    (s.setCoreAt cl co c).setCoreAt cl co d = s.setCoreAt cl co d := by simp [State.setCoreAt]
@[simp] theorem State.core_setCore (s : State) (c : Core) : (s.setCore c).core = c := s.coreAt_setCoreAt s.cl s.co c
@[simp] theorem State.setCore_setCore (s : State) (c d : Core) : (s.setCore c).setCore d = s.setCore d :=
  s.setCoreAt_setCoreAt s.cl s.co c d
@[simp] theorem State.core_modCore (s : State) (f : Core → Core) : (s.modCore f).core = f s.core := s.core_setCore _
@[simp] theorem State.modCore_modCore (s : State) (f g : Core → Core) : (s.modCore f).modCore g = s.modCore (fun c => g (f c)) := by
  simp [State.modCore]
theorem State.modCore_eq (s : State) (f : Core → Core) : s.modCore f = s.setCore (f s.core) := rfl
theorem State.setSlot_eq (s : State) (x : Slot) : s.setSlot x = s.modCore (fun c => c.setSlot s.hi x) := rfl
theorem State.modSlot_eq (s : State) (f : Slot → Slot) :
    s.modSlot f = s.modCore (fun c => c.setSlot s.hi (f (c.slot s.hi))) := rfl
theorem State.modF_eq (s : State) (f : Files → Files) : s.modF f = s.modCore (fun c => { c with f := f c.f }) := rfl
@[simp] theorem State.core_setSlot (s : State) (x : Slot) : (s.setSlot x).core = s.core.setSlot s.hi x := s.core_setCore _
@[simp] theorem State.core_modSlot (s : State) (f : Slot → Slot) : (s.modSlot f).core = s.core.setSlot s.hi (f s.slot) :=
  s.core_setCore _
@[simp] theorem State.core_modF (s : State) (f : Files → Files) : (s.modF f).core = { s.core with f := f s.core.f } :=
  s.core_setCore _
@[simp] theorem State.core_modCmd (s : State) (q : Nat) (f : Cmd → Cmd) :
    (s.modCmd q f).core = { s.core with queue := replFirst (fun e => e.qpos == q) f s.core.queue } := s.core_setCore _
@[simp] theorem State.slot_setSlot (s : State) (x : Slot) : (s.setSlot x).slot = x := by
  simp [State.slot]
@[simp] theorem State.slot_modSlot (s : State) (f : Slot → Slot) : (s.modSlot f).slot = f s.slot := by
  simp [State.slot]
@[simp] theorem State.slot_modF (s : State) (f : Files → Files) : (s.modF f).slot = s.slot := by
  simp [State.slot]
@[simp] theorem State.slot_modCmd (s : State) (q : Nat) (f : Cmd → Cmd) : (s.modCmd q f).slot = s.slot := by
  simp [State.slot]
@[simp] theorem State.setSlot_setSlot (s : State) (x y : Slot) : (s.setSlot x).setSlot y = s.setSlot y := by
  simp [State.setSlot]
@[simp] theorem State.modSlot_modSlot (s : State) (f g : Slot → Slot) : (s.modSlot f).modSlot g = s.modSlot (fun x => g (f x)) := by
  simp [State.modSlot_eq]
@[simp] theorem State.core_at (s : State) (cl co : Nat) (hi : Bool) : (s.at_ cl co hi).core = s.coreAt cl co := rfl
@[simp] theorem State.at_at (s : State) (a b : Nat) (c : Bool) (d e : Nat) (f : Bool) : (s.at_ a b c).at_ d e f = s.at_ d e f := rfl
@[simp] theorem State.at_self (s : State) : s.at_ s.cl s.co s.hi = s := rfl
@[simp] theorem State.clusAt_setClusAt (s : State) (k : Nat) (c : Cluster) : (s.setClusAt k c).clusAt k = c := by
  simp [State.clusAt, State.setClusAt]
@[simp] theorem State.clus_modClus (s : State) (f : Cluster → Cluster) : (s.modClus f).clus = f s.clus :=
  s.clusAt_setClusAt s.cl _
@[simp] theorem State.core_modClus (s : State) (f : Cluster → Cluster) : (s.modClus f).core = s.core := rfl
@[simp] theorem State.clus_modCore (s : State) (f : Core → Core) : (s.modCore f).clus = s.clus := rfl
@[simp] theorem State.clus_modSlot (s : State) (f : Slot → Slot) : (s.modSlot f).clus = s.clus := rfl
@[simp] theorem State.clus_setSlot (s : State) (x : Slot) : (s.setSlot x).clus = s.clus := rfl

/-! ## Registers -/

/-- A write of gn is read back; one of g0 is discarded (R46). -/
theorem Slot.getG_setG (x : Slot) (n m : Nat) (v : Word) (hn : n < 32) :
    (x.setG n v).getG m = if m = n ∧ n ≠ 0 then v else x.getG m := by
  unfold Slot.setG Slot.getG
  by_cases h0 : n = 0
  · simp [h0]
  · by_cases hm : m = 0
    · simp [h0, hm]; omega
    · by_cases he : m = n
      · subst he; simp [h0, hn]
      · simp [h0, hm, he, Ne.symm he]
theorem Slot.setG_zero (x : Slot) (v : Word) : x.setG 0 v = x := by simp [Slot.setG]
theorem Slot.setG_of_ge (x : Slot) (n : Nat) (v : Word) (h : 32 ≤ n) : x.setG n v = x := by
  unfold Slot.setG
  split
  · rfl
  · have : x.g.setIfInBounds n v = x.g := by
      apply Vector.ext; intro i hi; simp [Vector.getElem_setIfInBounds]; omega
    rw [this]
@[simp] theorem Slot.setG_run (x : Slot) (n : Nat) (v : Word) : (x.setG n v).run = x.run := by unfold Slot.setG; split <;> rfl
@[simp] theorem Slot.setG_th (x : Slot) (n : Nat) (v : Word) : (x.setG n v).th = x.th := by unfold Slot.setG; split <;> rfl
@[simp] theorem Slot.setG_pc (x : Slot) (n : Nat) (v : Word) : (x.setG n v).pc = x.pc := by unfold Slot.setG; split <;> rfl
@[simp] theorem Slot.setG_npc (x : Slot) (n : Nat) (v : Word) : (x.setG n v).npc = x.npc := by unfold Slot.setG; split <;> rfl
@[simp] theorem Slot.setG_vl (x : Slot) (n : Nat) (v : Word) : (x.setG n v).vl = x.vl := by unfold Slot.setG; split <;> rfl
@[simp] theorem Slot.setG_vtype (x : Slot) (n : Nat) (v : Word) : (x.setG n v).vtype = x.vtype := by unfold Slot.setG; split <;> rfl
@[simp] theorem Slot.setG_status (x : Slot) (n : Nat) (v : Word) : (x.setG n v).status = x.status := by unfold Slot.setG; split <;> rfl
@[simp] theorem Slot.setG_cause (x : Slot) (n : Nat) (v : Word) : (x.setG n v).cause = x.cause := by unfold Slot.setG; split <;> rfl
@[simp] theorem Slot.setG_epc (x : Slot) (n : Nat) (v : Word) : (x.setG n v).epc = x.epc := by unfold Slot.setG; split <;> rfl
@[simp] theorem Slot.setG_trapvec (x : Slot) (n : Nat) (v : Word) : (x.setG n v).trapvec = x.trapvec := by unfold Slot.setG; split <;> rfl
@[simp] theorem Slot.setG_gang (x : Slot) (n : Nat) (v : Word) : (x.setG n v).gang = x.gang := by unfold Slot.setG; split <;> rfl
@[simp] theorem Slot.setG_loops (x : Slot) (n : Nat) (v : Word) : (x.setG n v).loops = x.loops := by unfold Slot.setG; split <;> rfl
@[simp] theorem Slot.setG_gens (x : Slot) (n : Nat) (v : Word) : (x.setG n v).gens = x.gens := by unfold Slot.setG; split <;> rfl
@[simp] theorem Slot.setG_latch (x : Slot) (n : Nat) (v : Word) : (x.setG n v).latch = x.latch := by unfold Slot.setG; split <;> rfl
@[simp] theorem Slot.setG_rfout (x : Slot) (n : Nat) (v : Word) : (x.setG n v).rfout = x.rfout := by unfold Slot.setG; split <;> rfl
@[simp] theorem Slot.setG_pend (x : Slot) (n : Nat) (v : Word) : (x.setG n v).pend = x.pend := by unfold Slot.setG; split <;> rfl
@[simp] theorem Slot.setG_stop (x : Slot) (n : Nat) (v : Word) : (x.setG n v).stop = x.stop := by unfold Slot.setG; split <;> rfl
@[simp] theorem Slot.setG_lines (x : Slot) (n : Nat) (v : Word) : (x.setG n v).lines = x.lines := by unfold Slot.setG; split <;> rfl
@[simp] theorem Slot.setG_badLines (x : Slot) (n : Nat) (v : Word) : (x.setG n v).badLines = x.badLines := by unfold Slot.setG; split <;> rfl
@[simp] theorem Slot.setG_view (x : Slot) (n : Nat) (v : Word) : (x.setG n v).view = x.view := by unfold Slot.setG; split <;> rfl
@[simp] theorem Slot.setG_ep (x : Slot) (n : Nat) (v : Word) : (x.setG n v).ep = x.ep := by unfold Slot.setG; split <;> rfl
@[simp] theorem Slot.setG_past (x : Slot) (n : Nat) (v : Word) : (x.setG n v).past = x.past := by unfold Slot.setG; split <;> rfl
@[simp] theorem Slot.setG_since (x : Slot) (n : Nat) (v : Word) : (x.setG n v).since = x.since := by unfold Slot.setG; split <;> rfl
@[simp] theorem Slot.setG_behind (x : Slot) (n : Nat) (v : Word) : (x.setG n v).behind = x.behind := by unfold Slot.setG; split <;> rfl
@[simp] theorem Slot.setG_popAt (x : Slot) (n : Nat) (v : Word) : (x.setG n v).popAt = x.popAt := by unfold Slot.setG; split <;> rfl
@[simp] theorem Slot.setG_retired (x : Slot) (n : Nat) (v : Word) : (x.setG n v).retired = x.retired := by unfold Slot.setG; split <;> rfl
@[simp] theorem Slot.setG_stepping (x : Slot) (n : Nat) (v : Word) : (x.setG n v).stepping = x.stepping := by unfold Slot.setG; split <;> rfl
@[simp] theorem Slot.setG_strips (x : Slot) (n : Nat) (v : Word) : (x.setG n v).strips = x.strips := by unfold Slot.setG; split <;> rfl
@[simp] theorem Slot.setG_closer (x : Slot) (n : Nat) (v : Word) : (x.setG n v).closer = x.closer := by unfold Slot.setG; split <;> rfl
@[simp] theorem Slot.setG_popped (x : Slot) (n : Nat) (v : Word) : (x.setG n v).popped = x.popped := by unfold Slot.setG; split <;> rfl
@[simp] theorem State.slot_setG (s : State) {w : Nat} (n : BitVec w) (v : Word) : (s.setG n v).slot = s.slot.setG n.toNat v :=
  s.slot_modSlot _
@[simp] theorem State.core_setG (s : State) {w : Nat} (n : BitVec w) (v : Word) :
    (s.setG n v).core = s.core.setSlot s.hi (s.slot.setG n.toNat v) := s.core_modSlot _
/-- A write of v[n] is read back, and no other register changes (R47). -/
theorem State.vreg_setV (s : State) (n m : Nat) (x : VReg) (hn : n < 64) :
    (s.setV n x).vreg m = if m = n then x else s.vreg m := by
  unfold State.setV State.vreg
  by_cases h : m = n
  · subst h; simp [hn]
  · simp [h, Ne.symm h]

end Sys2Proof.Machine
end

