-- ==== Sys2Proof/Laws/Commit.lean ====
section
/-! SUPPORT. What commit, retirement, a transfer and taking an exception do to a slot: one law each, so that a proof about an
instruction of the control thread unfolds none of them. -/

namespace Sys2Proof.Machine

/-- Where the thread stands after an instruction that does not transfer, and its loop stack then (R115). -/
theorem State.arrive_eq {s : State} (h : s.slot.stepping = false) (pc : Word) :
    s.arrive pc = s.modSlot (fun x => { x with pc := pc, since := none, behind := none, popAt := none }) := by
  simp [State.arrive, h]
theorem State.retire_eq {s : State} (h : s.slot.stepping = false) :
    s.retire = s.modSlot (fun x => { x with loops := (loopEnd x.pc x.npc x.loops).1, pc := (loopEnd x.pc x.npc x.loops).2,
                                            since := none, behind := none, popAt := none }) := by
  unfold State.retire
  rw [State.arrive_eq (by simpa using h), State.modSlot_modSlot]
  simp only [State.modSlot]
theorem State.slot_retire {s : State} (h : s.slot.stepping = false) :
    s.retire.slot = { s.slot with loops := (loopEnd s.slot.pc s.slot.npc s.slot.loops).1,
                                  pc := (loopEnd s.slot.pc s.slot.npc s.slot.loops).2, since := none, behind := none, popAt := none } := by
  rw [State.retire_eq h, State.slot_modSlot]
theorem State.retire_setSlot {s : State} (h : s.slot.stepping = false) : s.retire = s.setSlot s.retire.slot := by
  rw [State.slot_retire h, State.retire_eq h]; rfl
/-- An address of no loop end: the thread goes on at the following instruction (R115). -/
theorem loopEnd_out (pc npc : Word) (l : List LoopEnt) (h : ∀ t ∈ l.head?, t.e ≠ pc) : loopEnd pc npc l = (l, npc) := by
  cases l with
  | nil => rfl
  | cons t r => simp at h; simp [loopEnd, h]
@[simp] theorem finish_ok (s : State) : finish (.ok s) = .next s := rfl
@[simp] theorem finish_trap (t : Trap) (s : State) : finish (.error (.trap t s)) = .next (s.takeTrap t) := rfl
@[simp] theorem finish_stall (s : State) : finish (.error (.stall s)) = .next { s with time := s.time + 1 } := rfl
theorem commit_ok {s t : State} {f : State → M State} (h : f s = .ok t) : commit s f = .next t.retire := by
  simp [commit, h, bind, Except.bind, pure, Except.pure]
theorem commit_trap {s u : State} {t : Trap} {f : State → M State} (h : f s = .error (.trap t u)) :
    commit s f = .next (u.takeTrap t) := by simp [commit, h, bind, Except.bind]
theorem commit_stall {s u : State} {f : State → M State} (h : f s = .error (.stall u)) :
    commit s f = .next { u with time := u.time + 1 } := by simp [commit, h, bind, Except.bind]
/-- A check that holds, and one that fails. -/
@[simp] theorem need_true (t : Trap) (s : State) : need true t s = .ok () := rfl
@[simp] theorem need_false (t : Trap) (s : State) : need false t s = .error (.trap t s) := rfl
/-- A trap taken at TRAPVEC (R122). -/
theorem State.takeTrap_local {s : State} {t : Trap} (h : s.slot.takesLocally t.code = true) :
    (s.takeTrap t).slot = { s.slot with cause := causeWord t false 0,
                                        epc := if t.keepEpc then s.slot.epc else t.epc.getD s.slot.pc, since := none, behind := none, popAt := none,
                                        status := setFld s.slot.status 3 1 1, pc := setFld s.slot.trapvec 0 6 0 } := by
  simp [State.takeTrap, h]
/-- A trap that stops the thread with a record to be written (R63, R381). -/
theorem State.takeTrap_stop {s : State} {t : Trap} (h : s.slot.takesLocally t.code = false) :
    (s.takeTrap t).slot = { s.slot with cause := causeWord t false 0,
                                        epc := if t.keepEpc then s.slot.epc else t.epc.getD s.slot.pc, since := none, behind := none, popAt := none,
                                        run := .stopped, pend := s.slot.pend ++ [s.mkRecord t (t.epc.getD s.slot.pc) false 0] } := by
  simp [State.takeTrap, h]
/-- Nothing but the current slot changes when a trap is taken. -/
theorem State.takeTrap_frame (s : State) (t : Trap) : s.takeTrap t = s.setSlot (s.takeTrap t).slot := by
  by_cases h : s.slot.takesLocally t.code <;> simp [State.takeTrap, h]

end Sys2Proof.Machine
end

