-- ==== Sys2Proof/Laws/Elem.lean ====
section
/-! SUPPORT. Fields and elements of bit vectors: what replacing one does to the others (R47, R49), and the masks that a test
makes (R48). -/

namespace Sys2Proof.Machine

/-- Each bit of a vector with one field replaced. -/
theorem getLsbD_setFld {n : Nat} (x : BitVec n) (lo w v k : Nat) :
    (setFld x lo w v).getLsbD k = if lo ≤ k ∧ k < lo + w then decide (k < n) && v.testBit (k - lo) else x.getLsbD k := by
  unfold setFld
  simp only [BitVec.getLsbD_or, BitVec.getLsbD_and, BitVec.getLsbD_not, BitVec.getLsbD_shiftLeft, BitVec.getLsbD_ofNat,
    Nat.testBit_two_pow_sub_one, Nat.testBit_mod_two_pow]
  by_cases hk : k < n
  · have hkn : k - lo < n := by omega
    by_cases h1 : k < lo
    · have : ¬ (lo ≤ k ∧ k < lo + w) := by omega
      simp [hk, h1, this]
    · by_cases h2 : k - lo < w
      · have : lo ≤ k ∧ k < lo + w := by omega
        simp [hk, hkn, h1, h2, this]
      · have : ¬ (lo ≤ k ∧ k < lo + w) := by omega
        simp [hk, h1, h2, this]
  · have : x.getLsbD k = false := BitVec.getLsbD_of_ge _ _ (by omega)
    simp [hk, this]
theorem testBit_elem {n : Nat} (r : BitVec n) (w i k : Nat) :
    (elem r w i).testBit k = (decide (k < w) && r.getLsbD (w * i + k)) := by
  simp [elem, Nat.testBit_mod_two_pow, Nat.testBit_shiftRight, BitVec.getLsbD]
theorem elem_lt {n : Nat} (r : BitVec n) (w i : Nat) : elem r w i < 2 ^ w := Nat.mod_lt _ (Nat.two_pow_pos w)
/-- An element written is read back, and the others are as before (R47). -/
theorem elem_setElem {n : Nat} (r : BitVec n) (w i j x : Nat) (h : w * j + w ≤ n) :
    elem (setElem r w i x) w j = if j = i then x % 2 ^ w else elem r w j := by
  apply Nat.eq_of_testBit_eq
  intro k
  rw [testBit_elem, setElem, getLsbD_setFld]
  by_cases hk : k < w
  · by_cases hj : j = i
    · subst hj
      have h1 : w * j ≤ w * j + k ∧ w * j + k < w * j + w := by omega
      have h2 : w * j + k < n := by omega
      simp [hk, h1, h2, Nat.testBit_mod_two_pow]
    · have h1 : ¬ (w * i ≤ w * j + k ∧ w * j + k < w * i + w) := by
        rintro ⟨ha, hb⟩
        rcases Nat.lt_or_gt_of_ne hj with hl | hl
        · have := Nat.mul_le_mul_left w (show j + 1 ≤ i from hl); rw [Nat.mul_add, Nat.mul_one] at this; omega
        · have := Nat.mul_le_mul_left w (show i + 1 ≤ j from hl); rw [Nat.mul_add, Nat.mul_one] at this; omega
      simp [hk, hj, h1, testBit_elem]
  · by_cases hj : j = i <;> simp [hk, hj, testBit_elem, Nat.testBit_mod_two_pow]
/-- The elements of a register image replaced below a count: the others are as before (R49). -/
theorem elem_mapElems {n : Nat} (r : BitVec n) (w : Nat) (f : Nat → Option Nat) (c j : Nat) (h : w * j + w ≤ n) :
    elem (mapElems r w f c) w j = if j < c then (match f j with | some x => x % 2 ^ w | none => elem r w j) else elem r w j := by
  induction c with
  | zero => simp [mapElems]
  | succ c ih =>
    unfold mapElems
    cases hf : f c with
    | none =>
      simp only [ih]
      by_cases h1 : j = c
      · subst h1; simp [hf]
      · by_cases h2 : j < c
        · simp [h2, Nat.lt_succ_of_lt h2]
        · have : ¬ j < c + 1 := by omega
          simp [h2, this]
    | some x =>
      simp only [elem_setElem _ _ _ _ _ h, ih]
      by_cases h1 : j = c
      · subst h1; simp [hf]
      · by_cases h2 : j < c
        · simp [h1, h2, Nat.lt_succ_of_lt h2]
        · have : ¬ j < c + 1 := by omega
          simp [h1, h2, this]
/-- A masked write, element by element (R49). -/
theorem elem_maskedWrite {n : Nat} (r : BitVec n) (w : Nat) (m : MReg) (c j : Nat) (f : Nat → Nat) (h : w * j + w ≤ n) :
    elem (maskedWrite r w m c f) w j = if j < c ∧ flag m j = true then f j % 2 ^ w else elem r w j := by
  rw [maskedWrite, elem_mapElems _ _ _ _ _ h]
  by_cases h1 : j < c <;> by_cases h2 : flag m j <;> simp [h1, h2]
/-- The mask that a test makes: its bits below n, and no others (R48). -/
theorem flag_maskOf (n : Nat) (p : Nat → Bool) (j : Nat) (h : j < 512) : flag (maskOf n p) j = (decide (j < n) && p j) := by
  have h1 := elem_mapElems (0 : MReg) 1 (fun i => some (b2n (p i))) n j (by omega)
  have h2 : ∀ x : MReg, flag x j = (elem x 1 j).testBit 0 := by
    intro x; rw [testBit_elem]; simp [flag]
  rw [h2, maskOf, h1]
  by_cases hj : j < n
  · simp [hj, b2n]; cases p j <;> simp
  · rw [if_neg hj, testBit_elem]; simp [hj]
/-- Two images whose elements agree are equal. -/
theorem eq_of_elem {n : Nat} (r q : BitVec n) (w : Nat) (hw : 0 < w) (h : ∀ j, elem r w j = elem q w j) : r = q := by
  apply BitVec.eq_of_getLsbD_eq
  intro k _
  have h1 := congrArg (fun x => Nat.testBit x (k % w)) (h (k / w))
  simp only [testBit_elem] at h1
  have h2 : w * (k / w) + k % w = k := Nat.div_add_mod k w
  simpa [Nat.mod_lt k hw, h2] using h1

end Sys2Proof.Machine
end

