-- ==== Sys2Proof/Laws/Engine.lean ====
section
/-! SUPPORT. What an engine instruction does in a quiet core: one law from its commit through its command's execution to its
retirement (R66, R275, R276), so that a proof about an engine form unfolds neither the queue nor its dispatch. -/

namespace Sys2Proof.Machine

theorem conflicts_nil (a : List Range) : conflicts a [] = false := by simp [conflicts]
theorem overlaps_nil (a : List Range) : overlaps a [] = false := by simp [overlaps]
theorem meetsHeld_nil (c : Cmd) : c.meetsHeld [] = false := by
  unfold Cmd.meetsHeld; split <;> simp [conflicts_nil, overlaps_nil]
/-- A command whose view is its slot's present one runs in it. -/
theorem viewNo_eq {c : Cmd} {x : Slot} (h : c.ep = x.ep) : c.viewNo x = x.ep := by
  unfold Cmd.viewNo; split <;> simp [h]
theorem inView_self {n : Nat} {f : State → M State} {s : State} (h : s.slot.ep = n) : State.inView n f s = f s := by
  unfold State.inView; simp [h]
theorem dropFirst_single {α : Type} (p : α → Bool) (a : α) (h : p a = true) : dropFirst p [a] = [] := by simp [dropFirst, h]

/-- The command that an engine instruction commits, once it has been dispatched. -/
def Ticket.dispatched (t : Ticket) (s : State) (vls : List Nat) : Cmd := { t.entry s with disp := true, vls := vls }
/-- The state in which that command executes: `s2` holds the committed occupancies, `s4` the length queues it popped. -/
def Ticket.launch (t : Ticket) (s s4 : State) (vls : List Nat) : State :=
  (s4.beginVec t.eng t.ins).modCmd s.core.qpos (fun e => { e with disp := true, vls := vls, ranges := t.ranges })

/-- Whether an engine form's ranges are all fixed at its commit: not a copy's, an HGIVE's, a pattern's or a graph's. -/
def fixedRanges (i : Instr) : Bool :=
  (copyKind i).isNone && (match i with | .hgive _ | .sbindPat _ | .gstart _ => false | _ => true)
theorem rangesOf_fixed {i : Instr} (h : fixedRanges i = true) (u : State) (c : Cmd) (hi : c.ins = i) (hd : c.disp = false) :
    u.rangesOf c = c.ranges := by
  subst hi
  unfold fixedRanges at h
  rw [Bool.and_eq_true, Option.isNone_iff_eq_none] at h
  obtain ⟨hk, h⟩ := h
  unfold State.rangesOf
  rw [if_neg (by simp [hd])]
  simp only [hk]
  split at h <;> simp_all
/-- An engine instruction of a quiet core commits, its command is dispatched at once, and what it does is the command. -/
theorem engine_quiet {t : Ticket} {run : Run1} {s s1 s2 s4 : State} {vls : List Nat} (hq : s.Quiet)
    (h1 : popOcc s (t.lens.filterMap lenQueue) s = .ok s1) (h2 : pushOcc s t.push s1 = .ok s2)
    (hs2 : s2.slot = s.slot ∧ s2.hi = s.hi ∧ s2.core.queue = [] ∧ s2.core.qpos = s.core.qpos ∧ s2.core.heldRanges = [])
    (hk : fixedRanges t.ins = true) (hc : ∀ (u : State) (c : Cmd), c.ins = t.ins → u.copyReady c = true)
    (hr : t.ranges.length ≤ 64)
    (h3 : State.startCmd.go (t.lens.filterMap lenQueue) (s2.enqueue (t.entry s)).retire = .ok (vls, s4)) :
    engine t run s = finish ((t.launch s s4 vls).drive run s.core.qpos driveFuel) := by
  obtain ⟨hslot, hhi, hqu, hqp, hhr⟩ := hs2
  have hE : (s2.enqueue (t.entry s)).core = { s2.core with queue := [t.entry s], qpos := (s2.core.qpos + 1) % 65536 } := by
    simp [State.enqueue, hqu]
  have hEs : (s2.enqueue (t.entry s)).slot = s.slot := by
    rw [State.slot, hE]; exact hslot
  have hfree : (s2.enqueue (t.entry s)).slot.stepping = false := by rw [hEs]; exact hq.free
  have h3c : (s2.enqueue (t.entry s)).retire.core
      = (s2.enqueue (t.entry s)).core.setSlot s2.hi (s2.enqueue (t.entry s)).retire.slot := by
    rw [congrArg State.core (State.retire_setSlot hfree), State.core_setSlot]; rfl
  have hcmd : (s2.enqueue (t.entry s)).retire.core.cmd s.core.qpos = some (t.entry s) := by
    rw [h3c, Core.cmd, Core.setSlot_queue, hE]; simp [firstSat, Ticket.entry]
  have hrun : ((s2.enqueue (t.entry s)).retire.core.slot (t.entry s).hi).run = .running := by
    have : (t.entry s).hi = s2.hi := hhi.symm
    rw [this, h3c, Core.slot_setSlot, State.slot_retire hfree, hEs]; exact hq.running
  have hheld : (s2.enqueue (t.entry s)).retire.core.heldRanges = [] := by
    rw [h3c]; simp only [Core.heldRanges, Core.setSlot_st, hE]; exact hhr
  have hrng : (s2.enqueue (t.entry s)).retire.rangesOf (t.entry s) = t.ranges := rangesOf_fixed hk _ _ rfl rfl
  have hq2 : (s2.enqueue (t.entry s)).retire.core.queue = [t.entry s] := by rw [h3c, Core.setSlot_queue, hE]
  have hdisp : (s2.enqueue (t.entry s)).retire.dispatchCmd run s.core.qpos driveFuel
      = (t.launch s s4 vls).drive run s.core.qpos driveFuel := by
    have hne : ((Run.running != Run.stopped) = true) := by decide
    have hd : (t.entry s).disp = false := rfl
    have hqe : (t.entry s).qpos = s.core.qpos := rfl
    have hhe : (t.entry s).held = false := rfl
    unfold State.dispatchCmd
    simp only [hcmd, hrng]
    rw [hc _ _ rfl, hheld, hq2]
    have hrun' : ((s2.enqueue (t.entry s)).retire.core.slot (t.entry s).hi).run = .running := hrun
    have hsb : (s2.enqueue (t.entry s)).retire.core.scoreboard = 0 := by
      simp [Core.scoreboard, hheld, hq2, hd]
    have hst : (s2.enqueue (t.entry s)).retire.startCmd s.core.qpos = .ok (t.launch s s4 vls) := by
      unfold State.startCmd
      simp only [hcmd]
      have hp : (t.entry s).pops = t.lens.filterMap lenQueue := rfl
      rw [hp, h3]
      simp only [Except.map, Ticket.launch, hrng]
      rfl
    rw [hrun', hst, hsb]
    simp [dispatchable, hd, hqe, hhe, meetsHeld_nil, hr, hne]
  unfold engine issue
  have hlen : ¬ (256 ≤ ([] : List Cmd).length) := by decide
  simp only [h1, h2, bind, Except.bind, hlen, if_false, hq.eager, hq.queue, List.isEmpty_nil, Bool.and_self, if_true, hdisp]

/-- A command that ends in one step retires at once. -/
theorem drive_done {run : Run1} {q n : Nat} {s u : State} {c e : Cmd} (hc : s.core.cmd q = some c) (hhi : c.hi = s.hi)
    (hv : c.ep = s.slot.ep)
    (hr : run c s = .ok u) (hu : u.hi = s.hi) (he : u.core.cmd q = some e) (hd : e.done = true) :
    s.drive run q (n + 1) = .ok (u.retireCmd q) := by
  have hs : ({ s with hi := c.hi } : State) = s := by rw [hhi]
  have hu' : ({ u with hi := s.hi } : State) = u := by rw [← hu]
  have hw : c.viewNo (s.core.slot c.hi) = s.slot.ep := by rw [hhi]; exact viewNo_eq hv
  unfold State.drive State.pump
  simp [hc, hs, hw, inView_self rfl, hr, hu', he, hd]
/-- A command that traps in its first step: the trap is taken from the queue (R63, R122). -/
theorem drive_trap {run : Run1} {q n : Nat} {s u : State} {c e : Cmd} {t : Trap} (hc : s.core.cmd q = some c)
    (hhi : c.hi = s.hi) (hv : c.ep = s.slot.ep) (hr : run c s = .error (.trap t u)) (hu : u.hi = s.hi) (he : u.core.cmd q = some e) :
    s.drive run q (n + 1) = .ok ((u.queueTrap e t).retireCmd q) := by
  have hs : ({ s with hi := c.hi } : State) = s := by rw [hhi]
  have hu' : ({ u with hi := s.hi } : State) = u := by rw [← hu]
  have hw : c.viewNo (s.core.slot c.hi) = s.slot.ep := by rw [hhi]; exact viewNo_eq hv
  unfold State.drive State.pump
  simp [hc, hs, hw, inView_self rfl, hr, hu', he]

/-- Retirement of the only command of a queue (R17, R62, R387). -/
theorem retireCmd_single {s : State} {q : Nat} {e : Cmd} (hq : s.core.queue = [e]) (he : e.qpos = q) (hd : e.done = true) :
    s.retireCmd q = (s.traceCmd e false).modCore (fun k =>
      ({ k with queue := dropFirst (fun e => e.qpos == q) k.queue } : Core).setSlot e.hi
        { k.slot e.hi with status := statusWith (k.slot e.hi).status e.flags e.mrs }) := by
  have hcmd : s.core.cmd q = some e := by simp [Core.cmd, hq, firstSat, he]
  have hret : retirable e s.core.queue = true := by simp [hq, retirable, hd]
  unfold State.retireCmd
  simp only [hcmd, hret, if_true]
  rfl
/-- STATUS[40:0] is not touched by retirement (R62). -/
theorem fld_statusWith (st : Word) (fl mrs : Nat) : fld (statusWith st fl mrs) 0 41 = fld st 0 41 := by
  unfold statusWith fld setFld
  congr 1
  apply BitVec.eq_of_getLsbD_eq
  intro i hi
  simp only [BitVec.getLsbD_extractLsb', BitVec.getLsbD_or, BitVec.getLsbD_and, BitVec.getLsbD_not, BitVec.getLsbD_shiftLeft]
  have h4 : i < 64 := by omega
  have h5 : i < 48 := by omega
  simp [h4, h5, hi]

/-! ## One length operand, registers only -/

/-- The register files after the length operand of a command has been popped (R56). -/
def popF (f : Files) (len : BitVec 3) : Files :=
  if len.toNat < 4 then f
  else { f with occ := f.occ.setIfInBounds (len.toNat - 4) (f.occ[len.toNat - 4]?.getD 0 - 1),
                lq := f.lq.setIfInBounds (len.toNat - 4) (f.lq[len.toNat - 4]?.getD []).tail }
/-- The lengths that a command popped. -/
def popped (len : BitVec 3) (n : Nat) : List Nat := if len.toNat < 4 then [] else [n]
/-- The command as it executes. -/
def Ticket.cmd (t : Ticket) (s : State) (len : BitVec 3) (n : Nat) : Cmd :=
  { t.dispatched s (popped len n) with ranges := t.ranges }
/-- The core in which a command executes. -/
def Ticket.core (t : Ticket) (s : State) (len : BitVec 3) (n : Nat) : Core :=
  { (s.beginVec t.eng t.ins).core with
      f := popF s.core.f len, queue := [t.cmd s len n],
      qpos := (s.core.qpos + 1) % 65536 }.setSlot s.hi s.retire.slot
/-- The core after its retire trace has taken a command's entry (R387). -/
def Core.traced (k : Core) (c : Cmd) (flt : Bool) : Core :=
  { k with
    trace := put (fld k.traceptr 0 10) (c.traceEntry flt (memSpace c.ins)) k.trace,
    traceptr := setFld (setFld k.traceptr 0 10 ((fld k.traceptr 0 10 + 1) % 1024)) 10 32
      (if (fld k.traceptr 0 10 + 1) % 1024 = 0 then fld k.traceptr 10 32 + 1 else fld k.traceptr 10 32) }
@[simp] theorem Core.slot_traced (k : Core) (c : Cmd) (b hi : Bool) : (k.traced c b).slot hi = k.slot hi := by
  cases hi <;> rfl
theorem traceCmd_setCore (s : State) (K : Core) (c : Cmd) (flt : Bool) :
    (s.setCore K).traceCmd c flt = s.setCore (if c.traces then K.traced c flt else K) := by
  unfold State.traceCmd
  cases c.traces
  · rfl
  · simp only [if_true]; rw [State.modCore_eq, State.core_setCore, State.setCore_setCore]; rfl
/-- The core after a command has retired from a queue that held nothing else. -/
def Core.ended (k : Core) (e : Cmd) : Core :=
  let k' := if e.traces then k.traced e false else k
  { k' with queue := [] }.setSlot e.hi { k'.slot e.hi with status := statusWith (k'.slot e.hi).status e.flags e.mrs }

@[simp] theorem Core.ended_f (k : Core) (e : Cmd) : (k.ended e).f = k.f := by
  unfold Core.ended; cases e.traces <;> simp [Core.traced]
@[simp] theorem Core.ended_w (k : Core) (e : Cmd) : (k.ended e).w = k.w := by
  unfold Core.ended; cases e.traces <;> simp [Core.traced]
@[simp] theorem Core.ended_a (k : Core) (e : Cmd) : (k.ended e).a = k.a := by
  unfold Core.ended; cases e.traces <;> simp [Core.traced]
@[simp] theorem Core.ended_c (k : Core) (e : Cmd) : (k.ended e).c = k.c := by
  unfold Core.ended; cases e.traces <;> simp [Core.traced]
@[simp] theorem Core.ended_h (k : Core) (e : Cmd) : (k.ended e).h = k.h := by
  unfold Core.ended; cases e.traces <;> simp [Core.traced]
@[simp] theorem Core.ended_st (k : Core) (e : Cmd) : (k.ended e).st = k.st := by
  unfold Core.ended; cases e.traces <;> simp [Core.traced]
@[simp] theorem Core.ended_ctxid (k : Core) (e : Cmd) : (k.ended e).ctxid = k.ctxid := by
  unfold Core.ended; cases e.traces <;> simp [Core.traced]
@[simp] theorem Core.ended_errmark (k : Core) (e : Cmd) : (k.ended e).errmark = k.errmark := by
  unfold Core.ended; cases e.traces <;> simp [Core.traced]
@[simp] theorem Core.ended_errcnt (k : Core) (e : Cmd) : (k.ended e).errcnt = k.errcnt := by
  unfold Core.ended; cases e.traces <;> simp [Core.traced]
@[simp] theorem Core.ended_rndseed (k : Core) (e : Cmd) : (k.ended e).rndseed = k.rndseed := by
  unfold Core.ended; cases e.traces <;> simp [Core.traced]
@[simp] theorem Core.ended_qpos (k : Core) (e : Cmd) : (k.ended e).qpos = k.qpos := by
  unfold Core.ended; cases e.traces <;> simp [Core.traced]
@[simp] theorem Core.ended_own (k : Core) (e : Cmd) : (k.ended e).own = k.own := by
  unfold Core.ended; cases e.traces <;> simp [Core.traced]
@[simp] theorem Core.ended_ownAge (k : Core) (e : Cmd) : (k.ended e).ownAge = k.ownAge := by
  unfold Core.ended; cases e.traces <;> simp [Core.traced]
@[simp] theorem Core.ended_tlb (k : Core) (e : Cmd) : (k.ended e).tlb = k.tlb := by
  unfold Core.ended; cases e.traces <;> simp [Core.traced]
@[simp] theorem Core.ended_launch (k : Core) (e : Cmd) : (k.ended e).launch = k.launch := by
  unfold Core.ended; cases e.traces <;> simp [Core.traced]
@[simp] theorem Core.ended_copyChk (k : Core) (e : Cmd) : (k.ended e).copyChk = k.copyChk := by
  unfold Core.ended; cases e.traces <;> simp [Core.traced]
@[simp] theorem Core.ended_copyOvf (k : Core) (e : Cmd) : (k.ended e).copyOvf = k.copyOvf := by
  unfold Core.ended; cases e.traces <;> simp [Core.traced]
@[simp] theorem Core.ended_queue (k : Core) (e : Cmd) : (k.ended e).queue = [] := by
  unfold Core.ended; cases e.traces <;> simp
@[simp] theorem Core.ended_slot (k : Core) (e : Cmd) : (k.ended e).slot e.hi
    = { k.slot e.hi with status := statusWith (k.slot e.hi).status e.flags e.mrs } := by
  unfold Core.ended; cases e.traces <;> simp
@[simp] theorem Core.ended_slot_not (k : Core) (e : Cmd) : (k.ended e).slot (!e.hi) = k.slot (!e.hi) := by
  unfold Core.ended; cases e.traces <;> simp
theorem Core.ended_trace (k : Core) (e : Cmd) (h : e.eng ≠ .vec) : (k.ended e).trace = k.trace ∧ (k.ended e).traceptr = k.traceptr := by
  have : e.traces = false := by simp [Cmd.traces, h]
  unfold Core.ended; simp [this]

theorem closeFlits_eq (k : Option Nat) : ∃ F : Streams → Streams, ∀ s : State, s.closeFlits k = s.modSt F := ⟨_, fun _ => rfl⟩
theorem beginVec_modCore (e : Engine) (i : Instr) :
    ∃ F : Streams → Streams, ∀ s : State, (s.beginVec e i).core.st = F s.core.st ∧
      ∀ g : Core → Core, (s.modCore g).beginVec e i = s.modCore (fun c => { g c with st := F (g c).st }) := by
  obtain ⟨F, hF⟩ := closeFlits_eq (pushesTo i)
  by_cases h : e = .vec
  · refine ⟨F, fun s => ⟨?_, fun g => ?_⟩⟩
    · simp [State.beginVec, h, hF, State.modSt]
    · simp [State.beginVec, h, hF, State.modSt]
  · refine ⟨id, fun s => ⟨?_, fun g => ?_⟩⟩
    · simp [State.beginVec, h]
    · simp [State.beginVec, h]
theorem beginVec_core (s : State) (e : Engine) (i : Instr) :
    (s.beginVec e i).core = { s.core with st := (s.beginVec e i).core.st } := by
  obtain ⟨F, hF⟩ := closeFlits_eq (pushesTo i)
  by_cases h : e = .vec
  · simp [State.beginVec, h, hF, State.modSt]
  · simp [State.beginVec, h]

theorem lenQueue_small {len : BitVec 3} (h : len.toNat < 4) : lenQueue len = none := by
  unfold lenQueue; rw [if_neg (by omega)]
theorem lenQueue_big {len : BitVec 3} (h : ¬ len.toNat < 4) : lenQueue len = some (len.toNat - 4) := by
  unfold lenQueue; rw [if_pos (by omega)]

/-- The state in which a command executes, from the register files after its pops. -/
theorem launch_eq {t : Ticket} {s : State} (hq : s.Quiet) (f1 f2 : Files → Files) (vls : List Nat) {B : Core}
    (hB : B = (s.beginVec t.eng t.ins).core) :
    t.launch s ((((s.modF f1).enqueue (t.entry s)).retire).modF f2) vls
      = s.setCore ({ B with
          f := f2 (f1 s.core.f), queue := [{ t.dispatched s vls with ranges := t.ranges }],
          qpos := (s.core.qpos + 1) % 65536 }.setSlot s.hi s.retire.slot) := by
  obtain ⟨F, hF⟩ := beginVec_modCore t.eng t.ins
  have hfree : ((s.modF f1).enqueue (t.entry s)).slot.stepping = false := by
    have : ((s.modF f1).enqueue (t.entry s)).slot = s.slot := by
      simp only [State.enqueue, State.modF_eq, State.modCore_modCore, State.slot, State.core_modCore, State.modCore_hi]; rfl
    rw [this]; exact hq.free
  rw [State.retire_eq hfree, Ticket.launch, State.modSlot_eq, State.enqueue, State.modF_eq, State.modF_eq]
  simp only [State.modCore_modCore, State.modCore_hi]
  rw [(hF s).2, State.modCmd, State.modCore_modCore, State.modCore_eq, State.slot_retire hq.free]
  have hB' : B = { s.core with st := F s.core.st } :=
    hB.trans ((beginVec_core s t.eng t.ins).trans (congrArg (fun x => ({ s.core with st := x } : Core)) (hF s).1))
  rw [hB']
  congr 1
  have hqu := hq.queue
  cases hh : s.hi <;>
    simp [Core.setSlot, Core.slot, State.slot, hh, hqu, replFirst, Ticket.entry, Ticket.dispatched]

/-- An engine instruction with at most one length operand and no push, in a quiet core: it is its command, run in the core that
`Ticket.core` gives. -/
theorem engine_len {t : Ticket} {run : Run1} {s : State} {len : BitVec 3} {n : Nat} (hq : s.Quiet)
    (hl : t.lens = [len] ∨ (t.lens = [] ∧ len = 0)) (hp : t.push = none) (hn : LenIs s len n)
    (hk : fixedRanges t.ins = true) (hc : ∀ (u : State) (c : Cmd), c.ins = t.ins → u.copyReady c = true)
    (hr : t.ranges.length ≤ 64) :
    engine t run s = finish ((s.setCore (t.core s len n)).drive run s.core.qpos driveFuel) := by
  have hpops : t.lens.filterMap lenQueue = if len.toNat < 4 then [] else [len.toNat - 4] := by
    rcases hl with h | ⟨h, h0⟩
    · rw [h]; split
      · simp [lenQueue_small ‹_›]
      · simp [lenQueue_big ‹_›]
    · rw [h, h0]; rfl
  by_cases h4 : len.toNat < 4
  · rw [if_pos h4] at hpops
    have h1 : popOcc s (t.lens.filterMap lenQueue) s = .ok s := by rw [hpops]; rfl
    have h2 : pushOcc s t.push s = .ok s := by rw [hp]; rfl
    have h3 : State.startCmd.go (t.lens.filterMap lenQueue) (s.enqueue (t.entry s)).retire
        = .ok ([], (s.enqueue (t.entry s)).retire) := by rw [hpops]; rfl
    rw [engine_quiet hq h1 h2 ⟨rfl, rfl, hq.queue, rfl, hq.ranges⟩ hk hc hr h3]
    have e1 : (s.enqueue (t.entry s)).retire = (((s.modF id).enqueue (t.entry s)).retire).modF id := by
      have hf : ∀ (u : State), u.slot.stepping = false → (u.retire).modF id = u.retire := by
        intro u hu; rw [State.retire_eq hu, State.modSlot_eq, State.modF_eq, State.modCore_modCore]; rfl
      have hA : (s.modF id).enqueue (t.entry s) = s.enqueue (t.entry s) := by simp [State.enqueue, State.modF_eq]
      rw [hA, hf]
      have : (s.enqueue (t.entry s)).slot = s.slot := by simp [State.enqueue, State.slot]; rfl
      rw [this]; exact hq.free
    rw [e1, launch_eq hq id id [] rfl, Ticket.core, Ticket.cmd, popF, popped, if_pos h4, if_pos h4]
    rfl
  · rw [if_neg h4] at hpops
    unfold LenIs at hn
    rw [if_neg h4] at hn
    obtain ⟨hhead, hocc⟩ := hn
    let f1 : Files → Files := fun f =>
      { f with occ := f.occ.setIfInBounds (len.toNat - 4) (s.core.f.occ[len.toNat - 4]?.getD 0 - 1) }
    let f2 : Files → Files := fun f =>
      { f with lq := f.lq.setIfInBounds (len.toNat - 4) (s.core.f.lq[len.toNat - 4]?.getD []).tail }
    have h1 : popOcc s (t.lens.filterMap lenQueue) s = .ok (s.modF f1) := by
      rw [hpops]; simp only [popOcc]; rw [if_neg (by omega)]
    have h2 : pushOcc s t.push (s.modF f1) = .ok (s.modF f1) := by rw [hp]; rfl
    have hcons : s.core.f.lq[len.toNat - 4]?.getD [] = n :: (s.core.f.lq[len.toNat - 4]?.getD []).tail := by
      cases hc : s.core.f.lq[len.toNat - 4]?.getD [] with
      | nil => rw [hc] at hhead; simp at hhead
      | cons a r => rw [hc] at hhead; simp at hhead; simp [hhead]
    have hlq : (((s.modF f1).enqueue (t.entry s)).retire).core.f.lq = s.core.f.lq := by
      have hfree : ((s.modF f1).enqueue (t.entry s)).slot.stepping = false := by
        have : ((s.modF f1).enqueue (t.entry s)).slot = s.slot := by
          simp only [State.enqueue, State.modF_eq, State.modCore_modCore, State.slot, State.core_modCore, State.modCore_hi]; rfl
        rw [this]; exact hq.free
      rw [State.retire_eq hfree]
      simp [State.enqueue, State.modF_eq, f1]
    have h3 : State.startCmd.go (t.lens.filterMap lenQueue) ((s.modF f1).enqueue (t.entry s)).retire
        = .ok ([n], (((s.modF f1).enqueue (t.entry s)).retire).modF f2) := by
      rw [hpops]
      simp only [State.startCmd.go]
      rw [hlq, hcons]
      rfl
    rw [engine_quiet hq h1 h2 ⟨by simp, rfl, by simpa using hq.queue, by simp, by simpa [Core.heldRanges] using hq.ranges⟩ hk hc hr h3,
      launch_eq hq f1 f2 [n] rfl, Ticket.core, Ticket.cmd, popF, popped, if_neg h4, if_neg h4]

theorem Ticket.core_cmd (t : Ticket) (s : State) (len : BitVec 3) (n : Nat) :
    (s.setCore (t.core s len n)).core.cmd s.core.qpos = some (t.cmd s len n) := by
  rw [State.core_setCore, Core.cmd, Ticket.core, Core.setSlot_queue]
  have : (t.cmd s len n).qpos = s.core.qpos := rfl
  simp [firstSat, this]

/-- A command whose effect is one step and ends well: it retires, and the queue is empty again. -/
theorem drive_whole {f : Run1} {s : State} {L K : Core} {c e : Cmd} {q n : Nat}
    (hc : (s.setCore L).core.cmd q = some c) (hhi : c.hi = s.hi) (hv : c.ep = (s.setCore L).slot.ep) (hcq : c.qpos = q)
    (hf : f c (s.setCore L) = .ok (s.setCore K)) (hK : K.queue = [e]) (he : e.qpos = q) :
    (s.setCore L).drive (whole f) q (n + 1) = .ok (s.setCore (K.ended e)) := by
  have hr : whole f c (s.setCore L) = .ok ((s.setCore K).finishCmd c) := by
    simp only [whole, hf, bind, Except.bind, pure, Except.pure]
  have hu : ((s.setCore K).finishCmd c) = s.setCore { K with queue := [{ e with done := true }] } := by
    rw [State.finishCmd, State.modCmd, State.modCore_eq, State.core_setCore, State.setCore_setCore, hK]
    simp [replFirst, hcq, he]
  have he' : ((s.setCore K).finishCmd c).core.cmd q = some { e with done := true } := by
    rw [hu, State.core_setCore]; simp [Core.cmd, firstSat, he]
  rw [drive_done hc hhi hv hr rfl he' rfl, hu, retireCmd_single (e := { e with done := true }) (by simp) he rfl,
    traceCmd_setCore, State.modCore_eq, State.core_setCore, State.setCore_setCore]
  have ht : ({ e with done := true } : Cmd).traces = e.traces := rfl
  have hd : dropFirst (fun c : Cmd => c.qpos == q) [{ e with done := true }] = [] := by simp [dropFirst, he]
  rw [ht]
  unfold Core.ended
  cases e.traces
  · simp only [Bool.false_eq_true, if_false, hd]; rfl
  · simp only [if_true, Core.traced, hd]; rfl

/-- An engine form whose command only works on the core: what it leaves. -/
theorem engine_whole {t : Ticket} {f : Run1} {s : State} {len : BitVec 3} {n : Nat} {K : Core} {e : Cmd} (hq : s.Quiet)
    (hl : t.lens = [len] ∨ (t.lens = [] ∧ len = 0)) (hp : t.push = none) (hn : LenIs s len n)
    (hk : fixedRanges t.ins = true) (hc : ∀ (u : State) (c : Cmd), c.ins = t.ins → u.copyReady c = true)
    (hr : t.ranges.length ≤ 64)
    (hf : f (t.cmd s len n) (s.setCore (t.core s len n)) = .ok (s.setCore K))
    (hK : K.queue = [e]) (he : e.qpos = s.core.qpos) :
    engine t (whole f) s = .next (s.setCore (K.ended e)) := by
  have hv : (t.cmd s len n).ep = (s.setCore (t.core s len n)).slot.ep := by
    rw [State.slot, State.core_setCore, Ticket.core, State.setCore_hi, Core.slot_setSlot, State.slot_retire hq.free]; rfl
  rw [engine_len hq hl hp hn hk hc hr, driveFuel, drive_whole (t.core_cmd s len n) rfl hv rfl hf hK he]
  rfl

/-- The byte of a location that the thread's views have fixed, if they have (R300). -/
def Slot.fixed (x : Slot) (loc : Nat) : Option Byte := (x.view.get? loc).orElse (fun _ => x.later loc)
/-- What a thread reads: what its views have fixed, else what is found now. -/
theorem seen_eq (s : State) (loc : Nat) : s.seen loc = (s.slot.fixed loc).getD (s.newest loc) := by
  unfold State.seen State.viewByte Slot.fixed
  cases s.slot.view.get? loc <;> rfl
/-- A slot whose views are those of another fixes the same bytes. -/
theorem Slot.fixed_congr {x y : Slot} (h : x.view = y.view ∧ x.ep = y.ep ∧ x.past = y.past) : x.fixed = y.fixed := by
  obtain ⟨h1, h2, h3⟩ := h
  funext loc
  simp only [Slot.fixed, Slot.later, h1, h2, h3]
/-- Such a command keeps every byte of memory. -/
theorem sameBytes_of {s : State} {K : Core} (h : K.own = s.core.own ∧ K.w = s.core.w ∧ K.a = s.core.a ∧ K.c = s.core.c
    ∧ (K.slot s.hi).view = s.slot.view ∧ (K.slot s.hi).ep = s.slot.ep ∧ (K.slot s.hi).past = s.slot.past) :
    SameBytes s (s.setCore K) := by
  obtain ⟨h1, h2, h3, h4, h5⟩ := h
  refine ⟨fun loc => ?_, fun spc a => ?_⟩
  · have hn : (s.setCore K).newest loc = s.newest loc := by
      unfold State.newest; rw [State.core_setCore, h1]; rfl
    have hv : (s.setCore K).slot.fixed = s.slot.fixed := by
      rw [State.slot, State.core_setCore]; exact Slot.fixed_congr h5
    rw [seen_eq, seen_eq, hv, hn]
  · unfold State.held Core.buf
    rw [State.core_setCore]
    split <;> simp [h2, h3, h4]

/-- The frame of an engine form whose command changed only register files: what is left to show is about those. -/
theorem engineFrame_of {t : Ticket} {s : State} {len : BitVec 3} {n : Nat} {K : Core} {e : Cmd} {i : Instr} {g : Files}
    {wv wm wa wk ww : List Nat} (hfree : s.Free) (hi : t.ins = i)
    (hK : K = { t.core s len n with f := g, queue := [e] }) (heng : e.eng = t.eng) (hhi : e.hi = s.hi)
    (hv : ∀ n, n ∉ wv → g.v[n]? = s.core.f.v[n]?) (hm : ∀ n, n ≠ 0 → n ∉ wm → g.m[n]? = s.core.f.m[n]?)
    (ha : ∀ n, n ∉ wa → g.a[n]? = s.core.f.a[n]?) (hkk : ∀ n, n ∉ wk → g.k[n]? = s.core.f.k[n]?)
    (hw : ∀ n, n ∉ ww → g.w[n]? = s.core.f.w[n]?)
    (hlq : ∀ n, n + 4 ≠ len.toNat → g.lq[n]? = s.core.f.lq[n]? ∧ g.occ[n]? = s.core.f.occ[n]?)
    (hq : g.modq = s.core.f.modq) :
    EngineFrame t.eng i wv wm wa wk ww len s (s.setCore (K.ended e)) := by
  subst hi
  have hB := beginVec_core s t.eng t.ins
  have hsr := State.slot_retire (s := s) hfree
  generalize hBv : (s.beginVec t.eng t.ins).core.st = st' at hB
  have hKe : K = { { s.core with f := g, st := st', qpos := (s.core.qpos + 1) % 65536, queue := [e] } with }.setSlot s.hi s.retire.slot := by
    rw [hK, Ticket.core, hB]; cases s.hi <;> rfl
  have hslot : K.slot s.hi = s.retire.slot := by rw [hKe, Core.slot_setSlot]
  have hother : K.slot (!s.hi) = s.core.slot (!s.hi) := by rw [hKe, Core.slot_setSlot_not]; rfl
  have hes : (K.ended e).slot s.hi = { s.retire.slot with status := statusWith s.retire.slot.status e.flags e.mrs } := by
    have := K.ended_slot e; rw [hhi, hslot] at this; exact this
  have htf : (s.setCore (K.ended e)).core.f = g := by rw [State.core_setCore, Core.ended_f, hKe, Core.setSlot_f]
  have hts : (s.setCore (K.ended e)).slot = { s.retire.slot with status := statusWith s.retire.slot.status e.flags e.mrs } := by
    rw [State.slot, State.core_setCore]; exact hes
  have hreg : ∀ {b : Nat} {α : Type} (x y : Vector α b) (d : α) (n : Nat), x[n]? = y[n]? → x[n]?.getD d = y[n]?.getD d := by
    intro b α x y d n h; rw [h]
  refine ⟨?_, ?_, ?_, ?_, ?_, ?_, ?_, ?_, ?_, ?_, ?_, ?_, ?_, ?_, ?_, ?_, ?_⟩
  · rw [State.core_setCore]
  · rw [State.core_setCore]; simp [hKe]
  · rw [State.core_setCore]; simp [hKe]
  · rw [State.core_setCore]; simp [hKe]
  · rw [State.core_setCore, hBv]; simp [hKe]
  · by_cases hv : t.eng = .vec
    · exact .inl hv
    · right
      have := K.ended_trace e (by rw [heng]; exact hv)
      rw [State.core_setCore, this.1, this.2]; simp [hKe]
  · have := K.ended_slot_not e
    rw [hhi, hother] at this
    rw [State.core_setCore]; exact this
  · rw [hts, hsr]
  · rw [hts, hsr]; exact fld_statusWith _ _ _
  · intro n hn; exact hreg _ _ _ _ (by rw [htf]; exact hv n hn)
  · intro n hn
    unfold State.mreg
    by_cases h0 : n = 0
    · simp [h0]
    · rw [if_neg h0, if_neg h0]; exact hreg _ _ _ _ (by rw [htf]; exact hm n h0 hn)
  · intro n hn; exact hreg _ _ _ _ (by rw [htf]; exact ha n hn)
  · intro n hn; exact hreg _ _ _ _ (by rw [htf]; exact hkk n hn)
  · intro n hn; exact hreg _ _ _ _ (by rw [htf]; exact hw n hn)
  · intro n hn; rw [htf]; exact hlq n hn
  · rw [htf]; exact hq
  · refine sameBytes_of ⟨?_, ?_, ?_, ?_, ?_⟩
    · simp [hKe]
    · simp [hKe]
    · simp [hKe]
    · simp [hKe]
    · rw [hes, hsr]; exact ⟨rfl, rfl, rfl⟩

/-! ## The bookkeeping of a command that runs -/

theorem note_setCore (s : State) (K : Core) (c e : Cmd) (n p : Nat) (hK : K.queue = [e]) (he : e.qpos = c.qpos) :
    (s.setCore K).note c n p = s.setCore { K with queue := [{ e with tr := (n, p, e.tr.2.2.1, e.tr.2.2.2) }] } := by
  rw [State.note, State.modCmd, State.modCore_eq, State.core_setCore, State.setCore_setCore, hK]
  simp [replFirst, he]
theorem raise_setCore (s : State) (K : Core) (c e : Cmd) (fl : Nat) (hK : K.queue = [e]) (he : e.qpos = c.qpos) :
    (s.setCore K).raise c fl = s.setCore { K with queue := [{ e with flags := e.flags ||| fl }] } := by
  unfold State.raise
  split
  · subst fl; rw [Nat.or_zero, ← hK]
  · rw [State.modCmd, State.modCore_eq, State.core_setCore, State.setCore_setCore, hK]
    simp [replFirst, he]
theorem setV_setCore (s : State) (K : Core) (d : Nat) (x : VReg) :
    (s.setCore K).setV d x = s.setCore { K with f := { K.f with v := K.f.v.setIfInBounds d x } } := by
  rw [State.setV, State.modF, State.modCore_eq, State.core_setCore, State.setCore_setCore]
theorem modF_setCore (s : State) (K : Core) (f : Files → Files) : (s.setCore K).modF f = s.setCore { K with f := f K.f } := by
  rw [State.modF, State.modCore_eq, State.core_setCore, State.setCore_setCore]
theorem setM_setCore (s : State) (K : Core) (d : Nat) (x : MReg) :
    (s.setCore K).setM d x = s.setCore (if d = 0 then K else { K with f := { K.f with m := K.f.m.setIfInBounds d x } }) := by
  unfold State.setM
  split
  · rfl
  · rw [modF_setCore]
theorem popF_v (f : Files) (len : BitVec 3) : (popF f len).v = f.v ∧ (popF f len).m = f.m ∧ (popF f len).a = f.a ∧
    (popF f len).k = f.k ∧ (popF f len).w = f.w ∧ (popF f len).modq = f.modq := by unfold popF; split <;> simp
theorem popF_lq (f : Files) (len : BitVec 3) (n : Nat) (h : n + 4 ≠ len.toNat) :
    (popF f len).lq[n]? = f.lq[n]? ∧ (popF f len).occ[n]? = f.occ[n]? := by
  unfold popF
  split
  · exact ⟨rfl, rfl⟩
  · have : len.toNat - 4 ≠ n := by omega
    simp [this]
/-- STATUS after a command that raised nothing. -/
theorem statusWith_zero (st : Word) : statusWith st 0 0 = st := by
  unfold statusWith
  have h1 : ∀ (x : Word) (lo w : Nat), setFld x lo w (fld x lo w) = x := by
    intro x lo w
    apply BitVec.eq_of_getLsbD_eq
    intro k hk
    rw [getLsbD_setFld]
    split
    · rename_i h
      simp only [fld, BitVec.extractLsb'_toNat, hk, decide_true, Bool.true_and, Nat.testBit_mod_two_pow, Nat.testBit_shiftRight]
      have : k - lo < w := by omega
      simp [this, show lo + (k - lo) = k by omega, BitVec.getLsbD]
    · rfl
  have h2 : fld st 48 16 < 65536 := (st.extractLsb' 48 16).isLt
  have h3 : fld (setFld st 41 7 (fld st 41 7)) 48 16 = fld st 48 16 := by rw [h1]
  rw [Nat.or_zero, h1, Nat.add_zero, Nat.min_eq_right (by omega), h1]
/-- The registers that a form reads in the core of its command are those of the state before (R66). -/
theorem Ticket.core_f (t : Ticket) (s : State) (len : BitVec 3) (n : Nat) : (t.core s len n).f = popF s.core.f len := by
  rw [Ticket.core, Core.setSlot_f]
theorem Ticket.core_queue (t : Ticket) (s : State) (len : BitVec 3) (n : Nat) :
    (t.core s len n).queue = [t.cmd s len n] := by
  rw [Ticket.core, Core.setSlot_queue]
theorem len_popped (t : Ticket) (s : State) (len : BitVec 3) (n w : Nat) (hn : LenIs s len n) :
    (t.cmd s len n).len len (vlmax w) = boundLen w len n := by
  unfold Cmd.len boundLen Ticket.cmd popped LenIs at *
  by_cases h : len.toNat < 4
  · rw [if_pos h] at hn; rw [if_neg (by omega), if_pos h, if_pos h]; exact hn.symm
  · rw [if_pos (by omega), if_neg h]; simp [Ticket.dispatched, nthD, h]

theorem putLanes_setCore (s : State) (K : Core) (c e : Cmd) (d w : Nat) (msk : MReg) (n : Nat) (f : Lanes)
    (hK : K.queue = [e]) (he : e.qpos = c.qpos) :
    (s.setCore K).putLanes c d w msk n f = s.setCore { K with
      f := { K.f with v := K.f.v.setIfInBounds d (maskedWrite (K.f.v[d]?.getD 0) w msk n (fun i => (f i).1)) },
      queue := [{ e with flags := e.flags ||| orFlags msk (fun i => (f i).2) n }] } := by
  have hv : (s.setCore K).vreg d = K.f.v[d]?.getD 0 := by rw [State.vreg, State.core_setCore]
  rw [State.putLanes, hv, setV_setCore, raise_setCore _ _ _ e _ (by exact hK) he]
/-- The registers, the captured values and the length of a command are those of the state at its commit (R66). -/
theorem Ticket.cmd_vtype (t : Ticket) (s : State) (len : BitVec 3) (n : Nat) : (t.cmd s len n).vtype = s.slot.vtype := rfl
theorem Ticket.cmd_qpos (t : Ticket) (s : State) (len : BitVec 3) (n : Nat) : (t.cmd s len n).qpos = s.core.qpos := rfl
theorem Ticket.cmd_hi (t : Ticket) (s : State) (len : BitVec 3) (n : Nat) : (t.cmd s len n).hi = s.hi := rfl
theorem Ticket.cmd_g (t : Ticket) (s : State) (len : BitVec 3) (n : Nat) :
    (t.cmd s len n).ga = t.ga ∧ (t.cmd s len n).gb = t.gb ∧ (t.cmd s len n).gc = t.gc := ⟨rfl, rfl, rfl⟩
theorem Ticket.core_vreg (t : Ticket) (s : State) (len : BitVec 3) (n k : Nat) :
    (s.setCore (t.core s len n)).vreg k = s.vreg k := by
  unfold State.vreg; rw [State.core_setCore, Ticket.core_f, (popF_v _ _).1]
theorem Ticket.core_mreg (t : Ticket) (s : State) (len : BitVec 3) (n k : Nat) :
    (s.setCore (t.core s len n)).mreg k = s.mreg k := by
  unfold State.mreg; rw [State.core_setCore, Ticket.core_f, (popF_v _ _).2.1]
/-- The thread stands at the next instruction after an engine form (R66, R115). -/
theorem advanced_of {t : Ticket} {s : State} {len : BitVec 3} {n : Nat} {K : Core} {e : Cmd} {g : Files} (hfree : s.Free)
    (hK : K = { t.core s len n with f := g, queue := [e] }) (hhi : e.hi = s.hi) :
    Advanced s (s.setCore (K.ended e)) ∧ (s.setCore (K.ended e)).slot.status = statusWith s.slot.status e.flags e.mrs ∧
      (s.setCore (K.ended e)).core.f = g := by
  have hs : (s.setCore (K.ended e)).slot = { s.retire.slot with status := statusWith s.retire.slot.status e.flags e.mrs } := by
    rw [State.slot, State.core_setCore, State.setCore_hi]
    have h1 := K.ended_slot e
    have h2 : K.slot s.hi = s.retire.slot := by rw [hK]; exact Core.slot_setSlot _ _ _
    rw [hhi, h2] at h1
    exact h1
  refine ⟨?_, ?_, ?_⟩
  · unfold Advanced; rw [hs, State.slot_retire hfree]
  · rw [hs, State.slot_retire hfree]
  · rw [State.core_setCore, Core.ended_f, hK]

end Sys2Proof.Machine
end

