-- ==== Sys2Proof/Laws/Thread.lean ====
section
/-! SUPPORT. What an instruction of the control thread does that writes one register or none: it completes, it leaves the frame
of `ScalarFrame`, and the thread advances. One law for every such form, to be cited for each. -/

namespace Sys2Proof.Machine

/-- A write to the current slot alone keeps every byte, where it keeps the views. -/
theorem sameBytes_setSlot {s : State} {x : Slot} (h : x.view = s.slot.view ∧ x.ep = s.slot.ep ∧ x.past = s.slot.past) :
    SameBytes s (s.setSlot x) := by
  refine sameBytes_of ⟨?_, ?_, ?_, ?_, ?_⟩ <;> simp [Core.setSlot]
  · split <;> rfl
  · split <;> rfl
  · split <;> rfl
  · split <;> rfl
  · cases hh : s.hi <;> simp [Core.slot, h]

/-- A slot whose g registers but gd are as before, and which stands where retirement puts it, is the frame. -/
theorem scalarFrame_of {s : State} {x : Slot} {d : Nat}
    (hx : x = { s.slot with g := x.g, pc := x.pc, loops := x.loops, since := none, behind := none, popAt := none })
    (hr : ∀ n, n ≠ d → x.getG n = s.slot.getG n) : ScalarFrame d s (s.setSlot x) := by
  refine ⟨by simp, by simpa using hx, by simpa using hr, sameBytes_setSlot ?_⟩
  rw [hx]; exact ⟨rfl, rfl, rfl⟩

/-- THE LAW OF A ONE-REGISTER FORM (R46, R95, R115). -/
theorem putG_runs {s : State} (hf : s.Free) {d : BitVec 6} (hd : d.toNat < 32) (f : State → Word) :
    ∃ t, putG d f s = .next t ∧ WroteG d.toNat (f s) t ∧ Advanced s t ∧ ScalarFrame d.toNat s t := by
  refine ⟨(s.setG d (f s)).retire, commit_ok rfl, ?_⟩
  have hst : (s.setG d (f s)).slot.stepping = false := by simpa [State.setG, State.Free] using hf
  have hs : (s.setG d (f s)).retire = s.setSlot { s.slot.setG d.toNat (f s) with
      loops := (loopEnd s.slot.pc s.slot.npc s.slot.loops).1,
      pc := (loopEnd s.slot.pc s.slot.npc s.slot.loops).2, since := none, behind := none, popAt := none } := by
    rw [State.retire_eq hst]; simp [State.setG, State.modSlot]
  have hg : ∀ n, (s.slot.setG d.toNat (f s)).getG n = if n = d.toNat ∧ d.toNat ≠ 0 then f s else s.slot.getG n :=
    fun n => Slot.getG_setG s.slot d.toNat n (f s) hd
  rw [hs]
  refine ⟨?_, ?_, scalarFrame_of ?_ ?_⟩
  · unfold WroteG
    have := hg d.toNat
    simp only [State.slot_setSlot]
    change (s.slot.setG d.toNat (f s)).getG d.toNat = _
    rw [this]
    by_cases h0 : d.toNat = 0
    · simp [h0, Slot.getG]
    · simp [h0]
  · simp [Advanced]
  · unfold Slot.setG; split <;> rfl
  · intro n hn
    change (s.slot.setG d.toNat (f s)).getG n = _
    rw [hg]; simp [hn]

/-- A form of the control thread that changes nothing but the address of the next instruction. -/
theorem plain_runs {s : State} (hf : s.Free) :
    ∃ t, commit s .ok = .next t ∧ Advanced s t ∧ ScalarFrame 0 s t := by
  refine ⟨s.retire, commit_ok rfl, ?_⟩
  rw [State.retire_setSlot hf, State.slot_retire hf]
  exact ⟨by simp [Advanced], scalarFrame_of rfl (fun _ _ => rfl)⟩

end Sys2Proof.Machine
end

