-- ==== Sys2Proof/Laws/Access.lean ====
section
/-! SUPPORT. What reads and writes of memory by the current core do: the bytes they give and leave, and the part of the core
they touch. -/

namespace Sys2Proof.Machine

/-- A translation that succeeds changes at most the translations held (R395). -/
theorem xlate_ok {s u : State} {va : Nat} {acc : Acc} {form : Form} {p : Place} (h : s.xlate va acc form = .ok (p, u)) :
    u = s ∨ ∃ t, u = s.modTlbs (fun l => t :: l) := by
  unfold State.xlate at h
  split at h
  · cases h
  · simp only at h
    split at h <;> try cases h
    split at h
    · cases h
    · cases h
      split
      · exact .inr ⟨_, rfl⟩
      · exact .inl rfl

/-- The core with its newest byte of a location, a byte that a point nearer than the home holds first. -/
theorem newest_setCore (s : State) (K : Core) (loc : Nat) :
    (s.setCore K).newest loc = (K.own.get? loc).getD ({ s with cores := put (8 * s.cl + s.co) { K with own := [] } s.cores }.newest loc) := by
  unfold State.newest
  have h1 : ({ s with cores := put (8 * s.cl + s.co) { K with own := [] } s.cores } : State).core = { K with own := [] } :=
    s.core_setCore { K with own := [] }
  rw [s.core_setCore, h1]
  cases K.own.get? loc <;> rfl
/-- What a thread reads, by its view, its core's own stores, and the rest. -/
theorem seen_setCore (s : State) (K : Core) (loc : Nat) :
    (s.setCore K).seen loc = (((K.slot s.hi).fixed loc).orElse (fun _ => K.own.get? loc)).getD
      ({ s with cores := put (8 * s.cl + s.co) { K with own := [] } s.cores }.newest loc) := by
  have hv : (s.setCore K).slot = K.slot s.hi := by rw [State.slot, s.core_setCore]; rfl
  rw [seen_eq, hv]
  cases (K.slot s.hi).fixed loc with
  | some b => rfl
  | none => simp only [Option.orElse_none]; rw [newest_setCore]; rfl
/-- What lies behind the core's own stores does not depend on the core. -/
theorem behind_core (s : State) (K L : Core) (loc : Nat) :
    ({ s with cores := put (8 * s.cl + s.co) { K with own := [] } s.cores } : State).newest loc =
      ({ s with cores := put (8 * s.cl + s.co) { L with own := [] } s.cores } : State).newest loc := by
  unfold State.newest
  have h : ∀ M : Core, ({ s with cores := put (8 * s.cl + s.co) { M with own := [] } s.cores } : State).core = { M with own := [] } :=
    fun M => s.core_setCore { M with own := [] }
  rw [h K, h L]; rfl
/-- Two cores with equal stores on their way and views that fix the same give equal reads. -/
theorem seen_congr {s : State} {K L : Core} {loc : Nat} (ho : K.own.get? loc = L.own.get? loc)
    (hv : (K.slot s.hi).fixed loc = (L.slot s.hi).fixed loc) : (s.setCore K).seen loc = (s.setCore L).seen loc := by
  rw [seen_setCore, seen_setCore, ho, hv, behind_core s K L]
theorem setCore_core_seen (s : State) (loc : Nat) : (s.setCore s.core).seen loc = s.seen loc := by
  have h : (s.setCore s.core).core = s.core := s.core_setCore _
  have h2 : (s.setCore s.core).slot = s.slot := by rw [State.slot, h]; rfl
  have h3 : (s.setCore s.core).newest loc = s.newest loc := by unfold State.newest; rw [h]; rfl
  rw [seen_eq, seen_eq, h2, h3]
@[simp] theorem held_setCore (s : State) (K : Core) (spc a : Nat) : (s.setCore K).held spc a = (K.buf spc).get a := by
  unfold State.held; rw [s.core_setCore]

/-! ## A read -/

/-- A read of device memory gives the bytes that the thread sees, and fixes them in its view alone (R300). -/
theorem viewRead_eq (n : Nat) : ∀ (s : State) (loc : Nat),
    (s.viewRead loc n).1 = s.seenNum loc n ∧
    ((s.viewRead loc n).2 = s ∨ ∃ V, (s.viewRead loc n).2 = s.setSlot { s.slot with view := V }) ∧
    (∀ a, (s.viewRead loc n).2.seen a = s.seen a) := by
  induction n with
  | zero => intro s loc; exact ⟨rfl, .inl rfl, fun _ => rfl⟩
  | succ n ih =>
    intro s loc
    have hb : (s.viewByte loc).1 = s.seen loc := rfl
    have hst : ((s.viewByte loc).2 = s ∨ ∃ V, (s.viewByte loc).2 = s.setSlot { s.slot with view := V }) ∧
        (∀ a, (s.viewByte loc).2.seen a = s.seen a) := by
      unfold State.viewByte
      cases hg : s.slot.view.get? loc with
      | some b => exact ⟨.inl rfl, fun _ => rfl⟩
      | none =>
        refine ⟨.inr ⟨_, rfl⟩, fun a => ?_⟩
        have key : ∀ X : Slot, X.view = s.slot.view.set loc ((s.slot.later loc).getD (s.newest loc)) →
            X.later = s.slot.later → (s.setSlot X).seen a = s.seen a := by
          intro X hX hl
          have hn : (s.setSlot X).newest a = s.newest a := by
            unfold State.newest
            have : (s.setSlot X).core.own = s.core.own := by simp
            rw [this]; rfl
          rw [seen_eq, seen_eq, State.slot_setSlot, hn]
          unfold Slot.fixed
          rw [hX, hl, Overlay.get_set]
          by_cases ha : a = loc
          · subst ha; simp [hg]
          · simp [ha]
        exact key _ rfl rfl
    obtain ⟨hst1, hst2⟩ := hst
    obtain ⟨h1, h2, h3⟩ := ih (s.viewByte loc).2 (loc + 1)
    refine ⟨?_, ?_, ?_⟩
    · show (s.viewByte loc).1.toNat + 256 * ((s.viewByte loc).2.viewRead (loc + 1) n).1 = _
      rw [h1, hb]
      unfold State.seenNum
      rw [List.range_succ_eq_map, List.map_cons, List.map_map, leNat]
      simp only [hst2, Nat.add_zero]
      congr 3
      apply List.map_congr_left; intro k _; simp only [Function.comp]; congr 1; omega
    · show ((s.viewByte loc).2.viewRead (loc + 1) n).2 = s ∨ ∃ V, ((s.viewByte loc).2.viewRead (loc + 1) n).2 = _
      rcases hst1 with e | ⟨V, e⟩ <;> rcases h2 with f | ⟨W, f⟩
      · left; rw [f, e]
      · right; exact ⟨W, by rw [f, e]⟩
      · right; exact ⟨V, by rw [f, e]⟩
      · right; exact ⟨W, by rw [f, e]; simp⟩
    · intro a
      show ((s.viewByte loc).2.viewRead (loc + 1) n).2.seen a = s.seen a
      rw [h3, hst2]

/-! ## A store -/

/-- The core after a store of one byte. -/
def Core.stored (K : Core) (age loc : Nat) (b : Byte) : Core :=
  { K with own := K.own.set loc b, ownAge := if K.own.isEmpty then age else K.ownAge,
           s0 := K.s0.sees loc b, s1 := K.s1.sees loc b }
/-- The core after a store of n bytes. -/
def Core.storedAll (K : Core) (age loc x : Nat) : Nat → Core
  | 0 => K
  | n + 1 => (K.stored age loc (BitVec.ofNat 8 x)).storedAll age (loc + 1) (x / 256) n
theorem storeByte_setCore (s : State) (K : Core) (loc : Nat) (b : Byte) :
    (s.setCore K).storeByte loc b = s.setCore (K.stored s.xl.age loc b) := by
  unfold State.storeByte State.modCore
  rw [s.core_setCore, State.setCore_setCore]; rfl
theorem viewWrite_setCore (s : State) : ∀ (n : Nat) (K : Core) (loc x : Nat),
    (s.setCore K).viewWrite loc x n = s.setCore (K.storedAll s.xl.age loc x n) := by
  intro n
  induction n with
  | zero => intro K loc x; rfl
  | succ n ih =>
    intro K loc x
    show ((s.setCore K).storeByte loc (BitVec.ofNat 8 x)).viewWrite (loc + 1) (x / 256) n = _
    rw [storeByte_setCore, ih]; rfl
/-- A store of at least one byte touches the current core alone. -/
theorem viewWrite_eq (s : State) (n loc x : Nat) :
    s.viewWrite loc x (n + 1) = s.setCore (s.core.storedAll s.xl.age loc x (n + 1)) := by
  show State.viewWrite (s.storeByte loc (BitVec.ofNat 8 x)) (loc + 1) (x / 256) n = _
  have : s.storeByte loc (BitVec.ofNat 8 x) = s.setCore (s.core.stored s.xl.age loc (BitVec.ofNat 8 x)) := rfl
  rw [this, viewWrite_setCore]; rfl
theorem storedAll_own (age : Nat) : ∀ (n : Nat) (K : Core) (loc x a : Nat),
    (K.storedAll age loc x n).own.get? a = if loc ≤ a ∧ a < loc + n then some (BitVec.ofNat 8 (x / 256 ^ (a - loc))) else K.own.get? a := by
  intro n
  induction n with
  | zero => intro K loc x a; simp [Core.storedAll]
  | succ n ih =>
    intro K loc x a
    rw [Core.storedAll, ih]
    by_cases h : loc + 1 ≤ a ∧ a < loc + 1 + n
    · rw [if_pos h, if_pos (by omega), Nat.div_div_eq_div_mul, ← pow_succ']
      congr 4; omega
    · rw [if_neg h, Core.stored]
      simp only [Overlay.get_set]
      by_cases ha : a = loc
      · subst ha; simp
      · rw [if_neg ha, if_neg (by omega)]
/-- A byte that every view takes is fixed, and nothing else is fixed otherwise. -/
theorem fixed_sees (x : Slot) (loc a : Nat) (b : Byte) :
    (x.sees loc b).fixed a = if a = loc then some b else x.fixed a := by
  have hl : a ≠ loc → (x.sees loc b).later a = x.later a := by
    intro ha
    unfold Slot.later
    show firstSome _ (x.past.map _) = _
    induction x.past with
    | nil => rfl
    | cons p r ih =>
      have he : (x.sees loc b).ep = x.ep := rfl
      simp only [List.map_cons, firstSome, he, Overlay.get_set, ha, if_false] at ih ⊢
      split <;> simp_all
  unfold Slot.fixed
  have hv : (x.sees loc b).view = x.view.set loc b := rfl
  rw [hv, Overlay.get_set]
  by_cases ha : a = loc
  · simp [ha]
  · rw [if_neg ha, if_neg ha, hl ha]
theorem storedAll_fixed (age : Nat) (hi : Bool) : ∀ (n : Nat) (K : Core) (loc x a : Nat),
    ((K.storedAll age loc x n).slot hi).fixed a = if loc ≤ a ∧ a < loc + n then some (BitVec.ofNat 8 (x / 256 ^ (a - loc))) else (K.slot hi).fixed a := by
  intro n
  induction n with
  | zero => intro K loc x a; simp [Core.storedAll]
  | succ n ih =>
    intro K loc x a
    rw [Core.storedAll, ih]
    by_cases h : loc + 1 ≤ a ∧ a < loc + 1 + n
    · rw [if_pos h, if_pos (by omega), Nat.div_div_eq_div_mul, ← pow_succ']
      congr 4; omega
    · rw [if_neg h]
      have : (K.stored age loc (BitVec.ofNat 8 x)).slot hi = (K.slot hi).sees loc (BitVec.ofNat 8 x) := by
        cases hi <;> rfl
      rw [this, fixed_sees]
      by_cases ha : a = loc
      · subst ha; simp
      · rw [if_neg ha, if_neg (by omega)]
/-- Of the core a store changes the stores on their way and the views. -/
theorem storedAll_frame (age : Nat) : ∀ (n : Nat) (K : Core) (loc x : Nat),
    ∃ o a v0 p0 v1 p1, K.storedAll age loc x n =
      { K with own := o, ownAge := a, s0 := { K.s0 with view := v0, past := p0 }, s1 := { K.s1 with view := v1, past := p1 } } := by
  intro n
  induction n with
  | zero => intro K loc x; exact ⟨K.own, K.ownAge, K.s0.view, K.s0.past, K.s1.view, K.s1.past, rfl⟩
  | succ n ih =>
    intro K loc x
    obtain ⟨o, a, v0, p0, v1, p1, h⟩ := ih (K.stored age loc (BitVec.ofNat 8 x)) (loc + 1) (x / 256)
    exact ⟨o, a, v0, p0, v1, p1, by rw [Core.storedAll, h]; rfl⟩
/-- The bytes of a store are what its thread reads there from now on; every other byte reads as before (R300). -/
theorem seen_viewWrite (s : State) (n loc x a : Nat) :
    (s.viewWrite loc x n).seen a = if loc ≤ a ∧ a < loc + n then BitVec.ofNat 8 (x / 256 ^ (a - loc)) else s.seen a := by
  cases n with
  | zero => simp [State.viewWrite]
  | succ n =>
    rw [viewWrite_eq]
    by_cases h : loc ≤ a ∧ a < loc + (n + 1)
    · rw [if_pos h, seen_setCore, storedAll_fixed, if_pos h]; rfl
    · rw [if_neg h, ← setCore_core_seen s a]
      apply seen_congr
      · rw [storedAll_own, if_neg h]
      · rw [storedAll_fixed, if_neg h]

/-! ## Buffers -/

theorem Core.buf_setBuf (K : Core) (spc : Nat) (m : Mem) (h : 1 ≤ spc ∧ spc ≤ 3) (b : Nat) :
    (K.setBuf spc m).buf b = if b = spc then m else K.buf b := by
  obtain ⟨h1, h2⟩ := h
  have : spc = 1 ∨ spc = 2 ∨ spc = 3 := by omega
  rcases this with rfl | rfl | rfl <;>
  · unfold Core.setBuf Core.buf
    split <;> simp_all
theorem bufRead_eq (s : State) (spc a : Nat) (n : Nat) : s.bufRead spc a n = s.heldNum spc a n := by
  unfold State.bufRead State.heldNum State.held
  generalize s.core.buf spc = m
  induction n generalizing a with
  | zero => rfl
  | succ n ih =>
    rw [Mem.read, ih, List.range_succ_eq_map, List.map_cons, List.map_map, leNat]
    simp only [Nat.add_zero]
    congr 3
    apply List.map_congr_left; intro k _; simp only [Function.comp]; congr 1; omega
theorem bufWrite_eq (s : State) (spc a x n : Nat) :
    s.bufWrite spc a x n = s.setCore (s.core.setBuf spc ((s.core.buf spc).write a x n)) := rfl

end Sys2Proof.Machine
end

