-- ==== Sys2Proof/Laws/Code.lean ====
section
/-! SUPPORT. What the fields of an encoded instruction decode to (R68 to R78): one law per tail layout. -/

set_option linter.unusedSimpArgs false

namespace Sys2Proof

@[simp] theorem firstOf_nil : firstOf [] = none := rfl
@[simp] theorem firstOf_cons (b : Bool) (r : Reject) (l : List (Bool × Reject)) :
    firstOf ((b, r) :: l) = none ↔ b = false ∧ firstOf l = none := by cases b <;> simp [firstOf]
/-- The decoder answers a well-formed instruction that the opcode maps give. -/
theorem decode_of {h : BitVec 16} {t : BitVec 64} {i : Instr} (h1 : decodeRaw h t false = .ok i) (h2 : i.defect = none) :
    decode h t = .ok i := by unfold decode; rw [h1]; simp [h2]
theorem extractLsb'_lo {a b : Nat} (x : BitVec a) (y : BitVec b) (lo w : Nat) (h : lo + w ≤ b) :
    (x ++ y).extractLsb' lo w = y.extractLsb' lo w := by
  apply BitVec.eq_of_getLsbD_eq; intro i hi
  simp only [BitVec.getLsbD_extractLsb', hi, decide_true, Bool.true_and, BitVec.getLsbD_append]
  rw [if_pos (by omega)]
theorem extractLsb'_hi {a b : Nat} (x : BitVec a) (y : BitVec b) (lo w : Nat) (h : b ≤ lo) :
    (x ++ y).extractLsb' lo w = x.extractLsb' (lo - b) w := by
  apply BitVec.eq_of_getLsbD_eq; intro i hi
  simp only [BitVec.getLsbD_extractLsb', hi, decide_true, Bool.true_and, BitVec.getLsbD_append]
  rw [if_neg (by omega), show lo + i - b = lo - b + i by omega]
theorem extractLsb'_self {a : Nat} (x : BitVec a) : x.extractLsb' 0 a = x := by
  apply BitVec.eq_of_getLsbD_eq; intro i hi; simp [hi]
theorem extractLsb'_all {a : Nat} (x : BitVec a) (lo : Nat) (h : lo = 0) : x.extractLsb' lo a = x := by
  subst h; exact extractLsb'_self x
theorem extractLsb'_wide {a : Nat} (x : BitVec a) (lo w : Nat) (h : lo + w ≤ a) (h2 : a ≤ 64) :
    (x.setWidth 64).extractLsb' lo w = x.extractLsb' lo w := by
  apply BitVec.eq_of_getLsbD_eq; intro i hi
  simp only [BitVec.getLsbD_extractLsb', hi, decide_true, Bool.true_and, BitVec.getLsbD_setWidth]
  have : lo + i < 64 := by omega
  simp [this]
@[simp] theorem tc_mkHead (tc : BitVec 2) (maj f7 : BitVec 7) : headTc (mkHead tc maj f7) = tc := by
  unfold headTc mkHead; rw [extractLsb'_hi _ _ _ _ (by decide), extractLsb'_hi _ _ _ _ (by decide)]; exact extractLsb'_self tc
@[simp] theorem maj_mkHead (tc : BitVec 2) (maj f7 : BitVec 7) : headMaj (mkHead tc maj f7) = maj := by
  unfold headMaj mkHead; rw [extractLsb'_hi _ _ _ _ (by decide), extractLsb'_lo _ _ _ _ (by decide)]; exact extractLsb'_self maj
@[simp] theorem f7_mkHead (tc : BitVec 2) (maj f7 : BitVec 7) : headF7 (mkHead tc maj f7) = f7 := by
  unfold headF7 mkHead; rw [extractLsb'_lo _ _ _ _ (by decide)]; exact extractLsb'_self f7
@[simp] theorem x_mkHead (tc : BitVec 2) (maj : BitVec 7) (x : Bool) (d : BitVec 6) : headX (mkHead tc maj (mkFD x d)) = x := by
  unfold headX mkHead mkFD; rw [extractLsb'_lo _ _ _ _ (by decide), extractLsb'_hi _ _ _ _ (by decide)]; cases x <;> rfl
@[simp] theorem d_mkHead (tc : BitVec 2) (maj : BitVec 7) (x : Bool) (d : BitVec 6) : headD (mkHead tc maj (mkFD x d)) = d := by
  unfold headD mkHead mkFD; rw [extractLsb'_lo _ _ _ _ (by decide), extractLsb'_lo _ _ _ _ (by decide)]; exact extractLsb'_self d

@[simp] theorem OpA2.enc_head (o : OpA2) (maj : BitVec 7) (x : Bool) (op : BitVec 4) : (o.enc maj x op).head = mkHead 1 maj (mkFD x o.d) := rfl
@[simp] theorem OpA2.ofBits_enc (o : OpA2) (maj : BitVec 7) (x : Bool) (op : BitVec 4) (h : BitVec 16) (hd : headD h = o.d) : OpA2.ofBits h (o.enc maj x op).tail = o := by
  unfold OpA2.ofBits OpA2.enc
  simp (disch := decide) only [d_mkHead, x_mkHead, extractLsb'_wide, extractLsb'_lo, extractLsb'_hi, extractLsb'_all]
  rw [hd]
@[simp] theorem OpA2.enc_tail_12_4 (o : OpA2) (maj : BitVec 7) (x : Bool) (op : BitVec 4) : (o.enc maj x op).tail.extractLsb' 12 4 = op := by
  unfold OpA2.enc
  simp (disch := decide) only [d_mkHead, x_mkHead, extractLsb'_wide, extractLsb'_lo, extractLsb'_hi, extractLsb'_all]
@[simp] theorem OpW2.enc_head (o : OpW2) (maj : BitVec 7) (x : Bool) : (o.enc maj x).head = mkHead 1 maj (mkFD x o.d) := rfl
@[simp] theorem OpW2.ofBits_enc (o : OpW2) (maj : BitVec 7) (x : Bool) (h : BitVec 16) (hd : headD h = o.d) : OpW2.ofBits h (o.enc maj x).tail = o := by
  unfold OpW2.ofBits OpW2.enc
  simp (disch := decide) only [d_mkHead, x_mkHead, extractLsb'_wide, extractLsb'_lo, extractLsb'_hi, extractLsb'_all]
  rw [hd]
@[simp] theorem OpI4.enc_head (o : OpI4) (maj : BitVec 7) (x : Bool) (op : BitVec 4) : (o.enc maj x op).head = mkHead 2 maj (mkFD x o.d) := rfl
@[simp] theorem OpI4.ofBits_enc (o : OpI4) (maj : BitVec 7) (x : Bool) (op : BitVec 4) (h : BitVec 16) (hd : headD h = o.d) : OpI4.ofBits h (o.enc maj x op).tail = o := by
  unfold OpI4.ofBits OpI4.enc
  simp (disch := decide) only [d_mkHead, x_mkHead, extractLsb'_wide, extractLsb'_lo, extractLsb'_hi, extractLsb'_all]
  rw [hd]
@[simp] theorem OpI4.enc_tail_28_4 (o : OpI4) (maj : BitVec 7) (x : Bool) (op : BitVec 4) : (o.enc maj x op).tail.extractLsb' 28 4 = op := by
  unfold OpI4.enc
  simp (disch := decide) only [d_mkHead, x_mkHead, extractLsb'_wide, extractLsb'_lo, extractLsb'_hi, extractLsb'_all]
@[simp] theorem OpI4.enc_tail_20_2 (o : OpI4) (maj : BitVec 7) (x : Bool) (op : BitVec 4) : (o.enc maj x op).tail.extractLsb' 20 2 = 0#2 := by
  unfold OpI4.enc
  simp (disch := decide) only [d_mkHead, x_mkHead, extractLsb'_wide, extractLsb'_lo, extractLsb'_hi, extractLsb'_all]
@[simp] theorem OpL4.enc_head (o : OpL4) (maj : BitVec 7) : (o.enc maj).head = mkHead 2 maj (mkFD false o.d) := rfl
@[simp] theorem OpL4.ofBits_enc (o : OpL4) (maj : BitVec 7) (h : BitVec 16) (hd : headD h = o.d) : OpL4.ofBits h (o.enc maj).tail = o := by
  unfold OpL4.ofBits OpL4.enc
  simp (disch := decide) only [d_mkHead, x_mkHead, extractLsb'_wide, extractLsb'_lo, extractLsb'_hi, extractLsb'_all]
  rw [hd]
@[simp] theorem OpL4.enc_tail_20_1 (o : OpL4) (maj : BitVec 7) : (o.enc maj).tail.extractLsb' 20 1 = 0#1 := by
  unfold OpL4.enc
  simp (disch := decide) only [d_mkHead, x_mkHead, extractLsb'_wide, extractLsb'_lo, extractLsb'_hi, extractLsb'_all]
@[simp] theorem OpAM.enc_head (o : OpAM) (op : BitVec 4) : (o.enc op).head = mkHead 2 0x0A (mkFD false o.d) := rfl
@[simp] theorem OpAM.ofBits_enc (o : OpAM) (op : BitVec 4) (h : BitVec 16) (hd : headD h = o.d) : OpAM.ofBits h (o.enc op).tail = o := by
  unfold OpAM.ofBits OpAM.enc
  simp (disch := decide) only [d_mkHead, x_mkHead, extractLsb'_wide, extractLsb'_lo, extractLsb'_hi, extractLsb'_all]
  rw [hd]
@[simp] theorem OpAM.enc_tail_28_4 (o : OpAM) (op : BitVec 4) : (o.enc op).tail.extractLsb' 28 4 = op := by
  unfold OpAM.enc
  simp (disch := decide) only [d_mkHead, x_mkHead, extractLsb'_wide, extractLsb'_lo, extractLsb'_hi, extractLsb'_all]
@[simp] theorem OpAM.enc_tail_0_8 (o : OpAM) (op : BitVec 4) : (o.enc op).tail.extractLsb' 0 8 = 0#8 := by
  unfold OpAM.enc
  simp (disch := decide) only [d_mkHead, x_mkHead, extractLsb'_wide, extractLsb'_lo, extractLsb'_hi, extractLsb'_all]
@[simp] theorem OpJ4.enc_head (o : OpJ4) (maj : BitVec 7) : (o.enc maj).head = mkHead 2 maj (mkFD false o.d) := rfl
@[simp] theorem OpJ4.ofBits_enc (o : OpJ4) (maj : BitVec 7) (h : BitVec 16) (hd : headD h = o.d) : OpJ4.ofBits h (o.enc maj).tail = o := by
  unfold OpJ4.ofBits OpJ4.enc
  simp (disch := decide) only [d_mkHead, x_mkHead, extractLsb'_wide, extractLsb'_lo, extractLsb'_hi, extractLsb'_all]
  rw [hd]
@[simp] theorem OpW4.enc_head (o : OpW4) (maj : BitVec 7) : (o.enc maj).head = mkHead 2 maj (mkFD false o.d) := rfl
@[simp] theorem OpW4.ofBits_enc (o : OpW4) (maj : BitVec 7) (h : BitVec 16) (hd : headD h = o.d) : OpW4.ofBits h (o.enc maj).tail = o := by
  unfold OpW4.ofBits OpW4.enc
  simp (disch := decide) only [d_mkHead, x_mkHead, extractLsb'_wide, extractLsb'_lo, extractLsb'_hi, extractLsb'_all]
  rw [hd]
@[simp] theorem OpW8.enc_head (o : OpW8) (maj : BitVec 7) : (o.enc maj).head = mkHead 3 maj (mkFD false o.d) := rfl
@[simp] theorem OpW8.ofBits_enc (o : OpW8) (maj : BitVec 7) (h : BitVec 16) (hd : headD h = o.d) : OpW8.ofBits h (o.enc maj).tail = o := by
  unfold OpW8.ofBits OpW8.enc
  simp (disch := decide) only [d_mkHead, x_mkHead, extractLsb'_wide, extractLsb'_lo, extractLsb'_hi, extractLsb'_all]
  rw [hd]
@[simp] theorem OpM4.enc_head (o : OpM4) (maj : BitVec 7) (op : BitVec 6) : (o.enc maj op).head = mkHead 2 maj (mkFD false o.d) := rfl
@[simp] theorem OpM4.ofBits_enc (o : OpM4) (maj : BitVec 7) (op : BitVec 6) (h : BitVec 16) (hd : headD h = o.d) : OpM4.ofBits h (o.enc maj op).tail = o := by
  unfold OpM4.ofBits OpM4.enc
  simp (disch := decide) only [d_mkHead, x_mkHead, extractLsb'_wide, extractLsb'_lo, extractLsb'_hi, extractLsb'_all]
  rw [hd]
@[simp] theorem OpM4.enc_tail_26_6 (o : OpM4) (maj : BitVec 7) (op : BitVec 6) : (o.enc maj op).tail.extractLsb' 26 6 = op := by
  unfold OpM4.enc
  simp (disch := decide) only [d_mkHead, x_mkHead, extractLsb'_wide, extractLsb'_lo, extractLsb'_hi, extractLsb'_all]
@[simp] theorem OpM4.enc_tail_8_4 (o : OpM4) (maj : BitVec 7) (op : BitVec 6) : (o.enc maj op).tail.extractLsb' 8 4 = 0#4 := by
  unfold OpM4.enc
  simp (disch := decide) only [d_mkHead, x_mkHead, extractLsb'_wide, extractLsb'_lo, extractLsb'_hi, extractLsb'_all]
@[simp] theorem OpM4.enc_tail_0_2 (o : OpM4) (maj : BitVec 7) (op : BitVec 6) : (o.enc maj op).tail.extractLsb' 0 2 = 0#2 := by
  unfold OpM4.enc
  simp (disch := decide) only [d_mkHead, x_mkHead, extractLsb'_wide, extractLsb'_lo, extractLsb'_hi, extractLsb'_all]
@[simp] theorem OpM4.enc_tail_12_6 (o : OpM4) (maj : BitVec 7) (op : BitVec 6) : (o.enc maj op).tail.extractLsb' 12 6 = o.ix := by
  unfold OpM4.enc
  simp (disch := decide) only [d_mkHead, x_mkHead, extractLsb'_wide, extractLsb'_lo, extractLsb'_hi, extractLsb'_all]
@[simp] theorem OpM4.enc_tail_18_5 (o : OpM4) (maj : BitVec 7) (op : BitVec 6) : (o.enc maj op).tail.extractLsb' 18 5 = o.base := by
  unfold OpM4.enc
  simp (disch := decide) only [d_mkHead, x_mkHead, extractLsb'_wide, extractLsb'_lo, extractLsb'_hi, extractLsb'_all]
@[simp] theorem OpI8.enc_head (o : OpI8) (maj : BitVec 7) : (o.enc maj).head = mkHead 3 maj (mkFD false o.d) := rfl
@[simp] theorem OpI8.ofBits_enc (o : OpI8) (maj : BitVec 7) (h : BitVec 16) (hd : headD h = o.d) : OpI8.ofBits h (o.enc maj).tail = o := by
  unfold OpI8.ofBits OpI8.enc
  simp (disch := decide) only [d_mkHead, x_mkHead, extractLsb'_wide, extractLsb'_lo, extractLsb'_hi, extractLsb'_all]
  rw [hd]
@[simp] theorem OpI8.enc_tail_8_8 (o : OpI8) (maj : BitVec 7) : (o.enc maj).tail.extractLsb' 8 8 = 0#8 := by
  unfold OpI8.enc
  simp (disch := decide) only [d_mkHead, x_mkHead, extractLsb'_wide, extractLsb'_lo, extractLsb'_hi, extractLsb'_all]
@[simp] theorem OpI8.enc_tail_0_2 (o : OpI8) (maj : BitVec 7) : (o.enc maj).tail.extractLsb' 0 2 = 0#2 := by
  unfold OpI8.enc
  simp (disch := decide) only [d_mkHead, x_mkHead, extractLsb'_wide, extractLsb'_lo, extractLsb'_hi, extractLsb'_all]
@[simp] theorem OpM8.enc_head (o : OpM8) (x : Bool) : (o.enc x).head = mkHead 3 0x50 (mkFD x o.d) := rfl
@[simp] theorem OpM8.ofBits_enc (o : OpM8) (x : Bool) (h : BitVec 16) (hd : headD h = o.d) : OpM8.ofBits h (o.enc x).tail = o := by
  unfold OpM8.ofBits OpM8.enc
  simp (disch := decide) only [d_mkHead, x_mkHead, extractLsb'_wide, extractLsb'_lo, extractLsb'_hi, extractLsb'_all]
  rw [hd]
@[simp] theorem OpM8.enc_tail_0_24 (o : OpM8) (x : Bool) : (o.enc x).tail.extractLsb' 0 24 = 0#24 := by
  unfold OpM8.enc
  simp (disch := decide) only [d_mkHead, x_mkHead, extractLsb'_wide, extractLsb'_lo, extractLsb'_hi, extractLsb'_all]
@[simp] theorem OpG8.enc_head (o : OpG8) (maj : BitVec 7) (op : BitVec 6) : (o.enc maj op).head = mkHead 3 maj (mkFD false o.d) := rfl
@[simp] theorem OpG8.ofBits_enc (o : OpG8) (maj : BitVec 7) (op : BitVec 6) (h : BitVec 16) (hd : headD h = o.d) : OpG8.ofBits h (o.enc maj op).tail = o := by
  unfold OpG8.ofBits OpG8.enc
  simp (disch := decide) only [d_mkHead, x_mkHead, extractLsb'_wide, extractLsb'_lo, extractLsb'_hi, extractLsb'_all]
  rw [hd]
@[simp] theorem OpG8.enc_tail_58_6 (o : OpG8) (maj : BitVec 7) (op : BitVec 6) : (o.enc maj op).tail.extractLsb' 58 6 = op := by
  unfold OpG8.enc
  simp (disch := decide) only [d_mkHead, x_mkHead, extractLsb'_wide, extractLsb'_lo, extractLsb'_hi, extractLsb'_all]
@[simp] theorem OpG8.enc_tail_32_2 (o : OpG8) (maj : BitVec 7) (op : BitVec 6) : (o.enc maj op).tail.extractLsb' 32 2 = 0#2 := by
  unfold OpG8.enc
  simp (disch := decide) only [d_mkHead, x_mkHead, extractLsb'_wide, extractLsb'_lo, extractLsb'_hi, extractLsb'_all]
@[simp] theorem OpV4.enc_head (o : OpV4) (maj : BitVec 7) (op : BitVec 6) : (o.enc maj op).head = mkHead 2 maj (mkFD o.x o.d) := rfl
@[simp] theorem OpV4.ofBits_enc (o : OpV4) (maj : BitVec 7) (op : BitVec 6) (q : BitVec 2) (h : BitVec 16) (hd : headD h = o.d) (hx : headX h = o.x) :
    OpV4.ofBits h (o.enc maj op).tail q = { o with opx := q } := by
  unfold OpV4.ofBits OpV4.enc
  simp (disch := decide) only [d_mkHead, x_mkHead, extractLsb'_wide, extractLsb'_lo, extractLsb'_hi, extractLsb'_all]
  rw [hd, hx]
@[simp] theorem OpV4.enc_tail_26_6 (o : OpV4) (maj : BitVec 7) (op : BitVec 6) : (o.enc maj op).tail.extractLsb' 26 6 = op := by
  unfold OpV4.enc
  simp (disch := decide) only [d_mkHead, x_mkHead, extractLsb'_wide, extractLsb'_lo, extractLsb'_hi, extractLsb'_all]
@[simp] theorem OpV4.enc_tail_26_4 (o : OpV4) (maj : BitVec 7) (op : BitVec 6) : (o.enc maj op).tail.extractLsb' 26 4 = op.extractLsb' 0 4 := by
  unfold OpV4.enc
  simp (disch := decide) only [d_mkHead, x_mkHead, extractLsb'_wide, extractLsb'_lo, extractLsb'_hi, extractLsb'_all]
@[simp] theorem OpV4.enc_tail_30_2 (o : OpV4) (maj : BitVec 7) (op : BitVec 6) : (o.enc maj op).tail.extractLsb' 30 2 = op.extractLsb' 4 2 := by
  unfold OpV4.enc
  simp (disch := decide) only [d_mkHead, x_mkHead, extractLsb'_wide, extractLsb'_lo, extractLsb'_hi, extractLsb'_all]
@[simp] theorem OpV4.enc_tail_30_1 (o : OpV4) (maj : BitVec 7) (op : BitVec 6) : (o.enc maj op).tail.extractLsb' 30 1 = op.extractLsb' 4 1 := by
  unfold OpV4.enc
  simp (disch := decide) only [d_mkHead, x_mkHead, extractLsb'_wide, extractLsb'_lo, extractLsb'_hi, extractLsb'_all]
@[simp] theorem OpV4.enc_tail_31_1 (o : OpV4) (maj : BitVec 7) (op : BitVec 6) : (o.enc maj op).tail.extractLsb' 31 1 = op.extractLsb' 5 1 := by
  unfold OpV4.enc
  simp (disch := decide) only [d_mkHead, x_mkHead, extractLsb'_wide, extractLsb'_lo, extractLsb'_hi, extractLsb'_all]
@[simp] theorem OpMT.enc_head (o : OpMT) (x : Bool) : (o.enc x).head = mkHead 2 0x52 (mkFD x o.d) := rfl
@[simp] theorem OpMT.ofBits_enc (o : OpMT) (x : Bool) (h : BitVec 16) (hd : headD h = o.d) : OpMT.ofBits h (o.enc x).tail = o := by
  unfold OpMT.ofBits OpMT.enc
  simp (disch := decide) only [d_mkHead, x_mkHead, extractLsb'_wide, extractLsb'_lo, extractLsb'_hi, extractLsb'_all]
  rw [hd]
  cases h : o.f64 <;> simp [h] <;> rw [← h]
@[simp] theorem OpMT.enc_tail_27_5 (o : OpMT) (x : Bool) : (o.enc x).tail.extractLsb' 27 5 = 0#5 := by
  unfold OpMT.enc
  simp (disch := decide) only [d_mkHead, x_mkHead, extractLsb'_wide, extractLsb'_lo, extractLsb'_hi, extractLsb'_all]
@[simp] theorem OpMT.enc_tail_0_18 (o : OpMT) (x : Bool) : (o.enc x).tail.extractLsb' 0 18 = 0#18 := by
  unfold OpMT.enc
  simp (disch := decide) only [d_mkHead, x_mkHead, extractLsb'_wide, extractLsb'_lo, extractLsb'_hi, extractLsb'_all]
@[simp] theorem OpVA.enc_head (o : OpVA) (op : BitVec 4) : (o.enc op).head = mkHead 3 0x2F (mkFD false o.d) := rfl
@[simp] theorem OpVA.ofBits_enc (o : OpVA) (op : BitVec 4) (h : BitVec 16) (hd : headD h = o.d) : OpVA.ofBits h (o.enc op).tail = o := by
  unfold OpVA.ofBits OpVA.enc
  simp (disch := decide) only [d_mkHead, x_mkHead, extractLsb'_wide, extractLsb'_lo, extractLsb'_hi, extractLsb'_all]
  rw [hd]
  cases h : o.ret <;> simp [h] <;> rw [← h]
@[simp] theorem OpVA.enc_tail_11_4 (o : OpVA) (op : BitVec 4) : (o.enc op).tail.extractLsb' 11 4 = op := by
  unfold OpVA.enc
  simp (disch := decide) only [d_mkHead, x_mkHead, extractLsb'_wide, extractLsb'_lo, extractLsb'_hi, extractLsb'_all]
@[simp] theorem OpVA.enc_tail_58_6 (o : OpVA) (op : BitVec 4) : (o.enc op).tail.extractLsb' 58 6 = 0#6 := by
  unfold OpVA.enc
  simp (disch := decide) only [d_mkHead, x_mkHead, extractLsb'_wide, extractLsb'_lo, extractLsb'_hi, extractLsb'_all]
@[simp] theorem OpVA.enc_tail_32_2 (o : OpVA) (op : BitVec 4) : (o.enc op).tail.extractLsb' 32 2 = 0#2 := by
  unfold OpVA.enc
  simp (disch := decide) only [d_mkHead, x_mkHead, extractLsb'_wide, extractLsb'_lo, extractLsb'_hi, extractLsb'_all]
@[simp] theorem OpVA.enc_tail_15_17 (o : OpVA) (op : BitVec 4) : (o.enc op).tail.extractLsb' 15 17 = 0#17 := by
  unfold OpVA.enc
  simp (disch := decide) only [d_mkHead, x_mkHead, extractLsb'_wide, extractLsb'_lo, extractLsb'_hi, extractLsb'_all]
@[simp] theorem OpB4.enc_head (o : OpB4) (c : BitVec 3) : (o.enc c).head = mkHead 2 0x0B (c ++ 0#4) := rfl
@[simp] theorem OpB4.ofBits_enc (o : OpB4) (c : BitVec 3) : OpB4.ofBits (o.enc c).tail = o := by
  unfold OpB4.ofBits OpB4.enc
  simp (disch := decide) only [d_mkHead, x_mkHead, extractLsb'_wide, extractLsb'_lo, extractLsb'_hi, extractLsb'_all]

/-- Bits of F7 read from the head (R68). -/
@[simp] theorem mkHead_f7 (tc : BitVec 2) (maj f7 : BitVec 7) (lo w : Nat) (h : lo + w ≤ 7) :
    (mkHead tc maj f7).extractLsb' lo w = f7.extractLsb' lo w := by
  unfold mkHead; rw [extractLsb'_lo _ _ _ _ h]
/-- Bits of IMM32 read from a T8G tail (R78). -/
@[simp] theorem OpG8.enc_imm (o : OpG8) (maj : BitVec 7) (op : BitVec 6) (lo w : Nat) (h : lo + w ≤ 32) :
    (o.enc maj op).tail.extractLsb' lo w = o.imm.extractLsb' lo w := by
  unfold OpG8.enc; exact extractLsb'_lo _ _ _ _ h
/-- OP[5:4] as a modifier above an operation of four bits (R81). -/
@[simp] theorem opx_lo (x : BitVec 2) (k : BitVec 4) : (x ++ k).extractLsb' 0 4 = k := by
  rw [extractLsb'_lo _ _ _ _ (by decide), extractLsb'_self]
@[simp] theorem opx_hi (x : BitVec 2) (k : BitVec 4) : (x ++ k).extractLsb' 4 2 = x := by
  rw [extractLsb'_hi _ _ _ _ (by decide)]; exact extractLsb'_self x
@[simp] theorem cond_lo (c : BitVec 3) : (c ++ 0#4).extractLsb' 0 4 = 0#4 := by
  rw [extractLsb'_lo _ _ _ _ (by decide), extractLsb'_self]
@[simp] theorem cond_hi (c : BitVec 3) : (c ++ 0#4).extractLsb' 4 3 = c := by
  rw [extractLsb'_hi _ _ _ _ (by decide)]; exact extractLsb'_self c
@[simp] theorem extractLsb'_val (v : BitVec 16) : (v.setWidth 64).extractLsb' 0 16 = v := by
  rw [extractLsb'_wide _ _ _ (by decide) (by decide), extractLsb'_self]

end Sys2Proof
end

