-- ==== Sys2Proof/Laws/Vec.lean ====
section
/-! SUPPORT. What an element-wise form of the vector unit does in a quiet core (R49, R66, R134): one law for the integer and the
floating forms, and one for the compares. -/

namespace Sys2Proof.Machine

/-- The element-wise result that a form gives: every active element of vD below the length; the others are as before. -/
def laneImage (o : OpV4) (g : Nat → Nat → Nat × Nat) (s : State) (w n : Nat) : VReg :=
  maskedWrite (s.vreg o.d.toNat) w (s.mreg o.msk.toNat) n (fun e => (g (laneA s o w n e) (laneB s o w n e)).1)
/-- The flags of its active elements. -/
def laneFlags (o : OpV4) (g : Nat → Nat → Nat × Nat) (s : State) (w n : Nat) : Nat :=
  orFlags (s.mreg o.msk.toNat) (fun e => (g (laneA s o w n e) (laneB s o w n e)).2) n
/-- The length of a form at the current SEW. -/
def formLen (o : OpV4) (s : State) (n : Nat) : Nat := boundLen (vtSew s.slot.vtype) o.len n

theorem orFlags_zero (m : MReg) (f : Nat → Nat) (h : ∀ i, f i = 0) (n : Nat) : orFlags m f n = 0 := by
  induction n with
  | zero => rfl
  | succ n ih => simp [orFlags, ih, h]
/-- An element below VLMAX lies inside the register (R47). -/
theorem elem_fits {w e : Nat} (h : e < vlmax w) : w * e + w ≤ 4096 := by
  have h2 := Nat.mul_le_mul_left w (show e + 1 ≤ 4096 / w from h)
  have h3 := Nat.mul_div_le 4096 w
  rw [Nat.mul_add, Nat.mul_one] at h2
  omega

/-- The operand elements that a command reads are those of the state at its commit. -/
theorem v4Lanes_eq (o : OpV4) (i : Instr) (s : State) (n w N : Nat) (t : List Res) (K : Core) (hK : K.f.v = s.core.f.v) :
    v4Lanes o ((v4Ticket o i s t).cmd s o.len n) (s.setCore K) w N = (laneA s o w N, laneB s o w N) := by
  have hv : ∀ k, (s.setCore K).vreg k = s.vreg k := by intro k; rw [State.vreg, State.core_setCore, hK, State.vreg]
  have hg : o.x = true → ((v4Ticket o i s t).cmd s o.len n).gb = s.g o.b := by
    intro h; rw [(Ticket.cmd_g _ _ _ _).2.1]; simp [v4Ticket, h]
  unfold v4Lanes laneA laneB
  simp only [hv]
  congr 1
  · by_cases h : o.xl = 2#2 <;> simp [h]
  · by_cases h : o.x = true
    · simp only [h, if_true, hg h]
    · by_cases h2 : o.xl = 1#2 <;> simp [h, h2]

/-- The queue entry of a form after its step. -/
def laneDone (o : OpV4) (i : Instr) (wr : List Res) (s : State) (n fl : Nat) : Cmd :=
  { (v4Ticket o i s wr).cmd s o.len n with
    tr := (formLen o s n, active (s.mreg o.msk.toNat) (formLen o s n), 0, 0), flags := fl }
/-- The step of an element-wise form. -/
def laneStep (o : OpV4) (f : Cmd → Nat → Nat → Nat → Nat × Nat) : Run1 := fun c s =>
  let w := vtSew c.vtype
  let n := c.len o.len (vlmax w)
  let m := s.mreg o.msk.toNat
  let s := s.note c n (active m n)
  let ab := v4Lanes o c s w n
  .ok (s.putLanes c o.d.toNat w m n (fun i => f c w (ab.1 i) (ab.2 i)))
theorem laneEff_eq (o : OpV4) (f : Cmd → Nat → Nat → Nat → Nat × Nat) : laneEff o f = whole (laneStep o f) := rfl
/-- One step of an element-wise form. -/
theorem lane_step (i : Instr) (o : OpV4) (f : Cmd → Nat → Nat → Nat → Nat × Nat) (g : Nat → Nat → Nat × Nat) (wr : List Res)
    (s : State) (n : Nat) (hn : LenIs s o.len n)
    (hg : ∀ a b, f ((v4Ticket o i s wr).cmd s o.len n) (vtSew s.slot.vtype) a b = g a b) :
    laneStep o f ((v4Ticket o i s wr).cmd s o.len n) (s.setCore ((v4Ticket o i s wr).core s o.len n))
      = .ok (s.setCore { (v4Ticket o i s wr).core s o.len n with
          f := { popF s.core.f o.len with
                 v := s.core.f.v.setIfInBounds o.d.toNat (laneImage o g s (vtSew s.slot.vtype) (formLen o s n)) },
          queue := [laneDone o i wr s n (laneFlags o g s (vtSew s.slot.vtype) (formLen o s n))] }) := by
  generalize hT : v4Ticket o i s wr = T at hg
  simp only [laneStep, Ticket.cmd_vtype, len_popped _ _ _ _ _ hn, Ticket.core_mreg]
  rw [note_setCore _ _ _ (T.cmd s o.len n) _ _ (T.core_queue s o.len n) rfl, putLanes_setCore _ _ _ _ _ _ _ _ _ rfl (by rfl)]
  rw [← hT, v4Lanes_eq o i s n _ _ _ _ (by simp only [Ticket.core_f]; exact (popF_v _ _).1), hT]
  congr 3
  · simp only [Ticket.core_f, (popF_v s.core.f o.len).1, laneImage, hg]; rfl
  · have h0 : (T.cmd s o.len n).flags = 0 := rfl
    simp only [hg, h0, Nat.zero_or]; subst hT; rfl

/-- AN ELEMENT-WISE FORM IN A QUIET CORE: it completes; its active elements below the length take the results, every other
element and register is as before, and STATUS takes the flags of the active elements. -/
theorem lane_runs {i : Instr} {o : OpV4} {f : Cmd → Nat → Nat → Nat → Nat × Nat} {g : Nat → Nat → Nat × Nat} {s : State} {n : Nat}
    (hq : s.Quiet) (hk : fixedRanges i = true) (hc : ∀ (u : State) (c : Cmd), c.ins = i → u.copyReady c = true)
    (hn : LenIs s o.len n)
    (hg : ∀ a b, f ((v4Ticket o i s [.v o.d.toNat]).cmd s o.len n) (vtSew s.slot.vtype) a b = g a b) :
    ∃ t, engine (v4Ticket o i s [.v o.d.toNat]) (laneEff o f) s = .next t ∧
      EngineFrame .vec i [o.d.toNat] [] [] [] [] o.len s t ∧ Advanced s t ∧
      t.slot.status = statusWith s.slot.status (laneFlags o g s (vtSew s.slot.vtype) (formLen o s n)) 0 ∧
      t.vreg o.d.toNat = laneImage o g s (vtSew s.slot.vtype) (formLen o s n) := by
  have hrun := engine_whole (t := v4Ticket o i s [.v o.d.toNat]) (f := laneStep o f) hq (.inl rfl) rfl hn hk hc (by simp [v4Ticket]) (lane_step i o f g [.v o.d.toNat] s n hn hg) rfl (by rfl)
  refine ⟨_, hrun, ?_⟩
  refine ⟨engineFrame_of (t := v4Ticket o i s [.v o.d.toNat]) (n := n) hq.free rfl rfl rfl rfl ?_ ?_ ?_ ?_ ?_ ?_ ?_, ?_⟩
  · intro k hk
    simp only [List.mem_singleton] at hk
    exact Vector.getElem?_setIfInBounds_ne (Ne.symm hk)
  · intro k _ _; show (popF s.core.f o.len).m[k]? = _; rw [(popF_v _ _).2.1]
  · intro k _; show (popF s.core.f o.len).a[k]? = _; rw [(popF_v _ _).2.2.1]
  · intro k _; show (popF s.core.f o.len).k[k]? = _; rw [(popF_v _ _).2.2.2.1]
  · intro k _; show (popF s.core.f o.len).w[k]? = _; rw [(popF_v _ _).2.2.2.2.1]
  · intro k hk; exact popF_lq _ _ _ hk
  · exact (popF_v s.core.f o.len).2.2.2.2.2
  obtain ⟨h1, h2, h3⟩ := advanced_of (t := v4Ticket o i s [.v o.d.toNat]) (n := n) (len := o.len) hq.free rfl rfl
    (e := laneDone o i [.v o.d.toNat] s n (laneFlags o g s (vtSew s.slot.vtype) (formLen o s n)))
    (g := { popF s.core.f o.len with
                 v := s.core.f.v.setIfInBounds o.d.toNat (laneImage o g s (vtSew s.slot.vtype) (formLen o s n)) })
  refine ⟨h1, h2, ?_⟩
  rw [State.vreg, h3]
  have : o.d.toNat < 64 := o.d.isLt
  simp [this]
/-- The elements of such a result. -/
theorem elem_laneImage (o : OpV4) (g : Nat → Nat → Nat × Nat) (s : State) (w n e : Nat) (he : e < vlmax w) :
    elem (laneImage o g s w n) w e = if e < n ∧ flag (s.mreg o.msk.toNat) e = true
      then (g (laneA s o w n e) (laneB s o w n e)).1 % 2 ^ w else elem (s.vreg o.d.toNat) w e :=
  elem_maskedWrite _ _ _ _ _ _ (elem_fits he)

end Sys2Proof.Machine
end

