-- ==== Sys2Proof/Tests/Slice0.lean ====
section
/-! SUPPORT. The author's own tests. First: an ill-formed term for each check of WellFormed, and words written out from the
encodings of the spec with what they decode to. Then single results that the spec works out. Then, for each statement with
hypotheses, a theorem `meets_…` with concrete states and operands that meet them all together, one for each clause. -/

section
set_option Elab.async false
open Sys2Proof

namespace Sys2Proof.Machine

/-! ### Helpers -/

/-- Slot 0 of core 0 of cluster 0 runs and stands at address 128. -/
def running (f : Slot → Slot) (c : Core → Core) : State :=
  (State.reset.modCore c).modSlot (fun x => f { x with run := .running, pc := 128, npc := 130 })
/-- The listed g registers set. -/
def withG (l : List (Nat × Word)) (x : Slot) : Slot := { x with g := l.foldl (fun v p => v.setIfInBounds p.1 p.2) x.g }
/-- A running state with the listed g registers, VTYPE and VL. -/
def vecState (l : List (Nat × Word)) (vt : Word) (vl : Nat) (c : Core → Core) : State :=
  running (fun x => { withG l x with vtype := vt, vl := vl }) c

theorem free_of {s : State} (h : s.slot.stepping = false) : s.Free := h
theorem wf_of {i : Instr} (h : i.defect = none) : i.WellFormed := h
theorem quiet_of {s : State}
    (h : s.eager = true ∧ s.slot.run = .running ∧ s.slot.stepping = false ∧ s.core.queue = [] ∧ s.core.heldRanges = []) : s.Quiet :=
  ⟨h.1, h.2.1, h.2.2.1, h.2.2.2.1, h.2.2.2.2⟩
theorem len_vl {s : State} {len : BitVec 3} (h : len.toNat < 4) : LenIs s len s.slot.vl := by simp [LenIs, h]
theorem len_lq {s : State} {len : BitVec 3} {n : Nat} (h : 4 ≤ len.toNat ∧ (s.core.f.lq[len.toNat - 4]?.getD []).head? = some n ∧
    0 < s.core.f.occ[len.toNat - 4]?.getD 0) : LenIs s len n := by
  have : ¬ len.toNat < 4 := by omega
  simp only [LenIs, this, if_false]; exact h.2
/-- The result is the given one. -/
def isOk {ε α : Type} [DecidableEq α] (a : α) : Except ε α → Bool
  | .ok b => decide (b = a)
  | .error _ => false
theorem ok_of {ε α : Type} [DecidableEq α] {x : Except ε α} {a : α} (h : isOk a x = true) : x = .ok a := by
  cases x with
  | ok b => simp only [isOk, decide_eq_true_eq] at h; rw [h]
  | error e => simp [isOk] at h
/-- There is a result. -/
def someOk {ε α : Type} : Except ε α → Bool
  | .ok _ => true
  | .error _ => false
theorem ok_some {ε α : Type} {x : Except ε α} (h : someOk x = true) : ∃ a, x = .ok a := by
  cases x with
  | ok b => exact ⟨b, rfl⟩
  | error e => simp [someOk] at h
theorem some_of {α : Type} {x : Option α} {p : α → Prop} [DecidablePred p] (h : x.any (fun a => decide (p a)) = true) : ∃ a, x = some a ∧ p a := by
  cases x with
  | none => simp at h
  | some a => exact ⟨a, rfl, by simpa using h⟩
theorem error_of {ε α : Type} [DecidableEq ε] {x : Except ε α} {e : ε}
    (h : (match x with | .error b => decide (b = e) | .ok _ => false) = true) : x = .error e := by
  cases x with
  | error b => simp only [decide_eq_true_eq] at h; rw [h]
  | ok b => simp at h

end Sys2Proof.Machine
namespace Sys2Proof.Machine

/-! ### Terms with a reserved field, and words of the encoding -/

/-- Each limit of R77 to R79 and of the pages broken in one term: what WellFormed answers. -/
theorem test_ill_formed_1 :
    ([(.add ⟨32, 3, 2⟩, .badF7), (.add ⟨5, 32, 2⟩, .badTail), (.add ⟨5, 3, 32⟩, .badTail), (.addi ⟨32, 17, 0xFFFFE⟩, .badF7),
      (.addi ⟨31, 32, 0xFFFFE⟩, .badTail), (.slli ⟨31, 17, 64⟩, .badTail), (.slliW ⟨31, 17, 32⟩, .badTail), (.clz ⟨5, 3, 1⟩, .badTail),
      (.sel ⟨false, 0, 32, 3, 2, 31, 0, 0, 0⟩, .badF7), (.sel ⟨true, 0, 5, 3, 2, 31, 0, 0, 0⟩, .badF7), (.sel ⟨false, 1, 5, 3, 2, 31, 0, 0, 0⟩, .badTail),
      (.sel ⟨false, 0, 5, 32, 2, 31, 0, 0, 0⟩, .badTail), (.sel ⟨false, 0, 5, 3, 32, 31, 0, 0, 0⟩, .badTail),
      (.sel ⟨false, 0, 5, 3, 2, 32, 0, 0, 0⟩, .badTail), (.sel ⟨false, 0, 5, 3, 2, 31, 0, 0, 1⟩, .badTail),
      (.sel ⟨false, 0, 5, 3, 2, 31, 1, 0, 0⟩, .badTail), (.sel ⟨false, 0, 5, 3, 2, 31, 0, 1, 0⟩, .badTail), (.limmT4w ⟨32, 0x80000001⟩, .badF7),
      (.limmT8w ⟨32, 0x123456789ABCDEF0⟩, .badF7), (.jmp ⟨1, 0x7FFFFFD, 17⟩, .badF7), (.call ⟨32, 0x7FFFFFD, 17⟩, .badF7), (.getid ⟨32, 13⟩, .badF7),
      (.trap ⟨1, 0x7F⟩, .badF7), (.trap ⟨0, 256⟩, .badTail), (.vsetlLq ⟨5, 4, 0⟩, .badTail), (.vidx ⟨5, 0xFFFFFE, 3, 6, 3⟩, .badTail),
      (.vadd ⟨false, 0, 63, 62, 61, 0, 1, 3, 0⟩, .badTail), (.vfsqrt ⟨false, 0, 5, 3, 1, 0, 1, 4, 0⟩, .badTail),
      (.vcmpEq ⟨false, 0, 8, 3, 2, 0, 1, 4, 0⟩, .badF7), (.mand ⟨8, 3, 2⟩, .badF7), (.mand ⟨7, 8, 2⟩, .badTail), (.mand ⟨7, 3, 8⟩, .badTail),
      (.mpopcLq ⟨4, 3, 0⟩, .badF7), (.vcomp ⟨false, 0, 5, 3, 0, 1, 1, 4, 0⟩, .badTail), (.vslup ⟨false, 0, 5, 3, 2, 0, 1, 4, 0⟩, .badF7),
      (.vscan ⟨false, 2, 5, 3, 2, 9, 1, 4, 0⟩, .badTail), (.vsegsum ⟨false, 0, 5, 3, 1, 8, 1, 4, 0⟩, .badTail), (.vld ⟨5, 4, 9, 0, 6, 5⟩, .badTail),
      (.vld ⟨5, 2, 9, 1, 6, 5⟩, .badTail), (.vld ⟨5, 2, 9, 0, 6, 3⟩, .badTail), (.vlds ⟨5, 2, 9, 32, 6, 5⟩, .badTail), (.vldk ⟨16, 2, 9, 7, 6, 5⟩, .badF7),
      (.vldw ⟨8, 2, 9, 0, 6, 5⟩, .badF7), (.mldt ⟨4, true, 3, 9⟩, .badF7), (.mldt ⟨3, true, 4, 9⟩, .badTail),
      (.mrowv ⟨false, 0, 5, 4, 2, 0, 1, 4, 0⟩, .badTail), (.nmulW ⟨true, 0, 5, 3, 8, 0, 1, 4, 0⟩, .badTail), (.nbfy ⟨true, 0, 63, 3, 2, 9, 1, 4, 0⟩, .badF7),
      (.nmodset ⟨1, 3, 0⟩, .badF7), (.gquiet ⟨5, 1, 0⟩, .badTail)] : List (Instr × Reject)).all
      (fun p => decide (p.1.defect = some p.2)) = true := by decide +kernel
theorem test_ill_formed_2 :
    ([(.spushv ⟨false, 0, 16, 3, 0, 3, 1, 4, 0⟩, .badF7), (.spushv ⟨false, 0, 5, 3, 0, 4, 1, 4, 0⟩, .badTail),
      (.spopk ⟨false, 0, 5, 8, 7, 9, 0, 4, 0⟩, .badTail), (.stok ⟨16, 3, 15⟩, .badF7), (.spopg ⟨5, 16, 0⟩, .badTail), (.binit ⟨5, 3, 5⟩, .badTail),
      (.getid ⟨5, 8⟩, .badTail), (.getid ⟨5, 14⟩, .badTail), (.caps 32, .badF7), (.sysrd ⟨5, 11⟩, .badTail), (.syswr ⟨5, 19⟩, .badTail),
      (.vsett ⟨5, 0x04000000⟩, .badTail), (.vadd ⟨true, 0, 63, 62, 32, 0, 1, 4, 0⟩, .badTail), (.vadd ⟨false, 0, 63, 62, 61, 1, 1, 4, 0⟩, .badTail),
      (.vadd ⟨false, 0, 63, 62, 61, 0, 1, 4, 3⟩, .badTail), (.vadd ⟨true, 0, 63, 62, 1, 0, 1, 4, 1⟩, .badTail),
      (.vmin ⟨false, 1, 63, 62, 61, 0, 1, 4, 0⟩, .badTail), (.vredsum ⟨false, 0, 5, 3, 0, 9, 1, 4, 0⟩, .badTail),
      (.vargmax ⟨false, 0, 5, 3, 5, 0, 1, 4, 0⟩, .badTail), (.vsortkP ⟨false, 0, 5, 3, 2, 5, 1, 4, 0⟩, .badTail), (.mzero 4, .badF7),
      (.vcmul ⟨true, 0, 5, 3, 8, 0, 1, 4, 0⟩, .badTail), (.stok ⟨5, 3, 4⟩, .badTail), (.stok ⟨5, 3, 7⟩, .badTail), (.vldg ⟨5, 2, 9, 0, 0, 4⟩, .badTail),
      (.vldg ⟨5, 2, 9, 0, 1, 0⟩, .badTail), (.phase 5, .badF7), (.ld ⟨32, 2, 6, 9, 0xFFFF8⟩, .badF7), (.ld ⟨5, 4, 6, 9, 0xFFFF8⟩, .badTail),
      (.ld ⟨5, 2, 7, 9, 0xFFFF8⟩, .badTail), (.st ⟨5, 3, 4, 9, 8⟩, .badTail), (.amoAdd ⟨32, 3, 2, 9, 7, 0⟩, .badF7), (.amoAdd ⟨5, 4, 2, 9, 7, 0⟩, .badTail),
      (.amoAdd ⟨5, 3, 0, 9, 7, 0⟩, .badTail), (.amoFadd ⟨5, 3, 2, 9, 7, 0⟩, .badTail), (.amoBfadd ⟨5, 3, 1, 9, 7, 0⟩, .badTail),
      (.amoBfadd ⟨5, 0, 0, 9, 7, 0⟩, .badTail), (.amoSwap ⟨5, 3, 2, 9, 7, 1⟩, .badTail), (.amoCas ⟨5, 3, 3, 9, 7, 4⟩, .badTail),
      (.vamoAdd ⟨5, 61, 60, 0, 6, 1, 2, true, 9, 3⟩, .badTail), (.vamoAdd ⟨5, 61, 60, 0, 6, 5, 2, true, 9, 4⟩, .badTail),
      (.vamoMaxu ⟨5, 61, 60, 0, 6, 5, 0, true, 9, 3⟩, .badTail), (.vamoAdd ⟨5, 61, 60, 1, 6, 5, 2, true, 9, 3⟩, .badTail),
      (.vamoAdd ⟨5, 61, 60, 0, 6, 5, 2, false, 9, 3⟩, .badTail), (.opacc ⟨4, 8, 4, 2, 3, 4, 5, 6, 7, 4, 5⟩, .badF7),
      (.opacc ⟨3, 1, 4, 2, 3, 4, 5, 6, 7, 4, 5⟩, .badTail), (.opacc ⟨3, 11, 4, 2, 3, 4, 5, 6, 7, 4, 5⟩, .badTail),
      (.opacc ⟨3, 0, 0, 2, 3, 5, 5, 6, 7, 4, 5⟩, .badTail), (.opacc ⟨3, 8, 4, 2, 3, 4, 5, 6, 7, 1, 5⟩, .badTail),
      (.opsub ⟨3, 8, 4, 2, 3, 4, 5, 6, 7, 4, 2⟩, .badTail)] : List (Instr × Reject)).all
      (fun p => decide (p.1.defect = some p.2)) = true := by decide +kernel
theorem test_ill_formed_3 :
    ([(.vcvt ⟨5, 3, 0, 0, 1, 4, 0x3C2C⟩, .badTail), (.vcvt ⟨5, 3, 15, 6, 1, 4, 0x3C28⟩, .badTail), (.vcvt ⟨5, 3, 15, 18, 1, 4, 0x3C28⟩, .badTail),
      (.vcvt ⟨5, 3, 16, 2, 1, 4, 0x3C28⟩, .badTail), (.vcvt ⟨5, 3, 15, 2, 1, 4, 0x3C21⟩, .badTail), (.vcvt ⟨5, 3, 15, 2, 1, 1, 0x3C28⟩, .badTail),
      (.vcvt ⟨5, 3, 15, 2, 1, 4, 0x7C28⟩, .badTail), (.vcvt ⟨5, 3, 15, 2, 1, 4, 0x3D28⟩, .badTail), (.mchain ⟨1, 0, 0, 0, 0, 0, 0xF98⟩, .badF7),
      (.mchain ⟨0, 1, 0, 0, 0, 0, 0xF98⟩, .badTail), (.mchain ⟨0, 0, 0, 0, 0, 0, 0x908⟩, .badTail), (.mchain ⟨0, 0, 0, 0, 0, 0, 0x988⟩, .badTail),
      (.mdrain ⟨1, 3, 9, 0, 0, 0, 0x135⟩, .badF7), (.mdrain ⟨0, 4, 9, 0, 0, 0, 0x135⟩, .badTail), (.mdrain ⟨0, 3, 9, 0, 0, 0, 0x535⟩, .badTail),
      (.mdrain ⟨0, 3, 9, 0, 0, 0, 0x136⟩, .badTail), (.mdrain ⟨0, 3, 9, 0, 0, 0, 0x145⟩, .badTail), (.mdrain ⟨0, 3, 9, 1, 0, 0, 0x135⟩, .badTail),
      (.mdrain ⟨0, 3, 9, 0, 0, 0, 0x335⟩, .badTail), (.mdrain ⟨0, 3, 9, 0, 0, 0, 0x1B5⟩, .badTail), (.mdrainStream ⟨0, 3, 0, 15, 0, 0, 0x301⟩, .badTail),
      (.mdrainStream ⟨0, 3, 1, 15, 0, 0, 0x381⟩, .badTail), (.mdrainStream ⟨0, 3, 0, 16, 0, 0, 0x381⟩, .badTail),
      (.mdrainStream ⟨0, 3, 0, 15, 0, 0, 0x391⟩, .badTail), (.msetc ⟨1, 7, 9, 1, 0, 0, 0x0⟩, .badF7), (.msetc ⟨0, 8, 9, 1, 0, 0, 0x0⟩, .badTail),
      (.msetc ⟨0, 7, 9, 2, 0, 0, 0x0⟩, .badTail), (.msetc ⟨0, 7, 9, 0, 0, 0, 0x0⟩, .badTail), (.msetc ⟨0, 7, 9, 1, 0, 0, 1⟩, .badTail),
      (.msetc ⟨0, 7, 32, 1, 0, 0, 0x0⟩, .badTail), (.mtile ⟨4, 9, 8, 7, 0, 0, 0x842317FF⟩, .badF7), (.mtile ⟨3, 9, 8, 32, 0, 0, 0x842317FF⟩, .badTail),
      (.mtile ⟨3, 9, 8, 7, 0, 0, 0xA4000000⟩, .badTail), (.mtile ⟨3, 9, 8, 7, 0, 0, 0x12000000⟩, .badTail),
      (.mtile ⟨3, 9, 8, 7, 0, 0, 0x44004000⟩, .badTail), (.mtile ⟨3, 9, 8, 7, 0, 0, 0x44003000⟩, .badTail),
      (.mtile ⟨3, 9, 8, 7, 0, 0, 0x00001800⟩, .badTail), (.bfy ⟨1, 5, 6, 7, 1, 4, 0x4FFFDB⟩, .badF7), (.bfy ⟨0, 5, 5, 7, 1, 4, 0x4FFFDB⟩, .badTail),
      (.bfy ⟨0, 5, 6, 8, 1, 4, 0x4FFFDB⟩, .badTail), (.bfy ⟨0, 5, 6, 7, 1, 4, 0x4⟩, .badTail), (.bfy ⟨0, 5, 6, 7, 1, 4, 0x80001⟩, .badTail),
      (.bfy ⟨0, 5, 6, 7, 1, 4, 0x80000B⟩, .badTail), (.bfy ⟨0, 5, 6, 7, 1, 3, 0x4FFFDB⟩, .badTail), (.bpass ⟨1, 9, 8, 7, 0, 0, 0x17EF12⟩, .badF7),
      (.bpass ⟨0, 9, 8, 8, 0, 0, 0x17EF12⟩, .badTail), (.bpass ⟨0, 9, 8, 7, 0, 0, 0x200042⟩, .badTail), (.bpass ⟨0, 9, 8, 7, 0, 0, 0x002⟩, .badTail),
      (.bpass ⟨0, 9, 8, 7, 0, 0, 0x342⟩, .badTail), (.bpass ⟨0, 9, 8, 7, 0, 0, 0x442⟩, .badTail)] : List (Instr × Reject)).all
      (fun p => decide (p.1.defect = some p.2)) = true := by decide +kernel
theorem test_ill_formed_4 :
    ([(.bpass ⟨0, 9, 8, 7, 0, 0, 0x044⟩, .badTail), (.bpass ⟨0, 9, 8, 7, 0, 0, 0x061⟩, .badTail), (.bpass ⟨0, 9, 8, 7, 0, 0, 0x05C⟩, .badTail),
      (.bpass ⟨0, 9, 8, 7, 0, 0, 0x072⟩, .badTail), (.bpass ⟨0, 9, 8, 7, 0, 0, 0x80042⟩, .badTail), (.bpass ⟨0, 9, 8, 7, 0, 0, 0x100042⟩, .badTail),
      (.bpass ⟨0, 9, 8, 7, 0, 0, 0x8042⟩, .badTail), (.bpass ⟨0, 9, 8, 7, 0, 0, 0x404B⟩, .badTail), (.bperm ⟨1, 9, 8, 7, 0, 0, 0x191⟩, .badF7),
      (.bperm ⟨0, 32, 8, 7, 0, 0, 0x191⟩, .badTail), (.bperm ⟨0, 9, 8, 7, 0, 0, 0x222⟩, .badTail), (.bperm ⟨0, 9, 8, 7, 0, 0, 0x422⟩, .badTail),
      (.bperm ⟨0, 9, 8, 7, 0, 0, 0x024⟩, .badTail), (.bperm ⟨0, 9, 8, 7, 0, 0, 0x002⟩, .badTail), (.bperm ⟨0, 9, 8, 7, 0, 0, 0x1A2⟩, .badTail),
      (.bperm ⟨0, 9, 8, 7, 0, 0, 0x021⟩, .badTail), (.bperm ⟨0, 9, 8, 7, 0, 0, 0x03C⟩, .badTail), (.bperm ⟨0, 9, 8, 7, 0, 0, 0x08B⟩, .badTail),
      (.bperm ⟨0, 9, 8, 7, 0, 0, 0x07B⟩, .badTail), (.bpermRev ⟨0, 9, 8, 1, 0, 0, 0x382⟩, .badTail), (.twgenCplx ⟨1, 7, 9, 8, 0, 0, 0x7F00⟩, .badF7),
      (.twgenCplx ⟨0, 8, 9, 8, 0, 0, 0x7F00⟩, .badTail), (.twgenCplx ⟨0, 7, 9, 8, 0, 0, 0x1⟩, .badTail), (.twgenMod ⟨0, 7, 9, 8, 0, 0, 0x3⟩, .badTail),
      (.twgenMod ⟨0, 7, 9, 8, 0, 0, 0x8001⟩, .badTail), (.bfpnorm ⟨1, 9, 0, 0, 0, 0, 0x19B⟩, .badF7), (.bfpnorm ⟨0, 9, 1, 0, 0, 0, 0x19B⟩, .badTail),
      (.bfpnorm ⟨0, 9, 0, 0, 0, 0, 0x082⟩, .badTail), (.bfpnorm ⟨0, 9, 0, 0, 0, 0, 0x28B⟩, .badTail), (.bfpnorm ⟨0, 9, 0, 0, 0, 0, 0x00B⟩, .badTail),
      (.bfpnorm ⟨0, 9, 0, 0, 0, 0, 0x1AB⟩, .badTail), (.txf ⟨1, 9, 8, 7, 0, 0, 0x173⟩, .badF7), (.txf ⟨0, 9, 8, 8, 0, 0, 0x173⟩, .badTail),
      (.txf ⟨0, 9, 8, 7, 0, 0, 0x024⟩, .badTail), (.txf ⟨0, 9, 8, 7, 0, 0, 0x182⟩, .badTail), (.txf ⟨0, 9, 8, 7, 0, 0, 0x03C⟩, .badTail),
      (.txf ⟨0, 9, 8, 7, 0, 0, 0x06B⟩, .badTail), (.txf ⟨0, 9, 8, 7, 0, 0, 0x222⟩, .badTail), (.gcfg ⟨1, 9, 0, 0, 0, 0, 0xB3⟩, .badF7),
      (.gcfg ⟨0, 32, 0, 0, 0, 0, 0xB3⟩, .badTail), (.gcfg ⟨0, 9, 0, 0, 0, 0, 0xB4⟩, .badTail), (.gcfg ⟨0, 9, 0, 0, 0, 0, 0x03⟩, .badTail),
      (.gcfg ⟨0, 9, 0, 0, 0, 0, 0xBB⟩, .badTail), (.gcfg ⟨0, 9, 0, 0, 0, 0, 0x1B3⟩, .badTail), (.gstart ⟨0, 1, 0, 0, 0, 0, 0x0⟩, .badTail),
      (.gwait ⟨0, 0, 0, 0, 0, 0, 1⟩, .badTail), (.gnode ⟨0, 9, 0, 0, 0, 0, 0xB⟩, .badTail), (.greset ⟨0, 0, 1, 0, 0, 0, 0x0⟩, .badTail),
      (.sunb ⟨16, 0, 0, 0, 0, 0, 0x0⟩, .badF7), (.sunb ⟨15, 0, 0, 0, 0, 0, 1⟩, .badTail)] : List (Instr × Reject)).all
      (fun p => decide (p.1.defect = some p.2)) = true := by decide +kernel
theorem test_ill_formed_5 :
    ([(.sbindVec ⟨15, 0, 0, 1, 0, 0, 0x2⟩, .badTail), (.sbindVec ⟨15, 0, 0, 0, 0, 0, 0x100002⟩, .badTail), (.sbindVec ⟨15, 0, 0, 0, 0, 0, 0x12⟩, .badTail),
      (.sbindVec ⟨15, 0, 0, 0, 0, 0, 0xA⟩, .badTail), (.sbindPat ⟨15, 0, 0, 0, 0, 0, 0x102⟩, .badTail), (.sbindNin ⟨15, 0, 0, 0, 0, 0, 0xA2⟩, .badTail),
      (.sbindNin ⟨15, 0, 0, 0, 0, 0, 0x852⟩, .badTail), (.sbindNin ⟨15, 0, 0, 0, 0, 0, 0x5A⟩, .badTail), (.sbindNout ⟨15, 0, 0, 0, 0, 0, 0x52⟩, .badTail),
      (.sbindNout ⟨15, 0, 0, 0, 0, 0, 0x658⟩, .badTail), (.sbindNbr ⟨15, 0, 0, 0, 0, 0, 0x42⟩, .badTail), (.sbindRtr ⟨15, 0, 0, 0, 0, 0, 0x20002⟩, .badTail),
      (.sbindBfy ⟨15, 0, 0, 0, 0, 0, 0x2⟩, .badTail), (.sbindArr ⟨15, 0, 0, 0, 0, 0, 0x2⟩, .badTail), (.spat ⟨16, 9, 8, 7, 0, 0, 0x1B3⟩, .badF7),
      (.spat ⟨15, 9, 8, 32, 0, 0, 0x1B3⟩, .badTail), (.spat ⟨15, 9, 8, 7, 0, 0, 0x4⟩, .badTail), (.spat ⟨15, 9, 8, 7, 0, 0, 0x18⟩, .badTail),
      (.spat ⟨15, 9, 8, 7, 0, 0, 0xC0⟩, .badTail), (.spat ⟨15, 9, 8, 7, 0, 0, 0x200⟩, .badTail), (.rstage ⟨1, 9, 8, 15, 0, 0, 0x3FCD⟩, .badF7),
      (.rstage ⟨0, 9, 8, 16, 0, 0, 0x3FCD⟩, .badTail), (.rstage ⟨0, 9, 8, 15, 0, 0, 0x11⟩, .badTail), (.rstage ⟨0, 9, 8, 15, 0, 0, 0x4001⟩, .badTail),
      (.cpy ⟨32, 9, 8, 7, 0, 4, 0x11⟩, .badF7), (.cpy ⟨31, 9, 8, 32, 0, 4, 0x11⟩, .badTail), (.cpy ⟨31, 9, 8, 7, 1, 4, 0x11⟩, .badTail),
      (.cpy ⟨31, 9, 8, 7, 0, 1, 0x11⟩, .badTail), (.cpy ⟨31, 9, 8, 7, 0, 4, 0x20000⟩, .badTail), (.cpy ⟨31, 9, 8, 7, 0, 4, 0x1000000⟩, .badTail),
      (.cpy ⟨31, 9, 8, 7, 0, 4, 0x100⟩, .badTail), (.cpy ⟨31, 9, 8, 7, 0, 4, 0x4000⟩, .badTail), (.cpyz ⟨31, 9, 8, 7, 0, 0, 0x10000⟩, .badTail),
      (.cpyz ⟨31, 9, 8, 7, 0, 4, 0xC008⟩, .badTail), (.cpyg ⟨31, 9, 8, 7, 0, 7, 0xC0⟩, .badTail), (.cpyg ⟨31, 9, 8, 7, 0, 7, 0x4⟩, .badTail),
      (.cpyg ⟨31, 9, 8, 7, 0, 7, 0x20⟩, .badTail), (.cpyt ⟨31, 9, 0, 7, 0, 4, 0x41⟩, .badTail), (.cpyt ⟨31, 9, 0, 7, 0, 4, 0x88⟩, .badTail),
      (.brule ⟨32, 9, 0, 0, 0, 0, 0x3FFE⟩, .badF7), (.brule ⟨31, 9, 1, 0, 0, 0, 0x3FFE⟩, .badTail), (.brule ⟨31, 9, 0, 0, 0, 0, 0x4000⟩, .badTail),
      (.brule ⟨31, 9, 0, 0, 0, 0, 0x8000⟩, .badTail), (.bwalk ⟨32, 61, 9, 8, 6, 5, 0x3000F⟩, .badF7), (.bwalk ⟨31, 61, 9, 32, 6, 5, 0x3000F⟩, .badTail),
      (.bwalk ⟨31, 61, 9, 8, 6, 2, 0x3000F⟩, .badTail), (.bwalk ⟨31, 61, 9, 8, 6, 5, 0x2000F⟩, .badTail), (.bwalk ⟨31, 61, 9, 8, 6, 5, 0x1001F⟩, .badTail),
      (.bwalk ⟨31, 61, 9, 8, 6, 5, 0x4001F⟩, .badTail)] : List (Instr × Reject)).all
      (fun p => decide (p.1.defect = some p.2)) = true := by decide +kernel

/-- The encodings that the spec works out (R70, R93, R103, R116, R155, R168, and the programs of chapters 8 to 17). -/
theorem test_words_of_the_examples :
    ([(0x8305, 0x40, .limmT4w ⟨5, 0x40⟩), (0x4086, 0x0085, .add ⟨6, 5, 2⟩), (0x0987, 0, .caps 7), (0x8580, 0x30000021, .bEq ⟨6, 0, 1, 1⟩),
      (0x8800, 0x4, .vfetch ⟨0, 0, 4⟩), (0x8580, 0x10C00021, .bEq ⟨2, 3, 1, 1⟩), (0x9586, 0x24204400, .vsegsum ⟨false, 0, 6, 4, 1, 2, 0, 0, 0⟩),
      (0xE801, 0x8423105000000000, .opacc ⟨1, 8, 4, 2, 3, 4, 5, 0, 0, 0, 0⟩), (0xEB00, 0x0C00C00000000101, .twgenMod ⟨0, 0, 3, 0, 0, 0, 0x101⟩),
      (0xEB80, 0x000140000000004C, .txf ⟨0, 0, 5, 0, 0, 0, 0x4C⟩), (0x7C07, 0x0146, .tqpush ⟨7, 6, 5⟩), (0x7C08, 0x1000, .tqpop ⟨8, 0, 0⟩),
      (0x7C05, 0x2002, .launch ⟨5, 2, 0⟩), (0x7C07, 0x3000, .join ⟨7, 0, 0⟩), (0x7B03, 0x0002, .coll ⟨3, 2, 0⟩), (0x7B05, 0x1102, .ccwait ⟨5, 2, 4⟩),
      (0x7C85, 0x00C2, .sqpost ⟨5, 2, 3⟩), (0x7C86, 0x10C2, .cqpoll ⟨6, 2, 3⟩), (0xF801, 0x0C40080000000010, .cpyz ⟨1, 4, 0, 8, 0, 0, 0x10⟩),
      (0xF800, 0x0821460000000810, .cpyg ⟨0, 2, 5, 6, 0, 0, 0x810⟩), (0xF803, 0x0050060000000080, .cpy ⟨3, 5, 0, 6, 0, 0, 0x80⟩),
      (0xF805, 0x0002460000000040, .cpy ⟨5, 0, 9, 6, 0, 0, 0x40⟩), (0x7883, 0x2007, .hgive ⟨3, 7, 0⟩), (0x7885, 0x3008, .htake ⟨5, 8, 0⟩),
      (0xFB81, 0x0040000000000270, .brule ⟨1, 4, 0, 0, 0, 0, 0x270⟩), (0xFB82, 0x0411460000000080, .bwalk ⟨2, 1, 5, 6, 0, 0, 0x80⟩),
      (0xB201, 0x00100100, .spushv ⟨false, 0, 1, 1, 0, 1, 0, 0, 0⟩), (0x7281, 0x0240, .stok ⟨1, 0, 9⟩),
      (0xF101, 0x1400000000000000, .sbindNbr ⟨1, 0, 0, 0, 0, 0, 0⟩), (0xF101, 0x1400000000000018, .sbindNbr ⟨1, 0, 0, 0, 0, 0, 0x18⟩),
      (0xF000, 0x0030000000000030, .gcfg ⟨0, 3, 0, 0, 0, 0, 0x30⟩), (0xD783, 0x0020400000004310, .vamoFadd ⟨3, 2, 1, 0, 0, 0, 1, true, 2, 0⟩),
      (0x9682, 0x00140000, .vld ⟨2, 0, 5, 0, 0, 0⟩), (0x9681, 0x01000000, .vld ⟨1, 2, 0, 0, 0, 0⟩), (0x5003, 0x0002, .vsetl ⟨3, 2, 0⟩),
      (0x9341, 0x2C000100, .vfcmpGe ⟨true, 0, 1, 1, 0, 0, 0, 0, 0⟩), (0x5400, 0x0001, .mpopcLq ⟨0, 1, 0⟩),
      (0x9482, 0x00000120, .vcomp ⟨false, 0, 2, 1, 0, 0, 1, 0, 0⟩), (0x9702, 0x01100010, .vst ⟨2, 2, 4, 0, 0, 4⟩)] : List (BitVec 16 × BitVec 64 × Instr)).all
      (fun p => isOk p.2.2 (decode p.1 p.2.1)) = true := by decide +kernel
/-! A word of every coded row, by the layouts of R76 and R78 and the maps R80 to R84. -/
theorem test_words_scalar :
    ([(0x0001, 0x0, .nop), (0x4085, 0x83, .add ⟨5, 3, 2⟩), (0x4085, 0x1083, .sub ⟨5, 3, 2⟩), (0x4085, 0x2083, .and_ ⟨5, 3, 2⟩),
      (0x4085, 0x3083, .or_ ⟨5, 3, 2⟩), (0x4085, 0x4083, .xor_ ⟨5, 3, 2⟩), (0x4085, 0x5083, .sll ⟨5, 3, 2⟩), (0x4085, 0x6083, .srl ⟨5, 3, 2⟩),
      (0x4085, 0x7083, .sra ⟨5, 3, 2⟩), (0x4085, 0x8083, .slt ⟨5, 3, 2⟩), (0x4085, 0x9083, .sltu ⟨5, 3, 2⟩), (0x4085, 0xA083, .min ⟨5, 3, 2⟩),
      (0x4085, 0xB083, .max ⟨5, 3, 2⟩), (0x40DF, 0x75E, .addW ⟨31, 30, 29⟩), (0x40DF, 0x175E, .subW ⟨31, 30, 29⟩), (0x40DF, 0x575E, .sllW ⟨31, 30, 29⟩),
      (0x40DF, 0x675E, .srlW ⟨31, 30, 29⟩), (0x40DF, 0x775E, .sraW ⟨31, 30, 29⟩), (0x811F, 0x44FFFFE, .addi ⟨31, 17, 0xFFFFE⟩),
      (0x811F, 0x144FFFFE, .andi ⟨31, 17, 0xFFFFE⟩), (0x811F, 0x244FFFFE, .ori ⟨31, 17, 0xFFFFE⟩), (0x811F, 0x344FFFFE, .xori ⟨31, 17, 0xFFFFE⟩),
      (0x811F, 0x4440003F, .slli ⟨31, 17, 0x3F⟩), (0x811F, 0x5440003F, .srli ⟨31, 17, 0x3F⟩), (0x811F, 0x6440003F, .srai ⟨31, 17, 0x3F⟩),
      (0x811F, 0x744FFFFE, .slti ⟨31, 17, 0xFFFFE⟩), (0x815F, 0x4480001, .addiW ⟨31, 17, 0x80001⟩), (0x815F, 0x4440001F, .slliW ⟨31, 17, 0x1F⟩),
      (0x815F, 0x5440001F, .srliW ⟨31, 17, 0x1F⟩), (0x815F, 0x6440001F, .sraiW ⟨31, 17, 0x1F⟩)] : List (BitVec 16 × BitVec 64 × Instr)).all
      (fun p => isOk p.2.2 (decode p.1 p.2.1)) = true := by decide +kernel
theorem test_words_products :
    ([(0x4185, 0x83, .mul ⟨5, 3, 2⟩), (0x4185, 0x1083, .mulh ⟨5, 3, 2⟩), (0x4185, 0x2083, .mulhu ⟨5, 3, 2⟩), (0x4185, 0x3083, .div ⟨5, 3, 2⟩),
      (0x4185, 0x4083, .divu ⟨5, 3, 2⟩), (0x4185, 0x5083, .rem ⟨5, 3, 2⟩), (0x4185, 0x6083, .remu ⟨5, 3, 2⟩), (0x41C5, 0x83, .mulW ⟨5, 3, 2⟩),
      (0x41C5, 0x3083, .divW ⟨5, 3, 2⟩), (0x41C5, 0x4083, .divuW ⟨5, 3, 2⟩), (0x41C5, 0x5083, .remW ⟨5, 3, 2⟩), (0x41C5, 0x6083, .remuW ⟨5, 3, 2⟩),
      (0x4205, 0x3, .clz ⟨5, 3, 0⟩), (0x4205, 0x1003, .ctz ⟨5, 3, 0⟩), (0x4205, 0x2003, .popc ⟨5, 3, 0⟩),
      (0x8285, 0x1F08300, .sel ⟨false, 0, 5, 3, 2, 31, 0, 0, 0⟩), (0x8305, 0x80000001, .limmT4w ⟨5, 0x80000001⟩),
      (0xC305, 0x123456789ABCDEF0, .limmT8w ⟨5, 0x123456789ABCDEF0⟩), (0x8385, 0xFFFFFF00, .addpc ⟨5, 0xFFFFFF00⟩)] : List (BitVec 16 × BitVec 64 × Instr)).all
      (fun p => isOk p.2.2 (decode p.1 p.2.1)) = true := by decide +kernel
theorem test_words_memory :
    ([(0x8405, 0x592FFFF8, .ld ⟨5, 2, 6, 9, 0xFFFF8⟩), (0x8485, 0x6D200008, .st ⟨5, 3, 3, 9, 8⟩), (0x8505, 0x724E000, .amoAdd ⟨5, 3, 2, 9, 7, 0⟩),
      (0x8505, 0x1724E000, .amoAnd ⟨5, 3, 2, 9, 7, 0⟩), (0x8505, 0x2724E000, .amoOr ⟨5, 3, 2, 9, 7, 0⟩), (0x8505, 0x3724E000, .amoXor ⟨5, 3, 2, 9, 7, 0⟩),
      (0x8505, 0x4724E000, .amoMin ⟨5, 3, 2, 9, 7, 0⟩), (0x8505, 0x5724E000, .amoMax ⟨5, 3, 2, 9, 7, 0⟩), (0x8505, 0x6724E000, .amoMinu ⟨5, 3, 2, 9, 7, 0⟩),
      (0x8505, 0x7724E000, .amoMaxu ⟨5, 3, 2, 9, 7, 0⟩), (0x8505, 0x86A4E000, .amoFadd ⟨5, 3, 1, 9, 7, 0⟩),
      (0x8505, 0x9624E000, .amoBfadd ⟨5, 3, 0, 9, 7, 0⟩), (0x8505, 0xA724E000, .amoSwap ⟨5, 3, 2, 9, 7, 0⟩),
      (0x8505, 0xB724E400, .amoCas ⟨5, 3, 2, 9, 7, 4⟩)] : List (BitVec 16 × BitVec 64 × Instr)).all
      (fun p => isOk p.2.2 (decode p.1 p.2.1)) = true := by decide +kernel
theorem test_words_control :
    ([(0x8580, 0x18BFFFD1, .bEq ⟨3, 2, 0x1FFFE, 17⟩), (0x8590, 0x18BFFFD1, .bNe ⟨3, 2, 0x1FFFE, 17⟩), (0x85A0, 0x18BFFFD1, .bLt ⟨3, 2, 0x1FFFE, 17⟩),
      (0x85B0, 0x18BFFFD1, .bGe ⟨3, 2, 0x1FFFE, 17⟩), (0x85C0, 0x18BFFFD1, .bLtu ⟨3, 2, 0x1FFFE, 17⟩), (0x85D0, 0x18BFFFD1, .bGeu ⟨3, 2, 0x1FFFE, 17⟩),
      (0x8600, 0xFFFFFFB1, .jmp ⟨0, 0x7FFFFFD, 17⟩), (0x8685, 0xFFFFFFB1, .call ⟨5, 0x7FFFFFD, 17⟩), (0x8785, 0xFFFFFFB1, .loop ⟨5, 0x7FFFFFD, 17⟩),
      (0x8800, 0xFFFFFFB1, .vfetch ⟨0, 0x7FFFFFD, 17⟩), (0x4705, 0x3, .jmpr ⟨5, 3, 0⟩), (0x0880, 0x0, .vend), (0x4905, 0xD, .getid ⟨5, 13⟩),
      (0x0987, 0x0, .caps 7), (0x4A05, 0x12, .sysrd ⟨5, 0x12⟩), (0x4A45, 0x9, .syswr ⟨5, 9⟩), (0x0F80, 0x0, .hret), (0x0F81, 0x0, .dstop),
      (0x0F82, 0x0, .waitev), (0x0F83, 0x0, .cede), (0x0F84, 0x0, .halt), (0x4F85, 0x7F, .trap ⟨0, 0x7F⟩)] : List (BitVec 16 × BitVec 64 × Instr)).all
      (fun p => isOk p.2.2 (decode p.1 p.2.1)) = true := by decide +kernel
theorem test_words_vectors :
    ([(0x5005, 0x3, .vsetl ⟨5, 3, 0⟩), (0x5005, 0x1003, .vsetlLq ⟨5, 3, 0⟩), (0x9085, 0x800042, .vsett ⟨5, 0x00800042⟩),
      (0xD105, 0xFFFFFE00000300D4, .vidx ⟨5, 0xFFFFFE, 3, 6, 5⟩), (0x91BF, 0xF7E30, .vadd ⟨false, 0, 63, 62, 61, 0, 1, 4, 0⟩),
      (0x91BF, 0x40F7E30, .vsub ⟨false, 0, 63, 62, 61, 0, 1, 4, 0⟩), (0x91BF, 0x80F7E30, .vmul ⟨false, 0, 63, 62, 61, 0, 1, 4, 0⟩),
      (0x91BF, 0xC0F7E30, .vand ⟨false, 0, 63, 62, 61, 0, 1, 4, 0⟩), (0x91BF, 0x100F7E30, .vor ⟨false, 0, 63, 62, 61, 0, 1, 4, 0⟩),
      (0x91BF, 0x140F7E30, .vxor ⟨false, 0, 63, 62, 61, 0, 1, 4, 0⟩), (0x91BF, 0x180F7E30, .vsll ⟨false, 0, 63, 62, 61, 0, 1, 4, 0⟩),
      (0x91BF, 0x1C0F7E30, .vsrl ⟨false, 0, 63, 62, 61, 0, 1, 4, 0⟩), (0x91BF, 0x200F7E30, .vsra ⟨false, 0, 63, 62, 61, 0, 1, 4, 0⟩),
      (0x91BF, 0xA40F7E30, .vmin ⟨false, 2, 63, 62, 61, 0, 1, 4, 0⟩), (0x91BF, 0xA80F7E30, .vmax ⟨false, 2, 63, 62, 61, 0, 1, 4, 0⟩),
      (0x91BF, 0xAC0F7E30, .vsadd ⟨false, 2, 63, 62, 61, 0, 1, 4, 0⟩), (0x91BF, 0xB00F7E30, .vssub ⟨false, 2, 63, 62, 61, 0, 1, 4, 0⟩),
      (0x9245, 0x74330, .vfadd ⟨true, 0, 5, 3, 29, 0, 1, 4, 0⟩), (0x9245, 0x4074330, .vfsub ⟨true, 0, 5, 3, 29, 0, 1, 4, 0⟩),
      (0x9245, 0x8074330, .vfmul ⟨true, 0, 5, 3, 29, 0, 1, 4, 0⟩), (0x9245, 0xC074330, .vfdiv ⟨true, 0, 5, 3, 29, 0, 1, 4, 0⟩),
      (0x9245, 0x13B74330, .vfma ⟨true, 0, 5, 3, 29, 59, 1, 4, 0⟩), (0x9245, 0x17B74330, .vfms ⟨true, 0, 5, 3, 29, 59, 1, 4, 0⟩),
      (0x9245, 0x18074330, .vfmin ⟨true, 0, 5, 3, 29, 0, 1, 4, 0⟩), (0x9245, 0x1C074330, .vfmax ⟨true, 0, 5, 3, 29, 0, 1, 4, 0⟩),
      (0x9205, 0x20000330, .vfsqrt ⟨false, 0, 5, 3, 0, 0, 1, 4, 0⟩), (0x9205, 0x24000330, .vfabs ⟨false, 0, 5, 3, 0, 0, 1, 4, 0⟩),
      (0x9205, 0x40000330, .vfexp ⟨false, 0, 5, 3, 0, 0, 1, 4, 0⟩), (0x9205, 0x44000330, .vflog ⟨false, 0, 5, 3, 0, 0, 1, 4, 0⟩),
      (0x9205, 0x48000330, .vfrcp ⟨false, 0, 5, 3, 0, 0, 1, 4, 0⟩), (0x9205, 0x4C000330, .vfrsq ⟨false, 0, 5, 3, 0, 0, 1, 4, 0⟩),
      (0x9205, 0x50000330, .vftanh ⟨false, 0, 5, 3, 0, 0, 1, 4, 0⟩), (0xD285, 0x33C23000003C28, .vcvt ⟨5, 3, 15, 2, 1, 4, 0x3C28⟩)] : List (BitVec 16 × BitVec 64 × Instr)).all
      (fun p => isOk p.2.2 (decode p.1 p.2.1)) = true := by decide +kernel
theorem test_words_vectorSets :
    ([(0x9305, 0x8330, .vcmpEq ⟨false, 0, 5, 3, 2, 0, 1, 4, 0⟩), (0x9305, 0x4008330, .vcmpNe ⟨false, 0, 5, 3, 2, 0, 1, 4, 0⟩),
      (0x9305, 0x8008330, .vcmpLt ⟨false, 0, 5, 3, 2, 0, 1, 4, 0⟩), (0x9305, 0xC008330, .vcmpGe ⟨false, 0, 5, 3, 2, 0, 1, 4, 0⟩),
      (0x9305, 0x10008330, .vcmpLtu ⟨false, 0, 5, 3, 2, 0, 1, 4, 0⟩), (0x9305, 0x14008330, .vcmpGeu ⟨false, 0, 5, 3, 2, 0, 1, 4, 0⟩),
      (0x9345, 0x20008330, .vfcmpEq ⟨true, 0, 5, 3, 2, 0, 1, 4, 0⟩), (0x9345, 0x24008330, .vfcmpNe ⟨true, 0, 5, 3, 2, 0, 1, 4, 0⟩),
      (0x9345, 0x28008330, .vfcmpLt ⟨true, 0, 5, 3, 2, 0, 1, 4, 0⟩), (0x9345, 0x2C008330, .vfcmpGe ⟨true, 0, 5, 3, 2, 0, 1, 4, 0⟩),
      (0x9345, 0x30008330, .vfcmpUn ⟨true, 0, 5, 3, 2, 0, 1, 4, 0⟩), (0x9345, 0x34008330, .vfcmpOrd ⟨true, 0, 5, 3, 2, 0, 1, 4, 0⟩),
      (0x5387, 0x83, .mand ⟨7, 3, 2⟩), (0x5387, 0x1083, .mor ⟨7, 3, 2⟩), (0x5387, 0x2083, .mxor ⟨7, 3, 2⟩), (0x5387, 0x3083, .mandn ⟨7, 3, 2⟩),
      (0x5403, 0x3, .mpopcLq ⟨3, 3, 0⟩), (0x5445, 0x3, .mpopcG ⟨5, 3, 0⟩)] : List (BitVec 16 × BitVec 64 × Instr)).all
      (fun p => isOk p.2.2 (decode p.1 p.2.1)) = true := by decide +kernel
theorem test_words_moves :
    ([(0x9485, 0x330, .vcomp ⟨false, 0, 5, 3, 0, 0, 1, 4, 0⟩), (0x9485, 0x4000330, .vexpd ⟨false, 0, 5, 3, 0, 0, 1, 4, 0⟩),
      (0x94C5, 0x8008330, .vslup ⟨true, 0, 5, 3, 2, 0, 1, 4, 0⟩), (0x94C5, 0xC008330, .vsldn ⟨true, 0, 5, 3, 2, 0, 1, 4, 0⟩),
      (0x9485, 0x10008330, .vshuf ⟨false, 0, 5, 3, 2, 0, 1, 4, 0⟩), (0x94C5, 0x14008310, .vsperm ⟨true, 0, 5, 3, 2, 0, 0, 4, 0⟩),
      (0x94C5, 0x18008330, .vmerge ⟨true, 0, 5, 3, 2, 0, 1, 4, 0⟩), (0x5505, 0x83, .vmvx ⟨5, 3, 2⟩), (0x5545, 0x83, .vmvxU ⟨5, 3, 2⟩),
      (0x9585, 0x80900330, .vredsum ⟨false, 2, 5, 3, 0, 9, 1, 4, 0⟩), (0x9585, 0x44000330, .vredmax ⟨false, 1, 5, 3, 0, 0, 1, 4, 0⟩),
      (0x9585, 0xC8900330, .vredmin ⟨false, 3, 5, 3, 0, 9, 1, 4, 0⟩), (0x9585, 0x8C900330, .vfredsum ⟨false, 2, 5, 3, 0, 9, 1, 4, 0⟩),
      (0x9585, 0x10000330, .vfredmax ⟨false, 0, 5, 3, 0, 0, 1, 4, 0⟩), (0x9585, 0x14000330, .vfredmin ⟨false, 0, 5, 3, 0, 0, 1, 4, 0⟩),
      (0x9585, 0x18008330, .vargmax ⟨false, 0, 5, 3, 2, 0, 1, 4, 0⟩), (0x9585, 0x1C008330, .vargmin ⟨false, 0, 5, 3, 2, 0, 1, 4, 0⟩),
      (0x9585, 0xA0904330, .vscan ⟨false, 2, 5, 3, 1, 9, 1, 4, 0⟩), (0x9585, 0x24704330, .vsegsum ⟨false, 0, 5, 3, 1, 7, 1, 4, 0⟩),
      (0x9605, 0x330, .vsortk ⟨false, 0, 5, 3, 0, 0, 1, 4, 0⟩), (0x9605, 0x80908330, .vsortkP ⟨false, 0, 5, 3, 2, 9, 1, 4, 0⟩),
      (0x9605, 0x4700330, .vuniq ⟨false, 0, 5, 3, 0, 7, 1, 4, 0⟩)] : List (BitVec 16 × BitVec 64 × Instr)).all
      (fun p => isOk p.2.2 (decode p.1 p.2.1)) = true := by decide +kernel
theorem test_words_vectorMemory :
    ([(0x9685, 0x12400D4, .vld ⟨5, 2, 9, 0, 6, 5⟩), (0x9685, 0x52470D4, .vlds ⟨5, 2, 9, 7, 6, 5⟩), (0x9685, 0x92470D4, .vldx ⟨5, 2, 9, 7, 6, 5⟩),
      (0x9685, 0xD2470D4, .vldbp ⟨5, 2, 9, 7, 6, 5⟩), (0x9685, 0x112470D4, .vldk ⟨5, 2, 9, 7, 6, 5⟩), (0x9685, 0x152400D4, .vldw ⟨5, 2, 9, 0, 6, 5⟩),
      (0x9705, 0x12400D4, .vst ⟨5, 2, 9, 0, 6, 5⟩), (0x9705, 0x52470D4, .vsts ⟨5, 2, 9, 7, 6, 5⟩), (0x9705, 0x92470D4, .vstx ⟨5, 2, 9, 7, 6, 5⟩),
      (0x9705, 0xD2470D4, .vstbp ⟨5, 2, 9, 7, 6, 5⟩), (0x9705, 0x112470D4, .vscadd ⟨5, 2, 9, 7, 6, 5⟩),
      (0xD785, 0x3DF00D40000054B, .vamoAdd ⟨5, 61, 60, 0, 6, 5, 2, true, 9, 3⟩), (0xD785, 0x3DF00D400000D4B, .vamoAnd ⟨5, 61, 60, 0, 6, 5, 2, true, 9, 3⟩),
      (0xD785, 0x3DF00D40000154B, .vamoOr ⟨5, 61, 60, 0, 6, 5, 2, true, 9, 3⟩), (0xD785, 0x3DF00D400001D4B, .vamoXor ⟨5, 61, 60, 0, 6, 5, 2, true, 9, 3⟩),
      (0xD785, 0x3DF00D40000254B, .vamoMin ⟨5, 61, 60, 0, 6, 5, 2, true, 9, 3⟩), (0xD785, 0x3DF00D400002D4B, .vamoMax ⟨5, 61, 60, 0, 6, 5, 2, true, 9, 3⟩),
      (0xD785, 0x3DF00D40000354B, .vamoMinu ⟨5, 61, 60, 0, 6, 5, 2, true, 9, 3⟩), (0xD785, 0x3DF00D400003D4B, .vamoMaxu ⟨5, 61, 60, 0, 6, 5, 2, true, 9, 3⟩),
      (0xD785, 0x3DF00D40000434B, .vamoFadd ⟨5, 61, 60, 0, 6, 5, 1, true, 9, 3⟩),
      (0xD785, 0x3DF00D40000494B, .vamoBfadd ⟨5, 61, 60, 0, 6, 5, 0, true, 9, 3⟩),
      (0xD785, 0x3DF00D40000554B, .vamoSwap ⟨5, 61, 60, 0, 6, 5, 2, true, 9, 3⟩), (0xD785, 0x3DF3BD400005D4B, .vamoCas ⟨5, 61, 60, 59, 6, 5, 2, true, 9, 3⟩)] : List (BitVec 16 × BitVec 64 × Instr)).all
      (fun p => isOk p.2.2 (decode p.1 p.2.1)) = true := by decide +kernel
theorem test_words_matrix :
    ([(0xE803, 0x8423105DE5000000, .opacc ⟨3, 8, 4, 2, 3, 4, 5, 6, 7, 4, 5⟩), (0xE843, 0x8423105DE5000000, .opsub ⟨3, 8, 4, 2, 3, 4, 5, 6, 7, 4, 5⟩),
      (0x2883, 0x0, .mzero 3), (0xA903, 0x5A40000, .mldt ⟨3, true, 3, 9⟩), (0xA902, 0x1240000, .mldt ⟨2, false, 2, 9⟩),
      (0xA943, 0x5A40000, .mstt ⟨3, true, 3, 9⟩), (0xA942, 0x1240000, .mstt ⟨2, false, 2, 9⟩), (0xA985, 0x8330, .mrowv ⟨false, 0, 5, 3, 2, 0, 1, 4, 0⟩),
      (0xA985, 0x4008330, .mvrow ⟨false, 0, 5, 3, 2, 0, 1, 4, 0⟩), (0xA985, 0x8008330, .mcolv ⟨false, 0, 5, 3, 2, 0, 1, 4, 0⟩),
      (0xA985, 0xC008330, .mvcol ⟨false, 0, 5, 3, 2, 0, 1, 4, 0⟩), (0xEA00, 0xF98, .mchain ⟨0, 0, 0, 0, 0, 0, 0xF98⟩),
      (0xEA00, 0x432400000000135, .mdrain ⟨0, 3, 9, 0, 0, 0, 0x135⟩), (0xEA00, 0x4300F0000000381, .mdrainStream ⟨0, 3, 0, 15, 0, 0, 0x381⟩),
      (0xEA00, 0x872410000000000, .msetc ⟨0, 7, 9, 1, 0, 0, 0x0⟩), (0xEA83, 0x920700842317FF, .mtile ⟨3, 9, 8, 7, 0, 0, 0x842317FF⟩)] : List (BitVec 16 × BitVec 64 × Instr)).all
      (fun p => isOk p.2.2 (decode p.1 p.2.1)) = true := by decide +kernel
theorem test_words_transforms :
    ([(0xEB00, 0x518730004FFFDB, .bfy ⟨0, 5, 6, 7, 1, 4, 0x4FFFDB⟩), (0xEB00, 0x49207000017EF12, .bpass ⟨0, 9, 8, 7, 0, 0, 0x17EF12⟩),
      (0xEB00, 0x892070000000191, .bperm ⟨0, 9, 8, 7, 0, 0, 0x191⟩), (0xEB00, 0x892000000000382, .bpermRev ⟨0, 9, 8, 0, 0, 0, 0x382⟩),
      (0xEB00, 0xC72480000007F00, .twgenCplx ⟨0, 7, 9, 8, 0, 0, 0x7F00⟩), (0xEB00, 0xC72480000007F01, .twgenMod ⟨0, 7, 9, 8, 0, 0, 0x7F01⟩),
      (0xEB00, 0x109000000000019B, .bfpnorm ⟨0, 9, 0, 0, 0, 0, 0x19B⟩), (0xEB80, 0x92070000000173, .txf ⟨0, 9, 8, 7, 0, 0, 0x173⟩)] : List (BitVec 16 × BitVec 64 × Instr)).all
      (fun p => isOk p.2.2 (decode p.1 p.2.1)) = true := by decide +kernel
theorem test_words_residues :
    ([(0xAC05, 0x8330, .nadd ⟨false, 0, 5, 3, 2, 0, 1, 4, 0⟩), (0xAC05, 0x4008330, .nsub ⟨false, 0, 5, 3, 2, 0, 1, 4, 0⟩),
      (0xAC05, 0x8008330, .nmul ⟨false, 0, 5, 3, 2, 0, 1, 4, 0⟩), (0xAC45, 0x8008330, .nmulW ⟨true, 0, 5, 3, 2, 0, 1, 4, 0⟩),
      (0xAC45, 0xC908330, .nbfy ⟨true, 0, 5, 3, 2, 9, 1, 4, 0⟩), (0xAC05, 0x10908330, .ncrt ⟨false, 0, 5, 3, 2, 9, 1, 4, 0⟩),
      (0xAC05, 0x14000330, .nfrom ⟨false, 0, 5, 3, 0, 0, 1, 4, 0⟩), (0xAC05, 0x18000330, .nto ⟨false, 0, 5, 3, 0, 0, 1, 4, 0⟩),
      (0x6C80, 0x3, .nmodset ⟨0, 3, 0⟩), (0x6D05, 0x83, .nchk ⟨5, 3, 2⟩), (0xAD85, 0x8330, .vcmul ⟨false, 0, 5, 3, 2, 0, 1, 4, 0⟩),
      (0xADC5, 0x4008330, .vcmulCj ⟨true, 0, 5, 3, 2, 0, 1, 4, 0⟩)] : List (BitVec 16 × BitVec 64 × Instr)).all
      (fun p => isOk p.2.2 (decode p.1 p.2.1)) = true := by decide +kernel
theorem test_words_streams :
    ([(0xF000, 0x900000000000B3, .gcfg ⟨0, 9, 0, 0, 0, 0, 0xB3⟩), (0xF000, 0x400000000000000, .gstart ⟨0, 0, 0, 0, 0, 0, 0x0⟩),
      (0xF000, 0x800000000000000, .gstop ⟨0, 0, 0, 0, 0, 0, 0x0⟩), (0xF000, 0xC00000000000000, .gwait ⟨0, 0, 0, 0, 0, 0, 0x0⟩),
      (0xF000, 0x1000000000000000, .greset ⟨0, 0, 0, 0, 0, 0, 0x0⟩), (0xF000, 0x1490000000000003, .gnode ⟨0, 9, 0, 0, 0, 0, 0x3⟩),
      (0x7085, 0x3, .gstat ⟨5, 3, 0⟩), (0x7085, 0x1000, .gquiet ⟨5, 0, 0⟩), (0xF10F, 0x0, .sunb ⟨15, 0, 0, 0, 0, 0, 0x0⟩),
      (0xF10F, 0x400000000000002, .sbindVec ⟨15, 0, 0, 0, 0, 0, 0x2⟩), (0xF10F, 0x8000000000000FA, .sbindPat ⟨15, 0, 0, 0, 0, 0, 0xFA⟩),
      (0xF10F, 0xC00000000000652, .sbindNin ⟨15, 0, 0, 0, 0, 0, 0x652⟩), (0xF10F, 0x100000000000045A, .sbindNout ⟨15, 0, 0, 0, 0, 0, 0x45A⟩),
      (0xF10F, 0x140000000000003A, .sbindNbr ⟨15, 0, 0, 0, 0, 0, 0x3A⟩), (0xF10F, 0x180000000001FFFA, .sbindRtr ⟨15, 0, 0, 0, 0, 0, 0x1FFFA⟩),
      (0xF10F, 0x1C0000000000000A, .sbindBfy ⟨15, 0, 0, 0, 0, 0, 0xA⟩), (0xF10F, 0x200000000000000A, .sbindArr ⟨15, 0, 0, 0, 0, 0, 0xA⟩),
      (0xF18F, 0x920700000001B3, .spat ⟨15, 9, 8, 7, 0, 0, 0x1B3⟩), (0xB205, 0x300330, .spushv ⟨false, 0, 5, 3, 0, 3, 1, 4, 0⟩),
      (0xB205, 0x401C310, .spopv ⟨false, 0, 5, 3, 7, 0, 0, 4, 0⟩), (0xB205, 0x891C310, .spopk ⟨false, 0, 5, 3, 7, 9, 0, 4, 0⟩),
      (0x7285, 0x3C3, .stok ⟨5, 3, 15⟩), (0x7285, 0x1000, .sdone ⟨5, 0, 0⟩), (0x7285, 0x21C0, .srank ⟨5, 0, 7⟩), (0x7305, 0x3, .spopg ⟨5, 3, 0⟩),
      (0xF380, 0x920F0000003FCD, .rstage ⟨0, 9, 8, 15, 0, 0, 0x3FCD⟩)] : List (BitVec 16 × BitVec 64 × Instr)).all
      (fun p => isOk p.2.2 (decode p.1 p.2.1)) = true := by decide +kernel
theorem test_words_engines :
    ([(0xF81F, 0x92071000000011, .cpy ⟨31, 9, 8, 7, 0, 4, 0x11⟩), (0xF81F, 0x490071000000081, .cpyt ⟨31, 9, 0, 7, 0, 4, 0x81⟩),
      (0xF81F, 0x892071CAB003F11, .cpyg ⟨31, 9, 8, 7, 0, 7, 0xAB003F11⟩), (0xF81F, 0xC9207000000C008, .cpyz ⟨31, 9, 8, 7, 0, 0, 0xC008⟩),
      (0x7885, 0x3, .halloc ⟨5, 3, 0⟩), (0x7885, 0x1000, .hfree ⟨5, 0, 0⟩), (0x7885, 0x2003, .hgive ⟨5, 3, 0⟩), (0x7885, 0x3003, .htake ⟨5, 3, 0⟩),
      (0x7885, 0x4003, .hwait ⟨5, 3, 0⟩), (0x7885, 0x5003, .hstat ⟨5, 3, 0⟩), (0x7905, 0x103, .binit ⟨5, 3, 4⟩), (0x7905, 0x1003, .bexpect ⟨5, 3, 0⟩),
      (0x7905, 0x2103, .barrive ⟨5, 3, 4⟩), (0x7905, 0x3103, .bwait ⟨5, 3, 4⟩), (0x7905, 0x4003, .btest ⟨5, 3, 0⟩), (0x7985, 0x3, .gangon ⟨5, 3, 0⟩),
      (0x7985, 0x1000, .gangoff ⟨5, 0, 0⟩), (0xBA05, 0x1240000, .vldg ⟨5, 2, 9, 0, 0, 0⟩), (0x3A84, 0x0, .phase 4), (0x3A90, 0x0, .fenceE),
      (0x3AA0, 0x0, .nmfence), (0x7B05, 0x83, .coll ⟨5, 3, 2⟩), (0x7B05, 0x1083, .ccwait ⟨5, 3, 2⟩), (0x7B05, 0x2003, .ccread ⟨5, 3, 0⟩),
      (0xFB9F, 0x90000000003FFE, .brule ⟨31, 9, 0, 0, 0, 0, 0x3FFE⟩), (0xFB9F, 0x7D248D40003000F, .bwalk ⟨31, 61, 9, 8, 6, 5, 0x3000F⟩),
      (0x7C05, 0x83, .tqpush ⟨5, 3, 2⟩), (0x7C05, 0x1003, .tqpop ⟨5, 3, 0⟩), (0x7C05, 0x2083, .launch ⟨5, 3, 2⟩), (0x7C05, 0x3003, .join ⟨5, 3, 0⟩),
      (0x7C85, 0x83, .sqpost ⟨5, 3, 2⟩), (0x7C85, 0x1083, .cqpoll ⟨5, 3, 2⟩)] : List (BitVec 16 × BitVec 64 × Instr)).all
      (fun p => isOk p.2.2 (decode p.1 p.2.1)) = true := by decide +kernel
/-- The line worked out after R93: four heads, and their tails from the line's end. -/
def exampleLine : Line :=
  0x00000040008530000021000000000000000000000000000000000000000000000000000000000000000000000000000000000000000000008580098740868305
theorem test_line_of_the_example :
    (lineSlot exampleLine 0, lineSlot exampleLine 1, lineSlot exampleLine 2, lineSlot exampleLine 3, lineSlot exampleLine 4) =
      (.ins 0x8305 0x40, .ins 0x4086 0x85, .ins 0x0987 0, .ins 0x8580 0x30000021, .none) := by decide +kernel
/-- Words of no instruction: an unassigned major, a wrong tail class, a reserved F7 value, a reserved operation (R74, R85, R86, R126). -/
theorem test_words_refused :
    [decode 0x0A80 0, decode 0x4000 0, decode 0x0002 0, decode 0x4F84 0, decode 0x0F86 0, decode 0x4083 0xC000].map
      (fun r => match r with | .error e => some e | .ok _ => none) =
      [some .unassigned, some .badTc, some .badF7, some .badTc, some .badF7, some .badTail] := by decide +kernel

end Sys2Proof.Machine
namespace Sys2Proof.Machine

/-- Accesses to a buffer within its bounds, aligned, of nobody else's region. -/
theorem reaches_buf {s : State} {spc : BitVec 3} {acc : Acc} {els : List Nat} {acs : Nat → List (Nat × Nat)} (hs : spc ≠ 0)
    (h : (decide (spc.toNat ≤ 3) && els.all (fun e => (acs e).all (fun a => a.1 % a.2 == 0 && decide (a.1 + a.2 ≤ bufSize spc.toNat) &&
      !s.core.notHolder spc.toNat a.1 a.2))) = true) :
    ∀ e ∈ els, ∀ a ∈ acs e, Reaches s spc a.1 a.2 acc (id a.1) ∧ Readable s spc a.2 (id a.1) := by
  intro e he a ha
  simp only [Bool.and_eq_true, List.all_eq_true, decide_eq_true_eq, beq_iff_eq, Bool.not_eq_true'] at h
  have := h.2 e he a ha
  exact ⟨⟨this.1.1, by simp only [hs, if_false]; exact ⟨h.1, this.1.2, this.2, rfl⟩⟩, fun z => absurd z hs⟩
/-- The same for device memory through a translation that is held. -/
theorem reaches_dev {s : State} {acc : Acc} {els : List Nat} {acs : Nat → List (Nat × Nat)} {loc : Nat → Nat}
    (h : els.all (fun e => (acs e).all (fun a => a.1 % a.2 == 0 && decide (a.1 < 2 ^ 54) && decide (loc a.1 < peerBase) &&
      isOk (.mem (loc a.1), s) (s.xlate a.1 acc .other))) = true) :
    ∀ e ∈ els, ∀ a ∈ acs e, Reaches s 0 a.1 a.2 acc (loc a.1) ∧ Readable s 0 a.2 (loc a.1) := by
  intro e he a ha
  simp only [Bool.and_eq_true, List.all_eq_true, decide_eq_true_eq, beq_iff_eq] at h
  have := h e he a ha
  exact ⟨⟨this.1.1.1, by simp only [if_true]; exact ⟨this.1.1.2, ok_of this.2⟩⟩, fun _ => .inl this.1.2⟩
/-- Lines of a buffer one after another. -/
theorem reaches_lines {s : State} {spc : BitVec 3} {acc : Acc} {base n : Nat} (hs : spc ≠ 0)
    (h : spc.toNat ≤ 3 ∧ base % 64 = 0 ∧ base + 64 * n ≤ bufSize spc.toNat ∧ ∀ l < n, s.core.notHolder spc.toNat (base + 64 * l) 64 = false) :
    ∀ l, l < n → Reaches s spc (base + 64 * l) 64 acc (base + 64 * l) ∧ Readable s spc 64 (base + 64 * l) := by
  intro l hl
  refine ⟨⟨by omega, ?_⟩, fun z => absurd z hs⟩
  simp only [hs, if_false]
  exact ⟨h.1, by omega, h.2.2.2 l hl, trivial⟩

end Sys2Proof.Machine
namespace Sys2Proof.Machine

/-! ### The control thread -/

/-- g1 = 5, g2 = −7, g4 = 3, g5 = 2^31. -/
def scalarState : State := running (withG [(1, 5), (2, 0xFFFFFFFFFFFFFFF9), (4, 3), (5, 0x80000000)]) id

theorem meets_integerForms :
    (∃ s : State, ∃ i d v, State.Free s ∧ Instr.WellFormed i ∧ integerForm s i = some (d, v) ∧ d = 31) ∧
    (∃ s : State, ∃ i d v, State.Free s ∧ Instr.WellFormed i ∧ integerForm s i = some (d, v) ∧ d = 0) :=
  ⟨⟨scalarState, .add ⟨31, 1, 2⟩, 31, 0xFFFFFFFFFFFFFFFE, (free_of (by decide +kernel)), (wf_of (by decide +kernel)), (by decide +kernel), rfl⟩,
   ⟨scalarState, .srai ⟨0, 2, 63⟩, 0, 0xFFFFFFFFFFFFFFFF, (free_of (by decide +kernel)), (wf_of (by decide +kernel)), (by decide +kernel), rfl⟩⟩

theorem meets_productForms :
    (∃ s : State, ∃ i d v, State.Free s ∧ Instr.WellFormed i ∧ productForm s i = some (d, v) ∧ d = 31) ∧
    (∃ s : State, ∃ i d v, State.Free s ∧ Instr.WellFormed i ∧ productForm s i = some (d, v) ∧ d = 0) :=
  ⟨⟨scalarState, .divu ⟨31, 1, 3⟩, 31, 0xFFFFFFFFFFFFFFFF, (free_of (by decide +kernel)), (wf_of (by decide +kernel)), (by decide +kernel), rfl⟩,
   ⟨scalarState, .remW ⟨0, 2, 4⟩, 0, 0xFFFFFFFFFFFFFFFF, (free_of (by decide +kernel)), (wf_of (by decide +kernel)), (by decide +kernel), rfl⟩⟩

theorem meets_plainForms :
    (∃ s : State, ∃ i d v, State.Free s ∧ Instr.WellFormed i ∧ plainForm s i = some (d, v) ∧ d = 31) ∧
    (∃ s : State, ∃ i d v, State.Free s ∧ Instr.WellFormed i ∧ plainForm s i = some (d, v) ∧ d = 0) :=
  ⟨⟨scalarState, .clz ⟨31, 1, 0⟩, 31, 61, (free_of (by decide +kernel)), (wf_of (by decide +kernel)), (by decide +kernel), rfl⟩, ⟨scalarState, .nop, 0, 0, (free_of (by decide +kernel)), (wf_of (by decide +kernel)), (by decide +kernel), rfl⟩⟩

/-- A line of 32 NOPs. -/
def nops : Line := (List.range 32).foldl (fun (l : Line) k => l ||| (BitVec.ofNat 512 1 <<< (16 * k))) 0
/-- The lines at 64, 128 and 192 are fetched; g1 = g2 = 1, g3 = 0, g4 = 146; a loop whose body is the line at 128 is open. -/
def lineState (n : Nat) : State :=
  running (fun x => { withG [(1, 1), (2, 1), (4, 146)] x with
    lines := [(64, nops), (128, nops), (192, nops)], loops := List.replicate n ⟨128, 190, 3⟩ }) id
theorem lands_of {s : State} {a : Word} (h : look (lineOf a) s.slot.lines = some nops)
    (i : (match lineSlot nops (slotOf a) with | .ins h x => h == 1 && x == 0 | _ => false) = true) : Lands s a s :=
  ⟨nops, 1, 0, by simp [State.fetchLine, h], by
    generalize lineSlot nops (slotOf a) = r at i
    cases r <;> simp_all⟩

/-- Taken and not taken; forward to the last slot of a line, and one line back. -/
theorem meets_branches :
    (∃ s : State, ∃ i p o u, State.Free s ∧ condition s i = some (p, o) ∧ p ∧ Lands s (named s o.loff o.slot) u ∧ s.slot.loops ≠ []) ∧
    (∃ s : State, ∃ i p o u, State.Free s ∧ condition s i = some (p, o) ∧ p ∧ Lands s (named s o.loff o.slot) u ∧ (named s o.loff o.slot).toNat < 128) ∧
    (∃ s : State, ∃ i p o, State.Free s ∧ condition s i = some (p, o) ∧ ¬p) :=
  ⟨⟨lineState 1, .bEq ⟨1, 2, 1, 31⟩, _, ⟨1, 2, 1, 31⟩, lineState 1, (free_of (by decide +kernel)), rfl, (by decide +kernel), lands_of (by decide +kernel) (by decide +kernel), (by decide +kernel)⟩,
   ⟨lineState 1, .bGeu ⟨1, 2, 0x1FFFF, 0⟩, _, ⟨1, 2, 0x1FFFF, 0⟩, lineState 1, (free_of (by decide +kernel)), rfl, (by decide +kernel), lands_of (by decide +kernel) (by decide +kernel), (by decide +kernel)⟩,
   ⟨lineState 1, .bNe ⟨1, 2, 1, 31⟩, _, ⟨1, 2, 1, 31⟩, (free_of (by decide +kernel)), rfl, (by decide +kernel)⟩⟩

theorem meets_jumps :
    (∃ s : State, ∃ o u, State.Free s ∧ Instr.WellFormed (.jmp o) ∧ Lands s (named s o.loff o.slot) u) ∧
    (∃ s : State, ∃ o u, State.Free s ∧ Instr.WellFormed (.call o) ∧ Lands s (named s o.loff o.slot) u ∧ o.d = 0) ∧
    (∃ s : State, ∃ u, ∃ o : OpA2, State.Free s ∧ Instr.WellFormed (.jmpr o) ∧ (s.g o.a).toNat % 2 = 0 ∧ Lands s (s.g o.a) u ∧ o.d = o.a) :=
  ⟨⟨lineState 1, ⟨0, 1, 5⟩, lineState 1, (free_of (by decide +kernel)), (wf_of (by decide +kernel)), lands_of (by decide +kernel) (by decide +kernel)⟩, ⟨lineState 1, ⟨0, 0x7FFFFFF, 0⟩, lineState 1, (free_of (by decide +kernel)), (wf_of (by decide +kernel)), lands_of (by decide +kernel) (by decide +kernel), rfl⟩,
   ⟨lineState 1, lineState 1, ⟨4, 4, 0⟩, (free_of (by decide +kernel)), (wf_of (by decide +kernel)), (by decide +kernel), lands_of (by decide +kernel) (by decide +kernel), rfl⟩⟩

/-- A loop pushed as fourth entry, one skipped, one refused as fifth, one that ends before it begins. -/
theorem meets_loop :
    (∃ s : State, ∃ o : OpJ4, ∃ u, State.Free s ∧ Instr.WellFormed (.loop o) ∧ s.slot.npc.toNat ≤ (named s o.loff o.slot).toNat ∧
      Lands s (named s o.loff o.slot) u ∧ s.g o.d ≠ 0 ∧ s.slot.loops.length = 3) ∧
    (∃ s : State, ∃ o : OpJ4, ∃ u l, State.Free s ∧ Instr.WellFormed (.loop o) ∧ s.slot.npc.toNat ≤ (named s o.loff o.slot).toNat ∧
      Lands s (named s o.loff o.slot) u ∧ s.g o.d = 0 ∧ look (lineOf (named s o.loff o.slot)) u.slot.lines = some l) ∧
    (∃ s : State, ∃ o : OpJ4, ∃ u, State.Free s ∧ Instr.WellFormed (.loop o) ∧ s.slot.npc.toNat = (named s o.loff o.slot).toNat ∧
      Lands s (named s o.loff o.slot) u ∧ s.g o.d ≠ 0 ∧ s.slot.loops.length = 4) ∧
    (∃ s : State, ∃ o : OpJ4, State.Free s ∧ Instr.WellFormed (.loop o) ∧ (named s o.loff o.slot).toNat < s.slot.npc.toNat) :=
  ⟨⟨lineState 3, ⟨1, 0, 31⟩, lineState 3, (free_of (by decide +kernel)), (wf_of (by decide +kernel)), (by decide +kernel), lands_of (by decide +kernel) (by decide +kernel), (by decide +kernel), (by decide +kernel)⟩,
   ⟨lineState 3, ⟨3, 1, 31⟩, lineState 3, nops, (free_of (by decide +kernel)), (wf_of (by decide +kernel)), (by decide +kernel), lands_of (by decide +kernel) (by decide +kernel), (by decide +kernel), (by decide +kernel)⟩,
   ⟨lineState 4, ⟨1, 0, 1⟩, lineState 4, (free_of (by decide +kernel)), (wf_of (by decide +kernel)), (by decide +kernel), lands_of (by decide +kernel) (by decide +kernel), (by decide +kernel), (by decide +kernel)⟩, ⟨lineState 0, ⟨1, 0, 0⟩, (free_of (by decide +kernel)), (wf_of (by decide +kernel)), (by decide +kernel)⟩⟩

theorem meets_loopEnd : ∃ s : State, ∃ t, State.Free s ∧ Advanced s t :=
  ⟨lineState 1, (lineState 1).modSlot (fun x => { x with pc := 130 }), (free_of (by decide +kernel)), by unfold Advanced; decide +kernel⟩

/-- R115: nested loops: the inner body runs 3 × 2 times (the example's g6 = 6 follows from the two counts). -/
theorem test_inner_loop_pops_with_the_outer_one :
    loopEnd 130 132 [⟨130, 130, 1⟩, ⟨128, 130, 2⟩] = ([⟨128, 130, 1⟩], 128) := by decide +kernel

/-! ### Loads, stores, atomics -/

/-- The page at 0x20000 of context 0 is mapped to itself, read-write, and held in the TLB; the W buffer has 16 bytes at 64; g1 = 0x20000,
g2 = 64, g3 = 524,287, g4 = 2^54, g5 = 0x3F800000; h3 holds the last 64 bytes of A for another core. -/
def memState : State :=
  let s := running (withG [(1, 0x20000), (2, 64), (3, 524287), (4, 0x40000000000000), (5, 0x3F800000), (6, 0x5FFC0)]) (fun c => { c with
    w := Mem.write [] 64 0xF0E0D0C0B0A090807 16
    h := c.h.setIfInBounds 3 { Handle.free with buf := 2, held := false, off := 0x5FFC0, len := 64, state := 2 } })
  let s := { s with mem := ((s.mem.write 0x14000 0x1D 8).write 0x10000 0x14003 8).write 0x20000 0x8F9FAFBFCFDFEFF7 8
                    xl := { s.xl with ctxtab := put 0 (word (2 ^ 63 + 0x10000)) s.xl.ctxtab } }
  match s.xlate 0x20000 .rd .scalar with | .ok (_, u) => u | _ => s

theorem meets_bufferLoadsAndStores :
    (∃ s : State, ∃ o : OpL4, State.Free s ∧ Instr.WellFormed (.ld o) ∧ BufferFree s o.spc.toNat (address s o) (width o.wid) false ∧
      address s o + width o.wid = 524288) ∧
    (∃ s : State, ∃ o : OpL4, State.Free s ∧ Instr.WellFormed (.st o) ∧ BufferFree s o.spc.toNat (address s o) (width o.wid) true ∧
      (s.core.buf o.spc.toNat).wf = true ∧ width o.wid = 8) :=
  ⟨⟨memState, ⟨3, 1, 0, 3, 0⟩, (free_of (by decide +kernel)), (wf_of (by decide +kernel)), ⟨(by decide +kernel), (by decide +kernel), (by decide +kernel), (by decide +kernel), (by decide +kernel)⟩, (by decide +kernel)⟩, ⟨memState, ⟨3, 1, 3, 2, 0⟩, (free_of (by decide +kernel)), (wf_of (by decide +kernel)), ⟨(by decide +kernel), (by decide +kernel), (by decide +kernel), (by decide +kernel), (by decide +kernel)⟩, (by decide +kernel), (by decide +kernel)⟩⟩

theorem meets_deviceLoadsAndStores :
    (∃ s : State, ∃ o : OpL4, ∃ loc u, State.Free s ∧ o.spc = 0 ∧ Instr.WellFormed (.ld o) ∧
      DeviceFree s (address s o) (width o.wid) .rd .scalar loc u ∧ loc < peerBase) ∧
    (∃ s : State, ∃ o : OpL4, ∃ loc u, State.Free s ∧ o.spc = 0 ∧ Instr.WellFormed (.st o) ∧
      DeviceFree s (address s o) (width o.wid) .wr .scalar loc u) :=
  ⟨⟨memState, ⟨3, 0, 3, 1, 0⟩, 0x20000, memState, (free_of (by decide +kernel)), rfl, (wf_of (by decide +kernel)), ⟨(by decide +kernel), (by decide +kernel), (by decide +kernel), (ok_of (by decide +kernel))⟩, (by decide +kernel)⟩,
   ⟨memState, ⟨3, 0, 0, 1, 7⟩, 0x20007, memState, (free_of (by decide +kernel)), rfl, (wf_of (by decide +kernel)), ⟨(by decide +kernel), (by decide +kernel), (by decide +kernel), (ok_of (by decide +kernel))⟩⟩⟩

/-- The page of `memState` leads through root port 2 to the address 0x50000 there. -/
def windowState : State := memState.modCore (fun c => { c with tlb := [⟨0, 0x20000, 0x10000, word (0x5600D + 2 ^ 53)⟩] })
theorem meets_windowLoadsAndStores :
    (∃ s : State, ∃ o : OpL4, ∃ port a u, State.Free s ∧ o.spc = 0 ∧ address s o < 2 ^ 54 ∧ address s o % width o.wid = 0 ∧ Instr.WellFormed (.ld o) ∧
      s.scalarWaits 0 (address s o) (width o.wid) false = false ∧ s.xlate (address s o) .rd .scalar = .ok (.drive port a, u) ∧ port = 2) ∧
    (∃ s : State, ∃ o : OpL4, ∃ port a u, State.Free s ∧ o.spc = 0 ∧ address s o < 2 ^ 54 ∧ address s o % width o.wid = 0 ∧ Instr.WellFormed (.st o) ∧
      s.scalarWaits 0 (address s o) (width o.wid) true = false ∧ s.xlate (address s o) .wr .scalar = .ok (.drive port a, u) ∧ a = 0x50007) :=
  ⟨⟨windowState, ⟨3, 0, 3, 1, 0⟩, 2, 0x50000, windowState, (free_of (by decide +kernel)), rfl, (by decide +kernel), (by decide +kernel), (wf_of (by decide +kernel)), (by decide +kernel), (ok_of (by decide +kernel)), rfl⟩,
   ⟨windowState, ⟨3, 0, 0, 1, 7⟩, 2, 0x50007, windowState, (free_of (by decide +kernel)), rfl, (by decide +kernel), (by decide +kernel), (wf_of (by decide +kernel)), (by decide +kernel), (ok_of (by decide +kernel)), rfl⟩⟩

/-- The first address outside, the last aligned one inside, one misaligned, one of another core's region. -/
theorem meets_loadAndStoreChecks :
    (∃ s : State, ∃ o : OpL4, o.spc = 0 ∧ address s o = 2 ^ 54) ∧
    (∃ s : State, ∃ o : OpL4, o.spc.toNat ≠ 0 ∧ address s o + width o.wid = bufSize o.spc.toNat + 1) ∧
    (∃ s : State, ∃ o : OpL4, o.spc = 0 ∧ address s o < 2 ^ 54 ∧ address s o % width o.wid ≠ 0) ∧
    (∃ s : State, ∃ o : OpL4, o.spc.toNat ≠ 0 ∧ address s o + width o.wid ≤ bufSize o.spc.toNat ∧ address s o % width o.wid = 0 ∧
      s.core.notHolder o.spc.toNat (address s o) (width o.wid) = true) :=
  ⟨⟨memState, ⟨3, 0, 0, 4, 0⟩, rfl, (by decide +kernel)⟩, ⟨memState, ⟨3, 1, 1, 3, 0⟩, (by decide +kernel), (by decide +kernel)⟩, ⟨memState, ⟨3, 0, 3, 3, 0⟩, rfl, (by decide +kernel), (by decide +kernel)⟩,
   ⟨memState, ⟨3, 2, 3, 6, 0⟩, (by decide +kernel), (by decide +kernel), (by decide +kernel), (by decide +kernel)⟩⟩

/-- An 8-byte atomic in W and a binary32 sum in device memory. -/
theorem meets_atomics :
    (∃ s : State, ∃ i op o, State.Free s ∧ Instr.WellFormed i ∧ amoForm i = some (op, o) ∧
      BufferFree s o.spc.toNat (s.g o.base).toNat (amoWidth o.sz) true ∧ (s.core.buf o.spc.toNat).wf = true ∧ amoWidth o.sz = 8) ∧
    (∃ s : State, ∃ i op o loc u b, State.Free s ∧ Instr.WellFormed i ∧ amoForm i = some (op, o) ∧ o.spc = 0 ∧
      DeviceFree s (s.g o.base).toNat (amoWidth o.sz) .atm .other loc u ∧ loc % amoWidth o.sz = 0 ∧ LineHome s loc ∧
      s.bd.entry (loc / 64) true s.time = some b ∧ s.mem.wf = true) :=
  ⟨⟨memState, .amoCas ⟨7, 1, 2, 2, 3, 4⟩, 11, ⟨7, 1, 2, 2, 3, 4⟩, (free_of (by decide +kernel)), (wf_of (by decide +kernel)), rfl, ⟨(by decide +kernel), (by decide +kernel), (by decide +kernel), (by decide +kernel), (by decide +kernel)⟩, (by decide +kernel), (by decide +kernel)⟩,
   ⟨memState, .amoFadd ⟨7, 0, 1, 1, 5, 0⟩, 8, ⟨7, 0, 1, 1, 5, 0⟩, 0x20000, memState, _, (free_of (by decide +kernel)), (wf_of (by decide +kernel)), rfl, rfl, ⟨(by decide +kernel), (by decide +kernel), (by decide +kernel), (ok_of (by decide +kernel))⟩, (by decide +kernel),
    ⟨(by decide +kernel), (by decide +kernel), (by decide +kernel), (by decide +kernel), (by decide +kernel), (by decide +kernel), (by decide +kernel), (by decide +kernel)⟩, rfl, (by decide +kernel)⟩⟩

end Sys2Proof.Machine
namespace Sys2Proof.Machine

/-! ### Single results that the spec works out -/

/-- What an instruction leaves, read from the next state. -/
def after {α : Type} (i : Instr) (s : State) (f : State → α) : Option α :=
  match exec i s with
  | .next t => some (f t)
  | _ => none
/-- R100: DIV.W of −2^31 by 3 gives −715,827,882, and REM.W gives −2. -/
theorem test_div_w : (after (.divW ⟨6, 5, 4⟩) scalarState (fun t => t.g (6 : BitVec 6)), after (.remW ⟨6, 5, 4⟩) scalarState (fun t => t.g (6 : BitVec 6))) =
    (some (BitVec.ofInt 64 (-715827882)), some (BitVec.ofInt 64 (-2))) := by decide +kernel
/-- The vectors of the example after R155: keys, payloads, sorted keys, payloads by key, the heads. -/
def exampleVectors : State := (vecState [] 0x00800042 6 id).modF (fun f => { f with
  v := (((f.v.setIfInBounds 1 0x70000000300000001000000070000000300000007).setIfInBounds 2 0x40C0000040A000004080000040400000400000003F800000).setIfInBounds 3
    0x70000000700000007000000030000000300000001).setIfInBounds 4 0x40C00000404000003F80000040A000004000000040800000
  m := f.m.setIfInBounds 2 0xB })
theorem test_sort_with_payload : after (.vsortkP ⟨false, 0, 5, 1, 2, 6, 0, 0, 0⟩) exampleVectors (fun t => (t.core.f.v[5]?.getD 0, t.core.f.v[6]?.getD 0)) =
    some (0x70000000700000007000000030000000300000001, 0x40C00000404000003F80000040A000004000000040800000) := by decide +kernel
theorem test_unique : after (.vuniq ⟨false, 0, 5, 3, 0, 2, 0, 0, 0⟩) exampleVectors (fun t => (t.core.f.v[5]?.getD 0, t.core.f.m[2]?.getD 0)) =
    some (0x70000000300000001, 0xB) := by decide +kernel
theorem test_segment_sum : after (.vsegsum ⟨false, 0, 6, 4, 1, 2, 0, 0, 0⟩) exampleVectors (fun t => t.core.f.v[6]?.getD 0) =
    some 0x4120000040E0000040800000 := by decide +kernel
theorem test_count : after (.mpopcG ⟨7, 2, 0⟩) exampleVectors (fun t => t.g (7 : BitVec 6)) = some 3 := by decide +kernel
/-- R149: with VL = 8 and a stride of 1, the elements 0, 2, 4, 6, 1, 3, 5, 7. -/
theorem test_stride_permutation :
    after (.vsperm ⟨true, 0, 5, 1, 1, 0, 0, 0, 0⟩) ((vecState [(1, 1)] 0x00800042 8 id).modF (fun f => { f with
      v := f.v.setIfInBounds 1 0x700000006000000050000000400000003000000020000000100000000 })) (fun t => t.core.f.v[5]?.getD 0) =
    some 0x700000005000000030000000100000006000000040000000200000000 := by decide +kernel

end Sys2Proof.Machine
namespace Sys2Proof.Machine

/-! ### Control registers, traps, waits -/

/-- STATUS has LTE (bit 8) as given and INH (bit 3) as given; TRAPVEC is 0x1000; g1 = 7, g2 = 513. -/
def trapState (lte inh : Bool) : State :=
  running (fun x => { withG [(1, 7), (2, 513)] x with
    status := word ((if lte then 256 else 0) + (if inh then 8 else 0)), trapvec := 0x1000, epc := 128, vl := 200 })
    (fun c => { c with f := { c.f with lq := c.f.lq.setIfInBounds 2 [600, 3], occ := c.f.occ.setIfInBounds 2 2 } })

/-- The first and the last listed register. -/
theorem meets_sysrd :
    (∃ s : State, ∃ o : OpW2, ∃ v, State.Free s ∧ Instr.WellFormed (.sysrd o) ∧ controlRegister s o.val.toNat = some v ∧ o.val = 0) ∧
    (∃ s : State, ∃ o : OpW2, ∃ v, State.Free s ∧ Instr.WellFormed (.sysrd o) ∧ controlRegister s o.val.toNat = some v ∧ o.val = 0x12) :=
  ⟨⟨trapState true false, ⟨3, 0⟩, 256, (free_of (by decide +kernel)), (wf_of (by decide +kernel)), (by decide +kernel), rfl⟩, ⟨trapState true false, ⟨3, 0x12⟩, 0x7FFFFFFF, (free_of (by decide +kernel)), (wf_of (by decide +kernel)), (by decide +kernel), rfl⟩⟩

/-- STATUS with an empty queue, EPC in a handler, GANG; RNDSEED; EPC outside a handler; VL. -/
theorem meets_syswr :
    (∃ s : State, ∃ o : OpW2, State.Free s ∧ Instr.WellFormed (.syswr o) ∧ o.val.toNat ≠ 7 ∧ o.val.toNat < 16 ∧ (o.val.toNat = 0 → s.core.queue = []) ∧
      (o.val.toNat = 1 ∨ o.val.toNat = 2 → s.slot.status.getLsbD 3 = true) ∧ o.val = 0) ∧
    (∃ s : State, ∃ o : OpW2, State.Free s ∧ Instr.WellFormed (.syswr o) ∧ o.val.toNat ≠ 7 ∧ o.val.toNat < 16 ∧ (o.val.toNat = 0 → s.core.queue = []) ∧
      (o.val.toNat = 1 ∨ o.val.toNat = 2 → s.slot.status.getLsbD 3 = true) ∧ o.val = 2) ∧
    (∃ s : State, ∃ o : OpW2, State.Free s ∧ Instr.WellFormed (.syswr o) ∧ o.val.toNat = 7 ∧ State.Quiet s) ∧
    (∃ s : State, ∃ o : OpW2, State.Free s ∧ Instr.WellFormed (.syswr o) ∧ o.val.toNat = 2 ∧ s.slot.status.getLsbD 3 = false) ∧
    (∃ s : State, ∃ o : OpW2, State.Free s ∧ Instr.WellFormed (.syswr o) ∧ o.val.toNat = 16) :=
  ⟨⟨trapState true false, ⟨1, 0⟩, (free_of (by decide +kernel)), (wf_of (by decide +kernel)), (by decide +kernel), (by decide +kernel), (by decide +kernel), (by decide +kernel), rfl⟩, ⟨trapState true true, ⟨1, 2⟩, (free_of (by decide +kernel)), (wf_of (by decide +kernel)), (by decide +kernel), (by decide +kernel), (by decide +kernel), (by decide +kernel), rfl⟩,
   ⟨trapState true false, ⟨1, 7⟩, (free_of (by decide +kernel)), (wf_of (by decide +kernel)), (by decide +kernel), (quiet_of (by decide +kernel))⟩, ⟨trapState true false, ⟨1, 2⟩, (free_of (by decide +kernel)), (wf_of (by decide +kernel)), (by decide +kernel), (by decide +kernel)⟩, ⟨trapState true false, ⟨1, 16⟩, (free_of (by decide +kernel)), (wf_of (by decide +kernel)), (by decide +kernel)⟩⟩

/-- The premise of a local entry, and each way of missing it: LTE clear, INH set, TRAPVEC naming no line. -/
theorem meets_traps :
    (∃ s : State, s.slot.status.getLsbD 8 = true ∧ s.slot.status.getLsbD 3 = false ∧ 64 ≤ s.slot.trapvec.toNat) ∧
    (∃ s : State, s.slot.status.getLsbD 8 = false) ∧ (∃ s : State, s.slot.status.getLsbD 3 = true) ∧ (∃ s : State, s.slot.trapvec.toNat < 64) ∧
    (∃ o : OpW2, Instr.WellFormed (.trap o)) :=
  ⟨⟨trapState true false, (by decide +kernel), (by decide +kernel), (by decide +kernel)⟩, ⟨trapState false false, (by decide +kernel)⟩, ⟨trapState true true, (by decide +kernel)⟩, ⟨scalarState, (by decide +kernel)⟩, ⟨⟨0, 255⟩, (wf_of (by decide +kernel))⟩⟩

theorem meets_hret :
    (∃ s : State, State.Free s ∧ s.slot.status.getLsbD 3 = false) ∧ (∃ s : State, State.Free s ∧ s.slot.status.getLsbD 3 = true ∧ s.slot.epc.toNat % 2 = 1) ∧
    (∃ s : State, ∃ u, State.Free s ∧ s.slot.status.getLsbD 3 = true ∧ s.slot.epc.toNat % 2 = 0 ∧ Lands s s.slot.epc u) :=
  ⟨⟨trapState true false, (free_of (by decide +kernel)), (by decide +kernel)⟩, ⟨(trapState true true).modSlot (fun x => { x with epc := 129 }), (free_of (by decide +kernel)), (by decide +kernel), (by decide +kernel)⟩,
   ⟨(lineState 0).modSlot (fun x => { x with status := 8, epc := 190 }), (lineState 0).modSlot (fun x => { x with status := 8, epc := 190 }),
    (free_of (by decide +kernel)), (by decide +kernel), (by decide +kernel), lands_of (by decide +kernel) (by decide +kernel)⟩⟩

/-- WAITEV with and without the latch; a wait that began 65,536 cycles ago; HALT with a command of the other slot in the queue. -/
theorem meets_waits :
    (∃ s : State, State.Free s ∧ s.slot.latch = true) ∧ (∃ s : State, s.slot.latch = false) ∧
    (∃ s : State, ∃ cl core slot x t0, x = (State.coreAt s cl core).slot (slot != 0) ∧ x.since = some t0 ∧ t0 + 65536 = s.time ∧ cl + core + slot = 1) ∧
    (∃ s : State, flag (State.slot s).gang 63 = false ∧ (∀ c ∈ s.core.queue, c.hi ≠ s.hi) ∧ s.core.queue ≠ []) :=
  let c : Cmd := { ({ eng := .mat, ins := .nop, lens := [] } : Ticket).entry State.reset with hi := true }
  ⟨⟨scalarState.modSlot (fun x => { x with latch := true }), (free_of (by decide +kernel)), (by decide +kernel)⟩, ⟨scalarState, (by decide +kernel)⟩,
   ⟨{ scalarState.setCoreAt 0 0 { Core.fresh with s1 := { Slot.fresh true with since := some 3 } } with time := 65539 }, 0, 0, 1, _, 3, rfl, (by decide +kernel), (by decide +kernel), rfl⟩,
   ⟨scalarState.modCore (fun k => { k with queue := [c] }), (by decide +kernel), (by decide +kernel), (by decide +kernel)⟩⟩

/-- An operand above VLMAX, a popped count above it, an empty queue, a legal and an illegal image (FMT 0xD). -/
theorem meets_lengths :
    (∃ s : State, ∃ o : OpA2, State.Free s ∧ Instr.WellFormed (.vsetl o) ∧ elementsOf s.slot.vtype < (s.g o.a).toNat) ∧
    (∃ s : State, ∃ o : OpA2, ∃ n l, State.Free s ∧ Instr.WellFormed (.vsetlLq o) ∧ s.core.queue = [] ∧ s.core.f.lq[o.a.toNat]? = some (n :: l) ∧
      0 < s.core.f.occ[o.a.toNat]?.getD 0 ∧ elementsOf s.slot.vtype < n) ∧
    (∃ s : State, ∃ o : OpA2, State.Free s ∧ Instr.WellFormed (.vsetlLq o) ∧ s.core.f.occ[o.a.toNat]?.getD 0 = 0) ∧
    (∃ s : State, ∃ o : OpW4, State.Free s ∧ Instr.WellFormed (.vsett o) ∧ legalType (o.imm.setWidth 64)) ∧
    (∃ s : State, ∃ o : OpW4, State.Free s ∧ Instr.WellFormed (.vsett o) ∧ ¬legalType (o.imm.setWidth 64)) :=
  ⟨⟨trapState true false, ⟨0, 2, 0⟩, (free_of (by decide +kernel)), (wf_of (by decide +kernel)), (by decide +kernel)⟩, ⟨trapState true false, ⟨5, 2, 0⟩, 600, [3], (free_of (by decide +kernel)), (wf_of (by decide +kernel)), (by decide +kernel), (by decide +kernel), (by decide +kernel), (by decide +kernel)⟩,
   ⟨trapState true false, ⟨5, 1, 0⟩, (free_of (by decide +kernel)), (wf_of (by decide +kernel)), (by decide +kernel)⟩, ⟨trapState true false, ⟨5, 0x0080B4C1⟩, (free_of (by decide +kernel)), (wf_of (by decide +kernel)), by unfold legalType; decide +kernel⟩,
   ⟨trapState true false, ⟨5, 0x00800340⟩, (free_of (by decide +kernel)), (wf_of (by decide +kernel)), by unfold legalType; decide +kernel⟩⟩

/-- R137: the image 0x0080_B4C1 gives VLMAX 256 (page VSETT). -/
theorem test_vsett_example : elementsOf 0x0080B4C1 = 256 := by decide +kernel

/-! ### Virtual-processor blocks -/

/-- The line at 256 holds ADD g3, g1, g2 (head 0x4083, tail 0x0081 at the line's end). -/
def addLine : Line := BitVec.ofNat 512 (0x4083 + 0x0081 * 2 ^ 496)
/-- A VFETCH in the queue whose block has VPs at 256, 260 and parked. -/
def blockCmd : Cmd :=
  { ({ eng := .vec, ins := .vfetch ⟨0, 1, 0⟩, lens := [] } : Ticket).entry (vecState [] 0x00800042 3 id) with
    disp := true, block := some ⟨[some 260, some 256, none], Vector.replicate 32 0, [(256, addLine)], []⟩ }
def blockState : State := scalarState.setCoreAt 2 5 { Core.fresh with queue := [blockCmd] }

theorem names_of {s : State} {a : Word} (h : look (lineOf a) s.slot.lines = some nops)
    (i : (match lineSlot nops (slotOf a) with | .ins h x => h == 1 && x == 0 | _ => false) = true) : NamesInstruction s a := by
  intro l u e
  simp only [State.fetchLine, h, Except.ok.injEq, Prod.mk.injEq] at e
  obtain ⟨rfl, -⟩ := e
  generalize lineSlot nops (slotOf a) = r at i
  cases r <;> simp_all
/-- The line at 192 of `lineState` holds one instruction, a long one, in slot 0, or none. -/
def namedState (l : Line) : State := (lineState 0).modSlot (fun x => { x with lines := [(192, l)] })
theorem meets_vpBlocks :
    (∃ s : State, ∃ o, Instr.WellFormed (.vfetch o) ∧ State.Quiet s ∧ s.slot.vl = 0 ∧ NamesInstruction s (named s o.loff o.slot)) ∧
    (∃ s : State, ∃ o, Instr.WellFormed (.vfetch o) ∧ State.Free s ∧ s.core.queue.length < 256 ∧ (s.eager = false ∨ s.core.queue ≠ []) ∧
      NamesInstruction s (named s o.loff o.slot)) ∧
    (∃ s : State, ∃ o l u, Instr.WellFormed (.vfetch o) ∧ State.fetchLine s (lineOf (named s o.loff o.slot)) = .ok (l, u) ∧
      lineSlot l (slotOf (named s o.loff o.slot)) = .overlaps) ∧
    (∃ s : State, ∃ o l u, Instr.WellFormed (.vfetch o) ∧ State.fetchLine s (lineOf (named s o.loff o.slot)) = .ok (l, u) ∧
      lineSlot l (slotOf (named s o.loff o.slot)) = .none ∧ lineSlot l 0 ≠ .none) ∧
    (∃ s : State, ∃ o l u, Instr.WellFormed (.vfetch o) ∧ State.fetchLine s (lineOf (named s o.loff o.slot)) = .ok (l, u) ∧
      lineSlot l (slotOf (named s o.loff o.slot)) = .none ∧ lineSlot l 0 = .none) ∧
    (∃ s : State, ∃ cl core k c, ∃ b : VpBlock, ∃ o a l, ∃ d x y : BitVec 6, k = State.coreAt s cl core ∧ k.queue = [c] ∧ c.ins = .vfetch o ∧ c.disp = true ∧
      c.done = false ∧ c.faulted = false ∧ c.held = false ∧ c.paused = false ∧ c.ep = (k.slot c.hi).ep ∧
      (k.slot c.hi).badLines.contains (lineOf (word a)) = false ∧ c.block = some b ∧ b.round = [] ∧ b.pcs.length ≤ elementsOf c.vtype ∧ a < 2 ^ 64 ∧
      some a ∈ b.pcs ∧ (∀ e, some e ∈ b.pcs → a ≤ e) ∧ look (lineOf (word a)) b.lines = some l ∧ laneIns l (word a) = .ok (.add ⟨d, x, y⟩) ∧
      x.toNat < 32 ∧ y.toNat < 32) :=
  ⟨⟨lineState 0, ⟨0, 1, 0⟩, (wf_of (by decide +kernel)), (quiet_of (by decide +kernel)), (by decide +kernel), names_of (by decide +kernel) (by decide +kernel)⟩, ⟨{ lineState 0 with eager := false }, ⟨0, 1, 0⟩, (wf_of (by decide +kernel)), (free_of (by decide +kernel)), (by decide +kernel), (by decide +kernel), names_of (by decide +kernel) (by decide +kernel)⟩,
   ⟨namedState (nops ^^^ (0x4082 <<< 496)), ⟨0, 1, 31⟩, _, _, (wf_of (by decide +kernel)), rfl, (by decide +kernel)⟩, ⟨namedState addLine, ⟨0, 1, 5⟩, _, _, (wf_of (by decide +kernel)), rfl, (by decide +kernel), (by decide +kernel)⟩, ⟨namedState 0, ⟨0, 1, 0⟩, _, _, (wf_of (by decide +kernel)), rfl, (by decide +kernel), (by decide +kernel)⟩,
   ⟨blockState, 2, 5, _, blockCmd, ⟨[some 260, some 256, none], Vector.replicate 32 0, [(256, addLine)], []⟩, ⟨0, 1, 0⟩, 256, addLine, 3, 1, 2,
    rfl, rfl, rfl, rfl, rfl, rfl, rfl, rfl, rfl, (by decide +kernel), rfl, rfl, (by decide +kernel), (by decide +kernel), (by decide +kernel), by intro e h; simp at h; omega, (by decide +kernel), (ok_of (by decide +kernel)), (by decide +kernel), (by decide +kernel)⟩⟩

end Sys2Proof.Machine
namespace Sys2Proof.Machine

/-! ### Vectors -/

/-- SEW 32, FP32; VL as given; v1 = 3, 1, 3, 0, … and v2 = 1, 2, 0, 0, …; m1 has positions 0, 1, 3; lq0 holds 0 and lq2 holds 128, 3. -/
def lanes (vt : Word) (vl : Nat) : State :=
  vecState [(1, 5), (2, 511), (3, 512), (4, 127), (6, 128)] vt vl (fun c => { c with f := { c.f with
    v := (c.f.v.setIfInBounds 1 (BitVec.ofNat 4096 0x300000001_00000003)).setIfInBounds 2 (BitVec.ofNat 4096 0x200000001)
    m := c.f.m.setIfInBounds 1 0xB
    lq := (c.f.lq.setIfInBounds 0 [0]).setIfInBounds 2 [128, 3], occ := (c.f.occ.setIfInBounds 0 1).setIfInBounds 2 2 } })

/-- A length of 0; VLMAX with a scalar operand and a modifier; a popped length. -/
theorem meets_integerLanes :
    (∃ s : State, ∃ i o f n, State.Quiet s ∧ integerLane i = some (o, f) ∧ LenIs s o.len n ∧ n = 0) ∧
    (∃ s : State, ∃ i o f n, State.Quiet s ∧ integerLane i = some (o, f) ∧ LenIs s o.len n ∧ n = 128 ∧ o.x = true ∧ o.xl = 2) ∧
    (∃ s : State, ∃ i o f n, State.Quiet s ∧ integerLane i = some (o, f) ∧ LenIs s o.len n ∧ n = 128 ∧ o.len = 6) :=
  ⟨⟨lanes 0x00800042 0, .vadd ⟨false, 0, 3, 1, 2, 0, 1, 0, 0⟩, _, _, 0, (quiet_of (by decide +kernel)), rfl, len_vl (by decide), rfl⟩,
   ⟨lanes 0x00800042 128, .vssub ⟨true, 2, 1, 1, 1, 2, 1, 0, 2⟩, _, _, 128, (quiet_of (by decide +kernel)), rfl, len_vl (by decide), rfl, rfl, rfl⟩,
   ⟨lanes 0x00800042 1, .vsra ⟨false, 0, 3, 1, 2, 0, 0, 6, 0⟩, _, _, 128, (quiet_of (by decide +kernel)), rfl, (len_lq (by decide +kernel)), rfl, rfl⟩⟩

theorem meets_ramp : ∃ s : State, ∃ o : OpI8, ∃ n, State.Quiet s ∧ LenIs s o.len n ∧ n = 512 :=
  ⟨lanes 0x00800100 512, ⟨3, 0xFFFFFF, 2, 1, 0⟩, 512, (quiet_of (by decide +kernel)), len_vl (by decide), rfl⟩

/-- Each format that the lanes take, at its ends 0x0 and 0x3, and the first that traps. -/
theorem meets_floatLanes :
    (∃ s : State, ∃ i o f n, State.Quiet s ∧ floatLane s.slot.vtype i = some (o, f) ∧ LenIs s o.len n ∧ vtFmt s.slot.vtype = 0) ∧
    (∃ s : State, ∃ i o f n, State.Quiet s ∧ floatLane s.slot.vtype i = some (o, f) ∧ LenIs s o.len n ∧ vtFmt s.slot.vtype = 3) ∧
    (∃ s : State, ∃ i o f n, State.Quiet s ∧ floatLane s.slot.vtype i = some (o, f) ∧ LenIs s o.len n ∧ vtFmt s.slot.vtype = 4) :=
  ⟨⟨lanes 0x00800003 64, .vfma ⟨false, 0, 3, 1, 2, 4, 1, 0, 0⟩, _, _, 64, (quiet_of (by decide +kernel)), rfl, len_vl (by decide), by decide +kernel⟩,
   ⟨lanes 0x008000C1 256, .vftanh ⟨false, 0, 3, 1, 0, 0, 1, 0, 0⟩, _, _, 256, (quiet_of (by decide +kernel)), rfl, len_vl (by decide), by decide +kernel⟩,
   ⟨lanes 0x00800100 1, .vfadd ⟨false, 0, 3, 1, 2, 0, 1, 0, 0⟩, _, _, 1, (quiet_of (by decide +kernel)), rfl, len_vl (by decide), by decide +kernel⟩⟩

/-- The destinations m7 and m0; a strict floating compare. -/
theorem meets_compares :
    (∃ s : State, ∃ i o p n, State.Quiet s ∧ integerCompare i = some (o, p) ∧ Instr.WellFormed i ∧ LenIs s o.len n ∧ o.d = 7) ∧
    (∃ s : State, ∃ i o p n, State.Quiet s ∧ integerCompare i = some (o, p) ∧ Instr.WellFormed i ∧ LenIs s o.len n ∧ o.d = 0) ∧
    (∃ s : State, ∃ i o un p n, State.Quiet s ∧ floatCompare i = some (o, un, p, true) ∧ Instr.WellFormed i ∧ LenIs s o.len n ∧ vtFmt s.slot.vtype ≤ 3) :=
  ⟨⟨lanes 0x00800042 128, .vcmpLt ⟨false, 0, 7, 1, 2, 0, 1, 0, 0⟩, _, _, 128, (quiet_of (by decide +kernel)), rfl, (wf_of (by decide +kernel)), len_vl (by decide), rfl⟩,
   ⟨lanes 0x00800042 128, .vcmpGeu ⟨true, 0, 0, 1, 1, 0, 1, 0, 0⟩, _, _, 128, (quiet_of (by decide +kernel)), rfl, (wf_of (by decide +kernel)), len_vl (by decide), rfl⟩,
   ⟨lanes 0x00800042 128, .vfcmpGe ⟨false, 0, 7, 1, 2, 0, 1, 0, 0⟩, _, _, _, 128, (quiet_of (by decide +kernel)), rfl, (wf_of (by decide +kernel)), len_vl (by decide), (by decide +kernel)⟩⟩

/-- Mask logic; a count pushed as the sixteenth of its queue; a count to g0; the last element of a register and the first beyond it. -/
theorem meets_masks :
    (∃ s : State, ∃ i o f, State.Quiet s ∧ maskLogic i = some (o, f) ∧ Instr.WellFormed i ∧ s.slot.vl = 128) ∧
    (∃ s : State, ∃ o : OpA2, State.Quiet s ∧ Instr.WellFormed (.mpopcLq o) ∧ s.core.f.occ[o.d.toNat]?.getD 0 = 15) ∧
    (∃ s : State, ∃ o : OpA2, State.Free s ∧ s.core.queue = [] ∧ Instr.WellFormed (.mpopcG o) ∧ o.d = 0) ∧
    (∃ s : State, ∃ o : OpA2, State.Free s ∧ s.core.queue = [] ∧ Instr.WellFormed (.vmvx o) ∧ (s.g o.b).toNat + 1 = vlmax (vtSew s.slot.vtype)) ∧
    (∃ s : State, ∃ o : OpA2, State.Free s ∧ s.core.queue = [] ∧ Instr.WellFormed (.vmvxU o) ∧ vlmax (vtSew s.slot.vtype) = (s.g o.b).toNat) :=
  ⟨⟨lanes 0x00800042 128, .mandn ⟨3, 0, 1⟩, _, _, (quiet_of (by decide +kernel)), rfl, (wf_of (by decide +kernel)), (by decide +kernel)⟩,
   ⟨(lanes 0x00800042 128).modF (fun f => { f with occ := f.occ.setIfInBounds 3 15, lq := f.lq.setIfInBounds 3 (List.replicate 15 0) }),
    ⟨3, 1, 0⟩, (quiet_of (by decide +kernel)), (wf_of (by decide +kernel)), (by decide +kernel)⟩,
   ⟨lanes 0x00800042 128, ⟨0, 1, 0⟩, (free_of (by decide +kernel)), (by decide +kernel), (wf_of (by decide +kernel)), rfl⟩, ⟨lanes 0x00800042 128, ⟨3, 1, 4⟩, (free_of (by decide +kernel)), (by decide +kernel), (wf_of (by decide +kernel)), (by decide +kernel)⟩,
   ⟨lanes 0x00800042 128, ⟨3, 1, 6⟩, (free_of (by decide +kernel)), (by decide +kernel), (wf_of (by decide +kernel)), (by decide +kernel)⟩⟩

/-- Compaction under m1; a permutation of one position and of 512. -/
theorem meets_moves :
    (∃ s : State, ∃ i o f n, State.Quiet s ∧ Instr.WellFormed i ∧ LenIs s o.len n ∧ movedElem s (lengthOf s o.len n) i = some (o, f)) ∧
    (∃ s : State, ∃ o : OpV4, ∃ n b, State.Quiet s ∧ Instr.WellFormed (.vsperm o) ∧ LenIs s o.len n ∧ lengthOf s o.len n = 2 ^ b ∧ b = 0) ∧
    (∃ s : State, ∃ o : OpV4, ∃ n b, State.Quiet s ∧ Instr.WellFormed (.vsperm o) ∧ LenIs s o.len n ∧ lengthOf s o.len n = 2 ^ b ∧ b = 9) :=
  ⟨⟨lanes 0x00800042 128, .vcomp ⟨false, 0, 3, 1, 0, 0, 1, 0, 0⟩, _, _, 128, (quiet_of (by decide +kernel)), (wf_of (by decide +kernel)), len_vl (by decide), rfl⟩,
   ⟨lanes 0x00800042 1, ⟨true, 0, 3, 1, 1, 0, 1, 0, 0⟩, 1, 0, (quiet_of (by decide +kernel)), (wf_of (by decide +kernel)), len_vl (by decide), by decide +kernel, rfl⟩,
   ⟨lanes 0x00800100 512, ⟨true, 0, 3, 1, 1, 0, 1, 0, 0⟩, 512, 9, (quiet_of (by decide +kernel)), (wf_of (by decide +kernel)), len_vl (by decide), by decide +kernel, rfl⟩⟩

/-- A sum with its start operand, a maximum of no element, an unsigned maximum and a signed minimum over m1. -/
theorem meets_integerReductions :
    (∃ s : State, ∃ o : OpV4, ∃ n x, State.Quiet s ∧ LenIs s o.len n ∧ x = (summands s o (lengthOf s o.len n)).sum ∧ o.opx = 2) ∧
    (∃ s : State, ∃ o : OpV4, ∃ n, State.Quiet s ∧ LenIs s o.len n ∧ summands s o (lengthOf s o.len n) = []) ∧
    (∃ s : State, ∃ o : OpV4, ∃ n x, State.Quiet s ∧ LenIs s o.len n ∧ x ∈ summands s o (lengthOf s o.len n) ∧
      ∀ y ∈ summands s o (lengthOf s o.len n), if o.opx.getLsbD 0 then y ≤ x else signedElem (vtSew s.slot.vtype) y ≤ signedElem (vtSew s.slot.vtype) x) ∧
    (∃ s : State, ∃ o : OpV4, ∃ n x, State.Quiet s ∧ LenIs s o.len n ∧ x ∈ summands s o (lengthOf s o.len n) ∧
      ∀ y ∈ summands s o (lengthOf s o.len n), if o.opx.getLsbD 0 then x ≤ y else signedElem (vtSew s.slot.vtype) x ≤ signedElem (vtSew s.slot.vtype) y) :=
  ⟨⟨lanes 0x00800042 128, ⟨false, 2, 3, 1, 0, 2, 1, 0, 0⟩, 128, _, (quiet_of (by decide +kernel)), len_vl (by decide), rfl, rfl⟩,
   ⟨lanes 0x00800042 128, ⟨false, 0, 3, 1, 0, 2, 2, 0, 0⟩, 128, (quiet_of (by decide +kernel)), len_vl (by decide), by decide +kernel⟩,
   ⟨lanes 0x00800042 128, ⟨false, 1, 3, 1, 0, 2, 1, 0, 0⟩, 128, 3, (quiet_of (by decide +kernel)), len_vl (by decide), (by decide +kernel), (by decide +kernel)⟩,
   ⟨lanes 0x00800042 128, ⟨false, 0, 3, 1, 0, 2, 1, 0, 0⟩, 128, 0, (quiet_of (by decide +kernel)), len_vl (by decide), (by decide +kernel), (by decide +kernel)⟩⟩

theorem meets_floatReductions :
    (∃ s : State, ∃ o : OpV4, ∃ n, State.Quiet s ∧ LenIs s o.len n ∧ vtFmt s.slot.vtype ≤ 3 ∧ n = 0) ∧
    (∃ s : State, ∃ i, ∃ o : OpV4, ∃ n, State.Quiet s ∧ LenIs s o.len n ∧ vtFmt s.slot.vtype ≤ 3 ∧ i = .vargmin o ∧ Instr.WellFormed i ∧
      lengthOf s o.len n ≠ 0) :=
  ⟨⟨lanes 0x00800042 0, ⟨false, 2, 3, 1, 0, 2, 1, 0, 0⟩, 0, (quiet_of (by decide +kernel)), len_vl (by decide), (by decide +kernel), rfl⟩,
   ⟨lanes 0x00800042 128, _, ⟨false, 0, 3, 1, 4, 0, 1, 0, 0⟩, 128, (quiet_of (by decide +kernel)), len_vl (by decide), (by decide +kernel), rfl, (wf_of (by decide +kernel)), by decide +kernel⟩⟩

/-- The running sums of a VSCAN under .F, and a VSEGSUM. -/
theorem meets_scans :
    (∃ s : State, ∃ o : OpV4, ∃ n, ∃ p : Nat → Option Nat, State.Quiet s ∧ LenIs s o.len n ∧ (o.b.getLsbD 0 = true → vtFmt s.slot.vtype ≤ 3) ∧
      p 0 = (if o.opx.getLsbD 1 then some (elem (s.vreg o.c.toNat) (vtSew s.slot.vtype) 0) else none) ∧
      ∀ e, p (e + 1) = if (s.mreg o.msk.toNat).getLsbD e then
        (match p e with
         | none => some (elem (s.vreg o.a.toNat) (vtSew s.slot.vtype) e)
         | some x => some (scanSum s.slot.vtype o x (elem (s.vreg o.a.toNat) (vtSew s.slot.vtype) e)).1) else p e) ∧
    (∃ s : State, ∃ o : OpV4, ∃ n, State.Quiet s ∧ Instr.WellFormed (.vsegsum o) ∧ LenIs s o.len n ∧ (o.b.getLsbD 0 = true → vtFmt s.slot.vtype ≤ 3)) :=
  ⟨⟨lanes 0x00800042 128, ⟨false, 2, 3, 1, 1, 2, 1, 0, 0⟩, 128, fun e => Nat.rec (some (elem ((lanes 0x00800042 128).vreg 2) 32 0)) (fun e r =>
      if ((lanes 0x00800042 128).mreg 1).getLsbD e then (match r with
        | none => some (elem ((lanes 0x00800042 128).vreg 1) 32 e)
        | some x => some (scanSum (lanes 0x00800042 128).slot.vtype ⟨false, 2, 3, 1, 1, 2, 1, 0, 0⟩ x
            (elem ((lanes 0x00800042 128).vreg 1) 32 e)).1) else r) e,
     (quiet_of (by decide +kernel)), len_vl (by decide), (by decide +kernel), (by decide +kernel), fun _ => rfl⟩,
   ⟨lanes 0x00800042 128, ⟨false, 0, 3, 1, 1, 1, 0, 0, 0⟩, 128, (quiet_of (by decide +kernel)), (wf_of (by decide +kernel)), len_vl (by decide), (by decide +kernel)⟩⟩

theorem meets_sorts :
    (∃ s : State, ∃ i, ∃ o : OpV4, ∃ n, State.Quiet s ∧ LenIs s o.len n ∧ i = .vsortkP o ∧ Instr.WellFormed i) ∧
    (∃ s : State, ∃ i, ∃ o : OpV4, ∃ n, State.Quiet s ∧ LenIs s o.len n ∧ i = .vsortk o ∧ Instr.WellFormed i) ∧
    (∃ s : State, ∃ o : OpV4, ∃ n, State.Quiet s ∧ Instr.WellFormed (.vuniq o) ∧ LenIs s o.len n) :=
  ⟨⟨lanes 0x00800042 128, _, ⟨false, 0, 3, 1, 2, 4, 1, 0, 0⟩, 128, (quiet_of (by decide +kernel)), len_vl (by decide), rfl, (wf_of (by decide +kernel))⟩,
   ⟨lanes 0x00800042 0, _, ⟨false, 0, 3, 1, 0, 0, 1, 0, 0⟩, 0, (quiet_of (by decide +kernel)), len_vl (by decide), rfl, (wf_of (by decide +kernel))⟩,
   ⟨lanes 0x00800042 128, ⟨false, 0, 3, 1, 0, 2, 1, 0, 0⟩, 128, (quiet_of (by decide +kernel)), (wf_of (by decide +kernel)), len_vl (by decide)⟩⟩

/-- FP32 to FP16 with stochastic rounding; FP32 to BFP16 at a length of one block. -/
theorem meets_conversions :
    (∃ s : State, ∃ o : OpG8, ∃ n k m, State.Quiet s ∧ Instr.WellFormed (.vcvt o) ∧ LenIs s o.len n ∧ m = cvtMode o s.slot.vtype ∧
      k = boundLen (max m.sw m.tw) o.len n ∧ k ≤ vlmax (max m.sw m.tw) ∧
      ((m.sInt = false ∧ m.src = 0xB ∨ m.tInt = false ∧ m.tgt = 0xB) → k % 32 = 0) ∧ m.rm = 4 ∧ k = 128) ∧
    (∃ s : State, ∃ o : OpG8, ∃ n k m, State.Quiet s ∧ Instr.WellFormed (.vcvt o) ∧ LenIs s o.len n ∧ m = cvtMode o s.slot.vtype ∧
      k = boundLen (max m.sw m.tw) o.len n ∧ k ≤ vlmax (max m.sw m.tw) ∧
      ((m.sInt = false ∧ m.src = 0xB ∨ m.tInt = false ∧ m.tgt = 0xB) → k % 32 = 0) ∧ m.tgt = 0xB ∧ k = 32) :=
  ⟨⟨lanes 0x00800042 128, ⟨3, 1, 0, 0, 1, 0, 0x00000C21⟩, 128, 128, _, (quiet_of (by decide +kernel)), (wf_of (by decide +kernel)), len_vl (by decide), rfl, (by decide +kernel), (by decide +kernel), (by decide +kernel), (by decide +kernel), rfl⟩,
   ⟨lanes 0x00800042 32, ⟨3, 1, 4, 0, 1, 0, 0x000000B1⟩, 32, 32, _, (quiet_of (by decide +kernel)), (wf_of (by decide +kernel)), len_vl (by decide), rfl, (by decide +kernel), (by decide +kernel), (by decide +kernel), (by decide +kernel), rfl⟩⟩

end Sys2Proof.Machine
namespace Sys2Proof.Machine

/-! ### Vector memory -/

/-- A vector state of four 32-bit elements over the page of memState; g1 = 0x20000, g2 = 64, g5 = 4; m1 has positions 0, 1, 3; v4 = 0, 0, 2, 1. -/
def vmState (vt : Word) (vl : Nat) : State :=
  (memState.modSlot (fun x => { withG [(5, 4), (6, 0x7FFC0)] x with vtype := vt, vl := vl })).modF (fun f => { f with
    v := (f.v.setIfInBounds 1 0xDDDDDDDDCCCCCCCCBBBBBBBBAAAAAAAA).setIfInBounds 4 0x1000000020000000000000000, m := f.m.setIfInBounds 1 0xB })

/-- The hypotheses of VectorLoads. -/
def LoadPremise (s : State) (i : Instr) (o : OpM4) (w : Nat) (l : Layout) (n : Nat) (loc : Nat → Nat) : Prop :=
  State.Quiet s ∧ Instr.WellFormed i ∧ layoutOf s i = some (o, w, l) ∧ LenIs s o.len n ∧
  (∀ o', i ≠ .vst o' ∧ i ≠ .vsts o' ∧ i ≠ .vstx o' ∧ i ≠ .vstbp o') ∧ lengthFits s (lengthOf s o.len n) i ∧
  ∀ e ∈ activeBelow s o.msk (lengthOf s o.len n), ∀ a ∈ l.accesses e, Reaches s o.spc a.1 a.2 .rd (loc a.1) ∧ Readable s o.spc a.2 (loc a.1)

/-- VLDS from device memory; VLDBP of 8 planes from W; VLDK of 64 scales up to W's last byte. -/
theorem meets_vectorLoads :
    (∃ s : State, ∃ i o w l n loc, LoadPremise s i o w l n loc ∧ o.spc = 0 ∧ n = 4) ∧ (∃ s : State, ∃ i o w l n loc, LoadPremise s i o w l n loc ∧ i = .vldbp o ∧ n = 8) ∧
    (∃ s : State, ∃ i o w l n loc, LoadPremise s i o w l n loc ∧ i = .vldk o ∧ n = 64) :=
  ⟨⟨vmState 0x00800042 4, .vlds ⟨3, 0, 1, 5, 1, 0⟩, _, _, _, 4, id, ⟨(quiet_of (by decide +kernel)), (wf_of (by decide +kernel)), rfl, len_vl (by decide), fun _ => ⟨nofun, nofun, nofun, nofun⟩, trivial,
    reaches_dev (by decide +kernel)⟩, rfl, rfl⟩,
   ⟨vmState 0x00800280 8, .vldbp ⟨3, 1, 2, 5, 1, 0⟩, _, _, _, 8, id, ⟨(quiet_of (by decide +kernel)), (wf_of (by decide +kernel)), rfl, len_vl (by decide), fun _ => ⟨nofun, nofun, nofun, nofun⟩,
    ⟨by decide +kernel, by decide +kernel⟩, reaches_buf (by decide) (by decide +kernel)⟩, rfl, rfl⟩,
   ⟨(vmState 0x00800042 64).modSlot (withG [(7, 1)]), .vldk ⟨3, 1, 6, 7, 0, 0⟩, _, _, _, 64, id, ⟨(quiet_of (by decide +kernel)), (wf_of (by decide +kernel)), rfl, len_vl (by decide),
    fun _ => ⟨nofun, nofun, nofun, nofun⟩, (by decide : 64 ≤ 256), reaches_buf (by decide) (by decide +kernel)⟩, rfl, rfl⟩⟩

/-- The hypotheses of VectorStores. -/
def StorePremise (s : State) (i : Instr) (o : OpM4) (w : Nat) (l : Layout) (n : Nat) (loc : Nat → Nat) : Prop :=
  State.Quiet s ∧ Instr.WellFormed i ∧ layoutOf s i = some (o, w, l) ∧ LenIs s o.len n ∧
  (∃ o', i = .vst o' ∨ i = .vsts o' ∨ i = .vstx o' ∨ i = .vstbp o') ∧ lengthFits s (lengthOf s o.len n) i ∧ (∀ spc, (s.core.buf spc).wf = true) ∧
  ∀ e ∈ activeBelow s o.msk (lengthOf s o.len n), ∀ a ∈ l.accesses e, Reaches s o.spc a.1 a.2 .wr (loc a.1) ∧
    (rereads s i → Readable s o.spc a.2 (loc a.1)) ∧ ∀ b ∈ l.accesses e, loc a.1 = loc b.1 → a.1 = b.1 ∨ ∃ p, i = .vstbp p

theorem bufs_wf {s : State} (h : (s.core.w.wf && s.core.a.wf && s.core.c.wf) = true) : ∀ spc, (s.core.buf spc).wf = true := by
  intro spc; simp only [Bool.and_eq_true] at h; unfold Core.buf; split
  · exact h.1.1
  · exact h.1.2
  · exact h.2
  · rfl

/-- VSTX whose positions 0 and 1 name one address; VSTBP of 2 planes. -/
theorem meets_vectorStores :
    (∃ s : State, ∃ i o w l n loc, StorePremise s i o w l n loc ∧ o.spc = 2) ∧ (∃ s : State, ∃ i o w l n loc, StorePremise s i o w l n loc ∧ i = .vstbp o) :=
  ⟨⟨vmState 0x00800042 4, .vstx ⟨1, 2, 2, 4, 0, 0⟩, _, _, _, 4, id, ⟨(quiet_of (by decide +kernel)), (wf_of (by decide +kernel)), rfl, len_vl (by decide), ⟨_, .inr (.inr (.inl rfl))⟩, trivial, bufs_wf (by decide +kernel),
    fun e he a ha => ⟨(reaches_buf (by decide) (by decide +kernel) e he a ha).1, nofun, fun b hb h => .inl h⟩⟩, rfl⟩,
   ⟨vmState 0x00200280 8, .vstbp ⟨1, 1, 2, 5, 0, 0⟩, _, _, _, 8, id, ⟨(quiet_of (by decide +kernel)), (wf_of (by decide +kernel)), rfl, len_vl (by decide), ⟨_, .inr (.inr (.inr rfl))⟩,
    ⟨by decide +kernel, by decide +kernel⟩, bufs_wf (by decide +kernel),
    fun e he a ha => ⟨(reaches_buf (by decide) (by decide +kernel) e he a ha).1,
      fun _ => (reaches_buf (acc := .rd) (by decide) (by decide +kernel) e he a ha).2, fun b hb h => .inl h⟩⟩, rfl⟩⟩

/-- The hypotheses of VectorAtomicsOnBuffers and of VectorAtomicsOnMemory. -/
def AtomicPremise (s : State) (i : Instr) (v : VectorAtomic) (n : Nat) (loc : Nat → Nat) : Prop :=
  State.Quiet s ∧ Instr.WellFormed i ∧ vectorAtomic s i = some v ∧ LenIs s v.len n ∧
  (if v.spc = 0 then s.mem.wf = true ∧ ∀ e ∈ activeBelow s v.msk (lengthOf s v.len n), Reaches s v.spc (v.ad e) (v.w / 8) .atm (loc e) ∧
      loc e % (v.w / 8) = 0 ∧ LineHome s (loc e)
   else (s.core.buf v.spc.toNat).wf = true ∧ ∀ e ∈ activeBelow s v.msk (lengthOf s v.len n), Reaches s v.spc (v.ad e) (v.w / 8) .atm (loc e))

/-- A scatter-add in C that meets an address twice; a swap in device memory with RET; a sum without RET whose count comes to 65,535. -/
theorem meets_vectorAtomics :
    (∃ s : State, ∃ i v n loc, AtomicPremise s i v n loc ∧ v.spc = 3) ∧ (∃ s : State, ∃ i v n loc, AtomicPremise s i v n loc ∧ v.spc = 0 ∧ v.ret ≠ none ∧
      ∃ b, entered s.time ((activeBelow s v.msk (lengthOf s v.len n)).map (fun e => loc e / 64)) s.bd = some b) ∧
    (∃ s : State, ∃ i v n loc, AtomicPremise s i v n loc ∧ v.spc = 0 ∧ v.ret = none ∧ s.slot.rfout + (activeBelow s v.msk (lengthOf s v.len n)).length = 65535) :=
  ⟨⟨vmState 0x00800042 4, .vscadd ⟨1, 3, 2, 4, 1, 0⟩, _, 4, fun e => placed 64 (elem ((vmState 0x00800042 4).vreg 4) 32 e) 4,
    ⟨(quiet_of (by decide +kernel)), (wf_of (by decide +kernel)), rfl, len_vl (by decide), (by decide +kernel), fun e he => (reaches_buf (s := vmState 0x00800042 4) (spc := 3) (els := activeBelow (vmState 0x00800042 4) 1 4)
      (acs := fun e => [(placed 64 (elem ((vmState 0x00800042 4).vreg 4) 32 e) 4, 4)]) (by decide) (by decide +kernel) e he _ (List.mem_singleton.2 rfl)).1⟩, rfl⟩,
   ⟨vmState 0x00800042 1, .vamoSwap ⟨3, 1, 0, 0, 0, 0, 1, true, 1, 0⟩, _, 1, fun _ => 0x20000, ⟨(quiet_of (by decide +kernel)), (wf_of (by decide +kernel)), rfl, len_vl (by decide), (by decide +kernel), by
      intro e he; have : e = 0 := by revert e; decide +kernel
      subst this; exact ⟨⟨(by decide +kernel), (by decide +kernel), (ok_of (by decide +kernel))⟩, by decide, ⟨(by decide +kernel), (by decide +kernel), (by decide +kernel), (by decide +kernel), (by decide +kernel), (by decide +kernel), (by decide +kernel), (by decide +kernel)⟩⟩⟩, rfl, by simp, Option.isSome_iff_exists.mp (by decide +kernel)⟩,
   ⟨(vmState 0x00800042 1).modSlot (fun x => { x with rfout := 65534 }), .vamoAdd ⟨0, 1, 0, 0, 0, 0, 1, false, 1, 0⟩, _, 1, fun _ => 0x20000,
    ⟨(quiet_of (by decide +kernel)), (wf_of (by decide +kernel)), rfl, len_vl (by decide), (by decide +kernel), by
      intro e he; have : e = 0 := by revert e; decide +kernel
      subst this; exact ⟨⟨(by decide +kernel), (by decide +kernel), (ok_of (by decide +kernel))⟩, by decide, ⟨(by decide +kernel), (by decide +kernel), (by decide +kernel), (by decide +kernel), (by decide +kernel), (by decide +kernel), (by decide +kernel), (by decide +kernel)⟩⟩⟩, rfl, rfl, by decide +kernel⟩⟩

end Sys2Proof.Machine
namespace Sys2Proof.Machine

/-! ### The matrix array -/

/-- SEW 32, FP32, VL 128; a function node 16 of mode 1 (cfgType 4) is configured; g1 = 0, g2 = 64, g3 = 2, g4 = 127, g5 = 128, g6 = 96, g7 = 2^20. -/
def chainNode : Node := Node.ofWord (BitVec.ofNat 256 (16 * 2 ^ 251 + 4 * 2 ^ 248 + 2 ^ 243)) 0
/-- See `chainNode`. -/
def matState (vt : Word) : State :=
  (running (fun x => { withG [(2, 64), (3, 2), (4, 127), (5, 128), (6, 96), (7, 0x10000)] x with vtype := vt, vl := 128 }) (fun c => { c with
    f := { c.f with lq := c.f.lq.setIfInBounds 2 [128, 96], occ := c.f.occ.setIfInBounds 2 2 }
    st := { c.st with graph := { c.st.graph with state := .idle, nodes := [(16, chainNode)] } } }))

/-- The absent unit of the -S variant; a clash of block scales with FP16; a product of FP32 whose lengths pop one queue twice. -/
theorem meets_outerProducts :
    (∃ s : State, ∃ i, ∃ o : OpM8, Instr.WellFormed i ∧ i = .opsub o ∧ s.full = false ∧ o.fa = 0) ∧
    (∃ s : State, ∃ i, ∃ o : OpM8, Instr.WellFormed i ∧ i = .opacc o ∧ (s.full = true ∨ o.fa ≠ 0) ∧ blkClash s.slot.vtype o.fa.toNat o.fb.toNat = true) ∧
    (∃ s : State, ∃ i, ∃ o : OpM8, ∃ na nb, Instr.WellFormed i ∧ i = .opacc o ∧ State.Quiet s ∧ (s.full = true ∨ o.fa ≠ 0) ∧
      blkClash s.slot.vtype o.fa.toNat o.fb.toNat = false ∧ PairIs s o.la o.lb na nb ∧ (na, nb) = (128, 96)) ∧
    (∃ s : State, ∃ i, ∃ o : OpM8, ∃ na nb, Instr.WellFormed i ∧ i = .opsub o ∧ State.Quiet s ∧ (s.full = true ∨ o.fa ≠ 0) ∧
      blkClash s.slot.vtype o.fa.toNat o.fb.toNat = false ∧ PairIs s o.la o.lb na nb ∧ o.fa = 0) :=
  ⟨⟨{ matState 0x00800042 with variant := .kwenulosS }, _, ⟨3, 0, 0, 0, 0, 2, 4, 0, 0, 0, 0⟩, (wf_of (by decide +kernel)), rfl, (by decide +kernel), rfl⟩,
   ⟨matState 0x00801442, _, ⟨3, 2, 2, 0, 0, 2, 4, 0, 0, 0, 0⟩, (wf_of (by decide +kernel)), rfl, (by decide +kernel), (by decide +kernel)⟩,
   ⟨matState 0x00800042, _, ⟨3, 1, 1, 0, 0, 2, 4, 0, 0, 6, 6⟩, 128, 96, (wf_of (by decide +kernel)), rfl, (quiet_of (by decide +kernel)), (by decide +kernel), (by decide +kernel), by unfold PairIs LenIs; decide +kernel, rfl⟩,
   ⟨matState 0x00800042, _, ⟨3, 0, 0, 0, 0, 2, 4, 0, 0, 0, 0⟩, 128, 128, (wf_of (by decide +kernel)), rfl, (quiet_of (by decide +kernel)), (by decide +kernel), (by decide +kernel), by unfold PairIs LenIs; decide +kernel, rfl⟩⟩

/-- An MTILE of 128 × 96 in two steps; one of its steps under way. -/
def mtileOp : OpG8 := ⟨1, 1, 2, 3, 0, 0, BitVec.ofNat 32 (127 + 95 * 128 + 0x11 * 2 ^ 24)⟩
def mtileCmd : Cmd :=
  { ({ eng := .mat, ins := .mtile mtileOp, lens := [], gb := 0x10000, gc := 2 } : Ticket).entry (matState 0x00800042) with disp := true, resume := 1 }
theorem meets_mtile :
    (∃ s : State, ∃ o : OpG8, State.Quiet s ∧ Instr.WellFormed (.mtile o) ∧ TileReady s o (s.g o.c).toNat) ∧
    (∃ s : State, ∃ u cl core, ∃ o : OpG8, ∃ c : Cmd, u = State.at_ s cl core false ∧ Instr.WellFormed (.mtile o) ∧ u.core.queue = [c] ∧ c.ins = .mtile o ∧
      c.disp = true ∧ c.done = false ∧ c.faulted = false ∧ c.held = false ∧ c.paused = false ∧ c.ep = (u.core.slot c.hi).ep ∧ 0 < c.resume ∧
      c.resume < c.gc.toNat / outDepth (mtileF o).fa (mtileF o).fb 8 ∧ o.d.toNat < 4) :=
  ⟨⟨matState 0x00800042, mtileOp, (quiet_of (by decide +kernel)), (wf_of (by decide +kernel)), ⟨(by decide +kernel), (by decide +kernel), (by decide +kernel), (by decide +kernel), (by decide +kernel), (by decide +kernel), (by decide +kernel)⟩⟩,
   ⟨scalarState.setCoreAt 1 7 { Core.fresh with queue := [mtileCmd] }, _, 1, 7, mtileOp, mtileCmd, rfl, (wf_of (by decide +kernel)), rfl, rfl, rfl, rfl, rfl, rfl, rfl, rfl,
    (by decide +kernel), (by decide +kernel), (by decide +kernel)⟩⟩

/-- MLDT and MSTT at the last place of the W buffer; a row move at row 127 of a1 and at row 128; a column move into column 95. -/
theorem meets_tiles :
    (∃ s : State, ∃ o : OpMT, ∃ loc : Nat → Nat, State.Quiet s ∧ Instr.WellFormed (.mldt o) ∧ (s.full = true ∨ o.f64 = false) ∧ (s.g o.base).toNat % 64 = 0 ∧
      (o.spc ≠ 0 → (s.g o.base).toNat + 49152 ≤ bufSize o.spc.toNat) ∧
      ∀ l, l < 768 → Reaches s o.spc ((s.g o.base).toNat + 64 * l) 64 .rd (loc l) ∧ Readable s o.spc 64 (loc l)) ∧
    (∃ s : State, ∃ o : OpMT, ∃ loc : Nat → Nat, State.Quiet s ∧ Instr.WellFormed (.mstt o) ∧ (s.full = true ∨ o.f64 = false) ∧ (s.g o.base).toNat % 64 = 0 ∧
      (o.spc ≠ 0 → (s.g o.base).toNat + 49152 ≤ bufSize o.spc.toNat) ∧ (∀ spc, (s.core.buf spc).wf = true) ∧
      ∀ l, l < 768 → Reaches s o.spc ((s.g o.base).toNat + 64 * l) 64 .wr (loc l)) ∧
    (∃ s : State, ∃ i o ext lim out w, tileMove i = some (o, ext, lim, out, w) ∧ Instr.WellFormed i ∧ lim = (State.g s o.b).toNat) ∧
    (∃ s : State, ∃ i o ext lim out w n, tileMove i = some (o, ext, lim, out, w) ∧ Instr.WellFormed i ∧ State.Quiet s ∧ (s.g o.b).toNat + 1 = lim ∧ LenIs s o.len n ∧
      out = true) ∧
    (∃ s : State, ∃ i o ext lim out w n, tileMove i = some (o, ext, lim, out, w) ∧ Instr.WellFormed i ∧ State.Quiet s ∧ (s.g o.b).toNat < lim ∧ LenIs s o.len n ∧
      out = false) :=
  ⟨⟨matState 0x00800042, ⟨3, false, 1, 2⟩, fun l => ((matState 0x00800042).g (2 : BitVec 5)).toNat + 64 * l, (quiet_of (by decide +kernel)), (wf_of (by decide +kernel)), (by decide +kernel), (by decide +kernel), (by decide +kernel), reaches_lines (by decide) (by decide +kernel)⟩,
   ⟨matState 0x00800042, ⟨3, true, 1, 2⟩, fun l => ((matState 0x00800042).g (2 : BitVec 5)).toNat + 64 * l, (quiet_of (by decide +kernel)), (wf_of (by decide +kernel)), (by decide +kernel), (by decide +kernel), (by decide +kernel), bufs_wf (by decide +kernel), fun l h => (reaches_lines (by decide) (by decide +kernel) l h).1⟩,
   ⟨matState 0x00800042, .mrowv ⟨false, 0, 3, 1, 5, 0, 0, 0, 0⟩, _, _, _, _, _, rfl, (wf_of (by decide +kernel)), (by decide +kernel)⟩,
   ⟨matState 0x00800042, .mrowv ⟨false, 0, 3, 1, 4, 0, 0, 0, 0⟩, _, _, _, _, _, 128, rfl, (wf_of (by decide +kernel)), (quiet_of (by decide +kernel)), (by decide +kernel), len_vl (by decide), rfl⟩,
   ⟨matState 0x00800042, .mvcol ⟨false, 0, 3, 1, 2, 0, 0, 6, 0⟩, _, _, _, _, _, 128, rfl, (wf_of (by decide +kernel)), (quiet_of (by decide +kernel)), (by decide +kernel), (len_lq (by decide +kernel)), rfl⟩⟩

/-- A chain of node 16; a drain to C through it as FP16; an FP64 drain that clears its tile. -/
theorem meets_drains :
    (∃ s : State, ∃ o : OpG8, ∃ ns, State.Quiet s ∧ ns = chainOf o.imm 8 ∧ ns = [16] ∧
      ∀ n ∈ ns, ∃ x, s.fnode n = some x ∧ cfgMode x.cfg < 8 ∧ ¬(s.core.st.graph.state = .running ∧ cfgG x.cfg = true)) ∧
    (∃ s : State, ∃ o : OpG8, State.Quiet s ∧ (s.fnode (16 + o.a.toNat)).isSome = true) ∧
    (∃ s : State, ∃ o : OpG8, State.Quiet s ∧ Instr.WellFormed (.mdrain o) ∧ ChainFits s (fld o.imm 0 4) ∧ s.core.st.chain ≠ [] ∧
      (s.full = true ∨ fld o.imm 0 4 ≠ 0) ∧ (s.g o.b).toNat % 64 = 0 ∧ (s.g o.b).toNat + drainBytes (fld o.imm 0 4) ≤ bufSize 3 ∧
      (∀ b, (s.core.buf b).wf = true) ∧
      ∀ l, l < drainBytes (fld o.imm 0 4) / 64 → Reaches s (o.imm.extractLsb' 4 3) ((s.g o.b).toNat + 64 * l) 64 .wr ((s.g o.b).toNat + 64 * l)) :=
  ⟨⟨matState 0x00800042, ⟨0, 0, 0, 0, 0, 0, 0x00000008⟩, [16], (quiet_of (by decide +kernel)), (by decide +kernel), rfl, by
      intro n h; have : n = 16 := by simpa using h
      subst this; exact ⟨chainNode, by decide +kernel, by decide +kernel, by decide +kernel⟩⟩,
   ⟨matState 0x00800042, ⟨0, 0, 0, 0, 0, 0, 5⟩, (quiet_of (by decide +kernel)), (by decide +kernel)⟩,
   ⟨(matState 0x00800042).modSt (fun x => { x with chain := [16] }), ⟨0, 1, 2, 0, 0, 0, 0x32⟩, (quiet_of (by decide +kernel)), (wf_of (by decide +kernel)), ⟨by
      intro n h; have : n = 16 := List.mem_singleton.1 h
      subst this; exact ⟨chainNode, by decide +kernel, by decide +kernel⟩, by decide +kernel⟩, by decide +kernel, (by decide +kernel), (by decide +kernel), (by decide +kernel), bufs_wf (by decide +kernel),
    fun l h => (reaches_lines (n := 384) (by decide) (by decide +kernel) l h).1⟩⟩

end Sys2Proof.Machine
namespace Sys2Proof.Machine

/-! ### Transforms and residues -/

/-- SEW 32; g1 = 0x1000, g2 = 0x1400, g3 = 2, g4 = 0; MODQ = 17; s3 is bound to the butterfly output; v5 holds p = 5 and its inverse 7 mod 17. -/
def bfyState (vt : Word) (vl : Nat) : State :=
  running (fun x => { withG [(1, 0x1000), (2, 0x1400), (3, 2), (5, 0xFFFFFFFF), (6, 0x100000000)] x with vtype := vt, vl := vl }) (fun c => { c with
    f := { c.f with modq := 17, m := c.f.m.setIfInBounds 1 0xB, v := c.f.v.setIfInBounds 5 (BitVec.ofNat 4096 (5 + 7 * 2 ^ 32)) }
    a := Mem.write [] 0x1000 0x0000000300000002 8
    st := { c.st with port := c.st.port.setIfInBounds 3 { Port.unbound with kind := 7, dir := 1, rank := 1 } } })

/-- FP32 at its most points, FP16 with none, BFP16 at one block. -/
theorem meets_butterflies :
    (∃ s : State, ∃ o : OpG8, ∃ n fmt, State.Quiet s ∧ Instr.WellFormed (.bfy o) ∧ LenIs s o.len n ∧ fmt = fld o.imm 0 4 ∧ fmt ≠ 0xB ∧
      lengthOf s o.len n ≤ (if fmt = 1 then 64 else 128) ∧ n = 64) ∧
    (∃ s : State, ∃ o : OpG8, ∃ n fmt, State.Quiet s ∧ Instr.WellFormed (.bfy o) ∧ LenIs s o.len n ∧ fmt = fld o.imm 0 4 ∧ fmt ≠ 0xB ∧
      lengthOf s o.len n ≤ (if fmt = 1 then 64 else 128) ∧ n = 0) ∧
    (∃ s : State, ∃ o : OpG8, ∃ n, State.Quiet s ∧ Instr.WellFormed (.bfy o) ∧ LenIs s o.len n ∧ fld o.imm 0 4 = 0xB ∧ lengthOf s o.len n ≤ 128 ∧
      lengthOf s o.len n % 16 = 0 ∧ n = 16) :=
  ⟨⟨bfyState 0x00800042 64, ⟨0, 1, 2, 1, 1, 0, 0x00005061⟩, 64, 1, (quiet_of (by decide +kernel)), (wf_of (by decide +kernel)), len_vl (by decide), (by decide +kernel), (by decide +kernel), by decide +kernel, rfl⟩,
   ⟨bfyState 0x00800042 0, ⟨0, 1, 2, 1, 1, 0, 0x00005072⟩, 0, 2, (quiet_of (by decide +kernel)), (wf_of (by decide +kernel)), len_vl (by decide), (by decide +kernel), (by decide +kernel), by decide +kernel, rfl⟩,
   ⟨bfyState 0x00800042 16, ⟨0, 1, 2, 1, 0, 0, 0x0010506B⟩, 16, (quiet_of (by decide +kernel)), (wf_of (by decide +kernel)), len_vl (by decide), (by decide +kernel), by decide +kernel, by decide +kernel, rfl⟩⟩

/-- The last half-length of an array of 16 points of FP32; a pass over four points to the port s3. -/
theorem meets_passes :
    (∃ s : State, ∃ o : OpG8, ∃ q n, State.Quiet s ∧ Instr.WellFormed (.bpass o) ∧ o.imm.getLsbD 14 = false ∧ q = bpassOf o (s.g o.b) ∧
      s.g o.b &&& 0xFFFF_FC00_FC00_FC00 = 0 ∧ (q.fmt = 0xB → blkPts (!q.g2) ≤ 2 ^ q.n) ∧ n = arrBytes q.fmt (!q.g2) (2 ^ q.n) ∧
      Region s (s.g o.a).toNat n ∧ s.core.a.wf = true ∧ q.lh = 3) ∧
    (∃ s : State, ∃ o : OpG8, ∃ q n p ts, State.Quiet s ∧ Instr.WellFormed (.bpass o) ∧ o.imm.getLsbD 14 = true ∧ q = bpassOf o (s.g o.b) ∧
      s.g o.b &&& 0xFFFF_FC00_FC00_FC00 = 0 ∧ n = arrBytes q.fmt (!q.g2) (2 ^ q.n) ∧ Region s (s.g o.a).toNat n ∧ p = fld o.imm 15 4 ∧
      (s.port p).kind = 7 ∧ (s.port p).dir = 1 ∧ (s.port p).fifo = [] ∧
      ts = passTokens q (passedArray s s.slot.vtype (fld s.core.f.modq 0 32) q (s.heldNum 2 (s.g o.a).toNat n)).1
        (if o.imm.getLsbD 20 then some (s.port p).rank else none) ∧ ts.length ≤ 128) :=
  ⟨⟨bfyState 0x00800042 0, ⟨0, 1, 3, 1, 0, 0, BitVec.ofNat 32 (1 + 64 * 4 + 1024 * 3)⟩, _, 128, (quiet_of (by decide +kernel)), (wf_of (by decide +kernel)), (by decide +kernel), rfl, (by decide +kernel), (by decide +kernel), (by decide +kernel), ⟨(by decide +kernel), (by decide +kernel), (by decide +kernel)⟩, (by decide +kernel), (by decide +kernel)⟩,
   ⟨bfyState 0x00800042 0, ⟨0, 1, 4, 1, 0, 0, BitVec.ofNat 32 (1 + 64 * 2 + 2 ^ 14 + 3 * 2 ^ 15)⟩, _, 32, 3, _, (quiet_of (by decide +kernel)), (wf_of (by decide +kernel)), (by decide +kernel), rfl, (by decide +kernel), (by decide +kernel), ⟨(by decide +kernel), (by decide +kernel), (by decide +kernel)⟩,
    (by decide +kernel), (by decide +kernel), (by decide +kernel), (by decide +kernel), rfl, (by decide +kernel)⟩⟩

/-- A bit reversal and a rotation of 16 points; BFPNORM of one block; a twiddle of a whole table, and N = 0; modular twiddles of base q. -/
theorem meets_arrays :
    (∃ s : State, ∃ i, ∃ o : OpG8, ∃ fmt cpx n by_ f, State.Quiet s ∧ Instr.WellFormed i ∧ (fmt, cpx, n, by_) = bpermF o ∧
      (i = .bperm o ∧ f = (fun p => rotl n p (s.g o.c).toNat) ∨ i = .bpermRev o ∧ f = bitrev n) ∧ Region s (s.g o.a).toNat by_ ∧
      Region s (s.g o.b).toNat by_ ∧ overlap (s.g o.a).toNat by_ (s.g o.b).toNat by_ = false ∧ s.core.a.wf = true ∧ i = .bpermRev o) ∧
    (∃ s : State, ∃ i, ∃ o : OpG8, ∃ fmt cpx n by_ f, State.Quiet s ∧ Instr.WellFormed i ∧ (fmt, cpx, n, by_) = bpermF o ∧
      (i = .bperm o ∧ f = (fun p => rotl n p (s.g o.c).toNat) ∨ i = .bpermRev o ∧ f = bitrev n) ∧ Region s (s.g o.a).toNat by_ ∧
      Region s (s.g o.b).toNat by_ ∧ overlap (s.g o.a).toNat by_ (s.g o.b).toNat by_ = false ∧ s.core.a.wf = true ∧ i = .bperm o) ∧
    (∃ s : State, ∃ o : OpG8, ∃ cpx n by_, State.Quiet s ∧ Instr.WellFormed (.bfpnorm o) ∧ cpx = o.imm.getLsbD 4 ∧ n = fld o.imm 5 4 ∧ blkPts cpx = 2 ^ n ∧
      by_ = arrBytes 0xB cpx (2 ^ n) ∧ Region s (s.g o.a).toNat by_ ∧ s.core.a.wf = true) ∧
    (∃ s : State, ∃ o : OpG8, Instr.WellFormed (.twgenCplx o) ∧ s.g o.b = 0) ∧
    (∃ s : State, ∃ o : OpG8, Instr.WellFormed (.twgenCplx o) ∧ State.Quiet s ∧ s.g o.b ≠ 0 ∧ fld o.imm 8 7 = 127) ∧
    (∃ s : State, ∃ o : OpG8, ∃ q, State.Quiet s ∧ Instr.WellFormed (.twgenMod o) ∧ q = fld s.core.f.modq 0 32 ∧ legalModulus q ∧ q ≤ (s.g o.b).toNat) :=
  ⟨⟨bfyState 0x00800042 0, _, ⟨0, 1, 2, 0, 0, 0, BitVec.ofNat 32 (1 + 16 + 32 * 4 + 512)⟩, 1, true, 4, 128, _, (quiet_of (by decide +kernel)), (wf_of (by decide +kernel)), (by decide +kernel), .inr ⟨rfl, rfl⟩, ⟨(by decide +kernel), (by decide +kernel), (by decide +kernel)⟩,
    ⟨(by decide +kernel), (by decide +kernel), (by decide +kernel)⟩, (by decide +kernel), (by decide +kernel), rfl⟩,
   ⟨bfyState 0x00800042 0, _, ⟨0, 1, 2, 3, 0, 0, BitVec.ofNat 32 (2 + 32 * 4)⟩, 2, false, 4, 32, _, (quiet_of (by decide +kernel)), (wf_of (by decide +kernel)), (by decide +kernel), .inl ⟨rfl, rfl⟩, ⟨(by decide +kernel), (by decide +kernel), (by decide +kernel)⟩,
    ⟨(by decide +kernel), (by decide +kernel), (by decide +kernel)⟩, (by decide +kernel), (by decide +kernel), rfl⟩,
   ⟨bfyState 0x00800042 0, ⟨0, 1, 0, 0, 0, 0, BitVec.ofNat 32 (0xB + 16 + 32 * 4)⟩, true, 4, 65, (quiet_of (by decide +kernel)), (wf_of (by decide +kernel)), (by decide +kernel), (by decide +kernel), (by decide +kernel), (by decide +kernel), ⟨(by decide +kernel), (by decide +kernel), (by decide +kernel)⟩, (by decide +kernel)⟩,
   ⟨bfyState 0x00800042 0, ⟨0, 4, 4, 3, 0, 0, 0x00007F00⟩, (wf_of (by decide +kernel)), (by decide +kernel)⟩, ⟨bfyState 0x00800042 0, ⟨0, 4, 3, 3, 0, 0, 0x00007F00⟩, (wf_of (by decide +kernel)), (quiet_of (by decide +kernel)), (by decide +kernel), (by decide +kernel)⟩,
   ⟨bfyState 0x00800042 0, ⟨0, 4, 1, 3, 0, 0, 0x00000001⟩, 17, (quiet_of (by decide +kernel)), (wf_of (by decide +kernel)), (by decide +kernel), by unfold legalModulus; decide +kernel, (by decide +kernel)⟩⟩

def txfOp : OpG8 := ⟨0, 1, 2, 1, 0, 0, BitVec.ofNat 32 (12 + 32 * 2)⟩
def txfCmd : Cmd :=
  { ({ eng := .bfy, ins := .txf txfOp, lens := [], ga := 0x1000, gb := 0x1400 } : Ticket).entry (bfyState 0x00800042 0) with disp := true, resume := 2 }
/-- A number-theoretic transform of 4 points; its last stage. -/
theorem meets_transforms :
    (∃ s : State, ∃ o : OpG8, ∃ n, State.Quiet s ∧ Instr.WellFormed (.txf o) ∧ n = txfBytes o ∧ Region s (s.g o.a).toNat n ∧ Region s (s.g o.b).toNat n ∧
      overlap (s.g o.a).toNat n (s.g o.b).toNat n = false ∧ s.core.a.wf = true) ∧
    (∃ s : State, ∃ u cl core, ∃ o : OpG8, ∃ c : Cmd, ∃ n, u = s.at_ cl core false ∧ Instr.WellFormed (.txf o) ∧ u.core.queue = [c] ∧ c.ins = .txf o ∧
      c.disp = true ∧ c.done = false ∧ c.faulted = false ∧ c.held = false ∧ c.paused = false ∧ c.ep = (u.core.slot c.hi).ep ∧ 0 < c.resume ∧ c.resume = (txfF o).2.2 ∧ n = txfBytes o ∧
      c.gb.toNat + n ≤ 393216 ∧ u.core.a.wf = true) :=
  ⟨⟨bfyState 0x00800042 0, txfOp, 16, (quiet_of (by decide +kernel)), (wf_of (by decide +kernel)), (by decide +kernel), ⟨(by decide +kernel), (by decide +kernel), (by decide +kernel)⟩, ⟨(by decide +kernel), (by decide +kernel), (by decide +kernel)⟩, (by decide +kernel), (by decide +kernel)⟩,
   ⟨scalarState.setCoreAt 39 0 { Core.fresh with queue := [txfCmd] }, _, 39, 0, txfOp, txfCmd, 16, rfl, (wf_of (by decide +kernel)), rfl, rfl, rfl, rfl, rfl, rfl, rfl, rfl, (by decide +kernel), (by decide +kernel), (by decide +kernel), (by decide +kernel), (by decide +kernel)⟩⟩

/-- A modular butterfly at SEW 32, and at SEW 64; NCRT at 64 positions; NMODSET of 3 and of an even number; NCHK at its bounds. -/
theorem meets_residues :
    (∃ s : State, ∃ i o l k q n, State.Quiet s ∧ residueLane s q i = some (o, l, k) ∧ Instr.WellFormed i ∧ q = fld s.core.f.modq 0 32 ∧ legalModulus q ∧
      LenIs s o.len n ∧ vtSew s.slot.vtype = 32 ∧ l.length = 2) ∧
    (∃ s : State, ∃ i o l k q n, State.Quiet s ∧ residueLane s q i = some (o, l, k) ∧ Instr.WellFormed i ∧ q = fld s.core.f.modq 0 32 ∧ legalModulus q ∧
      LenIs s o.len n ∧ vtSew s.slot.vtype ≠ 32) ∧
    (∃ s : State, ∃ o : OpV4, ∃ q p v n, State.Quiet s ∧ Instr.WellFormed (.ncrt o) ∧ vtSew s.slot.vtype = 32 ∧ q = fld s.core.f.modq 0 32 ∧ legalModulus q ∧
      p = elem (s.vreg o.c.toNat) 32 0 ∧ v = elem (s.vreg o.c.toNat) 32 1 ∧ legalModulus p ∧ p ≠ q ∧ LenIs s o.len n ∧ lengthOf s o.len n = 64) ∧
    (∃ s : State, ∃ o : OpA2, Instr.WellFormed (.nmodset o) ∧ State.Free s ∧ legalModulus (s.g o.a).toNat) ∧
    (∃ s : State, ∃ o : OpA2, Instr.WellFormed (.nmodset o) ∧ ¬legalModulus (s.g o.a).toNat) ∧
    (∃ s : State, ∃ o : OpA2, Instr.WellFormed (.nchk o) ∧ (s.g o.a).toNat = 2 ^ 32) ∧
    (∃ s : State, ∃ o : OpA2, Instr.WellFormed (.nchk o) ∧ (s.g o.a).toNat < 2 ^ 32 ∧ (s.g o.b).toNat < 2 ^ 32 ∧ legalModulus (fld s.core.f.modq 0 32) ∧ State.Free s ∧
      (s.g o.d).toNat * (s.g o.a).toNat * (s.g o.b).toNat + 1 = (fld s.core.f.modq 0 32 - 1) / 2) ∧
    (∃ s : State, ∃ o : OpA2, Instr.WellFormed (.nchk o) ∧ (s.g o.a).toNat < 2 ^ 32 ∧ (s.g o.b).toNat < 2 ^ 32 ∧ legalModulus (fld s.core.f.modq 0 32) ∧
      (fld s.core.f.modq 0 32 - 1) / 2 = (s.g o.d).toNat * (s.g o.a).toNat * (s.g o.b).toNat) :=
  have M : legalModulus 17 := by unfold legalModulus; decide
  let t := (bfyState 0x00800082 64).modSlot (withG [(7, 7), (8, 8), (9, 1), (10, 3)])
  ⟨⟨bfyState 0x00800082 64, .nbfy ⟨true, 0, 2, 1, 2, 5, 1, 0, 0⟩, _, _, _, 17, 64, (quiet_of (by decide +kernel)), rfl, (wf_of (by decide +kernel)), (by decide +kernel), M, len_vl (by decide), (by decide +kernel), rfl⟩,
   ⟨bfyState 0x00800003 64, .nadd ⟨false, 0, 2, 1, 2, 0, 1, 0, 0⟩, _, _, _, 17, 64, (quiet_of (by decide +kernel)), rfl, (wf_of (by decide +kernel)), (by decide +kernel), M, len_vl (by decide), (by decide +kernel)⟩,
   ⟨bfyState 0x00800082 64, ⟨false, 0, 3, 1, 2, 5, 1, 0, 0⟩, 17, 5, 7, 64, (quiet_of (by decide +kernel)), (wf_of (by decide +kernel)), (by decide +kernel), (by decide +kernel), M, (by decide +kernel), (by decide +kernel), by unfold legalModulus; decide, by decide,
    len_vl (by decide), by decide +kernel⟩,
   ⟨t, ⟨0, 10, 0⟩, (wf_of (by decide +kernel)), (free_of (by decide +kernel)), by unfold legalModulus; decide +kernel⟩, ⟨t, ⟨0, 8, 0⟩, (wf_of (by decide +kernel)), by unfold legalModulus; decide +kernel⟩,
   ⟨t, ⟨7, 6, 9⟩, (wf_of (by decide +kernel)), (by decide +kernel)⟩, ⟨t, ⟨7, 9, 9⟩, (wf_of (by decide +kernel)), (by decide +kernel), (by decide +kernel), by unfold legalModulus; decide +kernel, (free_of (by decide +kernel)), (by decide +kernel)⟩,
   ⟨t, ⟨8, 9, 9⟩, (wf_of (by decide +kernel)), (by decide +kernel), (by decide +kernel), by unfold legalModulus; decide +kernel, (by decide +kernel)⟩⟩

/-- FP64 and an 8-bit format trap; BF16 points from a twiddle register. -/
theorem meets_complexProducts :
    (∃ s : State, ∃ i, ∃ o : OpV4, Instr.WellFormed i ∧ i = .vcmul o ∧ vtFmt s.slot.vtype = 0) ∧
    (∃ s : State, ∃ i, ∃ o : OpV4, Instr.WellFormed i ∧ i = .vcmulCj o ∧ 3 < vtFmt s.slot.vtype) ∧
    (∃ s : State, ∃ i, ∃ o : OpV4, ∃ n, Instr.WellFormed i ∧ i = .vcmulCj o ∧ State.Quiet s ∧ 1 ≤ vtFmt s.slot.vtype ∧ vtFmt s.slot.vtype ≤ 3 ∧ LenIs s o.len n ∧
      lengthOf s o.len n % 2 = 0 ∧ lengthOf s o.len n ≤ 512 ∧ o.x = true) :=
  ⟨⟨bfyState 0x00800003 64, _, ⟨false, 0, 3, 1, 2, 0, 0, 0, 0⟩, (wf_of (by decide +kernel)), rfl, (by decide +kernel)⟩, ⟨bfyState 0x00800100 64, _, ⟨false, 0, 3, 1, 2, 0, 0, 0, 0⟩, (wf_of (by decide +kernel)), rfl, (by decide +kernel)⟩,
   ⟨bfyState 0x008000C1 256, _, ⟨true, 0, 3, 1, 2, 0, 0, 0, 0⟩, 256, (wf_of (by decide +kernel)), rfl, (quiet_of (by decide +kernel)), (by decide +kernel), (by decide +kernel), len_vl (by decide), by decide +kernel, by decide +kernel, rfl⟩⟩

end Sys2Proof.Machine
namespace Sys2Proof.Machine

/-! ### Streams and graphs -/

/-- A flit of the given tokens. -/
def flitOf (l : List Token) : Flit := ⟨l, false, l.length, 3⟩
/-- A bound port. -/
def portOf (kind dir target : Nat) (toks : List Token) : Port :=
  { Port.unbound with kind := kind, dir := dir, target := target, rank := 1, fifo := if toks = [] then [] else [flitOf toks] }
/-- Ports of core 0 bound: s1 a vector port that holds an element, a stop and a done, s2 a vector port, s5 a router output, s6 a link's
output; g1 = 5, g2 = 0x1000, g3 = 8 and 16 as strides, g4 = 1 and 1 as counts; pattern slot 3 reads two words. -/
def portState (vt : Word) (vl : Nat) : State :=
  running (fun x => { withG [(1, 5), (2, 0x1000), (3, 0x0000001000000008), (4, 0x0000000100000001)] x with vtype := vt, vl := vl }) (fun c => { c with
    f := { c.f with v := c.f.v.setIfInBounds 1 0x700000006, m := c.f.m.setIfInBounds 1 0xB }
    st := { c.st with
      pat := c.st.pat.setIfInBounds 3 (some ⟨0x1000, 4, 0, 2, 1, 1, 2, false, 0, 1⟩)
      port := (((c.st.port.setIfInBounds 1 (portOf 1 0 0 [⟨0, 6⟩, ⟨9, 0⟩, ⟨4, 0⟩])).setIfInBounds 2 (portOf 1 0 0 [])).setIfInBounds 5
        (portOf 6 1 0 [])).setIfInBounds 6 (portOf 5 1 1 []) } })

/-- SEW 64 traps; SPUSHV of three elements; STOK; SDONE. -/
theorem meets_pushes :
    (∃ s : State, ∃ o : OpV4, Instr.WellFormed (.spushv o) ∧ vtSew s.slot.vtype ≠ 32) ∧
    (∃ s : State, ∃ o : OpV4, ∃ n, State.Quiet s ∧ Instr.WellFormed (.spushv o) ∧ LenIs s o.len n ∧ vtSew s.slot.vtype = 32 ∧ s.vecPort o.d.toNat true = true ∧
      ∃ u, pushedTo o.d.toNat ((activeBelow s o.msk (lengthOf s o.len n)).map (fun e => ⟨o.c.toNat, elem (s.vreg o.a.toNat) 32 e⟩))
        (s.beginVec .vec (.spushv o)) = some u ∧ True) ∧
    (∃ s : State, ∃ o : OpA2, State.Quiet s ∧ Instr.WellFormed (.stok o) ∧ s.vecPort o.d.toNat true = true ∧
      ∃ u, pushedTo o.d.toNat [⟨o.b.toNat, (s.g o.a).toNat % 2 ^ 32⟩] (s.beginVec .vec (.stok o)) = some u ∧ True) ∧
    (∃ s : State, ∃ o : OpA2, State.Quiet s ∧ Instr.WellFormed (.sdone o) ∧ s.vecPort o.d.toNat true = true ∧
      ∃ u, pushedTo o.d.toNat [⟨4, 0⟩] (s.beginVec .vec (.sdone o)) = some u ∧ True) :=
  ⟨⟨portState 0x00800003 4, ⟨false, 0, 2, 1, 0, 0, 1, 0, 0⟩, (wf_of (by decide +kernel)), (by decide +kernel)⟩,
   ⟨portState 0x00800042 4, ⟨false, 0, 2, 1, 0, 0, 1, 0, 0⟩, 4, (quiet_of (by decide +kernel)), (wf_of (by decide +kernel)), len_vl (by decide), (by decide +kernel), (by decide +kernel), (some_of (by decide +kernel))⟩,
   ⟨portState 0x00800042 4, ⟨5, 1, 9⟩, (quiet_of (by decide +kernel)), (wf_of (by decide +kernel)), (by decide +kernel), (some_of (by decide +kernel))⟩, ⟨portState 0x00800042 4, ⟨6, 0, 0⟩, (quiet_of (by decide +kernel)), (wf_of (by decide +kernel)), (by decide +kernel), (some_of (by decide +kernel))⟩⟩

/-- SPOPV up to a stop, SPOPK up to the done, SPOPG of the first token. -/
theorem meets_pops :
    (∃ s : State, ∃ o : OpV4, ∃ n k, State.Quiet s ∧ Instr.WellFormed (.spopv o) ∧ vtSew s.slot.vtype = 32 ∧ LenIs s o.len n ∧
      (o.b.getLsbD 2 = true → s.core.f.occ[o.b.toNat % 4]?.getD 0 < 16) ∧ s.vecPort o.d.toNat false = true ∧ k ≤ lengthOf s o.len n ∧
      ∃ r, takenFrom o.d.toNat k (s.beginVec .vec (.spopv o)) = some r ∧ ((∀ t ∈ r.1, t.kind < 4) ∧
        (fifoHead (r.2.port o.d.toNat).fifo).any (fun t => decide (8 ≤ t.kind ∨ t.kind = 4)) = true ∧ o.b.getLsbD 2 = true)) ∧
    (∃ s : State, ∃ o : OpV4, ∃ n k, State.Quiet s ∧ Instr.WellFormed (.spopk o) ∧ vtSew s.slot.vtype = 32 ∧ LenIs s o.len n ∧
      (o.b.getLsbD 2 = true → s.core.f.occ[o.b.toNat % 4]?.getD 0 < 16) ∧ s.vecPort o.d.toNat false = true ∧ k ≤ lengthOf s o.len n ∧
      lengthOf s o.len n ≤ 128 ∧ ∃ r, takenFrom o.d.toNat k (s.beginVec .vec (.spopk o)) = some r ∧ (r.2.port o.d.toNat).done = true) ∧
    (∃ s : State, ∃ o : OpA2, State.Free s ∧ s.core.queue = [] ∧ Instr.WellFormed (.spopg o) ∧ s.vecPort o.a.toNat false = true ∧
      someOk ((s.beginVec .vec (.spopg o)).popChecked o.a.toNat) = true ∧ (s.port o.a.toNat).fifo ≠ []) :=
  ⟨⟨portState 0x00800042 4, ⟨false, 0, 1, 3, 4, 0, 0, 0, 0⟩, 4, 1, (quiet_of (by decide +kernel)), (wf_of (by decide +kernel)), (by decide +kernel), len_vl (by decide), (by decide +kernel), (by decide +kernel), by decide +kernel, (some_of (by decide +kernel))⟩,
   ⟨portState 0x00800042 4, ⟨false, 0, 1, 2, 4, 3, 0, 0, 0⟩, 4, 3, (quiet_of (by decide +kernel)), (wf_of (by decide +kernel)), (by decide +kernel), len_vl (by decide), (by decide +kernel), (by decide +kernel), by decide +kernel, by decide +kernel, (some_of (by decide +kernel))⟩,
   ⟨portState 0x00800042 4, ⟨7, 1, 0⟩, (free_of (by decide +kernel)), (by decide +kernel), (wf_of (by decide +kernel)), (by decide +kernel), (by decide +kernel), (by decide +kernel)⟩⟩

/-- A vector port, a pattern, a link of core 0, a router output to the last cluster; SUNB, SPAT at its least counts, SRANK, RSTAGE. -/
theorem meets_ports :
    (∃ s : State, ∃ i o kind, State.Quiet s ∧ Instr.WellFormed i ∧ bindKind i = some (kind, o) ∧ BindReady s kind o none ∧ kind = 1) ∧
    (∃ s : State, ∃ i o kind, ∃ q : Pattern, State.Quiet s ∧ Instr.WellFormed i ∧ bindKind i = some (kind, o) ∧ BindReady s kind o (some q) ∧ kind = 2) ∧
    (∃ s : State, ∃ i o kind, State.Quiet s ∧ Instr.WellFormed i ∧ bindKind i = some (kind, o) ∧ BindReady s kind o none ∧ kind = 5) ∧
    (∃ s : State, ∃ i o kind, State.Quiet s ∧ Instr.WellFormed i ∧ bindKind i = some (kind, o) ∧ BindReady s kind o none ∧ kind = 6 ∧ targetOf o / 128 % 64 = 39) ∧
    (∃ s : State, ∃ o : OpG8, State.Quiet s ∧ Instr.WellFormed (.sunb o) ∧ ¬(s.core.st.graph.state = .running ∨ s.core.st.graph.state = .frozen)) ∧
    (∃ s : State, ∃ o : OpG8, ∃ p, State.Quiet s ∧ Instr.WellFormed (.spat o) ∧ p = spatOf o (s.g o.a) (s.g o.b) (s.g o.c) ∧ p.c0 = 1 ∧ p.c1 = 1 ∧
      p.base % 2 ^ p.esz = 0 ∧ p.s0 % (2 ^ p.esz : Nat) = 0 ∧ p.s1 % (2 ^ p.esz : Nat) = 0 ∧
      patInside p (if p.spc = 0 then 2 ^ 54 else bufSize p.spc) = true) ∧
    (∃ s : State, ∃ o : OpA2, State.Quiet s ∧ Instr.WellFormed (.srank o) ∧ (s.port o.d.toNat).kind ≠ 0 ∧ (s.port o.d.toNat).passed = false) ∧
    (∃ s : State, ∃ o : OpG8, State.Quiet s ∧ Instr.WellFormed (.rstage o) ∧ (s.port o.c.toNat).kind = 6 ∧ (s.port o.c.toNat).dir = 1) :=
  ⟨⟨portState 0x00800042 4, .sbindVec ⟨9, 0, 0, 0, 0, 0, 1⟩, _, 1, (quiet_of (by decide +kernel)), (wf_of (by decide +kernel)), rfl, ⟨(by decide +kernel), by decide, by decide, fun h => absurd h (by decide), fun _ => rfl⟩, rfl⟩,
   ⟨portState 0x00800042 4, .sbindPat ⟨9, 0, 0, 0, 0, 0, 0x31⟩, _, 2, _, (quiet_of (by decide +kernel)), (wf_of (by decide +kernel)), rfl, ⟨(by decide +kernel), by decide, by decide, fun _ => ⟨_, rfl, by decide +kernel, rfl⟩, by decide⟩, rfl⟩,
   ⟨portState 0x00800042 4, .sbindNbr ⟨9, 0, 0, 0, 0, 0, 0x21⟩, _, 5, (quiet_of (by decide +kernel)), (wf_of (by decide +kernel)), rfl, ⟨(by decide +kernel), fun _ => ⟨(by decide +kernel), (by decide +kernel)⟩, by decide, fun h => absurd h (by decide), fun _ => rfl⟩, rfl⟩,
   ⟨portState 0x00800042 4, .sbindRtr ⟨9, 0, 0, 0, 0, 0, BitVec.ofNat 32 (39 * 128 * 16 + 8)⟩, _, 6, (quiet_of (by decide +kernel)), (wf_of (by decide +kernel)), rfl,
    ⟨(by decide +kernel), by decide, fun _ => ⟨(by decide +kernel), (by decide +kernel)⟩, fun h => absurd h (by decide), fun _ => rfl⟩, rfl, (by decide +kernel)⟩,
   ⟨portState 0x00800042 4, ⟨6, 0, 0, 0, 0, 0, 0⟩, (quiet_of (by decide +kernel)), (wf_of (by decide +kernel)), (by decide +kernel)⟩,
   ⟨portState 0x00800042 4, ⟨3, 2, 3, 4, 0, 0, 0x00000151⟩, _, (quiet_of (by decide +kernel)), (wf_of (by decide +kernel)), rfl, (by decide +kernel), (by decide +kernel), (by decide +kernel), (by decide +kernel), (by decide +kernel), (by decide +kernel)⟩,
   ⟨portState 0x00800042 4, ⟨6, 0, 7⟩, (quiet_of (by decide +kernel)), (wf_of (by decide +kernel)), (by decide +kernel), (by decide +kernel)⟩, ⟨portState 0x00800042 4, ⟨0, 1, 0, 5, 0, 0, 2⟩, (quiet_of (by decide +kernel)), (wf_of (by decide +kernel)), (by decide +kernel), (by decide +kernel)⟩⟩

end Sys2Proof.Machine
namespace Sys2Proof.Machine

/-! ### Graphs and their nodes -/

/-- The configuration word of a node: number, type, member, mode, rank, inputs, outputs, constant and parameters (R210). -/
def nodeWord (node type mode rank : Nat) (ins outs : List Nat) (const par : Nat) : BitVec 256 :=
  BitVec.ofNat 256 (node * 2 ^ 251 + type * 2 ^ 248 + 2 ^ 247 + mode * 2 ^ 243 + rank * 2 ^ 240 +
    (List.range 4).foldl (fun a k => a + (ins[k]?.getD 0) * 2 ^ (230 - 10 * k)) 0 +
    (List.range 3).foldl (fun a k => a + (outs[k]?.getD 0) * 2 ^ (195 - 5 * k)) 0 + const * 2 ^ 128 + par)
/-- The parameters of a scanner, a fetch or a writer. -/
def nodePar (spc off1 off2 lim : Nat) : Nat := spc * 2 ^ 125 + off1 * 2 ^ 106 + off2 * 2 ^ 87 + lim * 2 ^ 63
/-- A root scanner of C and a writer of C that it feeds by its output 0. -/
def scanWord : BitVec 256 := nodeWord 0 0 2 0 [] [] 0 (nodePar 1 0 64 0)
def writeWord : BitVec 256 := nodeWord 24 5 0 0 [0x100] [] 0 (nodePar 3 0 0 40)
/-- The two words stand at 0x1000 of W and the first in device memory at 0x20000; g1 = 0x1000, g2 = 0x20000, g3 = 0x30, g4 = 40, g5 = 0x2000,
g6 = 0x7FFE0, g7 = 15. -/
def cfgState : State :=
  let s := (vecState [(1, 0x1000), (2, 0x20000), (3, 0x30), (4, 40), (5, 0x2000), (6, 0x7FFE0), (7, 15)] 0x00800042 4 (fun c => { c with
    w := (Mem.write [] 0x1000 (scanWord.toNat + 2 ^ 256 * writeWord.toNat) 64).write 0x7FFE0 writeWord.toNat 32 }))
  let s := { s with mem := ((s.mem.write 0x14000 0x1D 8).write 0x10000 0x14003 8).write 0x20000 scanWord.toNat 32
                    xl := { s.xl with ctxtab := put 0 (word (2 ^ 63 + 0x10000)) s.xl.ctxtab } }
  match s.xlate 0x20000 .rd .other with | .ok (_, u) => u | _ => s
/-- The graph of the two words in a state. -/
def graphState (g : GState) : State :=
  cfgState.modGraph (fun x => { x with state := g, nodes := [(0, { Node.ofWord scanWord 0 with flags := 3, state := if g = .running then 2 else 1 }),
    (24, Node.ofWord writeWord 0)] })

theorem reaches_words {s : State} {spc : BitVec 3} {a n : Nat} (hs : spc ≠ 0) (h : spc.toNat ≤ 3 ∧ a % 32 = 0 ∧ a + 32 * n ≤ bufSize spc.toNat ∧
    ∀ k < n, s.core.notHolder spc.toNat (a + 32 * k) 32 = false) :
    ∀ k, k < n → Reaches s spc (a + 32 * k) 32 .rd (a + 32 * k) ∧ Readable s spc 32 (a + 32 * k) := by
  intro k hk
  refine ⟨⟨by omega, ?_⟩, fun z => absurd z hs⟩
  simp only [hs, if_false]
  exact ⟨h.1, by omega, h.2.2.2 k hk, trivial⟩

/-- GCFG of two words from W and of one, and GNODE, at the end of W and from device memory. -/
theorem meets_configuration :
    let Meets := fun s i (o : OpG8) (spc : BitVec 3) n all (loc : Nat → Nat) (ws : List (BitVec 256 × Nat)) =>
      State.Quiet s ∧ Instr.WellFormed i ∧ spc = o.imm.extractLsb' 0 3 ∧ (i = .gcfg o ∧ n = o.imm.toNat / 8 % 32 ∧ all = true ∨ i = .gnode o ∧ n = 1 ∧ all = false) ∧
      (s.core.st.graph.state = .none ∨ s.core.st.graph.state = .idle) ∧ (s.g o.a).toNat % 32 = 0 ∧ (spc ≠ 0 → (s.g o.a).toNat + 32 * n ≤ bufSize spc.toNat) ∧
      (spc = 0 → (s.g o.a).toNat < 2 ^ 54) ∧ (∀ k, k < n → Reaches s spc ((s.g o.a).toNat + 32 * k) 32 .rd (loc k) ∧ Readable s spc 32 (loc k)) ∧
      ws = (List.range n).map (fun k => (wordThere s spc (loc k), spc.toNat * 2 ^ 54 + ((s.g o.a).toNat + 32 * k))) ∧
      (∀ w ∈ ws, cfgBad w.1 = false) ∧ hasTwice (ws.map (fun w => cfgNode w.1)) = false
    (∃ s : State, ∃ i o spc n all loc ws, Meets s i o spc n all loc ws ∧ n = 2) ∧ (∃ s : State, ∃ i o spc n all loc ws, Meets s i o spc n all loc ws ∧ n = 1) ∧
    (∃ s : State, ∃ i o spc n all loc ws, Meets s i o spc n all loc ws ∧ all = false ∧ (State.g s o.a).toNat + 32 = bufSize spc.toNat) ∧
    (∃ s : State, ∃ i o spc n all loc ws, Meets s i o spc n all loc ws ∧ spc = 0) :=
  ⟨⟨cfgState, .gcfg ⟨0, 1, 0, 0, 0, 0, 0x11⟩, _, 1, 2, true, fun k => 0x1000 + 32 * k, _, ⟨(quiet_of (by decide +kernel)), (wf_of (by decide +kernel)), by decide, .inl ⟨rfl, rfl, rfl⟩, (by decide +kernel), (by decide +kernel), (by decide +kernel), nofun,
     reaches_words (by decide) (by decide +kernel), rfl, (by decide +kernel), (by decide +kernel)⟩, rfl⟩,
   ⟨cfgState, .gcfg ⟨0, 6, 0, 0, 0, 0, 9⟩, _, 1, 1, true, fun k => 0x7FFE0 + 32 * k, _, ⟨(quiet_of (by decide +kernel)), (wf_of (by decide +kernel)), by decide, .inl ⟨rfl, rfl, rfl⟩, (by decide +kernel), (by decide +kernel), (by decide +kernel), nofun,
     reaches_words (by decide) (by decide +kernel), rfl, (by decide +kernel), (by decide +kernel)⟩, rfl⟩,
   ⟨cfgState, .gnode ⟨0, 6, 0, 0, 0, 0, 1⟩, _, 1, 1, false, fun k => 0x7FFE0 + 32 * k, _, ⟨(quiet_of (by decide +kernel)), (wf_of (by decide +kernel)), by decide, .inr ⟨rfl, rfl, rfl⟩, (by decide +kernel), (by decide +kernel), (by decide +kernel), nofun,
     reaches_words (by decide) (by decide +kernel), rfl, (by decide +kernel), (by decide +kernel)⟩, rfl, (by decide +kernel)⟩,
   ⟨cfgState, .gnode ⟨0, 2, 0, 0, 0, 0, 0⟩, _, 0, 1, false, fun _ => 0x20000, _, ⟨(quiet_of (by decide +kernel)), (wf_of (by decide +kernel)), by decide, .inr ⟨rfl, rfl, rfl⟩, (by decide +kernel), (by decide +kernel), nofun, fun _ => (by decide +kernel),
     fun k hk => ⟨⟨by have : k = 0 := by omega
                      subst this; decide +kernel, ⟨by have : k = 0 := by omega
                                                      subst this; decide +kernel,
        by have : k = 0 := by omega
           subst this; exact ok_of (by decide +kernel)⟩⟩, fun _ => .inl (by change 0x20000 < peerBase; decide)⟩, rfl, (by decide +kernel), (by decide +kernel)⟩, rfl⟩⟩

/-- A graph of two nodes is ready; GSTOP and GRESET in each state of the graph; GWAIT; GSTAT of a port, of a node and of the graph; GQUIET. -/
theorem meets_graphControl :
    (∃ s : State, ∃ o : OpG8, State.Quiet s ∧ Instr.WellFormed (.gstart o) ∧ GraphReady s) ∧
    (∀ g : GState, ∃ s : State, ∃ i, ∃ o : OpG8, State.Quiet s ∧ Instr.WellFormed i ∧ i = .greset o ∧ s.core.st.graph.state = g) ∧
    (∀ g : GState, ∃ s : State, ∃ i, ∃ o : OpG8, State.Quiet s ∧ Instr.WellFormed i ∧ i = .gstop o ∧ s.core.st.graph.state = g) ∧
    (∃ s : State, ∃ o : OpG8, State.Free s ∧ s.core.queue = [] ∧ Instr.WellFormed (.gwait o) ∧ s.core.st.graph.state ≠ .running) ∧
    (∃ s : State, ∃ o : OpA2, State.Free s ∧ s.core.queue = [] ∧ Instr.WellFormed (.gstat o) ∧ ∃ v, s.statWord (s.g o.a).toNat = some v ∧ v.toNat / 2 ^ 61 = 1) ∧
    (∃ s : State, ∃ o : OpA2, State.Free s ∧ s.core.queue = [] ∧ Instr.WellFormed (.gstat o) ∧ ∃ v, s.statWord (s.g o.a).toNat = some v ∧ (s.g o.a).toNat = 40) ∧
    (∃ s : State, ∃ o : OpA2, State.Free s ∧ s.core.queue = [] ∧ Instr.WellFormed (.gstat o) ∧ ∃ v, s.statWord (s.g o.a).toNat = some v ∧ (s.g o.a).toNat = 15) ∧
    (∃ s : State, ∃ o : OpA2, State.Free s ∧ s.core.queue = [] ∧ Instr.WellFormed (.gquiet o)) :=
  ⟨⟨graphState .idle, ⟨0, 0, 0, 0, 0, 0, 0⟩, (quiet_of (by decide +kernel)), (wf_of (by decide +kernel)), ⟨(by decide +kernel), (by decide +kernel), (by decide +kernel), (by decide +kernel), (by decide +kernel), (by decide +kernel)⟩⟩,
   fun g => ⟨graphState g, _, ⟨0, 0, 0, 0, 0, 0, 0⟩, quiet_of (by cases g <;> decide +kernel), (wf_of (by decide +kernel)), rfl, by cases g <;> decide +kernel⟩,
   fun g => ⟨graphState g, _, ⟨0, 0, 0, 0, 0, 0, 0⟩, quiet_of (by cases g <;> decide +kernel), (wf_of (by decide +kernel)), rfl, by cases g <;> decide +kernel⟩,
   ⟨graphState .finished, ⟨0, 0, 0, 0, 0, 0, 0⟩, (free_of (by decide +kernel)), (by decide +kernel), (wf_of (by decide +kernel)), (by decide +kernel)⟩, ⟨graphState .idle, ⟨7, 3, 0⟩, (free_of (by decide +kernel)), (by decide +kernel), (wf_of (by decide +kernel)), (some_of (by decide +kernel))⟩,
   ⟨graphState .idle, ⟨7, 4, 0⟩, (free_of (by decide +kernel)), (by decide +kernel), (wf_of (by decide +kernel)), (some_of (by decide +kernel))⟩, ⟨graphState .idle, ⟨7, 7, 0⟩, (free_of (by decide +kernel)), (by decide +kernel), (wf_of (by decide +kernel)), (some_of (by decide +kernel))⟩, ⟨graphState .idle, ⟨7, 0, 0⟩, (free_of (by decide +kernel)), (by decide +kernel), (wf_of (by decide +kernel))⟩⟩

/-- Core 5 of cluster 3 with one running node; its ports 1, 2, … hold the given tokens, its ports 8, 9 and 10 are outputs. -/
def fireState (n : Nat) (x : Node) (toks : List (List Token)) : State :=
  State.reset.setCoreAt 3 5 { Core.fresh with w := Mem.write [] 0 0x0000000900000006000000020000000200000000 20, st := { Core.fresh.st with
    port := (Vector.range 16).map (fun p => if 8 ≤ p then portOf 5 1 0 [] else if p = 0 then Port.unbound else portOf 1 0 0 (toks[p - 1]?.getD []))
    graph := { Core.fresh.st.graph with state := .running, nodes := [(n, { x with state := 2 })] } } }
/-- A node runs and P holds of it. -/
def NodeMeets (n ty : Nat) (P : State → Node → Prop) : Prop := ∃ s : State, ∃ cl core u x, NodeRuns s cl core n ty u x ∧ P u x
theorem nodeMeets {n ty : Nat} {x : Node} {toks : List (List Token)} {P : State → Node → Prop}
    (h : look n ((fireState n x toks).at_ 3 5 false).core.st.graph.nodes = some { x with state := 2 } ∧ cfgG x.cfg = true ∧ cfgType x.cfg = ty ∧ x.cut = false)
    (hp : P ((fireState n x toks).at_ 3 5 false) { x with state := 2 }) : NodeMeets n ty P :=
  ⟨_, 3, 5, _, _, ⟨rfl, h.1, rfl, h.2⟩, hp⟩
/-- A scanner of W in mode 0, of rank 1, fed by port 1. -/
def scanner : Node := Node.ofWord (nodeWord 1 0 0 1 [0x201] [0x18, 0x19] 0 (nodePar 1 0 12 0)) 0
/-- A dense root scanner (mode 3) of 5 positions. -/
def rootScanner : Node := Node.ofWord (nodeWord 0 0 3 0 [] [0x18, 0x19] 0 (nodePar 1 0 0 5)) 0

/-- Within a fibre that is read and within a dense one; at a stop of rank 1; at the end of a fibre; at a done, of an input and of a root;
at a reference to a fibre and at an absent one. -/
theorem meets_scanners :
    NodeMeets 1 0 (fun u x => ∃ r p e v, x.fib = some (r, p, e) ∧
      u.emits 1 [(0, ⟨1, if cfgMode x.cfg % 2 = 1 then p else u.heldNum (cfgSpc x.cfg) (cfgOff2 x.cfg + 4 * p) 4⟩),
        (1, ⟨2, if cfgMode x.cfg % 2 = 1 then (r * cfgLim x.cfg + p) % 2 ^ 32 else p⟩)] = .ok v) ∧
    NodeMeets 0 0 (fun u x => ∃ r p e v, x.fib = some (r, p, e) ∧ p + 1 = e ∧
      u.emits 0 [(0, ⟨1, if cfgMode x.cfg % 2 = 1 then p else u.heldNum (cfgSpc x.cfg) (cfgOff2 x.cfg + 4 * p) 4⟩),
        (1, ⟨2, if cfgMode x.cfg % 2 = 1 then (r * cfgLim x.cfg + p) % 2 ^ 32 else p⟩)] = .ok v) ∧
    NodeMeets 1 0 (fun u x => ∃ k v, x.fib = none ∧ scanHead u 1 x = .ok ⟨8 + k, 0⟩ ∧ u.emits 1 [(0, Token.stop (k + 1)), (1, Token.stop (k + 1))] = .ok v ∧ k = 1) ∧
    NodeMeets 1 0 (fun u x => ∃ h v, x.fib = none ∧ x.owed = true ∧ scanHead u 1 x = .ok h ∧ h.kind < 8 ∧ u.emits 1 [(0, Token.stop 0), (1, Token.stop 0)] = .ok v) ∧
    NodeMeets 1 0 (fun u x => ∃ v, x.fib = none ∧ x.owed = false ∧ scanHead u 1 x = .ok Token.done ∧ u.emits 1 [(0, Token.done), (1, Token.done)] = .ok v) ∧
    NodeMeets 0 0 (fun u x => ∃ v, x.fib = none ∧ x.owed = false ∧ scanHead u 0 x = .ok Token.done ∧ u.emits 0 [(0, Token.done), (1, Token.done)] = .ok v) ∧
    NodeMeets 1 0 (fun u x => ∃ h fib, x.fib = none ∧ x.owed = false ∧ scanHead u 1 x = .ok h ∧ h.kind < 4 ∧
      (if h.kind = 3 then .ok none else fibreOf u x.cfg h.val) = .ok fib ∧ fib = some (0, 0, 2)) ∧
    NodeMeets 1 0 (fun u x => ∃ h fib, x.fib = none ∧ x.owed = false ∧ scanHead u 1 x = .ok h ∧ h.kind < 4 ∧
      (if h.kind = 3 then .ok none else fibreOf u x.cfg h.val) = .ok fib ∧ h.kind = 3) :=
  ⟨nodeMeets (x := { scanner with fib := some (0, 0, 2) }) (toks := []) (by decide +kernel) ⟨0, 0, 2, exists_and_left.mpr ⟨rfl, (ok_some (by decide +kernel))⟩⟩,
   nodeMeets (x := { rootScanner with fib := some (0, 4, 5) }) (toks := []) (by decide +kernel) ⟨0, 4, 5, exists_and_left.mpr ⟨rfl, exists_and_left.mpr ⟨rfl, (ok_some (by decide +kernel))⟩⟩⟩,
   nodeMeets (x := scanner) (toks := [[⟨9, 0⟩]]) (by decide +kernel) ⟨1, (ok_some (by decide +kernel)).elim fun v hv => ⟨v, rfl, (ok_of (by decide +kernel)), hv, rfl⟩⟩,
   nodeMeets (x := { scanner with owed := true }) (toks := [[⟨2, 1⟩]]) (by decide +kernel) ⟨⟨2, 1⟩, (ok_some (by decide +kernel)).elim fun v hv => ⟨v, rfl, rfl, (ok_of (by decide +kernel)), (by decide +kernel), hv⟩⟩,
   nodeMeets (x := scanner) (toks := [[⟨4, 0⟩]]) (by decide +kernel) ((ok_some (by decide +kernel)).elim fun v hv => ⟨v, rfl, rfl, (ok_of (by decide +kernel)), hv⟩),
   nodeMeets (x := { rootScanner with root := 1 }) (toks := []) (by decide +kernel) ((ok_some (by decide +kernel)).elim fun v hv => ⟨v, rfl, rfl, (ok_of (by decide +kernel)), hv⟩),
   nodeMeets (x := scanner) (toks := [[⟨2, 0⟩]]) (by decide +kernel) ⟨⟨2, 0⟩, some (0, 0, 2), rfl, rfl, (ok_of (by decide +kernel)), (by decide +kernel), (ok_of (by decide +kernel)), rfl⟩,
   nodeMeets (x := scanner) (toks := [[⟨3, 0⟩]]) (by decide +kernel) ⟨⟨3, 0⟩, none, rfl, rfl, (ok_of (by decide +kernel)), (by decide +kernel), (ok_of (by decide +kernel)), rfl⟩⟩

/-- A joiner of mode m with coordinates from ports 1 and 3 and references from ports 2 and 4. -/
def joiner (m par : Nat) : Node := Node.ofWord (nodeWord 4 1 m 0 [0x201, 0x202, 0x203, 0x204] [0x18, 0x19, 0x1A] 0 par) 0
/-- A repeater of rank 1: items from port 1, the shape from port 2. -/
def repeater : Node := Node.ofWord (nodeWord 6 2 0 1 [0x201, 0x202] [0x18] 0 0) 0

/-- Unequal coordinates in an intersection, equal ones in a union, and a table that replays a side of 256 elements; one side at its end; both
at theirs. -/
theorem meets_joiners :
    let Heads := fun (u : State) (x : Node) (a b : Token × Token × Bool) => joinHead u 4 x false = .ok a ∧ joinHead u 4 x true = .ok b
    let Entry := fun (u : State) (x : Node) (a b : Token × Token × Bool) (e : Nat) =>
      a.1.isElem = true ∧ b.1.isElem = true ∧
      e = (if a.1.val < b.1.val then (joinTable x.cfg).1 else if a.1.val = b.1.val then (joinTable x.cfg).2.1 else (joinTable x.cfg).2.2.1) ∧
      (e / 4 % 4 = 2 → x.nA ≤ 256) ∧ (e % 4 = 2 → x.nB ≤ 256) ∧
      ∃ v, (if e / 16 % 2 = 1 then
          (if a.1.val < b.1.val then u.emits 4 [(0, a.1), (1, a.2.1), (2, ⟨3, 0⟩)]
           else if a.1.val = b.1.val then u.emits 4 [(0, a.1), (1, a.2.1), (2, b.2.1)]
           else u.emits 4 [(0, b.1), (1, ⟨3, 0⟩), (2, b.2.1)]) else .ok u) = .ok v
    NodeMeets 4 1 (fun u x => ∃ a b e, Heads u x a b ∧ Entry u x a b e ∧ cfgMode x.cfg = 0) ∧
    NodeMeets 4 1 (fun u x => ∃ a b e, Heads u x a b ∧ Entry u x a b e ∧ cfgMode x.cfg = 1) ∧
    NodeMeets 4 1 (fun u x => ∃ a b e, Heads u x a b ∧ Entry u x a b e ∧ e % 4 = 2 ∧ x.nB = 256) ∧
    NodeMeets 4 1 (fun u x => ∃ a b v, Heads u x a b ∧ a.1.isElem = true ∧ b.1.isElem = false ∧
      (if (joinTable x.cfg).2.2.2 / 2 % 2 = 1 then u.emits 4 [(0, a.1), (1, a.2.1), (2, ⟨3, 0⟩)] else .ok u) = .ok v) ∧
    NodeMeets 4 1 (fun u x => ∃ a b v, Heads u x a b ∧ a.1.isElem = false ∧ b.1.isElem = false ∧ a.1.kind = b.1.kind ∧
      u.emits 4 [(0, a.1), (1, a.1), (2, a.1)] = .ok v) :=
  ⟨nodeMeets (x := joiner 0 0) (toks := [[⟨1, 2⟩], [⟨2, 0⟩], [⟨1, 5⟩], [⟨2, 9⟩]]) (by decide +kernel)
     ⟨(⟨1, 2⟩, ⟨2, 0⟩, false), (⟨1, 5⟩, ⟨2, 9⟩, false), 4, ⟨(ok_of (by decide +kernel)), (ok_of (by decide +kernel))⟩, ⟨(by decide +kernel), (by decide +kernel), (by decide +kernel), (by decide +kernel), (by decide +kernel), (ok_some (by decide +kernel))⟩, (by decide +kernel)⟩,
   nodeMeets (x := joiner 1 0) (toks := [[⟨1, 5⟩], [⟨2, 0⟩], [⟨1, 5⟩], [⟨2, 9⟩]]) (by decide +kernel)
     ⟨(⟨1, 5⟩, ⟨2, 0⟩, false), (⟨1, 5⟩, ⟨2, 9⟩, false), 0x15, ⟨(ok_of (by decide +kernel)), (ok_of (by decide +kernel))⟩, ⟨(by decide +kernel), (by decide +kernel), (by decide +kernel), (by decide +kernel), (by decide +kernel), (ok_some (by decide +kernel))⟩, (by decide +kernel)⟩,
   nodeMeets (x := { joiner 2 (6 * 1024 + 5 * 32 + 5) with nB := 256 }) (toks := [[⟨1, 2⟩], [⟨2, 0⟩], [⟨1, 5⟩], [⟨2, 9⟩]]) (by decide +kernel)
     ⟨(⟨1, 2⟩, ⟨2, 0⟩, false), (⟨1, 5⟩, ⟨2, 9⟩, false), 6, ⟨(ok_of (by decide +kernel)), (ok_of (by decide +kernel))⟩, ⟨(by decide +kernel), (by decide +kernel), (by decide +kernel), (by decide +kernel), (by decide +kernel), (ok_some (by decide +kernel))⟩, (by decide +kernel), rfl⟩,
   nodeMeets (x := joiner 1 0) (toks := [[⟨1, 2⟩], [⟨2, 0⟩], [⟨8, 0⟩], [⟨8, 0⟩]]) (by decide +kernel)
     ((ok_some (by decide +kernel)).elim fun v hv => ⟨(⟨1, 2⟩, ⟨2, 0⟩, false), (⟨8, 0⟩, ⟨8, 0⟩, false), v, ⟨(ok_of (by decide +kernel)), (ok_of (by decide +kernel))⟩, (by decide +kernel), (by decide +kernel), hv⟩),
   nodeMeets (x := joiner 1 0) (toks := [[⟨8, 0⟩], [⟨8, 0⟩], [⟨8, 0⟩], [⟨8, 0⟩]]) (by decide +kernel)
     ((ok_some (by decide +kernel)).elim fun v hv => ⟨(⟨8, 0⟩, ⟨8, 0⟩, false), (⟨8, 0⟩, ⟨8, 0⟩, false), v, ⟨(ok_of (by decide +kernel)), (ok_of (by decide +kernel))⟩, (by decide +kernel), (by decide +kernel), (by decide +kernel), hv⟩)⟩

/-- A repeater takes an item, repeats it, and drops it at a stop of rank 0 and at one of rank 1. -/
theorem meets_repeaters :
    NodeMeets 6 2 (fun u x => ∃ h i, u.headAt 6 1 = .ok h ∧ x.item = none ∧ u.headAt 6 0 = .ok i ∧ i.isElem = true ∧ h.kind ≠ 4) ∧
    NodeMeets 6 2 (fun u x => ∃ h i v, u.headAt 6 1 = .ok h ∧ x.item = some i ∧ u.checkAt 6 0 = .ok () ∧ h.isElem = true ∧ u.emits 6 [(0, i)] = .ok v) ∧
    NodeMeets 6 2 (fun u x => ∃ h i v, u.headAt 6 1 = .ok h ∧ x.item = some i ∧ u.checkAt 6 0 = .ok () ∧ h.kind = 8 ∧ u.emits 6 [(0, h)] = .ok v) ∧
    NodeMeets 6 2 (fun u x => ∃ h i j v, u.headAt 6 1 = .ok h ∧ x.item = some i ∧ 8 < h.kind ∧ u.headAt 6 0 = .ok j ∧ j.kind + 1 = h.kind ∧
      u.emits 6 [(0, h)] = .ok v) :=
  ⟨nodeMeets (x := repeater) (toks := [[⟨0, 7⟩], [⟨1, 3⟩]]) (by decide +kernel) ⟨⟨1, 3⟩, ⟨0, 7⟩, (ok_of (by decide +kernel)), rfl, (ok_of (by decide +kernel)), (by decide +kernel), (by decide +kernel)⟩,
   nodeMeets (x := { repeater with item := some ⟨0, 7⟩ }) (toks := [[], [⟨1, 3⟩]]) (by decide +kernel)
     ((ok_some (by decide +kernel)).elim fun v hv => ⟨⟨1, 3⟩, ⟨0, 7⟩, v, (ok_of (by decide +kernel)), rfl, (ok_of (by decide +kernel)), (by decide +kernel), hv⟩),
   nodeMeets (x := { repeater with item := some ⟨0, 7⟩ }) (toks := [[], [⟨8, 0⟩]]) (by decide +kernel)
     ((ok_some (by decide +kernel)).elim fun v hv => ⟨⟨8, 0⟩, ⟨0, 7⟩, v, (ok_of (by decide +kernel)), rfl, (ok_of (by decide +kernel)), (by decide +kernel), hv⟩),
   nodeMeets (x := { repeater with item := some ⟨0, 7⟩ }) (toks := [[⟨8, 0⟩], [⟨9, 0⟩]]) (by decide +kernel)
     ((ok_some (by decide +kernel)).elim fun v hv => ⟨⟨9, 0⟩, ⟨0, 7⟩, ⟨8, 0⟩, v, (ok_of (by decide +kernel)), rfl, (by decide +kernel), (ok_of (by decide +kernel)), (by decide +kernel), hv⟩)⟩

/-- A reducer of rank 1, function nodes of modes m, and writers of 40 words in C, with or without segments. -/
def reducer : Node := Node.ofWord (nodeWord 8 3 1 1 [0x201] [0x18] 0 0) 0
def fnNode (m par : Nat) : Node := Node.ofWord (nodeWord 16 4 m 1 [0x201, if 8 ≤ m then 0x202 else 0] [0x18] 0x40000000 par) 0
def writer (m : Nat) : Node := Node.ofWord (nodeWord 24 5 m 1 [0x201] [] 0 (nodePar 3 0x1000 0x2000 40)) 0

/-- A reducer at an element, at stops of ranks 0 and 1 and at a done. -/
theorem meets_reducers :
    NodeMeets 8 3 (fun u _ => ∃ h, u.headAt 8 0 = .ok h ∧ h.isElem = true) ∧
    NodeMeets 8 3 (fun u x => ∃ h v, u.headAt 8 0 = .ok h ∧ 8 ≤ h.kind ∧ x.owed = false ∧ u.emits 8 [(0, ⟨0, x.acc⟩)] = .ok v ∧ h.kind = 8) ∧
    NodeMeets 8 3 (fun u x => ∃ h v, u.headAt 8 0 = .ok h ∧ 8 ≤ h.kind ∧ x.owed = false ∧ u.emits 8 [(0, ⟨0, x.acc⟩)] = .ok v ∧ h.kind = 9) ∧
    NodeMeets 8 3 (fun u _ => ∃ h v, u.headAt 8 0 = .ok h ∧ h.kind = 4 ∧ u.emits 8 [(0, Token.done)] = .ok v) :=
  ⟨nodeMeets (x := reducer) (toks := [[⟨0, 7⟩]]) (by decide +kernel) ⟨⟨0, 7⟩, (ok_of (by decide +kernel)), (by decide +kernel)⟩,
   nodeMeets (x := reducer) (toks := [[⟨8, 0⟩]]) (by decide +kernel) ((ok_some (by decide +kernel)).elim fun v hv => ⟨⟨8, 0⟩, v, (ok_of (by decide +kernel)), (by decide +kernel), rfl, hv, rfl⟩),
   nodeMeets (x := reducer) (toks := [[⟨9, 0⟩]]) (by decide +kernel) ((ok_some (by decide +kernel)).elim fun v hv => ⟨⟨9, 0⟩, v, (ok_of (by decide +kernel)), (by decide +kernel), rfl, hv, rfl⟩),
   nodeMeets (x := reducer) (toks := [[⟨4, 0⟩]]) (by decide +kernel) ((ok_some (by decide +kernel)).elim fun v hv => ⟨⟨4, 0⟩, v, (ok_of (by decide +kernel)), rfl, hv⟩)⟩

/-- A function node with its constant, with two inputs, at a stop and as a switch; a fetch of the last word of W, and its reply. -/
theorem meets_functions :
    NodeMeets 16 4 (fun u x => ∃ h v, x.fetch = none ∧ u.headAt 16 0 = .ok h ∧ cfgMode x.cfg < 7 ∧ 0 < cfgMode x.cfg ∧ h.isElem = true ∧
      (match (fnOp (cfgMode x.cfg) (arithRm u.core.st.graph.rm) h.val x.const).1 with
       | some y => u.emits 16 [(0, ⟨0, y⟩)]
       | none => .ok u) = .ok v) ∧
    NodeMeets 16 4 (fun u x => ∃ h b v, x.fetch = none ∧ u.headAt 16 0 = .ok h ∧ 8 ≤ cfgMode x.cfg ∧ h.isElem = true ∧ u.headAt 16 1 = .ok b ∧ b.isElem = true ∧
      u.emits 16 [(0, ⟨0, (fnOp (cfgMode x.cfg) (arithRm u.core.st.graph.rm) h.val b.val).1.getD 0⟩)] = .ok v) ∧
    NodeMeets 16 4 (fun u x => ∃ h v, x.fetch = none ∧ u.headAt 16 0 = .ok h ∧ cfgMode x.cfg < 8 ∧ (h.isElem = false ∨ cfgMode x.cfg = 0) ∧
      u.emits 16 [(0, h)] = .ok v ∧ h.isElem = true) ∧
    NodeMeets 16 4 (fun u x => ∃ h v, x.fetch = none ∧ u.headAt 16 0 = .ok h ∧ cfgMode x.cfg < 8 ∧ (h.isElem = false ∨ cfgMode x.cfg = 0) ∧
      u.emits 16 [(0, h)] = .ok v ∧ h.isElem = false) ∧
    NodeMeets 16 4 (fun u x => ∃ h, x.fetch = none ∧ u.headAt 16 0 = .ok h ∧ cfgMode x.cfg = 7 ∧ h.kind = 2 ∧
      cfgOff1 x.cfg + 4 * h.val + 4 ≤ bufSize (cfgSpc x.cfg) ∧ cfgOff1 x.cfg + 4 * h.val + 4 = bufSize (cfgSpc x.cfg)) ∧
    NodeMeets 16 4 (fun u x => ∃ r v, x.fetch = some r ∧ u.emits 16 [(0, ⟨0, u.heldNum (cfgSpc x.cfg) (cfgOff1 x.cfg + 4 * r) 4⟩)] = .ok v) :=
  ⟨nodeMeets (x := fnNode 2 0) (toks := [[⟨0, 0x3F800000⟩]]) (by decide +kernel)
     ((ok_some (by decide +kernel)).elim fun v hv => ⟨⟨0, 0x3F800000⟩, v, rfl, (ok_of (by decide +kernel)), (by decide +kernel), (by decide +kernel), (by decide +kernel), hv⟩),
   nodeMeets (x := fnNode 9 0) (toks := [[⟨0, 0x3F800000⟩], [⟨0, 0x40000000⟩]]) (by decide +kernel)
     ((ok_some (by decide +kernel)).elim fun v hv => ⟨⟨0, 0x3F800000⟩, ⟨0, 0x40000000⟩, v, rfl, (ok_of (by decide +kernel)), (by decide +kernel), (by decide +kernel), (ok_of (by decide +kernel)), (by decide +kernel), hv⟩),
   nodeMeets (x := fnNode 0 0) (toks := [[⟨1, 5⟩]]) (by decide +kernel) ((ok_some (by decide +kernel)).elim fun v hv => ⟨⟨1, 5⟩, v, rfl, (ok_of (by decide +kernel)), (by decide +kernel), (by decide +kernel), hv, rfl⟩),
   nodeMeets (x := fnNode 2 0) (toks := [[⟨9, 0⟩]]) (by decide +kernel) ((ok_some (by decide +kernel)).elim fun v hv => ⟨⟨9, 0⟩, v, rfl, (ok_of (by decide +kernel)), (by decide +kernel), (by decide +kernel), hv, rfl⟩),
   nodeMeets (x := fnNode 7 (nodePar 1 8 0 0)) (toks := [[⟨2, 131069⟩]]) (by decide +kernel) ⟨⟨2, 131069⟩, rfl, (ok_of (by decide +kernel)), (by decide +kernel), rfl, (by decide +kernel), (by decide +kernel)⟩,
   nodeMeets (x := { fnNode 7 (nodePar 1 8 0 0) with fetch := some 1 }) (toks := []) (by decide +kernel) ((ok_some (by decide +kernel)).elim fun v hv => ⟨1, v, rfl, hv⟩)⟩

/-- A writer at its last element, at a segment's end and at a done. -/
theorem meets_writers :
    NodeMeets 24 5 (fun u x => ∃ h, u.headAt 24 0 = .ok h ∧ h.isElem = true ∧ x.wn < cfgLim x.cfg ∧
      cfgOff1 x.cfg + 4 * x.wn + 4 ≤ bufSize (cfgSpc x.cfg) ∧ x.wn = 39) ∧
    NodeMeets 24 5 (fun u x => ∃ h, u.headAt 24 0 = .ok h ∧ 8 ≤ h.kind ∧ cfgMode x.cfg = 1 ∧ cfgOff2 x.cfg + 4 * (x.wf + 1) + 4 ≤ bufSize (cfgSpc x.cfg)) ∧
    NodeMeets 24 5 (fun u _ => ∃ h, u.headAt 24 0 = .ok h ∧ h.kind = 4) :=
  ⟨nodeMeets (x := { writer 0 with wn := 39 }) (toks := [[⟨0, 7⟩]]) (by decide +kernel) ⟨⟨0, 7⟩, (ok_of (by decide +kernel)), (by decide +kernel), (by decide +kernel), (by decide +kernel), rfl⟩,
   nodeMeets (x := writer 1) (toks := [[⟨8, 0⟩]]) (by decide +kernel) ⟨⟨8, 0⟩, (ok_of (by decide +kernel)), (by decide +kernel), (by decide +kernel), (by decide +kernel)⟩, nodeMeets (x := writer 1) (toks := [[⟨4, 0⟩]]) (by decide +kernel) ⟨⟨4, 0⟩, (ok_of (by decide +kernel)), rfl⟩⟩

end Sys2Proof.Machine
namespace Sys2Proof.Machine

/-! ### Patterns, flits, drains and the command queue -/

/-- The machine stands at core 5 of cluster 3; core 0 of cluster 0 has a pattern's port 3 with the given contents, over the memory of
memState. -/
def patState (f : Port → Port) : State :=
  (memState.setPort 3 (f { Port.unbound with kind := 2, rank := 1, gram := ⟨false, some 9⟩, pat := some ⟨0x20000, 4, 0, 2, 2, 0, 2, true, 1, 1⟩ })).at_ 3 5 true
/-- A pattern of W up to its last byte. -/
def lastPat : Pattern := ⟨524284, 0, 0, 1, 1, 1, 2, false, 0, 2⟩
theorem ex_left {α : Type} {p : Prop} {q : α → Prop} (hp : p) (hq : ∃ a, q a) : ∃ a, p ∧ q a := hq.elim fun a h => ⟨a, hp, h⟩

/-- A read from device memory and at the end of W; the stop after an inner row and after the last of rank 1; the done. -/
theorem meets_patternReads :
    let Meets := fun s u cl core p x q => x = (State.at_ s cl core false).port p ∧ u = State.at_ s cl core x.hi ∧ x.ep = u.slot.ep ∧ u.clus.preempt = false ∧ x.kind = 2 ∧ x.dir = 0 ∧
      x.pat = some q ∧ u.portRoom p = true ∧ p < 16
    (∃ s : State, ∃ u cl core p x q spc loc, Meets s u cl core p x q ∧ x.phase = 0 ∧ q.spc = spc.toNat ∧ Reaches u spc (x.patAddr q) (2 ^ q.esz) .rd loc ∧
      Readable u spc (2 ^ q.esz) loc ∧ spc = 0) ∧
    (∃ s : State, ∃ u cl core p x q spc loc, Meets s u cl core p x q ∧ x.phase = 0 ∧ q.spc = spc.toNat ∧ Reaches u spc (x.patAddr q) (2 ^ q.esz) .rd loc ∧
      Readable u spc (2 ^ q.esz) loc ∧ loc + 2 ^ q.esz = bufSize 1) ∧
    (∃ s : State, ∃ u cl core p x q, Meets s u cl core p x q ∧ x.phase = 1 ∧ q.c1 ≤ x.o) ∧ (∃ s : State, ∃ u cl core p x q, Meets s u cl core p x q ∧ x.phase = 1 ∧ x.o < q.c1) ∧
    (∃ s : State, ∃ u cl core p x q, Meets s u cl core p x q ∧ x.phase = 2) :=
  ⟨⟨patState id, _, 0, 0, 3, _, _, 0, 0x20000, ⟨rfl, rfl, rfl, (by decide +kernel), (by decide +kernel), (by decide +kernel), rfl, (by decide +kernel), (by decide +kernel)⟩, (by decide +kernel), rfl, ⟨(by decide +kernel), (by decide +kernel), (ok_of (by decide +kernel))⟩, fun _ => .inl (by decide +kernel), rfl⟩,
   ⟨patState (fun x => { x with pat := some lastPat }), _, 0, 0, 3, _, _, 1, 524284, ⟨rfl, rfl, rfl, (by decide +kernel), (by decide +kernel), (by decide +kernel), rfl, (by decide +kernel), (by decide +kernel)⟩, (by decide +kernel), rfl, ⟨(by decide +kernel), (by decide +kernel), (by decide +kernel), (by decide +kernel), (by decide +kernel)⟩, nofun, (by decide +kernel)⟩,
   ⟨patState (fun x => { x with phase := 1, o := 2 }), _, 0, 0, 3, _, _, ⟨rfl, rfl, rfl, (by decide +kernel), (by decide +kernel), (by decide +kernel), rfl, (by decide +kernel), (by decide +kernel)⟩, (by decide +kernel), (by decide +kernel)⟩,
   ⟨patState (fun x => { x with phase := 1, o := 1 }), _, 0, 0, 3, _, _, ⟨rfl, rfl, rfl, (by decide +kernel), (by decide +kernel), (by decide +kernel), rfl, (by decide +kernel), (by decide +kernel)⟩, (by decide +kernel), (by decide +kernel)⟩,
   ⟨patState (fun x => { x with phase := 2 }), _, 0, 0, 3, _, _, ⟨rfl, rfl, rfl, (by decide +kernel), (by decide +kernel), (by decide +kernel), rfl, (by decide +kernel), (by decide +kernel)⟩, (by decide +kernel)⟩⟩

/-- A writing pattern at a stop, at a done, and at an element for the end of W. -/
theorem meets_patternWrites :
    let Meets := fun s u cl core p x q tok g => u = State.at_ s cl core false ∧ x = u.port p ∧ x.kind = 2 ∧ x.dir = 1 ∧ x.phase = 0 ∧ p < 16 ∧
      x.pat = some q ∧ fifoHead x.fifo = some tok ∧ grammarCheck x.gram x.rank (fun _ => true) tok = .ok g ∧ ∃ v, u.popPort p = some (tok, v)
    (∃ s : State, ∃ u cl core p x q tok g, Meets s u cl core p x q tok g ∧ tok.kind = 8) ∧ (∃ s : State, ∃ u cl core p x q tok g, Meets s u cl core p x q tok g ∧ tok.kind = 4) ∧
    (∃ s : State, ∃ u cl core p x q tok g spc loc, Meets s u cl core p x q tok g ∧ tok.kind < 4 ∧ x.o < q.c1 ∧ q.spc = spc.toNat ∧
      Reaches u spc (x.patAddr q) (2 ^ q.esz) .wr loc ∧ (∀ b, (u.core.buf b).wf = true) ∧ loc + 2 ^ q.esz = bufSize 1) :=
  ⟨⟨patState (fun x => { x with dir := 1, fifo := [flitOf [⟨8, 0⟩]] }), _, 0, 0, 3, _, _, ⟨8, 0⟩, ⟨false, some 8⟩,
     ⟨rfl, rfl, (by decide +kernel), (by decide +kernel), (by decide +kernel), (by decide +kernel), rfl, (by decide +kernel), (ok_of (by decide +kernel)), ⟨_, rfl⟩⟩, rfl⟩,
   ⟨patState (fun x => { x with dir := 1, fifo := [flitOf [⟨4, 0⟩]] }), _, 0, 0, 3, _, _, ⟨4, 0⟩, ⟨true, some 4⟩,
     ⟨rfl, rfl, (by decide +kernel), (by decide +kernel), (by decide +kernel), (by decide +kernel), rfl, (by decide +kernel), (ok_of (by decide +kernel)), ⟨_, rfl⟩⟩, rfl⟩,
   ⟨patState (fun x => { x with dir := 1, fifo := [flitOf [⟨0, 77⟩]], pat := some lastPat }), _, 0, 0, 3, _, _, ⟨0, 77⟩, ⟨false, some 0⟩, 1, 524284,
     ⟨rfl, rfl, (by decide +kernel), (by decide +kernel), (by decide +kernel), (by decide +kernel), rfl, (by decide +kernel), (ok_of (by decide +kernel)), ⟨_, rfl⟩⟩, (by decide +kernel), (by decide +kernel), rfl, ⟨(by decide +kernel), (by decide +kernel), (by decide +kernel), (by decide +kernel), (by decide +kernel)⟩, bufs_wf (by decide +kernel), (by decide +kernel)⟩⟩

/-- Core 0 of cluster 0 with port 3 as given, and flits in the network; the machine stands at core 5 of cluster 3. -/
def netState (x : Port) (net : List NetFlit) (link : List Flit) : State :=
  let s := (State.reset.modSt (fun y => { y with link := y.link.setIfInBounds 1 link })).setPort 3 x
  { s.at_ 3 5 true with bd := { s.bd with net := net } }
/-- A flit at router 0 for core 0 of a cluster. -/
def netFlit (dCl at_ : Nat) : NetFlit := ⟨flitOf [⟨0, 7⟩], 1, 2, 4, 6, dCl, 0, 3, at_, false, ⟨0, 0, 0, 0⟩⟩

/-- A flit of a link's output, of a router's output, on its way between the stacks, arriving from a link and from its router; a credit. -/
theorem meets_flits :
    (∃ s : State, ∃ u cl core link k c l p far, u = State.at_ s cl core false ∧ nbrOf cl core link = some (k, c, l) ∧
      u.findPort (fun y => y.kind == 5 && y.dir == 1 && y.target == link) = some p ∧ far = u.coreAt k c ∧ l < 4 ∧ (far.st.link[l]?.getD []).length < 2 ∧
      ∃ r, (u.port p).send = some r ∧ r.1.toks = [⟨0, 7⟩]) ∧
    (∃ s : State, ∃ u cl index p, index < 128 ∧ u = State.at_ s cl (index / 16) false ∧ p = index % 16 ∧ (u.port p).kind = 6 ∧ (u.port p).dir = 1 ∧
      ∃ r, (u.port p).send = some r ∧ ((u.port p).stage.mode ≠ 2 ∨ r.1.key = none) ∧ (u.enterRouter
        ⟨r.1, cl, index / 16, p, (u.port p).bind, (u.port p).target / 128 % 64, (u.port p).target / 16 % 8, (u.port p).target % 16, cl, false, (u.port p).stage⟩).isSome = true) ∧
    (∃ s : State, ∃ cl index, ∃ n : NetFlit, 128 ≤ index ∧ (State.bd s).net[index - 128]? = some n ∧ (∀ e ∈ s.bd.net.take (index - 128), e.sameQueue n = false) ∧ n.at_ ≠ n.dCl ∧
      nextRouter n.at_ n.dCl = cl ∧ (({ s with bd := { s.bd with net := s.bd.net.eraseIdx (index - 128) } } : State).enterRouter { n with at_ := cl }).isSome = true ∧
      cl = 20) ∧
    (∃ s : State, ∃ u cl core p f r, u = State.at_ s cl core false ∧ (u.port p).kind = 5 ∧ (u.port p).dir = 0 ∧ u.core.st.link[(u.port p).target]? = some (f :: r) ∧
      (u.port p).fifo.length < 8) ∧
    (∃ s : State, ∃ u cl core p, ∃ n : NetFlit, ∃ k : Nat, u = State.at_ s cl core false ∧ (u.port p).kind = 6 ∧ (u.port p).dir = 0 ∧ u.bd.net[k]? = some n ∧ n.at_ = cl ∧ n.dCl = cl ∧
      n.dCore = core ∧ n.dPort = p ∧ n.stage.mode ≠ 3 ∧ (u.port p).target = 128 * n.sCl + 16 * n.sCore + n.sPort ∧ (u.port p).fifo.length < 8 ∧
      (∀ (j : Nat) (e : NetFlit), j < k → u.bd.net[j]? = some e → e.dPort ≠ p ∨ e.at_ ≠ cl ∨ e.dCl ≠ cl ∨ e.stage.mode ≠ 3 ∧ e.dCore ≠ core)) :=
  ⟨⟨netState (portOf 5 1 0 [⟨0, 7⟩]) [] [], _, 0, 0, 0, 0, 1, 1, 3, _, rfl, rfl, (by decide +kernel), rfl, (by decide +kernel), (by decide +kernel), (some_of (by decide +kernel))⟩,
   ⟨netState (portOf 6 1 (39 * 128 + 5) [⟨0, 7⟩]) [] [], _, 0, 3, _, (by decide +kernel), rfl, rfl, (by decide +kernel), (by decide +kernel), (some_of (by decide +kernel))⟩,
   ⟨netState Port.unbound [netFlit 39 4] [], 20, 128, _, (by decide +kernel), rfl, by decide, (by decide +kernel), (by decide +kernel), (by decide +kernel), rfl⟩,
   ⟨netState (portOf 5 0 1 []) [] [flitOf [⟨0, 7⟩]], _, 0, 0, 3, _, _, rfl, (by decide +kernel), (by decide +kernel), rfl, (by decide +kernel)⟩,
   ⟨netState (portOf 6 0 (128 + 32 + 4) []) [netFlit 9 0, netFlit 0 0] [], _, 0, 0, 3, netFlit 0 0, 1, rfl, (by decide +kernel), (by decide +kernel), rfl, rfl, rfl, rfl, rfl, (by decide +kernel), (by decide +kernel), (by decide +kernel),
    fun j e hj he => by
      obtain rfl : j = 0 := by omega
      cases he; exact .inr (.inr (.inl (by decide)))⟩⟩

/-- MDRAIN.S of tile 1 to port 3, with and without a done; the rest of one that waits. -/
def drainState : State :=
  (matState 0x00800042).setPort 3 { Port.unbound with kind := 8, dir := 1, rank := 2 }
def drainOp : OpG8 := ⟨0, 1, 0, 3, 0, 0, 0x381⟩
def drainRest : State :=
  drainState.setCore { drainState.core with queue := [{ ({ eng := .mat, ins := .mdrainStream drainOp, lens := [], ga := 0, gb := 0, gc := 0 } : Ticket).entry drainState with
    disp := true, resume := 12289, tile := some 0, prog := [] }] }
theorem meets_drainStreams :
    (∃ s : State, ∃ o : OpG8, ∃ p, State.Quiet s ∧ Instr.WellFormed (.mdrainStream o) ∧ fld o.imm 0 4 = 1 ∧ ChainFits s 1 ∧ p = o.c.toNat ∧ (s.port p).kind = 8 ∧
      (s.port p).dir = 1 ∧ 1 ≤ (s.port p).rank ∧ (s.port p).fifo = [] ∧ vtRm s.slot.vtype ≠ 4) ∧
    (∃ s : State, ∃ u cl core, ∃ o : OpG8, ∃ c : Cmd, ∃ p tile m, u = State.at_ s cl core false ∧ u.clus.preempt = false ∧ u.core.queue = [c] ∧ c.ins = .mdrainStream o ∧
      c.eng = .mat ∧ c.disp = true ∧ c.done = false ∧ c.faulted = false ∧ c.held = false ∧ c.paused = false ∧ c.hi = false ∧ c.ep = u.slot.ep ∧ c.tile = some tile ∧ c.prog = [] ∧
      vtRm c.vtype ≠ 4 ∧ c.flags = 0 ∧ c.mrs = 0 ∧ m = 12416 + (if o.imm.getLsbD 9 then 1 else 0) ∧ c.resume ≤ m ∧ m ≤ c.resume + 128 ∧ fld o.imm 0 4 = 1 ∧
      p = o.c.toNat ∧ p < 16 ∧ (u.port p).kind = 8 ∧ (u.port p).dir = 1 ∧ 1 ≤ (u.port p).rank ∧ (u.port p).fifo = [] ∧ m = 12417) :=
  ⟨⟨drainState, drainOp, 3, (quiet_of (by decide +kernel)), (wf_of (by decide +kernel)), (by decide +kernel), ⟨nofun, nofun⟩, rfl, (by decide +kernel), (by decide +kernel), (by decide +kernel), (by decide +kernel), (by decide +kernel)⟩,
   ⟨drainRest, _, 0, 0, drainOp, _, 3, 0, 12417, rfl, (by decide +kernel), rfl, rfl, rfl, rfl, rfl, rfl, rfl, rfl, rfl, rfl, rfl, rfl, (by decide +kernel), rfl, rfl, by decide, (by decide +kernel), (by decide +kernel), (by decide +kernel), rfl, (by decide +kernel), (by decide +kernel), (by decide +kernel), (by decide +kernel), (by decide +kernel), rfl⟩⟩

/-- An MZERO a3 that waits; a finished command of the matrix engine. -/
def queueState (f : Cmd → Cmd) : State :=
  let s := running (fun x => { x with status := 0xFFF0000000000000 }) id
  s.setCore { s.core with queue := [f (({ eng := .mat, ins := .mzero 3, lens := [] } : Ticket).entry s)] }
theorem meets_queue :
    (∃ s : State, ∃ u cl co d, ∃ c : Cmd, u = State.at_ s cl co false ∧ u.clus.preempt = false ∧ u.eager = true ∧ u.core.queue = [c] ∧ c.ins = .mzero d ∧ c.eng = .mat ∧
      c.disp = false ∧ c.done = false ∧ c.held = false ∧ c.faulted = false ∧ c.hi = false ∧ c.ranges = [] ∧ c.pops = [] ∧ c.vls = [] ∧
      u.slot.run = .running ∧ c.flags = 0 ∧ c.mrs = 0 ∧ u.core.heldRanges = [] ∧ d.toNat < 4) ∧
    (∃ s : State, ∃ u cl co q, ∃ c : Cmd, u = State.at_ s cl co false ∧ u.core.queue = [c] ∧ c.qpos = q ∧ c.done = true ∧ c.eng ≠ .vec ∧ c.hi = false ∧ c.flags < 128 ∧
      65535 < fld u.slot.status 48 16 + c.mrs) :=
  ⟨⟨queueState id, _, 0, 0, 3, _, rfl, (by decide +kernel), (by decide +kernel), rfl, rfl, rfl, rfl, rfl, rfl, rfl, rfl, rfl, rfl, rfl, (by decide +kernel), rfl, rfl, (by decide +kernel), (by decide +kernel)⟩,
   ⟨queueState (fun c => { c with disp := true, done := true, flags := 127, mrs := 16 }), _, 0, 0, _, _, rfl, rfl, rfl, rfl, nofun, rfl, (by decide +kernel), (by decide +kernel)⟩⟩

end Sys2Proof.Machine
namespace Sys2Proof.Machine

/-! ### Copies, handles, barriers, phases and gangs -/

/-- The buffers of every core that the state lists are in canonical form. -/
theorem buffers_wf {s : State} (h : s.cores.all (fun p => p.2.w.wf && p.2.a.wf && p.2.c.wf) = true) : BuffersWf s := by
  have key : ∀ (c : Core), c.w.wf = true → c.a.wf = true → c.c.wf = true → ∀ spc, (c.buf spc).wf = true := by
    intro c h1 h2 h3 spc; unfold Core.buf; split <;> first | assumption | rfl
  intro co spc
  unfold State.coreAt
  have : ∀ l : List (Nat × Core), l.all (fun p => p.2.w.wf && p.2.a.wf && p.2.c.wf) = true → ∀ k c, look k l = some c →
      c.w.wf = true ∧ c.a.wf = true ∧ c.c.wf = true := by
    intro l
    induction l with
    | nil => intro _ k c hc; simp [look] at hc
    | cons p r ih =>
      intro hl k c hc
      simp only [List.all_cons, Bool.and_eq_true] at hl
      unfold look at hc
      split at hc
      · cases hc; exact ⟨hl.1.1.1, hl.1.1.2, hl.1.2⟩
      · exact ih hl.2 k c hc
  cases hl : look (8 * s.cl + co) s.cores with
  | none => exact key _ (by decide) (by decide) (by decide) spc
  | some c => have := this _ h _ _ hl; exact key _ this.1 this.2.1 this.2.2 spc
/-- The bytes that the pieces of a copy read lie below a bound, and those that they write. -/
theorem from_bound {k n N : Nat} {c : Cmd} (h : (List.range n).all (fun e => (copyPieces k c e).all (fun p => p.1.all (fun b => decide (b + p.2.2 ≤ N)))) = true) :
    ∀ a, (∃ e, e < n ∧ ∃ p ∈ copyPieces k c e, ∃ b, p.1 = some b ∧ b ≤ a ∧ a < b + p.2.2) → a < N := by
  rintro a ⟨e, he, p, hp, b, hb, h1, h2⟩
  have := List.all_eq_true.mp (List.all_eq_true.mp h e (List.mem_range.mpr he)) p hp
  rw [hb] at this; simp at this; omega
theorem to_bound {k n N : Nat} {c : Cmd} (h : (List.range n).all (fun e => (copyPieces k c e).all (fun p => decide (p.2.1 + p.2.2 ≤ N))) = true) :
    ∀ a, (∃ e, e < n ∧ ∃ p ∈ copyPieces k c e, p.2.1 ≤ a ∧ a < p.2.1 + p.2.2) → a < N := by
  rintro a ⟨e, he, p, hp, h1, h2⟩
  have := List.all_eq_true.mp (List.all_eq_true.mp h e (List.mem_range.mpr he)) p hp
  simp at this; omega
/-- A side in a buffer is placed, and one in device memory whose page has a translation to itself. -/
theorem placed_buf {s : State} {x : Side} {acc : Acc} {used : Nat → Prop} (h : x.spc ≠ 0) : SidePlaced s x acc id used := fun z => absurd z h
theorem placed_dev {s : State} {x : Side} {acc : Acc} {used : Nat → Prop} {N : Nat} (hb : ∀ a, used a → a < N)
    (h : (List.range N).all (fun a => decide (x.base + a < 2 ^ 54) && decide (x.base + a < peerBase) && isOk (.mem (x.base + a), s) (s.xlate (x.base + a) acc .other)) = true) :
    SidePlaced s x acc id used := by
  intro _ a ha
  have := List.all_eq_true.mp h a (List.mem_range.mpr (hb a ha))
  simp only [Bool.and_eq_true, decide_eq_true_eq] at this
  exact ⟨this.1.1, ok_of this.2, this.1.2, fun _ _ => rfl⟩

/-- Words at 0x1000 of W, the page of memState for reads and writes; g1 and g2 as given, g3 the shape; v6 = 1, 0, 9; handle 4 is a region
of W at 0x1000; VL 3, q2 = 3. -/
def copyState (a b shape : Word) : State :=
  let s := (memState.modSlot (fun x => { withG [(1, a), (2, b), (3, shape), (5, 0x200), (6, 0x3000)] x with vtype := 0x00800082, vl := 3 })).modCore (fun c => { c with
    w := Mem.write [] 0x1000 0x0123456789ABCDEF00112233 12
    f := { c.f with v := c.f.v.setIfInBounds 6 0x900000000000000001, lq := c.f.lq.setIfInBounds 2 [3], occ := c.f.occ.setIfInBounds 2 1 }
    h := c.h.setIfInBounds 4 { Handle.free with held := true, buf := 1, off := 0x1000, len := 64, state := 2 } })
  match s.xlate 0x20000 .wr .other with | .ok (_, u) => u | _ => s
/-- The hypotheses of CopiesMoveTheirElements. -/
def CopyPremise (s : State) (i : Instr) (k : Nat) (o : OpG8) (n m : Nat) (x y : Side) (loc : Nat → Nat) : Prop :=
  ∃ (c : Cmd) (from_ to_ : Nat → Prop), s.Quiet ∧ i.WellFormed ∧ (i = .cpy o ∧ k = 0 ∨ i = .cpyt o ∧ k = 1 ∨ i = .cpyg o ∧ k = 2) ∧
    LenIs s o.len m ∧ n = lengthOf s o.len m ∧ CopyFits s i k o n ∧ BuffersWf s ∧ (s.core.handle o.d.toNat).bar = false ∧
    c = startedCopy s i o n (if k = 2 then (List.range n).map (fun e => elem (s.vreg (fld o.imm 8 6)) 32 e) else []) ∧
    x = s.srcSide o c ∧ y = s.dstSide o c ∧
    from_ = (fun a => ∃ e, e < n ∧ ∃ p ∈ copyPieces k c e, ∃ b, p.1 = some b ∧ b ≤ a ∧ a < b + p.2.2) ∧
    to_ = (fun a => ∃ e, e < n ∧ ∃ p ∈ copyPieces k c e, p.2.1 ≤ a ∧ a < p.2.1 + p.2.2) ∧
    SidePlaced s x .rd loc from_ ∧ SidePlaced s y .wr loc to_ ∧
    (∀ v w, (x.spc = 0 ∧ (∃ a, from_ a ∧ v = x.base + a) ∨ y.spc = 0 ∧ ∃ a, to_ a ∧ v = y.base + a) →
      (y.spc = 0 ∧ ∃ b, to_ b ∧ w = y.base + b) → loc v = loc w → v = w)

/-- CPY from W to A and from device memory to A and from W to it; CPYT of two rows; CPYG from a handle's region, with an index outside. -/
theorem meets_copies :
    (∃ s : State, ∃ i k o n m x y loc, CopyPremise s i k o n m x y loc ∧ k = 0 ∧ n = 3) ∧ (∃ s : State, ∃ i k o n m x y loc, CopyPremise s i k o n m x y loc ∧ k = 1 ∧ n = 3) ∧
    (∃ s : State, ∃ i k o n m x y loc, CopyPremise s i k o n m x y loc ∧ k = 2 ∧ o.len = 6 ∧ o.imm.getLsbD 6 = true) ∧
    (∃ s : State, ∃ i k o n m x y loc, CopyPremise s i k o n m x y loc ∧ x.spc = 0) ∧ (∃ s : State, ∃ i k o n m x y loc, CopyPremise s i k o n m x y loc ∧ y.spc = 0) :=
  ⟨⟨copyState 0x1000 0x5FFB4 (4 + 4 * 2 ^ 20 + 4 * 2 ^ 42), .cpy ⟨5, 1, 2, 3, 0, 0, 0x11⟩, 0, ⟨5, 1, 2, 3, 0, 0, 0x11⟩, 3, 3, _, _, id,
     ⟨_, _, _, (quiet_of (by decide +kernel)), (wf_of (by decide +kernel)), .inl ⟨rfl, rfl⟩, (len_vl (by decide)), rfl, ⟨(by change fld _ 0 20 ≠ 0; decide +kernel), ⟨.inr (.inl (by decide +kernel)), .inr (.inl (by decide +kernel))⟩, by rw [if_pos rfl]; exact (ok_of (by decide +kernel)), by decide +kernel, (ok_of (by decide +kernel)), (by decide +kernel), by decide +kernel⟩,
      buffers_wf (by decide +kernel), (by decide +kernel), rfl, rfl, rfl, rfl, rfl, placed_buf (by decide +kernel), placed_buf (by decide +kernel), fun _ _ _ h => absurd h.1 (by decide +kernel)⟩, rfl, rfl⟩,
   ⟨copyState 0x1000 0x100 (2 + 2 * 2 ^ 8), .cpyt ⟨5, 1, 2, 3, 0, 0, 0x11⟩, 1, ⟨5, 1, 2, 3, 0, 0, 0x11⟩, 3, 3, _, _, id,
     ⟨_, _, _, (quiet_of (by decide +kernel)), (wf_of (by decide +kernel)), .inr (.inl ⟨rfl, rfl⟩), (len_vl (by decide)), rfl, ⟨(by change _ ∧ _; decide +kernel), ⟨.inr (.inl (by decide +kernel)), .inr (.inl (by decide +kernel))⟩, by rw [if_pos rfl]; exact (ok_of (by decide +kernel)), by decide +kernel, (ok_of (by decide +kernel)), (by decide +kernel), by decide +kernel⟩,
      buffers_wf (by decide +kernel), (by decide +kernel), rfl, rfl, rfl, rfl, rfl, placed_buf (by decide +kernel), placed_buf (by decide +kernel), fun _ _ _ h => absurd h.1 (by decide +kernel)⟩, rfl, rfl⟩,
   ⟨copyState 0 0x100 (4 + 9 * 2 ^ 42), .cpyg ⟨4, 1, 2, 3, 0, 6, 0x5A000650⟩, 2, ⟨4, 1, 2, 3, 0, 6, 0x5A000650⟩, 3, 3, _, _, id,
     ⟨_, _, _, (quiet_of (by decide +kernel)), (wf_of (by decide +kernel)), .inr (.inr ⟨rfl, rfl⟩), (len_lq (by decide +kernel)), rfl, ⟨(by change _ ∧ _; decide +kernel), ⟨.inl (by decide +kernel), .inr (.inl (by decide +kernel))⟩, by rw [if_neg (by decide)]; decide +kernel, by decide +kernel, (ok_of (by decide +kernel)), (by decide +kernel), by decide +kernel⟩,
      buffers_wf (by decide +kernel), (by decide +kernel), rfl, rfl, rfl, rfl, rfl, placed_buf (by decide +kernel), placed_buf (by decide +kernel), fun _ _ _ h => absurd h.1 (by decide +kernel)⟩, rfl, rfl, rfl⟩,
   ⟨copyState 0x20000 0x100 4, .cpy ⟨5, 1, 2, 3, 0, 0, 0x10⟩, 0, ⟨5, 1, 2, 3, 0, 0, 0x10⟩, 3, 3, _, _, id,
     ⟨_, _, _, (quiet_of (by decide +kernel)), (wf_of (by decide +kernel)), .inl ⟨rfl, rfl⟩, (len_vl (by decide)), rfl, ⟨(by change fld _ 0 20 ≠ 0; decide +kernel), ⟨.inr (.inr (by decide +kernel)), .inr (.inl (by decide +kernel))⟩, by rw [if_pos rfl]; exact (ok_of (by decide +kernel)), by decide +kernel, (ok_of (by decide +kernel)), (by decide +kernel), by decide +kernel⟩,
      buffers_wf (by decide +kernel), (by decide +kernel), rfl, rfl, rfl, rfl, rfl, placed_dev (from_bound (N := 12) (by decide +kernel)) (by decide +kernel), placed_buf (by decide +kernel), fun _ _ _ h => absurd h.1 (by decide +kernel)⟩, rfl⟩,
   ⟨copyState 0x1000 0x20000 4, .cpy ⟨5, 1, 2, 3, 0, 0, 1⟩, 0, ⟨5, 1, 2, 3, 0, 0, 1⟩, 3, 3, _, _, id,
     ⟨_, _, _, (quiet_of (by decide +kernel)), (wf_of (by decide +kernel)), .inl ⟨rfl, rfl⟩, (len_vl (by decide)), rfl, ⟨(by change fld _ 0 20 ≠ 0; decide +kernel), ⟨.inr (.inl (by decide +kernel)), .inr (.inr (by decide +kernel))⟩, by rw [if_pos rfl]; exact (ok_of (by decide +kernel)), by decide +kernel, (ok_of (by decide +kernel)), (by decide +kernel), by decide +kernel⟩,
      buffers_wf (by decide +kernel), (by decide +kernel), rfl, rfl, rfl, rfl, rfl, placed_buf (by decide +kernel), placed_dev (to_bound (N := 12) (by decide +kernel)) (by decide +kernel), fun _ _ _ _ h => h⟩, rfl⟩⟩

/-- An LZ4 block of two literals in W, its descriptor in A, into C. -/
def tiledState : State :=
  (memState.modSlot (withG [(1, 0x1003), (2, 0x3000), (3, 0x2000)])).modCore (fun c => { c with
    w := Mem.write [] 0x1003 0x020120 3, a := Mem.write [] 0x2000 (3 + 2 ^ 32 * 2 + 2 ^ 96) 16 })
theorem meets_cpyz :
    ∃ s : State, ∃ o : OpG8, ∃ c x y, ∃ w : Nat → Nat, ∃ block dec bad st, State.Quiet s ∧ Instr.WellFormed (.cpyz o) ∧ o.len = 0 ∧ BuffersWf s ∧
    (s.copyState o.d.toNat).ready = true ∧ (∀ h, (s.core.handle o.d.toNat).home = some h → h.2 < 32) ∧ (s.core.handle o.d.toNat).bar = false ∧
    o.imm.getLsbD 6 = false ∧ o.imm.getLsbD 7 = false ∧ fld o.imm 0 3 ≠ 0 ∧ fld o.imm 3 3 ≠ 0 ∧
    fld o.imm 14 3 ≠ 0 ∧ (s.g o.c).toNat % 32 = 0 ∧ (s.g o.c).toNat + 32 ≤ bufSize (fld o.imm 14 3) ∧
    s.core.notHolder (fld o.imm 14 3) (s.g o.c).toNat 32 = false ∧
    w = (fun k => s.heldNum (fld o.imm 14 3) ((s.g o.c).toNat + 4 * k) 4) ∧
    1 ≤ w 0 ∧ w 0 ≤ 4194304 ∧ 1 ≤ w 1 ∧ w 1 ≤ 4194304 ∧ 1 ≤ w 3 ∧ w 3 ≤ 3 ∧ w 6 = 0 ∧ w 7 = 0 ∧
    c = startedCopy s (.cpyz o) o 1 [w 0, w 1, w 2, w 3] ∧ x = s.srcSide o c ∧ y = s.dstSide o c ∧
    s.copyBounds 3 o (copyEntry s (.cpyz o) o) 1 (w 0) (w 1) true = .ok () ∧
    ((s.g o.c).toNat + 24 ≤ y.base ∨ y.base + w 1 ≤ (s.g o.c).toNat + 16 ∨ y.spc ≠ fld o.imm 14 3) ∧
    block = (List.range (w 0)).map (fun j => s.held x.spc (x.base + j)) ∧
    bad = (decide (2 ≤ w 3) && decide (crc32c block ≠ w 2)) ∧ dec = (if w 3 % 2 = 1 then lz4 block else (block, false)) ∧
    st = (if bad = true then 2 else max (if dec.2 then 4 else 0) (if w 1 < dec.1.length then 3 else 0)) ∧ dec.1.length = 2 :=
  ⟨tiledState, ⟨5, 1, 2, 3, 0, 0, 0x8019⟩, _, _, _, _, _, _, _, _, (quiet_of (by decide +kernel)), (wf_of (by decide +kernel)), rfl, buffers_wf (by decide +kernel), (by decide +kernel), (by decide +kernel), (by decide +kernel), rfl, rfl, (by decide +kernel), (by decide +kernel), (by decide +kernel), (by decide +kernel), (by decide +kernel), (by decide +kernel), rfl, (by decide +kernel), (by decide +kernel), (by decide +kernel), (by decide +kernel),
   (by decide +kernel), (by decide +kernel), (by decide +kernel), (by decide +kernel), rfl, rfl, rfl, (ok_of (by decide +kernel)), .inr (.inr (by decide +kernel)), rfl, rfl, rfl, rfl, (by decide +kernel)⟩

/-- A CPY of three elements under way, of which element 0 has landed; one whose elements have all landed. -/
def copyCmd (tr : Nat × Nat × Nat × Nat) : Cmd :=
  { copyEntry (copyState 0x1000 0x100 4) (.cpy ⟨5, 1, 2, 3, 0, 0, 0x11⟩) ⟨5, 1, 2, 3, 0, 0, 0x11⟩ with disp := true, resume := 1, tr := tr }
def copying (tr : Nat × Nat × Nat × Nat) (bar : Bool) : State :=
  ((copyState 0x1000 0x100 4).modCore (fun c => { c with
    queue := [copyCmd tr]
    h := c.h.setIfInBounds 5 { Handle.free with state := 1, bar := bar, boff := 0x20 } })).at_ 3 5 true
theorem meets_landings :
    (∃ s : State, ∃ u cl core q e, ∃ o : OpG8, ∃ c : Cmd, ∃ g, u = State.at_ s cl core false ∧ u.core.queue = [c] ∧ c.qpos = q ∧ c.hi = false ∧ c.ins = .cpy o ∧
      c.disp = true ∧ c.done = false ∧ c.faulted = false ∧ c.held = false ∧ 0 < c.resume ∧ e < c.cpCount ∧ c.cpLanded e = false ∧ Instr.WellFormed (.cpy o) ∧ o.imm.getLsbD 6 = false ∧
      o.imm.getLsbD 7 = false ∧ fld o.imm 0 3 ≠ 0 ∧ fld o.imm 3 3 ≠ 0 ∧ g = copyGeo 0 c.gc c.cpCount ∧ 0 < g.1 ∧ (u.core.handle o.d.toNat).home = none ∧
      ((u.core.handle o.d.toNat).bar = true → fld o.imm 3 3 ≠ 3) ∧ (u.core.buf (fld o.imm 3 3)).wf = true ∧ u.core.c.wf = true ∧ e = 2 ∧
      (u.core.handle o.d.toNat).bar = true) ∧
    (∃ s : State, ∃ u cl core q k, ∃ o : OpG8, ∃ c : Cmd, u = State.at_ s cl core false ∧ u.core.queue = [c] ∧ c.qpos = q ∧ c.hi = false ∧ copyKind c.ins = some (k, o) ∧
      c.eng = .copy ∧ c.under = true ∧ 0 < c.resume ∧ c.cpNext = none ∧ (u.core.handle o.d.toNat).home = none ∧
      (u.core.handle o.d.toNat).bar = false ∧ o.d.toNat < 32) :=
  ⟨⟨copying (3, 0, 0, 1) true, _, 0, 0, _, 2, _, _, _, rfl, rfl, rfl, rfl, rfl, rfl, rfl, rfl, rfl, (by decide +kernel), (by decide +kernel), (by decide +kernel), (wf_of (by decide +kernel)), (by decide +kernel), (by decide +kernel), (by decide +kernel), (by decide +kernel), rfl, (by decide +kernel), (by decide +kernel), (by decide +kernel), (by decide +kernel), (by decide +kernel), rfl, (by decide +kernel)⟩,
   ⟨copying (3, 0, 0, 7) false, _, 0, 0, _, _, _, _, rfl, rfl, rfl, rfl, rfl, rfl, rfl, (by decide +kernel), (by decide +kernel), (by decide +kernel), (by decide +kernel), (by decide +kernel)⟩⟩

/-- Handle 4 and two more with given contents; g1 as given; an offer of core 3's handle 7 and one of core 0's own. -/
def handleState (g1 : Word) (h : Handle) : State :=
  (((running (fun x => { withG [(1, g1)] x with vtype := 0x00800042, vl := 4 }) id).modClus (fun c => { c with offers := [⟨3, 7, 1, 2, 0⟩, ⟨0, 4, 3, 5, 0⟩] })).setHandle 5
    { Handle.free with buf := 1, off := 128, len := 64, held := true }).setHandle 4 h
/-- A region of the last 64 bytes of W; no region; a handle that goes, that is offered, that is taken, and that is passed. -/
theorem meets_handles :
    (∃ s : State, ∃ o : OpA2, ∃ w, State.Quiet s ∧ Instr.WellFormed (.halloc o) ∧ w = s.g o.a ∧ regionBad w = false ∧
      (fld w 62 2 ≠ 0 → fld w 0 19 + fld w 22 20 ≤ bufSize (fld w 62 2)) ∧ (s.copyState o.d.toNat).ready = true ∧ (s.core.handle o.d.toNat).buf = 0 ∧
      (fld w 62 2 ≠ 0 → ∀ x ∈ s.core.h.toList, ¬(x.buf = fld w 62 2 ∧ x.home = none ∧ overlap (fld w 0 19) (fld w 22 20) x.off x.len = true)) ∧
      fld w 0 19 + 64 = bufSize 1) ∧
    (∃ s : State, ∃ o : OpA2, State.Quiet s ∧ Instr.WellFormed (.hfree o) ∧ (s.copyState o.d.toNat).ready = true ∧ (s.core.handle o.d.toNat).buf ≠ 0 ∧
      (s.core.handle o.d.toNat).held = true ∧ (s.core.handle o.d.toNat).home = none) ∧
    (∃ s : State, ∃ o : OpA2, State.Quiet s ∧ Instr.WellFormed (.hgive o) ∧ (s.g o.a).toNat < 8 ∧ (s.g o.a).toNat ≠ s.co ∧ (s.copyState o.d.toNat).ready = true ∧
      (s.core.handle o.d.toNat).buf ≠ 0 ∧ (s.core.handle o.d.toNat).held = true ∧ (s.core.handle o.d.toNat).home = none ∧ (s.g o.a).toNat = 7) ∧
    (∃ s : State, ∃ o : OpA2, State.Quiet s ∧ Instr.WellFormed (.hgive o) ∧ (s.g o.a).toNat < 8 ∧ (s.g o.a).toNat ≠ s.co ∧ (s.copyState o.d.toNat).ready = true ∧
      (s.core.handle o.d.toNat).buf ≠ 0 ∧ (s.core.handle o.d.toNat).held = true ∧ (s.core.handle o.d.toNat).home = some (3, 7)) ∧
    (∃ s : State, ∃ o : OpA2, ∃ f : Offer, State.Quiet s ∧ Instr.WellFormed (.htake o) ∧ fld (s.g o.a) 3 5 = 0 ∧ fld (s.g o.a) 13 51 = 0 ∧ fld (s.g o.a) 0 3 ≠ s.co ∧
      s.offerFor (s.g o.a) = some f ∧
      (if f.homeCore = s.co then o.d.toNat = f.homeH else (s.core.handle o.d.toNat).buf = 0 ∧ (s.core.handle o.d.toNat).state = 0) ∧ f.homeCore ≠ s.co) ∧
    (∃ s : State, ∃ o : OpA2, ∃ f : Offer, State.Quiet s ∧ Instr.WellFormed (.htake o) ∧ fld (s.g o.a) 3 5 = 0 ∧ fld (s.g o.a) 13 51 = 0 ∧ fld (s.g o.a) 0 3 ≠ s.co ∧
      s.offerFor (s.g o.a) = some f ∧
      (if f.homeCore = s.co then o.d.toNat = f.homeH else (s.core.handle o.d.toNat).buf = 0 ∧ (s.core.handle o.d.toNat).state = 0) ∧ f.homeCore = s.co) ∧
    (∃ s : State, ∃ o : OpA2, State.Free s ∧ Instr.WellFormed (.hwait o) ∧ (s.g o.a).toNat ≤ 512 ∧ (∀ c ∈ s.older, c.willCopy o.d.toNat = false) ∧
      ((s.copyState o.d.toNat).state = 0 ∨ (s.copyState o.d.toNat).state = 2 ∨ 0 < (s.g o.a).toNat ∧ (s.g o.a).toNat ≤ (s.copyState o.d.toNat).landed) ∧
      (s.copyState o.d.toNat).state = 1 ∧ (s.g o.a).toNat = 512) ∧
    (∃ s : State, ∃ o : OpA2, State.Free s ∧ Instr.WellFormed (.hstat o) ∧ (∀ c ∈ s.older, c.willCopy o.d.toNat = false)) :=
  ⟨⟨handleState (2 ^ 62 + 2 ^ 22 * 64 + 0x7FFC0) Handle.free, ⟨4, 1, 0⟩, _, (quiet_of (by decide +kernel)), (wf_of (by decide +kernel)), rfl, (by decide +kernel), (by decide +kernel), (by decide +kernel), (by decide +kernel), (by decide +kernel), (by decide +kernel)⟩,
   ⟨handleState 0 { Handle.free with buf := 1, held := true, state := 2 }, ⟨4, 0, 0⟩, (quiet_of (by decide +kernel)), (wf_of (by decide +kernel)), (by decide +kernel), (by decide +kernel), (by decide +kernel), (by decide +kernel)⟩,
   ⟨handleState 7 { Handle.free with buf := 1, held := true, state := 2 }, ⟨4, 1, 0⟩, (quiet_of (by decide +kernel)), (wf_of (by decide +kernel)), (by decide +kernel), (by decide +kernel), (by decide +kernel), (by decide +kernel), (by decide +kernel), (by decide +kernel), (by decide +kernel)⟩,
   ⟨handleState 2 { Handle.free with buf := 1, held := true, home := some (3, 7) }, ⟨4, 1, 0⟩, (quiet_of (by decide +kernel)), (wf_of (by decide +kernel)), (by decide +kernel), (by decide +kernel), (by decide +kernel), (by decide +kernel), (by decide +kernel), (by decide +kernel)⟩,
   ⟨handleState 0x201 Handle.free, ⟨4, 1, 0⟩, ⟨3, 7, 1, 2, 0⟩, (quiet_of (by decide +kernel)), (wf_of (by decide +kernel)), (by decide +kernel), (by decide +kernel), (by decide +kernel), (by decide +kernel), (by decide +kernel), (by decide +kernel)⟩,
   ⟨handleState 0x503 { Handle.free with buf := 1 }, ⟨4, 1, 0⟩, ⟨0, 4, 3, 5, 0⟩, (quiet_of (by decide +kernel)), (wf_of (by decide +kernel)), (by decide +kernel), (by decide +kernel), (by decide +kernel), (by decide +kernel), (by decide +kernel), (by decide +kernel)⟩,
   ⟨handleState 512 { Handle.free with buf := 1, state := 1, landed := 512 }, ⟨4, 1, 0⟩, (free_of (by decide +kernel)), (wf_of (by decide +kernel)), (by decide +kernel), (by decide +kernel), (by decide +kernel), (by decide +kernel), (by decide +kernel)⟩,
   ⟨handleState 512 { Handle.free with buf := 1, state := 1, landed := 512 }, ⟨4, 6, 0⟩, (free_of (by decide +kernel)), (wf_of (by decide +kernel)), (by decide +kernel)⟩⟩

/-- Barrier objects in C of core 3 of the cluster and in device memory; g1 their address, g2 as given. -/
def barState (w n : Word) : State :=
  let s := (memState.modSlot (fun x => { withG [(1, w), (2, n)] x with vtype := 0x00800042, vl := 4 })).setCoreAt 0 3 { Core.fresh with c := Mem.write [] 0x40 (2 ^ 127 + 5) 16 }
  match s.xlate 0x20000 .atm .other with | .ok (_, u) => u | _ => s
/-- The last object of C of core 3. -/
def lastObj : Word := 2 ^ 63 + 3 * 2 ^ 21 + 3 * 2 ^ 19 + 131056
theorem meets_barriers :
    (∃ s : State, ∃ i, ∃ o : OpA2, ∃ f : Nat → Nat, ∃ loc, State.Quiet s ∧ Instr.WellFormed i ∧ ObjectReady s (s.g o.d) .atm loc ∧ ((s.g o.d).getLsbD 63 = false → EntryFor s loc) ∧ i = .binit o ∧ 1 ≤ (s.g o.a).toNat ∧
      (s.g o.a).toNat ≤ 65535 ∧ f = (fun _ => barInit o.b.toNat (s.g o.a).toNat) ∧ (s.g o.a).toNat = 65535) ∧
    (∃ s : State, ∃ i, ∃ o : OpA2, ∃ f : Nat → Nat, ∃ loc, State.Quiet s ∧ Instr.WellFormed i ∧ ObjectReady s (s.g o.d) .atm loc ∧ ((s.g o.d).getLsbD 63 = false → EntryFor s loc) ∧ i = .bexpect o ∧ 1 ≤ (s.g o.a).toNat ∧
      (s.g o.a).toNat < 2 ^ 31 ∧ f = barBytes ((s.g o.a).toNat : Int) ∧ (s.g o.a).toNat = 2 ^ 31 - 1 ∧ (s.g o.d).getLsbD 63 = false) ∧
    (∃ s : State, ∃ o : OpA2, ∃ loc, State.Quiet s ∧ Instr.WellFormed (.barrive o) ∧ (s.g o.a).toNat < 65536 ∧ ObjectReady s (s.g o.d) .atm loc ∧ ((s.g o.d).getLsbD 63 = false → EntryFor (s.release o.b.toNat) loc) ∧ s.g o.a = 0) ∧
    (∃ s : State, ∃ o : OpA2, ∃ loc, State.Quiet s ∧ Instr.WellFormed (.barrive o) ∧ (s.g o.a).toNat < 65536 ∧ ObjectReady s (s.g o.d) .atm loc ∧
      ((s.g o.d).getLsbD 63 = false → EntryFor (s.release o.b.toNat) loc) ∧ (s.g o.d).getLsbD 63 = false) ∧
    (∃ s : State, ∃ w loc, ∃ f : Nat → Nat, BuffersWf s ∧ w.getLsbD 63 = true ∧ ObjectReady s w .atm loc ∧ f (objectAt s w loc) < 2 ^ 128 ∧ f = barArrive 1) ∧
    (∃ x n k : Nat, x < 2 ^ 128 ∧ k < 65536 ∧ n < 2 ^ 31 ∧ k = 65535 ∧ x = 2 ^ 128 - 1) ∧
    (∃ s : State, ∃ o : OpA2, ∃ loc u, State.Free s ∧ Instr.WellFormed (.bwait o) ∧ ObjectReady s (s.g o.d) .rd loc ∧
      u = (if (s.g o.d).getLsbD 63 then s else (s.settle (loc / 64)).lineHome loc) ∧ (objectAt u (s.g o.d) loc).testBit 127 ≠ (s.g o.a).getLsbD 0) ∧
    (∃ s : State, ∃ o : OpA2, ∃ loc u, State.Free s ∧ Instr.WellFormed (.btest o) ∧ ObjectReady s (s.g o.d) .rd loc ∧
      u = (if (s.g o.d).getLsbD 63 then s else (s.settle (loc / 64)).lineHome loc) ∧ (s.g o.d).getLsbD 63 = false) :=
  ⟨⟨barState lastObj 65535, _, ⟨1, 2, 3⟩, _, 0, (quiet_of (by decide +kernel)), (wf_of (by decide +kernel)), ⟨(by decide +kernel), by rw [if_pos (by decide +kernel)]; decide +kernel⟩, fun h => absurd h (by decide +kernel), rfl, (by decide +kernel), (by decide +kernel), rfl, (by decide +kernel)⟩,
   ⟨barState 0x20010 0x7FFFFFFF, _, ⟨1, 2, 0⟩, _, 0x20010, (quiet_of (by decide +kernel)), (wf_of (by decide +kernel)), ⟨(by decide +kernel), by rw [if_neg (by decide +kernel)]; exact ⟨(by decide +kernel), (ok_of (by decide +kernel)), .inl (by decide +kernel)⟩⟩, fun _ _ => (by decide +kernel), rfl, (by decide +kernel), (by decide +kernel), rfl, (by decide +kernel), (by decide +kernel)⟩,
   ⟨barState lastObj 0, ⟨1, 2, 3⟩, 0, (quiet_of (by decide +kernel)), (wf_of (by decide +kernel)), (by decide +kernel), ⟨(by decide +kernel), by rw [if_pos (by decide +kernel)]; decide +kernel⟩, fun h => absurd h (by decide +kernel), (by decide +kernel)⟩,
   ⟨barState 0x20010 3, ⟨1, 2, 3⟩, 0x20010, (quiet_of (by decide +kernel)), (wf_of (by decide +kernel)), (by decide +kernel), ⟨(by decide +kernel), by rw [if_neg (by decide +kernel)]; exact ⟨(by decide +kernel), (ok_of (by decide +kernel)), .inl (by decide +kernel)⟩⟩, fun _ _ => (by decide +kernel), (by decide +kernel)⟩,
   ⟨barState lastObj 0, lastObj, 0, _, buffers_wf (by decide +kernel), (by decide +kernel), ⟨(by decide +kernel), by rw [if_pos (by decide +kernel)]; decide +kernel⟩, (by decide +kernel), rfl⟩,
   ⟨2 ^ 128 - 1, 2 ^ 31 - 1, 65535, by decide⟩,
   ⟨barState 0x8000000000780040 0, ⟨1, 2, 0⟩, 0, _, (free_of (by decide +kernel)), (wf_of (by decide +kernel)), ⟨(by decide +kernel), by rw [if_pos (by decide +kernel)]; decide +kernel⟩, rfl, (by decide +kernel)⟩,
   ⟨barState 0x20010 0, ⟨1, 2, 0⟩, 0x20010, _, (free_of (by decide +kernel)), (wf_of (by decide +kernel)), ⟨(by decide +kernel), by rw [if_neg (by decide +kernel)]; exact ⟨(by decide +kernel), (ok_of (by decide +kernel)), .inl (by decide +kernel)⟩⟩, rfl, (by decide +kernel)⟩⟩
/-- A BARRIVE that waits with its arrival. -/
def arriving : State :=
  (barState lastObj 2).modCore (fun c => { c with queue := [{ ({ eng := .vec, ins := .barrive ⟨1, 2, 3⟩, lens := [], ga := lastObj, gb := 2 } : Ticket).entry
    (barState lastObj 2) with disp := true, resume := 1, ena := false }] })
theorem meets_barrive :
    ∃ s : State, ∃ u cl core q, ∃ o : OpA2, ∃ c : Cmd, ∃ loc, u = State.at_ s cl core false ∧ u.core.queue = [c] ∧ c.qpos = q ∧ c.hi = false ∧
    c.ins = .barrive o ∧ c.eng = .vec ∧ c.ena = false ∧ c.under = true ∧ 0 < c.resume ∧
    ObjectReady u c.ga .atm loc ∧ (c.ga.getLsbD 63 = false → EntryFor (u.release o.b.toNat) loc) ∧ fld c.gb 0 16 ≠ 0 :=
  ⟨arriving, _, 0, 0, _, _, _, 0, rfl, rfl, rfl, rfl, rfl, rfl, rfl, rfl, (by decide +kernel), ⟨(by decide +kernel), by rw [if_pos (by decide +kernel)]; decide +kernel⟩, fun h => absurd h (by decide +kernel), (by decide +kernel)⟩

/-- PHASE at system scope and, with a new error under ERRPOL, at core scope, where the fetched lines go. -/
theorem meets_phases :
    (∃ s : State, ∃ o : BitVec 3, State.Free s ∧ Instr.WellFormed (.phase o) ∧ (∀ c ∈ s.core.queue, c.hi = s.hi → c.done = true ∨ s.transfers c = false) ∧
      (s.core.errmark = s.core.errcnt ∨ s.slot.status.getLsbD 9 = false) ∧ o = 4) ∧
    (∃ s : State, ∃ o : BitVec 3, State.Free s ∧ Instr.WellFormed (.phase o) ∧ (∀ c ∈ s.core.queue, c.hi = s.hi → c.done = true ∨ s.transfers c = false) ∧
      s.core.errmark ≠ s.core.errcnt ∧ s.slot.status.getLsbD 9 = true ∧ o = 0) ∧
    (∃ s : State, State.Free s ∧ s.older = []) ∧
    (∃ s : State, State.Free s ∧ s.slot.rfout = 0 ∧ (∀ c ∈ s.core.queue, c.hi = s.hi → c.done = true ∨ c.returnFree = false) ∧ s.core.queue ≠ []) :=
  ⟨⟨queueState id, 4, (free_of (by decide +kernel)), (wf_of (by decide +kernel)), (by decide +kernel), (by decide +kernel), rfl⟩, ⟨(running (fun x => { x with status := 2 ^ 9 }) (fun c => { c with errcnt := 3 })), 0, (free_of (by decide +kernel)), (wf_of (by decide +kernel)), (by decide +kernel), (by decide +kernel), (by decide +kernel), rfl⟩,
   ⟨running id id, (free_of (by decide +kernel)), (by decide +kernel)⟩, ⟨queueState id, (free_of (by decide +kernel)), (by decide +kernel), (by decide +kernel), (by decide +kernel)⟩⟩

/-- Core 0 of cluster 0, of the gang word w (members and GVL), with the given gangs; it has joined where asked. -/
def gangState (w : Word) (gs : List Gang) (rank : Option Nat) : State :=
  (memState.modSlot (fun x => { withG [(1, w), (2, 0x20000)] x with vtype := 0x00800082, vl := 4, strips := 2
                                                                    gang := (rank.map (fun r => word (2 ^ 63 + 4 * 2 ^ 19 + r * 2 ^ 16 + 3))).getD 0 })).modClus
    (fun c => { c with gangs := gs })
/-- A gang of cores 0 and 1 with GVL 4. -/
def gangWd : Word := 0x403
theorem reaches_each {s : State} {acc : Acc} {n w : Nat} {f : Nat → Nat}
    (h : (List.range n).all (fun e => f e % w == 0 && decide (f e < 2 ^ 54) && decide (f e < peerBase) && isOk (.mem (f e), s) (s.xlate (f e) acc .other)) = true) :
    ∀ e, e < n → Reaches s 0 (f e) w acc (f e) ∧ Readable s 0 w (f e) := by
  intro e he
  have := List.all_eq_true.mp h e (List.mem_range.mpr he)
  simp only [Bool.and_eq_true, decide_eq_true_eq, beq_iff_eq] at this
  exact ⟨⟨this.1.1.1, by simp only [if_true]; exact ⟨this.1.1.2, ok_of this.2⟩⟩, fun _ => .inl this.1.2⟩
theorem meets_gangs :
    (∃ s : State, ∃ o : OpA2, Instr.WellFormed (.gangon o) ∧ ¬gangLegal s (s.g o.a)) ∧
    (∃ s : State, ∃ o : OpA2, ∃ w, State.Free s ∧ Instr.WellFormed (.gangon o) ∧ w = s.g o.a ∧ gangLegal s w ∧ s.slot.gang.getLsbD 63 = false ∧
      ∃ g, s.myGang = some g ∧ g.formed = true) ∧
    (∃ s : State, ∃ o : OpA2, ∃ w, State.Free s ∧ Instr.WellFormed (.gangon o) ∧ w = s.g o.a ∧ gangLegal s w ∧ s.slot.gang.getLsbD 63 = false ∧
      ∃ g : Gang, s.myGang = none ∧ firstSat (fun g => !g.formed && g.wd == w) s.clus.gangs = some g ∧
      (∀ h ∈ s.clus.gangs, h.has s.co (!s.hi) = false) ∧ (∀ c ∈ gangCores w, c = s.co ∨ ∃ p ∈ g.mem, p.1 = c)) ∧
    (∃ s : State, ∃ o : OpA2, ∃ w, State.Free s ∧ Instr.WellFormed (.gangon o) ∧ w = s.g o.a ∧ gangLegal s w ∧ s.slot.gang.getLsbD 63 = false ∧
      s.clus.gangs = [] ∧ gangCores w = [s.co] ∧ fld w 8 10 = 512) ∧
    (∃ s : State, ∃ o : OpA2, ∃ g : Gang, State.Free s ∧ Instr.WellFormed (.gangoff o) ∧ s.slot.gang.getLsbD 63 = true ∧ s.myGang = some g ∧
      (∀ c ∈ gangCores g.wd, c = s.co ∨ c ∈ g.off) ∧ s.gangBusy g = false) ∧
    (∃ s : State, ∃ o : OpM4, ∃ gvl key, ∃ loc : Nat → Nat, State.Quiet s ∧ Instr.WellFormed (.vldg o) ∧ s.slot.gang.getLsbD 63 = true ∧ s.myGang.isSome = true ∧
      gvl = fld s.slot.gang 19 10 ∧ gvl ≤ vlmax (vtSew s.slot.vtype) ∧ key = (o.d.toNat, vtSewCode s.slot.vtype) ∧ fld s.slot.gang 16 3 = 0 ∧
      ∀ e, e < gvl → Reaches s o.spc (placed (s.g o.base) e (vtSew s.slot.vtype / 8 : Nat)) (vtSew s.slot.vtype / 8) .rd (loc e) ∧
        Readable s o.spc (vtSew s.slot.vtype / 8) (loc e)) ∧
    (∃ s : State, ∃ o : OpM4, ∃ n gvl key xs took, State.Quiet s ∧ Instr.WellFormed (.vldg o) ∧ s.slot.gang.getLsbD 63 = true ∧ s.myGang.isSome = true ∧
      gvl = fld s.slot.gang 19 10 ∧ gvl ≤ vlmax (vtSew s.slot.vtype) ∧ n = s.slot.strips ∧ key = (o.d.toNat, vtSewCode s.slot.vtype) ∧ fld s.slot.gang 16 3 ≠ 0 ∧
      s.myGang.bind (fun g => g.strip n) = some (key, xs, took) ∧ xs.length = gvl ∧ (∀ x ∈ xs, x < 2 ^ vtSew s.slot.vtype) ∧ o.spc = 0 ∧ o.base = 0) :=
  ⟨⟨gangState 2 [] none, ⟨5, 1, 0⟩, (wf_of (by decide +kernel)), fun h => absurd h.2.2.2 (by decide +kernel)⟩,
   ⟨gangState gangWd [⟨gangWd, [(0, false), (1, false)], true, [], []⟩] none, ⟨5, 1, 0⟩, _, (free_of (by decide +kernel)), (wf_of (by decide +kernel)), rfl, ⟨(by decide +kernel), (by decide +kernel), (by decide +kernel), (by decide +kernel)⟩, (by decide +kernel), (some_of (by decide +kernel))⟩,
   ⟨gangState gangWd [⟨gangWd, [(1, false)], false, [], []⟩] none, ⟨5, 1, 0⟩, _, (free_of (by decide +kernel)), (wf_of (by decide +kernel)), rfl, ⟨(by decide +kernel), (by decide +kernel), (by decide +kernel), (by decide +kernel)⟩, (by decide +kernel), _, (by decide +kernel), rfl, (by decide +kernel), (by decide +kernel)⟩,
   ⟨gangState (512 * 256 + 1) [] none, ⟨5, 1, 0⟩, _, (free_of (by decide +kernel)), (wf_of (by decide +kernel)), rfl, ⟨(by decide +kernel), (by decide +kernel), (by decide +kernel), (by decide +kernel)⟩, (by decide +kernel), (by decide +kernel), (by decide +kernel), (by decide +kernel)⟩,
   ⟨gangState 0 [⟨gangWd, [(0, false), (1, false)], true, [1], []⟩] (some 0), ⟨5, 0, 0⟩, ⟨gangWd, [(0, false), (1, false)], true, [1], []⟩, (free_of (by decide +kernel)), (wf_of (by decide +kernel)), (by decide +kernel), (by decide +kernel), (by decide +kernel), (by decide +kernel)⟩,
   ⟨gangState 0 [⟨gangWd, [(0, false), (1, false)], true, [], []⟩] (some 0), ⟨3, 0, 2, 0, 0, 0⟩, _, _, _, (quiet_of (by decide +kernel)), (wf_of (by decide +kernel)), (by decide +kernel), (by decide +kernel), rfl, (by decide +kernel), rfl, (by decide +kernel),
    reaches_each (by decide +kernel)⟩,
   ⟨gangState 0 [⟨gangWd, [(0, false), (1, false)], true, [], [(2, (3, 2), [7, 8, 9, 2 ^ 32 - 1], [])]⟩] (some 1), ⟨3, 0, 0, 0, 0, 0⟩, 2, 4, _, [7, 8, 9, 2 ^ 32 - 1], [],
    (quiet_of (by decide +kernel)), (wf_of (by decide +kernel)), (by decide +kernel), (by decide +kernel), (by decide +kernel), (by decide +kernel), (by decide +kernel), rfl, (by decide +kernel), (by decide +kernel), rfl, (by decide +kernel), rfl, rfl⟩⟩
/-- A VLDG that waits, of rank 1, whose strip has come. -/
def vldgState : State :=
  let s := gangState 0 [⟨gangWd, [(0, false), (1, false)], true, [], [(2, (3, 2), [7, 8, 9, 10], [])]⟩] (some 1)
  s.modCore (fun c => { c with queue := [{ ({ eng := .vec, ins := .vldg ⟨3, 0, 0, 0, 0, 0⟩, lens := [] } : Ticket).entry s with disp := true, ena := false }] })
theorem meets_vldgDeliver :
    ∃ s : State, ∃ u cl core, ∃ o : OpM4, ∃ c : Cmd, ∃ n gvl key xs took, u = State.at_ s cl core false ∧ u.core.queue = [c] ∧ c.hi = false ∧ c.ins = .vldg o ∧
    c.eng = .vec ∧ c.ena = false ∧ c.disp = true ∧ c.done = false ∧ c.faulted = false ∧ u.slot.gang.getLsbD 63 = true ∧ u.myGang.isSome = true ∧
    gvl = fld u.slot.gang 19 10 ∧ gvl ≤ vlmax (vtSew c.vtype) ∧ n = u.slot.strips ∧ key = (o.d.toNat, vtSewCode c.vtype) ∧
    fld u.slot.gang 16 3 ≠ 0 ∧ u.myGang.bind (fun g => g.strip n) = some (key, xs, took) ∧ xs.length = gvl ∧ (∀ x ∈ xs, x < 2 ^ vtSew c.vtype) :=
  ⟨vldgState, _, 0, 0, _, _, 2, 4, _, [7, 8, 9, 10], [], rfl, rfl, rfl, rfl, rfl, rfl, rfl, rfl, rfl, (by decide +kernel), (by decide +kernel), (by decide +kernel), (by decide +kernel), (by decide +kernel), rfl, (by decide +kernel), (by decide +kernel), rfl, (by decide +kernel)⟩

end Sys2Proof.Machine
namespace Sys2Proof.Machine

/-! ### Collectives, coded packets and expert rows -/

/-- The hub holds a translation of an address to itself. -/
def hubFindsB (s : State) (ctx va n : Nat) (acc : Acc) : Bool :=
  decide (0 < n) && decide (va % 65536 + n ≤ 65536) && decide (va < 2 ^ 52) &&
    (match s.lookup s.xl.tlb ctx va with
     | .ok (t, false) => decide (leafCheck s.xl.up t.leaf acc .other = none) && decide (leafPlace t va = .mem va)
     | _ => false)
theorem hub_finds {s : State} {ctx va n : Nat} {acc : Acc} (h : hubFindsB s ctx va n acc = true) : HubFinds s ctx va n acc va := by
  simp only [hubFindsB, Bool.and_eq_true, decide_eq_true_eq] at h
  obtain ⟨⟨⟨h1, h2⟩, h3⟩, h4⟩ := h
  refine ⟨h1, h2, ?_, h3⟩
  split at h4
  · rename_i t ht
    simp only [Bool.and_eq_true, decide_eq_true_eq] at h4
    unfold State.xlateHub
    rw [if_neg (by omega), ht]
    simp only [h4.1, h4.2]; rfl
  · simp at h4
/-- Group 2 has ranks 0 and 1 here, group 3 a second rank behind port 3; the page at 0x20000 is warm for the hub and the core. -/
def hubState (m : Mem → Mem) (gl : List (Nat × Word)) (x : HubExch → HubExch) : State :=
  let s := running (withG gl) id
  let s := { s with mem := m ((s.mem.write 0x14000 0x1D 8).write 0x10000 0x14003 8), xl := { s.xl with ctxtab := put 0 (word (2 ^ 63 + 0x10000)) s.xl.ctxtab },
                    ex := x { s.ex with groups := [(2, [.here 0, .here 0]), (3, [.here 0, .far 3])], num := 41 } }
  let s := match s.xlateHub 0 0x20000 .wr with | .ok (_, u) => u | _ => s
  match s.xlate 0x20000 .rd .other with | .ok (_, u) => u | _ => s
/-- A rank of a sum of FP32 elements over group 2: 8 elements in chunks of 4. -/
def collOf (num rank : Nat) : Coll :=
  ⟨num, rank, num, false, 2, 0, 0, rank, false, 0, 0x20400, 0, 1, 1, 0, 0x20000, 0x21000, 8, 4, 0, 0x20800, 0, 0, 0, 0, 0, false, 0, [], false, 0, [], [], [], 0, false, 0, false⟩
theorem coll_runs {s : State} {c : Coll} (h : s.coll c.num c.rank = some c ∧ c.fin = false ∧ c.wait = false ∧ c.boot = false ∧ c.num < 2 ^ 32) : CollRuns s c := h
/-- The bytes of a parameter block of an all-reduce of 8 FP32 elements in chunks of 4, of a rank of group 2. -/
def blockNum (opc rank : Nat) : Nat :=
  opc + 2 ^ 8 + 2 ^ 16 + 2 ^ 32 * 2 + 2 ^ 48 * rank + 2 ^ 64 * 0x20000 + 2 ^ 128 * 0x21000 + 2 ^ 192 * 8 + 2 ^ 256 * 4 + 2 ^ 320 * 0x20800

/-- The state after a phase boundary at system scope. -/
def afterPhase (s : State) : State := match phaseAct 4 s with | .ok u => u | .error _ => s
/-- A nonzero B operand; a malformed block; a good one; CCWAIT that returns and one that waits; CCREAD. -/
theorem meets_collectives :
    (∃ s : State, ∃ o : OpA2, Instr.WellFormed (.coll o) ∧ s.g o.b ≠ 0) ∧
    (∃ s : State, ∃ u, ∃ o : OpA2, ∃ a loc bs n, State.Free s ∧ Instr.WellFormed (.coll o) ∧ s.g o.b = 0 ∧ a = (s.g o.a).toNat ∧ a < 2 ^ 54 ∧ a % 128 = 0 ∧ phaseAct 4 s = .ok u ∧
      u.bt.staged = [] ∧ HubFinds u (fld u.core.ctxid 0 16) a 128 .rd loc ∧ bs = u.hubBytes loc 128 ∧ n = (u.ranks (leField bs 4 2)).length ∧
      u.parseColl (if leField bs 6 2 < n then some n else none) bs = none) ∧
    (∃ s : State, ∃ u, ∃ o : OpA2, ∃ a loc bs n, State.Free s ∧ Instr.WellFormed (.coll o) ∧ s.g o.b = 0 ∧ a = (s.g o.a).toNat ∧ a < 2 ^ 54 ∧ a % 128 = 0 ∧ phaseAct 4 s = .ok u ∧
      u.bt.staged = [] ∧ HubFinds u (fld u.core.ctxid 0 16) a 128 .rd loc ∧ bs = u.hubBytes loc 128 ∧ n = (u.ranks (leField bs 4 2)).length ∧
      ∃ p l1 l2, leField bs 6 2 < n ∧ u.parseColl (some n) bs = some p ∧ p.flags % 2 = 0 ∧ (∀ k ∈ u.ex.colls, k.gid ≠ p.gid ∧ k.num ≠ u.ex.num) ∧ (∀ x ∈ u.ex.far, x.gid ≠ p.gid ∨ x.num ≠ u.ex.num) ∧
      HubFinds u (fld u.core.ctxid 0 16) (a + 0x48) 8 .wr l1 ∧ HubFinds u (fld u.core.ctxid 0 16) p.cntr 8 .wr l2) ∧
    (∃ s : State, ∃ u, ∃ o : OpA2, ∃ a loc bs l2 x, State.Free s ∧ Instr.WellFormed (.ccwait o) ∧ a = (s.g o.a).toNat ∧ u = s.acquire ∧ u.core.reads s.hi u.slot.ep = false ∧ Reaches u 0 a 128 .rd loc ∧ Readable u 0 128 loc ∧
      bs = (List.range 128).map (fun k => u.seen (loc + k)) ∧ Reaches u 0 (leField bs 0x28 8) 8 .rd l2 ∧ Readable u 0 8 l2 ∧ x = u.seenNum l2 8 ∧ (s.g o.b).toNat ≤ x) ∧
    (∃ s : State, ∃ u, ∃ o : OpA2, ∃ a loc bs l2 x, State.Free s ∧ Instr.WellFormed (.ccwait o) ∧ a = (s.g o.a).toNat ∧ u = s.acquire ∧ u.core.reads s.hi u.slot.ep = false ∧ Reaches u 0 a 128 .rd loc ∧ Readable u 0 128 loc ∧
      bs = (List.range 128).map (fun k => u.seen (loc + k)) ∧ Reaches u 0 (leField bs 0x28 8) 8 .rd l2 ∧ Readable u 0 8 l2 ∧ x = u.seenNum l2 8 ∧ x < (s.g o.b).toNat ∧
      (u.seen (loc + 0x4F)).toNat < 128) ∧
    (∃ s : State, ∃ u, ∃ o : OpA2, ∃ a loc, State.Free s ∧ Instr.WellFormed (.ccread o) ∧ a = (s.g o.a).toNat ∧ a % 128 = 0 ∧ a < 2 ^ 54 ∧ u = s.acquire ∧
      Reaches u 0 (a + 0x48) 8 .rd loc ∧ Readable u 0 8 loc) :=
  ⟨⟨hubState id [(2, 1)] id, ⟨5, 1, 2⟩, (wf_of (by decide +kernel)), (by decide +kernel)⟩,
   ⟨hubState (fun m => m.write 0x20400 (blockNum 9 0) 48) [(1, 0x20400)] id, afterPhase (hubState (fun m => m.write 0x20400 (blockNum 9 0) 48) [(1, 0x20400)] id), ⟨5, 1, 0⟩, _, _, _, _,
    (free_of (by decide +kernel)), (wf_of (by decide +kernel)), (by decide +kernel), rfl, (by decide +kernel), (by decide +kernel), ok_of (by decide +kernel), (by decide +kernel), hub_finds (by decide +kernel), rfl, rfl, by decide +kernel⟩,
   ⟨hubState (fun m => m.write 0x20400 (blockNum 0 1) 48) [(1, 0x20400)] id, afterPhase (hubState (fun m => m.write 0x20400 (blockNum 0 1) 48) [(1, 0x20400)] id), ⟨5, 1, 0⟩, _, _, _, _,
    (free_of (by decide +kernel)), (wf_of (by decide +kernel)), (by decide +kernel), rfl, (by decide +kernel), (by decide +kernel), ok_of (by decide +kernel), (by decide +kernel), hub_finds (by decide +kernel), rfl, rfl,
    { collOf 0 1 with core := 0, blk := 0 }, _, _, (by decide +kernel), (by decide +kernel), (by decide +kernel), (by decide +kernel), (by decide +kernel), hub_finds (by decide +kernel), hub_finds (by decide +kernel)⟩,
   ⟨hubState (fun m => m.write 0x20400 (blockNum 0 1) 48) [(1, 0x20400)] id, _, ⟨5, 1, 0⟩, _, 0x20400, _, 0x20800, _, (free_of (by decide +kernel)), (wf_of (by decide +kernel)), rfl, rfl, (by decide +kernel),
    ⟨(by decide +kernel), ⟨(by decide +kernel), (ok_of (by decide +kernel))⟩⟩, fun _ => .inl (by decide +kernel), rfl, ⟨(by decide +kernel), ⟨(by decide +kernel), (ok_of (by decide +kernel))⟩⟩, fun _ => .inl (by decide +kernel), rfl, (by decide +kernel)⟩,
   ⟨hubState (fun m => m.write 0x20400 (blockNum 0 1) 48) [(1, 0x20400), (2, 3)] id, _, ⟨5, 1, 2⟩, _, 0x20400, _, 0x20800, _, (free_of (by decide +kernel)), (wf_of (by decide +kernel)), rfl, rfl, (by decide +kernel),
    ⟨(by decide +kernel), ⟨(by decide +kernel), (ok_of (by decide +kernel))⟩⟩, fun _ => .inl (by decide +kernel), rfl, ⟨(by decide +kernel), ⟨(by decide +kernel), (ok_of (by decide +kernel))⟩⟩, fun _ => .inl (by decide +kernel), rfl, (by decide +kernel), (by decide +kernel)⟩,
   ⟨hubState id [(1, 0x20400)] id, _, ⟨5, 1, 0⟩, _, 0x20448, (free_of (by decide +kernel)), (wf_of (by decide +kernel)), rfl, (by decide +kernel), (by decide +kernel), rfl, ⟨(by decide +kernel), ⟨(by decide +kernel), (ok_of (by decide +kernel))⟩⟩, fun _ => .inl (by decide +kernel)⟩⟩

/-- Both ranks of collective 5 run. -/
def runState (f : Coll → Coll) : State :=
  hubState (fun m => m.write 0x20000 0x4000000040400000 8) [] (fun x => { x with colls := [f (collOf 5 0), f (collOf 5 1)] })
theorem piece_of {s : State} {c : Coll} {k : Nat} {p : List (Nat × List Byte) → Prop}
    (h : (match s.chunkPieces c k with | .ok (some _, u) => decide (u = s) | _ => false) = true)
    (hp : ∀ l, s.chunkPieces c k = .ok (some l, s) → p l) : ∃ l, s.chunkPieces c k = .ok (some l, s) ∧ p l := by
  split at h
  · rename_i l u hx; simp only [decide_eq_true_eq] at h; subst h; exact ⟨l, hx, hp l hx⟩
  · simp at h

/-- A first chunk; chunk pieces of two ranks; the end of a collective; a route that is down and a collective whose traffic is late; a page fault. -/
theorem meets_chunks :
    (∃ s : State, ∃ u, ∃ c : Coll, ∃ l, ∃ loc : Nat → Nat, ∃ l2, CollRuns s c ∧ s.ex.inbox = [] ∧ c.opc < 6 ∧ c.sched % 256 ≠ 4 ∧ c.done + 1 < c.chunks ∧ s.collFull c.gid c.num = true ∧
      (s.codes c = true ∨ c.done < c.sent ∨ ∀ q, s.farPort c.gid q = none) ∧
      u = (if s.codes c = true ∨ c.done < c.sent then s else s.modColl c.num c.rank (fun c => { c with sent := c.done + 1 })) ∧
      u.chunkPieces c c.done = .ok (some l, u) ∧ (∀ p ∈ l, HubFinds u c.ctx (chunkAddr c c.dst p.1 c.done) p.2.length .wr (loc p.1)) ∧ HubFinds u c.ctx c.cntr 8 .wr l2) ∧
    (∃ s : State, ∃ c : Coll, ∃ k n, ∃ x : Nat → Coll, ∃ loc : Nat → Nat → Nat, c.opc < 6 ∧ s.codes c = false ∧ n = (s.ranks c.gid).length ∧ c.rank < n ∧ c.root < n ∧
      (∀ q, q < n → s.rankHere c.gid q = true ∧ s.coll c.num q = some (x q) ∧ (x q).fin = false ∧ (x q).wait = false) ∧
      (∀ q b, q < n → b < n → HubFinds s (x q).ctx (chunkAddr c (x q).src b k) (c.chunkLen k * c.es) .rd (loc q b)) ∧ n = 2 ∧ k = 1) ∧
    (∃ s : State, ∃ c : Coll, ∃ loc, CollRuns s c ∧ s.ex.inbox = [] ∧ c.done = c.chunks ∧ s.mayEnd c (decide (c.at_ + 2 ^ 24 ≤ s.time)) = true ∧ s.mem.wf = true ∧
      HubFinds s c.ctx (c.blk + 0x48) 8 .wr loc) ∧
    (∃ s : State, ∃ c : Coll, CollRuns s c ∧ s.routeDown c.gid = true) ∧
    (∃ s : State, ∃ c : Coll, CollRuns s c ∧ c.at_ + 2 ^ 24 ≤ s.time ∧ (c.done ≠ c.chunks ∨ 6 ≤ c.opc) ∧ ∃ q, q < (s.ranks c.gid).length ∧ c.needs q = true) ∧
    (∃ s : State, ∃ c : Coll, ∃ va sub e, CollRuns s c ∧ s.xlateHub c.ctx va .rd = .error (0x06, sub, e)) :=
  ⟨⟨runState (fun c => { c with sent := 1 }), _, { collOf 5 0 with sent := 1 }, [(0, [0, 0, 0xC0, 0x40, 0, 0, 0x80, 0x40, 0, 0, 0, 0, 0, 0, 0, 0])], fun _ => 0x21000, 0x20800, coll_runs (by decide +kernel), (by decide +kernel), (by decide +kernel), (by decide +kernel), (by decide +kernel), (by decide +kernel), .inr (.inl (by decide +kernel)), rfl, (ok_of (by decide +kernel)),
     fun p hp => by simp only [List.mem_singleton] at hp; subst hp; exact hub_finds (va := 0x21000) (by decide +kernel), hub_finds (by decide +kernel)⟩,
   ⟨runState id, collOf 5 0, 1, 2, fun q => collOf 5 q, fun q b => chunkAddr (collOf 5 0) 0x20000 b 1, (by decide +kernel), (by decide +kernel), (by decide +kernel), (by decide +kernel), (by decide +kernel), (by decide +kernel),
     fun q b hq hb => by
       have hx : ∀ q < 2, ∀ b < 2, hubFindsB (runState id) (collOf 5 q).ctx (chunkAddr (collOf 5 0) (collOf 5 q).src b 1) ((collOf 5 0).chunkLen 1 * (collOf 5 0).es) .rd = true := by
         decide +kernel
       exact hub_finds (hx q hq b hb), rfl, rfl⟩,
   ⟨runState (fun c => { c with done := 2 }), { collOf 5 0 with done := 2 }, 0x20448, coll_runs (by decide +kernel), (by decide +kernel), (by decide +kernel), (by decide +kernel), (by decide +kernel), hub_finds (by decide +kernel)⟩,
   ⟨{ runState (fun c => { c with gid := 3 }) with xl := { (runState id).xl with up := 0 } }, { collOf 5 0 with gid := 3 }, coll_runs (by decide +kernel), (by decide +kernel)⟩,
   ⟨{ runState id with time := 2 ^ 24 }, collOf 5 0, coll_runs (by decide +kernel), (by decide +kernel), .inl (by decide +kernel), 1, (by decide +kernel), (by decide +kernel)⟩,
   ⟨runState id, collOf 5 0, 2 ^ 52, 1, 0, coll_runs (by decide +kernel), (error_of (by decide +kernel))⟩⟩

/-- Two packets of collective 5, for rank 1 and for rank 0, of blocks that the other rank advertises; one for a rank of group 3 on another package. -/
def packetOf (rcv : Nat) : Packet := ⟨5, 2, rcv, ⟨1 - rcv, rcv, 0, 0⟩, [1, 2, 3, 4], none, 4, 0, none, none, none⟩
def farPacket : Packet := { packetOf 1 with gid := 3 }
/-- Both ranks have advertised the block that the other is to get. -/
def codeState (f : HubExch → HubExch) : State :=
  hubState id [] (fun x => f { x with colls := [{ collOf 5 0 with adv := [⟨0, 1, 0, 0⟩], advIn := true }, { collOf 5 1 with adv := [⟨1, 0, 0, 0⟩], advIn := true }] })
/-- A coded packet at rank 0's hub. -/
def codedOf (parked : Option Nat) : Packet := { codedPair 9 (packetOf 0) (packetOf 1) with parked := parked }
/-- Rank 0 or 1 of `codeState`. -/
def coderOf (rank : Nat) : Coll := { collOf 5 rank with adv := [⟨rank, 1 - rank, 0, 0⟩], advIn := true }
theorem can_deliver {s : State} {rcv : Nat} (h : s.coll 5 rcv = some (coderOf rcv) ∧ hubFindsB s 0 (chunkAddr (coderOf rcv) 0x21000 (1 - rcv) 0 + 0) 4 .wr = true) :
    CanDeliver s 5 rcv ⟨1 - rcv, rcv, 0, 0⟩ 4 (chunkAddr (coderOf rcv) 0x21000 (1 - rcv) 0 + 0) :=
  ⟨coderOf rcv, ⟨h.1, rfl, rfl, rfl, show (5 : Nat) < 2 ^ 32 by decide⟩, rfl, rfl, List.not_mem_nil, hub_finds h.2⟩
/-- An advertisement from here and one from another package; a pair, a packet alone, one that leaves by a port. -/
theorem meets_coded_queue :
    (∃ s : State, ∃ num : Nat, num < 2 ^ 32 ∧ (State.ex s).inbox = [] ∧ num = 2 ^ 32 - 1) ∧
    (∃ s : State, ∃ num rank port q gid l, num < 2 ^ 32 ∧ (State.ex s).inbox = [(port, .advert gid num rank l)] ∧ s.farPort gid rank = some q) ∧
    (∃ s : State, ∃ p l, (State.ex s).inbox = [] ∧ s.ex.codeq = p :: l ∧ p.coded = none ∧ QueueFed s ∧
      ∃ a q b, l = a ++ q :: b ∧ a.length < 15 ∧ pairs s p q ∧ (∀ x ∈ a, ¬pairs s p x) ∧ s.rankHere p.gid p.rcv = true ∧ s.rankHere p.gid q.rcv = true ∧ a ≠ []) ∧
    (∃ s : State, ∃ p l, (State.ex s).inbox = [] ∧ s.ex.codeq = p :: l ∧ p.coded = none ∧ QueueFed s ∧
      ∃ loc, (∀ x ∈ l.take 15, ¬pairs s p x) ∧ s.farPort p.gid p.rcv = none ∧ (∀ f ∈ s.ex.fall, f.chub = none) ∧ CanDeliver s p.num p.rcv p.blk p.data.length loc) ∧
    (∃ s : State, ∃ p l, (State.ex s).inbox = [] ∧ s.ex.codeq = p :: l ∧ p.coded = none ∧ QueueFed s ∧
      ∃ port, (∀ x ∈ l.take 15, ¬pairs s p x) ∧ s.farPort p.gid p.rcv = some port) :=
  ⟨⟨codeState id, 2 ^ 32 - 1, by decide, (by decide +kernel), rfl⟩,
   ⟨codeState (fun x => { x with inbox := [(3, .advert 3 5 1 [⟨0, 1, 0, 0⟩])] }), 5, 1, 3, 3, 3, [⟨0, 1, 0, 0⟩], (by decide +kernel), (by decide +kernel), (by decide +kernel)⟩,
   ⟨codeState (fun x => { x with codeq := [packetOf 1, packetOf 1, packetOf 0] }), packetOf 1, [packetOf 1, packetOf 0], (by decide +kernel), (by decide +kernel), rfl, (by unfold QueueFed; decide +kernel), [packetOf 1], packetOf 0, [], rfl, (by decide +kernel),
     ⟨(by decide +kernel), (by decide +kernel), (by decide +kernel), (by decide +kernel), (by decide +kernel), (by decide +kernel), (by decide +kernel)⟩, fun x hx => by simp only [List.mem_singleton] at hx; subst hx; exact fun h => h.2.2.2.1 rfl, (by decide +kernel), (by decide +kernel), by decide⟩,
   ⟨codeState (fun x => { x with codeq := [packetOf 1] }), packetOf 1, [], (by decide +kernel), (by decide +kernel), rfl, (by unfold QueueFed; decide +kernel), _, nofun, (by decide +kernel), (by decide +kernel), can_deliver (rcv := 1) (by decide +kernel)⟩,
   ⟨codeState (fun x => { x with codeq := [farPacket] }), farPacket, [], (by decide +kernel), (by decide +kernel), rfl, (by unfold QueueFed; decide +kernel), 3, nofun, (by decide +kernel)⟩⟩
/-- A coded packet that is decoded, one that parks, one that is missed, one late; fallbacks here and to another package; an acknowledgement. -/
theorem meets_coded_decode :
    (∃ s : State, ∃ i : Nat, ∃ p : Packet, (State.ex s).dec[i]? = some p ∧ s.rcvWaits p.num p.rcv = false ∧
      ∃ x loc e, s.sideOf p.num p.rcv p.other = some e ∧ e.data = some x ∧ CanDeliver s p.num p.rcv p.blk ((xorBytes p.data x).take p.len).length loc ∧ p.parked.isSome = true) ∧
    (∃ s : State, ∃ i : Nat, ∃ p : Packet, (State.ex s).dec[i]? = some p ∧ s.rcvWaits p.num p.rcv = false ∧
      ∃ e, s.sideOf p.num p.rcv p.other = some e ∧ e.data = none ∧ p.parked = none ∧ (s.ex.dec.filter (fun q => q.parked.isSome)).length < 256) ∧
    (∃ s : State, ∃ i : Nat, ∃ p : Packet, (State.ex s).dec[i]? = some p ∧ s.rcvWaits p.num p.rcv = false ∧ s.sideOf p.num p.rcv p.other = none ∧ p.chub = some 7) ∧
    (∃ s : State, ∃ i : Nat, ∃ p : Packet, (State.ex s).dec[i]? = some p ∧ s.rcvWaits p.num p.rcv = false ∧ s.sideOf p.num p.rcv p.other = none ∧
      ∃ t0, p.parked = some t0 ∧ t0 + 2 ^ 20 ≤ s.time ∧ (∀ e, s.sideOf p.num p.rcv p.other = some e → e.data = none)) ∧
    (∃ s : State, ∃ i : Nat, ∃ f r p loc, (State.ex s).inbox = [] ∧ s.ex.fall[i]? = some f ∧ f.chub = none ∧ firstSat (fun r => r.tag == f.tag && r.owed.contains f.rcv) s.ex.retr = some r ∧
      p = (if r.p.rcv = f.rcv then r.p else r.q) ∧ s.farPort p.gid p.rcv = none ∧ CanDeliver s p.num f.rcv p.blk p.data.length loc) ∧
    (∃ s : State, ∃ i : Nat, ∃ f r p port, (State.ex s).inbox = [] ∧ s.ex.fall[i]? = some f ∧ f.chub = none ∧ firstSat (fun r => r.tag == f.tag && r.owed.contains f.rcv) s.ex.retr = some r ∧
      p = (if r.p.rcv = f.rcv then r.p else r.q) ∧ s.farPort p.gid p.rcv = some port) ∧
    (∃ s : State, ∃ i : Nat, ∃ tag rcv, (State.ex s).inbox = [] ∧ s.ex.acks[i]? = some (tag, rcv)) :=
  ⟨⟨codeState (fun x => { x with dec := [codedOf (some 0)], side := [⟨5, 0, ⟨0, 1, 0, 0⟩, some [1, 2, 3, 4]⟩] }), 0, codedOf (some 0), (by decide +kernel), (by decide +kernel),
     [1, 2, 3, 4], _, ⟨5, 0, ⟨0, 1, 0, 0⟩, some [1, 2, 3, 4]⟩, (by decide +kernel), rfl, can_deliver (rcv := 0) (by decide +kernel), rfl⟩,
   ⟨codeState (fun x => { x with dec := [codedOf none], side := [⟨5, 0, ⟨0, 1, 0, 0⟩, none⟩] }), 0, codedOf none, (by decide +kernel), (by decide +kernel), ⟨5, 0, ⟨0, 1, 0, 0⟩, none⟩, (by decide +kernel), rfl, rfl, (by decide +kernel)⟩,
   ⟨codeState (fun x => { x with dec := [{ codedOf none with chub := some 7 }] }), 0, { codedOf none with chub := some 7 }, (by decide +kernel), (by decide +kernel), (by decide +kernel), rfl⟩,
   ⟨{ codeState (fun x => { x with dec := [codedOf (some 0)] }) with time := 2 ^ 20 }, 0, codedOf (some 0), (by decide +kernel), (by decide +kernel), (by decide +kernel), 0, rfl, (by decide +kernel), (by decide +kernel)⟩,
   ⟨codeState (fun x => { x with fall := [⟨9, 0, 5, ⟨1, 0, 0, 0⟩, none, none⟩], retr := [⟨9, packetOf 1, packetOf 0, [1, 0]⟩] }), 0, ⟨9, 0, 5, ⟨1, 0, 0, 0⟩, none, none⟩,
     ⟨9, packetOf 1, packetOf 0, [1, 0]⟩, packetOf 0, _, (by decide +kernel), (by decide +kernel), rfl, (by decide +kernel), rfl, (by decide +kernel), can_deliver (rcv := 0) (by decide +kernel)⟩,
   ⟨codeState (fun x => { x with fall := [⟨9, 1, 5, ⟨0, 1, 0, 0⟩, none, some 3⟩], retr := [⟨9, farPacket, packetOf 0, [1, 0]⟩] }), 0, ⟨9, 1, 5, ⟨0, 1, 0, 0⟩, none, some 3⟩,
     ⟨9, farPacket, packetOf 0, [1, 0]⟩, farPacket, 3, (by decide +kernel), (by decide +kernel), rfl, (by decide +kernel), rfl, (by decide +kernel)⟩,
   ⟨codeState (fun x => { x with acks := [(9, 0)] }), 0, 9, 0, (by decide +kernel), (by decide +kernel)⟩⟩

/-- The descriptor at 0x20900 and its bytes; expert 0 has replicas at ranks 1 and 0 (entries 0 and 2); a HOST entry of expert 0 with rows 7 and 8. -/
def descOf : ExpDesc := ⟨4, 64, 0x20980, 0x209C0, 0x20A00, 0x20A40, 1, 0x20A80⟩
def expMem (m : Mem) : Mem :=
  ((((m.write 0x20900 (4 + 2 ^ 32 * 64 + 2 ^ 64 * 0x20980 + 2 ^ 128 * 0x209C0 + 2 ^ 192 * 0x20A00 + 2 ^ 256 * 0x20A40) 40).write 0x20928 (1 + 2 ^ 64 * 0x20A80) 16).write
    0x209C0 (2 ^ 128 - 1 - 0xFFFE - 2 ^ 32 * 0xFFFF) 16).write 0x20A48 (7 + 2 ^ 32 * 2) 8)
/-- An expert dispatch of rank 0 and 1 with 8 tokens, of the given form; one of group 3, whose rank 1 lies behind port 3. -/
def expOf (opc rank : Nat) (rows : List (Nat × Nat)) : Coll := { collOf 5 rank with opc := opc, flags := 2, redop := 0, expt := 0x20900, ovfl := 0x20C00, rows := rows }
def expState (opc : Nat) (rows : List (Nat × Nat)) (m : Mem → Mem) (x : HubExch → HubExch) : State :=
  hubState (fun y => m (expMem y)) [] (fun e => x { e with colls := [expOf opc 0 [], expOf opc 1 rows] })
def expFar : Coll := { expOf 6 0 [] with gid := 3 }
/-- The replica table: expert 0's as said, of the others zeros, which name rank 0. -/
def replBytes : List Byte := [1, 0, 0xFF, 0xFF, 0, 0] ++ List.replicate 10 0xFF ++ List.replicate 48 0
theorem has_desc {s : State} {c : Coll} (h : c.expt = 0x20900 ∧ hubFindsB s c.ctx 0x20900 64 .rd = true ∧ parseExp (s.hubBytes 0x20900 64) = some descOf ∧
    isOk (replBytes, s) (s.cRead c 0x209C0 64) = true ∧ (s.ranks c.gid).length = 2) : HasDesc s c descOf :=
  ⟨0x20900, replBytes, by rw [h.1], by rw [h.1]; exact hub_finds h.2.1, h.2.2.1, ok_of h.2.2.2.1, by rw [h.2.2.2.2]; decide +kernel⟩
theorem has_replicas {s : State} {c : Coll} (h : hubFindsB s c.ctx 0x209C0 16 .rd = true ∧
    [(0, 1), (2, 0)] = ((List.range 8).map (fun i => (i, leNat (s.hubBytes (0x209C0 + 2 * i) 2)))).filter (fun p => p.2 != 65535)) :
    HasReplicas s c descOf 0 [(0, 1), (2, 0)] :=
  ⟨0x209C0, hub_finds h.1, h.2⟩
/-- The request of token 3 of rank 0, to rank 1. -/
def requestOf (refused : Bool) (tried : List Nat) : RowReq := ⟨5, 0, 3, 0, 0, tried, refused, 1, 64, false, none⟩

/-- The last token of a rank. -/
theorem meets_rows_sends :
    ∃ s : State, ∃ c : Coll, ∃ d l i r loc, CollRuns s c ∧ c.opc = 6 ∧ c.sent < c.count ∧ s.collFull c.gid c.num = true ∧ HasDesc s c d ∧ HubFinds s c.ctx (d.ids + 4 * c.sent) 4 .rd loc ∧
      leNat (s.hubBytes loc 4) < d.nexp ∧ HasReplicas s c d (leNat (s.hubBytes loc 4)) l ∧ (i, r) ∈ l ∧
      (∀ p ∈ l, s.egress c.gid r < s.egress c.gid p.2 ∨ s.egress c.gid r = s.egress c.gid p.2 ∧ i ≤ p.1) ∧ i = 2 :=
  ⟨expState 6 [] id (fun e => { e with egress := [(2 * 65536 + 1, 64)] }), expOf 6 0 [], descOf, _, 2, 0, 0x20980, coll_runs (by decide +kernel), rfl, (by decide +kernel), (by decide +kernel), has_desc (by decide +kernel), hub_finds (by decide +kernel), (by decide +kernel),
     by rw [show leNat (State.hubBytes _ 0x20980 4) = 0 by decide +kernel]; exact has_replicas (by decide +kernel), by decide, by decide +kernel, rfl⟩
/-- What the requests to a rank of this package share. -/
def RowPremise (s : State) (i : Nat) (r : RowReq) (c : Coll) (d : ExpDesc) (h : Coll) (hd : ExpDesc) (hl l1 : Nat) : Prop :=
  s.ex.inbox = [] ∧ s.ex.rows[i]? = some r ∧ r.refused = false ∧ r.sent = false ∧ r.data = none ∧
  CollRuns s c ∧ c.num = r.num ∧ c.rank = r.rank ∧ s.collFull c.gid c.num = true ∧ HasDesc s c d ∧
  s.farPort c.gid r.dst = none ∧ CollRuns s h ∧ h.num = c.num ∧ h.rank = r.dst ∧ HasDesc s h hd ∧
  1 ≤ hd.nhost ∧ HubFinds s h.ctx hd.host (16 * hd.nhost) .rd hl ∧ HubFinds s c.ctx (c.src + r.token * d.rowb) d.rowb .rd l1
/-- A row refused: no HOST entry has room. -/
theorem meets_rows_refused :
    ∃ s : State, ∃ i r c d, ∃ h : Coll, ∃ hd hl l1, RowPremise s i r c d h hd hl l1 ∧ freeRow h (s.hubBytes hl (16 * hd.nhost)) r.expert hd.nhost = none :=
  ⟨expState 6 [(0, 2)] id (fun e => { e with rows := [requestOf false [0]] }), 0, requestOf false [0], expOf 6 0 [], descOf, expOf 6 1 [(0, 2)], descOf, 0x20A40, _,
     ⟨(by decide +kernel), (by decide +kernel), rfl, rfl, rfl, coll_runs (by decide +kernel), rfl, rfl, (by decide +kernel), has_desc (by decide +kernel), (by decide +kernel), coll_runs (by decide +kernel), rfl, rfl, has_desc (by decide +kernel), by decide, hub_finds (by decide +kernel), hub_finds (by decide +kernel)⟩, by decide +kernel⟩
/-- A row granted, the last one. -/
theorem meets_rows_granted :
    ∃ s : State, ∃ i r c d, ∃ h : Coll, ∃ hd hl l1, RowPremise s i r c d h hd hl l1 ∧
      ∃ k n l2 l3 l4, freeRow h (s.hubBytes hl (16 * hd.nhost)) r.expert hd.nhost = some (k, n) ∧
      HubFinds s h.ctx (h.dst + n * hd.rowb) d.rowb .wr l2 ∧ HubFinds s h.ctx (hd.tags + 8 * n) 8 .wr l3 ∧ HubFinds s c.ctx (d.place + 8 * r.token) 8 .wr l4 :=
  ⟨expState 6 [(0, 1)] id (fun e => { e with rows := [requestOf false [0]] }), 0, requestOf false [0], expOf 6 0 [], descOf, expOf 6 1 [(0, 1)], descOf, 0x20A40, _,
     ⟨(by decide +kernel), (by decide +kernel), rfl, rfl, rfl, coll_runs (by decide +kernel), rfl, rfl, (by decide +kernel), has_desc (by decide +kernel), (by decide +kernel), coll_runs (by decide +kernel), rfl, rfl, has_desc (by decide +kernel), by decide, hub_finds (by decide +kernel), hub_finds (by decide +kernel)⟩,
     0, 8, _, _, _, by decide +kernel, hub_finds (by decide +kernel), hub_finds (by decide +kernel), hub_finds (by decide +kernel)⟩
/-- A request to a rank on another package. -/
theorem meets_rows_far :
    ∃ s : State, ∃ i : Nat, ∃ r : RowReq, ∃ c d port l1, (State.ex s).inbox = [] ∧ s.ex.rows[i]? = some r ∧ r.refused = false ∧ r.sent = false ∧ r.data = none ∧ CollRuns s c ∧ c.num = r.num ∧ c.rank = r.rank ∧
      s.collFull c.gid c.num = true ∧ HasDesc s c d ∧ s.farPort c.gid r.dst = some port ∧ HubFinds s c.ctx (c.src + r.token * d.rowb) d.rowb .rd l1 :=
  ⟨expState 6 [] id (fun e => { e with colls := [expFar], rows := [requestOf false [0]] }), 0, requestOf false [0], expFar, descOf, 3, _, (by decide +kernel), (by decide +kernel), rfl, rfl, rfl, coll_runs (by decide +kernel), rfl, rfl, (by decide +kernel), has_desc (by decide +kernel), (by decide +kernel),
     hub_finds (by decide +kernel)⟩
/-- What the answers to a refusal share. -/
def RefusedPremise (s : State) (i : Nat) (r : RowReq) (c : Coll) (d : ExpDesc) (l : List (Nat × Nat)) : Prop :=
  s.ex.inbox = [] ∧ s.ex.rows[i]? = some r ∧ r.refused = true ∧ CollRuns s c ∧ c.num = r.num ∧ c.rank = r.rank ∧
  s.collFull c.gid c.num = true ∧ HasDesc s c d ∧ HasReplicas s c d r.expert l
/-- A refusal that goes to the next replica. -/
theorem meets_rows_nextReplica :
    ∃ s : State, ∃ i r c d l, RefusedPremise s i r c d l ∧ ∃ k rank, nextReplica l r = some (k, rank) :=
  ⟨expState 6 [] id (fun e => { e with rows := [requestOf true [0]] }), 0, requestOf true [0], expOf 6 0 [], descOf, _, ⟨(by decide +kernel), (by decide +kernel), rfl, coll_runs (by decide +kernel), rfl, rfl, (by decide +kernel), has_desc (by decide +kernel), has_replicas (by decide +kernel)⟩, 2, 0, rfl⟩
/-- One that overflows into a list with room. -/
theorem meets_rows_overflow :
    ∃ s : State, ∃ i r c d l, RefusedPremise s i r c d l ∧
      ∃ l1 l2 l3 l4 n, nextReplica l r = none ∧ HubFinds s c.ctx c.ovfl 8 .rd l1 ∧ HubFinds s c.ctx (d.place + 8 * r.token) 8 .wr l2 ∧ HubFinds s c.ctx (c.blk + 0x48) 8 .wr l4 ∧
      n = leNat (s.hubBytes l1 8) % 2 ^ 32 ∧ c.ovf < 2 ^ 32 - 1 ∧ (c.ovf < n → HubFinds s c.ctx (c.ovfl + 8 + 8 * c.ovf) 8 .wr l3) ∧ c.ovf < n :=
  ⟨expState 6 [] (fun m => m.write 0x20C00 1 8) (fun e => { e with rows := [requestOf true [2, 0]] }), 0, requestOf true [2, 0], expOf 6 0 [], descOf, _,
     ⟨(by decide +kernel), (by decide +kernel), rfl, coll_runs (by decide +kernel), rfl, rfl, (by decide +kernel), has_desc (by decide +kernel), has_replicas (by decide +kernel)⟩, 0x20C00, _, 0x20C08, _, 1, rfl, hub_finds (by decide +kernel), hub_finds (by decide +kernel), hub_finds (by decide +kernel), by decide +kernel, (by decide +kernel),
     fun _ => hub_finds (va := 0x20C08) (by decide +kernel), (by decide +kernel)⟩
/-- A combined row that returns. -/
theorem meets_rows_combined :
    ∃ s : State, ∃ h : Coll, ∃ hd n hl l1, ∃ c : Coll, ∃ cd l2 l3 l4 tok, (State.ex s).inbox = [] ∧ CollRuns s h ∧ h.opc = 7 ∧ s.collFull h.gid h.num = true ∧ look n h.rows = none ∧ HasDesc s h hd ∧
      HubFinds s h.ctx hd.host (16 * hd.nhost) .rd hl ∧
      (∃ i, i < hd.nhost ∧ (hostRow (s.hubBytes hl (16 * hd.nhost)) i).2.1 ≤ n ∧ n < (hostRow (s.hubBytes hl (16 * hd.nhost)) i).2.1 + (hostRow (s.hubBytes hl (16 * hd.nhost)) i).2.2) ∧
      HubFinds s h.ctx (hd.tags + 8 * n) 8 .rd l1 ∧ CollRuns s c ∧ c.num = h.num ∧ s.farPort h.gid c.rank = none ∧ leNat (s.hubBytes l1 8) = c.rank * 2 ^ 48 + tok ∧ tok < 2 ^ 40 ∧ tok < c.count ∧ tok ∉ c.tok ∧
      HasDesc s c cd ∧ HubFinds s c.ctx (cd.place + 8 * tok) 8 .rd l2 ∧ leNat (s.hubBytes l2 8) = h.rank * 2 ^ 32 + n ∧ HubFinds s h.ctx (h.src + n * hd.rowb) hd.rowb .rd l3 ∧
      HubFinds s c.ctx (c.dst + tok * cd.rowb) hd.rowb .wr l4 :=
  ⟨expState 7 [] (fun m => (m.write 0x20A18 (2 ^ 32 + 8) 8).write 0x20AC0 3 8) id, expOf 7 1 [], descOf, 8, 0x20A40, 0x20AC0, expOf 7 0 [], descOf, _, _, _, 3, (by decide +kernel), coll_runs (by decide +kernel), rfl, (by decide +kernel), rfl, has_desc (by decide +kernel),
     hub_finds (by decide +kernel), ⟨0, by decide +kernel⟩, hub_finds (va := 0x20AC0) (by decide +kernel), coll_runs (by decide +kernel), rfl, (by decide +kernel), by decide +kernel, (by decide +kernel), (by decide +kernel), nofun, has_desc (by decide +kernel), hub_finds (va := 0x20A18) (by decide +kernel), by decide +kernel, hub_finds (by decide +kernel), hub_finds (by decide +kernel)⟩

end Sys2Proof.Machine
namespace Sys2Proof.Machine

/-! ### Near memory -/

/-- An FADD-like operation of 32 bits of core 0 at a location. -/
def opAt (loc w : Nat) (waits acked : Bool) : SliceOp := ⟨0, 0, false, loc, 0, w, 5, 0, 0, 0, 0, waits, acked⟩
/-- Operations under way, and lines held. -/
def sliceState (ops : List SliceOp) (held : List Held) : State :=
  let s := running (fun x => { x with rfout := 1 }) id
  { s with bd := { s.bd with ops := ops, held := held } }
/-- Of more than 64 numbers for each of m values one value has more than 64. -/
theorem crowded {f : Nat → Nat} : ∀ (m : Nat) (l : List Nat), (∀ x ∈ l, f x < m) → 64 * m < l.length → ∃ y, 64 < (l.filter (fun x => f x == y)).length
  | 0, l, h, hl => by
    obtain ⟨x, hx⟩ := List.exists_mem_of_length_pos (by omega : 0 < l.length)
    exact absurd (h x hx) (Nat.not_lt_zero _)
  | m + 1, l, h, hl => by
    by_cases hy : 64 < (l.filter (fun x => f x == m)).length
    · exact ⟨m, hy⟩
    · have e := List.length_eq_countP_add_countP (fun x => f x == m) (l := l)
      rw [List.countP_eq_length_filter, List.countP_eq_length_filter] at e
      simp only [decide_not, Bool.decide_eq_true] at e
      obtain ⟨y, h2⟩ := crowded (f := f) m (l.filter (fun x => !(f x == m)))
        (fun x hx => by
          have := List.mem_filter.mp hx
          have h1 := h x this.1
          have h2 : f x ≠ m := by simpa using this.2
          omega) (by omega)
      refine ⟨y, Nat.lt_of_lt_of_le h2 ?_⟩
      rw [List.filter_filter, ← List.countP_eq_length_filter, ← List.countP_eq_length_filter]
      exact List.countP_mono_left (fun x _ hx => by simp only [Bool.and_eq_true] at hx; exact hx.1)
/-- Some slice is the home of 65 lines below 32,769. -/
theorem crowded_slice : ∃ line, line < 32769 ∧ ∃ ls : List Nat, ls.length = 64 ∧ (∀ x ∈ ls, x ≠ line) ∧ ∀ x ∈ ls, sliceOf x = sliceOf line := by
  obtain ⟨y, hy⟩ := crowded (f := sliceOf) 512 (List.range 32769) (fun x _ => (Config.channelOf (Config.placeOf 0 x)).isLt) (by rw [List.length_range]; decide)
  have nd : ((List.range 32769).filter (fun x => sliceOf x == y)).Nodup := List.Nodup.sublist List.filter_sublist List.nodup_range
  have mem : ∀ x ∈ (List.range 32769).filter (fun x => sliceOf x == y), x < 32769 ∧ sliceOf x = y := fun x hx => by
    have := List.mem_filter.mp hx
    exact ⟨List.mem_range.mp this.1, by simpa using this.2⟩
  revert hy nd mem
  generalize (List.range 32769).filter (fun x => sliceOf x == y) = l
  intro hy nd mem
  match l, hy, nd, mem with
  | line :: l, hy, nd, mem =>
    have h1 := mem line List.mem_cons_self
    refine ⟨line, h1.1, l.take 64, by rw [List.length_take]; simp only [List.length_cons] at hy; omega, fun x hx e => ?_, fun x hx => ?_⟩
    · exact (List.nodup_cons.mp nd).1 (e ▸ List.mem_of_mem_take hx)
    · rw [(mem x (List.mem_cons_of_mem _ (List.mem_of_mem_take hx))).2, h1.2]
/-- Lines held, each with the given mark. -/
def heldOf (ls : List Nat) (filled : Bool) : List Held := ls.map (fun l => ⟨l, filled, 0⟩)
theorem heldOf_mine {ls : List Nat} {line : Nat} {f : Bool} (h : ∀ x ∈ ls, sliceOf x = sliceOf line) :
    (heldOf ls f).filter (fun h => sliceOf h.line == sliceOf line) = heldOf ls f :=
  List.filter_eq_self.mpr (fun h hh => by
    obtain ⟨x, hx, rfl⟩ := List.mem_map.mp hh
    simpa using h x hx)
theorem heldOf_absent {ls : List Nat} {line : Nat} {f : Bool} (h : ∀ x ∈ ls, x ≠ line) : ∀ e ∈ heldOf ls f, e.line ≠ line := fun e he => by
  obtain ⟨x, hx, rfl⟩ := List.mem_map.mp he
  exact h x hx
theorem heldOf_filled {ls : List Nat} {f : Bool} : ∀ e ∈ heldOf ls f, e.filled = f := fun e he => by
  obtain ⟨x, _, rfl⟩ := List.mem_map.mp he
  rfl
theorem entry_full {b : BaseDie} {ls : List Nat} {line now : Nat} {f : Bool} (hb : b.held = heldOf ls false) (hn : ls.length = 64)
    (h1 : ∀ x ∈ ls, x ≠ line) (h2 : ∀ x ∈ ls, sliceOf x = sliceOf line) : b.entry line f now = none := by
  have e1 : (heldOf ls false).any (fun h => h.line == line) = false := by
    rw [List.any_eq_false]; intro e he; simpa using heldOf_absent h1 e he
  have e2 : (heldOf ls false).filter (·.filled) = [] :=
    List.filter_eq_nil_iff.mpr (fun e he => by rw [heldOf_filled e he]; decide)
  have e3 : ¬(heldOf ls false).length < 64 := by rw [heldOf, List.length_map, hn]; decide
  unfold BaseDie.entry
  rw [hb, e1]
  simp only [Bool.false_eq_true, if_false, heldOf_mine h2, e2, e3, firstBy]
/-- An operation whose line finds its slice full of pending lines. -/
theorem full_slice : ∃ s : State, ∃ i : Nat, ∃ o : SliceOp, ((State.bd s).ops[i]? = some o ∧ o.acked = false ∧ o.waits = false ∧ o.plain ∧
      (∀ j p, j < i → s.bd.ops[j]? = some p → p.acked = true ∨ p.waits = true ∨ (p.cl, p.core, p.hi) ≠ (o.cl, o.core, o.hi) ∨
        p.loc + p.w / 8 ≤ o.loc ∨ o.loc + o.w / 8 ≤ p.loc)) ∧
    (∀ h, firstSat (fun h => h.line == o.loc / 64) s.bd.held = some h → h.filled = false) ∧ s.bd.entry (o.loc / 64) false s.time = none := by
  obtain ⟨line, hl, ls, hn, h1, h2⟩ := crowded_slice
  have hq : 64 * line / 64 = line := Nat.mul_div_cancel_left _ (by decide)
  refine ⟨sliceState [opAt (64 * line) 32 false false] (heldOf ls false), 0, opAt (64 * line) 32 false false,
    ⟨rfl, rfl, rfl, ⟨?_, .inr (.inl rfl), (by decide : 5 < 2 ^ 32), (by decide : 0 < 2 ^ 32)⟩, fun _ _ h => absurd h (Nat.not_lt_zero _)⟩, fun h hh => ?_, ?_⟩
  · show 64 * line < peerBase
    unfold peerBase; omega
  · exact heldOf_filled h (by
      have : ∀ (l : List Held) p, firstSat p l = some h → h ∈ l := by
        intro l p
        induction l with
        | nil => intro hh; cases hh
        | cons a l ih =>
          intro hh; unfold firstSat at hh; split at hh
          · cases hh; exact List.mem_cons_self
          · exact List.mem_cons_of_mem _ (ih hh)
      exact this _ _ hh)
  · show BaseDie.entry _ (64 * line / 64) false _ = none
    rw [hq]; exact entry_full rfl hn h1 h2

theorem meets_slices :
    let Acts := fun s i (o : SliceOp) => (State.bd s).ops[i]? = some o ∧ o.acked = false ∧ o.waits = false ∧ o.plain ∧
      (∀ j p, j < i → s.bd.ops[j]? = some p → p.acked = true ∨ p.waits = true ∨ (p.cl, p.core, p.hi) ≠ (o.cl, o.core, o.hi) ∨
        p.loc + p.w / 8 ≤ o.loc ∨ o.loc + o.w / 8 ≤ p.loc)
    (∃ s : State, ∃ i o, Acts s i o ∧ ∃ h, firstSat (fun h => h.line == o.loc / 64) s.bd.held = some h ∧ h.filled = true) ∧
    (∃ s : State, ∃ i o, Acts s i o ∧ i = 1 ∧ (∀ h, firstSat (fun h => h.line == o.loc / 64) s.bd.held = some h → h.filled = false) ∧ ∃ b, s.bd.entry (o.loc / 64) false s.time = some b) ∧
    (∃ s : State, ∃ i o, Acts s i o ∧ (∀ h, firstSat (fun h => h.line == o.loc / 64) s.bd.held = some h → h.filled = false) ∧ s.bd.entry (o.loc / 64) false s.time = none) ∧
    (∃ s : State, ∃ line, (∀ o ∈ (State.bd s).ops, o.waits = true → o.acked = false → o.loc / 64 = line → o.plain) ∧ s.bd.ops.length = 2) ∧
    (∃ s : State, ∃ cl core slot a, ∃ o : SliceOp, ∃ b u, (State.bd s).ops = a ++ o :: b ∧ o.acked = true ∧ (o.cl, o.core, o.hi) = (cl, core, slot != 0) ∧
      (∀ p ∈ a, ¬(p.acked = true ∧ (p.cl, p.core, p.hi) = (cl, core, slot != 0))) ∧ u = (s.modBd (fun x => { x with ops := a ++ b })).at_ cl core (slot != 0) ∧
      u.slot.th.tid = o.tid) :=
  ⟨⟨sliceState [opAt 0x100 32 false false] [⟨4, true, 0⟩], 0, _, ⟨rfl, rfl, rfl, ⟨(by decide +kernel), .inr (.inl rfl), (by decide +kernel), (by decide +kernel)⟩, fun _ _ h => absurd h (Nat.not_lt_zero _)⟩, ⟨4, true, 0⟩, (by decide +kernel), rfl⟩,
   ⟨sliceState [opAt 0x100 64 false false, opAt 0x108 16 false false] [⟨4, false, 0⟩], 1, opAt 0x108 16 false false,
     ⟨rfl, rfl, rfl, ⟨(by decide +kernel), .inl rfl, (by decide +kernel), (by decide +kernel)⟩, fun j p hj hp => by
       obtain rfl : j = 0 := by omega
       cases hp; exact .inr (.inr (.inr (.inl (by decide))))⟩, rfl, fun h hh => by cases hh; rfl, _, rfl⟩,
   full_slice,
   ⟨sliceState [opAt 0x100 64 true false, opAt 0x13E 16 true false] [], 4, by
      intro o ho _ _ _
      simp only [sliceState, List.mem_cons, List.not_mem_nil, or_false] at ho
      rcases ho with rfl | rfl <;> exact ⟨by decide, by decide, by decide, by decide⟩, rfl⟩,
   ⟨sliceState [opAt 0x100 64 false false, opAt 0x108 16 false true] [], 0, 0, 0, [opAt 0x100 64 false false], opAt 0x108 16 false true, [], _, rfl, rfl, rfl, (by decide +kernel), rfl, (by decide +kernel)⟩⟩

/-- Sixteen END rules end W; g1 is their address. -/
def ruleState : State :=
  (running (withG [(1, 0x7FF80)]) (fun c => { c with w := Mem.write [] 0x7FF80 ((List.range 16).foldl (fun a k => a + 5 * 2 ^ 60 * 2 ^ (64 * k)) 0) 128 })).setHandle 4
    { Handle.free with state := 2 }
/-- A line held; one that finds room; a slice full of pending lines; one full of clean lines. -/
theorem meets_entries :
    (∃ b : BaseDie, ∃ line : Nat, ∃ h ∈ b.held, h.line = line) ∧
    (∃ b : BaseDie, ∃ line : Nat, ∃ mine, mine = b.held.filter (fun h => sliceOf h.line == sliceOf line) ∧ (∀ h ∈ b.held, h.line ≠ line) ∧ mine.length < 64) ∧
    (∃ b : BaseDie, ∃ line : Nat, ∃ mine, mine = b.held.filter (fun h => sliceOf h.line == sliceOf line) ∧ (∀ h ∈ b.held, h.line ≠ line) ∧ 64 ≤ mine.length ∧ ∀ h ∈ mine, h.filled = false) ∧
    (∃ b : BaseDie, ∃ line : Nat, ∃ mine, mine = b.held.filter (fun h => sliceOf h.line == sliceOf line) ∧ (∀ h ∈ b.held, h.line ≠ line) ∧ 64 ≤ mine.length ∧ ∃ h ∈ mine, h.filled = true) := by
  obtain ⟨line, -, ls, hn, h1, h2⟩ := crowded_slice
  have len : ∀ f, 64 ≤ ((heldOf ls f).filter (fun h => sliceOf h.line == sliceOf line)).length := fun f =>
    Nat.le_of_eq (Eq.symm (by rw [heldOf_mine h2, heldOf, List.length_map, hn]))
  refine ⟨⟨{ State.reset.bd with held := [⟨4, true, 0⟩] }, 4, _, List.mem_singleton.mpr rfl, rfl⟩, ⟨State.reset.bd, 4, _, rfl, nofun, by decide⟩,
    ⟨{ State.reset.bd with held := heldOf ls false }, line, _, rfl, heldOf_absent h1, len false, fun h hh => heldOf_filled h (List.mem_filter.mp hh).1⟩,
    ⟨{ State.reset.bd with held := heldOf ls true }, line, _, rfl, heldOf_absent h1, len true, ?_⟩⟩
  obtain ⟨x, hx⟩ : ∃ x, x ∈ ls := List.exists_mem_of_length_pos (by omega)
  show ∃ h ∈ (heldOf ls true).filter _, _
  rw [heldOf_mine h2]
  exact ⟨⟨x, true, 0⟩, List.mem_map.mpr ⟨x, hx, rfl⟩, rfl⟩
theorem meets_brule :
    ∃ s : State, ∃ o : OpG8, ∃ spc a n ws, State.Quiet s ∧ Instr.WellFormed (.brule o) ∧ spc = fld o.imm 12 3 ∧ n = fld o.imm 4 4 + 1 ∧ a = (s.g o.a).toNat ∧ RulesReady s o spc a n ws ∧ n = 16 :=
  ⟨ruleState, ⟨4, 1, 0, 0, 0, 0, 0x15F3⟩, 1, 0x7FF80, 16, List.replicate 16 (word (5 * 2 ^ 60)), (quiet_of (by decide +kernel)), (wf_of (by decide +kernel)), (by decide +kernel), (by decide +kernel), (by decide +kernel), ⟨(by decide +kernel), (by decide +kernel), (by decide +kernel), (by decide +kernel), fun w hw => by rw [List.eq_of_mem_replicate hw]; decide +kernel, (by decide +kernel)⟩, rfl⟩

/-- Region 5 of context 0, of 2^27 bytes with root 64, in blocks from block 7; rules of slot 3; block 7 as given. -/
def walkDie (rules : List Word) (blk : Word) (walks : List Walk) (ack : List Nat) (s : State) : State :=
  { s with mem := s.mem.write 64 77 8
           bd := { s.bd with regions := [(5, (word (64 * 2 ^ 24 + 7), word (2 ^ 63 + 2 ^ 27)))], blocks := [(7, blk)], progs := [(3, ⟨5, rules⟩)], walks := walks, movAck := ack } }
/-- LOAD of 8 bytes at P, then END with 8 bytes. -/
def loadRule : Word := word (8 * 2 ^ 52 + 1)
def endRule (f : Nat) : Word := word ((4 + f) * 2 ^ 60 + 8 * 2 ^ 52)
/-- Two lanes, SEW 64; rows at 0x1000 of A and status words at its end. -/
def walkState : State :=
  walkDie [loadRule, endRule 0] (word (2 ^ 63)) [] [] (vecState [(2, 0x1000), (3, 0x5FFF8)] 0x00800003 2 (fun c => { c with
    f := { c.f with v := c.f.v.setIfInBounds 1 9 } }))
theorem meets_bwalk :
    ∃ s : State, ∃ o : OpG8, ∃ m n b w p, ∃ r : Nat → Nat × Nat × List Byte, State.Quiet s ∧ Instr.WellFormed (.bwalk o) ∧ s.full = true ∧
    vtSewCode s.slot.vtype = 3 ∧ LenIs s o.len m ∧ n = boundLen 64 o.len m ∧ n ≤ 64 ∧ b = (s.g o.b).toNat ∧ w = (s.g o.c).toNat ∧ b % 64 = 0 ∧ w % 4 = 0 ∧
    b + 64 * n ≤ 393216 ∧ w + 4 * n ≤ 393216 ∧ (b + 64 * n ≤ w ∨ w + 4 * n ≤ b) ∧ s.core.a.wf = true ∧
    s.core.notHolder 2 b (64 * n) = false ∧ s.core.notHolder 2 w (4 * n) = false ∧
    look (16 * fld s.core.ctxid 0 16 + fld o.imm 0 4) s.bd.progs = some p ∧ regValid (s.region (fld s.core.ctxid 0 16) p.region) = true ∧
    (s.copyState o.d.toNat).ready = true ∧ (s.core.handle o.d.toNat).home = none ∧ (s.core.handle o.d.toNat).bar = false ∧ o.d.toNat < 32 ∧
    s.bd.walks = [] ∧ (∀ st i, st < 8 → i < n → (s.mreg o.msk.toNat).getLsbD i = true → walkEnds s 16384 (laneWalk s o p i st) = some (r i)) ∧
    (o.imm.getLsbD 17 = true → ∀ i, i < n → (s.mreg o.msk.toNat).getLsbD i = true → (r i).1 < 2) ∧ n = 2 ∧ w + 4 * n = 393216 :=
  ⟨walkState, ⟨4, 1, 2, 3, 0, 0, 0x20043⟩, 2, 2, 0x1000, 0x5FFF8, ⟨5, [loadRule, endRule 0]⟩, fun _ => (0, 2, 77 :: List.replicate 63 0), (quiet_of (by decide +kernel)), (wf_of (by decide +kernel)), (by decide +kernel), (by decide +kernel), (len_vl (by decide)), (by decide +kernel), (by decide +kernel), (by decide +kernel), (by decide +kernel), (by decide +kernel), (by decide +kernel), (by decide +kernel), (by decide +kernel),
   .inl (by decide +kernel), (by decide +kernel), (by decide +kernel), (by decide +kernel), (by decide +kernel), (by decide +kernel), (by decide +kernel), (by decide +kernel), (by decide +kernel), (by decide +kernel), (by decide +kernel),
   fun st i h1 h2 _ => by
     have h : (List.range 8).all (fun st => (List.range 2).all (fun i => decide (walkEnds walkState 16384 (laneWalk walkState ⟨4, 1, 2, 3, 0, 0, 0x20043⟩
       ⟨5, [loadRule, endRule 0]⟩ i st) = some (0, 2, 77 :: List.replicate 63 0)))) = true := by decide +kernel
     exact of_decide_eq_true (List.all_eq_true.mp (List.all_eq_true.mp h st (List.mem_range.mpr h1)) i (List.mem_range.mpr h2)), fun _ _ _ _ => show 0 < 2 by decide, rfl, (by decide +kernel)⟩

/-- A walk on stack 0 at its first rule, with P = 64, the key 9 and a line that begins with 77. -/
def walkOf (rules : List Word) : Walk := ⟨9, 0, 64, (77 :: List.replicate 63 0), 0, 0, 0, 0, 0, 0, ⟨5, rules⟩, 0, 4, 0, none, none, none, false⟩
/-- The walk alone, over block 7 as given. -/
def stepState (w : Walk) (blk : Word) (ack : List Nat) : State := walkDie [] blk [w] ack State.reset
/-- The hypotheses that all rules share. -/
def WalkAt (s : State) (i : Nat) (w : Walk) (r : Word) (d : Word × Word) (a : Int) (len : Nat) (e : Nat × Word) : Prop :=
  WalkRuns s i w ∧ r = nthD 0 w.prog.rules w.pc ∧ d = s.region w.ctx w.prog.region ∧ a = (w.p : Int) + ruleSigned r 32 16 ∧ len = ruleField r 52 8 ∧
  e = (regFirst d + a.toNat / 2 ^ 27, s.block (regFirst d + a.toNat / 2 ^ 27))
theorem walk_at {w : Walk} {blk : Word} {ack : List Nat} {r : Word} {d : Word × Word} {a : Int} {len : Nat}
    (h : (w.mig = none ∧ w.mov = none) ∧ w.gone = false ∧ regValid ((stepState w blk ack).region w.ctx w.prog.region) = true ∧ w.n ≠ w.lim) (hr : r = nthD 0 w.prog.rules w.pc)
    (hd : d = (stepState w blk ack).region w.ctx w.prog.region) (ha : a = (w.p : Int) + ruleSigned r 32 16) (hl : len = ruleField r 52 8) :
    WalkAt (stepState w blk ack) 0 w r d a len (regFirst d + a.toNat / 2 ^ 27, (stepState w blk ack).block (regFirst d + a.toNat / 2 ^ 27)) :=
  ⟨⟨rfl, fun _ _ h => absurd h (Nat.not_lt_zero _), ⟨fun _ hm => absurd (h.1.1 ▸ hm) nofun, fun _ hm => absurd (h.1.2 ▸ hm) nofun⟩, h.2⟩, hr, hd, ha, hl, rfl⟩

/-- LOADs of the last bytes of a line: on the walk's stack, on another, of a moving block; at P = 0; below the region; across a line; of no block. -/
theorem meets_loads :
    let Inside := fun (w : Walk) (r : Word) (d : Word × Word) (a : Int) (len : Nat) (e : Nat × Word) => ruleField r 60 4 = 0 ∧ w.p ≠ 0 ∧ 0 ≤ a ∧ a + len ≤ regSize d ∧
      a.toNat / 64 = (a.toNat + len - 1) / 64 ∧ e.2.getLsbD 63 = true
    (∃ s : State, ∃ i w r d a len e, WalkAt s i w r d a len e ∧ Inside w r d a len e ∧ (e.2.getLsbD 62 = false ∨ e.1 ∉ s.bd.movAck) ∧ fld e.2 0 3 = w.stack ∧ a = 120) ∧
    (∃ s : State, ∃ i w r d a len e, WalkAt s i w r d a len e ∧ Inside w r d a len e ∧ (e.2.getLsbD 62 = false ∨ e.1 ∉ s.bd.movAck) ∧ fld e.2 0 3 ≠ w.stack ∧ w.mig = none) ∧
    (∃ s : State, ∃ i w r d a len e, WalkAt s i w r d a len e ∧ Inside w r d a len e ∧ e.2.getLsbD 62 = true ∧ e.1 ∈ s.bd.movAck ∧ w.mov = none) ∧
    (∃ s : State, ∃ i w r d a len e, WalkAt s i w r d a len e ∧ ruleField r 60 4 = 0 ∧ w.p = 0) ∧
    (∃ s : State, ∃ i w r d a len e, WalkAt s i w r d a len e ∧ ruleField r 60 4 = 0 ∧ w.p ≠ 0 ∧ a < 0) ∧
    (∃ s : State, ∃ i w r d a len e, WalkAt s i w r d a len e ∧ ruleField r 60 4 = 0 ∧ w.p ≠ 0 ∧ a.toNat / 64 ≠ (a.toNat + len - 1) / 64) ∧
    (∃ s : State, ∃ i w r d a len e, WalkAt s i w r d a len e ∧ ruleField r 60 4 = 0 ∧ w.p ≠ 0 ∧ (regSize d : Int) < a + len) ∧
    (∃ s : State, ∃ i w r d a len e, WalkAt s i w r d a len e ∧ ruleField r 60 4 = 0 ∧ w.p ≠ 0 ∧ e.2.getLsbD 63 = false) :=
  ⟨⟨stepState (walkOf [word (8 * 2 ^ 52 + 56 * 2 ^ 32 + 1)]) (word (2 ^ 63)) [], 0, _, _, _, _, _, _, walk_at (by decide +kernel) rfl rfl rfl rfl, (by decide +kernel), .inl (by decide +kernel), (by decide +kernel), (by decide +kernel)⟩,
   ⟨stepState (walkOf [loadRule]) (word (2 ^ 63 + 384 * 8 + 1)) [], 0, _, _, _, _, _, _, walk_at (by decide +kernel) rfl rfl rfl rfl, (by decide +kernel), .inl (by decide +kernel), (by decide +kernel), rfl⟩,
   ⟨stepState (walkOf [loadRule]) (word (2 ^ 63 + 2 ^ 62)) [7], 0, _, _, _, _, _, _, walk_at (by decide +kernel) rfl rfl rfl rfl, (by decide +kernel), (by decide +kernel), (by decide +kernel), rfl⟩,
   ⟨stepState { walkOf [loadRule] with p := 0 } (word (2 ^ 63)) [], 0, _, _, _, _, _, _, walk_at (by decide +kernel) rfl rfl rfl rfl, (by decide +kernel), rfl⟩,
   ⟨stepState (walkOf [word (8 * 2 ^ 52 + 0xFFBF * 2 ^ 32 + 1)]) (word (2 ^ 63)) [], 0, _, _, _, _, _, _, walk_at (by decide +kernel) rfl rfl rfl rfl, (by decide +kernel), (by decide +kernel), (by decide +kernel)⟩,
   ⟨stepState (walkOf [word (8 * 2 ^ 52 + 57 * 2 ^ 32 + 1)]) (word (2 ^ 63)) [], 0, _, _, _, _, _, _, walk_at (by decide +kernel) rfl rfl rfl rfl, (by decide +kernel), (by decide +kernel), (by decide +kernel)⟩,
   ⟨stepState { walkOf [loadRule] with p := 2 ^ 27 - 7 } (word (2 ^ 63)) [], 0, _, _, _, _, _, _, walk_at (by decide +kernel) rfl rfl rfl rfl, (by decide +kernel), (by decide +kernel), (by decide +kernel)⟩,
   ⟨stepState (walkOf [loadRule]) 0 [], 0, _, _, _, _, _, _, walk_at (by decide +kernel) rfl rfl rfl rfl, (by decide +kernel), (by decide +kernel), (by decide +kernel)⟩⟩

/-- CMP of the key, a HASH of 40 bits and of none, PTR to 77, to zero with and without a way on, END of both codes. -/
theorem meets_rules :
    (∃ s : State, ∃ i w r d a len e, WalkAt s i w r d a len e ∧ ruleField r 60 4 = 1 ∧ ruleField r 56 4 = 3) ∧
    (∃ s : State, ∃ i w r d a len e, WalkAt s i w r d a len e ∧ ruleField r 60 4 = 2 ∧ ruleField r 52 8 = 40) ∧
    (∃ s : State, ∃ i w r d a len e, WalkAt s i w r d a len e ∧ ruleField r 60 4 = 2 ∧ ruleField r 52 8 = 0) ∧
    (∃ s : State, ∃ i w r d a len e, WalkAt s i w r d a len e ∧ ruleField r 60 4 = 3 ∧ ∃ q, q = walkBytes w (ruleField r 40 8) (2 ^ ruleField r 56 4) % 2 ^ 40 ∧ q ≠ 0) ∧
    (∃ s : State, ∃ i w r d a len e, WalkAt s i w r d a len e ∧ ruleField r 60 4 = 3 ∧ ∃ q, q = walkBytes w (ruleField r 40 8) (2 ^ ruleField r 56 4) % 2 ^ 40 ∧ q = 0 ∧ r.getLsbD 55 = false) ∧
    (∃ s : State, ∃ i w r d a len e, WalkAt s i w r d a len e ∧ ruleField r 60 4 = 3 ∧ ∃ q, q = walkBytes w (ruleField r 40 8) (2 ^ ruleField r 56 4) % 2 ^ 40 ∧ q = 0 ∧ r.getLsbD 55 = true) ∧
    (∃ s : State, ∃ i w r d a len e f, WalkAt s i w r d a len e ∧ ruleField r 60 4 = 4 + f ∧ f < 2 ∧ f = 1) :=
  ⟨⟨stepState (walkOf [word (2 ^ 60 + 3 * 2 ^ 56 + 0x123)]) 0 [], 0, _, _, _, _, _, _, walk_at (by decide +kernel) rfl rfl rfl rfl, (by decide +kernel), (by decide +kernel)⟩,
   ⟨stepState (walkOf [word (2 * 2 ^ 60 + 40 * 2 ^ 52 + 3 * 2 ^ 48 + 5 * 2 ^ 16 + 1)]) 0 [], 0, _, _, _, _, _, _, walk_at (by decide +kernel) rfl rfl rfl rfl, (by decide +kernel), (by decide +kernel)⟩,
   ⟨stepState (walkOf [word (2 * 2 ^ 60 + 1)]) 0 [], 0, _, _, _, _, _, _, walk_at (by decide +kernel) rfl rfl rfl rfl, (by decide +kernel), (by decide +kernel)⟩,
   ⟨stepState (walkOf [word (3 * 2 ^ 60 + 3 * 2 ^ 56 + 1)]) 0 [], 0, _, _, _, _, _, _, walk_at (by decide +kernel) rfl rfl rfl rfl, (by decide +kernel), _, rfl, (by decide +kernel)⟩,
   ⟨stepState (walkOf [word (3 * 2 ^ 60 + 2 * 2 ^ 56 + 60 * 2 ^ 40 + 1)]) 0 [], 0, _, _, _, _, _, _, walk_at (by decide +kernel) rfl rfl rfl rfl, (by decide +kernel), _, rfl, (by decide +kernel), (by decide +kernel)⟩,
   ⟨stepState (walkOf [word (3 * 2 ^ 60 + 2 * 2 ^ 56 + 2 ^ 55 + 60 * 2 ^ 40 + 0x21)]) 0 [], 0, _, _, _, _, _, _, walk_at (by decide +kernel) rfl rfl rfl rfl, (by decide +kernel), _, rfl, (by decide +kernel), (by decide +kernel)⟩,
   ⟨stepState (walkOf [endRule 1]) 0 [], 0, _, _, _, _, _, _, 1, walk_at (by decide +kernel) rfl rfl rfl rfl, (by decide +kernel), (by decide +kernel), rfl⟩⟩

/-- A walk whose region is gone, one at its limit, one that moves and one that waits, each late; a moving block; descriptors of the last region. -/
theorem meets_walkEnds :
    let At := fun s (i : Nat) (w : Walk) => (State.bd s).walks[i]? = some w ∧ (∀ (j : Nat) x, j < i → s.bd.walks[j]? = some x → walkIs w.cl w.core w.qpos w.lane x = false)
    (∃ s : State, ∃ i w, At s i w ∧ (w.gone = true ∨ regValid (s.region w.ctx w.prog.region) = false) ∧ w.gone = true) ∧
    (∃ s : State, ∃ i w, At s i w ∧ InTime s w ∧ w.gone = false ∧ regValid (s.region w.ctx w.prog.region) = true ∧ w.n = w.lim) ∧
    (∃ s : State, ∃ i w, At s i w ∧ ¬InTime s w) ∧
    (∃ s : State, ∃ i w, At s i w ∧ InTime s w ∧ ∃ t0 st, w.mig = some (t0, st) ∧ (s.bd.walks.filter (fun x => x.stack == st)).length < 512) ∧
    (∃ s : State, ∃ i w, At s i w ∧ ∃ t0 st, w.mig = some (t0, st) ∧ t0 + 65536 ≤ s.time) ∧ (∃ s : State, ∃ i w, At s i w ∧ ∃ t0, w.mov = some t0 ∧ t0 + 2 ^ 20 ≤ s.time) ∧
    (∃ s : State, ∃ e, (State.block s e).getLsbD 62 = true ∧ e ∉ s.bd.movAck) ∧
    (∃ s : State, ∃ c r v lo : Nat, ∃ w : Word, c < 4096 ∧ r < 16 ∧ w = (look (16 * c + r) (State.bd s).regLow).getD (s.region c r).1 ∧ lo = fld w 0 12 ∧ (v / 2 ^ 63) % 2 = 1 ∧
      ¬(v % 2 ^ 40 ≠ 0 ∧ v % 64 = 0 ∧ lo + (v % 2 ^ 40 + (2 ^ 27 - 1)) / 2 ^ 27 ≤ 4096 ∧ ∀ j, j < (v % 2 ^ 40 + (2 ^ 27 - 1)) / 2 ^ 27 → (s.block (lo + j)).getLsbD 63 = true)) ∧
    (∃ s : State, ∃ c r v lo : Nat, ∃ w : Word, c < 4096 ∧ r < 16 ∧ w = (look (16 * c + r) (State.bd s).regLow).getD (s.region c r).1 ∧ lo = fld w 0 12 ∧ (v / 2 ^ 63) % 2 = 1 ∧
      (v % 2 ^ 40 ≠ 0 ∧ v % 64 = 0 ∧ lo + (v % 2 ^ 40 + (2 ^ 27 - 1)) / 2 ^ 27 ≤ 4096 ∧ ∀ j, j < (v % 2 ^ 40 + (2 ^ 27 - 1)) / 2 ^ 27 → (s.block (lo + j)).getLsbD 63 = true) ∧
      c = 4095 ∧ r = 15) ∧
    (∃ c r v : Nat, c < 4096 ∧ r < 16 ∧ (v / 2 ^ 63) % 2 = 0) :=
  ⟨⟨stepState { walkOf [] with gone := true } 0 [], 0, _, ⟨rfl, fun _ _ h => absurd h (Nat.not_lt_zero _)⟩, .inl rfl, rfl⟩,
   ⟨stepState { walkOf [] with n := 4 } 0 [], 0, _, ⟨rfl, fun _ _ h => absurd h (Nat.not_lt_zero _)⟩, ⟨nofun, nofun⟩, rfl, (by decide +kernel), rfl⟩,
   ⟨{ stepState { walkOf [] with mig := some (0, 1) } 0 [] with time := 65536 }, 0, _, ⟨rfl, fun _ _ h => absurd h (Nat.not_lt_zero _)⟩, fun h => absurd (h.1 _ rfl) (by decide)⟩,
   ⟨stepState { walkOf [] with mig := some (0, 1) } 0 [], 0, _, ⟨rfl, fun _ _ h => absurd h (Nat.not_lt_zero _)⟩, ⟨fun _ h => by cases h; decide, nofun⟩, 0, 1, rfl, (by decide +kernel)⟩,
   ⟨{ stepState { walkOf [] with mig := some (0, 1) } 0 [] with time := 65536 }, 0, _, ⟨rfl, fun _ _ h => absurd h (Nat.not_lt_zero _)⟩, 0, 1, rfl, (by decide +kernel)⟩,
   ⟨{ stepState { walkOf [] with mov := some 0 } 0 [] with time := 2 ^ 20 }, 0, _, ⟨rfl, fun _ _ h => absurd h (Nat.not_lt_zero _)⟩, 0, rfl, (by decide +kernel)⟩,
   ⟨stepState (walkOf []) (word (2 ^ 62)) [], 7, (by decide +kernel), nofun⟩, ⟨State.reset, 0, 0, 2 ^ 63, _, _, (by decide +kernel), (by decide +kernel), rfl, rfl, (by decide +kernel), (by decide +kernel)⟩,
   ⟨State.modBd (stepState (walkOf []) (word (2 ^ 63)) []) (fun b => { b with regLow := [(65535, 7)] }), 4095, 15, 2 ^ 63 + 64, 7, 7, (by decide +kernel), (by decide +kernel), (by decide +kernel), (by decide +kernel), (by decide +kernel), (by decide +kernel), rfl, rfl⟩, ⟨0, 0, 64, by decide⟩⟩

end Sys2Proof.Machine
namespace Sys2Proof.Machine

/-! ### Stage queues, launches, groups, pre-emption and traps -/

/-- A thread of stage 1 of a launch of three stages; items in the queues of stage 1 of cores 0 and 2 and, full, of stage 2 of core 0. -/
def stageState (q0 q2 : List Word) (gl : List (Nat × Word)) (f : Slot → Slot) : State :=
  (running (fun x => f { withG gl x with th := { x.th with stage := 1, ns := 3, seq := 9, tid := 4 } }) id).modClus (fun k => { k with
    stq := ((k.stq.setIfInBounds 0 q0).setIfInBounds 14 q2).setIfInBounds 1 (List.replicate 64 5) })
theorem meets_tqpush :
    let P := fun s (o : OpA2) st => Instr.WellFormed (.tqpush o) ∧ st = (State.g s o.b).toNat ∧ s.Free
    (∃ s : State, ∃ o st, P s o st ∧ s.slot.th.ns ≤ st) ∧ (∃ s : State, ∃ o st, P s o st ∧ (s.g o.a).getLsbD 63 = true) ∧ (∃ s : State, ∃ o st, P s o st ∧ st ≤ s.slot.th.stage) ∧
    (∃ s : State, ∃ o st, P s o st ∧ (s.g o.a).getLsbD 63 = false ∧ st < s.slot.th.ns ∧ s.slot.th.stage < st ∧ (stageQueue s s.cl s.co st).length < 64) ∧
    (∃ s : State, ∃ o st, P s o st ∧ (s.g o.a).getLsbD 63 = false ∧ st < s.slot.th.ns ∧ s.slot.th.stage < st ∧ 64 ≤ (stageQueue s s.cl s.co st).length) :=
  ⟨⟨stageState [] [] [(1, 7), (2, 3)] id, ⟨5, 1, 2⟩, _, ⟨(wf_of (by decide +kernel)), rfl, (free_of (by decide +kernel))⟩, (by decide +kernel)⟩, ⟨stageState [] [] [(1, 0x8000000000000000), (2, 2)] id, ⟨5, 1, 2⟩, _, ⟨(wf_of (by decide +kernel)), rfl, (free_of (by decide +kernel))⟩, (by decide +kernel)⟩,
   ⟨stageState [] [] [(1, 7), (2, 1)] id, ⟨5, 1, 2⟩, _, ⟨(wf_of (by decide +kernel)), rfl, (free_of (by decide +kernel))⟩, (by decide +kernel)⟩,
   ⟨(stageState [] [] [(1, 7), (2, 2)] id).modClus (fun k => { k with stq := k.stq.setIfInBounds 1 (List.replicate 63 5) }), ⟨5, 1, 2⟩, _, ⟨(wf_of (by decide +kernel)), rfl, (free_of (by decide +kernel))⟩, (by decide +kernel), (by decide +kernel), (by decide +kernel), (by decide +kernel)⟩,
   ⟨stageState [] [] [(1, 7), (2, 2)] id, ⟨5, 1, 2⟩, _, ⟨(wf_of (by decide +kernel)), rfl, (free_of (by decide +kernel))⟩, (by decide +kernel), (by decide +kernel), (by decide +kernel), (by decide +kernel)⟩⟩
/-- The high slot of the same core, at the same stage, behind a wait of the low one. -/
def behindState (q : List Word) : State :=
  ((stageState q [] [] (fun x => { x with popAt := some 0 })).at_ 0 0 true).modSlot (fun x => { withG [(1, 1)] x with
    run := .running, pc := 128, npc := 130, th := { x.th with stage := 1, ns := 3, seq := 9, tid := 5 } })
theorem meets_tqpop :
    let P := fun s (o : OpA2) st => Instr.WellFormed (.tqpop o) ∧ o.b = 0 ∧ st = (State.slot s).th.stage ∧ s.Free
    let Q := fun s (o : OpA2) st => P s o st ∧ (State.g s o.a).toNat ≤ 1 ∧ st ≠ 0 ∧ s.slot.retired = false ∧ s.co < 8
    let Own := fun s (o : OpA2) st n x => Q s o st ∧ n = ((State.waiters s st).filter (fun r => r.1 == s.co && placeBefore r (s.co, s.hi))).length ∧ (stageQueue s s.cl s.co st)[n]? = some x
    (∃ s : State, ∃ o st, P s o st ∧ 1 < (s.g o.a).toNat) ∧ (∃ s : State, ∃ o st, P s o st ∧ (s.g o.a).toNat ≤ 1 ∧ s.slot.retired = true) ∧ (∃ s : State, ∃ o st, P s o st ∧ (s.g o.a).toNat ≤ 1 ∧ st = 0) ∧
    (∃ s : State, ∃ o st n x, Own s o st n x ∧ n = 0) ∧ (∃ s : State, ∃ o st n x, Own s o st n x ∧ n = 1) ∧
    (∃ s : State, ∃ o st, Q s o st ∧ ∃ i c x q, 1 ≤ i ∧ i ≤ 7 ∧ c = (s.co + i) % 8 ∧ (∀ j, j < i → stageQueue s s.cl ((s.co + j) % 8) st = []) ∧ stageQueue s s.cl c st = q ++ [x] ∧
      ((s.waiters st).filter (fun r => r.1 == c)).length ≤ q.length ∧ (∀ r ∈ s.waiters st, r.1 ≠ c → s.clus.scan r.1 st = some c → placeBefore r (s.co, s.hi) = false) ∧ q ≠ []) ∧
    (∃ s : State, ∃ o st, Q s o st ∧ (∀ j, j < 8 → stageQueue s s.cl ((s.co + j) % 8) st = []) ∧ st ∈ s.clus.closed) ∧
    (∃ s : State, ∃ o st, Q s o st ∧ (∀ j, j < 8 → stageQueue s s.cl ((s.co + j) % 8) st = []) ∧ st ∉ s.clus.closed ∧ s.g o.a = 1) ∧
    (∃ s : State, ∃ o st, Q s o st ∧ (∀ j, j < 8 → stageQueue s s.cl ((s.co + j) % 8) st = []) ∧ st ∉ s.clus.closed ∧ s.g o.a = 0) :=
  ⟨⟨stageState [] [] [(1, 2)] id, ⟨5, 1, 0⟩, _, ⟨(wf_of (by decide +kernel)), rfl, rfl, (free_of (by decide +kernel))⟩, (by decide +kernel)⟩, ⟨stageState [] [] [(1, 1)] (fun x => { x with retired := true }), ⟨5, 1, 0⟩, _, ⟨(wf_of (by decide +kernel)), rfl, rfl, (free_of (by decide +kernel))⟩, (by decide +kernel), (by decide +kernel)⟩,
   ⟨running (withG [(1, 1)]) id, ⟨5, 1, 0⟩, 0, ⟨(wf_of (by decide +kernel)), rfl, (by decide +kernel), (free_of (by decide +kernel))⟩, (by decide +kernel), rfl⟩,
   ⟨stageState [6, 7] [] [(1, 1)] id, ⟨5, 1, 0⟩, 1, 0, 6, ⟨⟨⟨(wf_of (by decide +kernel)), rfl, (by decide +kernel), (free_of (by decide +kernel))⟩, (by decide +kernel), (by decide +kernel), (by decide +kernel), (by decide +kernel)⟩, (by decide +kernel), (by decide +kernel)⟩, rfl⟩,
   ⟨behindState [6, 7], ⟨5, 1, 0⟩, 1, 1, 7, ⟨⟨⟨(wf_of (by decide +kernel)), rfl, (by decide +kernel), (free_of (by decide +kernel))⟩, (by decide +kernel), (by decide +kernel), (by decide +kernel), (by decide +kernel)⟩, (by decide +kernel), (by decide +kernel)⟩, rfl⟩,
   ⟨stageState [] [6, 7] [(1, 1)] id, ⟨5, 1, 0⟩, 1, ⟨⟨(wf_of (by decide +kernel)), rfl, (by decide +kernel), (free_of (by decide +kernel))⟩, (by decide +kernel), (by decide +kernel), (by decide +kernel), (by decide +kernel)⟩, 2, 2, 7, [6], (by decide +kernel), (by decide +kernel), (by decide +kernel), (by decide +kernel), (by decide +kernel), (by decide +kernel), (by decide +kernel), (by decide +kernel)⟩,
   ⟨(stageState [] [] [(1, 1)] id).modClus (fun k => { k with closed := [1] }), ⟨5, 1, 0⟩, 1, ⟨⟨(wf_of (by decide +kernel)), rfl, (by decide +kernel), (free_of (by decide +kernel))⟩, (by decide +kernel), (by decide +kernel), (by decide +kernel), (by decide +kernel)⟩, (by decide +kernel), (by decide +kernel)⟩,
   ⟨stageState [] [] [(1, 1)] id, ⟨5, 1, 0⟩, 1, ⟨⟨(wf_of (by decide +kernel)), rfl, (by decide +kernel), (free_of (by decide +kernel))⟩, (by decide +kernel), (by decide +kernel), (by decide +kernel), (by decide +kernel)⟩, (by decide +kernel), (by decide +kernel), (by decide +kernel)⟩,
   ⟨stageState [] [] [] id, ⟨5, 1, 0⟩, 1, ⟨⟨(wf_of (by decide +kernel)), rfl, (by decide +kernel), (free_of (by decide +kernel))⟩, (by decide +kernel), (by decide +kernel), (by decide +kernel), (by decide +kernel)⟩, (by decide +kernel), (by decide +kernel), (by decide +kernel)⟩⟩

/-- A launch of two groups of 16 threads and one of three stages. -/
def launchOf (seq : Nat) : Launch :=
  ⟨seq, 0, 0x20000, [0, 128, 256, 0, 0, 0, 0, 0], 77, 2, 1, 1, 16, 3, 1, 3, 0, 0, 0, [2, 1, 0, 0, 0, 0, 0], [1, 1, 0, 0, 0, 0, 0], 0, none, none, 0, 1, 0, 0, false, false, []⟩
/-- Cluster 3 runs its first group; the queue of stage 1 of core 2 has the given items; core 2's low slot holds a thread where asked. -/
def groupState (q : List Word) (time : Nat) (f : Cluster → Cluster) : State :=
  let s := { State.reset.modHub (fun h => { h with run := [launchOf 9] }) with time := time }
  s.modClusAt 3 (fun k => f { k with group := some ⟨9, 0, 1⟩, stq := k.stq.setIfInBounds 14 q })
/-- Nothing stands before the queue of stage 1 of core 2. -/
theorem none_before {q : List Word} {time : Nat} {f : Cluster → Cluster} {l : Launch} (h : ∀ c < 2, stageQueue (groupState q time f) 3 c 1 = []) :
    ∀ co' st' row', (st' < 1 ∨ st' = 1 ∧ co' < 2) → co' < 8 → row' ≤ 2 → ¬rowStarts (groupState q time f) l 3 co' st' row' := by
  intro co' st' row' hb _ _ hr
  have h1 := hr.2.2.1
  obtain ⟨rfl, hc⟩ : st' = 1 ∧ co' < 2 := by omega
  exact hr.2.2.2.2.1 (h co' hc)
theorem meets_instances :
    let P := fun s cl co st g l row i p => (State.clusAt s cl).group = some g ∧ s.launch g.seq = some l ∧ rowStarts s l cl co st row ∧
      (i = Instr.stageInstanceStart cl co st ∧ (row = 0 ∨ row = 2 ∧ ¬rowStarts s l cl co st 0) ∨ i = Instr.stageAgeExpiry cl co st ∧ row = 1) ∧
      (∀ co' st' row', (st' < st ∨ st' = st ∧ co' < co) → co' < 8 → row' ≤ 2 → ¬rowStarts s l cl co' st' row') ∧ st ≤ 7 ∧ co < 8 ∧
      (s.clusAt cl).startedAt ≠ some s.time ∧ firstSat (fun q => (s.slotIn cl q).run == .vacant) ([(co, false), (co, true)] ++ places) = some p ∧ p.1 < 8
    (∃ s : State, ∃ cl co st g l row i p, P s cl co st g l row i p ∧ row = 0) ∧ (∃ s : State, ∃ cl co st g l row i p, P s cl co st g l row i p ∧ row = 1) ∧
    (∃ s : State, ∃ cl co st g l row i p, P s cl co st g l row i p ∧ row = 2) ∧
    (∃ s : State, ∃ u cl co slot t0, u = State.at_ s cl co (slot != 0) ∧ u.slot.popAt = some t0 ∧ u.slot.run = .running ∧ t0 + 2048 ≤ s.time ∧
      1 ≤ u.slot.th.stage ∧ (∀ c, c < 8 → stageQueue s cl c u.slot.th.stage = []) ∧ u.slot.gang.getLsbD 63 = false ∧ u.clus.preempt = false) ∧
    (∃ s : State, ∃ u cl co slot t0, u = State.at_ s cl co (slot != 0) ∧ u.slot.popAt = some t0 ∧ u.slot.run = .running ∧ t0 + 2048 ≤ s.time ∧
      1 ≤ u.slot.th.stage ∧ (∀ c, c < 8 → stageQueue s cl c u.slot.th.stage = []) ∧ u.slot.gang.getLsbD 63 = true ∧ u.myGang = none ∧ u.clus.preempt = false) :=
  ⟨⟨groupState [5, 6] 0 id, 3, 2, 1, ⟨9, 0, 1⟩, launchOf 9, 0, _, (2, false), ⟨(by decide +kernel), rfl, ⟨(by decide +kernel), (by decide +kernel), (by decide +kernel), (by decide +kernel), (by decide +kernel), (by decide +kernel), .inl ⟨rfl, (by decide +kernel), (by decide +kernel), (by decide +kernel)⟩⟩, .inl ⟨rfl, .inl rfl⟩, none_before (by decide +kernel), (by decide +kernel), (by decide +kernel), (by decide +kernel), (by decide +kernel), (by decide +kernel)⟩, rfl⟩,
   ⟨groupState [5] 1024 id, 3, 2, 1, ⟨9, 0, 1⟩, launchOf 9, 1, _, (2, false), ⟨(by decide +kernel), rfl, ⟨(by decide +kernel), (by decide +kernel), (by decide +kernel), (by decide +kernel), (by decide +kernel), (by decide +kernel), .inr (.inl ⟨rfl, (by decide +kernel), (by decide +kernel)⟩)⟩, .inr ⟨rfl, rfl⟩, none_before (by decide +kernel), (by decide +kernel), (by decide +kernel), (by decide +kernel), (by decide +kernel), (by decide +kernel)⟩, rfl⟩,
   ⟨groupState [5] 0 (fun k => { k with closed := [1] }), 3, 2, 1, ⟨9, 0, 1⟩, launchOf 9, 2, _, (2, false), ⟨(by decide +kernel), rfl, ⟨(by decide +kernel), (by decide +kernel), (by decide +kernel), (by decide +kernel), (by decide +kernel), (by decide +kernel), .inr (.inr ⟨rfl, (by decide +kernel), (by decide +kernel)⟩)⟩,
     .inl ⟨rfl, .inr ⟨rfl, fun h => by
       rcases h.2.2.2.2.2.2 with h | h | h
       · exact absurd h.2.1 (by decide +kernel)
       · exact absurd h.1 (by decide)
       · exact absurd h.1 (by decide)⟩⟩, none_before (by decide +kernel), (by decide +kernel), (by decide +kernel), (by decide +kernel), (by decide +kernel), (by decide +kernel)⟩, rfl⟩,
   ⟨{ stageState [] [] [] (fun x => { x with popAt := some 0 }) with time := 2048 }, _, 0, 0, 0, 0, rfl, (by decide +kernel), (by decide +kernel), (by decide +kernel), (by decide +kernel), (by decide +kernel), (by decide +kernel), (by decide +kernel)⟩,
   ⟨{ stageState [] [] [] (fun x => { x with popAt := some 0, gang := word (2 ^ 63 + 3) }) with time := 2048 }, _, 0, 0, 0, 0, rfl, (by decide +kernel), (by decide +kernel), (by decide +kernel), (by decide +kernel), (by decide +kernel), (by decide +kernel), (by decide +kernel), (by decide +kernel)⟩⟩

/-- A descriptor of one group of 16 threads and one stage, with a release at device scope. -/
def descNum : Nat := 0x20000 + 2 ^ 320 * 77 + 2 ^ 384 * (1 + 2 ^ 16 + 2 ^ 32) + 2 ^ 432 * (16 + 256) + 2 ^ 456 * 3
/-- The state after a phase boundary at device scope. -/
def afterDevice (s : State) : State := match phaseAct 3 s with | .ok u => u | .error _ => s
/-- The hub's tables of children: 5 and 6 of thread 4 born, 5 ended. -/
def kidState (gl : List (Nat × Word)) (ended : List EndedKid) : State :=
  (stageState [] [] gl id).modHub (fun h => { h with born := [(4, 5), (4, 6)], ended := ended })
set_option exponentiation.threshold 512 in
theorem meets_launches :
    let P := fun s u (o : OpA2) a loc => State.Free s ∧ Instr.WellFormed (.launch o) ∧ (s.full = true ∨ fld (s.g o.b) 20 20 = 0) ∧ fld (s.g o.b) 40 24 = 0 ∧
      a = (s.g o.a).toNat ∧ a % 64 = 0 ∧ phaseAct 3 s = .ok u ∧ DescAt u a loc
    (∃ s : State, ∃ u o a loc, P s u o a loc ∧ parseDesc s.full ((List.range 128).map (fun k => u.seen (loc + k))) = none) ∧
    (∃ s : State, ∃ u o a loc, P s u o a loc ∧ ∃ l, parseDesc s.full ((List.range 128).map (fun k => u.seen (loc + k))) = some l ∧ u.hub.kids.length < 1024) ∧
    (∃ s : State, ∃ o : OpA2, ∃ n, State.Free s ∧ Instr.WellFormed (.join o) ∧ o.b = 0 ∧ n = (s.g o.a).toNat ∧ n ≠ 0 ∧ (s.slot.th.tid, n) ∉ s.hub.born) ∧
    (∃ s : State, ∃ o : OpA2, ∃ n, ∃ named : Nat → Bool, ∃ done, State.Free s ∧ Instr.WellFormed (.join o) ∧ o.b = 0 ∧ n = (s.g o.a).toNat ∧ named = (fun q => n == 0 || q == n) ∧
      done = s.hub.ended.filter (fun k => k.tid == s.slot.th.tid && named k.seq) ∧ n = 0 ∧ (∀ b ∈ s.hub.born, b.1 = s.slot.th.tid → named b.2 = true → ∃ k ∈ done, k.seq = b.2)) ∧
    (∃ s : State, ∃ o : OpA2, ∃ n, ∃ named : Nat → Bool, ∃ done q, State.Free s ∧ Instr.WellFormed (.join o) ∧ o.b = 0 ∧ n = (s.g o.a).toNat ∧ named = (fun q => n == 0 || q == n) ∧
      done = s.hub.ended.filter (fun k => k.tid == s.slot.th.tid && named k.seq) ∧ (s.slot.th.tid, n) ∈ s.hub.born ∧
      (s.slot.th.tid, q) ∈ s.hub.born ∧ named q = true ∧ ∀ k ∈ done, k.seq ≠ q) :=
  ⟨⟨hubState id [(1, 0x20000)] id, afterDevice (hubState id [(1, 0x20000)] id), ⟨5, 1, 0⟩, _, 0x20000, ⟨(free_of (by decide +kernel)), (wf_of (by decide +kernel)), .inl (by decide +kernel), (by decide +kernel), rfl, (by decide +kernel), (ok_of (by decide +kernel)), (by decide +kernel), (by decide +kernel), (ok_of (by decide +kernel)), .inl (by decide +kernel)⟩, (by decide +kernel)⟩,
   ⟨hubState (fun m => m.write 0x20000 descNum 64) [(1, 0x20000)] id, afterDevice (hubState (fun m => m.write 0x20000 descNum 64) [(1, 0x20000)] id), ⟨5, 1, 0⟩, _, 0x20000,
     ⟨(free_of (by decide +kernel)), (wf_of (by decide +kernel)), .inl (by decide +kernel), (by decide +kernel), rfl, (by decide +kernel), (ok_of (by decide +kernel)), (by decide +kernel), (by decide +kernel), (ok_of (by decide +kernel)), .inl (by decide +kernel)⟩, some_of (by decide +kernel)⟩,
   ⟨kidState [(1, 7)] [], ⟨5, 1, 0⟩, _, (free_of (by decide +kernel)), (wf_of (by decide +kernel)), rfl, rfl, (by decide +kernel), (by decide +kernel)⟩,
   ⟨kidState [] [⟨4, 5, 0⟩, ⟨4, 6, 2⟩, ⟨3, 1, 1⟩], ⟨5, 1, 0⟩, 0, _, _, (free_of (by decide +kernel)), (wf_of (by decide +kernel)), rfl, (by decide +kernel), rfl, rfl, rfl, (by decide +kernel)⟩,
   ⟨kidState [(1, 6)] [⟨4, 5, 0⟩], ⟨5, 1, 0⟩, 6, _, _, 6, (free_of (by decide +kernel)), (wf_of (by decide +kernel)), rfl, (by decide +kernel), rfl, rfl, (by decide +kernel), (by decide +kernel), rfl, (by decide +kernel)⟩⟩

/-- The machine after boot with launches admitted. -/
def poweredWith (l : List Launch) : State :=
  let s := State.reset.modHub (fun h => { h with run := l })
  { s with bt := { s.bt with powered := true } }
/-- Launch queue 3 with a candidate of priority 0 and a child of priority 1; the child alone. -/
def admitState (lnq : Bool) (l : Launch) : State :=
  let s := State.reset.modHub (fun h => { h with kids := [l] })
  if lnq then s.setLnq 3 { Lnq.fresh with ctl := setFld Lnq.fresh.ctl 62 2 1, cand := some { launchOf 0 with pri := 0 } } else s
theorem meets_admission :
    let P := fun s (c : Cand) (h : Nat) => (State.hub s).run.length < 64 ∧ s.headsRead = true ∧ c ∈ s.candidates ∧ h = ((s.lnq c.src).head + 1) % 2 ^ 17 ∧
      (∀ d ∈ s.candidates, d = c ∨ Cand.before s.time c d = true ∧ Cand.before s.time d c = false)
    (∃ s : State, ∃ c h, P s c h ∧ c.l.groups = 0) ∧ (∃ s : State, ∃ c h, P s c h ∧ c.l.groups ≠ 0 ∧ c.src = 64 ∧ s.hub.kids.head? = some c.l) ∧
    (∃ s : State, ∃ c h n, P s c h ∧ c.l.groups ≠ 0 ∧ c.src < 64 ∧ n = (if s.hub.seq + 1 = 2 ^ 32 then 1 else s.hub.seq + 1) ∧ s.candidates.length = 2) ∧
    (∃ s : State, ∃ l cl, l ∈ (State.hub s).run ∧ s.launch l.seq = some l ∧ s.hasNext l = true ∧ s.freeCluster l = some cl ∧ 1 ≤ l.nt ∧ l.nt ≤ 16 ∧
      (∀ k ∈ s.hub.run, s.finds k = true → k = l ∨ Launch.before l k = true ∧ Launch.before k l = false) ∧ l.nt = 16) ∧
    (∃ s : State, ∃ l : Launch, ∃ u v loc, State.launch s l.seq = some l ∧ s.launchOver l = true ∧ (∀ o ∈ s.bd.ops, o.seq ≠ l.seq) ∧ u = s.releaseAll l.scope l.ran ∧
      (if l.cmpl = 0 then v = u else HubFinds u l.ctx l.cmpl 16 .wr loc ∧ v = u.hubPut loc (recordOf l)) ∧ l.queue = none ∧ l.flags / 4 % 2 = 0 ∧ l.cmpl ≠ 0) :=
  ⟨⟨admitState false { launchOf 9 with nx := 0 }, ⟨{ launchOf 9 with nx := 0 }, 0, 64⟩, _, ⟨(by decide +kernel), (by decide +kernel), (by decide +kernel), rfl, (by decide +kernel)⟩, rfl⟩,
   ⟨admitState false (launchOf 9), ⟨launchOf 9, 0, 64⟩, _, ⟨(by decide +kernel), (by decide +kernel), (by decide +kernel), rfl, (by decide +kernel)⟩, (by decide +kernel), rfl, rfl⟩, ⟨admitState true (launchOf 9), ⟨{ launchOf 0 with pri := 0 }, 0, 3⟩, _, _, ⟨(by decide +kernel), (by decide +kernel), (by decide +kernel), rfl, (by decide +kernel)⟩, (by decide +kernel), (by decide +kernel), rfl, (by decide +kernel)⟩,
   ⟨poweredWith [launchOf 9], launchOf 9, 0, (by decide +kernel), rfl, (by decide +kernel), (by decide +kernel), (by decide +kernel), (by decide +kernel), (by decide +kernel), rfl⟩,
   ⟨(hubState id [] id).modHub (fun h => { h with run := [{ launchOf 9 with next := 2, cmpl := 0x20100 }] }), { launchOf 9 with next := 2, cmpl := 0x20100 }, _, _, 0x20100, rfl, (by decide +kernel), nofun, rfl,
     by rw [if_neg (by decide)]; exact ⟨hub_finds (by decide +kernel), rfl⟩, rfl, (by decide +kernel), (by decide +kernel)⟩⟩

/-- Launch queue 63 in a state: STATE, HEAD, TAIL and a ring of 16 packets at 0x20000. -/
def lnqState (st head tail : Nat) (m : Mem → Mem) (base : Word) : State :=
  (hubState m [] id).setLnq 63 { Lnq.fresh with ctl := word (st * 2 ^ 62 + 4 * 2 ^ 52 + head * 2 ^ 17 + tail), base := base }
set_option exponentiation.threshold 512 in
theorem meets_launchQueues :
    (∃ s : State, ∃ n v c, n < 64 ∧ (State.lnq s n).st = 0 ∧ c = v / 2 ^ 36 % 4096 ∧ s.ctxValid c = true ∧ v % 2 ^ 17 ≤ 2 ^ (v / 2 ^ 52 % 32) ∧ 4 ≤ v / 2 ^ 52 % 32 ∧ v / 2 ^ 52 % 32 ≤ 16 ∧
      v % 2 ^ 17 = 2 ^ 16) ∧
    (∃ s : State, ∃ n v : Nat, n < 64 ∧ (State.lnq s n).st = 1 ∧ v < 2 ^ 17 ∧ (v + 2 ^ 17 - (s.lnq n).head) % 2 ^ 17 ≤ (s.lnq n).size ∧ (v + 2 ^ 17 - (s.lnq n).head) % 2 ^ 17 = (s.lnq n).size) ∧
    (∃ s : State, ∃ n v : Nat, n < 64 ∧ (State.lnq s n).st = 1 ∧ v < 2 ^ 17 ∧ (s.lnq n).size < (v + 2 ^ 17 - (s.lnq n).head) % 2 ^ 17) ∧
    (∃ s : State, ∃ n : Nat, n < 64 ∧ (State.lnq s n).st = 1 ∧ (s.lnq n).occ ≤ (s.lnq n).size) ∧
    (∃ s : State, ∃ n : Nat, ∃ q a, n < 64 ∧ q = State.lnq s n ∧ q.st = 1 ∧ q.occ ≠ 0 ∧ q.cand = none ∧ a = q.base.toNat + 128 * (q.head % q.size) ∧ ∃ x, s.hubRead q.ctx a 64 = .error x) ∧
    (∃ s : State, ∃ n : Nat, ∃ q a l1 l2 bs, n < 64 ∧ q = State.lnq s n ∧ q.st = 1 ∧ q.occ ≠ 0 ∧ q.cand = none ∧ a = q.base.toNat + 128 * (q.head % q.size) ∧
      HubFinds s q.ctx a 64 .rd l1 ∧ HubFinds s q.ctx (a + 64) 64 .rd l2 ∧ bs = s.hubBytes l1 64 ++ s.hubBytes l2 64 ∧ (parseDesc s.full bs).isSome = true) ∧
    (∃ s : State, ∃ n : Nat, ∃ q a l1 l2 bs, n < 64 ∧ q = State.lnq s n ∧ q.st = 1 ∧ q.occ ≠ 0 ∧ q.cand = none ∧ a = q.base.toNat + 128 * (q.head % q.size) ∧
      HubFinds s q.ctx a 64 .rd l1 ∧ HubFinds s q.ctx (a + 64) 64 .rd l2 ∧ bs = s.hubBytes l1 64 ++ s.hubBytes l2 64 ∧ parseDesc s.full bs = none ∧ leField bs 0x48 8 = 0) :=
  ⟨⟨lnqState 0 0 0 id 0x20000, 63, 2 ^ 62 + 16 * 2 ^ 52 + 2 ^ 16, 0, (by decide +kernel), (by decide +kernel), (by decide +kernel), (by decide +kernel), (by decide +kernel), (by decide +kernel), (by decide +kernel), (by decide +kernel)⟩,
   ⟨lnqState 1 (2 ^ 17 - 1) (2 ^ 17 - 1) id 0x20000, 63, 15, (by decide +kernel), (by decide +kernel), (by decide +kernel), (by decide +kernel), (by decide +kernel)⟩, ⟨lnqState 1 0 0 id 0x20000, 63, 17, (by decide +kernel), (by decide +kernel), (by decide +kernel), (by decide +kernel)⟩,
   ⟨lnqState 1 0 16 id 0x20000, 63, (by decide +kernel), (by decide +kernel), (by decide +kernel)⟩,
   ⟨lnqState 1 0 1 id 0x10000000000000, 63, _, _, (by decide +kernel), rfl, (by decide +kernel), (by decide +kernel), (by decide +kernel), rfl, (6, 1, 0), (error_of (by decide +kernel))⟩,
   ⟨lnqState 1 0 1 (fun m => m.write 0x20000 descNum 64) 0x20000, 63, _, 0x20000, 0x20000, 0x20040, _, (by decide +kernel), rfl, (by decide +kernel), (by decide +kernel), (by decide +kernel), (by decide +kernel), hub_finds (by decide +kernel), hub_finds (by decide +kernel), rfl, (by decide +kernel)⟩,
   ⟨lnqState 1 17 18 id 0x20000, 63, _, 0x20080, 0x20080, 0x200C0, _, (by decide +kernel), rfl, (by decide +kernel), (by decide +kernel), (by decide +kernel), (by decide +kernel), hub_finds (by decide +kernel), hub_finds (by decide +kernel), rfl, (by decide +kernel), (by decide +kernel)⟩⟩

/-- A group of cluster 3 that is to leave, with one core whose graph has a root scanner. -/
def leaving (queue : List Cmd) (x : Node) : State :=
  (groupState [] 0 (fun k => { k with preempt := true })).setCoreAt 3 5 { (fireState 0 x []).coreAt 3 5 with queue := queue }
/-- Cluster 3 runs a group of launch 9; launch 10, of a better priority, may use only that cluster. -/
def preyState : State := (poweredWith [launchOf 9, { launchOf 10 with pri := 0, mask := 8 }]).modClusAt 3 (fun k => { k with group := some ⟨9, 0, 1⟩ })
/-- The same group saved. -/
def savedState : State :=
  (poweredWith [launchOf 9]).modHub (fun h => { h with
    saved := [⟨⟨9, 0, 1⟩, 3, true, 0x100000, { Cluster.fresh with group := some ⟨9, 0, 1⟩ }, List.replicate 8 Core.fresh, []⟩] })
theorem meets_preemption :
    (∃ s : State, ∃ cl, ∃ os : Nat, cl < 64 ∧ (State.clusAt s cl).group.isSome = true ∧ os ≠ 0) ∧ (∃ s : State, ∃ cl, ∃ os : Nat, cl < 64 ∧ (State.clusAt s cl).group.isSome = true ∧ os = 0 ∧ s.hubPreempts cl = true) ∧
    (∃ s : State, ∃ cl, cl < 64 ∧ (State.clusAt s cl).group.isSome = true ∧ s.hubPreempts cl = false) ∧ (∃ s : State, ∃ l cl, State.victim s l = some cl) ∧
    (∃ s : State, ∃ u cl co n e, engineOf n = some e ∧ u = State.at_ s cl co false ∧ u.clus.preempt = true ∧ ∃ c ∈ u.core.queue, c.eng = e) ∧
    (∃ s : State, ∃ u cl co n x, u = State.at_ s cl co false ∧ look n u.core.st.graph.nodes = some x ∧ u.clus.preempt = true ∧ u.core.st.graph.state = .running ∧
      x.state = 2 ∧ x.fetch = none ∧ cfgType x.cfg = 0 ∧ 2 ≤ cfgMode x.cfg) ∧
    (∃ s : State, ∃ u cl co n x, u = State.at_ s cl co false ∧ look n u.core.st.graph.nodes = some x ∧ u.clus.preempt = true ∧ u.core.st.graph.state = .running ∧
      x.state = 2 ∧ x.fetch = none ∧ (∀ f ∈ feeders x.cfg, (u.node f).cut = true ∨ (u.node f).done = true) ∧
      (∀ q ∈ cfgPorts x.cfg, q.2.1 = true ∨ u.portMarked q.1 = true) ∧ u.canFire n x = false) ∧
    (∃ s : State, ∃ cl area g, cl < 64 ∧ (State.clusAt s cl).group = some g ∧ (s.clusAt cl).preempt = true ∧ (∀ co, co < 8 → s.coreStopped cl co = true) ∧
      area % 65536 = 0 ∧ area + 0x10000 + 0x1D0000 * 8 ≤ s.hbm ∧ s.MemWf ∧ (∀ p ∈ s.cores, ∀ q ∈ s.cores, p.1 = q.1 → p = q)) ∧
    (∃ s : State, ∃ cl, ∃ i : Nat, ∃ v : Saved, ∃ l, cl < 64 ∧ (State.hub s).saved[i]? = some v ∧ s.launch v.grp.seq = some l ∧ (s.clusAt cl).group = none ∧ s.firstFor l cl = true ∧
      (v.pinned = false ∨ cl = v.cl) ∧ v.cores.length = 8 ∧ s.mem.wf = true ∧ v.pinned = true) :=
  ⟨⟨groupState [] 0 id, 3, 1, (by decide +kernel), (by decide +kernel), (by decide +kernel)⟩, ⟨preyState, 3, 0, (by decide +kernel), (by decide +kernel), rfl, (by decide +kernel)⟩, ⟨groupState [] 0 id, 3, (by decide +kernel), (by decide +kernel), (by decide +kernel)⟩, ⟨preyState, { launchOf 10 with pri := 0, mask := 8 }, 3, (by decide +kernel)⟩,
   ⟨leaving [mtileCmd] reducer, _, 3, 5, 1, .mat, rfl, rfl, (by decide +kernel), mtileCmd, (by decide +kernel), rfl⟩,
   ⟨leaving [] rootScanner, _, 3, 5, 0, _, rfl, rfl, (by decide +kernel), (by decide +kernel), (by decide +kernel), (by decide +kernel), (by decide +kernel), (by decide +kernel)⟩, ⟨leaving [] reducer, _, 3, 5, 0, _, rfl, rfl, (by decide +kernel), (by decide +kernel), (by decide +kernel), (by decide +kernel), (by decide +kernel), (by decide +kernel), (by decide +kernel)⟩,
   ⟨groupState [] 0 (fun k => { k with preempt := true }), 3, 0, ⟨9, 0, 1⟩, (by decide +kernel), (by decide +kernel), (by decide +kernel), (by decide +kernel), (by decide +kernel), (by decide +kernel), ⟨(by decide +kernel), (by decide +kernel : ∀ p ∈ (groupState [] 0 (fun k => { k with preempt := true })).cores,
       p.2.w.wf = true ∧ p.2.a.wf = true ∧ p.2.c.wf = true)⟩, by
     intro p hp q hq h
     revert p q; exact (by decide +kernel : ∀ p ∈ (groupState [] 0 (fun k => { k with preempt := true })).cores, ∀ q ∈ (groupState [] 0 (fun k => { k with preempt := true })).cores,
       p.1 = q.1 → p = q)⟩,
   ⟨savedState, 3, 0, _, launchOf 9, (by decide +kernel), rfl, rfl, (by decide +kernel), (by decide +kernel), .inr rfl, (by decide +kernel), (by decide +kernel), rfl⟩⟩

/-- A record of core 0 of cluster 0. -/
def recordFor (code : Nat) (rpl fatal : Bool) : Record := ⟨code, 1, rpl, false, fatal, false, 0, 0, 0x80, 9, 0, 0, false, 1, 2, 3, 4⟩
/-- TRQBASE 0x20000 of context 0, TRQIDX as given; a record pending at the slot, or one at the hub. -/
def ringState (idx : Word) (pend : List Record) (hub : List Record) : State :=
  ((hubState id [] id).modHub (fun h => { h with trqbase := 0x20000, trqidx := idx, hubPend := hub })).modSlot (fun x => { x with pend := pend })
theorem meets_records :
    let P := fun s u cl co slot (r : Record) l => u = State.at_ s cl co (slot != 0) ∧ cl < 64 ∧ u.slot.pend = r :: l ∧ u.slot.stop = none
    (∃ s : State, ∃ u cl co slot r l x loc, P s u cl co slot r l ∧ x = (State.hub s).trqidx ∧
      HubFinds s (fld s.hub.trqbase 0 12) (fld s.hub.trqbase 12 42 * 4096 + 64 * fld x 0 12) 64 .wr loc ∧ (if r.fatal then fld x 32 13 < 4096 else fld x 32 13 < 4064) ∧
      r.fatal = true ∧ fld x 0 12 = 4095 ∧ fld x 32 13 = 4095) ∧
    (∃ s : State, ∃ u cl co slot r l x loc, P s u cl co slot r l ∧ x = (State.hub s).trqidx ∧
      HubFinds s (fld s.hub.trqbase 0 12) (fld s.hub.trqbase 12 42 * 4096 + 64 * fld x 0 12) 64 .wr loc ∧ (if r.fatal then fld x 32 13 < 4096 else fld x 32 13 < 4064) ∧
      r.fatal = false ∧ fld x 32 13 = 4063) ∧
    (∃ s : State, ∃ u cl co slot r l, P s u cl co slot r l ∧ r.fatal = true ∧ 4096 ≤ fld (State.hub s).trqidx 32 13 ∧ s.hub.fatalpend = 0 ∧ r.ctx < 65536) ∧
    (∃ s : State, ∃ u cl co slot r l e, P s u cl co slot r l ∧ r.fatal = true ∧ fld (State.hub s).trqidx 32 13 < 4096 ∧ s.hub.fatalpend = 0 ∧ r.ctx < 65536 ∧
      s.xlateHub (fld s.hub.trqbase 0 12) (fld s.hub.trqbase 12 42 * 4096 + 64 * fld s.hub.trqidx 0 12) .wr = .error e) ∧
    (∃ s : State, ∃ r : Record, ∃ l x loc, (State.hub s).hubPend = r :: l ∧ x = s.hub.trqidx ∧ fld x 32 13 < 4064 ∧ fld x 0 12 < 4095 ∧
      HubFinds s (fld s.hub.trqbase 0 12) (fld s.hub.trqbase 12 42 * 4096 + 64 * fld x 0 12) 64 .wr loc) ∧
    (∃ s : State, ∃ v n : Nat, n = (v % 4096 + 4096 - fld (State.hub s).trqidx 16 12) % 4096 ∧ n ≤ fld s.hub.trqidx 32 13 ∧ n = 7) :=
  ⟨⟨ringState (word (4095 * 2 ^ 32 + 4095)) [recordFor 1 false true] [], _, 0, 0, 0, _, _, _, _, ⟨rfl, (by decide +kernel), rfl, (by decide +kernel)⟩, rfl, hub_finds (by decide +kernel), by decide +kernel, rfl, (by decide +kernel), (by decide +kernel)⟩,
   ⟨ringState (word (4063 * 2 ^ 32)) [recordFor 1 true false] [], _, 0, 0, 0, _, _, _, _, ⟨rfl, (by decide +kernel), rfl, (by decide +kernel)⟩, rfl, hub_finds (by decide +kernel), by decide +kernel, rfl, (by decide +kernel)⟩,
   ⟨ringState (word (4096 * 2 ^ 32)) [recordFor 1 false true] [], _, 0, 0, 0, _, _, ⟨rfl, (by decide +kernel), rfl, (by decide +kernel)⟩, rfl, (by decide +kernel), (by decide +kernel), (by decide +kernel)⟩,
   ⟨(ringState 0 [recordFor 1 false true] []).modHub (fun h => { h with trqbase := 0x10000000000000 }), _, 0, 0, 0, _, _, (6, 1, 0), ⟨rfl, (by decide +kernel), rfl, (by decide +kernel)⟩, rfl, (by decide +kernel), (by decide +kernel), (by decide +kernel), (error_of (by decide +kernel))⟩,
   ⟨ringState 0 [] [recordFor 1 true false], _, _, _, _, rfl, rfl, (by decide +kernel), (by decide +kernel), hub_finds (by decide +kernel)⟩,
   ⟨ringState (word (7 * 2 ^ 32 + 4094 * 2 ^ 16)) [] [], 5, 7, (by decide +kernel), (by decide +kernel), rfl⟩⟩

/-- The slot is stopped at a written record; a second record waits where asked. -/
def actState (r : Record) (pend : List Record) : State :=
  ((hubState id [] id).modHub (fun h => { h with run := [launchOf 9] })).modSlot (fun x => { x with
    run := .stopped, stop := some r, pend := pend, th := { x.th with seq := 9 } })
theorem meets_actions :
    let P := fun s u cl co hi ctx (r : Record) => StoppedAt s cl co hi ctx r ∧ u = s.at_ cl co hi
    (∃ s : State, ∃ u cl co hi ctx r, P s u cl co hi ctx r ∧ r.fatal = false ∧ r.rpl = true) ∧
    (∃ s : State, ∃ u cl co hi ctx r, ∃ arg : Nat, P s u cl co hi ctx r ∧ r.fatal = false ∧ arg < 2 ^ 64 ∧ arg % 2 = 0 ∧ (∀ e ∈ u.core.queue, e.hi = hi → e.disp = true ∧ e.faulted = false) ∧
      arg = 2 ^ 64 - 2) ∧
    (∃ s : State, ∃ u cl co hi ctx r, P s u cl co hi ctx r ∧ r.fatal = false ∧ r.code = 0x10) ∧
    (∃ s : State, ∃ u cl co hi ctx r, P s u cl co hi ctx r ∧ r.fatal = true) ∧
    (∃ s : State, ∃ ctx, ((State.ex s).colls.map (fun c => (c.num, c.rank))).Nodup ∧ ((s.ex.colls.filter (fun c => c.boot)).map (fun c => c.id)).Nodup ∧ (∃ c ∈ s.ex.colls, c.ctx = ctx) ∧ (∃ w ∈ s.bd.walks, w.ctx = ctx)) :=
  ⟨⟨actState (recordFor 1 true false) [], _, 0, 0, false, 0, _, ⟨⟨(by decide +kernel), (by decide +kernel), (by decide +kernel), (by decide +kernel), rfl, (by decide +kernel), nofun⟩, rfl⟩, rfl, rfl⟩,
   ⟨actState (recordFor 1 true false) [recordFor 2 true false], _, 0, 0, false, 0, _, 2 ^ 64 - 2, ⟨⟨(by decide +kernel), (by decide +kernel), (by decide +kernel), (by decide +kernel), rfl, (by decide +kernel), nofun⟩, rfl⟩, rfl, (by decide +kernel), (by decide +kernel), (by decide +kernel), rfl⟩,
   ⟨actState (recordFor 0x10 true false) [], _, 0, 0, false, 0, _, ⟨⟨(by decide +kernel), (by decide +kernel), (by decide +kernel), (by decide +kernel), rfl, (by decide +kernel), nofun⟩, rfl⟩, rfl, rfl⟩,
   ⟨actState (recordFor 1 false true) [], _, 0, 0, false, 0, _, ⟨⟨(by decide +kernel), (by decide +kernel), (by decide +kernel), (by decide +kernel), rfl, (by decide +kernel), nofun⟩, rfl⟩, rfl⟩,
   ⟨{ runState id with bd := { (runState id).bd with walks := [walkOf []] } }, 0, (by decide +kernel), (by decide +kernel), (by decide +kernel), (by decide +kernel)⟩⟩

end Sys2Proof.Machine
namespace Sys2Proof.Machine

/-! ### Translation at the hub, storage, errors, boot -/

/-- Another part for the hub's translations. -/
def xlState (f : HubXlate → HubXlate) : State := { State.reset with xl := f State.reset.xl }
/-- Another part for errors. -/
def erState (f : Errors → Errors) : State := { State.reset with er := f State.reset.er }
/-- Another part for boot and power. -/
def btState (f : Boot → Boot) : State := { State.reset with bt := f State.reset.bt }

/-- An invalidation with another under way and without; its end; the husk queue with one place left and full; a frame that is ready, one that waits, none. -/
theorem meets_invalidations :
    (∃ s : State, ∃ i x, invalidation i = some x ∧ (State.xl s).tlbinv.getLsbD 63 = false) ∧ (∃ s : State, ∃ i x, invalidation i = some x ∧ (State.xl s).tlbinv.getLsbD 63 = true) ∧
    (∃ s : State, (State.xl s).husk.length = 4095) ∧ (∃ s : State, 4096 ≤ (State.xl s).husk.length) ∧
    (∃ s : State, ∃ f a l, (State.xl s).husk = (f, a) :: l ∧ ∀ x ∈ s.xl.age :: s.tags, a ≤ x) ∧
    (∃ s : State, ∃ f a l, (State.xl s).husk = (f, a) :: l ∧ ∃ x ∈ s.xl.age :: s.tags, x < a) ∧ (∃ s : State, (State.xl s).husk = []) :=
  ⟨⟨State.reset, .tlbinvPage64k 4095 65536, _, rfl, (by decide +kernel)⟩, ⟨xlState (fun x => { x with tlbinv := word (2 ^ 63) }), .tlbinvAll, _, rfl, (by decide +kernel)⟩,
   ⟨xlState (fun x => { x with husk := List.replicate 4095 (0, 0) }), List.length_replicate ..⟩,
   ⟨xlState (fun x => { x with husk := List.replicate 4096 (0, 0) }), Nat.le_of_eq (List.length_replicate ..).symm⟩,
   ⟨xlState (fun x => { x with age := 1, husk := [(0x5000, 1)] }), _, _, _, rfl, (by decide +kernel)⟩,
   ⟨{ xlState (fun x => { x with age := 2, husk := [(0x5000, 1)] }) with die0 := [(0x20000, 7)] }, _, _, _, rfl, 0, (by decide +kernel), (by decide +kernel)⟩, ⟨State.reset, rfl⟩⟩

/-- Pair 2 of four entries, of context 0 and queue 1 of root port 0, in a STATE, with its status word; its rings lie in the page of hubState. -/
def pairOf (st : Nat) (stat : Word) : Nvq := ⟨word (st * 2 ^ 62 + 2 * 2 ^ 52 + 2 ^ 16), 0x20000, 0x20100, 0x9000, stat, 0, 1⟩
def pairState (st : Nat) (stat : Word) (gl : List (Nat × Word)) : State := (hubState id gl id).setNvq 2 (pairOf st stat)
/-- A pair that fits; destroyed; drained; SQPOST of one entry, and of none; CQPOLL that finds nothing, and that takes the entry of the last place and wraps. -/
theorem meets_pairs :
    (∃ s : State, ∃ n v q, n < 1024 ∧ (State.nvq s n).st = 0 ∧ q = { s.nvq n with ctl := setFld (word v) 62 2 1 &&& 0x30F0FFFFFFFFF000 } ∧ s.nvqFit q = true) ∧
    (∃ s : State, ∃ n, n < 1024 ∧ ((State.nvq s n).st = 1 ∨ (State.nvq s n).st = 2)) ∧ (∃ s : State, ∃ n b, (State.nvq s n).st = 3 ∧ (b ≠ 0 ∨ (s.nvq n).open_ = 0)) ∧
    (∃ s : State, ∃ u, ∃ o : OpA2, ∃ n x q, ∃ loc : Nat → Nat, ∃ w, State.Free s ∧ Instr.WellFormed (.sqpost o) ∧ n = (s.g o.a).toNat ∧ x = (s.g o.b).toNat ∧ n < 1024 ∧
      q = s.nvq n ∧ x < q.size ∧ q.sqf < q.size ∧ q.size ≤ 4096 ∧ q.st = 1 ∧ q.ctx = fld s.core.ctxid 0 16 ∧ phaseAct 4 s = .ok u ∧
      (∀ i ∈ posted q x, HubFinds u q.ctx (q.sq.toNat + 64 * i) 64 .rd (loc i) ∧ u.shadow n + 64 * i + 64 ≤ u.hbm) ∧
      w = ({ u with mem := (posted q x).foldl (fun m i => m.writeList (u.shadow n + 64 * i) (({ u with mem := m } : State).hubBytes (loc i) 64)) u.mem }).setNvq n
        { q with stat := setFld (setFld q.stat 16 16 x) 32 16 x, open_ := q.open_ + (posted q x).length } ∧ posted q x = [3]) ∧
    (∃ s : State, ∃ o : OpA2, ∃ n q loc h, State.Free s ∧ Instr.WellFormed (.cqpoll o) ∧ n = (s.g o.a).toNat ∧ n < 1024 ∧ (s.g o.b).toNat ≤ 1 ∧ q = s.nvq n ∧ q.st = 1 ∧
      q.ctx = fld s.core.ctxid 0 16 ∧ s.xlate (q.cq.toNat + 16 * q.cqh) .rd .other = .ok (.mem loc, s) ∧ loc < peerBase ∧ h = (q.cqh + 1) % q.size ∧
      (s.hubByte (loc + 14)).getLsbD 0 ≠ q.ep) ∧
    (∃ s : State, ∃ o : OpA2, ∃ n q loc h, State.Free s ∧ Instr.WellFormed (.cqpoll o) ∧ n = (s.g o.a).toNat ∧ n < 1024 ∧ s.g o.b = 1 ∧ q = s.nvq n ∧ q.st = 1 ∧
      q.ctx = fld s.core.ctxid 0 16 ∧ s.xlate (q.cq.toNat + 16 * q.cqh) .rd .other = .ok (.mem loc, s) ∧ loc < peerBase ∧ h = (q.cqh + 1) % q.size ∧
      (s.hubByte (loc + 14)).getLsbD 0 = q.ep ∧ h = 0) :=
  ⟨⟨hubState id [] id, 1023, 12 * 2 ^ 52 + 2 ^ 16, _, (by decide +kernel), (by decide +kernel), rfl, (by decide +kernel)⟩, ⟨pairState 2 0 [], 2, (by decide +kernel), .inr (by decide +kernel)⟩, ⟨pairState 3 0 [], 2, 1, (by decide +kernel), .inl (by decide +kernel)⟩,
   ⟨pairState 1 (word (3 * 2 ^ 32)) [(1, 2)], afterPhase (pairState 1 (word (3 * 2 ^ 32)) [(1, 2)]), ⟨5, 1, 0⟩, _, _, _, fun i => 0x20000 + 64 * i, _, (free_of (by decide +kernel)), (wf_of (by decide +kernel)), rfl, rfl, (by decide +kernel), rfl,
    (by decide +kernel), (by decide +kernel), (by decide +kernel), (by decide +kernel), (by decide +kernel), (ok_of (by decide +kernel)), by
      intro i hi
      have : posted ((pairState 1 (word (3 * 2 ^ 32)) [(1, 2)]).nvq ((pairState 1 (word (3 * 2 ^ 32)) [(1, 2)]).g (1 : BitVec 6)).toNat)
        ((pairState 1 (word (3 * 2 ^ 32)) [(1, 2)]).g (0 : BitVec 6)).toNat = [3] := by decide +kernel
      rw [this] at hi
      obtain rfl := List.mem_singleton.mp hi
      exact ⟨hub_finds (by decide +kernel), (by decide +kernel)⟩, rfl, (by decide +kernel)⟩,
   ⟨pairState 1 (word (2 ^ 48 + 3)) [(1, 2), (2, 1)], ⟨5, 1, 2⟩, _, _, 0x20130, _, (free_of (by decide +kernel)), (wf_of (by decide +kernel)), rfl, (by decide +kernel), (by decide +kernel), rfl, (by decide +kernel), (by decide +kernel), (ok_of (by decide +kernel)), (by decide +kernel), rfl, (by decide +kernel)⟩,
   ⟨pairState 1 3 [(1, 2), (2, 1)], ⟨5, 1, 2⟩, _, _, 0x20130, _, (free_of (by decide +kernel)), (wf_of (by decide +kernel)), rfl, (by decide +kernel), (by decide +kernel), rfl, (by decide +kernel), (by decide +kernel), (ok_of (by decide +kernel)), (by decide +kernel), rfl, (by decide +kernel), (by decide +kernel)⟩⟩

/-- Window 0 admits every kind from port 3, in 64 KiB. -/
def exportState : State :=
  xlState (fun x => { x with pxw := [(0, word (2 ^ 63 + 7 * 2 ^ 60 + 3 * 2 ^ 56 + 2 ^ 16)), (1, word (2 ^ 16))] })
theorem admits (kind : Nat) (a n : Nat) (h : 65536 ≤ a ∧ a + n ≤ 131072) : WindowAdmits exportState 3 a n kind :=
  ⟨0, _, _, (by decide +kernel), rfl, rfl, (by decide +kernel), (by decide +kernel), by
    have : fld ((look (2 * 0) exportState.xl.pxw).getD 0) 16 36 = 1 := by decide +kernel
    rw [this]; omega, by
    have : fld ((look (2 * 0 + 1) exportState.xl.pxw).getD 0) 16 36 = 1 := by decide +kernel
    rw [this]; omega, fun _ => (by decide +kernel), fun _ => (by decide +kernel), fun _ => (by decide +kernel), fun _ => (by decide +kernel)⟩
theorem not_admits (port a n kind : Nat) : ¬WindowAdmits State.reset port a n kind := by
  rintro ⟨w, lo, hi, _, rfl, _, h, _⟩
  have : (look (2 * w) State.reset.xl.pxw) = none := rfl
  rw [this] at h
  simp at h
/-- The line of address a has a slice full of pending lines; window 0 admits every kind from port 3 below 4 MiB. -/
theorem crowded_window : ∃ s : State, ∃ a : Nat, WindowAdmits s 3 a 8 2 ∧ WindowAdmits s 3 a 8 3 ∧ a + 8 ≤ s.hbm ∧ s.bd.ops = [] ∧ (∀ h ∈ s.bd.held, h.line ≠ a / 64) ∧
    s.bd.entry (a / 64) true s.time = none := by
  obtain ⟨line, hl, ls, hn, h1, h2⟩ := crowded_slice
  have hq : 64 * line / 64 = line := Nat.mul_div_cancel_left _ (by decide)
  let s : State := { xlState (fun x => { x with pxw := [(0, word (2 ^ 63 + 7 * 2 ^ 60 + 3 * 2 ^ 56)), (1, word (63 * 2 ^ 16))] }) with bd := { State.reset.bd with held := heldOf ls false } }
  have w : ∀ kind, WindowAdmits s 3 (64 * line) 8 kind := fun kind =>
    ⟨0, word (2 ^ 63 + 7 * 2 ^ 60 + 3 * 2 ^ 56), word (63 * 2 ^ 16), (by decide +kernel), rfl, rfl, (by decide +kernel), (by decide +kernel), by
      have : fld (word (2 ^ 63 + 7 * 2 ^ 60 + 3 * 2 ^ 56)) 16 36 = 0 := by decide +kernel
      rw [this]; omega, by
      have : fld (word (63 * 2 ^ 16)) 16 36 = 63 := by decide +kernel
      rw [this]; omega, fun _ => (by decide +kernel), fun _ => (by decide +kernel), fun _ => (by decide +kernel), fun _ => (by decide +kernel)⟩
  refine ⟨s, 64 * line, w 2, w 3, ?_, rfl, ?_, ?_⟩
  · have : s.hbm = State.reset.hbm := rfl
    have h : 4194304 ≤ State.reset.hbm := by decide +kernel
    omega
  · rw [hq]; exact heldOf_absent h1
  · rw [hq]; exact entry_full rfl hn h1 h2
/-- A drive access: at a port that is down; of no pair, past 2^53; of the last bytes of the shadow ring; a read and a write of memory. Peers: each kind up to the window's last byte, one
whose slice has no entry left, and none admitted. -/
theorem meets_drivesAndPeers :
    let D := fun s (port addr k va : Nat) q => (4 ≤ port ∨ (State.xl s).rootUp.getLsbD port = true) ∧ k = addr / 2 ^ 54 % 1024 ∧ va = addr % 2 ^ 53 ∧ q = State.nvq s k
    (∃ s : State, ∃ port, port < 4 ∧ (State.xl s).rootUp.getLsbD port = false) ∧
    (∃ s : State, ∃ port addr n k va q, D s port addr k va q ∧ (q.st = 0 ∨ q.rp ≠ port ∨ 2 ^ 53 < va + n)) ∧
    (∃ s : State, ∃ port addr n k va q, D s port addr k va q ∧ q.st ≠ 0 ∧ q.rp = port ∧ va + n ≤ 2 ^ 53 ∧
      addr / 2 ^ 53 % 2 = 1 ∧ va + n = 64 * q.size ∧ s.shadow k + va + n ≤ s.hbm) ∧
    (∃ s : State, ∃ port addr n k va q loc, D s port addr k va q ∧ q.st ≠ 0 ∧ q.rp = port ∧ va + n ≤ 2 ^ 53 ∧
      addr / 2 ^ 53 % 2 = 0 ∧ HubFinds s q.ctx va n .rd loc) ∧
    (∃ s : State, ∃ port addr n k va q loc, D s port addr k va q ∧ q.st ≠ 0 ∧ q.rp = port ∧ va + n ≤ 2 ^ 53 ∧
      addr / 2 ^ 53 % 2 = 0 ∧ HubFinds s q.ctx va n .wr loc ∧ completed q va n = 1) ∧
    (∀ kind, kind < 2 → ∃ s : State, ∃ port a n, WindowAdmits s port a n (kind % 4) ∧ a + n ≤ s.hbm ∧ a + n = 131072) ∧
    (∀ kind, 2 ≤ kind % 4 → ∃ s : State, ∃ port a n data b, WindowAdmits s port a n (kind % 4) ∧ a + n ≤ s.hbm ∧ (n = 2 ∨ n = 4 ∨ n = 8) ∧ data / 2 ^ 64 < 2 ^ (8 * n) ∧ data % 2 ^ 64 < 2 ^ (8 * n) ∧
      s.bd.ops = [] ∧ (∀ h ∈ s.bd.held, h.line ≠ a / 64) ∧ s.bd.entry (a / 64) true s.time = some b) ∧
    (∀ kind, 2 ≤ kind % 4 → ∃ s : State, ∃ port a n data, WindowAdmits s port a n (kind % 4) ∧ a + n ≤ s.hbm ∧ (n = 2 ∨ n = 4 ∨ n = 8) ∧ data / 2 ^ 64 < 2 ^ (8 * n) ∧ data % 2 ^ 64 < 2 ^ (8 * n) ∧
      s.bd.ops = [] ∧ (∀ h ∈ s.bd.held, h.line ≠ a / 64) ∧ s.bd.entry (a / 64) true s.time = none) ∧
    (∀ kind, ∃ s : State, ∃ port a n, ¬WindowAdmits s port a n (kind % 4)) :=
  ⟨⟨xlState (fun x => { x with rootUp := 0 }), 3, (by decide +kernel), (by decide +kernel)⟩, ⟨State.reset, 0, 0, 4, _, _, _, ⟨.inr (by decide +kernel), rfl, rfl, rfl⟩, .inl (by decide +kernel)⟩,
   ⟨pairState 1 0 [], 0, 2 * 2 ^ 54 + 2 ^ 53 + 192, 64, _, _, _, ⟨.inr (by decide +kernel), rfl, rfl, rfl⟩, (by decide +kernel), (by decide +kernel), (by decide +kernel), (by decide +kernel), (by decide +kernel), (by decide +kernel)⟩,
   ⟨pairState 2 0 [], 0, 2 * 2 ^ 54 + 0x20000, 65536, _, _, _, 0x20000, ⟨.inr (by decide +kernel), rfl, rfl, rfl⟩, (by decide +kernel), (by decide +kernel), (by decide +kernel), (by decide +kernel), hub_finds (by decide +kernel)⟩,
   ⟨pairState 1 0 [], 0, 2 * 2 ^ 54 + 0x20130, 16, _, _, _, 0x20130, ⟨.inr (by decide +kernel), rfl, rfl, rfl⟩, (by decide +kernel), (by decide +kernel), (by decide +kernel), (by decide +kernel), hub_finds (by decide +kernel), (by decide +kernel)⟩,
   fun kind _ => ⟨exportState, 3, 131064, 8, admits _ _ _ (by decide), (by decide +kernel), rfl⟩,
   fun kind _ => ⟨exportState, 3, 131064, 8, 2 ^ 64 * 5 + 7, _, admits _ _ _ (by decide), (by decide +kernel), .inr (.inr rfl), (by decide +kernel), (by decide +kernel), rfl, nofun, rfl⟩,
   fun kind hk => by
     obtain ⟨s, a, w2, w3, hb, ho, hh, he⟩ := crowded_window
     have : kind % 4 = 2 ∨ kind % 4 = 3 := by omega
     exact ⟨s, 3, a, 8, 2 ^ 64 * 5 + 7, by rcases this with h | h <;> rw [h] <;> assumption, hb, .inr (.inr rfl), (by decide +kernel), (by decide +kernel), ho, hh, he⟩,
   fun kind => ⟨State.reset, 0, 0, 8, not_admits _ _ _ _⟩⟩

/-- The log lies at 32 KiB and holds as many records as given. -/
def logState (prod occ : Nat) : State := erState (fun e => { e with elgbase := 0x8000, elgidx := word (2 ^ 26 + prod + occ * 2 ^ 32) })
theorem log_room {s : State} {cls : Nat} (h : decide (fld s.er.elgidx 32 11 < (if cls = 1 then 960 else 1024)) && decide (fld s.er.elgidx 0 10 < 1023) &&
    decide (s.er.elgbase.toNat + 32 * fld s.er.elgidx 0 10 + 32 ≤ s.hbm) = true) : LogRoom s cls := by
  simpa [LogRoom, and_assoc] using h
/-- Corrected with the last place for it; uncorrectable, charged and not; each verdict of a scrub; a buffer's last granule; the first and the sixteenth refusal in a row;
all records consumed. -/
theorem meets_errors :
    (∃ s : State, LogRoom s 1 ∧ fld s.er.elgidx 32 11 = 959) ∧
    (∀ charged, charged ≤ 1 → ∃ s : State, ∃ loc cl co u, loc < State.hbm s ∧ s.MemWf ∧ u = s.at_ cl co false ∧ LogRoom s 2 ∧
      (∀ k, k < 64 → ¬(s.er.elgbase.toNat + 32 * fld s.er.elgidx 0 10 ≤ loc / 64 * 64 + k ∧ loc / 64 * 64 + k < s.er.elgbase.toNat + 32 * fld s.er.elgidx 0 10 + 32))) ∧
    (∃ s : State, ∃ line, 64 * line < State.hbm s ∧ (∀ h ∈ s.bd.held, h.line ≠ line) ∧ LogRoom s 1 ∧ LogRoom s 3 ∧ line = 3) ∧
    (∃ s : State, ∃ cl co g, cl < 40 ∧ co < 8 ∧ g < 65536 ∧ (∀ p ∈ (State.cores s), p.2.w.wf = true) ∧ fld s.er.elgidx 32 11 < 1024 ∧ g = 65535) ∧
    (∃ s : State, ∃ port n, port < 16 ∧ (State.xl s).up.getLsbD port = true ∧ n = (look port s.xl.crc).getD 0 + 1 ∧ LogRoom s 5 ∧ n < 16) ∧
    (∃ s : State, ∃ port n, port < 16 ∧ (State.xl s).up.getLsbD port = true ∧ n = (look port s.xl.crc).getD 0 + 1 ∧ LogRoom s 5 ∧ n = 16 ∧
      ∀ c ∈ s.ex.colls, c.fin = false → Rank.far port ∉ s.ranks c.gid) ∧
    (∃ s : State, ∃ port n, port < 4 ∧ (State.xl s).rootUp.getLsbD port = true ∧ n = (look (16 + port) s.xl.crc).getD 0 + 1 ∧ LogRoom s 5 ∧ n = 16) ∧
    (∃ s : State, ∃ port n, port < 4 ∧ (State.xl s).rootUp.getLsbD port = true ∧ n = (look (16 + port) s.xl.crc).getD 0 + 1 ∧ LogRoom s 5 ∧ n = 1) ∧
    (∃ s : State, ∃ v n : Nat, n = (v / 65536 % 1024 + 1024 - fld (State.er s).elgidx 16 10) % 1024 ∧ n ≤ fld s.er.elgidx 32 11 ∧ n = 3) :=
  ⟨⟨logState 1022 959, log_room (by decide +kernel), (by decide +kernel)⟩, fun _ _ => ⟨logState 0 1023, 64, 39, 7, _, (by decide +kernel), ⟨rfl, (by decide +kernel)⟩, rfl, log_room (by decide +kernel), (by decide +kernel)⟩,
   ⟨logState 5 5, 3, (by decide +kernel), nofun, log_room (by decide +kernel), log_room (by decide +kernel), rfl⟩, ⟨logState 0 0, 39, 7, 65535, (by decide +kernel), (by decide +kernel), (by decide +kernel), (by decide +kernel), (by decide +kernel), rfl⟩,
   ⟨logState 5 5, 15, _, (by decide +kernel), (by decide +kernel), rfl, log_room (by decide +kernel), (by decide +kernel)⟩,
   ⟨{ logState 5 5 with xl := { State.reset.xl with crc := [(15, 15)] } }, 15, _, (by decide +kernel), (by decide +kernel), rfl, log_room (by decide +kernel), (by decide +kernel), nofun⟩,
   ⟨{ logState 5 5 with xl := { State.reset.xl with crc := [(19, 15)] } }, 3, _, (by decide +kernel), (by decide +kernel), rfl, log_room (by decide +kernel), (by decide +kernel)⟩, ⟨logState 5 5, 0, _, (by decide +kernel), (by decide +kernel), rfl, log_room (by decide +kernel), (by decide +kernel)⟩,
   ⟨logState 3 3, 3 * 65536, _, rfl, (by decide +kernel), (by decide +kernel)⟩⟩

/-- A first verdict; a lasting fault with a spare left and with none; a rotation after its interval. -/
theorem meets_repair :
    (∃ s : State, ∃ loc, (State.er s).tests = [(0, Config.placeOf 0 (loc / 64))] ∧ s.er.transient = [] ∧ LogRoom s 0x10) ∧
    (∃ s : State, ∃ loc k, (State.er s).tests = [(0, Config.placeOf 0 (loc / 64))] ∧ k = (Config.channelOf (Config.placeOf 0 (loc / 64))).toNat ∧ LogRoom s 0x11 ∧ LogRoom s 0x12 ∧
      (look k s.er.spares).getD 0 = 63) ∧
    (∃ s : State, ∃ loc k, (State.er s).tests = [(0, Config.placeOf 0 (loc / 64))] ∧ k = (Config.channelOf (Config.placeOf 0 (loc / 64))).toNat ∧ LogRoom s 0x11 ∧ LogRoom s 0x12 ∧
      (look k s.er.spares).getD 0 = 64) ∧
    (∃ s : State, ∃ loc cl p : Nat, cl = loc / 1024 % 64 ∧ p = loc / 64 % 16 ∧ loc < 65536 ∧ (6, loc / 64) ∈ (State.er s).tests ∧ (s.clusAt cl).group ≠ none) ∧
    (∃ s : State, ∃ loc cl p sp m : Nat, cl = loc / 1024 % 64 ∧ p = loc / 64 % 16 ∧ loc < 65536 ∧ (6, loc / 64) ∈ (State.er s).tests ∧ (s.clusAt cl).group = none ∧ (s.clusAt cl).spare = some sp ∧
      (s.clusAt cl).toSwap = [] ∧ sp ≠ p ∧ m ≠ 0 ∧ LogRoom s 0x11) ∧
    (∃ s : State, ∃ cl k p, cl < 40 ∧ k = State.clusAt s cl ∧ k.spare = some p ∧ k.group = none ∧ k.rotAt + 2 ^ 43 ≤ s.time ∧ k.phys.length = 8 ∧ k.served.length = 8 ∧ (∀ x ∈ k.served, x ≤ s.time)) :=
  let f := fun (n : Nat) => { logState 0 0 with er := { (logState 0 0).er with
    tests := [(0, Config.placeOf 0 (128 / 64))], spares := [((Config.channelOf (Config.placeOf 0 (128 / 64))).toNat, n)] } }
  ⟨⟨f 0, 128, rfl, rfl, log_room (by decide +kernel)⟩, ⟨f 63, 128, _, rfl, rfl, log_room (by decide +kernel), log_room (by decide +kernel), by simp [f, look]⟩,
   ⟨f 64, 128, _, rfl, rfl, log_room (by decide +kernel), log_room (by decide +kernel), by simp [f, look]⟩,
   ⟨(erState (fun e => { e with tests := [(6, 50)] })).modClusAt 3 (fun k => { k with group := some ⟨9, 0, 1⟩ }), 3200, _, _, rfl, rfl, (by decide +kernel), (by decide +kernel), (by decide +kernel)⟩,
   ⟨{ logState 0 0 with er := { (logState 0 0).er with tests := [(6, 50)] } }, 3200, _, _, 8, 1, rfl, rfl, (by decide +kernel), (by decide +kernel), (by decide +kernel), (by decide +kernel), (by decide +kernel), (by decide +kernel), (by decide +kernel), log_room (by decide +kernel)⟩,
   ⟨{ State.reset with time := 2 ^ 43 }, 39, _, 8, (by decide +kernel), rfl, (by decide +kernel), (by decide +kernel), (by decide +kernel), (by decide +kernel), (by decide +kernel), (by decide +kernel)⟩⟩

theorem leField_two (bs : List Byte) (off : Nat) : leField bs off 2 < 65536 := by
  unfold leField
  match bs.drop off with
  | [] => decide
  | [a] => simp [leNat]; omega
  | a :: b :: r => simp [leNat]; omega
/-- A firmware image of two bytes with the version 3: its shape. Whether the fused key hashes accept it is open (log 30). -/
def someImage : List Byte := leBytes 4 0x4B574E49 ++ leBytes 2 4 ++ leBytes 2 3 ++ leBytes 8 2 ++ List.replicate 5426 0
/-- The image is good where the fused key hashes are those of its keys and its digest and signatures are right. -/
theorem meets_goodImage (h : sha3 ((someImage.drop 0x48).take 32) = Config.keyHash false ∧ sha3 ((someImage.drop 0x68).take 1952) = Config.keyHash true)
    (d : sha3 ((someImage.drop 5440).take (leField someImage 8 8)) = BitVec.ofNat 384 (leField someImage 0x18 48))
    (g : ed25519 ((someImage.drop 0x48).take 32) (someImage.take 0x48) ((someImage.drop 0x808).take 64) = true ∧
      mldsa ((someImage.drop 0x68).take 1952) (someImage.take 0x48) ((someImage.drop 0x848).take 3309) = true) : ImageGood State.reset 4 someImage :=
  ⟨(by decide +kernel), (by decide +kernel), h, (by decide +kernel), d, g⟩
/-- A reset and a power-up; a stage with an image too old; a load of nothing; a staged image; a digest for the lowest, the highest and another register. -/
theorem meets_boot :
    (∃ s : State, (State.bt s).powered = true) ∧ (∃ s : State, (State.bt s).powered = false) ∧
    (∃ s : State, ∃ image bs, (State.bt s).powered = true ∧ fld s.bt.bootstat 0 4 = 0 ∧ fld s.bt.bootstat 4 4 = 2 ∧ bs = Config.imageBytes 3 image ∧ ¬ImageGood s 3 bs) ∧
    (∃ s : State, ∃ v slot a n bs, slot = v % 256 ∧ a = (State.bt s).hzloada.toNat ∧ n = s.bt.hzloadl.toNat ∧ a % 64 = 0 ∧ a + n ≤ s.hbm ∧ bs = s.mem.readList a n ∧ ¬ImageGood s 4 bs) ∧
    (∃ s : State, ∃ slot image, (State.bt s).staged = [(slot, image)] ∧ ∀ c ∈ s.ex.colls, c.fin = true ∨ c.sched % 256 ≠ 4 ∨ c.sched / 256 ≠ slot) ∧
    (∃ v reg : Nat, reg = v / 2 ^ 32 % 16 ∧ reg = 4) ∧ (∃ v reg : Nat, reg = v / 2 ^ 32 % 16 ∧ reg = 7) ∧ (∃ v reg : Nat, reg = v / 2 ^ 32 % 16 ∧ ¬(4 ≤ reg ∧ reg ≤ 7)) ∧
    (∃ s : State, ∃ x a c, (State.bt s).agentAt = some x ∧ s.bt.aliasKeys = some (a, c)) ∧ (∃ s : State, (State.bt s).agentAt = none ∨ s.bt.aliasKeys = none) :=
  ⟨⟨State.reset, rfl⟩, ⟨btState (fun b => { b with powered := false }), rfl⟩,
   ⟨btState (fun b => { b with bootstat := 0x20, rollback := [(3, 65536)] }), 0, _, rfl, (by decide +kernel), (by decide +kernel), rfl, fun h => by
      have := h.svn
      have e : (look 3 (btState (fun b => { b with bootstat := 0x20, rollback := [(3, 65536)] })).bt.rollback).getD 0 = 65536 := rfl
      rw [e] at this
      have l : leField (Config.imageBytes 3 0) 6 2 < 65536 := leField_two _ _
      omega⟩,
   ⟨State.reset, 5, _, _, _, _, rfl, rfl, rfl, (by decide +kernel), (by decide +kernel), rfl, fun h => by have := h.shape.1; simp [State.reset, Mem.readList] at this⟩,
   ⟨btState (fun b => { b with staged := [(255, someImage)] }), 255, _, rfl, nofun⟩, ⟨4 * 2 ^ 32, _, rfl, (by decide +kernel)⟩, ⟨7 * 2 ^ 32, _, rfl, (by decide +kernel)⟩, ⟨8 * 2 ^ 32, _, rfl, (by decide +kernel)⟩,
   ⟨btState (fun b => { b with agentAt := some 0x20000, aliasKeys := some ([1], [2]) }), _, _, _, rfl, rfl⟩, ⟨State.reset, .inl rfl⟩⟩

/-- The last word of CTXTAB; the lowest and the highest limit, and one past it; samples at both borders; 120 °C; rails at the ends of their ranges. -/
theorem meets_power :
    (∃ s : State, ∃ n, n < 4096 ∧ ((look n (State.xl s).ctxtab).getD 0).getLsbD 63 = false ∧ n = 4095) ∧
    (∃ s : State, ∃ v : Nat, 300 ≤ v % 2048 ∧ v % 2048 = (if State.full s then 1600 else 950)) ∧ (∃ s : State, ∃ v : Nat, v % 2048 < 300 ∨ (if State.full s then 1600 else 950) < v % 2048) ∧
    (∃ c : Nat, c ≤ 255 ∧ 110 ≤ c) ∧ (∃ s : State, ∃ c, (State.bt s).powered = true ∧ 120 ≤ c) ∧ (∃ s : State, ∃ c, (State.bt s).powered = true ∧ c < 120) ∧
    (∃ s : State, ∃ rail mv at_ : Nat, (State.bt s).trim[rail]? = some (mv, at_) ∧ at_ ≤ s.time ∧ 630 ≤ mv ∧ mv ≤ 710) ∧
    (∃ s : State, ∃ rail mv at_ : Nat, (State.bt s).trim[rail]? = some (mv, at_) ∧ at_ ≤ s.time ∧ 640 ≤ mv ∧ mv ≤ 720) :=
  ⟨⟨State.reset, 4095, (by decide +kernel), (by decide +kernel), rfl⟩, ⟨State.reset, 1600, (by decide +kernel), (by decide +kernel)⟩, ⟨State.reset, 1601, .inr (by decide +kernel)⟩, ⟨110, (by decide +kernel), (by decide +kernel)⟩, ⟨State.reset, 120, rfl, (by decide +kernel)⟩, ⟨State.reset, 119, rfl, (by decide +kernel)⟩,
   ⟨btState (fun b => { b with trim := [(675, 0), (710, 0)] }), 1, 710, 0, rfl, (by decide +kernel), (by decide +kernel), (by decide +kernel)⟩, ⟨btState (fun b => { b with trim := [(640, 0), (710, 0)] }), 0, 640, 0, rfl, (by decide +kernel), (by decide +kernel), (by decide +kernel)⟩⟩
theorem meets_rails :
    (∃ s : State, ∃ rail up mv at_ next : Nat, (State.bt s).trim[rail]? = some (mv, at_) ∧ next = (if up ≠ 0 then mv + 5 else mv - 5) ∧ at_ ≤ s.time ∧ 635 ≤ next ∧ next = 715) ∧
    (∃ s : State, ∃ rail up mv at_ next : Nat, (State.bt s).trim[rail]? = some (mv, at_) ∧ next = (if up ≠ 0 then mv + 5 else mv - 5) ∧ s.time < at_) ∧
    (∃ s : State, ∃ rail up mv at_ next : Nat, (State.bt s).trim[rail]? = some (mv, at_) ∧ next = (if up ≠ 0 then mv + 5 else mv - 5) ∧ next < 635) ∧
    (∃ s : State, ∃ rail up mv at_ next : Nat, (State.bt s).trim[rail]? = some (mv, at_) ∧ next = (if up ≠ 0 then mv + 5 else mv - 5) ∧ 715 < next) :=
  let f := fun (l : List (Nat × Nat)) => btState (fun b => { b with trim := l })
  ⟨⟨f [(675, 0), (710, 0)], 1, 1, 710, 0, _, rfl, rfl, (by decide +kernel), (by decide +kernel), (by decide +kernel)⟩, ⟨f [(675, 1), (710, 0)], 0, 1, 675, 1, _, rfl, rfl, (by decide +kernel)⟩,
   ⟨f [(635, 0), (710, 0)], 0, 0, 635, 0, _, rfl, rfl, (by decide +kernel)⟩, ⟨f [(675, 0), (715, 0)], 1, 1, 715, 0, _, rfl, rfl, (by decide +kernel)⟩⟩

/-! ### The machine as a whole -/

theorem meets_encode : ∃ i e, Instr.WellFormed i ∧ i.encode = some e := ⟨.add ⟨31, 31, 31⟩, _, (wf_of (by decide +kernel)), rfl⟩
theorem meets_decode : ∃ (h : BitVec 16) (t : BitVec 64), ∃ i, t.toNat < 2 ^ (8 * tailSize h) ∧ decode h t = .ok i := ⟨0x4083, 0x0081, .add ⟨3, 1, 2⟩, (by decide +kernel), rfl⟩
/-- A line whose first instruction is of an unassigned major. -/
def badLine : Line := 0x0A80
/-- A translation of the page at 0x20000 for fetches is held. -/
def fetchState : State :=
  let s := running id (fun c => { c with tlb := [⟨0, 0x20000, 65536, word (0x20000 + 0x17)⟩] })
  { s with xl := { s.xl with ctxtab := [(0, word (2 ^ 63 + 0x10000))] } }
/-- An instruction, a word of no instruction, a line held and one that is not; an event and a turn of a slot that does not run. -/
theorem meets_steps :
    (∃ s : State, ∃ l u h x, (State.agenda s) = [] ∧ s.slot.run = .running ∧ s.clus.preempt = false ∧ s.fetchLine (lineOf s.slot.pc) = .ok (l, u) ∧
      lineOf s.slot.pc ∉ u.slot.badLines ∧ lineSlot l (slotOf s.slot.pc) = .ins h x ∧ decode h x = .ok .nop) ∧
    (∃ s : State, ∃ l u h x r, (State.agenda s) = [] ∧ s.slot.run = .running ∧ s.clus.preempt = false ∧ s.fetchLine (lineOf s.slot.pc) = .ok (l, u) ∧
      lineOf s.slot.pc ∉ u.slot.badLines ∧ lineSlot l (slotOf s.slot.pc) = .ins h x ∧ decode h x = .error r ∧ h.toNat / 128 % 128 = 0x15) ∧
    (∃ s : State, ∃ la l, look la s.slot.lines = some l) ∧
    (∃ s : State, ∃ la loc, look la s.slot.lines = none ∧ s.xlate la .fx .fetch = .ok (.mem loc, s)) ∧
    (∃ s : State, ∃ i r, (State.agenda s) = .event i :: r) ∧
    (∃ s : State, ∃ cl co hi r u, (State.agenda s) = .slot cl co hi :: r ∧ u = { s with agenda := [], cl := cl, co := co, hi := hi } ∧ (u.slot.run ≠ .running ∨ u.clus.preempt = true)) := by
  refine ⟨⟨lineState 0, nops, lineState 0, 1, 0, rfl, rfl, rfl, rfl, nofun, (by decide +kernel), rfl⟩,
    ⟨running (fun x => { x with lines := [(128, badLine)] }) id, badLine, running (fun x => { x with lines := [(128, badLine)] }) id, 0x0A80, 0, .unassigned, rfl, rfl, rfl, rfl, nofun, (by decide +kernel), rfl, (by decide +kernel)⟩,
    ⟨lineState 0, 128, nops, rfl⟩, ?_, ⟨{ State.reset with agenda := [.event .nop] }, _, _, rfl⟩,
    ⟨{ State.reset with agenda := [.slot 0 0 true] }, _, _, _, _, _, rfl, rfl, .inl (by decide +kernel)⟩⟩
  exact ⟨fetchState, 0x20000, 0x20000, rfl, (ok_of (by decide +kernel))⟩
theorem xlate_unmapped {va : Nat} {acc : Acc} {form : Form} {p : Place} {u : State} : scalarState.xlate va acc form ≠ .ok (p, u) := by
  unfold State.xlate
  split
  · simp
  · have h : scalarState.lookup (scalarState.core.tlb ++ scalarState.clus.tlb) (fld scalarState.core.ctxid 0 16) va = .error (.bad 0x01 0) := rfl
    simp [h]
theorem meets_canonical :
    (∃ s : State, ∃ t i, State.MemWf s ∧ (∀ va acc form off u, s.xlate va acc form ≠ .ok (.mgmt off, u)) ∧ controlForm i = true ∧ exec i s = .next t) ∧
    (∃ s : State, ∃ t x r, State.MemWf s ∧ s.agenda = x :: r ∧ quiet x ∧ step s = .next t) :=
  ⟨⟨scalarState, _, .add ⟨31, 1, 2⟩, ⟨rfl, (by decide +kernel)⟩, fun _ _ _ _ _ => xlate_unmapped, rfl, rfl⟩, ⟨{ State.reset with agenda := [.tick 7] }, _, .tick 7, [], ⟨rfl, (by decide +kernel)⟩, rfl, trivial, rfl⟩⟩
theorem meets_zeroRegister :
    (∃ n : BitVec 6, n.toNat < 32 ∧ n ≠ 0) ∧ (∃ s : State, ∃ i v, State.Free s ∧ Instr.WellFormed i ∧ integerForm s i = some (0, v) ∧ v ≠ 0) ∧
    (∃ s : State, ∃ i v, State.Free s ∧ Instr.WellFormed i ∧ productForm s i = some (0, v) ∧ v ≠ 0) ∧ (∃ s : State, ∃ i v, State.Free s ∧ Instr.WellFormed i ∧ plainForm s i = some (0, v) ∧ v ≠ 0) :=
  ⟨⟨31, (by decide +kernel), (by decide +kernel)⟩, ⟨scalarState, .add ⟨0, 1, 1⟩, 10, (free_of (by decide +kernel)), (wf_of (by decide +kernel)), (by decide +kernel), (by decide +kernel)⟩, ⟨scalarState, .mul ⟨0, 1, 1⟩, 25, (free_of (by decide +kernel)), (wf_of (by decide +kernel)), (by decide +kernel), (by decide +kernel)⟩, ⟨scalarState, .clz ⟨0, 1, 0⟩, 61, (free_of (by decide +kernel)), (wf_of (by decide +kernel)), (by decide +kernel), (by decide +kernel)⟩⟩
/-- The first and the last of each range of majors; a step at one. -/
theorem meets_unassigned :
    (∀ m ∈ [0x15, 0x1E, 0x30, 0x4F, 0x5C, 0x5F, 0x68, 0x6F, 0x7A, 0x7F], ∃ h : BitVec 16, m = h.toNat / 128 % 128 ∧
      (0x15 ≤ m ∧ m ≤ 0x1E ∨ 0x30 ≤ m ∧ m ≤ 0x4F ∨ 0x5C ≤ m ∧ m ≤ 0x5F ∨ 0x68 ≤ m ∧ m ≤ 0x6F ∨ 0x7A ≤ m ∧ m ≤ 0x7F)) :=
  fun m hm => ⟨BitVec.ofNat 16 (m * 128), by revert m; decide, by revert m; decide⟩
theorem meets_itemsForward :
    (∃ s : State, ∃ o : OpA2, Instr.WellFormed (.tqpush o) ∧ (State.g s o.b).toNat ≤ s.slot.th.stage) ∧
    (∃ s : State, ∃ o : OpA2, Instr.WellFormed (.tqpush o) ∧ (State.slot s).th.ns ≤ (s.g o.b).toNat) ∧
    (∃ s : State, ∃ o : OpA2, Instr.WellFormed (.tqpush o) ∧ (State.g s o.a).getLsbD 63 = true) :=
  ⟨⟨scalarState, ⟨4, 1, 0⟩, (wf_of (by decide +kernel)), (by decide +kernel)⟩, ⟨scalarState, ⟨4, 1, 4⟩, (wf_of (by decide +kernel)), (by decide +kernel)⟩, ⟨scalarState, ⟨4, 2, 4⟩, (wf_of (by decide +kernel)), (by decide +kernel)⟩⟩
theorem meets_hash : ∃ s : State, ∃ i w r, WalkRuns s i w ∧ r = nthD 0 w.prog.rules w.pc ∧ ruleField r 60 4 = 2 ∧ ruleField r 52 8 = 40 :=
  ⟨stepState (walkOf [word (2 * 2 ^ 60 + 40 * 2 ^ 52)]) (word (2 ^ 63)) [], 0, walkOf [word (2 * 2 ^ 60 + 40 * 2 ^ 52)], _,
   ⟨rfl, fun _ _ h => absurd h (Nat.not_lt_zero _), ⟨nofun, nofun⟩, (by decide +kernel), (by decide +kernel), (by decide +kernel)⟩, rfl, (by decide +kernel), (by decide +kernel)⟩

end Sys2Proof.Machine

end
end

section
/-! SUPPORT. A command at work in a quiet core (R66, R275): the state while it runs, one rule for each operation on it, and one law
from its commit to its retirement. -/

namespace Sys2Proof.Machine

/-- The state in which a command works: the register files as they stand, and what its queue entry has collected. -/
def working (s : State) (B : Core) (c : Cmd) (g : Files) (fl mrs : Nat) : State :=
  s.setCore { B with f := g, queue := [{ c with flags := fl, mrs := mrs }] }

section
variable (s : State) (B : Core) (c : Cmd) (g : Files) (fl mrs : Nat)

@[simp] theorem working_core : (working s B c g fl mrs).core = { B with f := g, queue := [{ c with flags := fl, mrs := mrs }] } :=
  State.core_setCore _ _
@[simp] theorem working_setV (d : Nat) (x : VReg) :
    (working s B c g fl mrs).setV d x = working s B c { g with v := g.v.setIfInBounds d x } fl mrs := setV_setCore _ _ _ _
@[simp] theorem working_setA (d : Nat) (x : Tile) :
    (working s B c g fl mrs).setA d x = working s B c { g with a := g.a.setIfInBounds d x } fl mrs := modF_setCore _ _ _
@[simp] theorem working_setK (d : Nat) (x : KReg) :
    (working s B c g fl mrs).setK d x = working s B c { g with k := g.k.setIfInBounds d x } fl mrs := modF_setCore _ _ _
@[simp] theorem working_setM (d : Nat) (x : MReg) : (working s B c g fl mrs).setM d x =
    working s B c (if d = 0 then g else { g with m := g.m.setIfInBounds d x }) fl mrs := by
  rw [working, setM_setCore]
  split <;> rfl
@[simp] theorem working_vreg (n : Nat) : (working s B c g fl mrs).vreg n = g.v[n]?.getD 0 := by simp [State.vreg]
@[simp] theorem working_mreg (n : Nat) : (working s B c g fl mrs).mreg n = if n = 0 then BitVec.allOnes 512 else g.m[n]?.getD 0 := by
  simp [State.mreg]
@[simp] theorem working_areg (n : Nat) : (working s B c g fl mrs).areg n = g.a[n]?.getD 0 := by simp [State.areg]
@[simp] theorem working_kreg (n : Nat) : (working s B c g fl mrs).kreg n = g.k[n]?.getD 0 := by simp [State.kreg]
@[simp] theorem working_wreg (n : Nat) : (working s B c g fl mrs).wreg n = g.w[n]?.getD 0 := by simp [State.wreg]
/-- Flags that a command collects (R17). -/
theorem working_raise {c' : Cmd} (h : c'.qpos = c.qpos) (x : Nat) :
    (working s B c g fl mrs).raise c' x = working s B c g (fl ||| x) mrs :=
  raise_setCore _ _ _ { c with flags := fl, mrs := mrs } _ rfl h.symm
/-- Residues that a command reduces (R30). -/
theorem working_reduced {c' : Cmd} (h : c'.qpos = c.qpos) (n : Nat) : (working s B c g fl mrs).reduced c' n =
    working s B c g (if n = 0 then fl else fl ||| fMOD) (mrs + n) := by
  unfold State.reduced
  split
  · subst n; rfl
  · rw [working, State.modCmd, State.modCore_eq, State.core_setCore, State.setCore_setCore]
    simp [working, replFirst, h]
end

/-- What a command may have done to the register files: it wrote at most the listed registers and popped at most the queue of
`len` (R49, R56). -/
structure FilesFrame (f g : Files) (wv wm wa wk ww : List Nat) (len : BitVec 3) : Prop where
  v : ∀ n, n ∉ wv → g.v[n]? = f.v[n]?
  m : ∀ n, n ≠ 0 → n ∉ wm → g.m[n]? = f.m[n]?
  a : ∀ n, n ∉ wa → g.a[n]? = f.a[n]?
  k : ∀ n, n ∉ wk → g.k[n]? = f.k[n]?
  w : ∀ n, n ∉ ww → g.w[n]? = f.w[n]?
  lq : ∀ n, n + 4 ≠ len.toNat → g.lq[n]? = f.lq[n]? ∧ g.occ[n]? = f.occ[n]?
  modq : g.modq = f.modq

namespace FilesFrame
variable {f g : Files} {wv wm wa wk ww : List Nat} {len : BitVec 3}

theorem popF (f : Files) (len : BitVec 3) (wv wm wa wk ww : List Nat) : FilesFrame f (popF f len) wv wm wa wk ww len := by
  obtain ⟨hv, hm, ha, hk, hw, hq⟩ := popF_v f len
  exact ⟨fun _ _ => by rw [hv], fun _ _ _ => by rw [hm], fun _ _ => by rw [ha], fun _ _ => by rw [hk], fun _ _ => by rw [hw],
    fun n hn => popF_lq f len n hn, hq⟩
theorem setV (h : FilesFrame f g wv wm wa wk ww len) {d : Nat} (x : VReg) (hd : d ∈ wv) :
    FilesFrame f { g with v := g.v.setIfInBounds d x } wv wm wa wk ww len :=
  { h with v := fun n hn => (Vector.getElem?_setIfInBounds_ne (ne_of_mem_of_not_mem hd hn)).trans (h.v n hn) }
theorem setA (h : FilesFrame f g wv wm wa wk ww len) {d : Nat} (x : Tile) (hd : d ∈ wa) :
    FilesFrame f { g with a := g.a.setIfInBounds d x } wv wm wa wk ww len :=
  { h with a := fun n hn => (Vector.getElem?_setIfInBounds_ne (ne_of_mem_of_not_mem hd hn)).trans (h.a n hn) }
theorem setK (h : FilesFrame f g wv wm wa wk ww len) {d : Nat} (x : KReg) (hd : d ∈ wk) :
    FilesFrame f { g with k := g.k.setIfInBounds d x } wv wm wa wk ww len :=
  { h with k := fun n hn => (Vector.getElem?_setIfInBounds_ne (ne_of_mem_of_not_mem hd hn)).trans (h.k n hn) }
theorem setM (h : FilesFrame f g wv wm wa wk ww len) {d : Nat} (x : MReg) (hd : d ∈ wm) :
    FilesFrame f (if d = 0 then g else { g with m := g.m.setIfInBounds d x }) wv wm wa wk ww len := by
  split
  · exact h
  · exact { h with m := fun n h0 hn => (Vector.getElem?_setIfInBounds_ne (ne_of_mem_of_not_mem hd hn)).trans (h.m n h0 hn) }
end FilesFrame

/-- What an engine form leaves of a state `b` whose command ends with register files `g`, flags `fl` and `mrs` reduced residues. -/
structure FilesRun (e : Engine) (i : Instr) (len : BitVec 3) (g : Files) (fl mrs : Nat) (b u : State) : Prop where
  frame : ∀ {wv wm wa wk ww : List Nat}, FilesFrame b.core.f g wv wm wa wk ww len → EngineFrame e i wv wm wa wk ww len b u
  advanced : Advanced b u
  status : u.slot.status = statusWith b.slot.status fl mrs
  files : u.core.f = g

theorem filesRun_ended {t : Ticket} {b : State} {len : BitVec 3} {n : Nat} {c : Cmd} (g : Files) (fl mrs : Nat) (hfree : b.Free)
    (heng : c.eng = t.eng) (hhi : c.hi = b.hi) :
    FilesRun t.eng t.ins len g fl mrs b (b.setCore (Core.ended { t.core b len n with f := g, queue := [{ c with flags := fl, mrs := mrs }] }
      { c with flags := fl, mrs := mrs })) := by
  obtain ⟨hadv, hst, hf⟩ := advanced_of (t := t) (len := len) (n := n) (g := g) (e := { c with flags := fl, mrs := mrs }) hfree rfl hhi
  exact ⟨fun h => engineFrame_of hfree rfl rfl heng hhi h.v h.m h.a h.k h.w h.lq h.modq, hadv, hst, hf⟩

/-- Whether an engine form waits for nothing in a quiet core: its ranges are fixed at commit, and it is no form of the copy engine. -/
def waitsForNothing (i : Instr) : Bool :=
  fixedRanges i && (match i with
    | .cpy _ | .cpyt _ | .cpyg _ | .cpyz _ | .brule _ | .bwalk _ | .halloc _ | .hfree _ | .hgive _ | .htake _ => false
    | _ => true)
theorem fixedRanges_of_waitsForNothing {i : Instr} (h : waitsForNothing i = true) : fixedRanges i = true := (Bool.and_eq_true_iff.mp h).1
theorem copyReady_of_waitsForNothing {i : Instr} (h : waitsForNothing i = true) (u : State) (c : Cmd) (hc : c.ins = i) : u.copyReady c = true := by
  have h2 := (Bool.and_eq_true_iff.mp h).2
  subst hc
  unfold State.copyReady
  split <;> simp_all

/-- AN ENGINE FORM WHOSE COMMAND WORKS ON THE REGISTER FILES: it completes and leaves them. The base `b` is the state itself, or one
whose current core alone differs from it. -/
theorem engine_runs_from {t : Ticket} {f : Run1} {s b : State} {len : BitVec 3} {n m : Nat} {c : Cmd} {g : Files} {fl mrs : Nat}
    (hq : s.Quiet) (hl : t.lens = [len] ∨ (t.lens = [] ∧ len = 0)) (hp : t.push = none) (hn : LenIs s len n)
    (hw : waitsForNothing t.ins = true) (hr : t.ranges = []) (hb : ∀ K, s.setCore K = b.setCore K) (hfree : b.Free) (hqp : c.qpos = s.core.qpos) (heng : c.eng = t.eng) (hhi : c.hi = b.hi)
    (hf : f (t.cmd s len n) (s.setCore (t.core s len n)) = .ok (working b (t.core b len m) c g fl mrs)) :
    ∃ u, engine t (whole f) s = .next u ∧ FilesRun t.eng t.ins len g fl mrs b u := by
  rw [working, ← hb] at hf
  refine ⟨_, engine_whole hq hl hp hn (fixedRanges_of_waitsForNothing hw) (copyReady_of_waitsForNothing hw) (by simp [hr]) hf rfl hqp, ?_⟩
  rw [hb]
  exact filesRun_ended g fl mrs hfree heng hhi

/-- The entry of a command that has noted its length and its active positions (R387). -/
def Ticket.noted (t : Ticket) (s : State) (len : BitVec 3) (n N p : Nat) : Cmd := { t.cmd s len n with tr := (N, p, 0, 0) }
theorem note_working (t : Ticket) (s : State) (len : BitVec 3) (n N p : Nat) :
    (s.setCore (t.core s len n)).note (t.cmd s len n) N p =
      working s (t.core s len n) (t.noted s len n N p) (popF s.core.f len) 0 0 := by
  rw [note_setCore _ _ _ (t.cmd s len n) _ _ (t.core_queue s len n) rfl, ← t.core_f s len n]
  rfl

/-- What a form over a length does to the register files, whatever the rest of its core and of its entry holds: `F` takes the files
after the pop to `g` and collects flags and residues. -/
def Works (F : Nat → Nat → MReg → Run1) (len msk : BitVec 3) (n : Nat) (s : State) (g : Files) (fl mrs : Nat) : Prop :=
  ∀ (B : Core) (c e : Cmd), c.vtype = s.slot.vtype → c.modq = fld s.core.f.modq 0 32 → c.qpos = e.qpos →
    F (vtSew s.slot.vtype) (lengthOf s len n) (s.mreg msk.toNat) c (working s B e (popF s.core.f len) 0 0) = .ok (working s B e g fl mrs)

/-- A FORM OVER A LENGTH whose command works on the register files (R66, R131): its effect is run on the files after the pop, with
the length bounded, the width and the mask captured. -/
theorem vecEff_runs {t : Ticket} {F : Nat → Nat → MReg → Run1} {s : State} {len msk : BitVec 3} {n : Nat} {g : Files} {fl mrs : Nat}
    (hq : s.Quiet) (hl : t.lens = [len]) (hp : t.push = none) (hn : LenIs s len n) (hw : waitsForNothing t.ins = true)
    (hr : t.ranges = []) (hF : Works F len msk n s g fl mrs) :
    ∃ u, engine t (vecEff len msk F) s = .next u ∧ FilesRun t.eng t.ins len g fl mrs s u := by
  refine engine_runs_from (m := n) (c := t.noted s len n (lengthOf s len n) (active (s.mreg msk.toNat) (lengthOf s len n))) hq (.inl hl) hp hn
    hw hr (fun _ => rfl) hq.free rfl rfl rfl ?_
  simp only [Ticket.cmd_vtype, len_popped _ _ _ _ _ hn, Ticket.core_mreg, note_working]
  exact hF _ _ _ rfl rfl rfl

/-! ### What is left, register by register -/

namespace FilesRun
variable {e : Engine} {i : Instr} {len : BitVec 3} {g : Files} {fl mrs : Nat} {b u : State}

theorem vreg (h : FilesRun e i len g fl mrs b u) (n : Nat) : u.vreg n = g.v[n]?.getD 0 := by rw [State.vreg, h.files]
theorem areg (h : FilesRun e i len g fl mrs b u) (n : Nat) : u.areg n = g.a[n]?.getD 0 := by rw [State.areg, h.files]
theorem kreg (h : FilesRun e i len g fl mrs b u) (n : Nat) : u.kreg n = g.k[n]?.getD 0 := by rw [State.kreg, h.files]
theorem status_same (h : FilesRun e i len g 0 0 b u) : u.slot.status = b.slot.status := h.status.trans (statusWith_zero _)
end FilesRun

@[simp] theorem popF_vreg (s : State) (len : BitVec 3) (n : Nat) : (popF s.core.f len).v[n]?.getD 0 = s.vreg n := by
  rw [(popF_v _ _).1, State.vreg]
@[simp] theorem popF_areg (s : State) (len : BitVec 3) (n : Nat) : (popF s.core.f len).a[n]?.getD 0 = s.areg n := by
  rw [(popF_v _ _).2.2.1, State.areg]
@[simp] theorem popF_kreg (s : State) (len : BitVec 3) (n : Nat) : (popF s.core.f len).k[n]?.getD 0 = s.kreg n := by
  rw [(popF_v _ _).2.2.2.1, State.kreg]
@[simp] theorem popF_wreg (s : State) (len : BitVec 3) (n : Nat) : (popF s.core.f len).w[n]?.getD 0 = s.wreg n := by
  rw [(popF_v _ _).2.2.2.2.1, State.wreg]
@[simp] theorem popF_mreg (s : State) (len : BitVec 3) (n : Nat) :
    (if n = 0 then BitVec.allOnes 512 else (popF s.core.f len).m[n]?.getD 0) = s.mreg n := by
  rw [(popF_v _ _).2.1, State.mreg]

/-- A register written is read back, and the others are as before. -/
theorem getD_setIfInBounds {α : Type} {k : Nat} (v : Vector α k) (d n : Nat) (x z : α) (hd : d < k) :
    (v.setIfInBounds d x)[n]?.getD z = if n = d then x else v[n]?.getD z := by
  by_cases h : n = d
  · subst h; simp [hd]
  · simp [h, Ne.symm h]

/-! ### STATUS at retirement (R17, R62) -/

theorem testBit_fld {n : Nat} (x : BitVec n) (lo w k : Nat) : (fld x lo w).testBit k = (decide (k < w) && x.getLsbD (lo + k)) := by
  simp [fld, BitVec.extractLsb'_toNat, Nat.testBit_mod_two_pow, Nat.testBit_shiftRight, BitVec.getLsbD]
theorem fld_lt {n : Nat} (x : BitVec n) (lo w : Nat) : fld x lo w < 2 ^ w := (x.extractLsb' lo w).isLt
theorem getLsbD_statusWith {st : Word} {fl mrs k : Nat} (hk : k < 48) :
    (statusWith st fl mrs).getLsbD k = (st.getLsbD k || (decide (41 ≤ k) && fl.testBit (k - 41))) := by
  unfold statusWith
  rw [getLsbD_setFld, if_neg (by omega), getLsbD_setFld]
  by_cases h : 41 ≤ k
  · have h7 : k - 41 < 7 := by omega
    have h64 : k < 64 := by omega
    rw [if_pos (by omega), Nat.testBit_or, testBit_fld, show 41 + (k - 41) = k by omega]
    simp [h, h64, h7]
  · rw [if_neg (by omega)]; simp [h]
/-- The residue count at retirement saturates (R62). -/
theorem fld_statusWith_count (st : Word) (fl mrs : Nat) : fld (statusWith st fl mrs) 48 16 = min 65535 (fld st 48 16 + mrs) := by
  apply Nat.eq_of_testBit_eq
  intro k
  rw [testBit_fld, statusWith, getLsbD_setFld]
  by_cases hk : k < 16
  · simp [hk, show 48 + k < 64 by omega]
  · have hle : 2 ^ 16 ≤ 2 ^ k := Nat.pow_le_pow_right (by decide) (by omega)
    rw [Nat.testBit_lt_two_pow (show min 65535 (fld st 48 16 + mrs) < 2 ^ k by omega)]
    simp [hk]
/-- With no residue reduced, the sticky flags alone change. -/
theorem getLsbD_statusWith_flags (st : Word) (fl k : Nat) :
    (statusWith st fl 0).getLsbD k = true ↔ st.getLsbD k = true ∨ 41 ≤ k ∧ k < 48 ∧ fl.testBit (k - 41) = true := by
  by_cases hk : k < 48
  · rw [getLsbD_statusWith hk]; simp [hk]
  · have hsame : (statusWith st fl 0).getLsbD k = st.getLsbD k := by
      by_cases h64 : k < 64
      · have h := testBit_fld (statusWith st fl 0) 48 16 (k - 48)
        have hst := fld_lt st 48 16
        rw [fld_statusWith_count, Nat.add_zero, Nat.min_eq_right (by omega), testBit_fld, show 48 + (k - 48) = k by omega] at h
        simpa [show k - 48 < 16 by omega] using h.symm
      · rw [BitVec.getLsbD_of_ge _ _ (by omega), BitVec.getLsbD_of_ge _ _ (by omega)]
    simp [hsame, hk]
theorem testBit_orFlags (m : MReg) (f : Nat → Nat) (n k : Nat) :
    (orFlags m f n).testBit k = true ↔ ∃ e, e < n ∧ m.getLsbD e = true ∧ (f e).testBit k = true := by
  induction n with
  | zero => simp [orFlags]
  | succ n ih =>
    have hlast : (∃ e, e < n + 1 ∧ m.getLsbD e = true ∧ (f e).testBit k = true) ↔
        (orFlags m f n).testBit k = true ∨ m.getLsbD n = true ∧ (f n).testBit k = true := by
      rw [ih]
      constructor
      · rintro ⟨e, he, h⟩
        rcases Nat.lt_succ_iff_lt_or_eq.mp he with h1 | rfl
        · exact .inl ⟨e, h1, h⟩
        · exact .inr h
      · rintro (⟨e, he, h⟩ | h)
        · exact ⟨e, by omega, h⟩
        · exact ⟨n, by omega, h⟩
    rw [hlast]
    by_cases hm : m.getLsbD n <;> simp [orFlags, flag, hm, Nat.testBit_or]
/-- The flags of the active lanes reach STATUS (R17, R62). -/
theorem FilesRun.flagResult {e : Engine} {i : Instr} {len msk : BitVec 3} {g : Files} {n : Nat} {f : Nat → Nat} {b u s : State}
    (h : FilesRun e i len g (orFlags (s.mreg msk.toNat) f n) 0 b u) (hst : b.slot.status = s.slot.status) : FlagResult s u n msk f := by
  intro k _
  rw [h.status, getLsbD_statusWith_flags, testBit_orFlags, hst]

/-! ### Traps at commit (R63, R122) -/

theorem takesLocally_iff (x : Slot) (code : Nat) : x.takesLocally code = true ↔
    causeLocal code = true ∧ x.status.getLsbD 8 = true ∧ x.status.getLsbD 3 = false ∧ 64 ≤ x.trapvec.toNat := by
  have hvec : fld x.trapvec 6 58 ≠ 0 ↔ 64 ≤ x.trapvec.toNat := by
    have := x.trapvec.isLt
    simp only [fld, BitVec.extractLsb'_toNat, Nat.shiftRight_eq_div_pow]
    omega
  simp [Slot.takesLocally, Slot.lte, Slot.inh, flag, hvec, and_assoc]
/-- A trap without operands that an instruction raises at its own address is taken as R63 and R122 say. -/
theorem traps_of {i : Instr} {s : State} {code sub : Nat} (h : exec i s = .next (s.takeTrap { code := code, sub := sub }))
    (hc : code < 256) (hs : sub < 256) : Traps i (causeLocal code) code sub s.slot.pc s := by
  have hcause : causeWord { code := code, sub := sub } false 0 = word (256 * sub + code) := by
    simp only [causeWord, b2n, Nat.mod_eq_of_lt hc, Nat.mod_eq_of_lt hs, Nat.shiftLeft_eq]
    congr 1
    simp
    omega
  constructor
  · intro hl
    have hx := State.takeTrap_local (t := { code := code, sub := sub }) ((takesLocally_iff s.slot code).mpr hl)
    refine ⟨_, h, ⟨State.takeTrap_frame _ _, ?_, ?_, ?_, ?_, ?_⟩⟩
    · rw [hx]; exact hcause
    · rw [hx]; rfl
    · intro k
      rw [hx, getLsbD_setFld]
      by_cases h3 : k = 3
      · subst h3; simp
      · rw [if_neg (by omega), if_neg h3]
    · rw [hx]
      apply BitVec.eq_of_getLsbD_eq
      intro k hk
      have h6 : s.slot.trapvec.toNat / 64 * 64 = s.slot.trapvec.toNat >>> 6 <<< 6 := by
        rw [Nat.shiftRight_eq_div_pow, Nat.shiftLeft_eq]
      rw [getLsbD_setFld, word, h6, BitVec.getLsbD_ofNat, Nat.testBit_shiftLeft, Nat.testBit_shiftRight]
      by_cases h : k < 6
      · simp [h, hk]
      · simp [h, hk, show 6 ≤ k by omega, show 6 + (k - 6) = k by omega, BitVec.getLsbD]
    · rw [hx]; rfl
  · intro hl
    have hx := State.takeTrap_stop (t := { code := code, sub := sub })
      (Bool.eq_false_iff.mpr (fun h => hl ((takesLocally_iff s.slot code).mp h)))
    refine ⟨_, h, ⟨State.takeTrap_frame _ _, ?_, ?_, ?_, ?_, ?_⟩⟩
    · rw [hx]; exact hcause
    · rw [hx]; rfl
    · rw [hx]
    · refine ⟨_, by rw [hx], rfl, rfl, rfl, rfl, ?_, rfl, rfl, rfl, rfl, rfl, rfl, rfl, rfl, rfl, rfl, rfl⟩
      simp [State.mkRecord]
    · rw [hx]; rfl

end Sys2Proof.Machine
end

section
/-! SUPPORT. Integer and floating reductions (R41, R151, R152). -/

namespace Sys2Proof.Machine

/-- A T4V form of the vector unit whose command works on the register files. -/
theorem v4_runs {o : OpV4} {i : Instr} {wr : List Res} {F : Nat → Nat → MReg → Run1} {s : State} {n : Nat} {g : Files} {fl mrs : Nat}
    (hi : waitsForNothing i = true) (hq : s.Quiet) (hn : LenIs s o.len n) (hF : Works F o.len o.msk n s g fl mrs) :
    ∃ u, engine (v4Ticket o i s wr) (vecEff o.len o.msk F) s = .next u ∧ FilesRun .vec i o.len g fl mrs s u :=
  vecEff_runs (t := v4Ticket o i s wr) hq rfl rfl hn hi rfl hF

/-- vD after element 0 has taken a value, where there is a position at all (R131). -/
def zeroWritten (f : Files) (d w n x : Nat) : Files :=
  if n = 0 then f else { f with v := f.v.setIfInBounds d (setElem (f.v[d]?.getD 0) w 0 x) }
theorem working_zeroWritten (s : State) (B : Core) (e : Cmd) (g : Files) (fl mrs d w n x : Nat) :
    (if n = 0 then working s B e g fl mrs else (working s B e g fl mrs).setV d (setElem ((working s B e g fl mrs).vreg d) w 0 x)) =
      working s B e (zeroWritten g d w n x) fl mrs := by
  rw [working_setV, working_vreg, zeroWritten]
  split <;> rfl
theorem elem_setElem_zero (r : VReg) {w e : Nat} (x : Nat) (he : e < vlmax w) :
    elem (setElem r w 0 x) w e = if e = 0 then x % 2 ^ w else elem r w e := elem_setElem _ _ _ _ _ (elem_fits he)
theorem filesFrame_zeroWritten {f g : Files} {wv wm wa wk ww : List Nat} {len : BitVec 3} {d w n x : Nat}
    (h : FilesFrame f g wv wm wa wk ww len) (hd : d ∈ wv) : FilesFrame f (zeroWritten g d w n x) wv wm wa wk ww len := by
  unfold zeroWritten
  split
  · exact h
  · exact h.setV _ hd
theorem vreg_zeroWritten {f : Files} {d w n x : Nat} (hd : d < 64) (k : Nat) : (zeroWritten f d w n x).v[k]?.getD 0 =
    if k = d ∧ n ≠ 0 then setElem (f.v[d]?.getD 0) w 0 x else f.v[k]?.getD 0 := by
  unfold zeroWritten
  by_cases h0 : n = 0
  · rw [if_pos h0, if_neg (by simp [h0])]
  · rw [if_neg h0, getD_setIfInBounds _ _ _ _ _ hd]
    simp only [ne_eq, h0, not_false_eq_true, and_true]
theorem onlyElementZero_of {s t : State} {d w n x : Nat}
    (h : t.vreg d = if n ≠ 0 then setElem (s.vreg d) w 0 x else s.vreg d) : OnlyElementZero s t d w n x := by
  intro e he
  rw [h]
  by_cases h0 : n = 0
  · simp [h0]
  · rw [if_pos h0, elem_setElem_zero _ _ he]; simp [h0]

/-! ### The value of an element -/

theorem sgn_eq_signedElem (w a : Nat) : sgn w a = signedElem w a := by
  unfold sgn signedElem
  rw [BitVec.toInt_eq_msb_cond, BitVec.toNat_ofNat, BitVec.msb_eq_getLsbD_last, BitVec.getLsbD_ofNat]
  by_cases h0 : w = 0
  · subst h0; simp [Nat.mod_one]
  · simp [h0, show w - 1 < w by omega, Nat.testBit_mod_two_pow]
theorem valOf_eq (uns : Bool) (w a : Nat) : valOf uns w a = if uns = true then (a : Int) else signedElem w a := by
  simp [valOf, sgn_eq_signedElem]
/-- Elements of one width with the same value are the same. -/
theorem valOf_inj {uns : Bool} {w a b : Nat} (ha : a < 2 ^ w) (hb : b < 2 ^ w) (h : valOf uns w a = valOf uns w b) : a = b := by
  rw [valOf_eq, valOf_eq] at h
  cases uns
  · have := congrArg BitVec.toNat (BitVec.eq_of_toInt_eq (show (BitVec.ofNat w a).toInt = (BitVec.ofNat w b).toInt by simpa [signedElem] using h))
    simpa [Nat.mod_eq_of_lt ha, Nat.mod_eq_of_lt hb] using this
  · simpa using h

/-! ### Folds from the left (R151) -/

theorem leftSum_eq_sum (l : List Nat) : leftSum (fun a b => a + b) l = l.sum := by
  cases l with
  | nil => rfl
  | cons x r => rw [List.sum_eq_foldl, List.foldl_cons, Nat.zero_add]; rfl
/-- A fold that keeps the operand of the larger key gives a member of the largest key. -/
theorem leftSum_largest {f : Nat → Nat → Nat} (key : Nat → Int) (hf : ∀ a b, f a b = if key a < key b then b else a) {l : List Nat} (hl : l ≠ []) :
    leftSum f l ∈ l ∧ ∀ y ∈ l, key y ≤ key (leftSum f l) := by
  obtain ⟨x, r, rfl⟩ := List.exists_cons_of_ne_nil hl
  simp only [leftSum]
  clear hl
  induction r generalizing x with
  | nil => simp
  | cons z r ih =>
    obtain ⟨hmem, hle⟩ := ih (f x z)
    rw [List.foldl_cons]
    have hx : key x ≤ key (f x z) ∧ key z ≤ key (f x z) ∧ (f x z = x ∨ f x z = z) := by
      rw [hf]; split <;> simp <;> omega
    obtain ⟨h1, h2, h3⟩ := hx
    have htop := hle (f x z) (by simp)
    constructor
    · rcases List.mem_cons.mp hmem with h | h
      · rw [h]; rcases h3 with h3 | h3 <;> simp [h3]
      · simp [h]
    · intro y hy
      simp only [List.mem_cons] at hy
      rcases hy with rfl | rfl | hy
      · omega
      · omega
      · exact hle y (by simp [hy])
/-- The member of the largest key is what such a fold gives, where the key tells members apart. -/
theorem leftSum_eq_of_largest {f : Nat → Nat → Nat} (key : Nat → Int) (hf : ∀ a b, f a b = if key a < key b then b else a) {l : List Nat}
    (hinj : ∀ x ∈ l, ∀ y ∈ l, key x = key y → x = y) {x : Nat} (hx : x ∈ l) (hle : ∀ y ∈ l, key y ≤ key x) : leftSum f l = x := by
  obtain ⟨hmem, htop⟩ := leftSum_largest key hf (List.ne_nil_of_mem hx)
  exact hinj _ hmem _ hx (le_antisymm (hle _ hmem) (htop _ hx))

/-! ### Integer reductions (R151) -/

theorem summands_lt {s : State} {o : OpV4} {n x : Nat} (h : x ∈ summands s o n) : x < 2 ^ vtSew s.slot.vtype := by
  unfold summands at h
  rw [List.mem_append] at h
  rcases h with h | h
  · split at h
    · rw [List.mem_singleton] at h; subst h; exact elem_lt _ _ _
    · simp at h
  · obtain ⟨e, _, rfl⟩ := List.mem_map.mp h
    exact elem_lt _ _ _
/-- The summands as a command at work finds them. -/
theorem startOperand_working (o : OpV4) (s : State) (B : Core) (e : Cmd) (fl mrs w : Nat) :
    v4Start o (working s B e (popF s.core.f o.len) fl mrs) w = if o.opx.getLsbD 1 then some (elem (s.vreg o.c.toNat) w 0) else none := by
  rw [v4Start, working_vreg, popF_vreg]; rfl
theorem summands_working (o : OpV4) (s : State) (B : Core) (e : Cmd) (fl mrs n : Nat) :
    (v4Start o (working s B e (popF s.core.f o.len) fl mrs) (vtSew s.slot.vtype)).toList ++ (actives (s.mreg o.msk.toNat) n).map
      (elem ((working s B e (popF s.core.f o.len) fl mrs).vreg o.a.toNat) (vtSew s.slot.vtype)) = summands s o n := by
  rw [startOperand_working, working_vreg, popF_vreg, summands]
  split <;> rfl
/-- The step of an integer reduction. -/
def intRedStep (o : OpV4) (f : Nat → Nat → Nat → Nat) (w n : Nat) (m : MReg) : Run1 := fun _ s =>
  .ok (if n = 0 then s else s.setV o.d.toNat (setElem (s.vreg o.d.toNat) w 0
    (leftSum (f w) ((v4Start o s w).toList ++ (actives m n).map (elem (s.vreg o.a.toNat) w)))))
theorem redEff_eq (o : OpV4) (f : Nat → Nat → Nat → Nat) : redEff o f = vecEff o.len o.msk (intRedStep o f) := rfl
theorem intRedStep_works (o : OpV4) (f : Nat → Nat → Nat → Nat) (s : State) (n : Nat) : Works (intRedStep o f) o.len o.msk n s
    (zeroWritten (popF s.core.f o.len) o.d.toNat (vtSew s.slot.vtype) (lengthOf s o.len n)
      (leftSum (f (vtSew s.slot.vtype)) (summands s o (lengthOf s o.len n)))) 0 0 := by
  intro B c e _ _ _
  rw [intRedStep, summands_working, working_zeroWritten]
/-- AN INTEGER REDUCTION IN A QUIET CORE (R151): element 0 of vD takes the fold of its summands. -/
theorem redEff_runs {o : OpV4} {i : Instr} {s : State} {n : Nat} (f : Nat → Nat → Nat → Nat) (hi : waitsForNothing i = true) (hq : s.Quiet)
    (hn : LenIs s o.len n) :
    ∃ t, vecForm o i (redEff o f) s = .next t ∧ EngineFrame .vec i [o.d.toNat] [] [] [] [] o.len s t ∧ Advanced s t ∧
      t.slot.status = s.slot.status ∧ OnlyElementZero s t o.d.toNat (vtSew s.slot.vtype) (lengthOf s o.len n)
        (leftSum (f (vtSew s.slot.vtype)) (summands s o (lengthOf s o.len n))) := by
  obtain ⟨t, ht, hrun⟩ := v4_runs (wr := [.v o.d.toNat]) hi hq hn (intRedStep_works o f s n)
  refine ⟨t, ht, hrun.frame (filesFrame_zeroWritten (.popF _ _ _ _ _ _ _) (by simp)), hrun.advanced, hrun.status_same, onlyElementZero_of ?_⟩
  rw [hrun.vreg, vreg_zeroWritten o.d.isLt, popF_vreg]
  simp only [true_and]

/-- R151. -/
theorem integerReductions : IntegerReductions := by
  intro s i o n x hq hn hx
  have run : ∀ {i : Instr} {f : Nat → Nat → Nat → Nat}, waitsForNothing i = true → exec i s = vecForm o i (redEff o f) s →
      leftSum (f (vtSew s.slot.vtype)) (summands s o (lengthOf s o.len n)) = x → Runs i s (fun t =>
        EngineFrame .vec i [o.d.toNat] [] [] [] [] o.len s t ∧ Advanced s t ∧ t.slot.status = s.slot.status ∧
          OnlyElementZero s t o.d.toNat (vtSew s.slot.vtype) (lengthOf s o.len n) x) := by
    intro i f hi he hr
    subst hr
    obtain ⟨t, ht, h⟩ := redEff_runs f hi hq hn
    exact ⟨t, he.trans ht, h⟩
  have hinj : ∀ uns, ∀ a ∈ summands s o (lengthOf s o.len n), ∀ b ∈ summands s o (lengthOf s o.len n),
      valOf uns (vtSew s.slot.vtype) a = valOf uns (vtSew s.slot.vtype) b → a = b :=
    fun uns a ha b hb => valOf_inj (summands_lt ha) (summands_lt hb)
  rcases hx with ⟨rfl, rfl⟩ | ⟨rfl | rfl, h0, rfl⟩ | ⟨rfl, hmem, hle⟩ | ⟨rfl, hmem, hle⟩
  · exact run (f := fun _ a b => a + b) rfl rfl (leftSum_eq_sum _)
  · exact run (f := maxOf (flag o.opx 0)) rfl rfl (by rw [h0]; rfl)
  · exact run (f := minOf (flag o.opx 0)) rfl rfl (by rw [h0]; rfl)
  · refine run (f := maxOf (flag o.opx 0)) rfl rfl
      (leftSum_eq_of_largest (valOf (flag o.opx 0) _) (fun _ _ => rfl) (hinj _) hmem (fun y hy => ?_))
    have h := hle y hy
    rw [valOf_eq, valOf_eq, flag]
    split at h <;> simp_all
  · refine run (f := minOf (flag o.opx 0)) rfl rfl
      (leftSum_eq_of_largest (fun a => -valOf (flag o.opx 0) _ a) (fun a b => by simp [minOf])
        (fun a ha b hb h => hinj (flag o.opx 0) a ha b hb (neg_inj.mp h)) hmem (fun y hy => neg_le_neg ?_))
    have h := hle y hy
    rw [valOf_eq, valOf_eq, flag]
    split at h <;> simp_all

/-! ### Floating reductions (R41, R151) -/

theorem fpGuard_pass {s : State} (h : vtFmt s.slot.vtype ≤ 3) (f : State → Host.Outcome State Fault Refusal) : fpGuard f s = f s :=
  if_neg (by omega)
theorem fpick_eq_floatPick (larger : Bool) (f : FF) (a b : Nat) : fpick larger f a b = floatPick larger f a b := by
  unfold fpick floatPick
  cases larger <;> simp <;> split <;> split <;> rfl
/-- A tree's root joined with the start operand, which comes last (R151), and the flags of both. -/
def joinStart (cb : Nat → Nat → Nat × Nat) (start : Option Nat) (root : Option Nat × Nat) : Nat × Nat :=
  match start, root.1 with
  | some x, some y => let z := cb x y; (z.1, z.2 ||| root.2)
  | some x, none => (x, root.2)
  | none, y => (y.getD 0, root.2)
/-- The step of a floating reduction. -/
def floatRedStep (o : OpV4) (comb : FF → Nat → Nat → Nat → Nat × Nat) (w n : Nat) (m : MReg) : Run1 := fun c s =>
  let cb := comb (fmtOf (vtFmt c.vtype)) (arithRm (vtRm c.vtype))
  let r := joinStart cb (v4Start o s w) (treeRoot cb m n (elem (s.vreg o.a.toNat) w))
  .ok (if n = 0 then s else (s.setV o.d.toNat (setElem (s.vreg o.d.toNat) w 0 r.1)).raise c r.2)
theorem fredEff_eq (o : OpV4) (comb : FF → Nat → Nat → Nat → Nat × Nat) : fredEff o comb = vecEff o.len o.msk (floatRedStep o comb) := rfl
/-- What a floating reduction gives, with its flags (R41, R151). -/
def reduced (s : State) (o : OpV4) (cb : Nat → Nat → Nat × Nat) (n : Nat) : Nat × Nat :=
  joinStart cb (if o.opx.getLsbD 1 then some (elem (s.vreg o.c.toNat) (vtSew s.slot.vtype) 0) else none)
    (treeRoot cb (s.mreg o.msk.toNat) n (elem (s.vreg o.a.toNat) (vtSew s.slot.vtype)))
theorem floatRedStep_works (o : OpV4) (comb : FF → Nat → Nat → Nat → Nat × Nat) (s : State) (n : Nat) {r : Nat × Nat}
    (hr : r = reduced s o (comb (fmtOf (vtFmt s.slot.vtype)) (roundMode s.slot.vtype)) (lengthOf s o.len n)) :
    Works (floatRedStep o comb) o.len o.msk n s
      (zeroWritten (popF s.core.f o.len) o.d.toNat (vtSew s.slot.vtype) (lengthOf s o.len n) r.1)
      (if lengthOf s o.len n = 0 then 0 else r.2) 0 := by
  intro B c e hv _ hqp
  have hrm : arithRm (vtRm c.vtype) = roundMode s.slot.vtype := by rw [hv]; rfl
  simp only [floatRedStep, hrm, startOperand_working]
  simp only [working_vreg, popF_vreg, hv, working_setV, working_raise _ _ _ _ _ _ hqp]
  rw [← reduced, ← hr, zeroWritten]
  split
  · rfl
  · rw [popF_vreg, Nat.zero_or]
/-- A FLOATING REDUCTION IN A QUIET CORE (R41, R151): element 0 of vD takes the root of the tree, joined with the start operand. -/
theorem fredEff_runs {o : OpV4} {i : Instr} {s : State} {n : Nat} (comb : FF → Nat → Nat → Nat → Nat × Nat)
    (hi : waitsForNothing i = true) (hq : s.Quiet) (hn : LenIs s o.len n) (hfmt : vtFmt s.slot.vtype ≤ 3) :
    ∃ t, fpForm o i (fredEff o comb) s = .next t ∧ EngineFrame .vec i [o.d.toNat] [] [] [] [] o.len s t ∧ Advanced s t ∧
      OnlyElementZero s t o.d.toNat (vtSew s.slot.vtype) (lengthOf s o.len n)
        (reduced s o (comb (fmtOf (vtFmt s.slot.vtype)) (roundMode s.slot.vtype)) (lengthOf s o.len n)).1 := by
  rw [fpForm, fpGuard_pass hfmt, fredEff_eq]
  obtain ⟨t, ht, hrun⟩ := v4_runs (wr := [.v o.d.toNat]) hi hq hn (floatRedStep_works o comb s n rfl)
  refine ⟨t, ht, hrun.frame (filesFrame_zeroWritten (.popF _ _ _ _ _ _ _) (by simp)), hrun.advanced, onlyElementZero_of ?_⟩
  rw [hrun.vreg, vreg_zeroWritten o.d.isLt, popF_vreg]
  simp only [true_and]

/-! ### The largest or smallest value with its position (R152) -/

/-- The value and the position that VARGMAX and VARGMIN keep (R152). -/
def kept (s : State) (o : OpV4) (big : Bool) (n : Nat) : Option (Nat × Nat) :=
  (treeRoot (argPick big (fmtOf (vtFmt s.slot.vtype))) (s.mreg o.msk.toNat) n (fun e => (elem (s.vreg o.a.toNat) (vtSew s.slot.vtype) e, e))).1
/-- What they write of it: a NaN is canonical, and no element at all gives +0 and 2^32 − 1. -/
def keptValue (f : FF) : Option (Nat × Nat) → Nat
  | some p => if (fval f p.1).isNan then f.nan else p.1
  | none => 0
/-- See `keptValue`. -/
def keptIndex : Option (Nat × Nat) → Nat
  | some p => p.2
  | none => 0xFFFFFFFF
/-- The step of VARGMAX and VARGMIN. -/
def argStep (o : OpV4) (big : Bool) (w n : Nat) (m : MReg) : Run1 := fun c s =>
  let f := fmtOf (vtFmt c.vtype)
  let a := s.vreg o.a.toNat
  let root := (treeRoot (argPick big f) m n (fun i => (elem a w i, i))).1
  let fl := orFlags m (fun i => if (fval f (elem a w i)).isSig then fNV else 0) n
  .ok (if n = 0 then s else
    let s := s.setV o.d.toNat (setElem (s.vreg o.d.toNat) w 0 (keptValue f root))
    (s.setV o.b.toNat (setElem (s.vreg o.b.toNat) 32 0 (keptIndex root))).raise c fl)
theorem argEff_eq (o : OpV4) (big : Bool) : argEff o big = vecEff o.len o.msk (argStep o big) := rfl
theorem argStep_works (o : OpV4) (big : Bool) (s : State) (n : Nat) (h0 : lengthOf s o.len n ≠ 0) (hdb : o.b ≠ o.d) :
    Works (argStep o big) o.len o.msk n s { popF s.core.f o.len with
      v := ((popF s.core.f o.len).v.setIfInBounds o.d.toNat (setElem (s.vreg o.d.toNat) (vtSew s.slot.vtype) 0
        (keptValue (fmtOf (vtFmt s.slot.vtype)) (kept s o big (lengthOf s o.len n))))).setIfInBounds o.b.toNat
          (setElem (s.vreg o.b.toNat) 32 0 (keptIndex (kept s o big (lengthOf s o.len n)))) }
      (orFlags (s.mreg o.msk.toNat) (fun i =>
        if (fval (fmtOf (vtFmt s.slot.vtype)) (elem (s.vreg o.a.toNat) (vtSew s.slot.vtype) i)).isSig then fNV else 0) (lengthOf s o.len n)) 0 := by
  intro B c e hv _ hqp
  have hne : o.b.toNat ≠ o.d.toNat := fun h => hdb (BitVec.eq_of_toNat_eq h)
  simp only [argStep, if_neg h0, working_setV, working_vreg, popF_vreg, getD_setIfInBounds _ _ _ _ _ o.d.isLt, if_neg hne,
    working_raise _ _ _ _ _ _ hqp, hv, Nat.zero_or]
  rw [popF_vreg]
  rfl
theorem argForm_runs {o : OpV4} {i : Instr} {s : State} {n : Nat} (big : Bool) (hi : waitsForNothing i = true) (hq : s.Quiet)
    (hn : LenIs s o.len n) (hfmt : vtFmt s.slot.vtype ≤ 3) (h0 : lengthOf s o.len n ≠ 0) (hdb : o.b ≠ o.d) :
    ∃ t, argForm o i (argEff o big) s = .next t ∧ EngineFrame .vec i [o.d.toNat, o.b.toNat] [] [] [] [] o.len s t ∧ Advanced s t ∧
      OnlyElementZero s t o.d.toNat (vtSew s.slot.vtype) (lengthOf s o.len n)
        (keptValue (fmtOf (vtFmt s.slot.vtype)) (kept s o big (lengthOf s o.len n))) ∧
      OnlyElementZero s t o.b.toNat 32 (lengthOf s o.len n) (keptIndex (kept s o big (lengthOf s o.len n))) := by
  rw [argForm, fpGuard_pass hfmt, argEff_eq]
  have hne : o.b.toNat ≠ o.d.toNat := fun h => hdb (BitVec.eq_of_toNat_eq h)
  obtain ⟨t, ht, hrun⟩ := v4_runs (wr := [.v o.d.toNat, .v o.b.toNat]) hi hq hn (argStep_works o big s n h0 hdb)
  refine ⟨t, ht, hrun.frame (((FilesFrame.popF _ _ _ _ _ _ _).setV _ (by simp)).setV _ (by simp)), hrun.advanced,
    onlyElementZero_of ?_, onlyElementZero_of ?_⟩
  · rw [hrun.vreg, if_pos h0, getD_setIfInBounds _ _ _ _ _ o.b.isLt, if_neg hne.symm, getD_setIfInBounds _ _ _ _ _ o.d.isLt, if_pos rfl]
  · rw [hrun.vreg, if_pos h0, getD_setIfInBounds _ _ _ _ _ o.b.isLt, if_pos rfl]

/-- R41, R151, R152. -/
theorem floatReductions : FloatReductions := by
  constructor
  · intro s i o cb n r hq hn hfmt hi hr
    have run : ∀ {i : Instr} (comb : FF → Nat → Nat → Nat → Nat × Nat), waitsForNothing i = true → exec i s = fpForm o i (fredEff o comb) s →
        cb = comb (fmtOf (vtFmt s.slot.vtype)) (roundMode s.slot.vtype) → Runs i s (fun t =>
          EngineFrame .vec i [o.d.toNat] [] [] [] [] o.len s t ∧ Advanced s t ∧
            OnlyElementZero s t o.d.toNat (vtSew s.slot.vtype) (lengthOf s o.len n) (reduced s o cb (lengthOf s o.len n)).1) := by
      intro i comb hw he hcb
      obtain ⟨t, ht, h⟩ := fredEff_runs comb hw hq hn hfmt
      exact ⟨t, he.trans ht, hcb ▸ h⟩
    have key : Runs i s (fun t => EngineFrame .vec i [o.d.toNat] [] [] [] [] o.len s t ∧ Advanced s t ∧
        OnlyElementZero s t o.d.toNat (vtSew s.slot.vtype) (lengthOf s o.len n) (reduced s o cb (lengthOf s o.len n)).1) := by
      rcases hi with ⟨rfl, hcb⟩ | ⟨rfl, hcb⟩ | ⟨rfl, hcb⟩
      · exact run (fun f rm a b => faddR f rm (fval f a) (fval f b)) rfl rfl hcb
      · exact run (fun f _ a b => fpick true f a b) rfl rfl (hcb.trans (by funext a b; rw [fpick_eq_floatPick]))
      · exact run (fun f _ a b => fpick false f a b) rfl rfl (hcb.trans (by funext a b; rw [fpick_eq_floatPick]))
    rw [reduced, ← hr] at key
    obtain ⟨root, fl⟩ := r
    by_cases hs : o.opx.getLsbD 1 = true
    · rw [if_pos hs] at key
      simp only [if_pos hs]
      cases root <;> exact key
    · rw [if_neg hs] at key
      simp only [if_neg hs]
      exact key
  · intro s i o big n r hq hn hfmt hwf h0 hi hr
    have run : ∀ {i : Instr}, waitsForNothing i = true → exec i s = argForm o i (argEff o big) s → o.b ≠ o.d → Runs i s (fun t =>
          EngineFrame .vec i [o.d.toNat, o.b.toNat] [] [] [] [] o.len s t ∧ Advanced s t ∧
            OnlyElementZero s t o.d.toNat (vtSew s.slot.vtype) (lengthOf s o.len n) (keptValue (fmtOf (vtFmt s.slot.vtype)) r) ∧
            OnlyElementZero s t o.b.toNat 32 (lengthOf s o.len n) (keptIndex r)) := by
      intro i hw he hdb
      obtain ⟨t, ht, h⟩ := argForm_runs big hw hq hn hfmt h0 hdb
      exact ⟨t, he.trans ht, hr ▸ h⟩
    rcases hi with ⟨rfl, rfl⟩ | ⟨rfl, rfl⟩
    · exact run rfl rfl (fun h => by simp [Instr.WellFormed, Instr.defect, firstOf, h] at hwf)
    · exact run rfl rfl (fun h => by simp [Instr.WellFormed, Instr.defect, firstOf, h] at hwf)

end Sys2Proof.Machine
end

section
/-! SUPPORT. Scans and segmented sums (R42, R153). -/

namespace Sys2Proof.Machine

/-! ### Partial sums -/

/-- The sum of a list from the left, absent for an empty one. -/
def partialSum (add : Nat → Nat → Nat) : List Nat → Option Nat
  | [] => none
  | x :: r => some (r.foldl add x)
theorem leftSum_eq (add : Nat → Nat → Nat) (l : List Nat) : leftSum add l = (partialSum add l).getD 0 := by cases l <;> rfl
/-- A partial sum with one more element, and its flags. -/
def addStep (add : Nat → Nat → Nat × Nat) (p : Option Nat × Nat) (x : Nat) : Option Nat × Nat :=
  match p.1 with
  | none => (some x, p.2)
  | some y => let r := add y x; (some r.1, p.2 ||| r.2)
theorem addStep_fst (add : Nat → Nat → Nat × Nat) (p : Option Nat × Nat) (x : Nat) :
    (addStep add p x).1 = some (p.1.elim x (fun y => (add y x).1)) := by
  obtain ⟨_ | y, fl⟩ := p <;> rfl
theorem partialSum_append (add : Nat → Nat → Nat) (l : List Nat) (x : Nat) :
    partialSum add (l ++ [x]) = some ((partialSum add l).elim x (fun y => add y x)) := by
  cases l with
  | nil => rfl
  | cons y r => simp [partialSum, List.foldl_append]
/-- A format check that is asked for under .F only (R132). -/
theorem scanForm_pass {o : OpV4} {i : Instr} {wr : List Res} {eff : Run1} {s : State} (h : o.b.getLsbD 0 = true → vtFmt s.slot.vtype ≤ 3) :
    scanForm o i wr eff s = engine (v4Ticket o i s wr) eff s := by
  unfold scanForm
  split
  · next hb => exact fpGuard_pass (h hb) _
  · rfl
theorem scanAdd_eq (o : OpV4) {c : Cmd} {vt : Word} (h : c.vtype = vt) : scanAdd o c (vtSew vt) = scanSum vt o := by
  funext a b; subst h; rfl

/-! ### VSCAN -/

/-- One position of a scan: the running sum is carried on and written. -/
def scanAt (add : Nat → Nat → Nat × Nat) (m : MReg) (w : Nat) (a : VReg) (i : Nat) (acc : VReg × (Option Nat × Nat)) :
    VReg × (Option Nat × Nat) :=
  let p := if flag m i then addStep add acc.2 (elem a w i) else acc.2
  (setElem acc.1 w i (p.1.getD 0), p)
/-- The step of VSCAN. -/
def vscanStep (o : OpV4) (w n : Nat) (m : MReg) : Run1 := fun c s =>
  let r := forN (scanAt (scanAdd o c w) m w (s.vreg o.a.toNat)) n (s.vreg o.d.toNat, (v4Start o s w, 0))
  .ok ((s.setV o.d.toNat r.1).raise c r.2.2)
theorem effVscan_eq (o : OpV4) : effVscan o = vecEff o.len o.msk (vscanStep o) := rfl
/-- Every element below the length takes the running sum up to it. -/
theorem elem_scan {add : Nat → Nat → Nat × Nat} {m : MReg} {w : Nat} {a d : VReg} {p : Nat → Option Nat}
    (hp : ∀ e, p (e + 1) = if m.getLsbD e then some ((p e).elim (elem a w e) (fun x => (add x (elem a w e)).1)) else p e) (n : Nat) :
    (forN (scanAt add m w a) n (d, (p 0, 0))).2.1 = p n ∧ ∀ e, e < vlmax w →
      elem (forN (scanAt add m w a) n (d, (p 0, 0))).1 w e = if e < n then (p (e + 1)).getD 0 % 2 ^ w else elem d w e := by
  induction n with
  | zero => simp [forN]
  | succ n ih =>
    obtain ⟨hsum, hel⟩ := ih
    generalize hr : forN (scanAt add m w a) n (d, (p 0, 0)) = r at hsum hel
    have hnext : (scanAt add m w a n r).2.1 = p (n + 1) := by
      rw [hp, ← hsum]
      by_cases h : m.getLsbD n <;> simp [scanAt, flag, h, addStep_fst]
    rw [forN, hr]
    refine ⟨hnext, fun e he => ?_⟩
    have : elem (scanAt add m w a n r).1 w e = if e = n then (p (n + 1)).getD 0 % 2 ^ w else elem r.1 w e := by
      rw [← hnext]; exact elem_setElem _ _ _ _ _ (elem_fits he)
    rw [this, hel e he]
    by_cases h : e = n
    · simp [h]
    · by_cases h2 : e < n
      · simp [h, h2, Nat.lt_succ_of_lt h2]
      · simp [h, h2, show ¬e < n + 1 by omega]
/-- The folds' states of a scan as a command of a state runs it. -/
def scanned (s : State) (o : OpV4) (n : Nat) : VReg × (Option Nat × Nat) :=
  forN (scanAt (scanSum s.slot.vtype o) (s.mreg o.msk.toNat) (vtSew s.slot.vtype) (s.vreg o.a.toNat)) n
    (s.vreg o.d.toNat, (if o.opx.getLsbD 1 then some (elem (s.vreg o.c.toNat) (vtSew s.slot.vtype) 0) else none, 0))
theorem vscanStep_works (o : OpV4) (s : State) (n : Nat) : Works (vscanStep o) o.len o.msk n s
    { popF s.core.f o.len with v := (popF s.core.f o.len).v.setIfInBounds o.d.toNat (scanned s o (lengthOf s o.len n)).1 }
    (scanned s o (lengthOf s o.len n)).2.2 0 := by
  intro B c e hv _ hqp
  simp only [vscanStep, startOperand_working, scanAdd_eq o hv]
  simp only [working_vreg, popF_vreg, working_setV, working_raise _ _ _ _ _ _ hqp, Nat.zero_or]
  rfl

/-! ### VSEGSUM -/

/-- One position of a segmented sum: a head begins a segment, and an active element joins the sum of the last one. -/
def segAt (add : Nat → Nat → Nat × Nat) (hm m : MReg) (w : Nat) (a : VReg) (i : Nat) (acc : VReg × Nat × (Option Nat × Nat)) :
    VReg × Nat × (Option Nat × Nat) :=
  let k := if flag hm i then acc.2.1 + 1 else acc.2.1
  let p0 : Option Nat × Nat := if flag hm i then (none, acc.2.2.2) else acc.2.2
  if k = 0 then (acc.1, k, p0)
  else
    let p := if flag m i then addStep add p0 (elem a w i) else p0
    (setElem acc.1 w (k - 1) (p.1.getD 0), k, p)
theorem segAt_head (add : Nat → Nat → Nat × Nat) {hm : MReg} (m : MReg) (w : Nat) (a v : VReg) {i : Nat} (k : Nat) (p : Option Nat × Nat)
    (h : hm.getLsbD i = true) : segAt add hm m w a i (v, k, p) =
      let q := if m.getLsbD i then addStep add (none, p.2) (elem a w i) else (none, p.2)
      (setElem v w k (q.1.getD 0), k + 1, q) := by simp [segAt, flag, h]
theorem segAt_before (add : Nat → Nat → Nat × Nat) {hm : MReg} (m : MReg) (w : Nat) (a v : VReg) {i : Nat} (p : Option Nat × Nat)
    (h : hm.getLsbD i = false) : segAt add hm m w a i (v, 0, p) = (v, 0, p) := by simp [segAt, flag, h]
theorem segAt_inside (add : Nat → Nat → Nat × Nat) {hm : MReg} (m : MReg) (w : Nat) (a v : VReg) {i : Nat} (k : Nat) (p : Option Nat × Nat)
    (h : hm.getLsbD i = false) : segAt add hm m w a i (v, k + 1, p) =
      let q := if m.getLsbD i then addStep add p (elem a w i) else p
      (setElem v w k (q.1.getD 0), k + 1, q) := by simp [segAt, flag, h]
/-- The step of VSEGSUM. -/
def vsegsumStep (o : OpV4) (w n : Nat) (m : MReg) : Run1 := fun c s =>
  let r := forN (segAt (scanAdd o c w) (s.mreg o.c.toNat) m w (s.vreg o.a.toNat)) n (s.vreg o.d.toNat, 0, (none, 0))
  .ok ((s.setV o.d.toNat r.1).raise c r.2.2.2)
theorem effVsegsum_eq (o : OpV4) : effVsegsum o = vecEff o.len o.msk (vsegsumStep o) := rfl

theorem filter_range_succ (p : Nat → Bool) (n : Nat) : (List.range (n + 1)).filter p = (List.range n).filter p ++ if p n then [n] else [] := by
  rw [List.range_succ, List.filter_append, List.filter_singleton, cond_eq_ite]
theorem segmentHeads_succ (s : State) (c : BitVec 6) (n : Nat) :
    segmentHeads s c (n + 1) = segmentHeads s c n ++ if (s.mreg (c.toNat % 8)).getLsbD n then [n] else [] := filter_range_succ _ _
theorem activeBelow_succ (s : State) (msk : BitVec 3) (n : Nat) :
    activeBelow s msk (n + 1) = activeBelow s msk n ++ if (s.mreg msk.toNat).getLsbD n then [n] else [] := filter_range_succ _ _
theorem lt_of_mem_activeBelow {s : State} {msk : BitVec 3} {n e : Nat} (h : e ∈ activeBelow s msk n) : e < n :=
  List.mem_range.mp (List.mem_filter.mp h).1
theorem segmentHeads_getElem_lt {s : State} {c : BitVec 6} {n k : Nat} (h : k < (segmentHeads s c n).length) : (segmentHeads s c n)[k] < n :=
  List.mem_range.mp (List.mem_filter.mp (List.getElem_mem h)).1

/-- A segment's elements are the active ones between two bounds. -/
theorem segmentOf_eq {s : State} {o : OpV4} {n k lo hi : Nat} (hlo : (segmentHeads s o.c n)[k]?.getD n = lo)
    (hhi : (segmentHeads s o.c n)[k + 1]?.getD n = hi) : segmentOf s o n k =
      ((activeBelow s o.msk n).filter (fun e => decide (lo ≤ e) && decide (e < hi))).map (elem (s.vreg o.a.toNat) (vtSew s.slot.vtype)) := by
  subst hlo hhi; rfl
/-- A segment of one position more, where the bounds of the old one lie as they did. -/
theorem segmentOf_succ_of {s : State} {o : OpV4} {n k lo hi hi' : Nat} {last : Bool} (hlo : (segmentHeads s o.c n)[k]?.getD n = lo)
    (hhi : (segmentHeads s o.c n)[k + 1]?.getD n = hi) (hlo' : (segmentHeads s o.c (n + 1))[k]?.getD (n + 1) = lo)
    (hhi' : (segmentHeads s o.c (n + 1))[k + 1]?.getD (n + 1) = hi') (hsame : ∀ e, e < n → (e < hi' ↔ e < hi))
    (hlast : last = (decide (lo ≤ n) && decide (n < hi'))) : segmentOf s o (n + 1) k = segmentOf s o n k ++
      if last = true ∧ (s.mreg o.msk.toNat).getLsbD n = true then [elem (s.vreg o.a.toNat) (vtSew s.slot.vtype) n] else [] := by
  rw [segmentOf_eq hlo hhi, segmentOf_eq hlo' hhi', activeBelow_succ, List.filter_append, List.map_append, hlast]
  congr 1
  · refine congrArg _ (List.filter_congr fun e he => ?_)
    rw [decide_eq_decide.mpr (hsame e (lt_of_mem_activeBelow he))]
  · by_cases ha : (s.mreg o.msk.toNat).getLsbD n = true
    · by_cases hb : (decide (lo ≤ n) && decide (n < hi')) = true <;> simp [ha, hb]
    · simp [ha]
/-- A segment that has begun takes the next position, where it is the last segment, no head stands there and it is active. -/
theorem segmentOf_succ (s : State) (o : OpV4) {n k : Nat} (hk : k < (segmentHeads s o.c n).length) :
    segmentOf s o (n + 1) k = segmentOf s o n k ++
      if (!(s.mreg (o.c.toNat % 8)).getLsbD n && decide (k + 1 = (segmentHeads s o.c n).length)) = true ∧ (s.mreg o.msk.toNat).getLsbD n = true then
        [elem (s.vreg o.a.toNat) (vtSew s.slot.vtype) n] else [] := by
  have hlo := segmentHeads_getElem_lt hk
  have hkeep : ∀ {j : Nat} (hj : j < (segmentHeads s o.c n).length), (segmentHeads s o.c (n + 1))[j]?.getD (n + 1) = (segmentHeads s o.c n)[j] := by
    intro j hj; rw [segmentHeads_succ, List.getElem?_append_left hj]; simp [hj]
  by_cases hnext : k + 1 < (segmentHeads s o.c n).length
  · have hup := segmentHeads_getElem_lt hnext
    refine segmentOf_succ_of (by simp [hk]) (by simp [hnext]) (hkeep hk) (hkeep hnext) (fun _ _ => Iff.rfl) ?_
    simp [show k + 1 ≠ (segmentHeads s o.c n).length by omega, Nat.le_of_lt hup]
  · have hlen : k + 1 = (segmentHeads s o.c n).length := by omega
    by_cases hh : (s.mreg (o.c.toNat % 8)).getLsbD n = true
    · refine segmentOf_succ_of (hi := n) (hi' := n) (by simp [hk]) (by simp [hlen]) (hkeep hk) ?_ (fun _ _ => Iff.rfl) (by simp [hh])
      rw [segmentHeads_succ, if_pos hh, hlen]; simp
    · refine segmentOf_succ_of (hi := n) (hi' := n + 1) (by simp [hk]) (by simp [hlen]) (hkeep hk) ?_ (fun _ _ => by omega)
        (by simp [hh, hlen, Nat.le_of_lt hlo])
      rw [segmentHeads_succ, if_neg hh, hlen]; simp
/-- A head begins a segment with its own position. -/
theorem segmentOf_new (s : State) (o : OpV4) {n : Nat} (hh : (s.mreg (o.c.toNat % 8)).getLsbD n = true) :
    segmentOf s o (n + 1) (segmentHeads s o.c n).length =
      if (s.mreg o.msk.toNat).getLsbD n then [elem (s.vreg o.a.toNat) (vtSew s.slot.vtype) n] else [] := by
  rw [segmentOf_eq (lo := n) (hi := n + 1) (by rw [segmentHeads_succ, if_pos hh]; simp) (by rw [segmentHeads_succ, if_pos hh]; simp),
    activeBelow_succ, List.filter_append, List.map_append]
  have hnone : (activeBelow s o.msk n).filter (fun e => decide (n ≤ e) && decide (e < n + 1)) = [] := by
    refine List.filter_eq_nil_iff.mpr fun e he => ?_
    have := lt_of_mem_activeBelow he
    simp; omega
  rw [hnone]
  split <;> simp

/-- What VSEGSUM's fold carries over the first n positions: the number of segments begun, the partial sum of the last one, and vD
with the sum of each segment so far. -/
structure SegmentsSummed (s : State) (o : OpV4) (add : Nat → Nat → Nat × Nat) (n : Nat) (r : VReg × Nat × (Option Nat × Nat)) : Prop where
  begun : r.2.1 = (segmentHeads s o.c n).length
  last : r.2.2.1 = if r.2.1 = 0 then none else partialSum (fun a b => (add a b).1) (segmentOf s o n (r.2.1 - 1))
  sums : ∀ e, e < vlmax (vtSew s.slot.vtype) → elem r.1 (vtSew s.slot.vtype) e =
    if e < r.2.1 then leftSum (fun a b => (add a b).1) (segmentOf s o n e) % 2 ^ vtSew s.slot.vtype
    else elem (s.vreg o.d.toNat) (vtSew s.slot.vtype) e
theorem SegmentsSummed.write {s : State} {o : OpV4} {add : Nat → Nat → Nat × Nat} {n k : Nat} {v : VReg} {p : Option Nat × Nat}
    (hbegun : k + 1 = (segmentHeads s o.c (n + 1)).length)
    (hlast : p.1 = partialSum (fun a b => (add a b).1) (segmentOf s o (n + 1) k))
    (hsums : ∀ e, e < vlmax (vtSew s.slot.vtype) → e ≠ k → elem v (vtSew s.slot.vtype) e =
      if e < k then leftSum (fun a b => (add a b).1) (segmentOf s o (n + 1) e) % 2 ^ vtSew s.slot.vtype
      else elem (s.vreg o.d.toNat) (vtSew s.slot.vtype) e) :
    SegmentsSummed s o add (n + 1) (setElem v (vtSew s.slot.vtype) k (p.1.getD 0), k + 1, p) := by
  refine ⟨hbegun, by simpa using hlast, fun e he => ?_⟩
  rw [elem_setElem _ _ _ _ _ (elem_fits he)]
  by_cases h : e = k
  · subst h; simp [hlast, leftSum_eq]
  · rw [if_neg h, hsums e he h]
    by_cases hk : e < k
    · simp [hk, Nat.lt_succ_of_lt hk]
    · simp [hk, show ¬e < k + 1 by omega]
theorem segmentsSummed_succ {s : State} {o : OpV4} {add : Nat → Nat → Nat × Nat} {n : Nat} {r : VReg × Nat × (Option Nat × Nat)}
    (h : SegmentsSummed s o add n r) : SegmentsSummed s o add (n + 1)
      (segAt add (s.mreg (o.c.toNat % 8)) (s.mreg o.msk.toNat) (vtSew s.slot.vtype) (s.vreg o.a.toNat) n r) := by
  obtain ⟨v, k, p, fl⟩ := r
  obtain ⟨hbegun, hlast, hsums⟩ := h
  dsimp only at hbegun hlast hsums
  have hold : ∀ e, e < k → (e + 1 = k → (s.mreg (o.c.toNat % 8)).getLsbD n = true) → segmentOf s o (n + 1) e = segmentOf s o n e := by
    intro e he hh
    rw [segmentOf_succ s o (hbegun ▸ he), if_neg, List.append_nil]
    rintro ⟨h1, -⟩
    rw [Bool.and_eq_true, decide_eq_true_eq, Bool.not_eq_true', ← hbegun] at h1
    exact absurd (hh h1.2) (by simp [h1.1])
  cases hh : (s.mreg (o.c.toNat % 8)).getLsbD n
  case true =>
    have hnew := segmentOf_new s o hh
    rw [← hbegun] at hnew
    rw [segAt_head _ _ _ _ _ _ _ hh]
    refine SegmentsSummed.write (by simp [segmentHeads_succ, hh, hbegun]) ?_ (fun e he hne => ?_)
    · rw [hnew]; split <;> simp [addStep, partialSum]
    · rw [hsums e he]
      split
      · next hk => rw [hold e hk (fun _ => hh)]
      · rfl
  case false =>
    have hlen : (segmentHeads s o.c (n + 1)).length = (segmentHeads s o.c n).length := by simp [segmentHeads_succ, hh]
    rcases k with _ | k
    · rw [segAt_before _ _ _ _ _ _ hh]
      exact ⟨hbegun.trans hlen.symm, hlast, fun e he => by simpa using hsums e he⟩
    · have hgrow := segmentOf_succ s o (n := n) (k := k) (by omega)
      rw [segAt_inside _ _ _ _ _ _ _ hh]
      refine SegmentsSummed.write (by omega) ?_ (fun e he hne => ?_)
      · rw [hgrow]
        by_cases ha : (s.mreg o.msk.toNat).getLsbD n = true
        · simp [ha, hh, hlast, addStep_fst, partialSum_append, ← hbegun]
        · simp [ha, hlast]
      · rw [hsums e he]
        by_cases hk : e < k
        · rw [if_pos hk, if_pos (by omega), hold e (by omega) (fun h => by omega)]
        · rw [if_neg hk, if_neg (by omega)]
/-- The fold of VSEGSUM as a command of a state runs it. -/
def segmented (s : State) (o : OpV4) (n : Nat) : VReg × Nat × (Option Nat × Nat) :=
  forN (segAt (scanSum s.slot.vtype o) (s.mreg (o.c.toNat % 8)) (s.mreg o.msk.toNat) (vtSew s.slot.vtype) (s.vreg o.a.toNat)) n
    (s.vreg o.d.toNat, 0, (none, 0))
theorem segmentsSummed (s : State) (o : OpV4) (n : Nat) : SegmentsSummed s o (scanSum s.slot.vtype o) n (segmented s o n) := by
  induction n with
  | zero => exact ⟨rfl, rfl, fun _ _ => rfl⟩
  | succ n ih => exact segmentsSummed_succ ih
theorem vsegsumStep_works (o : OpV4) (s : State) (n : Nat) (hc : o.c.toNat < 8) : Works (vsegsumStep o) o.len o.msk n s
    { popF s.core.f o.len with v := (popF s.core.f o.len).v.setIfInBounds o.d.toNat (segmented s o (lengthOf s o.len n)).1 }
    (segmented s o (lengthOf s o.len n)).2.2.2 0 := by
  intro B c e hv _ hqp
  simp only [vsegsumStep, scanAdd_eq o hv, working_mreg, popF_mreg, working_vreg, popF_vreg, working_setV, working_raise _ _ _ _ _ _ hqp, Nat.zero_or]
  rw [segmented, Nat.mod_eq_of_lt hc]

/-- R42, R153. -/
theorem scansAndSegments : ScansAndSegments := by
  constructor
  · intro s o n p hq hn hfmt h0 hp
    obtain ⟨t, ht, hrun⟩ := v4_runs (i := .vscan o) (wr := [.v o.d.toNat]) rfl hq hn (vscanStep_works o s n)
    refine ⟨t, (scanForm_pass hfmt).trans ht, hrun.frame ((FilesFrame.popF _ _ _ _ _ _ _).setV _ (by simp)), hrun.advanced, fun e he => ?_⟩
    rw [hrun.vreg, getD_setIfInBounds _ _ _ _ _ o.d.isLt, if_pos rfl, scanned, ← h0]
    exact (elem_scan (fun e => by rw [hp]; cases p e <;> rfl) _).2 e he
  · intro s o n hq hwf hn hfmt
    have hc : o.c.toNat < 8 := by
      by_contra h
      have : 8 ≤ o.c.toNat := by omega
      simp [Instr.WellFormed, Instr.defect, firstOf, this] at hwf
    obtain ⟨t, ht, hrun⟩ := v4_runs (i := .vsegsum o) (wr := [.v o.d.toNat]) rfl hq hn (vsegsumStep_works o s n hc)
    refine ⟨t, (scanForm_pass hfmt).trans ht, hrun.frame ((FilesFrame.popF _ _ _ _ _ _ _).setV _ (by simp)), hrun.advanced, fun e he => ?_⟩
    have h := segmentsSummed s o (lengthOf s o.len n)
    rw [hrun.vreg, getD_setIfInBounds _ _ _ _ _ o.d.isLt, if_pos rfl, h.sums e he, h.begun]

end Sys2Proof.Machine
end

section
/-! SUPPORT. Stable sorts and runs of equal keys (R154, R155). -/

namespace Sys2Proof.Machine

/-! ### Stable insertion (R154) -/

/-- Ascending by key, and by position among equal keys. -/
def StableBelow (x y : Nat × Nat) : Prop := x.1 < y.1 ∨ x.1 = y.1 ∧ x.2 < y.2
theorem insKey_perm (x : Nat × Nat) (l : List (Nat × Nat)) : (insKey x l).Perm (x :: l) := by
  induction l with
  | nil => exact .refl _
  | cons y r ih =>
    unfold insKey
    split
    · exact .refl _
    · exact (ih.cons y).trans (.swap x y r)
/-- An insertion behind every key that is not larger keeps a list in stable order, where the new position is the largest. -/
theorem insKey_pairwise {x : Nat × Nat} {l : List (Nat × Nat)} (hl : l.Pairwise StableBelow) (hx : ∀ y ∈ l, y.2 < x.2) :
    (insKey x l).Pairwise StableBelow := by
  induction l with
  | nil => exact List.pairwise_singleton _ _
  | cons y r ih =>
    obtain ⟨hy, hr⟩ := List.pairwise_cons.mp hl
    unfold insKey
    split
    · next hlt =>
      refine List.pairwise_cons.mpr ⟨fun z hz => ?_, hl⟩
      rcases List.mem_cons.mp hz with rfl | hz
      · exact .inl hlt
      · rcases hy z hz with h | ⟨h, -⟩
        · exact .inl (by omega)
        · exact .inl (by omega)
    · next hge =>
      refine List.pairwise_cons.mpr ⟨fun z hz => ?_, ih hr (fun z hz => hx z (by simp [hz]))⟩
      rcases List.mem_cons.mp ((insKey_perm x r).mem_iff.mp hz) with rfl | hz
      · have := hx y (by simp)
        rcases Nat.lt_or_ge y.1 z.1 with h | h
        · exact .inl h
        · exact .inr ⟨by omega, this⟩
      · exact hy z hz
theorem sortKeys_append (a : VReg) (w : Nat) (l : List Nat) (p : Nat) : sortKeys a w (l ++ [p]) = insKey (elem a w p, p) (sortKeys a w l) := by
  simp [sortKeys, List.foldl_append]
/-- The sorted keys are the keys at the positions given, each with its position. -/
theorem sortKeys_perm (a : VReg) (w : Nat) (l : List Nat) : (sortKeys a w l).Perm (l.map (fun p => (elem a w p, p))) := by
  induction l using List.reverseRecOn with
  | nil => exact .refl _
  | append_singleton l p ih =>
    rw [sortKeys_append, List.map_append]
    exact (insKey_perm _ _).trans ((ih.cons _).trans (List.perm_append_singleton _ _).symm)
theorem sortKeys_pairwise (a : VReg) (w : Nat) {l : List Nat} (hl : l.Pairwise (· < ·)) : (sortKeys a w l).Pairwise StableBelow := by
  induction l using List.reverseRecOn with
  | nil => exact List.Pairwise.nil
  | append_singleton l p ih =>
    obtain ⟨h1, -, h2⟩ := List.pairwise_append.mp hl
    rw [sortKeys_append]
    refine insKey_pairwise (ih h1) (fun y hy => ?_)
    obtain ⟨q, hq, rfl⟩ := List.mem_map.mp ((sortKeys_perm a w l).mem_iff.mp hy)
    exact h2 q hq p (by simp)
/-- The positions in the order of their keys. -/
def sortedPositions (a : VReg) (w : Nat) (l : List Nat) : List Nat := (sortKeys a w l).map (·.2)
theorem sortedPositions_perm (a : VReg) (w : Nat) (l : List Nat) : (sortedPositions a w l).Perm l := by
  have h := (sortKeys_perm a w l).map (·.2)
  rwa [List.map_map, show (fun p : Nat × Nat => p.2) ∘ (fun p => (elem a w p, p)) = id from rfl, List.map_id] at h
theorem sortKeys_eq (a : VReg) (w : Nat) (l : List Nat) : sortKeys a w l = (sortedPositions a w l).map (fun p => (elem a w p, p)) := by
  rw [sortedPositions, List.map_map]
  refine (List.map_id _).symm.trans (List.map_congr_left fun x hx => ?_)
  obtain ⟨q, -, rfl⟩ := List.mem_map.mp ((sortKeys_perm a w l).mem_iff.mp hx)
  rfl
theorem sortedPositions_pairwise (a : VReg) (w : Nat) {l : List Nat} (hl : l.Pairwise (· < ·)) :
    (sortedPositions a w l).Pairwise (fun x y => elem a w x < elem a w y ∨ elem a w x = elem a w y ∧ x < y) := by
  have h := sortKeys_pairwise a w hl
  rw [sortKeys_eq, List.pairwise_map] at h
  exact h
theorem activeBelow_pairwise (s : State) (msk : BitVec 3) (n : Nat) : (activeBelow s msk n).Pairwise (· < ·) :=
  List.pairwise_lt_range.filter _
theorem length_activeBelow_le (s : State) (msk : BitVec 3) (n : Nat) : (activeBelow s msk n).length ≤ n :=
  (List.length_filter_le _ _).trans_eq List.length_range

/-! ### Elements taken from listed positions -/

/-- A register whose first elements come from the positions of a list. -/
def fromPositions (r : VReg) (w n : Nat) (l : List Nat) (f : Nat → Nat) : VReg := mapElems r w (fun i => (l[i]?).map f) n
theorem elem_fromPositions (r : VReg) {w n e : Nat} {l : List Nat} {f : Nat → Nat} (he : e < vlmax w) (hl : l.length ≤ n) (hf : ∀ p, f p < 2 ^ w) :
    elem (fromPositions r w n l f) w e = (l[e]?).elim (elem r w e) f := by
  rw [fromPositions, elem_mapElems _ _ _ _ _ (elem_fits he)]
  by_cases h : e < l.length
  · simp [h, Nat.lt_of_lt_of_le h hl, Nat.mod_eq_of_lt (hf _)]
  · simp [h]

/-! ### VSORTK (R154) -/

/-- The step of VSORTK and VSORTK.P. -/
def sortStep (o : OpV4) (pay : Bool) (w n : Nat) (m : MReg) : Run1 := fun _ s =>
  let k := sortKeys (s.vreg o.a.toNat) w (actives m n)
  let b := s.vreg o.b.toNat
  let t := s.setV o.d.toNat (mapElems (s.vreg o.d.toNat) w (fun i => (k[i]?).map (·.1)) n)
  .ok (if pay then t.setV o.c.toNat (mapElems (s.vreg o.c.toNat) w (fun i => (k[i]?).map (fun e => elem b w e.2)) n) else t)
theorem sortEff_eq (o : OpV4) (pay : Bool) : sortEff o pay = vecEff o.len o.msk (sortStep o pay) := rfl
/-- The order in which VSORTK takes the active positions. -/
def sortOrder (s : State) (o : OpV4) (n : Nat) : List Nat := sortedPositions (s.vreg o.a.toNat) (vtSew s.slot.vtype) (activeBelow s o.msk n)
/-- The keys in their order, and the payloads. -/
def sortedKeys (s : State) (o : OpV4) (n : Nat) : VReg :=
  fromPositions (s.vreg o.d.toNat) (vtSew s.slot.vtype) n (sortOrder s o n) (elem (s.vreg o.a.toNat) (vtSew s.slot.vtype))
/-- See `sortedKeys`. -/
def sortedPayloads (s : State) (o : OpV4) (n : Nat) : VReg :=
  fromPositions (s.vreg o.c.toNat) (vtSew s.slot.vtype) n (sortOrder s o n) (elem (s.vreg o.b.toNat) (vtSew s.slot.vtype))
/-- The register files after VSORTK or VSORTK.P. -/
def sortedFiles (s : State) (o : OpV4) (pay : Bool) (n : Nat) : Files :=
  let f := popF s.core.f o.len
  let g : Files := { f with v := f.v.setIfInBounds o.d.toNat (sortedKeys s o n) }
  if pay then { g with v := g.v.setIfInBounds o.c.toNat (sortedPayloads s o n) } else g
theorem sortStep_works (o : OpV4) (pay : Bool) (s : State) (n : Nat) :
    Works (sortStep o pay) o.len o.msk n s (sortedFiles s o pay (lengthOf s o.len n)) 0 0 := by
  intro B c e _ _ _
  have hk : sortKeys (s.vreg o.a.toNat) (vtSew s.slot.vtype) (actives (s.mreg o.msk.toNat) (lengthOf s o.len n)) =
      (sortOrder s o (lengthOf s o.len n)).map (fun p => (elem (s.vreg o.a.toNat) (vtSew s.slot.vtype) p, p)) := sortKeys_eq _ _ _
  simp only [sortStep, working_vreg, popF_vreg, working_setV, hk, List.getElem?_map, Option.map_map]
  cases pay <;> rfl

/-! ### VUNIQ (R155) -/

/-- The heads among the active positions from i on, where the positions before it end in the key `prev`. -/
theorem runHeads_from (s : State) (o : OpV4) (i k : Nat) :
    runHeads (s.vreg o.a.toNat) (vtSew s.slot.vtype) ((activeBelow s o.msk i).getLast?.map (elem (s.vreg o.a.toNat) (vtSew s.slot.vtype)))
      ((List.range' i k).filter (fun e => (s.mreg o.msk.toNat).getLsbD e)) =
    ((List.range' i k).filter (fun e => (s.mreg o.msk.toNat).getLsbD e)).filter (runHead s o) := by
  induction k generalizing i with
  | zero => rfl
  | succ k ih =>
    rw [List.range'_succ]
    have hnext := ih (i + 1)
    rw [activeBelow_succ] at hnext
    cases ha : (s.mreg o.msk.toNat).getLsbD i
    case false => simpa [ha] using hnext
    case true =>
      have hhead : runHead s o i = !((activeBelow s o.msk i).getLast?.map (elem (s.vreg o.a.toNat) (vtSew s.slot.vtype)) ==
          some (elem (s.vreg o.a.toNat) (vtSew s.slot.vtype) i)) := by
        unfold runHead
        cases (activeBelow s o.msk i).getLast? <;> simp [bne]
      simp only [ha, if_true, List.getLast?_append, List.getLast?_singleton, Option.some_or, Option.map_some] at hnext
      rw [List.filter_cons, if_pos ha, List.filter_cons, hhead, runHeads]
      by_cases hp : (activeBelow s o.msk i).getLast?.map (elem (s.vreg o.a.toNat) (vtSew s.slot.vtype)) =
          some (elem (s.vreg o.a.toNat) (vtSew s.slot.vtype) i)
      · simp only [hp, if_true, hnext]; simp
      · simp only [hp, if_false, hnext]; simp [hp]
theorem runHeads_eq (s : State) (o : OpV4) (n : Nat) :
    runHeads (s.vreg o.a.toNat) (vtSew s.slot.vtype) none (activeBelow s o.msk n) = runHeadsBelow s o n := by
  have h := runHeads_from s o 0 n
  rw [← List.range_eq_range'] at h
  exact h
/-- The step of VUNIQ. -/
def vuniqStep (o : OpV4) (w n : Nat) (m : MReg) : Run1 := fun _ s =>
  let a := s.vreg o.a.toNat
  let hs := runHeads a w none (actives m n)
  .ok ((s.setV o.d.toNat (mapElems (s.vreg o.d.toNat) w (fun i => (hs[i]?).map (elem a w)) n)).setM o.c.toNat
    (maskOf n (fun i => hs.contains i)))
theorem effVuniq_eq (o : OpV4) : effVuniq o = vecEff o.len o.msk (vuniqStep o) := rfl
/-- The keys of the heads, compacted. -/
def headKeys (s : State) (o : OpV4) (n : Nat) : VReg :=
  fromPositions (s.vreg o.d.toNat) (vtSew s.slot.vtype) n (runHeadsBelow s o n) (elem (s.vreg o.a.toNat) (vtSew s.slot.vtype))
/-- The register files after VUNIQ. -/
def uniqFiles (s : State) (o : OpV4) (n : Nat) : Files :=
  let f := popF s.core.f o.len
  let g : Files := { f with v := f.v.setIfInBounds o.d.toNat (headKeys s o n) }
  if o.c.toNat = 0 then g else { g with m := g.m.setIfInBounds o.c.toNat (maskOf n (fun i => (runHeadsBelow s o n).contains i)) }
theorem vuniqStep_works (o : OpV4) (s : State) (n : Nat) :
    Works (vuniqStep o) o.len o.msk n s (uniqFiles s o (lengthOf s o.len n)) 0 0 := by
  intro B c e _ _ _
  have hr : runHeads (s.vreg o.a.toNat) (vtSew s.slot.vtype) none (actives (s.mreg o.msk.toNat) (lengthOf s o.len n)) =
      runHeadsBelow s o (lengthOf s o.len n) := runHeads_eq _ _ _
  simp only [vuniqStep, working_vreg, popF_vreg, working_setV, working_setM, hr]
  rfl

/-- A mask that a command wrote (R48). -/
theorem maskResult_of {s t : State} {d n : Nat} {p : Nat → Bool} {g : Files} (hd : d < 8) (hf : t.core.f = if d = 0 then g else
    { g with m := g.m.setIfInBounds d (maskOf n p) }) (hg : g.m = s.core.f.m) : MaskResult s t d n (fun k => p k = true) := by
  unfold MaskResult
  split
  · next h => rw [hf, if_pos h, hg]
  · next h =>
    intro k hk
    rw [State.mreg, if_neg h, hf, if_neg h, getD_setIfInBounds _ _ _ _ _ hd, if_pos rfl]
    have := flag_maskOf n p k hk
    rw [flag] at this
    simp [this]

/-- R154, R155. -/
theorem sortsAndRuns : SortsAndRuns := by
  constructor
  · intro s i o n pay hq hn hi hwf
    have hcd : pay = true → o.d.toNat ≠ o.c.toNat := by
      rintro rfl h
      rcases hi with ⟨-, h0⟩ | ⟨rfl, -⟩
      · exact Bool.noConfusion h0
      · have : o.d = o.c := BitVec.eq_of_toNat_eq h
        simp [Instr.WellFormed, Instr.defect, firstOf, this] at hwf
    obtain ⟨t, ht, hrun⟩ : ∃ u, exec i s = .next u ∧ FilesRun .vec i o.len (sortedFiles s o pay (lengthOf s o.len n)) 0 0 s u := by
      rcases hi with ⟨rfl, rfl⟩ | ⟨rfl, rfl⟩
      · obtain ⟨t, ht, h⟩ := v4_runs (i := .vsortk o) (wr := [.v o.d.toNat]) rfl hq hn (sortStep_works o false s n)
        exact ⟨t, ht, h⟩
      · obtain ⟨t, ht, h⟩ := v4_runs (i := .vsortkP o) (wr := [.v o.d.toNat, .v o.c.toNat]) rfl hq hn (sortStep_works o true s n)
        exact ⟨t, ht, h⟩
    have hlen : (sortOrder s o (lengthOf s o.len n)).length ≤ lengthOf s o.len n :=
      (sortedPositions_perm _ _ _).length_eq.trans_le (length_activeBelow_le _ _ _)
    have hd : t.vreg o.d.toNat = sortedKeys s o (lengthOf s o.len n) := by
      rw [hrun.vreg, sortedFiles]
      cases pay
      case false => simp only [Bool.false_eq_true, if_false, getD_setIfInBounds _ _ _ _ _ o.d.isLt, if_true]
      case true => simp only [if_true, getD_setIfInBounds _ _ _ _ _ o.c.isLt, if_neg (hcd rfl), getD_setIfInBounds _ _ _ _ _ o.d.isLt]
    have hframe : FilesFrame s.core.f (sortedFiles s o pay (lengthOf s o.len n)) (if pay then [o.d.toNat, o.c.toNat] else [o.d.toNat])
        [] [] [] [] o.len := by
      cases pay
      case false => exact (FilesFrame.popF _ _ _ _ _ _ _).setV _ (by simp)
      case true => exact ((FilesFrame.popF _ _ _ _ _ _ _).setV _ (by simp)).setV _ (by simp)
    refine ⟨t, ht, hrun.frame hframe, hrun.advanced, hrun.status_same, sortOrder s o (lengthOf s o.len n), sortedPositions_perm _ _ _,
      sortedPositions_pairwise _ _ (activeBelow_pairwise _ _ _), fun e he => ⟨?_, fun hpay => ?_⟩⟩
    · rw [hd, sortedKeys, elem_fromPositions _ he hlen (fun _ => elem_lt _ _ _)]
      cases (sortOrder s o (lengthOf s o.len n))[e]? <;> rfl
    · subst hpay
      have hc : t.vreg o.c.toNat = sortedPayloads s o (lengthOf s o.len n) := by
        rw [hrun.vreg, sortedFiles]
        simp only [if_true, getD_setIfInBounds _ _ _ _ _ o.c.isLt]
      rw [hc, sortedPayloads, elem_fromPositions _ he hlen (fun _ => elem_lt _ _ _)]
      cases (sortOrder s o (lengthOf s o.len n))[e]? <;> rfl
  · intro s o n hq hwf hn
    have hc : o.c.toNat < 8 := by
      by_contra h
      have : 8 ≤ o.c.toNat := by omega
      simp [Instr.WellFormed, Instr.defect, firstOf, this] at hwf
    obtain ⟨t, ht, hrun⟩ := v4_runs (i := .vuniq o) (wr := [.v o.d.toNat, .m o.c.toNat]) rfl hq hn (vuniqStep_works o s n)
    refine ⟨t, ht, hrun.frame (((FilesFrame.popF _ _ _ _ _ _ _).setV _ (by simp)).setM _ (by simp)), hrun.advanced, hrun.status_same, ?_, fun e he => ?_⟩
    · have h := maskResult_of hc hrun.files (popF_v _ _).2.1
      simpa using h
    · have hlen : (runHeadsBelow s o (lengthOf s o.len n)).length ≤ lengthOf s o.len n :=
        (List.length_filter_le _ _).trans (length_activeBelow_le _ _ _)
      have hd : t.vreg o.d.toNat = headKeys s o (lengthOf s o.len n) := by
        rw [hrun.vreg, uniqFiles]
        split <;> simp only [getD_setIfInBounds _ _ _ _ _ o.d.isLt, if_true]
      rw [hd, headKeys, elem_fromPositions _ he hlen (fun _ => elem_lt _ _ _)]
      cases (runHeadsBelow s o (lengthOf s o.len n))[e]? <;> rfl

/-- Settles O12: each family's step works on the register files in a quiet core, and what it leaves is read back element by element. -/
theorem reductionsScansAndSorts : Obligations.ReductionsScansAndSorts :=
  ⟨integerReductions, floatReductions, scansAndSegments, sortsAndRuns⟩

end Sys2Proof.Machine
end

section
/-! SUPPORT. Residue arithmetic (R29 to R32, R195 to R199). -/

namespace Sys2Proof.Machine

/-! ### Residues in integers (R30, R31) -/

theorem reduceQ_eq (q a : Nat) : reduceQ q a = (a % q, b2n (decide (q ≤ a))) := by
  unfold reduceQ
  split
  · next h => simp [b2n, h]
  · next h => simp [b2n, h, Nat.mod_eq_of_lt (Nat.lt_of_not_le h)]
theorem addQ_mod_left (q a b : Nat) : addQ q (a % q) b = (a + b) % q := Nat.mod_add_mod a q b
theorem addQ_mod (q a b : Nat) : addQ q (a % q) (b % q) = (a + b) % q := (Nat.add_mod a b q).symm
theorem subQ_mod_left (q a b : Nat) : subQ q (a % q) b = (((a : Int) - b) % (q : Int)).toNat := by
  rw [subQ, Int.natCast_emod, Int.emod_sub_emod]
theorem subQ_mod (q a b : Nat) : subQ q (a % q) (b % q) = (((a : Int) - b) % (q : Int)).toNat := by
  rw [subQ_mod_left, Int.natCast_emod, Int.sub_emod_emod]
theorem unsgn_eq_encoded (w : Nat) (z : Int) : unsgn w z = encoded w z := by
  rw [unsgn, encoded, BitVec.toNat_ofInt]
theorem sumLanes_eq (s : State) (msk : BitVec 3) (f : Nat → Nat) (n : Nat) :
    sumLanes (s.mreg msk.toNat) f n = ((activeBelow s msk n).map f).sum := by
  induction n with
  | zero => rfl
  | succ n ih =>
    rw [sumLanes, ih, activeBelow_succ, flag]
    split <;> simp [Nat.add_comm]
theorem vtSewCode_eq_two_iff (vt : Word) : vtSewCode vt = 2 ↔ vtSew vt = 32 := by
  have h : vtSewCode vt < 4 := fld_lt vt 0 2
  unfold vtSew
  interval_cases vtSewCode vt <;> simp

/-! ### What a modular form leaves -/

/-- STATUS after a command that reduced n operands (R30, R62). -/
theorem FilesRun.residueCount {e : Engine} {i : Instr} {len : BitVec 3} {g : Files} {n : Nat} {s u : State}
    (h : FilesRun e i len g (if n = 0 then 0 else fMOD) n s u) : ResidueCount s u n := by
  refine ⟨by rw [h.status]; exact fld_statusWith_count _ _ _, fun k hk => ?_⟩
  rw [h.status, getLsbD_statusWith hk]
  by_cases h0 : n = 0 <;> simp [h0]
/-- The lanes of a masked write of a vector register (R49). -/
theorem laneResult_of {s t : State} {d w n : Nat} {msk : BitVec 3} {f : Nat → Nat}
    (h : t.vreg d = maskedWrite (s.vreg d) w (s.mreg msk.toNat) n f) : LaneResult s t d w n msk f := by
  intro e he
  rw [h, elem_maskedWrite _ _ _ _ _ _ (elem_fits he)]
  rfl
/-- What a modular form enqueues. -/
def modTicket (o : OpV4) (i : Instr) (rd wr : List Res) : Ticket :=
  { eng := .vec, ins := i, lens := [o.len], rd := .m o.msk.toNat :: .v o.a.toNat :: rd, wr := wr }
theorem modForm_eq {o : OpV4} {i : Instr} {rd wr : List Res} {eff : Run1} {s : State} (h : vtSew s.slot.vtype = 32) :
    modForm o i rd wr eff s = engine (modTicket o i rd wr) eff s := if_neg (by simpa using (vtSewCode_eq_two_iff _).mpr h)
theorem modForm_traps {o : OpV4} {i : Instr} {rd wr : List Res} {eff : Run1} {s : State} (he : exec i s = modForm o i rd wr eff s)
    (h : vtSew s.slot.vtype ≠ 32) : Traps i true 0x01 0x08 s.slot.pc s :=
  traps_of (he.trans (if_pos (fun h2 => h ((vtSewCode_eq_two_iff _).mp h2)))) (by decide) (by decide)

/-- The step of an element-wise modular form. -/
def modStep (o : OpV4) (f : Cmd → State → Nat → Nat × Nat) (_ n : Nat) (m : MReg) : Run1 := fun c s =>
  let g := f c s
  let s := s.setV o.d.toNat (maskedWrite (s.vreg o.d.toNat) 32 m n (fun i => (g i).1))
  .ok (s.reduced c (sumLanes m (fun i => (g i).2) n))
theorem modEff_eq (o : OpV4) (f : Cmd → State → Nat → Nat × Nat) : modEff o f = vecEff o.len o.msk (modStep o f) := rfl
/-- The lanes of a modular form: under the modulus q, in the register files that a command of s finds, lane k gives `res k` and has
reduced `cnt k` operands. -/
def GivesResidues (o : OpV4) (s : State) (q : Nat) (f : Cmd → State → Nat → Nat × Nat) (res cnt : Nat → Nat) : Prop :=
  ∀ (B : Core) (c e : Cmd) (k : Nat), c.modq = q → f c (working s B e (popF s.core.f o.len) 0 0) k = (res k, cnt k)
theorem modStep_works {o : OpV4} {s : State} {f : Cmd → State → Nat → Nat × Nat} {res cnt : Nat → Nat} {n r : Nat}
    (hf : GivesResidues o s (fld s.core.f.modq 0 32) f res cnt) (hr : r = ((activeBelow s o.msk (lengthOf s o.len n)).map cnt).sum) :
    Works (modStep o f) o.len o.msk n s { popF s.core.f o.len with
      v := (popF s.core.f o.len).v.setIfInBounds o.d.toNat (maskedWrite (s.vreg o.d.toNat) 32 (s.mreg o.msk.toNat) (lengthOf s o.len n) res) }
      (if r = 0 then 0 else fMOD) r := by
  intro B c e _ hm hqp
  simp only [modStep, hf _ _ _ _ hm, working_vreg, popF_vreg, working_setV, working_reduced _ _ _ _ _ _ hqp, sumLanes_eq, ← hr, Nat.zero_or,
    Nat.zero_add]
/-- AN ELEMENT-WISE MODULAR FORM IN A QUIET CORE (R30, R195). -/
theorem mod_runs {o : OpV4} {i : Instr} {rd wr : List Res} {s : State} {f : Cmd → State → Nat → Nat × Nat} {res cnt : Nat → Nat} {n : Nat}
    (he : exec i s = modForm o i rd wr (modEff o f) s) (hi : waitsForNothing i = true) (hq : s.Quiet) (hn : LenIs s o.len n)
    (hsew : vtSew s.slot.vtype = 32) (hf : GivesResidues o s (fld s.core.f.modq 0 32) f res cnt) :
    Runs i s (fun t => EngineFrame .vec i [o.d.toNat] [] [] [] [] o.len s t ∧ Advanced s t ∧
      ResidueCount s t ((activeBelow s o.msk (lengthOf s o.len n)).map cnt).sum ∧ LaneResult s t o.d.toNat 32 (lengthOf s o.len n) o.msk res) := by
  obtain ⟨t, ht, hrun⟩ := vecEff_runs (t := modTicket o i rd wr) hq rfl rfl hn hi rfl (modStep_works hf rfl)
  refine ⟨t, he.trans ((modForm_eq hsew).trans ht), hrun.frame ((FilesFrame.popF _ _ _ _ _ _ _).setV _ (by simp)), hrun.advanced,
    hrun.residueCount, laneResult_of ?_⟩
  rw [hrun.vreg, getD_setIfInBounds _ _ _ _ _ o.d.isLt, if_pos rfl]

/-! ### NBFY (R196) -/

/-- The step of NBFY. -/
def nbfyStep (o : OpV4) (_ n : Nat) (m : MReg) : Run1 := fun c s =>
  let q := c.modq
  let va := s.vreg o.a.toNat
  let vc := s.vreg o.c.toNat
  let w := s.wreg o.b.toNat
  let a := fun i => resOf q va i
  let x := fun i => resOf q vc i
  let t := fun i => twMul q (x i).1 w i
  let d := o.d.toNat
  let s := s.setV d (maskedWrite (s.vreg d) 32 m n (fun i => addQ q (a i).1 (t i)))
  let s := s.setV (d + 1) (maskedWrite (s.vreg (d + 1)) 32 m n (fun i => subQ q (a i).1 (t i)))
  .ok (s.reduced c (sumLanes m (fun i => (a i).2 + (x i).2) n))
theorem effNbfy_eq (o : OpV4) : effNbfy o = vecEff o.len o.msk (nbfyStep o) := rfl
theorem nbfyStep_works {o : OpV4} {s : State} {n q r : Nat} {sum dif cnt : Nat → Nat} (hm : q = fld s.core.f.modq 0 32)
    (hsum : ∀ k, addQ q (resOf q (s.vreg o.a.toNat) k).1 (twMul q (resOf q (s.vreg o.c.toNat) k).1 (s.wreg o.b.toNat) k) = sum k)
    (hdif : ∀ k, subQ q (resOf q (s.vreg o.a.toNat) k).1 (twMul q (resOf q (s.vreg o.c.toNat) k).1 (s.wreg o.b.toNat) k) = dif k)
    (hcnt : ∀ k, (resOf q (s.vreg o.a.toNat) k).2 + (resOf q (s.vreg o.c.toNat) k).2 = cnt k)
    (hr : r = ((activeBelow s o.msk (lengthOf s o.len n)).map cnt).sum) :
    Works (nbfyStep o) o.len o.msk n s { popF s.core.f o.len with
      v := ((popF s.core.f o.len).v.setIfInBounds o.d.toNat
          (maskedWrite (s.vreg o.d.toNat) 32 (s.mreg o.msk.toNat) (lengthOf s o.len n) sum)).setIfInBounds (o.d.toNat + 1)
          (maskedWrite (s.vreg (o.d.toNat + 1)) 32 (s.mreg o.msk.toNat) (lengthOf s o.len n) dif) }
      (if r = 0 then 0 else fMOD) r := by
  intro B c e _ hc hqp
  rw [← hm] at hc
  simp only [nbfyStep, hc, working_vreg, working_wreg, popF_vreg, popF_wreg, hsum, hdif, hcnt, working_setV,
    getD_setIfInBounds _ _ _ _ _ o.d.isLt, if_neg (Nat.succ_ne_self _), working_reduced _ _ _ _ _ _ hqp, sumLanes_eq, ← hr, Nat.zero_or,
    Nat.zero_add]
  rw [popF_vreg]

theorem nbfy_runs {o : OpV4} {s : State} {n q : Nat} {sum dif cnt : Nat → Nat} (hq : s.Quiet) (hn : LenIs s o.len n)
    (hsew : vtSew s.slot.vtype = 32) (hd : o.d.toNat + 1 < 64) (hm : q = fld s.core.f.modq 0 32)
    (hsum : ∀ k, addQ q (resOf q (s.vreg o.a.toNat) k).1 (twMul q (resOf q (s.vreg o.c.toNat) k).1 (s.wreg o.b.toNat) k) = sum k)
    (hdif : ∀ k, subQ q (resOf q (s.vreg o.a.toNat) k).1 (twMul q (resOf q (s.vreg o.c.toNat) k).1 (s.wreg o.b.toNat) k) = dif k)
    (hcnt : ∀ k, (resOf q (s.vreg o.a.toNat) k).2 + (resOf q (s.vreg o.c.toNat) k).2 = cnt k) :
    Runs (.nbfy o) s (fun t => EngineFrame .vec (.nbfy o) [o.d.toNat, o.d.toNat + 1] [] [] [] [] o.len s t ∧ Advanced s t ∧
      ResidueCount s t ((activeBelow s o.msk (lengthOf s o.len n)).map cnt).sum ∧ LaneResult s t o.d.toNat 32 (lengthOf s o.len n) o.msk sum ∧
      LaneResult s t (o.d.toNat + 1) 32 (lengthOf s o.len n) o.msk dif) := by
  obtain ⟨t, ht, hrun⟩ := vecEff_runs (t := modTicket o (.nbfy o) [.v o.c.toNat, .w o.b.toNat] [.v o.d.toNat, .v (o.d.toNat + 1)])
    hq rfl rfl hn rfl rfl (nbfyStep_works hm hsum hdif hcnt rfl)
  refine ⟨t, (modForm_eq hsew).trans ht, hrun.frame (((FilesFrame.popF _ _ _ _ _ _ _).setV _ (by simp)).setV _ (by simp)), hrun.advanced,
    hrun.residueCount, laneResult_of ?_, laneResult_of ?_⟩
  · rw [hrun.vreg, getD_setIfInBounds _ _ _ _ _ hd, if_neg (Nat.succ_ne_self _).symm, getD_setIfInBounds _ _ _ _ _ o.d.isLt, if_pos rfl]
  · rw [hrun.vreg, getD_setIfInBounds _ _ _ _ _ hd, if_pos rfl]

/-! ### The lanes of R195 and R196 in integers -/

theorem modularLanes (s : State) (i : Instr) (o : OpV4) (l : List (Nat × (Nat → Nat))) (k : Nat → Nat) (q n : Nat) (hq : s.Quiet)
    (hl : residueLane s q i = some (o, l, k)) (hwf : i.WellFormed) (hm : q = fld s.core.f.modq 0 32)
    (hn : LenIs s o.len n) :
    (vtSew s.slot.vtype ≠ 32 → Traps i true 0x01 0x08 s.slot.pc s) ∧
    (vtSew s.slot.vtype = 32 →
      Runs i s (fun t => EngineFrame .vec i (l.map (·.1)) [] [] [] [] o.len s t ∧ Advanced s t ∧
        ResidueCount s t ((activeBelow s o.msk (lengthOf s o.len n)).map k).sum ∧
        ∀ x ∈ l, LaneResult s t x.1 32 (lengthOf s o.len n) o.msk x.2)) := by
  have hred : ∀ v e, resOf q v e = (elem v 32 e % q, b2n (decide (q ≤ elem v 32 e))) := fun v e => reduceQ_eq q _
  have one : ∀ {i : Instr} {o : OpV4} {rd wr : List Res} {f : Cmd → State → Nat → Nat × Nat} {res cnt : Nat → Nat},
      exec i s = modForm o i rd wr (modEff o f) s → waitsForNothing i = true → LenIs s o.len n → GivesResidues o s q f res cnt →
      (vtSew s.slot.vtype ≠ 32 → Traps i true 0x01 0x08 s.slot.pc s) ∧
      (vtSew s.slot.vtype = 32 →
        Runs i s (fun t => EngineFrame .vec i ([(o.d.toNat, res)].map (·.1)) [] [] [] [] o.len s t ∧ Advanced s t ∧
          ResidueCount s t ((activeBelow s o.msk (lengthOf s o.len n)).map cnt).sum ∧
          ∀ x ∈ [(o.d.toNat, res)], LaneResult s t x.1 32 (lengthOf s o.len n) o.msk x.2)) := by
    intro i o rd wr f res cnt he hi hn hf
    refine ⟨modForm_traps he, fun hsew => ?_⟩
    obtain ⟨t, ht, hframe, hadv, hcount, hlane⟩ := mod_runs he hi hq hn hsew (hm ▸ hf)
    exact ⟨t, ht, hframe, hadv, hcount, by simpa using hlane⟩
  unfold residueLane at hl
  split at hl <;> cases hl
  case h_1 => exact one rfl rfl hn (fun B c e k hc => by simp only [hc, working_vreg, popF_vreg, hred, addQ_mod])
  case h_2 => exact one rfl rfl hn (fun B c e k hc => by simp only [hc, working_vreg, popF_vreg, hred, subQ_mod])
  case h_3 => exact one rfl rfl hn (fun B c e k hc => by simp only [hc, working_vreg, popF_vreg, hred, ← Nat.mul_mod])
  case h_4 => exact one rfl rfl hn (fun B c e k hc => by simp only [hc, working_vreg, popF_vreg, working_wreg, popF_wreg, hred])
  case h_5 _ =>
    refine ⟨modForm_traps rfl, fun hsew => ?_⟩
    have hd : o.d.toNat + 1 < 64 := by
      by_contra h
      have : 63 ≤ o.d.toNat := by omega
      simp [Instr.WellFormed, Instr.defect, firstOf, this] at hwf
    obtain ⟨t, ht, hframe, hadv, hcount, hsum, hdif⟩ := nbfy_runs hq hn hsew hd hm
      (sum := fun e => (elem (s.vreg o.a.toNat) 32 e + twMul q (elem (s.vreg o.c.toNat) 32 e % q) (s.wreg o.b.toNat) e) % q)
      (dif := fun e =>
        (((elem (s.vreg o.a.toNat) 32 e : Int) - twMul q (elem (s.vreg o.c.toNat) 32 e % q) (s.wreg o.b.toNat) e) % (q : Int)).toNat)
      (cnt := fun e => b2n (q ≤ elem (s.vreg o.a.toNat) 32 e) + b2n (q ≤ elem (s.vreg o.c.toNat) 32 e))
      (fun k => by simp only [hred, addQ_mod_left]) (fun k => by simp only [hred, subQ_mod_left]) (fun k => by simp only [hred])
    exact ⟨t, ht, hframe, hadv, hcount, by simpa using ⟨hsum, hdif⟩⟩
  case h_6 => exact one rfl rfl hn (fun B c e k hc => by simp only [hc, working_vreg, popF_vreg, sgn_eq_signedElem])
  case h_7 => exact one rfl rfl hn (fun B c e k hc => by simp only [hc, working_vreg, popF_vreg, hred, unsgn_eq_encoded])

end Sys2Proof.Machine
end

section
/-! SUPPORT. Joined residues (R197), the modulus and the bound (R198, R199), complex products (R200). -/

namespace Sys2Proof.Machine

/-! ### NCRT (R197) -/

/-- The test of a modulus (R29). -/
theorem legalModulus_iff (q : Nat) : (q % 2 == 1 && decide (3 ≤ q) && decide (q < 2 ^ 31)) = true ↔ legalModulus q := by
  simp [legalModulus, and_assoc]
/-- The number below q1 * q2, in signed form, whose residues are a and b, where u is the inverse of q1 under q2 (R197). -/
def crtOf (q1 q2 u a b : Nat) : Nat :=
  let d := ((b : Int) - a) % q2 |>.toNat
  let y : Int := (a + q1 * (d * u % q2) : Nat)
  unsgn 64 (if ((q1 * q2 : Nat) : Int) - 1 < 2 * y then y - (q1 * q2 : Nat) else y)
/-- The step of NCRT. -/
def ncrtStep (o : OpV4) (_ n : Nat) (m : MReg) : Run1 := fun c s => do
  let q1 := c.modq
  let vc := s.vreg o.c.toNat
  let q2 := elem vc 32 0
  let u := elem vc 32 1
  need (q2 % 2 == 1 && decide (3 ≤ q2) && decide (q2 < 2 ^ 31) && q2 != q1) (Trap.opndAt 0x04 q2) (s.unpop c)
  need (decide (n ≤ 64)) (Trap.opndAt 0x05 n) (s.unpop c)
  let va := s.vreg o.a.toNat
  let vb := s.vreg o.b.toNat
  let a := fun i => resOf q1 va i
  let b := fun i => resOf q2 vb i
  let s := s.setV o.d.toNat (maskedWrite (s.vreg o.d.toNat) 64 m n (fun i => crtOf q1 q2 u (a i).1 (b i).1))
  pure (s.reduced c (sumLanes m (fun i => (a i).2 + (b i).2) n))
theorem effNcrt_eq (o : OpV4) : effNcrt o = vecEff o.len o.msk (ncrtStep o) := rfl
/-- How many operands lane k of NCRT reduces. -/
def joinedCount (s : State) (o : OpV4) (q p k : Nat) : Nat := (resOf q (s.vreg o.a.toNat) k).2 + (resOf p (s.vreg o.b.toNat) k).2

theorem ncrtStep_works {o : OpV4} {s : State} {n q p u r : Nat} (hm : q = fld s.core.f.modq 0 32) (hp : p = elem (s.vreg o.c.toNat) 32 0)
    (hu : u = elem (s.vreg o.c.toNat) 32 1) (hlegal : legalModulus p) (hne : p ≠ q) (h64 : lengthOf s o.len n ≤ 64)
    (hr : r = ((activeBelow s o.msk (lengthOf s o.len n)).map (joinedCount s o q p)).sum) :
    Works (ncrtStep o) o.len o.msk n s { popF s.core.f o.len with
      v := (popF s.core.f o.len).v.setIfInBounds o.d.toNat (maskedWrite (s.vreg o.d.toNat) 64 (s.mreg o.msk.toNat) (lengthOf s o.len n)
        (fun k => crtOf q p u (resOf q (s.vreg o.a.toNat) k).1 (resOf p (s.vreg o.b.toNat) k).1)) }
      (if r = 0 then 0 else fMOD) r := by
  intro B c e _ hc hqp
  have hgood : (p % 2 == 1 && decide (3 ≤ p) && decide (p < 2 ^ 31) && p != q) = true := by
    rw [(legalModulus_iff p).mpr hlegal, Bool.true_and]
    exact bne_iff_ne.mpr hne
  have hlen : decide (lengthOf s o.len n ≤ 64) = true := decide_eq_true h64
  rw [← hm] at hc
  simp only [ncrtStep, hc, working_vreg, popF_vreg, ← hp, ← hu, hgood, hlen, need_true, working_setV, working_reduced _ _ _ _ _ _ hqp]
  rw [sumLanes_eq s o.msk (fun i => (resOf q (s.vreg o.a.toNat) i).2 + (resOf p (s.vreg o.b.toNat) i).2)]
  change _ = Except.ok (working s B e _ (if r = 0 then 0 else fMOD) r)
  rw [hr, Nat.zero_or, Nat.zero_add]
  rfl

theorem joinsResidues (s : State) (o : OpV4) (q p v n : Nat) (hq : s.Quiet) (hsew : vtSew s.slot.vtype = 32)
    (hm : q = fld s.core.f.modq 0 32) (hp : p = elem (s.vreg o.c.toNat) 32 0) (hv : v = elem (s.vreg o.c.toNat) 32 1)
    (hlegal : legalModulus p) (hne : p ≠ q) (hn : LenIs s o.len n) (h64 : lengthOf s o.len n ≤ 64) :
    Runs (.ncrt o) s (fun t => EngineFrame .vec (.ncrt o) [o.d.toNat] [] [] [] [] o.len s t ∧ Advanced s t ∧
      ResidueCount s t ((activeBelow s o.msk (lengthOf s o.len n)).map (fun e =>
        b2n (q ≤ elem (s.vreg o.a.toNat) 32 e) + b2n (p ≤ elem (s.vreg o.b.toNat) 32 e))).sum ∧
      ∀ e, e < 64 → elem (t.vreg o.d.toNat) 64 e =
        (if e < lengthOf s o.len n ∧ (s.mreg o.msk.toNat).getLsbD e = true then
          (let a := elem (s.vreg o.a.toNat) 32 e % q
           let d := (((elem (s.vreg o.b.toNat) 32 e % p : Nat) - (a : Int)) % (p : Int)).toNat
           let x : Int := (a + q * (d * v % p) : Nat)
           encoded 64 (if ((q * p : Nat) - 1 : Int) < 2 * x then x - (q * p : Nat) else x))
         else elem (s.vreg o.d.toNat) 64 e)) := by
  obtain ⟨t, ht, hrun⟩ := vecEff_runs (t := modTicket o (.ncrt o) [.v o.b.toNat, .v o.c.toNat] [.v o.d.toNat])
    hq rfl rfl hn rfl rfl (ncrtStep_works hm hp hv hlegal hne h64 rfl)
  have hcount : joinedCount s o q p = fun e => b2n (q ≤ elem (s.vreg o.a.toNat) 32 e) + b2n (p ≤ elem (s.vreg o.b.toNat) 32 e) := by
    funext e
    simp only [joinedCount, resOf, reduceQ_eq]
  refine ⟨t, (modForm_eq hsew).trans ht, hrun.frame ((FilesFrame.popF _ _ _ _ _ _ _).setV _ (by simp)), hrun.advanced,
    hcount ▸ hrun.residueCount, fun e he => ?_⟩
  rw [hrun.vreg, getD_setIfInBounds _ _ _ _ _ o.d.isLt, if_pos rfl, elem_maskedWrite _ _ _ _ _ _ (by omega)]
  simp only [crtOf, resOf, reduceQ_eq, unsgn_eq_encoded, flag]
  split
  · exact Nat.mod_eq_of_lt (BitVec.isLt _)
  · rfl

/-! ### NMODSET and NCHK (R198, R199) -/

/-- A form that completes with a state whose threads are as before leaves them so, but for the address (R46). -/
theorem retire_frames {s : State} (h : s.Free) : Advanced s s.retire ∧ ScalarFrame 0 s s.retire := by
  obtain ⟨t, ht, hres⟩ := plain_runs h
  rw [commit_ok (f := Except.ok) rfl] at ht
  cases ht
  exact hres

theorem exec_nmodset (s : State) (o : OpA2) (h : legalModulus (s.g o.a).toNat) :
    exec (.nmodset o) s = .next (s.modF (fun f => { f with modq := s.g o.a })).retire := by
  refine commit_ok (f := fun s => do
    need ((s.g o.a).toNat % 2 == 1 && decide (3 ≤ (s.g o.a).toNat) && decide ((s.g o.a).toNat < 2 ^ 31)) (Trap.opnd 0x04) s
    pure (s.modF (fun f => { f with modq := word (s.g o.a).toNat }))) ?_
  simp only [(legalModulus_iff _).mpr h, need_true, word, BitVec.ofNat_toNat, BitVec.setWidth_eq]
  rfl
theorem setsModulus (s : State) (o : OpA2) :
    (s.Free → legalModulus (s.g o.a).toNat →
      Runs (.nmodset o) s (fun t => Advanced s t ∧ ScalarFrame 0 (s.modF (fun f => { f with modq := s.g o.a })) t)) ∧
    (¬legalModulus (s.g o.a).toNat → Traps (.nmodset o) true 0x03 0x04 s.slot.pc s) := by
  constructor
  · intro hfree hq
    have hslot : (s.modF (fun f => { f with modq := s.g o.a })).slot = s.slot := by
      rw [State.slot, State.modF, State.modCore_eq, State.core_setCore]
      rfl
    obtain ⟨hadv, hframe⟩ := retire_frames (s := s.modF (fun f => { f with modq := s.g o.a })) (by simpa [State.Free, hslot] using hfree)
    refine ⟨_, exec_nmodset s o hq, ?_, hframe⟩
    unfold Advanced at hadv ⊢
    rwa [hslot] at hadv
  · intro hq
    refine traps_of (code := 0x03) (sub := 0x04) (Eq.trans (b := execNmodset o s) rfl (commit_trap ?_)) (by decide) (by decide)
    simp only [Bool.eq_false_iff.mpr (mt (legalModulus_iff _).mp hq), need_false]
    rfl

/-- The two tests of NCHK (R32): factors below 2^32, and a product below half of the modulus. -/
def nchkTests (s : State) (o : OpA2) : M State := do
  need (decide ((s.g o.a).toNat < 2 ^ 32) && decide ((s.g o.b).toNat < 2 ^ 32)) (Trap.opnd 0x04) s
  need (decide (2 * ((s.g o.d).toNat * (s.g o.a).toNat * (s.g o.b).toNat) < fld s.core.f.modq 0 32 - 1)) { code := 0x0D, sub := 0 } s
  pure s
theorem exec_nchk (s : State) (o : OpA2) : exec (.nchk o) s = commit s (nchkTests · o) := rfl
theorem factors_iff (s : State) (o : OpA2) : (decide ((s.g o.a).toNat < 2 ^ 32) && decide ((s.g o.b).toNat < 2 ^ 32)) = true ↔
    (s.g o.a).toNat < 2 ^ 32 ∧ (s.g o.b).toNat < 2 ^ 32 := by rw [Bool.and_eq_true, decide_eq_true_eq, decide_eq_true_eq]

theorem checksBound (s : State) (o : OpA2) :
    (¬((s.g o.a).toNat < 2 ^ 32 ∧ (s.g o.b).toNat < 2 ^ 32) → Traps (.nchk o) true 0x03 0x04 s.slot.pc s) ∧
    ((s.g o.a).toNat < 2 ^ 32 → (s.g o.b).toNat < 2 ^ 32 → legalModulus (fld s.core.f.modq 0 32) →
      (s.Free → (s.g o.d).toNat * (s.g o.a).toNat * (s.g o.b).toNat < (fld s.core.f.modq 0 32 - 1) / 2 →
        Runs (.nchk o) s (fun t => Advanced s t ∧ ScalarFrame 0 s t)) ∧
      ((fld s.core.f.modq 0 32 - 1) / 2 ≤ (s.g o.d).toNat * (s.g o.a).toNat * (s.g o.b).toNat →
        Traps (.nchk o) true 0x0D 0x00 s.slot.pc s)) := by
  refine ⟨fun h => ?_, fun ha hb hq => ?_⟩
  · refine traps_of (code := 0x03) (sub := 0x04) ((exec_nchk s o).trans (commit_trap ?_)) (by decide) (by decide)
    rw [nchkTests, Bool.eq_false_iff.mpr (mt (factors_iff s o).mp h)]
    rfl
  · obtain ⟨hodd, h3, -⟩ := hq
    have htests : nchkTests s o = (do
        need (decide (2 * ((s.g o.d).toNat * (s.g o.a).toNat * (s.g o.b).toNat) < fld s.core.f.modq 0 32 - 1)) { code := 0x0D, sub := 0 } s
        pure s) := by
      rw [nchkTests, (factors_iff s o).mpr ⟨ha, hb⟩]
      rfl
    refine ⟨fun hfree hlt => ⟨_, (exec_nchk s o).trans (commit_ok ?_), retire_frames hfree⟩, fun hge => ?_⟩
    · rw [htests, decide_eq_true (by omega)]
      rfl
    · refine traps_of (code := 0x0D) (sub := 0x00) ((exec_nchk s o).trans (commit_trap ?_)) (by decide) (by decide)
      rw [htests, decide_eq_false (by omega)]
      rfl

/-- R29 to R32, R195 to R199. -/
theorem residueArithmetic : ResidueArithmetic :=
  ⟨fun s i o l k q n hq hl hwf hm _ hn => modularLanes s i o l k q n hq hl hwf hm hn,
   fun s o q p v n hq _ hsew hm _ hp hv hlegal hne hn h64 => joinsResidues s o q p v n hq hsew hm hp hv hlegal hne hn h64,
   fun s o _ => setsModulus s o, fun s o _ => checksBound s o⟩

/-! ### Complex products (R200) -/

/-- The step of VCMUL and VCMUL.CJ. -/
def cmulStep (o : OpV4) (cj : Bool) (w n : Nat) (m : MReg) : Run1 := fun c s => do
  need (n % 2 == 0) (Trap.opndAt 0x05 n) (s.unpop c)
  let f := fmtOf (vtFmt c.vtype)
  let rm := arithRm (vtRm c.vtype)
  let va := s.vreg o.a.toNat
  let vb := s.vreg o.b.toNat
  let wb := s.wreg o.b.toNat
  let re := fun p => if o.x then fval (fmtOf 1) (elem wb 32 (2 * (p % 128))) else fval f (elem vb w (2 * p))
  let im := fun p =>
    let x := if o.x then fval (fmtOf 1) (elem wb 32 (2 * (p % 128) + 1)) else fval f (elem vb w (2 * p + 1))
    if cj then x.neg else x
  let out : Lanes := fun i =>
    let p := i / 2
    let ar := fval f (elem va w (2 * p))
    let ai := fval f (elem va w (2 * p + 1))
    roundOut f rm (if i % 2 = 0 then sum2 rm ar (re p) ai.neg (im p) else sum2 rm ar (im p) ai (re p))
  let m2 := maskOf n (fun i => flag m (2 * (i / 2)))
  pure (s.putLanes c o.d.toNat w m2 n out)
theorem cmulEff_eq (o : OpV4) (cj : Bool) : cmulEff o cj = vecEff o.len o.msk (cmulStep o cj) := rfl
/-- The positions of the points whose real part is active (R200). -/
def pointMask (m : MReg) (n : Nat) : MReg := maskOf n (fun i => flag m (2 * (i / 2)))
theorem getLsbD_pointMask {m : MReg} {n e : Nat} (hn : n ≤ 512) (he : e < n) : (pointMask m n).getLsbD e = m.getLsbD (2 * (e / 2)) := by
  have h := flag_maskOf n (fun i => flag m (2 * (i / 2))) e (by omega)
  simpa [pointMask, flag, he] using h
/-- Lanes written under a mask, with their flags, by a command at work. -/
theorem working_putLanes (s : State) (B : Core) (c c' : Cmd) (g : Files) (fl mrs d w n : Nat) (m : MReg) (f : Lanes) (h : c'.qpos = c.qpos) :
    (working s B c g fl mrs).putLanes c' d w m n f =
      working s B c { g with v := g.v.setIfInBounds d (maskedWrite (g.v[d]?.getD 0) w m n (fun i => (f i).1)) }
        (fl ||| orFlags m (fun i => (f i).2) n) mrs := by
  rw [State.putLanes, working_setV, working_raise _ _ _ _ _ _ h, working_vreg]

theorem cmulStep_works {o : OpV4} {cj : Bool} {s : State} {n : Nat} (heven : lengthOf s o.len n % 2 = 0) :
    Works (cmulStep o cj) o.len o.msk n s { popF s.core.f o.len with
      v := (popF s.core.f o.len).v.setIfInBounds o.d.toNat (maskedWrite (s.vreg o.d.toNat) (vtSew s.slot.vtype)
        (pointMask (s.mreg o.msk.toNat) (lengthOf s o.len n)) (lengthOf s o.len n) (fun e => (productComponent s o cj e).1)) }
      (orFlags (pointMask (s.mreg o.msk.toNat) (lengthOf s o.len n)) (fun e => (productComponent s o cj e).2) (lengthOf s o.len n)) 0 := by
  intro B c e hvt _ hqp
  have hgood : (lengthOf s o.len n % 2 == 0) = true := by simp [heven]
  simp only [cmulStep, hgood, need_true, hvt, working_vreg, popF_vreg, working_wreg, popF_wreg, working_putLanes _ _ _ _ _ _ _ _ _ _ _ _ hqp,
    Nat.zero_or]
  rfl

/-- What VCMUL and VCMUL.CJ enqueue. -/
def cmulTicket (o : OpV4) (i : Instr) : Ticket :=
  { eng := .vec, ins := i, lens := [o.len],
    rd := [.m o.msk.toNat, .v o.a.toNat, if o.x then .w o.b.toNat else .v o.b.toNat], wr := [.v o.d.toNat] }
theorem cmul_runs (s : State) (i : Instr) (o : OpV4) (cj : Bool) (n : Nat) (he : exec i s = cmulForm o i (cmulEff o cj) s)
    (hw : waitsForNothing i = true) :
    (vtFmt s.slot.vtype = 0 ∨ 3 < vtFmt s.slot.vtype → Traps i true 0x01 0x08 s.slot.pc s) ∧
    (s.Quiet → 1 ≤ vtFmt s.slot.vtype → vtFmt s.slot.vtype ≤ 3 → LenIs s o.len n → lengthOf s o.len n % 2 = 0 →
      lengthOf s o.len n ≤ 512 →
      Runs i s (fun t => EngineFrame .vec i [o.d.toNat] [] [] [] [] o.len s t ∧ Advanced s t ∧
        (∀ e, e < vlmax (vtSew s.slot.vtype) → elem (t.vreg o.d.toNat) (vtSew s.slot.vtype) e =
          if e < lengthOf s o.len n ∧ (s.mreg o.msk.toNat).getLsbD (2 * (e / 2)) = true then
            (productComponent s o cj e).1 % 2 ^ vtSew s.slot.vtype
          else elem (s.vreg o.d.toNat) (vtSew s.slot.vtype) e) ∧
        ∀ k, k < 64 → (t.slot.status.getLsbD k = true ↔ s.slot.status.getLsbD k = true ∨ 41 ≤ k ∧ k < 48 ∧
          ∃ e, e < lengthOf s o.len n ∧ (s.mreg o.msk.toNat).getLsbD (2 * (e / 2)) = true ∧
            (productComponent s o cj e).2.testBit (k - 41) = true))) := by
  constructor
  · intro hfmt
    exact traps_of (code := 0x01) (sub := 0x08) (he.trans (if_pos hfmt)) (by decide) (by decide)
  · intro hq h1 h3 hn heven h512
    obtain ⟨t, ht, hrun⟩ := vecEff_runs (t := cmulTicket o i) hq rfl rfl hn hw rfl (cmulStep_works (cj := cj) heven)
    refine ⟨t, he.trans ((if_neg (by omega)).trans ht), hrun.frame ((FilesFrame.popF _ _ _ _ _ _ _).setV _ (by simp)), hrun.advanced,
      fun e he => ?_, fun k _ => ?_⟩
    · rw [hrun.vreg, getD_setIfInBounds _ _ _ _ _ o.d.isLt, if_pos rfl, elem_maskedWrite _ _ _ _ _ _ (elem_fits he)]
      refine if_congr ?_ rfl rfl
      exact and_congr_right (fun h => by rw [flag, getLsbD_pointMask h512 h])
    · rw [hrun.status, getLsbD_statusWith_flags, testBit_orFlags]
      refine or_congr_right (and_congr_right fun _ => and_congr_right fun _ => exists_congr fun e => and_congr_right fun h => ?_)
      rw [getLsbD_pointMask h512 h]
/-- R200. -/
theorem complexProducts : ComplexProducts := by
  intro s i o cj n _ hi
  rcases hi with ⟨rfl, rfl⟩ | ⟨rfl, rfl⟩
  · exact cmul_runs s (.vcmul o) o false n rfl rfl
  · exact cmul_runs s (.vcmulCj o) o true n rfl rfl

/-- Settles O21, from the modular lanes, the joined residues, the modulus and its bound, and the complex products. -/
theorem residuesAndComplexProducts : Obligations.ResiduesAndComplexProducts :=
  ⟨residueArithmetic, complexProducts⟩

end Sys2Proof.Machine
end

section
/-! SUPPORT. Conversions (R143, R144) and the scales they write (R23), with the draws of stochastic rounding (R34). -/

namespace Sys2Proof.Machine

/-! ### Draws of the generators (R34) -/

/-- A change of the current slot's generators. -/
def State.redraw (s : State) (G : BitVec 16384 → BitVec 16384) : State := s.modSlot (fun x => { x with gens := G x.gens })
theorem redraw_setCore (s : State) (G : BitVec 16384 → BitVec 16384) (K : Core) : s.setCore K = (s.redraw G).setCore K :=
  (State.setCore_setCore _ _ _).symm
theorem slot_redraw (s : State) (G : BitVec 16384 → BitVec 16384) : (s.redraw G).slot = { s.slot with gens := G s.slot.gens } :=
  State.slot_modSlot _ _
theorem core_redraw (s : State) (G : BitVec 16384 → BitVec 16384) :
    (s.redraw G).core = s.core.setSlot s.hi { s.slot with gens := G s.slot.gens } := State.core_setCore _ _
theorem free_redraw {s : State} (h : s.Free) (G : BitVec 16384 → BitVec 16384) : (s.redraw G).Free := by
  rw [State.Free, slot_redraw]
  exact h
/-- The core in which a command executes, where its generators are drawn first. -/
theorem core_of_redraw (t : Ticket) {s : State} (hfree : s.Free) (G : BitVec 16384 → BitVec 16384) (len : BitVec 3) (n : Nat) :
    t.core (s.redraw G) len n = { (t.core s len n).setSlot s.hi { s.retire.slot with gens := G s.slot.gens } with
      queue := [t.cmd (s.redraw G) len n] } := by
  have hst : ((s.redraw G).beginVec t.eng t.ins).core.st = (s.beginVec t.eng t.ins).core.st := by
    obtain ⟨F, hF⟩ := beginVec_modCore t.eng t.ins
    rw [(hF _).1, (hF _).1, core_redraw, Core.setSlot_st]
  rw [Ticket.core, beginVec_core, hst, Ticket.core, beginVec_core s, State.slot_retire (free_redraw hfree G), State.slot_retire hfree,
    slot_redraw, core_redraw]
  change Core.setSlot _ s.hi _ = _
  cases s.hi <;> rfl
/-- The slot of a command at work is the one that has advanced. -/
theorem slot_working (t : Ticket) (s : State) (len : BitVec 3) (n : Nat) (c : Cmd) (g : Files) (fl mrs : Nat) :
    (working s (t.core s len n) c g fl mrs).slot = s.retire.slot := by
  rw [State.slot, working_core, working, State.setCore_hi, Ticket.core]
  cases s.hi <;> rfl
/-- A command at work that draws works on the state whose generators are drawn. -/
theorem working_redraw (t : Ticket) {s : State} (hfree : s.Free) (G : BitVec 16384 → BitVec 16384) (len : BitVec 3) (n : Nat) (c : Cmd)
    (g : Files) (fl mrs : Nat) : (working s (t.core s len n) c g fl mrs).redraw G =
      working (s.redraw G) (t.core (s.redraw G) len n) c g fl mrs := by
  have hgens : s.retire.slot.gens = s.slot.gens := by rw [State.slot_retire hfree]
  rw [State.redraw, State.modSlot, State.setSlot, slot_working, hgens, working_core, working, State.setCore_setCore, State.setCore_hi, working,
    ← redraw_setCore, core_of_redraw t hfree]
  congr 1
  cases s.hi <;> rfl
theorem advanced_redraw {s t : State} {G : BitVec 16384 → BitVec 16384} (h : Advanced (s.redraw G) t) : Advanced s t := by
  rw [Advanced, slot_redraw] at h
  exact h

/-! ### What a conversion reads, and its lanes (R143, R144) -/

/-- What a conversion reads. -/
structure Conversion where
  vt : Word
  m : CvtMode
  a : VReg
  k : KReg
  msk : MReg
  gens : BitVec 16384

namespace Conversion
variable (q : Conversion) (n blk : Nat)

/-- The source value of position i with its flags. -/
def read (i : Nat) : FV × Nat := cvtRead q.m q.vt q.a q.k i
/-- The draw of position i. -/
def draw (i : Nat) : Nat := if q.m.rm == 4 then (srDraw (elem q.gens 32 i)).1 else 0
/-- Position i where the target has no block scales. -/
def lane : Lanes := fun i =>
  let x := q.read i
  let y := cvtWrite q.m q.a (q.draw i) i x.1
  (y.1, x.2 ||| y.2)
/-- Whether a value is a NaN or an infinity. -/
def special (x : FV) : Bool := match x with | .num _ _ _ => false | _ => true
/-- The values of the active positions of block j. -/
def values (j : Nat) : List FV :=
  (((List.range blk).map (· + j * blk)).filter (fun i => decide (i < n) && flag q.msk i)).map (fun i => (q.read i).1)
/-- The scale of block j. -/
def scale (j : Nat) : Nat :=
  if q.m.tgt = 0xB then (bfpExp (q.values n blk j)).getD 255 else mxScale q.m.tgt (vtSfmt q.vt) (q.values n blk j)
/-- Position i of a scaled block. -/
def blockLane : Lanes := fun i =>
  if !flag q.msk i then (0, 0)
  else if (q.values n blk (i / blk)).any special then (0, fNV ||| (q.read i).2)
  else
    let x := q.read i
    let y := if q.m.tgt = 0xB then bfpMant (q.scale n blk (i / blk)) q.m.rm (q.draw i) x.1
             else mxConv q.m.tgt (vtSfmt q.vt) (q.scale n blk (i / blk)) q.m.rm (q.draw i) x.1
    (y.1, x.2 ||| y.2)
/-- The block length of the scales that are written, 0 for none. -/
def block : Nat := if !q.m.tInt && q.m.tgt == 0xB then 32 else if !q.m.tInt && isMx q.m.tgt && vtBlkA q.vt != 0 then 2 ^ vtBlkA q.vt else 0
/-- The generators after the draws of n positions. -/
def drawn (gens : BitVec 16384) : BitVec 16384 :=
  mapElems gens 32 (fun i => if flag q.msk i then some (srDraw (elem q.gens 32 i)).2 else none) n
/-- The scale register after the scales of n positions. -/
def scales (k : KReg) : KReg := forN (fun b acc => setElem acc 8 (b % 256) (q.scale n blk b)) (cdiv n blk) k
end Conversion

/-- What a VCVT finds in the state in which it works. -/
def conversionIn (o : OpG8) (msk : MReg) (c : Cmd) (s : State) : Conversion :=
  { vt := c.vtype, m := cvtMode o c.vtype, a := s.vreg o.a.toNat, k := s.kreg o.b.toNat, msk := msk, gens := s.slot.gens }
/-- The effect of VCVT after its checks. -/
def vcvtStep (o : OpG8) (msk : MReg) (c : Cmd) (n : Nat) (s : State) : M State :=
  let q := conversionIn o msk c s
  let s := if q.m.rm == 4 then s.redraw (q.drawn n) else s
  if q.block = 0 then pure (s.putLanes c o.d.toNat q.m.tw q.msk n q.lane)
  else
    let s := s.putLanes c o.d.toNat q.m.tw (BitVec.allOnes 512) n (q.blockLane n q.block)
    pure (s.setK o.b.toNat (q.scales n q.block (s.kreg o.b.toNat)))
/-- Whether BFP16 is the source or the target, so that the length must be whole blocks (R144). -/
def readsOrWritesBfp (m : CvtMode) : Bool := (!m.sInt && m.src == 0xB) || (!m.tInt && m.tgt == 0xB)
theorem effVcvt_eq (o : OpG8) : effVcvt o = whole (fun c s => do
    let m := cvtMode o c.vtype
    let mx := vlmax (max m.sw m.tw)
    let n := c.len o.len mx
    let msk := s.mreg o.msk.toNat
    let s := s.note c n (active msk n)
    need (decide (n ≤ mx) && (!readsOrWritesBfp m || n % 32 == 0)) (Trap.opndAt 0x05 n) s
    vcvtStep o msk c n s) := rfl


/-! ### The lanes of a conversion are those of the statement (R23, R144) -/

/-- What a VCVT that commits in s converts. -/
def conversionOf (s : State) (o : OpG8) : Conversion :=
  { vt := s.slot.vtype, m := cvtMode o s.slot.vtype, a := s.vreg o.a.toNat, k := s.kreg o.b.toNat, msk := s.mreg o.msk.toNat,
    gens := s.slot.gens }

theorem filterMap_if {α β : Type} (p : α → Prop) [DecidablePred p] (f : α → β) (l : List α) :
    l.filterMap (fun a => if p a then some (f a) else none) = (l.filter (fun a => decide (p a))).map f := by
  induction l with
  | nil => rfl
  | cons a l ih => by_cases h : p a <;> simp [h, ih]
theorem survey_fold (xs : List FV) (acc : Bool × FV) :
    (xs.foldl (fun acc x => match x with
      | .num _ m e => (acc.1, if magLt acc.2 x then .num false m e else acc.2)
      | _ => (true, acc.2)) acc).1 = (acc.1 || xs.any Conversion.special) := by
  induction xs generalizing acc with
  | nil => simp
  | cons x xs ih => rw [List.foldl_cons, ih]; cases x <;> simp [Conversion.special]
/-- The survey finds the special values of a block (R23). -/
theorem survey_fst (xs : List FV) : (survey xs).1 = xs.any Conversion.special := (survey_fold xs _).trans (Bool.false_or _)

section
variable (s : State) (o : OpG8) (n blk : Nat)

theorem conversionOf_draw (i : Nat) : (conversionOf s o).draw i = drawOf s (cvtMode o s.slot.vtype) i := by
  unfold Conversion.draw drawOf
  simp [conversionOf]
theorem conversionOf_values (j : Nat) : (conversionOf s o).values n blk j = blockValues s o (cvtMode o s.slot.vtype) n blk j := by
  rw [blockValues, filterMap_if, Conversion.values]
  congr 1
  apply List.filter_congr
  intro i _
  simp [conversionOf, flag]
theorem conversionOf_scale (j : Nat) : (conversionOf s o).scale n blk j = blockScale s o (cvtMode o s.slot.vtype) n blk j := by
  rw [Conversion.scale, conversionOf_values]
  rfl
theorem conversionOf_blockLane (i : Nat) :
    (conversionOf s o).blockLane n blk i = blockElement s o (cvtMode o s.slot.vtype) n blk i := by
  rw [Conversion.blockLane, blockElement, conversionOf_values, conversionOf_scale, conversionOf_draw, survey_fst]
  simp only [Bool.not_eq_true']
  rfl
theorem conversionOf_block : (conversionOf s o).block = blockOf (cvtMode o s.slot.vtype) s.slot.vtype := by
  unfold Conversion.block blockOf
  simp [conversionOf, and_assoc]
/-- Under stochastic rounding the state whose generators the active elements have drawn, else the state itself (R34). -/
def drawnState (s : State) (o : OpG8) (n : Nat) : State :=
  if (cvtMode o s.slot.vtype).rm = 4 then s.modSlot (fun x => { x with gens := mapElems x.gens 32 (nextDraw s o) n }) else s
end

/-! ### The scale register (R144) -/

theorem elem_forN_setElem {n : Nat} (r : BitVec n) (w L C j : Nat) (f : Nat → Nat) (hC : C ≤ L) (h : w * j + w ≤ n) :
    elem (forN (fun b acc => setElem acc w (b % L) (f b)) C r) w j = if j < C then f j % 2 ^ w else elem r w j := by
  induction C with
  | zero => simp [forN]
  | succ C ih =>
    rw [forN, elem_setElem _ _ _ _ _ h, Nat.mod_eq_of_lt (by omega), ih (by omega)]
    by_cases hj : j = C
    · subst hj; simp
    · rw [if_neg hj]
      exact if_congr (by omega) rfl rfl
theorem lt_cdiv_iff {n blk j : Nat} (h : 0 < blk) : j < cdiv n blk ↔ j * blk < n := by
  rw [cdiv, Nat.lt_iff_add_one_le, Nat.le_div_iff_mul_le h, Nat.add_mul]
  omega
theorem two_le_blockOf {m : CvtMode} {vt : Word} (h : blockOf m vt ≠ 0) : 2 ≤ blockOf m vt := by
  unfold blockOf at h ⊢
  split
  · omega
  · rename_i h1
    rw [if_neg h1] at h
    split
    · rename_i h2
      exact Nat.le_self_pow (n := vtBlkA vt) h2.2.2 2
    · rename_i h2; rw [if_neg h2] at h; exact absurd rfl h
theorem eight_le_width (i : Bool) (f : Nat) : 8 ≤ if i then 8 * 2 ^ f else fmtWidth f := by
  split
  · exact Nat.le_mul_of_pos_right 8 (Nat.two_pow_pos f)
  · unfold fmtWidth; split <;> decide
theorem vlmax_le {w : Nat} (h : 8 ≤ w) : vlmax w ≤ 512 := Nat.div_le_div_left h (show 0 < 8 by decide)

/-- Elements of the scale register after a conversion of n positions. -/
theorem elem_scales (q : Conversion) (n blk j : Nat) (k : KReg) (hb : 2 ≤ blk) (hn : n ≤ 512) (hj : j < 256) :
    elem (q.scales n blk k) 8 j = if j * blk < n then q.scale n blk j % 256 else elem k 8 j := by
  have hC : cdiv n blk ≤ 256 := by
    by_contra h
    have h2 := (lt_cdiv_iff (n := n) (j := 256) (show 0 < blk by omega)).mp (by omega)
    have := Nat.mul_le_mul_left 256 hb
    omega
  rw [Conversion.scales, elem_forN_setElem k 8 256 (cdiv n blk) j (q.scale n blk) hC (by omega)]
  exact if_congr (lt_cdiv_iff (by omega)) rfl rfl

/-! ### VCVT in a quiet core (R143, R144) -/

theorem drawnState_eq (s : State) (o : OpG8) (n : Nat) :
    drawnState s o n = if (conversionOf s o).m.rm == 4 then s.redraw ((conversionOf s o).drawn n) else s := by
  unfold drawnState
  exact if_congr (by simp [conversionOf]) rfl rfl
/-- A state whose generators may have been drawn differs in them alone. -/
theorem drawnState_frame {s : State} (hfree : s.Free) (o : OpG8) (n : Nat) :
    (∀ K, s.setCore K = (drawnState s o n).setCore K) ∧ (drawnState s o n).Free ∧ (drawnState s o n).core.f = s.core.f ∧
      (drawnState s o n).slot.status = s.slot.status ∧ (drawnState s o n).hi = s.hi ∧ ∀ t, Advanced (drawnState s o n) t → Advanced s t := by
  rw [drawnState_eq]
  split
  · refine ⟨redraw_setCore s _, free_redraw hfree _, ?_, by rw [slot_redraw], rfl, fun t => advanced_redraw⟩
    rw [core_redraw, Core.setSlot_f]
  · exact ⟨fun _ => rfl, hfree, rfl, rfl, rfl, fun _ h => h⟩
theorem working_drawnState (t : Ticket) {s : State} (hfree : s.Free) (o : OpG8) (k : Nat) (len : BitVec 3) (n : Nat) (c : Cmd) (g : Files)
    (fl mrs : Nat) :
    (if (conversionOf s o).m.rm == 4 then (working s (t.core s len n) c g fl mrs).redraw ((conversionOf s o).drawn k)
      else working s (t.core s len n) c g fl mrs) =
      working (drawnState s o k) (t.core (drawnState s o k) len n) c g fl mrs := by
  rw [drawnState_eq]
  split
  · exact working_redraw t hfree _ len n c g fl mrs
  · rfl

/-- What a VCVT enqueues. -/
def vcvtTicket (o : OpG8) : Ticket :=
  { eng := .vec, ins := .vcvt o, lens := [o.len], rd := [.v o.a.toNat, .k o.b.toNat, .m o.msk.toNat], wr := [.v o.d.toNat, .k o.b.toNat] }
theorem conversionIn_working {s : State} (hfree : s.Free) (o : OpG8) (c e : Cmd) (n : Nat) (h : c.vtype = s.slot.vtype) :
    conversionIn o (s.mreg o.msk.toNat) c (working s ((vcvtTicket o).core s o.len n) e (popF s.core.f o.len) 0 0) = conversionOf s o := by
  unfold conversionIn
  rw [slot_working, State.slot_retire hfree, working_vreg, popF_vreg, working_kreg, popF_kreg, h]
  rfl

/-- The files that a VCVT of k positions leaves, and the flags it collects. -/
def convertedFiles (s : State) (o : OpG8) (k : Nat) : Files × Nat :=
  let q := conversionOf s o
  let f := popF s.core.f o.len
  if q.block = 0 then
    ({ f with v := f.v.setIfInBounds o.d.toNat (maskedWrite (s.vreg o.d.toNat) q.m.tw q.msk k (fun i => (q.lane i).1)) },
      orFlags q.msk (fun i => (q.lane i).2) k)
  else
    ({ f with
        v := f.v.setIfInBounds o.d.toNat (maskedWrite (s.vreg o.d.toNat) q.m.tw (BitVec.allOnes 512) k (fun i => (q.blockLane k q.block i).1)),
        k := f.k.setIfInBounds o.b.toNat (q.scales k q.block (s.kreg o.b.toNat)) },
      orFlags (BitVec.allOnes 512) (fun i => (q.blockLane k q.block i).2) k)

theorem vcvtStep_works {s : State} (hfree : s.Free) (o : OpG8) (c e : Cmd) (n k : Nat) (hvt : c.vtype = s.slot.vtype) (hqp : c.qpos = e.qpos) :
    vcvtStep o (s.mreg o.msk.toNat) c k (working s ((vcvtTicket o).core s o.len n) e (popF s.core.f o.len) 0 0) =
      .ok (working (drawnState s o k) ((vcvtTicket o).core (drawnState s o k) o.len n) e (convertedFiles s o k).1 (convertedFiles s o k).2 0) := by
  unfold vcvtStep convertedFiles
  simp only [conversionIn_working hfree o c e n hvt, working_drawnState _ hfree]
  split
  · rw [working_putLanes _ _ _ _ _ _ _ _ _ _ _ _ hqp, popF_vreg, Nat.zero_or]
    rfl
  · rw [working_putLanes _ _ _ _ _ _ _ _ _ _ _ _ hqp, popF_vreg, Nat.zero_or, working_setK, working_kreg, popF_kreg]
    rfl

/-- VCVT IN A QUIET CORE: its command leaves the converted files of the state whose generators have been drawn. -/
theorem vcvt_runs {s : State} {o : OpG8} {n k : Nat} (hq : s.Quiet) (hn : LenIs s o.len n)
    (hk : k = boundLen (max (cvtMode o s.slot.vtype).sw (cvtMode o s.slot.vtype).tw) o.len n)
    (hmax : k ≤ vlmax (max (cvtMode o s.slot.vtype).sw (cvtMode o s.slot.vtype).tw))
    (hbfp : readsOrWritesBfp (cvtMode o s.slot.vtype) = true → k % 32 = 0) :
    ∃ t, exec (.vcvt o) s = .next t ∧
      FilesRun .vec (.vcvt o) o.len (convertedFiles s o k).1 (convertedFiles s o k).2 0 (drawnState s o k) t := by
  obtain ⟨hb, hfree, -, -, hhi, -⟩ := drawnState_frame hq.free o k
  have hgood : (decide (k ≤ vlmax (max (cvtMode o s.slot.vtype).sw (cvtMode o s.slot.vtype).tw)) &&
      (!readsOrWritesBfp (cvtMode o s.slot.vtype) || k % 32 == 0)) = true := by
    rw [decide_eq_true hmax, Bool.true_and]
    cases h : readsOrWritesBfp (cvtMode o s.slot.vtype)
    · rfl
    · simpa using hbfp h
  have hexec : exec (.vcvt o) s = engine (vcvtTicket o) (effVcvt o) s := rfl
  rw [hexec, effVcvt_eq]
  refine engine_runs_from (t := vcvtTicket o) (m := n) (c := (vcvtTicket o).noted s o.len n k (active (s.mreg o.msk.toNat) k)) hq (.inl rfl) rfl hn
    rfl rfl hb hfree rfl rfl hhi.symm ?_
  have hlen := len_popped (vcvtTicket o) s o.len n (max (cvtMode o s.slot.vtype).sw (cvtMode o s.slot.vtype).tw) hn
  simp only [Ticket.cmd_vtype, Ticket.core_mreg, hlen, ← hk, note_working, hgood, need_true]
  exact vcvtStep_works hq.free o _ _ n k (Ticket.cmd_vtype _ _ _ _) rfl

theorem scaleRegister_of_wellFormed {o : OpG8} (h : Instr.WellFormed (.vcvt o)) : o.b.toNat < 16 := by
  have hd : o.defectVcvt = none := by simpa [Instr.WellFormed, Instr.defect] using h
  by_contra hb
  simp [OpG8.defectVcvt, firstOf, show 16 ≤ o.b.toNat by omega] at hd
theorem flag_allOnes {w n : Nat} (h : n < w) : flag (BitVec.allOnes w) n = true := by simp [flag, h]
/-- Under a full mask the flags are those of the active positions, where the others raise none. -/
theorem orFlags_allOnes (m : MReg) (f : Nat → Nat) (h : ∀ i, flag m i = false → f i = 0) {n : Nat} (hn : n ≤ 512) :
    orFlags (BitVec.allOnes 512) f n = orFlags m f n := by
  induction n with
  | zero => rw [orFlags, orFlags]
  | succ n ih =>
    rw [orFlags, orFlags, ih (by omega), if_pos (flag_allOnes (by omega))]
    split
    · rfl
    · next hm => rw [h n (by simpa using hm), Nat.or_zero]

/-- What a VCVT of k positions without block scales leaves. -/
theorem plainConversion {s t : State} {o : OpG8} {k : Nat} (hfree : s.Free) (hb : blockOf (cvtMode o s.slot.vtype) s.slot.vtype = 0)
    (h : FilesRun .vec (.vcvt o) o.len (convertedFiles s o k).1 (convertedFiles s o k).2 0 (drawnState s o k) t) :
    EngineFrame .vec (.vcvt o) [o.d.toNat] [] [] [] [] o.len (drawnState s o k) t ∧
    FlagResult s t k o.msk (fun e => ((conversionOf s o).lane e).2) ∧
    LaneResult s t o.d.toNat (cvtMode o s.slot.vtype).tw k o.msk (fun e => ((conversionOf s o).lane e).1) := by
  obtain ⟨-, -, hfiles, hst, -, -⟩ := drawnState_frame hfree o k
  rw [convertedFiles, if_pos ((conversionOf_block s o).trans hb)] at h
  refine ⟨h.frame (hfiles ▸ (FilesFrame.popF _ _ _ _ _ _ _).setV _ (by simp)), h.flagResult (s := s) hst, laneResult_of ?_⟩
  rw [h.vreg, getD_setIfInBounds _ _ _ _ _ o.d.isLt, if_pos rfl]
  rfl
/-- What a VCVT of k positions into scaled blocks leaves. -/
theorem blockConversion {s t : State} {o : OpG8} {k : Nat} (hfree : s.Free) (hb : blockOf (cvtMode o s.slot.vtype) s.slot.vtype ≠ 0)
    (hk : k ≤ 512) (hreg : o.b.toNat < 16)
    (h : FilesRun .vec (.vcvt o) o.len (convertedFiles s o k).1 (convertedFiles s o k).2 0 (drawnState s o k) t) :
    EngineFrame .vec (.vcvt o) [o.d.toNat] [] [] [o.b.toNat] [] o.len (drawnState s o k) t ∧
    FlagResult s t k o.msk (fun e => (blockElement s o (cvtMode o s.slot.vtype) k (blockOf (cvtMode o s.slot.vtype) s.slot.vtype) e).2) ∧
    (∀ e, e < vlmax (cvtMode o s.slot.vtype).tw → elem (t.vreg o.d.toNat) (cvtMode o s.slot.vtype).tw e =
      if e < k then (blockElement s o (cvtMode o s.slot.vtype) k (blockOf (cvtMode o s.slot.vtype) s.slot.vtype) e).1 % 2 ^ (cvtMode o s.slot.vtype).tw
      else elem (s.vreg o.d.toNat) (cvtMode o s.slot.vtype).tw e) ∧
    (∀ j, j < 256 → elem (t.kreg o.b.toNat) 8 j =
      if j * blockOf (cvtMode o s.slot.vtype) s.slot.vtype < k then
        blockScale s o (cvtMode o s.slot.vtype) k (blockOf (cvtMode o s.slot.vtype) s.slot.vtype) j % 256
      else elem (s.kreg o.b.toNat) 8 j) := by
  obtain ⟨-, -, hfiles, hst, -, -⟩ := drawnState_frame hfree o k
  rw [convertedFiles, if_neg ((conversionOf_block s o).trans_ne hb)] at h
  simp only [conversionOf_block, conversionOf_blockLane] at h
  have hquiet : ∀ i, flag (s.mreg o.msk.toNat) i = false →
      (blockElement s o (cvtMode o s.slot.vtype) k (blockOf (cvtMode o s.slot.vtype) s.slot.vtype) i).2 = 0 := by
    intro i hi
    rw [blockElement, if_pos (show (s.mreg o.msk.toNat).getLsbD i = false from hi)]
  rw [orFlags_allOnes (s.mreg o.msk.toNat) _ hquiet hk] at h
  refine ⟨h.frame (hfiles ▸ ((FilesFrame.popF _ _ _ _ _ _ _).setV _ (by simp)).setK _ (by simp)), h.flagResult (s := s) hst, fun e he => ?_,
    fun j hj => ?_⟩
  · rw [h.vreg, getD_setIfInBounds _ _ _ _ _ o.d.isLt, if_pos rfl]
    refine (elem_maskedWrite _ _ _ _ _ _ (elem_fits he)).trans (if_congr (and_iff_left_of_imp fun hek => flag_allOnes (by omega)) rfl rfl)
  · rw [h.kreg, getD_setIfInBounds _ _ _ _ _ hreg, if_pos rfl, elem_scales _ _ _ _ _ (two_le_blockOf hb) hk hj, conversionOf_scale]

/-- Settles O13: the command works on the state whose generators have been drawn, and its lanes are those of the conversion. -/
theorem conversionsReadAndWrite : Obligations.ConversionsReadAndWrite := by
  intro s o n k m u hq hwf hn hm hk hmax hbfp hu
  subst hm
  obtain ⟨t, ht, hrun⟩ := vcvt_runs (k := k) hq hn hk hmax (fun h => hbfp (by simpa [readsOrWritesBfp] using h))
  have hk512 : k ≤ 512 := hmax.trans (vlmax_le (le_max_of_le_left (eight_le_width _ _)))
  have hadv : Advanced s t := (drawnState_frame hq.free o k).2.2.2.2.2 t hrun.advanced
  rw [show u = drawnState s o k from hu]
  by_cases hb : blockOf (cvtMode o s.slot.vtype) s.slot.vtype = 0
  · obtain ⟨hframe, hflags, hlanes⟩ := plainConversion hq.free hb hrun
    simp only [Conversion.lane, conversionOf_draw] at hflags hlanes
    refine ⟨t, ht, ?_, hadv, fun _ => ⟨hflags, hlanes⟩, fun h => absurd hb h⟩
    rwa [if_pos hb]
  · obtain ⟨hframe, hblocks⟩ := blockConversion hq.free hb hk512 (scaleRegister_of_wellFormed hwf) hrun
    refine ⟨t, ht, ?_, hadv, fun h => absurd h hb, fun _ => hblocks⟩
    rwa [if_neg hb]

end Sys2Proof.Machine
end

section
/-! SUPPORT. An engine instruction with several length operands (R56, R66): the length queues it pops, in order, and the core in
which its command executes. -/

namespace Sys2Proof.Machine

/-! ### Pops of the length queues (R56) -/

/-- The committed occupancy of a queue, less one. -/
def decOcc (q : Nat) (f : Files) : Files := { f with occ := f.occ.setIfInBounds q (f.occ[q]?.getD 0 - 1) }
/-- A queue without its oldest count. -/
def dropCount (q : Nat) (f : Files) : Files := { f with lq := f.lq.setIfInBounds q (f.lq[q]?.getD []).tail }
/-- The register files after pops of the listed queues: the occupancies at commit, the counts at dispatch, or both. -/
def decAll (qs : List Nat) (f : Files) : Files := qs.foldl (fun f q => decOcc q f) f
def dropAll (qs : List Nat) (f : Files) : Files := qs.foldl (fun f q => dropCount q f) f
def popAll (qs : List Nat) (f : Files) : Files := qs.foldl (fun f q => dropCount q (decOcc q f)) f

theorem dropCount_decAll (q : Nat) (qs : List Nat) (f : Files) : dropCount q (decAll qs f) = decAll qs (dropCount q f) := by
  induction qs generalizing f with
  | nil => rfl
  | cons r qs ih => exact ih (decOcc r f)
theorem dropAll_decAll (qs : List Nat) (f : Files) : dropAll qs (decAll qs f) = popAll qs f := by
  induction qs generalizing f with
  | nil => rfl
  | cons q qs ih =>
    calc dropAll (q :: qs) (decAll (q :: qs) f) = dropAll qs (dropCount q (decAll qs (decOcc q f))) := rfl
      _ = dropAll qs (decAll qs (dropCount q (decOcc q f))) := by rw [dropCount_decAll]
      _ = popAll (q :: qs) f := ih _

theorem decAll_lq (qs : List Nat) (f : Files) : (decAll qs f).lq = f.lq := by
  induction qs generalizing f with
  | nil => rfl
  | cons q qs ih => exact ih (decOcc q f)
/-- The listed queues hold the listed counts, one pop after another. -/
def Holds : Files → List Nat → List Nat → Prop
  | _, [], ns => ns = []
  | f, q :: qs, ns => ∃ n r, ns = n :: r ∧ (f.lq[q]?.getD []).head? = some n ∧ 0 < f.occ[q]?.getD 0 ∧ Holds (dropCount q (decOcc q f)) qs r

theorem popOcc_holds {s u : State} {f : Files} {qs ns : List Nat} (h : Holds f qs ns) (hu : u.core.f.occ = f.occ) :
    ∃ t, popOcc s qs u = .ok t ∧ (t = u.modF (decAll qs) ∨ qs = [] ∧ t = u) := by
  induction qs generalizing f ns u with
  | nil => exact ⟨u, rfl, .inr ⟨rfl, rfl⟩⟩
  | cons q qs ih =>
    obtain ⟨n, r, -, -, hocc, hrest⟩ := h
    have hnext : popOcc s (q :: qs) u = popOcc s qs (u.modF (decOcc q)) := by
      rw [popOcc, if_neg (by rw [hu]; omega), State.modF, State.modCore_eq, State.modF, State.modCore_eq]
      rfl
    obtain ⟨t, ht, hres⟩ := ih (u := u.modF (decOcc q)) hrest (by simp [State.modF_eq, decOcc, dropCount, hu])
    refine ⟨t, hnext.trans ht, .inl ?_⟩
    rcases hres with rfl | ⟨rfl, rfl⟩
    · rw [State.modF_eq, State.modF_eq, State.modCore_modCore]; rfl
    · rfl
theorem startCmd_go_holds {u : State} {f : Files} {qs ns : List Nat} (h : Holds f qs ns) (hu : u.core.f.lq = f.lq) :
    ∃ t, State.startCmd.go qs u = .ok (ns, t) ∧ (t = u.modF (dropAll qs) ∨ qs = [] ∧ t = u) := by
  induction qs generalizing f ns u with
  | nil => cases h; exact ⟨u, rfl, .inr ⟨rfl, rfl⟩⟩
  | cons q qs ih =>
    obtain ⟨n, r, rfl, hhead, -, hrest⟩ := h
    have hcons : u.core.f.lq[q]?.getD [] = n :: (u.core.f.lq[q]?.getD []).tail := by
      rw [hu]
      exact (List.cons_head?_tail hhead).symm
    obtain ⟨t, ht, hres⟩ := ih (u := u.modF (dropCount q)) hrest (by simp [State.modF_eq, decOcc, dropCount, hu])
    have hnext : State.startCmd.go (q :: qs) u = .ok (n :: r, t) := by
      rw [State.startCmd.go, hcons]
      change (do let (l, t) ← State.startCmd.go qs (u.modF (dropCount q)); pure (n :: l, t)) = _
      rw [ht]
      rfl
    refine ⟨t, hnext, .inl ?_⟩
    rcases hres with rfl | ⟨rfl, rfl⟩
    · rw [State.modF_eq, State.modF_eq, State.modCore_modCore]; rfl
    · rfl

/-! ### The core in which the command executes -/

/-- The command of an instruction that popped the counts `ns`. -/
def Ticket.cmdOf (t : Ticket) (s : State) (ns : List Nat) : Cmd := { t.dispatched s ns with ranges := t.ranges }
/-- The core in which that command executes, with the register files after the pops. -/
def Ticket.coreOf (t : Ticket) (s : State) (f : Files) (ns : List Nat) : Core :=
  { (s.beginVec t.eng t.ins).core with f := f, queue := [t.cmdOf s ns], qpos := (s.core.qpos + 1) % 65536 }.setSlot s.hi s.retire.slot

theorem modF_id_retire {u : State} (h : u.Free) : u.retire.modF id = u.retire := by
  rw [State.retire_eq h, State.modSlot_eq, State.modF_eq, State.modCore_modCore]
  rfl
theorem free_enqueue {s : State} (h : s.Free) (f : Files → Files) (c : Cmd) : ((s.modF f).enqueue c).Free := by
  have hs : ((s.modF f).enqueue c).slot = s.slot := by
    simp only [State.enqueue, State.modF_eq, State.modCore_modCore, State.slot, State.core_modCore, State.modCore_hi]; rfl
  rw [State.Free, hs]
  exact h

/-- An engine instruction without a push, in a quiet core: it is its command, run in the core after the pops of its lengths. -/
theorem engine_pops {t : Ticket} {run : Run1} {s : State} {ns : List Nat} (hq : s.Quiet) (hp : t.push = none)
    (hn : Holds s.core.f (t.lens.filterMap lenQueue) ns) (hw : waitsForNothing t.ins = true) (hr : t.ranges = []) :
    engine t run s = finish ((s.setCore (t.coreOf s (popAll (t.lens.filterMap lenQueue) s.core.f) ns)).drive run s.core.qpos driveFuel) := by
  obtain ⟨s1, h1, hs1⟩ := popOcc_holds (s := s) hn rfl
  have henq : s1.enqueue (t.entry s) = (s.modF (decAll (t.lens.filterMap lenQueue))).enqueue (t.entry s) := by
    rcases hs1 with rfl | ⟨hqs, rfl⟩
    · rfl
    · rw [hqs, State.enqueue, State.enqueue, State.modF_eq, State.modCore_modCore]
      rfl
  have hkeeps : s1.slot = s.slot ∧ s1.hi = s.hi ∧ s1.core.queue = [] ∧ s1.core.qpos = s.core.qpos ∧ s1.core.heldRanges = [] := by
    rcases hs1 with rfl | ⟨-, rfl⟩
    · exact ⟨by simp, rfl, by simpa using hq.queue, by simp, by simpa [Core.heldRanges] using hq.ranges⟩
    · exact ⟨rfl, rfl, hq.queue, rfl, hq.ranges⟩
  have hlq : ((s.modF (decAll (t.lens.filterMap lenQueue))).enqueue (t.entry s)).retire.core.f.lq = s.core.f.lq := by
    rw [State.retire_eq (free_enqueue hq.free _ _)]
    simp [State.enqueue, State.modF_eq, decAll_lq]
  obtain ⟨s4, h3, hs4⟩ := startCmd_go_holds hn hlq
  have h4 : s4 = (((s.modF (decAll (t.lens.filterMap lenQueue))).enqueue (t.entry s)).retire).modF (dropAll (t.lens.filterMap lenQueue)) := by
    rcases hs4 with rfl | ⟨hqs, rfl⟩
    · rfl
    · rw [hqs]
      exact (modF_id_retire (free_enqueue hq.free _ _)).symm
  have h2 : pushOcc s t.push s1 = .ok s1 := by rw [hp]; rfl
  rw [engine_quiet hq h1 h2 hkeeps (fixedRanges_of_waitsForNothing hw) (copyReady_of_waitsForNothing hw) (by simp [hr]) (henq ▸ h3), h4,
    launch_eq hq _ _ ns rfl, dropAll_decAll]
  rfl
/-- An engine instruction without a push whose command works on the register files: it completes and leaves them. The base `b` is the
state itself, or one whose current core alone differs from it, in the queues that it has popped. -/
theorem engine_pops_from {t : Ticket} {f : Run1} {s b : State} {len : BitVec 3} {m : Nat} {ns : List Nat} {g : Files} {fl mrs : Nat}
    (hq : s.Quiet) (hp : t.push = none) (hn : Holds s.core.f (t.lens.filterMap lenQueue) ns) (hw : waitsForNothing t.ins = true)
    (hr : t.ranges = []) (hb : ∀ K, s.setCore K = b.setCore K) (hfree : b.Free) (hhi : b.hi = s.hi)
    (hf : f (t.cmdOf s ns) (s.setCore (t.coreOf s (popAll (t.lens.filterMap lenQueue) s.core.f) ns)) =
      .ok (working b (t.core b len m) (t.cmdOf s ns) g fl mrs)) :
    ∃ u, engine t (whole f) s = .next u ∧ FilesRun t.eng t.ins len g fl mrs b u := by
  have hep : (t.cmdOf s ns).ep = (s.setCore (t.coreOf s (popAll (t.lens.filterMap lenQueue) s.core.f) ns)).slot.ep := by
    rw [State.slot, State.core_setCore, Ticket.coreOf, State.setCore_hi, Core.slot_setSlot, State.slot_retire hq.free]
    rfl
  have hcmd : (s.setCore (t.coreOf s (popAll (t.lens.filterMap lenQueue) s.core.f) ns)).core.cmd s.core.qpos = some (t.cmdOf s ns) := by
    rw [State.core_setCore, Core.cmd, Ticket.coreOf, Core.setSlot_queue]
    simp [firstSat, show (t.cmdOf s ns).qpos = s.core.qpos from rfl]
  rw [working, ← hb] at hf
  rw [engine_pops hq hp hn hw hr, driveFuel, drive_whole hcmd rfl hep rfl hf rfl rfl, hb]
  exact ⟨_, rfl, filesRun_ended g fl mrs hfree rfl hhi.symm⟩

/-! ### Two length operands (R167) -/

theorem popAll_queue (len : BitVec 3) (f : Files) : popAll (lenQueue len).toList f = popF f len := by
  by_cases h : len.toNat < 4
  · rw [lenQueue_small h, popF, if_pos h]; rfl
  · rw [lenQueue_big h, popF, if_neg h]; rfl
theorem popAll_append (qs rs : List Nat) (f : Files) : popAll (qs ++ rs) f = popAll rs (popAll qs f) := List.foldl_append
theorem lens_pair (la lb : BitVec 3) : [la, lb].filterMap lenQueue = (lenQueue la).toList ++ (lenQueue lb).toList := by
  cases ha : lenQueue la <;> cases hb : lenQueue lb <;> simp [ha, hb]
/-- Writes of two entries of a vector in either order leave the same vector. -/
theorem setIfInBounds_swap {α : Type} {k i j : Nat} (v : Vector α k) (x y : α) (h : i ≠ j) :
    (v.setIfInBounds i x).setIfInBounds j y = (v.setIfInBounds j y).setIfInBounds i x := by
  ext n hn
  rw [Vector.getElem_setIfInBounds hn, Vector.getElem_setIfInBounds hn, Vector.getElem_setIfInBounds hn, Vector.getElem_setIfInBounds hn]
  by_cases hi : i = n
  · rw [if_neg (by omega), if_pos hi, if_pos hi]
  · rw [if_neg hi, if_neg hi]
/-- Pops of two length operands in either order leave the same files. -/
theorem popF_comm (f : Files) (la lb : BitVec 3) : popF (popF f la) lb = popF (popF f lb) la := by
  by_cases heq : la = lb
  · rw [heq]
  have hne : la.toNat ≠ lb.toNat := fun h => heq (BitVec.eq_of_toNat_eq h)
  by_cases ha : la.toNat < 4 <;> by_cases hb : lb.toNat < 4
  · simp [popF, ha, hb]
  · simp [popF, ha, hb]
  · simp [popF, ha, hb]
  · have h1 : la.toNat - 4 ≠ lb.toNat - 4 := by omega
    simp [popF, ha, hb, h1, h1.symm, setIfInBounds_swap _ _ _ h1]
theorem popAll_pair (la lb : BitVec 3) (f : Files) : popAll ([la, lb].filterMap lenQueue) f = popF (popF f lb) la := by
  rw [lens_pair, popAll_append, popAll_queue, popAll_queue, popF_comm]

end Sys2Proof.Machine
end

section
/-! SUPPORT. The encoding of a sum rounded once lies within its format (R34, R37, R39). -/

namespace Sys2Proof.Machine

/-- What R15's tables say of the widths of a format with a NaN: every encoding without its sign lies below the sign bit. -/
structure FF.Sound (f : FF) : Prop where
  wide : 0 < f.w
  least : f.emin ≤ f.maxE
  normal : 2 ^ f.mant ≤ f.maxM
  below : f.maxM < 2 ^ (f.mant + 1)
  largest : (f.maxE - f.emin).toNat * 2 ^ f.mant + f.maxM < 2 ^ (f.w - 1)
  infinity : (2 ^ (f.w - 1 - f.mant) - 1) * 2 ^ f.mant < 2 ^ (f.w - 1)
  nanIs : f.hasNan = true
  nanFits : f.nan < 2 ^ (f.w - 1)
theorem accFormat_sound (f64 : Bool) : (accFormat f64).Sound := by
  cases f64 <;> constructor <;> decide

theorem signed_lt {f : FF} (hf : f.Sound) (neg : Bool) {mag : Nat} (h : mag < 2 ^ (f.w - 1)) : signed f neg mag < 2 ^ f.w := by
  have hw : 2 ^ f.w = 2 ^ (f.w - 1) + 2 ^ (f.w - 1) := by
    rw [← Nat.two_mul, ← Nat.pow_succ', Nat.succ_eq_add_one, Nat.sub_add_cancel hf.wide]
  have := hf.nanFits
  unfold signed
  split
  · omega
  · split <;> omega
theorem overBits_lt {f : FF} (hf : f.Sound) (rm : Nat) (sat neg : Bool) : overBits f rm sat neg < 2 ^ (f.w - 1) := by
  have h1 := hf.largest
  have h2 := hf.infinity
  have h3 := hf.nanFits
  unfold overBits
  simp only
  split
  · exact h1
  · split
    · split
      · exact h1
      · split <;> assumption
      · split <;> assumption
      · exact h2
    · split <;> assumption

/-- The exponent of a positive integer. -/
theorem ratLog_one {n : Nat} (hn : n ≠ 0) : ratLog n 1 = (n.log2 : Int) := by
  have h : 2 ^ n.log2 ≤ n := Nat.log2_self_le hn
  have h1 : Nat.log2 1 = 0 := by decide
  simp [ratLog, ilog2, h1, h]
/-- An integer in units of 2^q: below 2^(p + 1) where the unit is at least 2^(−p) of its leading bit. -/
theorem roundUnits_le (rm : Nat) (neg : Bool) (draw n p : Nat) (e q : Int) (hq : (n.log2 : Int) + e - p ≤ q) :
    (roundUnits rm neg draw n 1 e q).1 ≤ 2 ^ (p + 1) := by
  have hlt : n < 2 ^ (n.log2 + 1) := Nat.lt_log2_self
  have hlo : n * 2 ^ (e - q).toNat / (1 * 2 ^ (q - e).toNat) < 2 ^ (p + 1) := by
    rw [Nat.one_mul, Nat.div_lt_iff_lt_mul (Nat.two_pow_pos _), ← Nat.pow_add]
    calc n * 2 ^ (e - q).toNat < 2 ^ (n.log2 + 1) * 2 ^ (e - q).toNat := Nat.mul_lt_mul_of_pos_right hlt (Nat.two_pow_pos _)
      _ = 2 ^ (n.log2 + 1 + (e - q).toNat) := (Nat.pow_add _ _ _).symm
      _ ≤ 2 ^ (p + 1 + (q - e).toNat) := Nat.pow_le_pow_right (by decide) (by omega)
  have hup : ∀ b : Bool, b2n b ≤ 1 := by decide
  unfold roundUnits
  exact Nat.le_trans (Nat.add_le_add_left (hup _) _) hlo
theorem le_roundUnits (rm : Nat) (neg : Bool) (draw n p : Nat) (e q : Int) (hn : n ≠ 0) (hq : q = (n.log2 : Int) + e - p) :
    2 ^ p ≤ (roundUnits rm neg draw n 1 e q).1 := by
  have hle : 2 ^ n.log2 ≤ n := Nat.log2_self_le hn
  have hlo : 2 ^ p ≤ n * 2 ^ (e - q).toNat / (1 * 2 ^ (q - e).toNat) := by
    rw [Nat.one_mul, Nat.le_div_iff_mul_le (Nat.two_pow_pos _), ← Nat.pow_add]
    calc 2 ^ (p + (q - e).toNat) = 2 ^ (n.log2 + (e - q).toNat) := by congr 1; omega
      _ = 2 ^ n.log2 * 2 ^ (e - q).toNat := Nat.pow_add _ _ _
      _ ≤ n * 2 ^ (e - q).toNat := Nat.mul_le_mul_right _ hle
  unfold roundUnits
  exact Nat.le_add_right_of_le hlo

/-- The magnitude of a result that is not too big lies below the sign bit. -/
theorem magnitude_lt {f : FF} (hf : f.Sound) {r p : Nat} {k q : Int} (hq : q = max (k - f.mant) f.emin) (hp : p = 2 ^ f.mant)
    (htwo : r ≤ 2 * p) (hge : q = k - f.mant → p ≤ r)
    (hbig : (if f.maxE ≤ q then decide (f.maxM < r * 2 ^ (q - f.maxE).toNat) else decide (f.maxM * 2 ^ (f.maxE - q).toNat < r)) = false) :
    (q - f.emin).toNat * p + r < 2 ^ (f.w - 1) := by
  obtain ⟨-, hleast, hnormal, hbelow, hlargest, -, -, -⟩ := hf
  rw [Nat.pow_succ] at hbelow
  rw [← hp] at hnormal hbelow hlargest
  split at hbig
  · next hE =>
    have hle := of_decide_eq_false hbig
    have hqE : q = f.maxE := by
      by_contra hne
      have h2 : r * 2 ≤ r * 2 ^ (q - f.maxE).toNat :=
        Nat.mul_le_mul_left r (Nat.le_self_pow (by omega) 2)
      have := hge (by omega)
      omega
    rw [hqE, Int.sub_self, Int.toNat_zero, Nat.pow_zero, Nat.mul_one] at hle
    rw [hqE]
    omega
  · next hE =>
    have hle := of_decide_eq_false hbig
    have h1 : ((q - f.emin).toNat + 1) * p ≤ (f.maxE - f.emin).toNat * p := Nat.mul_le_mul_right p (by omega)
    rw [Nat.add_mul, Nat.one_mul] at h1
    omega
theorem roundRat_lt {f : FF} (hf : f.Sound) (rm : Nat) (sat : Bool) (draw : Nat) (neg : Bool) (n : Nat) (e : Int) (hn : n ≠ 0) :
    (roundRat f rm sat draw neg n 1 e).1 < 2 ^ f.w := by
  have hw : 2 ^ f.w = 2 ^ (f.w - 1) + 2 ^ (f.w - 1) := by
    rw [← Nat.two_mul, ← Nat.pow_succ', Nat.succ_eq_add_one, Nat.sub_add_cancel hf.wide]
  have h0 : 0 < 2 ^ (f.w - 1) := Nat.two_pow_pos _
  unfold roundRat
  rw [ratLog_one hn]
  simp only
  generalize hq : max ((n.log2 : Int) + e - f.mant) f.emin = q
  generalize hbig : (if f.maxE ≤ q then decide (f.maxM < (roundUnits rm neg draw n 1 e q).1 * 2 ^ (q - f.maxE).toNat)
    else decide (f.maxM * 2 ^ (f.maxE - q).toNat < (roundUnits rm neg draw n 1 e q).1)) = big
  cases big with
  | true =>
    rw [if_pos rfl]
    exact signed_lt hf neg (overBits_lt hf rm sat neg)
  | false =>
    have hle : (roundUnits rm neg draw n 1 e q).1 ≤ 2 * 2 ^ f.mant :=
      (roundUnits_le rm neg draw n f.mant e q (by omega)).trans (by rw [Nat.pow_succ, Nat.mul_comm])
    have hmag := magnitude_lt hf hq.symm rfl hle (le_roundUnits rm neg draw n f.mant e q hn) hbig
    rw [if_neg (by decide)]
    simp only
    split <;> split <;> omega
theorem fround_lt {f : FF} (hf : f.Sound) (rm draw : Nat) (x : FV) : (fround f rm false draw x).1 < 2 ^ f.w := by
  have hw : 2 ^ f.w = 2 ^ (f.w - 1) + 2 ^ (f.w - 1) := by
    rw [← Nat.two_mul, ← Nat.pow_succ', Nat.succ_eq_add_one, Nat.sub_add_cancel hf.wide]
  have hnan := hf.nanFits
  have h0 : 0 < 2 ^ (f.w - 1) := Nat.two_pow_pos _
  cases x with
  | nan sig => simp only [fround, hf.nanIs, if_true]; omega
  | inf neg =>
    simp only [fround, hf.nanIs]
    split
    · exact signed_lt hf neg hf.infinity
    · split
      · omega
      · exact signed_lt hf neg (overBits_lt hf rm true neg)
  | num neg m e =>
    simp only [fround]
    split
    · split <;> omega
    · next hm => exact roundRat_lt hf rm false draw neg m e hm

end Sys2Proof.Machine
end

section
/-! SUPPORT. Outer products (R40, R166 to R169): the accumulator elements that a step writes, and the command in a quiet core. -/

namespace Sys2Proof.Machine

/-! ### A fold that writes one element for each cell -/

/-- One cell: its element takes what `G` makes of the old one, and the flags join. -/
def writeCell {α : Type} (w : Nat) (pos : α → Nat) (G : α → Nat → Nat × Nat) (acc : Tile × Nat) (c : α) : Tile × Nat :=
  (setElem acc.1 w (pos c) (G c (elem acc.1 w (pos c))).1, acc.2 ||| (G c (elem acc.1 w (pos c))).2)

section
variable {α : Type} {w : Nat} {pos : α → Nat} {G : α → Nat → Nat × Nat}

theorem elem_cells_ne (cells : List α) (acc : Tile × Nat) (q : Nat) (hq : w * q + w ≤ 393216) (h : ∀ c ∈ cells, pos c ≠ q) :
    elem (cells.foldl (writeCell w pos G) acc).1 w q = elem acc.1 w q := by
  induction cells generalizing acc with
  | nil => rfl
  | cons c cells ih =>
    rw [List.foldl_cons, ih _ (fun d hd => h d (List.mem_cons_of_mem _ hd)), writeCell, elem_setElem _ _ _ _ _ hq,
      if_neg (h c List.mem_cons_self).symm]
theorem elem_cells_mem (cells : List α) (acc : Tile × Nat) (hfit : ∀ c ∈ cells, w * pos c + w ≤ 393216) (hnd : (cells.map pos).Nodup)
    {c : α} (hc : c ∈ cells) :
    elem (cells.foldl (writeCell w pos G) acc).1 w (pos c) = (G c (elem acc.1 w (pos c))).1 % 2 ^ w := by
  induction cells generalizing acc with
  | nil => simp at hc
  | cons d cells ih =>
    rw [List.map_cons, List.nodup_cons] at hnd
    have hfar : ∀ x ∈ cells, pos x ≠ pos d := fun x hx h => hnd.1 (h ▸ List.mem_map_of_mem hx)
    rw [List.foldl_cons]
    rcases List.mem_cons.mp hc with rfl | hmem
    · rw [elem_cells_ne cells _ _ (hfit c List.mem_cons_self) hfar, writeCell, elem_setElem _ _ _ _ _ (hfit c List.mem_cons_self), if_pos rfl]
    · rw [ih _ (fun x hx => hfit x (List.mem_cons_of_mem _ hx)) hnd.2 hmem, writeCell,
        elem_setElem _ _ _ _ _ (hfit c hc), if_neg (hfar c hmem)]
theorem flags_cells (cells : List α) (acc : Tile × Nat) (hfit : ∀ c ∈ cells, w * pos c + w ≤ 393216) (hnd : (cells.map pos).Nodup) (k : Nat) :
    (cells.foldl (writeCell w pos G) acc).2.testBit k = true ↔
      acc.2.testBit k = true ∨ ∃ c ∈ cells, (G c (elem acc.1 w (pos c))).2.testBit k = true := by
  induction cells generalizing acc with
  | nil => simp
  | cons d cells ih =>
    rw [List.map_cons, List.nodup_cons] at hnd
    have hkeep : ∀ c ∈ cells, elem (writeCell w pos G acc d).1 w (pos c) = elem acc.1 w (pos c) := by
      intro c hc
      have hne : pos c ≠ pos d := fun h => hnd.1 (h ▸ List.mem_map_of_mem hc)
      rw [writeCell, elem_setElem _ _ _ _ _ (hfit c (List.mem_cons_of_mem _ hc)), if_neg hne]
    have hrest : (∃ c ∈ cells, (G c (elem (writeCell w pos G acc d).1 w (pos c))).2.testBit k = true) ↔
        ∃ c ∈ cells, (G c (elem acc.1 w (pos c))).2.testBit k = true :=
      exists_congr fun c => and_congr_right fun hc => by rw [hkeep c hc]
    rw [List.foldl_cons, ih _ (fun x hx => hfit x (List.mem_cons_of_mem _ hx)) hnd.2, hrest, List.exists_mem_cons_iff, ← or_assoc]
    refine or_congr_left ?_
    rw [writeCell, Nat.testBit_or, Bool.or_eq_true]
end

/-! ### The cells of a step (R169) -/

/-- The cells of a step, row by row. -/
def cellsOf (rows cols : List Nat) : List (Nat × Nat) := rows ×ˢ cols
theorem mem_cellsOf {rows cols : List Nat} {c : Nat × Nat} : c ∈ cellsOf rows cols ↔ c.1 ∈ rows ∧ c.2 ∈ cols := by
  obtain ⟨i, j⟩ := c
  simp [cellsOf]
/-- What one step adds to an accumulator element. -/
def addTerms (f64 neg : Bool) (rm : Nat) (old : Nat) (ts : List (FV × Nat)) : Nat × Nat :=
  let f := fmtOf (if f64 then 0 else 1)
  let x := sumExact (ts.map (fun p => if neg then p.1.neg else p.1))
  let r := faddR f rm (fval f old) x.1
  (r.1, ts.foldl (fun a p => a ||| p.2) x.2 ||| r.2)
theorem addTerms_eq (f64 neg : Bool) (vt : Word) (old : Nat) (ts : List (FV × Nat)) :
    addTerms f64 neg (roundMode vt) old ts = accumulated f64 neg vt old ts := rfl
theorem outerStep_eq (f64 neg : Bool) (rm : Nat) (rows cols : List Nat) (terms : Nat → Nat → List (FV × Nat)) (t : Tile) :
    outerStep f64 neg rm rows cols terms t = (cellsOf rows cols).foldl (writeCell (accWidth f64) (fun c => c.1 * accColumns f64 + c.2)
      (fun c old => addTerms f64 neg rm old (terms c.1 c.2))) (t, 0) := by
  rw [show cellsOf rows cols = rows.flatMap (fun i => cols.map (fun j => (i, j))) from rfl, List.foldl_flatMap]
  have hcell : ∀ (acc : Tile × Nat) (i : Nat), (cols.map (fun j => (i, j))).foldl (writeCell (accWidth f64) (fun c => c.1 * accColumns f64 + c.2)
      (fun c old => addTerms f64 neg rm old (terms c.1 c.2))) acc =
      cols.foldl (fun acc j => writeCell (accWidth f64) (fun c => c.1 * accColumns f64 + c.2)
        (fun c old => addTerms f64 neg rm old (terms c.1 c.2)) acc (i, j)) acc := fun acc i => List.foldl_map
  simp only [hcell]
  cases f64 <;> simp only [outerStep, writeCell, addTerms, Nat.lor_assoc] <;> rfl

theorem accumulated_lt (f64 neg : Bool) (vt : Word) (old : Nat) (ts : List (FV × Nat)) :
    (accumulated f64 neg vt old ts).1 < 2 ^ accWidth f64 := by
  have h := fround_lt (accFormat_sound f64) (roundMode vt) 0
    (fadd (roundMode vt) (fval (accFormat f64) old) (sumExact (ts.map (fun p => if neg then p.1.neg else p.1))).1).1
  cases f64 <;> exact h
theorem cell_fits (f64 : Bool) {i j : Nat} (hi : i < 128) (hj : j < accColumns f64) :
    accWidth f64 * (i * accColumns f64 + j) + accWidth f64 ≤ 393216 := by
  cases f64 <;> simp only [accWidth, accColumns, Bool.false_eq_true, if_false, if_true] at hj ⊢ <;> omega
theorem cell_inj {n i j k l : Nat} (hj : j < n) (hl : l < n) (h : i * n + j = k * n + l) : i = k ∧ j = l := by
  have h1 := congrArg (· / n) h
  have h2 := congrArg (· % n) h
  have hn : 0 < n := by omega
  simp only [Nat.mul_comm _ n, Nat.mul_add_div hn, Nat.div_eq_of_lt hj, Nat.div_eq_of_lt hl, Nat.mul_add_mod, Nat.mod_eq_of_lt hj,
    Nat.mod_eq_of_lt hl] at h1 h2
  exact ⟨by omega, h2⟩
theorem cells_nodup {n : Nat} {rows cols : List Nat} (hr : rows.Nodup) (hc : cols.Nodup) (hlt : ∀ j ∈ cols, j < n) :
    ((cellsOf rows cols).map (fun c => c.1 * n + c.2)).Nodup := by
  refine List.Nodup.map_on ?_ (hr.product hc)
  intro c hcm d hdm h
  obtain ⟨h1, h2⟩ := cell_inj (hlt _ (mem_cellsOf.mp hcm).2) (hlt _ (mem_cellsOf.mp hdm).2) h
  exact Prod.ext h1 h2

/-! ### What an outer product reads (R167) -/

/-- What an outer product reads: the captured VTYPE, its two lengths, and its registers. -/
structure OuterIn where
  vt : Word
  la : Nat
  lb : Nat
  ma : MReg
  mb : MReg
  va : VReg
  va1 : VReg
  vb : VReg
  ka : KReg
  kb : KReg

namespace OuterIn
variable (q : OuterIn) (o : OpM8)

def f64 (o : OpM8) : Bool := o.fa.toNat == 0
def depth : Nat := outDepth o.fa.toNat o.fb.toNat (vtPln q.vt)
/-- Whether depth k of row i, and of column j, takes part. -/
def onA (i k : Nat) : Bool :=
  let p := if f64 o then i % 64 else i * q.depth o + k
  decide (p < q.la) && flag q.ma p
def onB (j k : Nat) : Bool :=
  let p := j * q.depth o + k
  decide (p < q.lb) && flag q.mb p
/-- The product of row i and column j at depth k. -/
def term (i j k : Nat) : FV × Nat :=
  prod4 (if vtBlkA q.vt = 0 then FV.one else scaleVal (vtSfmt q.vt) (elem q.ka 8 i))
    (readFmt q.vt o.fa.toNat (if f64 o then elem (if i < 64 then q.va else q.va1) 64 (i % 64)
      else elem q.va (fmtWidth o.fa.toNat) (i * q.depth o + k)))
    (if vtBlkB q.vt = 0 then FV.one else scaleVal (vtSfmt q.vt) (elem q.kb 8 j))
    (readFmt q.vt o.fb.toNat (elem q.vb (fmtWidth o.fb.toNat) (j * q.depth o + k)))
def terms (i j : Nat) : List (FV × Nat) := ((List.range (q.depth o)).filter (fun k => q.onA o i k && q.onB o j k)).map (q.term o i j)
def rows : List Nat := below (fun i => (List.range (q.depth o)).any (q.onA o i)) 128
def cols : List Nat := below (fun j => (List.range (q.depth o)).any (q.onB o j)) (accShape (f64 o)).2
end OuterIn

/-- What the effect of an outer product finds in the state in which it works. -/
def outerIn (o : OpM8) (c : Cmd) (s : State) : OuterIn :=
  { vt := c.vtype, la := c.len o.la (vlmax (fmtWidth o.fa.toNat)), lb := c.lenB o.la o.lb (vlmax (fmtWidth o.fb.toNat)),
    ma := s.mreg o.ma.toNat, mb := s.mreg o.mb.toNat, va := s.vreg o.va.toNat, va1 := s.vreg (o.va.toNat + 1), vb := s.vreg o.vb.toNat,
    ka := s.kreg o.ka.toNat, kb := s.kreg o.kb.toNat }
/-- The tile that an outer product leaves, with its flags. -/
def OuterIn.product (q : OuterIn) (o : OpM8) (neg : Bool) (t : Tile) : Tile × Nat :=
  outerStep (OuterIn.f64 o) neg (arithRm (vtRm q.vt)) (q.rows o) (q.cols o) (q.terms o) t
theorem outerEff_eq (o : OpM8) (neg : Bool) : outerEff o neg = whole (fun c s =>
    let r := (outerIn o c s).product o neg (s.areg o.d.toNat)
    .ok ((s.setA o.d.toNat r.1).raise c r.2)) := rfl

/-- What an outer product of the lengths la and lb that commits in s reads. -/
def outerOf (s : State) (o : OpM8) (la lb : Nat) : OuterIn :=
  { vt := s.slot.vtype, la := la, lb := lb, ma := s.mreg o.ma.toNat, mb := s.mreg o.mb.toNat, va := s.vreg o.va.toNat,
    va1 := s.vreg (o.va.toNat + 1), vb := s.vreg o.vb.toNat, ka := s.kreg o.ka.toNat, kb := s.kreg o.kb.toNat }

section
variable (s : State) (o : OpM8) (la lb : Nat)

theorem onA_iff (i k : Nat) : (outerOf s o la lb).onA o i k = true ↔
    takesPart s o.ma la (rowPosition (o.fa.toNat == 0) (outDepth o.fa.toNat o.fb.toNat (vtPln s.slot.vtype)) i k) := by
  rw [OuterIn.onA, Bool.and_eq_true, decide_eq_true_eq]
  rfl
theorem onB_iff (j k : Nat) : (outerOf s o la lb).onB o j k = true ↔
    takesPart s o.mb lb (j * outDepth o.fa.toNat o.fb.toNat (vtPln s.slot.vtype) + k) := by
  rw [OuterIn.onB, Bool.and_eq_true, decide_eq_true_eq]
  rfl
theorem mem_below_any {p : Nat → Nat → Bool} {d n i : Nat} :
    i ∈ below (fun i => (List.range d).any (p i)) n ↔ i < n ∧ ∃ k, k < d ∧ p i k = true := by
  simp [below]
theorem mem_rows (i : Nat) : i ∈ (outerOf s o la lb).rows o ↔ i < 128 ∧ ∃ k, k < outDepth o.fa.toNat o.fb.toNat (vtPln s.slot.vtype) ∧
    takesPart s o.ma la (rowPosition (o.fa.toNat == 0) (outDepth o.fa.toNat o.fb.toNat (vtPln s.slot.vtype)) i k) := by
  rw [OuterIn.rows, mem_below_any]
  exact and_congr_right fun _ => exists_congr fun k => and_congr_right fun _ => onA_iff s o la lb i k
theorem mem_cols (j : Nat) : j ∈ (outerOf s o la lb).cols o ↔ j < accColumns (o.fa.toNat == 0) ∧
    ∃ k, k < outDepth o.fa.toNat o.fb.toNat (vtPln s.slot.vtype) ∧
      takesPart s o.mb lb (j * outDepth o.fa.toNat o.fb.toNat (vtPln s.slot.vtype) + k) := by
  have hshape : (accShape (OuterIn.f64 o)).2 = accColumns (o.fa.toNat == 0) := by
    unfold accShape accColumns OuterIn.f64
    split <;> rfl
  rw [OuterIn.cols, mem_below_any, hshape]
  exact and_congr_right fun _ => exists_congr fun k => and_congr_right fun _ => onB_iff s o la lb j k
/-- The cells of the product are the touched elements. -/
theorem mem_cells (i j : Nat) : (i, j) ∈ cellsOf ((outerOf s o la lb).rows o) ((outerOf s o la lb).cols o) ↔ touched s o la lb i j := by
  rw [mem_cellsOf, mem_rows, mem_cols]
  unfold touched
  tauto
/-- The terms of an element are those of the statement. -/
theorem terms_eq {i : Nat} (hi : i < 128) (j : Nat) : (outerOf s o la lb).terms o i j = outerTerms s o la lb i j := by
  have hreg : (if i < 64 then s.vreg o.va.toNat else s.vreg (o.va.toNat + 1)) = s.vreg (o.va.toNat + i / 64) := by
    split
    · rw [Nat.div_eq_of_lt ‹_›, Nat.add_zero]
    · rw [show i / 64 = 1 by omega]
  rw [outerTerms, filterMap_if, OuterIn.terms]
  congr 1
  · funext k
    rw [OuterIn.term]
    simp only [outerOf, hreg]
    rfl
  · apply List.filter_congr
    intro k _
    rw [Bool.eq_iff_iff, Bool.and_eq_true, onA_iff, onB_iff, decide_eq_true_eq]
    simp only [takesPart, and_assoc]
end

/-! ### The product of the statement (R169) -/

section
variable {s : State} {o : OpM8} {la lb : Nat} {neg : Bool}

/-- The cells of an outer product, and what each takes. -/
def outerCells (s : State) (o : OpM8) (la lb : Nat) : List (Nat × Nat) :=
  cellsOf ((outerOf s o la lb).rows o) ((outerOf s o la lb).cols o)
def outerCell (s : State) (o : OpM8) (la lb : Nat) (neg : Bool) (c : Nat × Nat) (old : Nat) : Nat × Nat :=
  accumulated (o.fa.toNat == 0) neg s.slot.vtype old ((outerOf s o la lb).terms o c.1 c.2)
def cellIndex (o : OpM8) (c : Nat × Nat) : Nat := c.1 * accColumns (o.fa.toNat == 0) + c.2
theorem product_eq (t : Tile) : (outerOf s o la lb).product o neg t =
    (outerCells s o la lb).foldl (writeCell (accWidth (o.fa.toNat == 0)) (cellIndex o) (outerCell s o la lb neg)) (t, 0) :=
  outerStep_eq _ _ _ _ _ _ _
theorem mem_outerCells {c : Nat × Nat} : c ∈ outerCells s o la lb ↔ touched s o la lb c.1 c.2 := mem_cells s o la lb c.1 c.2
theorem outerCells_fit (c : Nat × Nat) (hc : c ∈ outerCells s o la lb) :
    accWidth (o.fa.toNat == 0) * cellIndex o c + accWidth (o.fa.toNat == 0) ≤ 393216 := by
  obtain ⟨hi, hj, -, -⟩ := mem_outerCells.mp hc
  exact cell_fits _ hi hj
theorem outerCells_nodup : ((outerCells s o la lb).map (cellIndex o)).Nodup := by
  refine cells_nodup (List.nodup_range.filter _) (List.nodup_range.filter _) (fun j hj => ?_)
  exact ((mem_cols s o la lb j).mp hj).1
theorem outerCell_eq {i j : Nat} (hi : i < 128) (old : Nat) : outerCell s o la lb neg (i, j) old =
    accumulated (o.fa.toNat == 0) neg s.slot.vtype old (outerTerms s o la lb i j) := by
  rw [outerCell, terms_eq s o la lb hi]

theorem elem_product_touched (t : Tile) {i j : Nat} (h : touched s o la lb i j) :
    elem ((outerOf s o la lb).product o neg t).1 (accWidth (o.fa.toNat == 0)) (i * accColumns (o.fa.toNat == 0) + j) =
      (accumulated (o.fa.toNat == 0) neg s.slot.vtype (elem t (accWidth (o.fa.toNat == 0)) (i * accColumns (o.fa.toNat == 0) + j))
        (outerTerms s o la lb i j)).1 := by
  have hmem : (i, j) ∈ outerCells s o la lb := mem_outerCells.mpr h
  have hcell := elem_cells_mem (G := outerCell s o la lb neg) _ (t, 0) outerCells_fit outerCells_nodup hmem
  rw [outerCell_eq h.1, Nat.mod_eq_of_lt (accumulated_lt _ _ _ _ _)] at hcell
  rw [product_eq]
  exact hcell
theorem elem_product_untouched (t : Tile) {i j : Nat} (hi : i < 128) (hj : j < accColumns (o.fa.toNat == 0)) (h : ¬touched s o la lb i j) :
    elem ((outerOf s o la lb).product o neg t).1 (accWidth (o.fa.toNat == 0)) (i * accColumns (o.fa.toNat == 0) + j) =
      elem t (accWidth (o.fa.toNat == 0)) (i * accColumns (o.fa.toNat == 0) + j) := by
  rw [product_eq]
  refine elem_cells_ne _ (t, 0) _ (cell_fits _ hi hj) (fun c hc hpos => h ?_)
  have htouched := mem_outerCells.mp hc
  obtain ⟨h1, h2⟩ := cell_inj htouched.2.1 hj hpos
  rwa [h1, h2] at htouched
theorem flags_product (t : Tile) (k : Nat) : ((outerOf s o la lb).product o neg t).2.testBit k = true ↔
    ∃ i j, touched s o la lb i j ∧ (accumulated (o.fa.toNat == 0) neg s.slot.vtype
      (elem t (accWidth (o.fa.toNat == 0)) (i * accColumns (o.fa.toNat == 0) + j)) (outerTerms s o la lb i j)).2.testBit k = true := by
  rw [product_eq, flags_cells (outerCells s o la lb) (t, 0) outerCells_fit outerCells_nodup]
  constructor
  · rintro (h | ⟨⟨i, j⟩, hmem, h⟩)
    · simp at h
    · have htouched := mem_outerCells.mp hmem
      rw [outerCell_eq htouched.1] at h
      exact ⟨i, j, htouched, h⟩
  · rintro ⟨i, j, htouched, h⟩
    refine .inr ⟨(i, j), mem_outerCells.mpr htouched, ?_⟩
    rw [outerCell_eq htouched.1]
    exact h
end

/-! ### OPACC and OPSUB in a quiet core (R164, R167, R168) -/

/-- The state whose length queue has been popped differs in the register files alone. -/
theorem poppedLen_frame {s : State} (hfree : s.Free) (len : BitVec 3) :
    (∀ K, s.setCore K = (poppedLen s len).setCore K) ∧ (poppedLen s len).Free ∧ (poppedLen s len).core = { s.core with f := popF s.core.f len } ∧
      (poppedLen s len).hi = s.hi := by
  unfold poppedLen popF
  split
  · exact ⟨fun _ => rfl, hfree, rfl, rfl⟩
  · refine ⟨fun K => (State.setCore_setCore _ _ _).symm, ?_, ?_, rfl⟩
    · rw [State.Free, State.slot, State.modF_eq, State.core_modCore]
      exact hfree
    · rw [State.modF_eq, State.core_modCore]
      simp only [List.drop_one]
/-- The core of a command with two lengths, seen from the state whose second queue has been popped. -/
theorem working_poppedLen (t : Ticket) {s : State} (hfree : s.Free) (la lb : BitVec 3) (m : Nat) (ns : List Nat) :
    s.setCore (t.coreOf s (popF (popF s.core.f lb) la) ns) =
      working (poppedLen s lb) (t.core (poppedLen s lb) la m) (t.cmdOf s ns) (popF (poppedLen s lb).core.f la) 0 0 := by
  obtain ⟨hset, hfree', hcore, hhi⟩ := poppedLen_frame hfree lb
  have hslot : (poppedLen s lb).slot = s.slot := by rw [State.slot, hcore, hhi]; rfl
  have hst : ((poppedLen s lb).beginVec t.eng t.ins).core.st = (s.beginVec t.eng t.ins).core.st := by
    obtain ⟨F, hF⟩ := beginVec_modCore t.eng t.ins
    rw [(hF _).1, (hF _).1, hcore]
  rw [working, ← hset, Ticket.coreOf, Ticket.core, beginVec_core s, beginVec_core (poppedLen s lb), hst, hcore, hhi,
    State.slot_retire hfree', State.slot_retire hfree, hslot]
  congr 1
  cases s.hi <;> rfl

/-- The counts of two length operands stand in their queues. -/
theorem holds_of_pairIs {s : State} {la lb : BitVec 3} {na nb : Nat} (h : PairIs s la lb na nb) :
    Holds s.core.f ([la, lb].filterMap lenQueue) (popped la na ++ popped lb nb) := by
  obtain ⟨ha, hb⟩ := h
  unfold LenIs at ha hb
  unfold popped
  by_cases ha4 : la.toNat < 4 <;> by_cases hb4 : lb.toNat < 4
  · simp [lenQueue_small ha4, lenQueue_small hb4, ha4, hb4, Holds]
  · rw [if_pos (.inl ha4), if_neg hb4] at hb
    simpa [lenQueue_small ha4, lenQueue_big hb4, ha4, hb4, Holds] using hb
  · rw [if_neg ha4] at ha
    simpa [lenQueue_big ha4, lenQueue_small hb4, ha4, hb4, Holds] using ha
  · rw [if_neg ha4] at ha
    rw [lens_pair, lenQueue_big ha4, lenQueue_big hb4, if_neg ha4, if_neg hb4]
    have hlt : lb.toNat - 4 < 4 := by have := lb.isLt; omega
    refine ⟨na, [nb], rfl, ha.1, ha.2, nb, [], rfl, ?_⟩
    by_cases heq : la = lb
    · subst heq
      rw [if_neg (by simp [ha4])] at hb
      simpa [dropCount, decOcc, hlt, List.head?_tail, Holds] using hb
    · have hne : la.toNat - 4 ≠ lb.toNat - 4 := fun h => heq (BitVec.eq_of_toNat_eq (by omega))
      rw [if_pos (.inr heq), if_neg hb4] at hb
      simpa [dropCount, decOcc, hne, Holds] using hb
theorem lengths_of_pair (t : Ticket) (s : State) {la lb : BitVec 3} {na nb : Nat} (h : PairIs s la lb na nb) (wa wb : Nat) :
    (t.cmdOf s (popped la na ++ popped lb nb)).len la (vlmax wa) = boundLen wa la na ∧
      (t.cmdOf s (popped la na ++ popped lb nb)).lenB la lb (vlmax wb) = boundLen wb lb nb := by
  obtain ⟨ha, hb⟩ := h
  have hvl : (t.cmdOf s (popped la na ++ popped lb nb)).vl = s.slot.vl := rfl
  have hvls : (t.cmdOf s (popped la na ++ popped lb nb)).vls = popped la na ++ popped lb nb := rfl
  unfold LenIs at ha hb
  unfold Cmd.len Cmd.lenB boundLen
  rw [hvl, hvls]
  unfold popped
  by_cases ha4 : la.toNat < 4 <;> by_cases hb4 : lb.toNat < 4
  · rw [if_pos ha4] at ha
    rw [if_pos (.inl ha4), if_pos hb4] at hb
    simp [ha4, hb4, ha, hb]
  · rw [if_pos ha4] at ha
    simp [ha4, hb4, ha, Nat.not_lt.mp hb4, show ¬4 ≤ la.toNat by omega, nthD]
  · have hne : la ≠ lb := fun h => ha4 (h ▸ hb4)
    rw [if_pos (.inr hne), if_pos hb4] at hb
    simp [ha4, hb4, hb, Nat.not_lt.mp ha4, nthD]
  · simp [ha4, hb4, Nat.not_lt.mp ha4, Nat.not_lt.mp hb4, nthD]

/-- What OPACC and OPSUB enqueue. -/
def outerTicket (o : OpM8) (i : Instr) : Ticket :=
  { eng := .mat, ins := i, lens := [o.la, o.lb],
    rd := [.v o.va.toNat, .v (o.va.toNat + 1), .v o.vb.toNat, .k o.ka.toNat, .k o.kb.toNat, .m o.ma.toNat, .m o.mb.toNat, .a o.d.toNat],
    wr := [.a o.d.toNat] }
/-- The files and flags of an outer product that works on the files f. -/
def outerFiles (s : State) (o : OpM8) (la lb : Nat) (neg : Bool) (f : Files) : Files × Nat :=
  let r := (outerOf s o la lb).product o neg (s.areg o.d.toNat)
  ({ f with a := f.a.setIfInBounds o.d.toNat r.1 }, r.2)

theorem outer_runs {s : State} {i : Instr} {o : OpM8} {neg : Bool} {na nb la lb : Nat} (hq : s.Quiet) (hw : waitsForNothing i = true)
    (hn : PairIs s o.la o.lb na nb) (hla : la = boundLen (fmtWidth o.fa.toNat) o.la na) (hlb : lb = boundLen (fmtWidth o.fb.toNat) o.lb nb) :
    ∃ t, engine (outerTicket o i) (outerEff o neg) s = .next t ∧
      FilesRun .mat i o.la (outerFiles s o la lb neg (popF (poppedLen s o.lb).core.f o.la)).1
        (outerFiles s o la lb neg (popF (poppedLen s o.lb).core.f o.la)).2 0 (poppedLen s o.lb) t := by
  obtain ⟨hset, hfree, hcore, hhi⟩ := poppedLen_frame hq.free o.lb
  have hv : ∀ n, (poppedLen s o.lb).vreg n = s.vreg n := fun n => by rw [State.vreg, hcore]; exact popF_vreg s o.lb n
  have hk : ∀ n, (poppedLen s o.lb).kreg n = s.kreg n := fun n => by rw [State.kreg, hcore]; exact popF_kreg s o.lb n
  have ha : ∀ n, (poppedLen s o.lb).areg n = s.areg n := fun n => by rw [State.areg, hcore]; exact popF_areg s o.lb n
  have hm : ∀ n, (poppedLen s o.lb).mreg n = s.mreg n := fun n => by rw [State.mreg, hcore]; exact popF_mreg s o.lb n
  obtain ⟨hlenA, hlenB⟩ := lengths_of_pair (outerTicket o i) s hn (fmtWidth o.fa.toNat) (fmtWidth o.fb.toNat)
  rw [outerEff_eq]
  refine engine_pops_from (t := outerTicket o i) (ns := popped o.la na ++ popped o.lb nb) (m := 0) hq rfl (holds_of_pairIs hn) hw rfl hset hfree hhi ?_
  rw [show (outerTicket o i).lens = [o.la, o.lb] from rfl, popAll_pair, working_poppedLen _ hq.free o.la o.lb 0]
  have hin : outerIn o ((outerTicket o i).cmdOf s (popped o.la na ++ popped o.lb nb)) (working (poppedLen s o.lb)
      ((outerTicket o i).core (poppedLen s o.lb) o.la 0) ((outerTicket o i).cmdOf s (popped o.la na ++ popped o.lb nb))
      (popF (poppedLen s o.lb).core.f o.la) 0 0) = outerOf s o la lb := by
    simp only [outerIn, hlenA, hlenB, working_vreg, popF_vreg, working_kreg, popF_kreg, working_mreg, popF_mreg, hv, hk, hm, ← hla, ← hlb]
    rfl
  simp only [hin, working_areg, popF_areg, ha, working_setA]
  rw [working_raise _ _ _ _ _ _ rfl, Nat.zero_or]
  rfl

/-- Settles O16: the checks at commit trap first; then the command writes each touched element once, as the statement says. -/
theorem outerProductsAccumulate : Obligations.OuterProductsAccumulate := by
  intro s i o neg na nb hwf hi
  have hexec : exec i s = outerForm o i (outerEff o neg) s := by
    rcases hi with ⟨rfl, rfl⟩ | ⟨rfl, rfl⟩ <;> rfl
  have hw : waitsForNothing i = true := by
    rcases hi with ⟨rfl, rfl⟩ | ⟨rfl, rfl⟩ <;> rfl
  have hd : o.d.toNat < 4 := by
    by_contra h
    have h4 : 4 ≤ o.d.toNat := by omega
    rcases hi with ⟨rfl, rfl⟩ | ⟨rfl, rfl⟩ <;> simp [Instr.WellFormed, Instr.defect, OpM8.defect, firstOf, h4] at hwf
  have hpresent : (s.full = true ∨ o.fa ≠ 0) → (s.full || o.fa != 0#4) = true := by
    intro h
    rw [Bool.or_eq_true, bne_iff_ne]
    exact h
  refine ⟨fun hpart hfa => ?_, fun hpart hclash => ?_, fun hq hpart hclash hn la lb hla hlb => ?_⟩
  · refine traps_of (code := 0x04) (sub := 0x00) (hexec.trans ?_) (by decide) (by decide)
    rw [outerForm, hpart, hfa]
    rfl
  · refine traps_of (code := 0x01) (sub := 0x08) (hexec.trans ?_) (by decide) (by decide)
    rw [outerForm, hpresent hpart, hclash]
    rfl
  · obtain ⟨t, ht, hrun⟩ := outer_runs (neg := neg) hq hw hn hla hlb
    have hengine : exec i s = engine (outerTicket o i) (outerEff o neg) s := by
      rw [hexec, outerForm, hpresent hpart, hclash]
      rfl
    obtain ⟨-, -, hcore, hhi⟩ := poppedLen_frame hq.free o.lb
    have hslot : (poppedLen s o.lb).slot = s.slot := by rw [State.slot, hcore, hhi]; rfl
    have hareg : t.areg o.d.toNat = ((outerOf s o la lb).product o neg (s.areg o.d.toNat)).1 := by
      rw [hrun.areg]
      exact (getD_setIfInBounds _ _ _ _ _ hd).trans (if_pos rfl)
    refine ⟨t, hengine.trans ht, hrun.frame ((FilesFrame.popF _ _ _ _ _ _ _).setA _ (by simp)), ?_, fun r j hr hj => ⟨fun h => ?_, fun h => ?_⟩,
      fun k _ => ?_⟩
    · have hadv := hrun.advanced
      rwa [Advanced, hslot] at hadv
    · rw [hareg, elem_product_touched _ h]
    · rw [hareg, elem_product_untouched _ hr hj h]
    · rw [hrun.status, hslot, getLsbD_statusWith_flags]
      exact or_congr_right (and_congr_right fun _ => and_congr_right fun _ => flags_product _ _)

end Sys2Proof.Machine
end

section
/-! SUPPORT. A command that takes a step from its queue (R275, R276), and the rows of the table that act on one core. -/

namespace Sys2Proof.Machine

/-! ### States that differ in the current core -/

/-- `t` is `s` but for its current core, which is `K`. -/
structure Leaves (s t : State) (K : Core) : Prop where
  same : ∀ L, t.setCore L = s.setCore L
  core : t.core = K

namespace Leaves
variable {s t : State} {K : Core}

theorem refl (s : State) : Leaves s s s.core := ⟨fun _ => rfl, rfl⟩
theorem setCore (s : State) (K : Core) : Leaves s (s.setCore K) K := ⟨fun _ => State.setCore_setCore _ _ _, State.core_setCore _ _⟩
theorem modCore (h : Leaves s t K) (g : Core → Core) : Leaves s (t.modCore g) (g K) := by
  rw [State.modCore_eq, h.core, h.same]
  exact setCore s (g K)
theorem place (h : Leaves s t K) : t.cl = s.cl ∧ t.co = s.co ∧ t.hi = s.hi ∧ t.mem = s.mem := by
  have hs := h.same K
  have h1 := congrArg State.cl hs
  have h2 := congrArg State.co hs
  have h3 := congrArg State.hi hs
  have h4 := congrArg State.mem hs
  exact ⟨h1, h2, h3, h4⟩
theorem slot (h : Leaves s t K) : t.slot = K.slot s.hi := by
  obtain ⟨-, -, hhi, -⟩ := h.place
  rw [State.slot, h.core, hhi]
theorem coreId (h : Leaves s t K) : t.coreId = s.coreId := by
  obtain ⟨hcl, hco, -, -⟩ := h.place
  rw [State.coreId, State.coreId, hcl, hco]
/-- A slot changed. -/
theorem modSlot (h : Leaves s t K) (f : Slot → Slot) : Leaves s (t.modSlot f) (K.setSlot s.hi (f (K.slot s.hi))) := by
  obtain ⟨-, -, hhi, -⟩ := h.place
  rw [State.modSlot_eq, hhi]
  exact h.modCore _
/-- The only entry of a queue changed. -/
theorem modCmd_eq {e : Cmd} {q : Nat} (h : Leaves s t K) (hK : K.queue = [e]) (he : e.qpos = q) (f : Cmd → Cmd) :
    t.modCmd q f = s.setCore { K with queue := [f e] } := by
  rw [State.modCmd, State.modCore_eq, h.core, h.same, hK, show replFirst (fun e => e.qpos == q) f [e] = [f e] by simp [replFirst, he]]
theorem modCmd {e : Cmd} {q : Nat} (h : Leaves s t K) (hK : K.queue = [e]) (he : e.qpos = q) (f : Cmd → Cmd) :
    Leaves s (t.modCmd q f) { K with queue := [f e] } := by
  rw [h.modCmd_eq hK he]
  exact setCore s _
theorem finishCmd {c e : Cmd} (h : Leaves s t K) (hK : K.queue = [e]) (he : e.qpos = c.qpos) :
    Leaves s (t.finishCmd c) { K with queue := [{ e with done := true }] } := h.modCmd hK he _
theorem raise {c e : Cmd} (h : Leaves s t K) (hK : K.queue = [e]) (he : e.qpos = c.qpos) (fl : Nat) :
    Leaves s (t.raise c fl) { K with queue := [{ e with flags := e.flags ||| fl }] } := by
  unfold State.raise
  split
  · subst fl
    rw [Nat.or_zero, ← hK]
    exact h
  · exact h.modCmd hK he _
theorem cmd {e : Cmd} {q : Nat} (h : Leaves s t K) (hK : K.queue = [e]) (he : e.qpos = q) : t.core.cmd q = some e := by
  simp [Core.cmd, h.core, hK, firstSat, he]
/-- The only command of a queue retires when it is done, where no trace takes it (R17, R62). -/
theorem retire {e : Cmd} {q : Nat} (h : Leaves s t K) (hK : K.queue = [e]) (he : e.qpos = q) (hd : e.done = true) (hv : e.eng ≠ .vec) :
    Leaves s (t.retireCmd q) (({ K with queue := [] } : Core).setSlot e.hi
      { K.slot e.hi with status := statusWith (K.slot e.hi).status e.flags e.mrs }) := by
  have hnt : t.traceCmd e false = t := by simp [State.traceCmd, Cmd.traces, hv]
  rw [retireCmd_single (h.core ▸ hK) he hd, hnt]
  have hm := h.modCore (fun k => ({ k with queue := dropFirst (fun e => e.qpos == q) k.queue } : Core).setSlot e.hi
    { k.slot e.hi with status := statusWith (k.slot e.hi).status e.flags e.mrs })
  rw [hK, dropFirst_single _ _ (by simp [he])] at hm
  exact hm
/-- A command that is not done stays in its queue. -/
theorem retire_waiting {e : Cmd} {q : Nat} (h : Leaves s t K) (hK : K.queue = [e]) (he : e.qpos = q) (hd : e.done = false) : t.retireCmd q = t := by
  have hret : retirable e t.core.queue = false := by simp [h.core, hK, retirable, hd]
  unfold State.retireCmd
  simp only [h.cmd hK he, hret]
  rfl
end Leaves

/-! ### One step of a command -/

theorem drive_ends {run : Run1} {q n : Nat} {s u : State} {c e : Cmd} (hc : s.core.cmd q = some c) (hhi : c.hi = s.hi)
    (hr : State.inView (c.viewNo s.slot) (run c) s = .ok u) (hu : u.hi = s.hi) (he : u.core.cmd q = some e) (hd : e.done = true) :
    s.drive run q (n + 1) = .ok (u.retireCmd q) := by
  have hu' : ({ u with hi := s.hi } : State) = u := by rw [← hu]
  have hr' : State.inView (c.viewNo (s.core.slot s.hi)) (run c) s = .ok u := hr
  unfold State.drive State.pump
  simp [hc, hhi, hr', hu', he, hd]
theorem drive_waits {run : Run1} {q n : Nat} {s u : State} {c : Cmd} (hc : s.core.cmd q = some c) (hhi : c.hi = s.hi)
    (hr : State.inView (c.viewNo s.slot) (run c) s = .error (.stall u)) (hu : u.hi = s.hi) :
    s.drive run q (n + 1) = .ok (u.retireCmd q) := by
  have hu' : ({ u with hi := s.hi } : State) = u := by rw [← hu]
  have hr' : State.inView (c.viewNo (s.core.slot s.hi)) (run c) s = .error (.stall u) := hr
  unfold State.drive State.pump
  simp [hc, hhi, hr', hu']

/-! ### A row that acts on one core (R275, R276) -/

theorem onCore_ok {cl co : Nat} {f : State → M State} {s t : State} (h : f (s.at_ cl co false) = .ok t) :
    onCore cl co f s = .next (t.at_ s.cl s.co s.hi) := by
  simp only [onCore, h]
/-- What is left of the core on which a row acted. -/
theorem Leaves.back {s t : State} {cl co : Nat} {K : Core} (h : Leaves (s.at_ cl co false) t K) :
    ((t.at_ s.cl s.co s.hi).at_ cl co false).core = K ∧ (t.at_ s.cl s.co s.hi).mem = s.mem ∧
      ((t.at_ s.cl s.co s.hi).cl, (t.at_ s.cl s.co s.hi).co, (t.at_ s.cl s.co s.hi).hi) = (s.cl, s.co, s.hi) := by
  obtain ⟨hcl, hco, hhi, hmem⟩ := h.place
  have hat : (t.at_ s.cl s.co s.hi).at_ cl co false = t := by
    change t.at_ cl co false = t
    rw [show cl = t.cl from hcl.symm, show co = t.co from hco.symm, show false = t.hi from hhi.symm]
    rfl
  exact ⟨by rw [hat, h.core], hmem, rfl⟩

/-- COMMAND_RETIRE of a command that has done its last step (R17, R62). -/
theorem commandRetire_done {s u : State} {cl co q : Nat} {c : Cmd} (hu : u = s.at_ cl co false) (hqueue : u.core.queue = [c]) (hq : c.qpos = q)
    (hd : c.done = true) (hv : c.eng ≠ .vec) (hhi : c.hi = false) :
    ∃ t, exec (.commandRetire cl co q) s = .next (t.at_ s.cl s.co s.hi) ∧
      Leaves u t (({ u.core with queue := [] } : Core).setSlot false { u.slot with status := statusWith u.slot.status c.flags c.mrs }) := by
  have hcmd := (Leaves.refl u).cmd hqueue hq
  have hunder : c.under = false := by simp [Cmd.under, hd]
  have hret := (Leaves.refl u).retire hqueue hq hd hv
  have huhi : u.hi = false := by rw [hu]; rfl
  rw [hhi] at hret
  refine ⟨u.retireCmd q, ?_, by rw [State.slot, huhi]; exact hret⟩
  change execCommandRetire cl co q s = _
  unfold execCommandRetire
  refine onCore_ok ?_
  rw [← hu]
  simp only [hcmd, hunder, Bool.false_and, Bool.false_eq_true, if_false]

/-- Retirement of a finished command (R17, R275): its flags and its residue count reach STATUS. -/
theorem finishedCommandRetires (s u : State) (cl co q : Nat) (c : Cmd) (hu : u = s.at_ cl co false) (hqueue : u.core.queue = [c]) (hq : c.qpos = q)
    (hd : c.done = true) (hv : c.eng ≠ .vec) (hhi : c.hi = false) :
    Runs (.commandRetire cl co q) s (fun t => (t.at_ cl co false).core.queue = [] ∧ (t.at_ cl co false).core.f = u.core.f ∧
      (∀ k, k < 7 → (t.at_ cl co false).slot.status.getLsbD (41 + k) = (u.slot.status.getLsbD (41 + k) || c.flags.testBit k)) ∧
      fld (t.at_ cl co false).slot.status 48 16 = min 65535 (fld u.slot.status 48 16 + c.mrs) ∧
      fld (t.at_ cl co false).slot.status 0 41 = fld u.slot.status 0 41 ∧ t.mem = s.mem ∧ (t.cl, t.co, t.hi) = (s.cl, s.co, s.hi)) := by
  subst hu
  obtain ⟨t, ht, hleaves⟩ := commandRetire_done rfl hqueue hq hd hv hhi
  obtain ⟨hcore, hmem, hplace⟩ := hleaves.back
  have hstatus : ((t.at_ s.cl s.co s.hi).at_ cl co false).slot.status =
      statusWith (s.at_ cl co false).slot.status c.flags c.mrs := by
    rw [State.slot, hcore]
    rfl
  refine ⟨_, ht, by rw [hcore]; rfl, by rw [hcore]; rfl, fun k hk => ?_, ?_, ?_, hmem, hplace⟩
  · rw [hstatus, getLsbD_statusWith (by omega), Nat.add_sub_cancel_left, decide_eq_true (by omega), Bool.true_and]
  · rw [hstatus, fld_statusWith_count]
  · rw [hstatus, fld_statusWith]

/-! ### Dispatch of the oldest command (R275, R276) -/

/-- The result of a step that reads another view of its slot: the same core but for the slot, whose STATUS is as before. -/
theorem turnTo_status (x : Slot) (n : Nat) : (x.turnTo n).status = x.status := by
  unfold Slot.turnTo
  split
  · rfl
  · split <;> rfl
/-- A step of a command that changes its core by g, in whatever view it runs. -/
theorem inView_leaves {f : State → M State} {g : Core → Core} {s t : State} {K : Core} (n : Nat) (h : Leaves s t K)
    (hf : ∀ u L, Leaves s u L → L.queue = K.queue → ∃ v, f u = .ok v ∧ Leaves s v (g L))
    (hg : ∀ L x, g (L.setSlot s.hi x) = (g L).setSlot s.hi x) (hslot : ∀ L, (g L).slot s.hi = L.slot s.hi) :
    ∃ v x, State.inView n f t = .ok v ∧ Leaves s v ((g K).setSlot s.hi x) ∧ x.status = (K.slot s.hi).status := by
  unfold State.inView
  simp only
  split
  · obtain ⟨v, hv, hl⟩ := hf t K h rfl
    refine ⟨v, K.slot s.hi, hv, ?_, rfl⟩
    rw [← hslot K, Core.setSlot_slot]
    exact hl
  · obtain ⟨v, hv, hl⟩ := hf _ _ (h.modSlot (fun x => x.turnTo n)) (Core.setSlot_queue _ _ _)
    have hback := hl.modSlot (fun x => x.turnTo t.slot.ep)
    rw [hg, Core.slot_setSlot, Core.setSlot_setSlot] at hback
    rw [hv]
    exact ⟨_, _, rfl, hback, by rw [turnTo_status, turnTo_status]⟩

/-- The entry of a command without lengths and ranges that has been dispatched. -/
def Cmd.begun (c : Cmd) : Cmd := { c with disp := true, vls := [], ranges := [] }
/-- The only command of a queue, with nothing to wait for, is dispatched and takes its steps. -/
theorem dispatchCmd_single {run : Run1} {u : State} {c : Cmd} {q fuel : Nat} (hqueue : u.core.queue = [c]) (hq : c.qpos = q)
    (hdisp : c.disp = false) (hheld : c.held = false) (hrun : (u.core.slot c.hi).run = .running) (hnone : u.core.heldRanges = [])
    (hpops : c.pops = []) (hv : c.eng ≠ .vec) (hranges : c.ranges = []) (hw : waitsForNothing c.ins = true) :
    u.dispatchCmd run q fuel = (u.modCmd q Cmd.begun).drive run q fuel := by
  have hcmd := (Leaves.refl u).cmd hqueue hq
  have hr : u.rangesOf c = [] := (rangesOf_fixed (fixedRanges_of_waitsForNothing hw) u c rfl hdisp).trans hranges
  have hstart : u.startCmd q = .ok (u.modCmd q Cmd.begun) := by
    unfold State.startCmd
    simp only [hcmd, hpops, hr, State.startCmd.go, State.beginVec, if_neg hv]
    rfl
  have hready : u.copyReady { c with ranges := [], wr := u.writes c } = true := copyReady_of_waitsForNothing hw u _ rfl
  have hstop : (Run.running != Run.stopped) = true := by decide
  unfold State.dispatchCmd
  simp only [hcmd, hr, hnone, hqueue, hstart]
  rw [hready, hrun, hstop]
  simp [dispatchable, hdisp, hheld, meetsHeld_nil]

/-! ### MZERO (R170) from the queue -/

/-- The core after a command has cleared tile d and done its last step. -/
def cleared (d : Nat) (c : Cmd) (K : Core) : Core :=
  { K with f := { K.f with a := K.f.a.setIfInBounds d 0 }, queue := [{ c with done := true }] }
theorem runCmd_mzero {d : BitVec 6} {c : Cmd} (hins : c.ins = .mzero d) {s u : State} {L : Core} (h : Leaves s u L) (hL : L.queue = [c]) :
    ∃ v, runCmd c u = .ok v ∧ Leaves s v (cleared d.toNat c L) := by
  have hrun : runCmd c u = .ok ((u.setA d.toNat 0).finishCmd c) := by
    unfold runCmd
    rw [hins]
    rfl
  exact ⟨_, hrun, (h.modCore (fun k => { k with f := { k.f with a := k.f.a.setIfInBounds d.toNat 0 } })).finishCmd hL rfl⟩

/-- COMMAND_DISPATCH with an engine's oldest command alone in the queue: it is dispatched. -/
theorem commandDispatch_oldest {s u v : State} {cl co : Nat} {c : Cmd} (hu : u = s.at_ cl co false) (hpre : u.clus.preempt = false)
    (heager : u.eager = true) (hqueue : u.core.queue = [c]) (heng : c.eng = .mat) (hdisp : c.disp = false)
    (h : u.dispatchCmd runCmd c.qpos driveFuel = .ok v) : exec (.commandDispatch cl co 1) s = .next (v.at_ s.cl s.co s.hi) := by
  change execCommandDispatch cl co 1 s = _
  unfold execCommandDispatch
  refine onCore_ok ?_
  rw [← hu]
  have hunder : c.under = false := by simp [Cmd.under, hdisp]
  have hwaiting : firstSat (fun c => c.eng == Engine.mat && c.under && !c.ownRow) u.core.queue = none := by simp [hqueue, firstSat, hunder]
  have hnext : firstSat (fun c => c.eng == Engine.mat && !c.disp) u.core.queue = some c := by simp [hqueue, firstSat, heng, hdisp]
  simp only [engineOf, hpre, hwaiting, Bool.false_eq_true, if_false, pure_bind, Option.bind_none, Option.elim_none, Option.isNone_none, if_true,
    hnext, heager]
  exact h

/-- The engine dispatches its oldest command, MZERO, which runs and leaves the queue (R275, R276). -/
theorem oldestCommandRuns (s u : State) (cl co : Nat) (d : BitVec 6) (c : Cmd) (hu : u = s.at_ cl co false) (hpre : u.clus.preempt = false)
    (heager : u.eager = true) (hqueue : u.core.queue = [c]) (hins : c.ins = .mzero d) (heng : c.eng = .mat) (hdisp : c.disp = false)
    (hheld : c.held = false) (hhi : c.hi = false) (hranges : c.ranges = []) (hpops : c.pops = []) (hrun : u.slot.run = .running)
    (hnone : u.core.heldRanges = []) :
    Runs (.commandDispatch cl co 1) s (fun t => (t.at_ cl co false).core = { u.core with
      queue := [], f := { u.core.f with a := u.core.f.a.setIfInBounds d.toNat 0 }, s0 := (t.at_ cl co false).core.s0 } ∧
      fld (t.at_ cl co false).slot.status 0 41 = fld u.slot.status 0 41 ∧ t.mem = s.mem ∧ (t.cl, t.co, t.hi) = (s.cl, s.co, s.hi)) := by
  subst hu
  have huhi : (s.at_ cl co false).hi = false := rfl
  have hv : c.eng ≠ .vec := by rw [heng]; decide
  have hstart := (Leaves.refl (s.at_ cl co false)).modCmd hqueue rfl Cmd.begun
  obtain ⟨v, x, hview, hleaves, hx⟩ := inView_leaves (f := runCmd c.begun)
    (g := cleared d.toNat c.begun) (c.viewNo (s.at_ cl co false).slot) hstart
    (fun w L hl hL => runCmd_mzero (c := c.begun) hins hl (hL.trans rfl)) (fun L x => by cases s.hi <;> rfl) (fun L => rfl)
  have hret := hleaves.retire (e := { c.begun with done := true }) (q := c.qpos) rfl rfl rfl hv
  obtain ⟨hcore, hmem, hplace⟩ := hret.back
  refine ⟨_, commandDispatch_oldest (v := v.retireCmd c.qpos) rfl hpre heager hqueue heng hdisp ?_, ?_, ?_, hmem, hplace⟩
  · rw [dispatchCmd_single hqueue rfl hdisp hheld (by rw [hhi]; exact hrun) hnone hpops hv hranges (by rw [hins]; rfl)]
    have hend : v.core.cmd c.qpos = some { c.begun with done := true } := hleaves.cmd rfl rfl
    have hview' : State.inView (Cmd.viewNo c.begun ((s.at_ cl co false).modCmd c.qpos Cmd.begun).slot) (runCmd c.begun)
        ((s.at_ cl co false).modCmd c.qpos Cmd.begun) = .ok v := by
      rw [hstart.slot]
      exact hview
    exact drive_ends (hstart.cmd rfl rfl) hhi hview' hleaves.place.2.2.1 hend rfl
  · rw [hcore, show ({ c.begun with done := true } : Cmd).hi = false from hhi]
    rfl
  · have hstatus : (((v.retireCmd c.qpos).at_ s.cl s.co s.hi).at_ cl co false).slot.status = statusWith x.status c.flags c.mrs := by
      rw [State.slot, hcore, show ({ c.begun with done := true } : Cmd).hi = false from hhi]
      rfl
    rw [hstatus, fld_statusWith, hx]
    rfl

/-- R17, R275, R276. -/
theorem commandsDispatchAndRetire : CommandsDispatchAndRetire :=
  ⟨fun s u cl co d c hu hpre heager hqueue hins heng hdisp _ hheld _ hhi hranges hpops _ hrun _ _ hnone _ =>
    oldestCommandRuns s u cl co d c hu hpre heager hqueue hins heng hdisp hheld hhi hranges hpops hrun hnone,
   fun s u cl co q c hu hqueue hq hd hv hhi _ => finishedCommandRetires s u cl co q c hu hqueue hq hd hv hhi⟩

end Sys2Proof.Machine
end

section
/-! SUPPORT. MDRAIN to a port (R165, R176): what a FIFO takes, the tokens that are sent, the wait and its end. -/

namespace Sys2Proof.Machine

/-! ### A FIFO that one producer fills (R201, R208) -/

/-- A FIFO that holds m tokens of a producer that appends to its last flit: every flit but the last holds 16. -/
def Packed (m : Nat) (l : List Flit) : Prop :=
  (m = 0 ∧ l = []) ∨ ∃ r f, l = r ++ [f] ∧ f.filling = false ∧ 1 ≤ f.n ∧ f.n ≤ 16 ∧ m = 16 * r.length + f.n

theorem fifoPush_append (src : Nat) (t : Token) (r : List Flit) (f : Flit) : fifoPush src t (r ++ [f]) = r ++ fifoPush src t [f] := by
  induction r with
  | nil => rfl
  | cons g r ih =>
    have hcons : ∀ x l, l ≠ [] → fifoPush src t (x :: l) = x :: fifoPush src t l := by
      intro x l hl
      cases l with
      | nil => exact absurd rfl hl
      | cons y l => rfl
    rw [List.cons_append, hcons _ _ (by simp), ih, List.cons_append]
theorem packed_push {m : Nat} {l : List Flit} (src : Nat) (t : Token) (h : Packed m l) : Packed (m + 1) (fifoPush src t l) := by
  rcases h with ⟨rfl, rfl⟩ | ⟨r, f, rfl, hfill, h1, h16, rfl⟩
  · exact .inr ⟨[], ⟨[t.norm], false, 1, src⟩, rfl, rfl, le_refl 1, Nat.le_add_left 1 15, rfl⟩
  · rw [fifoPush_append, fifoPush, hfill]
    by_cases hlt : f.n < 16
    · exact .inr ⟨r, { f with toks := f.toks ++ [t.norm], n := f.n + 1 }, by simp [hlt, hfill], hfill, by simp, hlt, rfl⟩
    · refine .inr ⟨r ++ [f], ⟨[t.norm], false, 1, src⟩, by simp [hlt], rfl, le_refl 1, by simp, ?_⟩
      rw [List.length_append, List.length_singleton]
      simp only
      omega
/-- Eight flits take 128 tokens. -/
theorem fifoRoom_packed {m : Nat} {l : List Flit} (h : Packed m l) (hm : m ≤ 128) : fifoRoom 8 l = decide (m < 128) := by
  rcases h with ⟨rfl, rfl⟩ | ⟨r, f, rfl, hfill, h1, h16, rfl⟩
  · rfl
  · unfold fifoRoom
    rw [List.getLast?_concat, List.length_append, List.length_singleton]
    simp only [hfill, Bool.not_false, Bool.true_and]
    rw [Bool.eq_iff_iff, Bool.or_eq_true, decide_eq_true_eq, decide_eq_true_eq, decide_eq_true_eq]
    omega

/-! ### The streams of a core while a port is filled -/

/-- Port p of the streams. -/
def Streams.at_ (st : Streams) (p : Nat) : Port := st.port[p]?.getD Port.unbound
/-- A token sent to port p, charged to core number `id`. -/
def Streams.push (id p : Nat) (st : Streams) (t : Token) : Streams :=
  { st with port := st.port.setIfInBounds p { st.at_ p with fifo := fifoPush id t (st.at_ p).fifo } }
/-- Port p is bound to the array and holds m tokens of it. -/
def Streams.Holds (st : Streams) (p m : Nat) : Prop := (st.at_ p).kind = 8 ∧ Packed m (st.at_ p).fifo

theorem holds_push {st : Streams} {p m : Nat} (id : Nat) (t : Token) (h : st.Holds p m) : (st.push id p t).Holds p (m + 1) := by
  obtain ⟨hkind, hpacked⟩ := h
  have hp : p < 16 := by
    by_contra hge
    rw [Streams.at_, Vector.getElem?_eq_none (by omega)] at hkind
    simp [Port.unbound] at hkind
  have hat : (st.push id p t).at_ p = { st.at_ p with fifo := fifoPush id t (st.at_ p).fifo } := by
    rw [Streams.at_, Streams.push, getD_setIfInBounds _ _ _ _ _ hp, if_pos rfl]
  rw [Streams.Holds, hat]
  exact ⟨hkind, packed_push id t hpacked⟩

section
variable {s t : State} {K : Core} {p m : Nat}

theorem Leaves.port (h : Leaves s t K) (p : Nat) : t.port p = K.st.at_ p := by rw [State.port, h.core]; rfl
theorem Leaves.setPort (h : Leaves s t K) (p : Nat) (x : Port) :
    Leaves s (t.setPort p x) { K with st := { K.st with port := K.st.port.setIfInBounds p x } } :=
  h.modCore (fun c => { c with st := { c.st with port := c.st.port.setIfInBounds p x } })
theorem Leaves.pushPort (h : Leaves s t K) (p : Nat) (x : Token) : Leaves s (t.pushPort p x) { K with st := K.st.push s.coreId p x } := by
  have hpush : t.pushPort p x = t.setPort p { K.st.at_ p with fifo := fifoPush s.coreId x (K.st.at_ p).fifo } := by
    rw [State.pushPort, h.port, h.coreId]
  rw [hpush]
  exact h.setPort _ _
/-- The tokens sent to a port change the streams alone. -/
theorem Leaves.sentTo (h : Leaves s t K) (p : Nat) (ts : List Token) :
    Leaves s (sentTo t p ts) { K with st := ts.foldl (fun st x => st.push s.coreId p x) K.st } := by
  induction ts generalizing t K with
  | nil => exact h
  | cons x ts ih => exact ih (h.pushPort p x)
theorem Leaves.engineRoom (h : Leaves s t K) (hp : K.st.Holds p m) (hm : m ≤ 128) : t.engineRoom 8 p = decide (m < 128) := by
  obtain ⟨hkind, hpacked⟩ := hp
  rw [State.engineRoom, State.portRoom, h.port, hkind, fifoRoom_packed hpacked hm]
  rfl
theorem Leaves.enginePush (h : Leaves s t K) (hp : K.st.Holds p m) (x : Token) :
    Leaves s (t.enginePush 8 p x) { K with st := K.st.push s.coreId p x } := by
  rw [State.enginePush, h.port, if_pos hp.1]
  exact h.pushPort p x
end

/-! ### The tokens of a drain (R176) -/

/-- Element e of a drained tile in FP32 with its flags, where no random number is drawn (R175). -/
def drainValue (c : Cmd) (tile : Tile) (prog : List Nat) (e : Nat) : Nat × Nat :=
  let v := throughChain (arithRm (vtRm c.vtype)) prog (elem tile 32 e, 0)
  let x := fval (fmtOf 1) v.1
  let r := fround (fmtOf 1) (vtRm c.vtype) (vtSat c.vtype) 0 x
  (r.1, r.2 ||| v.2 ||| (if x.isSig then fNV else 0))
theorem drainElem_eq {c : Cmd} (hrm : vtRm c.vtype ≠ 4) (tile : Tile) (prog : List Nat) (e : Nat) (s : State) :
    drainElem c 1 tile prog e s = (drainValue c tile prog e, s) := by
  unfold drainElem
  simp only [if_neg hrm]
  rfl
/-- Token k of a drain to a port, where no random number is drawn. -/
def tokenOf (c : Cmd) (rank : Nat) (fin : Bool) (tile : Tile) (prog : List Nat) (k : Nat) : Token :=
  if 128 ≤ k / 97 then Token.done
  else if k % 97 < 96 then ⟨0, (drainValue c tile prog (96 * (k / 97) + k % 97)).1⟩
  else Token.stop (if k / 97 < 127 then 0 else if fin then rank else 1)
theorem drainToken_eq {c : Cmd} (hrm : vtRm c.vtype ≠ 4) (rank : Nat) (fin : Bool) (tile : Tile) (prog : List Nat) (k : Nat) :
    ∃ fl, ∀ s : State, drainToken c rank fin tile prog k s = (tokenOf c rank fin tile prog k, s.raise c fl) := by
  have hnone : ∀ s : State, s.raise c 0 = s := fun s => if_pos rfl
  unfold drainToken tokenOf
  simp only [drainElem_eq hrm]
  split
  · exact ⟨0, fun s => by rw [hnone]⟩
  · split
    · exact ⟨_, fun s => rfl⟩
    · exact ⟨0, fun s => by rw [hnone]⟩

/-- While the port has room a drain sends its tokens in turn. -/
theorem drainGo_sends {c : Cmd} {p rank : Nat} {fin : Bool} {tile : Tile} {prog : List Nat} (hrm : vtRm c.vtype ≠ 4) {s : State} (n j : Nat) :
    ∀ (t : State) (K : Core) (e : Cmd) (k m : Nat), Leaves s t K → K.queue = [e] → e.qpos = c.qpos → K.st.Holds p m → m + n ≤ 128 →
      ∃ u fl, drainGo c p rank fin tile prog (n + j) k t = drainGo c p rank fin tile prog j (k + n) u ∧
        Leaves s u { K with queue := [{ e with flags := fl }],
                            st := ((List.range' k n).map (tokenOf c rank fin tile prog)).foldl (fun st x => st.push s.coreId p x) K.st } ∧
        (((List.range' k n).map (tokenOf c rank fin tile prog)).foldl (fun st x => st.push s.coreId p x) K.st).Holds p (m + n) := by
  induction n with
  | zero =>
    intro t K e k m h hK _ hp _
    refine ⟨t, e.flags, by rw [Nat.zero_add, Nat.add_zero], ?_, hp⟩
    have hsame : ({ K with queue := [{ e with flags := e.flags }] } : Core) = K := by rw [← hK]
    exact hsame ▸ h
  | succ n ih =>
    intro t K e k m h hK he hp hm
    obtain ⟨fl, htok⟩ := drainToken_eq hrm rank fin tile prog k
    have hroom : t.engineRoom 8 p = true := (h.engineRoom hp (by omega)).trans (decide_eq_true (by omega))
    have hnext := (h.raise hK he fl).enginePush hp (tokenOf c rank fin tile prog k)
    obtain ⟨u, fl', hgo, hl, hhold⟩ := ih _ _ { e with flags := e.flags ||| fl } (k + 1) (m + 1) hnext rfl he (holds_push _ _ hp) (by omega)
    refine ⟨u, fl', ?_, hl, by rw [← Nat.add_assoc m, Nat.add_right_comm m]; exact hhold⟩
    rw [show n + 1 + j = (n + j) + 1 by omega, drainGo, if_pos hroom, htok, ← Nat.add_assoc k, Nat.add_right_comm k]
    exact hgo

/-! ### A drain that goes on from its queue (R165, R176) -/

/-- COMMAND_DISPATCH with a waiting command that ends: it takes its steps and leaves the queue. -/
theorem commandDispatch_waiting {s u v : State} {cl co : Nat} {c : Cmd} {K : Core} (hu : u = s.at_ cl co false)
    (hpre : u.clus.preempt = false) (hqueue : u.core.queue = [c]) (heng : c.eng = .mat) (hunder : c.under = true) (hown : c.ownRow = false)
    (h : u.drive runCmd c.qpos driveFuel = .ok v) (hl : Leaves u v K) (hK : K.queue = []) :
    exec (.commandDispatch cl co 1) s = .next (v.at_ s.cl s.co s.hi) := by
  change execCommandDispatch cl co 1 s = _
  unfold execCommandDispatch
  refine onCore_ok ?_
  rw [← hu]
  have hwaiting : firstSat (fun c => c.eng == Engine.mat && c.under && !c.ownRow) u.core.queue = some c := by
    simp [hqueue, firstSat, heng, hunder, hown]
  have hgone : v.core.cmd c.qpos = none := by simp [Core.cmd, hl.core, hK, firstSat]
  simp only [engineOf, hpre, hwaiting, Bool.false_eq_true, if_false, h]
  change (if ((v.core.cmd c.qpos).elim false fun c => c.under) = true then _ else pure v : M State) = .ok v
  rw [hgone]
  rfl

/-- The core after the last step of a drain that has cleared its tile under Z. -/
def drainEnded (o : OpG8) (K : Core) : Core :=
  if flag o.imm 8 then { K with f := { K.f with a := K.f.a.setIfInBounds o.a.toNat 0 } } else K
theorem drainEnded_queue (o : OpG8) (K : Core) : (drainEnded o K).queue = K.queue := by unfold drainEnded; split <;> rfl
theorem drainEnded_with_queue (o : OpG8) (K : Core) (l : List Cmd) : { drainEnded o K with queue := l } = drainEnded o { K with queue := l } := by
  unfold drainEnded
  split <;> rfl
theorem Leaves.drainEnd {s t : State} {K : Core} (h : Leaves s t K) (o : OpG8) : Leaves s (drainEnd o t) (drainEnded o K) := by
  unfold Sys2Proof.Machine.drainEnd drainEnded
  split
  · exact h.modCore (fun c => { c with f := { c.f with a := c.f.a.setIfInBounds o.a.toNat 0 } })
  · exact h

/-- The tokens of a drain, from token c.resume on, in a queue whose drain the FIFO can take to its end. -/
theorem runCmd_drain {u : State} {o : OpG8} {c : Cmd} {tile : Tile} {rank : Nat} (hqueue : u.core.queue = [c]) (hins : c.ins = .mdrainStream o)
    (htile : c.tile = some tile) (hprog : c.prog = []) (hrm : vtRm c.vtype ≠ 4) (hrank : (u.port o.c.toNat).rank = rank)
    (hp : u.core.st.Holds o.c.toNat 0) (hfit : 12416 + b2n (flag o.imm 9) - c.resume ≤ 128) :
    ∃ v fl, runCmd c u = .ok v ∧ Leaves u v (drainEnded o { u.core with
      queue := [{ c with flags := fl, done := true }],
      st := ((List.range' c.resume (12416 + b2n (flag o.imm 9) - c.resume)).map (tokenOf c rank (flag o.imm 9) tile [])).foldl
        (fun st x => st.push u.coreId o.c.toNat x) u.core.st }) := by
  obtain ⟨v, fl, hgo, hl, -⟩ := drainGo_sends (p := o.c.toNat) (rank := rank) (fin := flag o.imm 9) (tile := tile) (prog := []) hrm
    (12416 + b2n (flag o.imm 9) - c.resume) 0 u u.core c c.resume 0 (Leaves.refl u) hqueue rfl hp (by omega)
  have hrun : runCmd c u = .ok ((drainEnd o v).finishCmd c) := by
    have heff : runCmd c u = effMdrainStream o c u := by
      unfold runCmd
      rw [hins]
    have hgo' : drainGo c o.c.toNat rank (flag o.imm 9) tile [] (12416 + b2n (flag o.imm 9) - c.resume) c.resume u = .ok v := hgo
    rw [heff, effMdrainStream, whole]
    simp only [drainStart, htile, hprog, hrank, Option.isSome_some, Bool.true_or, need_true]
    simp only [bind, Except.bind, pure, Except.pure, hgo']
  have hend := (hl.drainEnd o).finishCmd (c := c) (e := { c with flags := fl }) (drainEnded_queue o _) rfl
  rw [drainEnded_with_queue] at hend
  exact ⟨_, fl, hrun, hend⟩

theorem core_sentTo (s : State) (p : Nat) (ts : List Token) :
    (sentTo s p ts).core.st = ts.foldl (fun st x => st.push s.coreId p x) s.core.st := by
  rw [((Leaves.refl s).sentTo p ts).core]
/-- The tokens of a drain without a chain. -/
theorem tokenOf_plain (c : Cmd) (rank : Nat) (fin : Bool) (tile : Tile) (k : Nat) : tokenOf c rank fin tile [] k =
    (if 128 ≤ k / 97 then Token.done
      else if k % 97 < 96 then ⟨0, (fround (fmtOf 1) (vtRm c.vtype) (vtSat c.vtype) 0 (fval (fmtOf 1) (elem tile 32 (96 * (k / 97) + k % 97)))).1⟩
      else Token.stop (if k / 97 < 127 then 0 else if fin then rank else 1)) := rfl
theorem map_range_add {α : Type} (f : Nat → α) (k n : Nat) : (List.range n).map (fun i => f (k + i)) = (List.range' k n).map f := by
  rw [List.range'_eq_map_range, List.map_map]
  rfl
/-- The tile registers after the end of a drain: under Z the drained one is all +0 (R175). -/
theorem areg_drainEnded (o : OpG8) (K : Core) (n : Nat) : (drainEnded o K).f.a[n]?.getD 0 =
    if n = o.a.toNat ∧ flag o.imm 8 = true then 0 else K.f.a[n]?.getD 0 := by
  unfold drainEnded
  split
  · next hz =>
    by_cases hd : o.a.toNat < 4
    · simp only [getD_setIfInBounds _ _ _ _ _ hd, hz, and_true]
    · rw [Vector.setIfInBounds_eq_of_size_le (by omega)]
      split
      · next h => rw [h.1, Vector.getElem?_eq_none (by omega)]; rfl
      · rfl
  · next hz => rw [if_neg (fun h => hz h.2)]

/-- A waiting drain whose FIFO has been emptied goes on with its last tokens and leaves the queue (R165, R176). -/
theorem waitingDrainEnds (s u : State) (cl core : Nat) (o : OpG8) (c : Cmd) (p : Nat) (tok : Nat → Token) (tile : Tile) (m : Nat)
    (hu : u = s.at_ cl core false) (hpre : u.clus.preempt = false) (hqueue : u.core.queue = [c]) (hins : c.ins = .mdrainStream o)
    (heng : c.eng = .mat) (hunder : c.under = true) (hhi : c.hi = false) (hep : c.ep = u.slot.ep) (htile : c.tile = some tile)
    (hprog : c.prog = []) (hrm : vtRm c.vtype ≠ 4) (hm : m = 12416 + (if o.imm.getLsbD 9 then 1 else 0)) (hfit : m ≤ c.resume + 128)
    (hp : p = o.c.toNat) (hkind : (u.port p).kind = 8) (hfifo : (u.port p).fifo = [])
    (htok : tok = tokenOf c (u.port p).rank (o.imm.getLsbD 9) tile []) :
    Runs (.commandDispatch cl core 1) s (fun t => (t.cl, t.co, t.hi) = (s.cl, s.co, s.hi) ∧ (t.at_ cl core false).core.queue = [] ∧
      (t.at_ cl core false).core.st = (sentTo u p ((List.range (m - c.resume)).map (fun k => tok (c.resume + k)))).core.st ∧
      (t.at_ cl core false).areg o.a.toNat = (if o.imm.getLsbD 8 then 0 else u.areg o.a.toNat) ∧
      (∀ n, n ≠ o.a.toNat → (t.at_ cl core false).areg n = u.areg n) ∧
      (t.at_ cl core false).core.f = { u.core.f with a := (t.at_ cl core false).core.f.a } ∧ t.mem = s.mem) := by
  subst hu hp
  have hv : c.eng ≠ .vec := by rw [heng]; decide
  have hown : c.ownRow = false := by unfold Cmd.ownRow; rw [hins]; rfl
  have hcount : m = 12416 + b2n (flag o.imm 9) := hm
  have hhold : (s.at_ cl core false).core.st.Holds o.c.toNat 0 := ⟨hkind, .inl ⟨rfl, hfifo⟩⟩
  obtain ⟨v, fl, hrun, hl⟩ := runCmd_drain hqueue hins htile hprog hrm rfl hhold (by omega)
  have hret := hl.retire (drainEnded_queue o _) (q := c.qpos) rfl rfl hv
  have hview : State.inView (c.viewNo (s.at_ cl core false).slot) (runCmd c) (s.at_ cl core false) = .ok v := by
    rw [viewNo_eq hep, inView_self rfl]
    exact hrun
  have hdrive : (s.at_ cl core false).drive runCmd c.qpos driveFuel = .ok (v.retireCmd c.qpos) :=
    drive_ends ((Leaves.refl _).cmd hqueue rfl) hhi hview hl.place.2.2.1 (hl.cmd (drainEnded_queue o _) rfl) rfl
  obtain ⟨hcore, hmem, hplace⟩ := hret.back
  refine ⟨_, commandDispatch_waiting rfl hpre hqueue heng hunder hown hdrive hret ?_, hplace, ?_, ?_, ?_, fun n hn => ?_, ?_, hmem⟩
  · rw [Core.setSlot_queue]
  · rw [hcore, Core.setSlot_queue]
  · rw [hcore, core_sentTo, map_range_add, htok, hcount, Core.setSlot_st]
    unfold drainEnded
    split <;> rfl
  · rw [State.areg, hcore, Core.setSlot_f]
    refine (areg_drainEnded o _ _).trans (if_congr ?_ rfl rfl)
    simp [flag]
  · rw [State.areg, hcore, Core.setSlot_f]
    exact (areg_drainEnded o _ _).trans (if_neg (fun h => hn h.1))
  · rw [hcore, Core.setSlot_f]
    unfold drainEnded
    split <;> rfl

/-! ### A drain that begins (R165, R176) -/

/-- What an MDRAIN to a port enqueues. -/
def drainTicket (s : State) (o : OpG8) : Ticket :=
  { eng := .mat, ins := .mdrainStream o, rd := [.a o.a.toNat, .chain, .s o.c.toNat] ++ (drainSr s.slot.vtype).1,
    wr := (if flag o.imm 8 then [.a o.a.toNat] else []) ++ (drainSr s.slot.vtype).2 }
/-- The entry of a drain that has begun, and waits at token k. -/
def Cmd.waits (c : Cmd) (tile : Tile) (prog : List Nat) (fl k : Nat) : Cmd := { c with tile := some tile, prog := prog, flags := fl, resume := k }

/-- A drain that finds its chain captures the tile and the chain (R66, R175). -/
theorem drainStart_captures {s t : State} {K : Core} {o : OpG8} {c : Cmd} (h : Leaves s t K) (hK : K.queue = [c]) (hst : K.st = s.core.st)
    (ha : K.f.a = s.core.f.a) (hnone : c.tile = none) (hfmt : fld o.imm 0 4 = 1) (hchain : ChainFits s 1) :
    ∃ u, drainStart o c t = .ok (s.areg o.a.toNat, capturedChain s, u) ∧
      Leaves s u { K with queue := [{ c with tile := some (s.areg o.a.toNat), prog := capturedChain s }] } := by
  have hfnode : ∀ n, t.fnode n = s.fnode n := fun n => by rw [State.fnode, State.fnode, h.core, hst]
  have hnode : ∀ n, t.node n = s.node n := fun n => by rw [State.node, State.node, h.core, hst]
  have hareg : t.areg o.a.toNat = s.areg o.a.toNat := by rw [State.areg, State.areg, h.core, ha]
  have hall : s.core.st.chain.all (fun n => (s.fnode n).elim false (fun x => decide (cfgMode x.cfg < 6))) = true := by
    rw [List.all_eq_true]
    intro n hn
    obtain ⟨x, hx, hmode⟩ := hchain.1 n hn
    simp [hx, hmode]
  refine ⟨_, ?_, h.modCmd hK rfl (fun e => { e with tile := some (s.areg o.a.toNat), prog := capturedChain s })⟩
  unfold drainStart
  simp only [hnone, h.core, hst, hfnode, hnode, hareg, hall, hfmt]
  rfl

/-- A drain into an empty FIFO sends 128 tokens and waits. -/
theorem effMdrainStream_waits {s t : State} {K : Core} {o : OpG8} {c : Cmd} (h : Leaves s t K) (hK : K.queue = [c]) (hst : K.st = s.core.st)
    (ha : K.f.a = s.core.f.a) (hnone : c.tile = none) (hres : c.resume = 0) (hrm : vtRm c.vtype ≠ 4) (hfmt : fld o.imm 0 4 = 1)
    (hchain : ChainFits s 1) (hkind : (s.port o.c.toNat).kind = 8) (hdir : (s.port o.c.toNat).dir = 1) (hrank : 1 ≤ (s.port o.c.toNat).rank)
    (hfifo : (s.port o.c.toNat).fifo = []) :
    ∃ u fl, effMdrainStream o c t = .error (.stall u) ∧ u = s.setCore { K with
      queue := [c.waits (s.areg o.a.toNat) (capturedChain s) fl 128],
      st := (sentTo s o.c.toNat ((List.range 128).map
        (tokenOf c (s.port o.c.toNat).rank (flag o.imm 9) (s.areg o.a.toNat) (capturedChain s)))).core.st } := by
  have hport : t.port o.c.toNat = s.port o.c.toNat := by rw [h.port, hst]; rfl
  have hhold : K.st.Holds o.c.toNat 0 := by
    rw [hst]
    exact ⟨hkind, .inl ⟨rfl, hfifo⟩⟩
  obtain ⟨v, hstart, hv⟩ := drainStart_captures (o := o) h hK hst ha hnone hfmt hchain
  obtain ⟨w, fl, hgo, hw, hfull⟩ := drainGo_sends (c := c) (p := o.c.toNat) (rank := (s.port o.c.toNat).rank) (fin := flag o.imm 9)
    (tile := s.areg o.a.toNat) (prog := capturedChain s) hrm 128 (12416 + b2n (flag o.imm 9) - 128) v _ _ 0 0 hv rfl rfl hhold (by decide)
  generalize hts : (List.range' 0 128).map (tokenOf c (s.port o.c.toNat).rank (flag o.imm 9) (s.areg o.a.toNat) (capturedChain s)) = ts
    at hw hfull
  have hroom : w.engineRoom 8 o.c.toNat = false := hw.engineRoom hfull (by decide)
  have hstop : drainGo c o.c.toNat (s.port o.c.toNat).rank (flag o.imm 9) (s.areg o.a.toNat) (capturedChain s)
      (12416 + b2n (flag o.imm 9) - 128) 128 w = .error (.stall (w.modCmd c.qpos (fun e => { e with resume := 128 }))) := by
    rw [show 12416 + b2n (flag o.imm 9) - 128 = (12287 + b2n (flag o.imm 9)) + 1 by omega, drainGo, hroom]
    rfl
  have hall : drainGo c o.c.toNat (s.port o.c.toNat).rank (flag o.imm 9) (s.areg o.a.toNat) (capturedChain s)
      (12416 + b2n (flag o.imm 9)) 0 v = .error (.stall (w.modCmd c.qpos (fun e => { e with resume := 128 }))) := by
    rw [show 12416 + b2n (flag o.imm 9) = 128 + (12416 + b2n (flag o.imm 9) - 128) by omega]
    rw [Nat.zero_add] at hgo
    exact hgo.trans hstop
  refine ⟨w.modCmd c.qpos (fun e => { e with resume := 128 }), fl, ?_, ?_⟩
  · have hgood : (c.tile.isSome || (fld o.imm 0 4 == 1 && (s.port o.c.toNat).kind == 8 && (s.port o.c.toNat).dir == 1 &&
        decide (1 ≤ (s.port o.c.toNat).rank))) = true := by simp [hfmt, hkind, hdir, hrank]
    rw [effMdrainStream, whole]
    simp only [hport, hgood, need_true, hstart, hres, Nat.sub_zero, bind, Except.bind, hall]
  · have hend := hw.modCmd_eq rfl rfl (fun e => { e with resume := 128 })
    rw [List.range_eq_range', hts, core_sentTo, ← hst]
    exact hend

/-- Token k of the statement (R176). -/
theorem tokenOf_eq_drainedToken {s : State} {c : Cmd} (hvt : c.vtype = s.slot.vtype) (hrm : vtRm s.slot.vtype ≠ 4) (a rank : Nat) (fin : Bool) :
    tokenOf c rank fin (s.areg a) (capturedChain s) = drainedToken s a rank fin := by
  have hvalue : ∀ e, (drainValue c (s.areg a) (capturedChain s) e).1 = (drained s a 1 e).1 := by
    intro e
    unfold drainValue drained
    simp only [hvt, if_neg hrm]
    rfl
  funext k
  unfold tokenOf drainedToken
  rw [hvalue]

/-- MDRAIN to a port whose FIFO is empty: it commits, sends 128 tokens and waits with the rest (R165, R176). -/
theorem drainBegins (s : State) (o : OpG8) (p : Nat) (tok : Nat → Token) (hq : s.Quiet) (hfmt : fld o.imm 0 4 = 1) (hchain : ChainFits s 1)
    (hp : p = o.c.toNat) (hkind : (s.port p).kind = 8) (hdir : (s.port p).dir = 1) (hrank : 1 ≤ (s.port p).rank) (hfifo : (s.port p).fifo = [])
    (hrm : vtRm s.slot.vtype ≠ 4) (htok : tok = drainedToken s o.a.toNat (s.port p).rank (o.imm.getLsbD 9)) :
    Runs (.mdrainStream o) s (fun t => Advanced s t ∧ SameBytes s t ∧
      t.core.st = (sentTo s p ((List.range 128).map tok)).core.st ∧ t.core.f = s.core.f ∧
      ∃ c : Cmd, t.core.queue = [c] ∧ c.ins = .mdrainStream o ∧ c.disp = true ∧ c.done = false ∧ c.resume = 128 ∧ c.qpos = s.core.qpos ∧
        c.tile = some (s.areg o.a.toNat) ∧ c.prog = capturedChain s ∧ c.vtype = s.slot.vtype) := by
  subst hp
  have hexec : exec (.mdrainStream o) s = engine (drainTicket s o) (effMdrainStream o) s := by
    change execMdrainStream o s = _
    rw [execMdrainStream, hfmt, show (s.full || (1 : Nat) != 0) = true from Bool.or_true _]
    rfl
  have hcore : Leaves s (s.setCore ((drainTicket s o).core s 0 s.slot.vl)) ((drainTicket s o).core s 0 s.slot.vl) := Leaves.setCore s _
  have hst : ((drainTicket s o).core s 0 s.slot.vl).st = s.core.st := Core.setSlot_st _ _ _
  have hf : ((drainTicket s o).core s 0 s.slot.vl).f = s.core.f := (drainTicket s o).core_f s 0 s.slot.vl
  have hslot : ((drainTicket s o).core s 0 s.slot.vl).slot s.hi = s.retire.slot := Core.slot_setSlot _ _ _
  obtain ⟨u, fl, heff, hset⟩ := effMdrainStream_waits (o := o) hcore ((drainTicket s o).core_queue s 0 s.slot.vl) hst (by rw [hf]) rfl rfl hrm hfmt
    hchain hkind hdir hrank hfifo
  rw [tokenOf_eq_drainedToken rfl hrm] at hset
  generalize hsent : (sentTo s o.c.toNat ((List.range 128).map (drainedToken s o.a.toNat (s.port o.c.toNat).rank (flag o.imm 9)))).core.st = st at hset
  have hu := hset ▸ Leaves.setCore s _
  have hview : State.inView (((drainTicket s o).cmd s 0 s.slot.vl).viewNo (s.setCore ((drainTicket s o).core s 0 s.slot.vl)).slot)
      (effMdrainStream o ((drainTicket s o).cmd s 0 s.slot.vl)) (s.setCore ((drainTicket s o).core s 0 s.slot.vl)) = .error (.stall u) := by
    have hep : ((drainTicket s o).cmd s 0 s.slot.vl).ep = (s.setCore ((drainTicket s o).core s 0 s.slot.vl)).slot.ep := by
      rw [hcore.slot, hslot, State.slot_retire hq.free]
      rfl
    rw [viewNo_eq hep, inView_self rfl]
    exact heff
  have hdrive := drive_waits (n := 65535) ((drainTicket s o).core_cmd s 0 s.slot.vl) rfl hview hu.place.2.2.1
  rw [hu.retire_waiting (q := s.core.qpos) rfl rfl rfl] at hdrive
  have hrun : exec (.mdrainStream o) s = .next u := by
    rw [hexec, engine_len (t := drainTicket s o) (len := 0) (n := s.slot.vl) hq (.inr ⟨rfl, rfl⟩) rfl rfl rfl (copyReady_of_waitsForNothing rfl) (Nat.zero_le 64)]
    exact congrArg finish hdrive
  refine ⟨u, hrun, ?_, ?_, ?_, ?_, _, by rw [hu.core], rfl, rfl, rfl, rfl, rfl, rfl, rfl, rfl⟩
  · rw [Advanced, hu.slot]
    change ((((drainTicket s o).core s 0 s.slot.vl).slot s.hi).loops, (((drainTicket s o).core s 0 s.slot.vl).slot s.hi).pc) = _
    rw [hslot, State.slot_retire hq.free]
  · rw [hset]
    refine sameBytes_of ⟨Core.setSlot_own _ _ _, Core.setSlot_w _ _ _, Core.setSlot_a _ _ _, Core.setSlot_c _ _ _, ?_⟩
    change (((drainTicket s o).core s 0 s.slot.vl).slot s.hi).view = _ ∧ (((drainTicket s o).core s 0 s.slot.vl).slot s.hi).ep = _ ∧
      (((drainTicket s o).core s 0 s.slot.vl).slot s.hi).past = _
    rw [hslot, State.slot_retire hq.free]
    exact ⟨rfl, rfl, rfl⟩
  · rw [hu.core, htok]
    exact hsent.symm
  · rw [hu.core]
    exact hf

/-- R165, R176. -/
theorem drainsToPorts : DrainsToPorts := by
  refine ⟨fun s o p tok hq _ hfmt hchain hp hkind hdir hrank hfifo hrm htok =>
    drainBegins s o p tok hq hfmt hchain hp hkind hdir hrank hfifo hrm htok, ?_⟩
  intro s u cl core o c p tok tile m hu hpre hqueue hins heng hdisp hdone hfaulted hheld hpaused hhi hep htile hprog hrm _ _ hm _ hfit _ hp _
    hkind _ _ hfifo htok
  have hunder : c.under = true := by simp [Cmd.under, hdisp, hdone, hfaulted, hheld, hpaused]
  exact waitingDrainEnds s u cl core o c p tok tile m hu hpre hqueue hins heng hunder hhi hep htile hprog hrm hm hfit hp hkind hfifo
    (htok.trans (funext fun k => (tokenOf_plain c _ _ tile k).symm))

/-- Settles O27, from the drain that begins, the one that ends from its queue, and the rows of dispatch and retirement. -/
theorem drainsStreamAndCommandsRetire : Obligations.DrainsStreamAndCommandsRetire := ⟨drainsToPorts, commandsDispatchAndRetire⟩

end Sys2Proof.Machine
end

section
/-! SUPPORT. The register forms of the control thread as writes of one register, and what becomes of a write to g0 (R46). -/

namespace Sys2Proof.Machine

/-- The outcome is a write of register gd, then retirement. -/
def WritesReg (d : BitVec 6) (s : State) (r : Host.Outcome State Fault Refusal) : Prop := ∃ f, r = putG d f s

theorem writesReg_putG (d : BitVec 6) (f : State → Word) (s : State) : WritesReg d s (putG d f s) := ⟨f, rfl⟩
theorem writesReg_regOp (o : OpA2) (f : Word → Word → Word) (s : State) : WritesReg o.d s (regOp o f s) := ⟨_, rfl⟩
theorem writesReg_immOp (o : OpI4) (f : Word → Word → Word) (s : State) : WritesReg o.d s (immOp o f s) := ⟨_, rfl⟩
/-- A register or immediate form writes its destination (R97 to R99). -/
theorem integerForm_writesReg {s : State} {i : Instr} {d : BitVec 6} {v : Word} (h : integerForm s i = some (d, v)) : WritesReg d s (exec i s) := by
  unfold integerForm at h
  split at h <;> cases h
  iterate 17 exact writesReg_regOp _ _ _
  all_goals exact writesReg_immOp _ _ _
/-- A multiply or divide form writes its destination (R100). -/
theorem productForm_writesReg {s : State} {i : Instr} {d : BitVec 6} {v : Word} (h : productForm s i = some (d, v)) : WritesReg d s (exec i s) := by
  unfold productForm at h
  split at h <;> cases h <;> exact writesReg_regOp _ _ _
/-- A write to g0 changes nothing (R46). -/
theorem State.setG_zero (s : State) (v : Word) : s.setG (0 : BitVec 6) v = s.modSlot id := congrArg s.setSlot (Slot.setG_zero s.slot v)
/-- NOP retires as a write to g0 does (R46, R86). -/
theorem nop_writesReg {s : State} (hs : s.Free) : WritesReg 0 s (exec .nop s) := by
  refine ⟨fun _ => 0, ?_⟩
  have hput : putG (0 : BitVec 6) (fun _ => 0) s = .next (s.setG (0 : BitVec 6) 0).retire := commit_ok rfl
  have hnop : exec .nop s = .next s.retire := commit_ok rfl
  rw [hput, hnop, State.setG_zero, State.retire_eq hs, State.retire_eq (by simpa [State.Free] using hs), State.modSlot_modSlot]
  rfl
/-- The other plain forms write their destination (R101 to R104, R123, R124). -/
theorem plainForm_writesReg {s : State} {i : Instr} {d : BitVec 6} {v : Word} (hs : s.Free) (h : plainForm s i = some (d, v)) :
    WritesReg d s (exec i s) := by
  unfold plainForm at h
  split at h <;> cases h
  · exact nop_writesReg hs
  all_goals
    dsimp only [exec, execClz, execCtz, execPopc, execSel, execLimmT4w, execLimmT8w, execAddpc, execGetid, execCaps]
    exact writesReg_putG _ _ _

/-- A form whose destination is g0 changes no register, raises no trap and goes on (R46). -/
theorem WritesReg.zero {s : State} {r : Host.Outcome State Fault Refusal} (hs : s.Free) (h : WritesReg 0 s r) :
    ∃ t, r = .next t ∧ Advanced s t ∧ (∀ n, t.slot.getG n = s.slot.getG n) ∧
      (t.slot.run, t.slot.cause, t.slot.epc, t.slot.pend) = (s.slot.run, s.slot.cause, s.slot.epc, s.slot.pend) := by
  obtain ⟨f, rfl⟩ := h
  obtain ⟨t, ht, -, hadv, hframe⟩ := putG_runs hs (d := 0) (by decide) f
  refine ⟨t, ht, hadv, fun n => ?_, by rw [hframe.slot]⟩
  by_cases h : n = 0
  · rw [h]; rfl
  · exact hframe.regs n h

/-- Settles O55: reads and writes of one register by the law of `setG`, and the forms by the law of a form that writes g0. -/
theorem zeroRegisterDiscardsWrites : Obligations.ZeroRegisterDiscardsWrites := by
  refine ⟨fun _ => rfl, fun s n m v hn h0 => ?_, fun s v => ?_, fun s i v hs _ hi => ?_⟩
  · have hn0 : n.toNat ≠ 0 := fun h => h0 (BitVec.eq_of_toNat_eq h)
    rw [State.g, State.slot_setG, Slot.getG_setG _ _ _ _ hn, State.g]
    simp only [hn0, ne_eq, not_false_eq_true, and_true, BitVec.toNat_inj]
  · rw [State.slot_setG]
    exact Slot.setG_zero _ _
  · rcases hi with h | h | h
    · exact (integerForm_writesReg h).zero hs
    · exact (productForm_writesReg h).zero hs
    · exact (plainForm_writesReg hs h).zero hs

end Sys2Proof.Machine
end

section
/-! SUPPORT. The control thread outside its register forms: traps with an address of their own, transfers that land, and what is left of
a state that retires (R63, R72, R122). -/

namespace Sys2Proof.Machine

/-! ### Retirement (R115) -/

/-- A state that retires goes on, and nothing else of it changes. -/
theorem retire_frame {u : State} (hu : u.Free) : Advanced u u.retire ∧ ScalarFrame 0 u u.retire := by
  rw [State.retire_setSlot hu, State.slot_retire hu]
  exact ⟨by simp [Advanced], scalarFrame_of rfl (fun _ _ => rfl)⟩
/-- A state that retires behind a write of gd. -/
theorem retire_setG_frame {u : State} (hu : u.Free) {d : BitVec 6} (hd : d.toNat < 32) (v : Word) :
    WroteG d.toNat v (u.setG d v).retire ∧ Advanced u (u.setG d v).retire ∧ ScalarFrame d.toNat u (u.setG d v).retire := by
  obtain ⟨t, ht, hrest⟩ := putG_runs hu hd (fun _ => v)
  have hput : putG d (fun _ => v) u = .next (u.setG d v).retire := commit_ok rfl
  rw [hput] at ht
  cases ht
  exact hrest

/-- The line in which an address stands (R64, R71). -/
theorem setFld_line (x : Word) : setFld x 0 6 0 = word (x.toNat / 64 * 64) := by
  apply BitVec.eq_of_getLsbD_eq
  intro k hk
  have h6 : x.toNat / 64 * 64 = x.toNat >>> 6 <<< 6 := by rw [Nat.shiftRight_eq_div_pow, Nat.shiftLeft_eq]
  rw [getLsbD_setFld, word, h6, BitVec.getLsbD_ofNat, Nat.testBit_shiftLeft, Nat.testBit_shiftRight]
  by_cases h : k < 6
  · simp [h, hk]
  · simp [h, hk, show 6 ≤ k by omega, show 6 + (k - 6) = k by omega, BitVec.getLsbD]

/-- The slot of a thread that goes on (R115). -/
def Slot.gone (x : Slot) : Slot :=
  { x with loops := (loopEnd x.pc x.npc x.loops).1, pc := (loopEnd x.pc x.npc x.loops).2, since := none, behind := none, popAt := none }
/-- Retirement in a state that differs from `s` in its current core. -/
theorem Leaves.goesOn {s u : State} {K : Core} (h : Leaves s u K) (hfree : (K.slot s.hi).stepping = false) :
    u.retire = s.setCore (K.setSlot s.hi (K.slot s.hi).gone) := by
  obtain ⟨-, -, hhi, -⟩ := h.place
  have hslot := h.slot
  rw [State.retire_setSlot (by rw [hslot]; exact hfree), State.slot_retire (by rw [hslot]; exact hfree), hslot, State.setSlot, h.core, h.same, hhi]
  rfl

/-! ### A trap whose EPC is given (R63, R122, R127) -/

/-- A trap without operands is taken as R63 and R122 say, with EPC where the trap points. -/
theorem traps_at {i : Instr} {s : State} {code sub : Nat} {epc : Word} (h : exec i s = .next (s.takeTrap { code := code, sub := sub, epc := some epc }))
    (hc : code < 256) (hs : sub < 256) : Traps i (causeLocal code) code sub epc s := by
  have hcause : causeWord { code := code, sub := sub, epc := some epc } false 0 = word (256 * sub + code) := by
    simp only [causeWord, b2n, Nat.mod_eq_of_lt hc, Nat.mod_eq_of_lt hs, Nat.shiftLeft_eq]
    congr 1
    simp
    omega
  refine ⟨fun hl => ?_, fun hl => ?_⟩
  · have hx := State.takeTrap_local (t := { code := code, sub := sub, epc := some epc }) ((takesLocally_iff s.slot code).mpr hl)
    refine ⟨_, h, State.takeTrap_frame _ _, by rw [hx]; exact hcause, by rw [hx]; rfl, fun k => ?_, ?_, by rw [hx]; rfl⟩
    · rw [hx, getLsbD_setFld]
      by_cases h3 : k = 3
      · subst h3; simp
      · rw [if_neg (by omega), if_neg h3]
    · rw [hx]; exact setFld_line _
  · have hx := State.takeTrap_stop (t := { code := code, sub := sub, epc := some epc })
      (Bool.eq_false_iff.mpr (fun h => hl ((takesLocally_iff s.slot code).mp h)))
    refine ⟨_, h, State.takeTrap_frame _ _, by rw [hx]; exact hcause, by rw [hx]; rfl, by rw [hx], ?_, by rw [hx]; rfl⟩
    exact ⟨_, by rw [hx], rfl, rfl, rfl, rfl, by simp [State.mkRecord], rfl, rfl, rfl, rfl, rfl, rfl, rfl, rfl, rfl, rfl, rfl⟩

/-! ### A transfer that lands (R69, R72, R74) -/

@[simp] theorem State.slot_modTlbs (s : State) (f : List TlbEnt → List TlbEnt) : (s.modTlbs f).slot = s.slot := by
  change ((s.modCore (fun c => { c with tlb := f c.tlb })).core).slot s.hi = s.core.slot s.hi
  rw [State.core_modCore, Core.slot_with_tlb]
/-- Of the slot, the fetch of a line changes the lines fetched alone (R73). -/
theorem fetchLine_slot {s u : State} {la : Nat} {l : Line} (h : s.fetchLine la = .ok (l, u)) :
    u.slot = { s.slot with lines := u.slot.lines } := by
  unfold State.fetchLine at h
  split at h
  · cases h; rfl
  · cases hx : s.xlate la .fx .fetch with
    | error e => rw [hx] at h; cases h
    | ok r =>
      obtain ⟨p, v⟩ := r
      have hv : v.slot = s.slot := by
        rcases xlate_ok hx with rfl | ⟨t, rfl⟩
        · rfl
        · exact State.slot_modTlbs _ _
      rw [hx] at h
      cases p with
      | mem loc =>
        have hu := congrArg Prod.snd (Except.ok.inj h)
        rw [← show _ = u from hu, State.slot_modSlot, hv]
      | mgmt off => cases h
      | drive port a => cases h
theorem checkTarget_of_lands {s u : State} {a : Word} (h : Lands s a u) : s.checkTarget a = .ok u := by
  obtain ⟨l, hd, x, hfetch, hslot⟩ := h
  simp only [State.checkTarget, hfetch, bind, Except.bind, hslot, pure, Except.pure]

end Sys2Proof.Machine
end

section
/-! SUPPORT. Traps taken and left: TRAP, DSTOP, VEND and HRET (R63, R96, R127, R128). -/

namespace Sys2Proof.Machine

/-- R63, R96, R116, R122, R127. -/
theorem trapsAreTaken : TrapsAreTaken := by
  intro s
  refine ⟨fun o hwf => ?_, traps_of (code := 0x10) (sub := 0) rfl (by decide) (by decide),
    traps_of (code := 0x01) (sub := 0x05) rfl (by decide) (by decide)⟩
  have hval : o.val.toNat < 256 := by
    simp [Instr.WellFormed, Instr.defect] at hwf
    omega
  exact traps_at (code := 0x0F) rfl (by decide) hval

theorem exec_hret (s : State) : exec .hret s = finish (do
    need s.slot.inh (Trap.ill 0x07) s
    need (!flag s.slot.epc 0) (Trap.align 0x01) s
    let u ← keepEpcOnFetch (s.checkTarget s.slot.epc)
    pure (u.leaveTrap.transfer s.slot.epc)) := rfl
theorem flag_zero_iff (a : Word) : flag a 0 = true ↔ a.toNat % 2 = 1 := by
  simp [flag, BitVec.getLsbD, Nat.testBit_zero]
/-- What is left when a handler returns to an address that lands (R128). -/
theorem hret_lands {s u : State} (hs : s.Free) (hinh : s.slot.inh = true) (hodd : flag s.slot.epc 0 = false) (hu : Lands s s.slot.epc u) :
    exec .hret s = .next (u.setSlot { u.slot with status := setFld s.slot.status 3 1 0, pc := s.slot.epc, since := none, behind := none, popAt := none }) := by
  have hslot := fetchLine_slot hu.choose_spec.choose_spec.choose_spec.1
  have hfree : u.leaveTrap.slot.stepping = false := by
    rw [State.leaveTrap, State.slot_modSlot, hslot]
    exact hs
  rw [exec_hret, hinh, hodd, checkTarget_of_lands hu]
  change Host.Outcome.next (u.leaveTrap.arrive s.slot.epc) = _
  rw [State.arrive_eq hfree, State.leaveTrap, State.modSlot_modSlot, State.modSlot, hslot]

/-- R128. -/
theorem hretReturns : HretReturns := by
  intro s hs
  have hflag : s.slot.inh = s.slot.status.getLsbD 3 := rfl
  refine ⟨fun hinh => ?_, fun hinh hodd => ?_, fun hinh heven u hu => ?_⟩
  · refine traps_of (code := 0x01) (sub := 0x07) ?_ (by decide) (by decide)
    rw [exec_hret, hflag, hinh]
    rfl
  · refine traps_of (code := 0x05) (sub := 0x01) ?_ (by decide) (by decide)
    rw [exec_hret, hflag, hinh, (flag_zero_iff _).mpr hodd]
    rfl
  · have hodd : flag s.slot.epc 0 = false := by
      rw [Bool.eq_false_iff, ne_eq, flag_zero_iff]
      omega
    refine ⟨_, hret_lands hs (hflag.trans hinh) hodd hu, by rw [State.slot_setSlot], fun k => ?_, by rw [State.slot_setSlot]⟩
    rw [State.slot_setSlot, getLsbD_setFld]
    by_cases h3 : k = 3
    · subst h3; simp
    · rw [if_neg (by omega), if_neg h3]

/-- Settles O6, from the traps of the four instructions and the return of HRET. -/
theorem trapsAreTakenAndLeft : Obligations.TrapsAreTakenAndLeft := ⟨trapsAreTaken, hretReturns⟩

end Sys2Proof.Machine
end

section
/-! SUPPORT. The control registers, read and written (R61, R62, R64, R125). -/

namespace Sys2Proof.Machine

/-! ### SYSRD (R125) -/

theorem sysReg_of_controlRegister {s : State} {n : Nat} {v : Word} (h : controlRegister s n = some v) : s.sysReg n = v := by
  have hlisted : n ∈ [0x00, 0x01, 0x02, 0x03, 0x04, 0x05, 0x06, 0x07, 0x08, 0x09, 0x0A, 0x10, 0x11, 0x12] := by
    by_contra hn
    simp only [List.mem_cons, List.not_mem_nil, or_false, not_or] at hn
    simp only [controlRegister, hn, if_false] at h
    cases h
  fin_cases hlisted <;> exact Option.some.inj h
theorem dest_of_wellFormed_sysrd {o : OpW2} (h : Instr.WellFormed (.sysrd o)) : o.d.toNat < 32 := by
  simp only [Instr.WellFormed, Instr.defect, firstOf_cons, decide_eq_false_iff_not] at h
  omega
/-- R61, R125. -/
theorem sysrdReturnsTheRegister : SysrdReturnsTheRegister := by
  intro s o v hs hwf hv
  have hexec : exec (.sysrd o) s = putG o.d (fun s => s.sysReg o.val.toNat) s := rfl
  rw [Runs, hexec, ← sysReg_of_controlRegister hv]
  exact putG_runs hs (dest_of_wellFormed_sysrd hwf) _

/-! ### A write that needs no queue entry (R61, R62, R64) -/

/-- The core whose control registers have been written. -/
def controlled (s : State) (status cause epc trapvec traceptr : Word) : Core :=
  { s.core with traceptr := traceptr }.setSlot s.hi { s.slot with status := status, cause := cause, epc := epc, trapvec := trapvec }
/-- What is left of a write of control registers that has retired. -/
structure ControlWritten (s t : State) (status cause epc trapvec traceptr : Word) : Prop where
  advanced : Advanced s t
  frame : ControlFrame s t
  slot : t.slot.status = status ∧ t.slot.cause = cause ∧ t.slot.epc = epc ∧ t.slot.trapvec = trapvec
  core : t.core.traceptr = traceptr ∧ t.core.rndseed = s.core.rndseed
theorem controlWritten_of {s u : State} (hs : s.Free) {status cause epc trapvec traceptr : Word}
    (h : Leaves s u (controlled s status cause epc trapvec traceptr)) : ControlWritten s u.retire status cause epc trapvec traceptr := by
  have hslot : (controlled s status cause epc trapvec traceptr).slot s.hi =
      { s.slot with status := status, cause := cause, epc := epc, trapvec := trapvec } := Core.slot_setSlot _ _ _
  have hret := h.goesOn (by rw [hslot]; exact hs)
  have hcore : u.retire.core = { s.core with traceptr := traceptr }.setSlot s.hi
      { s.slot with status := status, cause := cause, epc := epc, trapvec := trapvec }.gone := by
    rw [hret, State.core_setCore, hslot, controlled, Core.setSlot_setSlot]
  have hslot' : u.retire.slot = { s.slot with status := status, cause := cause, epc := epc, trapvec := trapvec }.gone := by
    rw [hret, State.slot, State.core_setCore]
    exact (Core.slot_setSlot _ _ _).trans (congrArg Slot.gone hslot)
  refine ⟨?_, ⟨?_, ?_, ?_, ?_, ?_⟩, ?_, ?_⟩
  · rw [Advanced, hslot']; rfl
  · rw [hret, State.core_setCore]
  · rw [hcore]; cases s.hi <;> rfl
  · rw [hcore, Core.slot_setSlot_not]; cases s.hi <;> rfl
  · rw [hslot']; rfl
  · rw [hret, hslot, controlled, Core.setSlot_setSlot]
    exact sameBytes_of ⟨by simp, by simp, by simp, by simp, by rw [Core.slot_setSlot]; exact ⟨rfl, rfl, rfl⟩⟩
  · rw [hslot']; exact ⟨rfl, rfl, rfl, rfl⟩
  · rw [hcore]; simp

/-- A SYSWR as its number says. -/
theorem exec_syswr (o : OpW2) (s : State) : exec (.syswr o) s = execSyswr o s := rfl
theorem statusRw_bits (k : Nat) : statusRw.getLsbD k = decide (k < 64 ∧ (41 ≤ k ∨ k = 8 ∨ k = 9)) := by
  by_cases hk : k < 64
  · have hall : ∀ j : Fin 64, statusRw.getLsbD j = decide (j.val < 64 ∧ (41 ≤ j.val ∨ j.val = 8 ∨ j.val = 9)) := by decide
    exact hall ⟨k, hk⟩
  · rw [BitVec.getLsbD_of_ge _ _ (by omega)]
    simp [hk]
theorem getLsbD_status_written (x v : Word) (k : Nat) : ((x &&& ~~~statusRw) ||| (v &&& statusRw)).getLsbD k =
    if 41 ≤ k ∨ k = 8 ∨ k = 9 then v.getLsbD k else x.getLsbD k := by
  by_cases hk : k < 64
  · rw [BitVec.getLsbD_or, BitVec.getLsbD_and, BitVec.getLsbD_and, BitVec.getLsbD_not, statusRw_bits]
    by_cases h : 41 ≤ k ∨ k = 8 ∨ k = 9 <;> simp [hk, h]
  · rw [BitVec.getLsbD_of_ge _ _ (by omega), BitVec.getLsbD_of_ge v _ (by omega), BitVec.getLsbD_of_ge x _ (by omega), ite_self]

/-- What the control registers hold after a write of one, by number (R61, R62, R64). -/
def ControlValues (n : Nat) (v : Word) (s : State) (status cause epc trapvec traceptr : Word) : Prop :=
  (∀ k, status.getLsbD k = if n = 0x00 ∧ (41 ≤ k ∨ k = 8 ∨ k = 9) then v.getLsbD k else s.slot.status.getLsbD k) ∧
  epc = (if n = 0x02 then v else s.slot.epc) ∧
  (∀ k, trapvec.getLsbD k = if n = 0x03 then decide (6 ≤ k) && v.getLsbD k else s.slot.trapvec.getLsbD k) ∧
  (∀ k, traceptr.getLsbD k = if n = 0x09 ∧ k = 63 then v.getLsbD 63 else s.core.traceptr.getLsbD k) ∧
  (n ≠ 0x01 → cause = s.slot.cause)
/-- The registers that no write touches. -/
theorem controlled_same (s : State) : controlled s s.slot.status s.slot.cause s.slot.epc s.slot.trapvec s.core.traceptr = s.core :=
  Core.setSlot_slot s.core s.hi
theorem controlled_traceptr (s : State) (x : Word) : controlled s s.slot.status s.slot.cause s.slot.epc s.slot.trapvec x =
    { s.core with traceptr := x } := Core.setSlot_slot { s.core with traceptr := x } s.hi

/-! ### SYSWR by number (R61, R62, R64) -/

section
variable {s : State} {o : OpW2}

theorem sysReg_number (h : Instr.WellFormed (.syswr o)) : o.val.toNat ≤ 0x0A ∨ 0x10 ≤ o.val.toNat ∧ o.val.toNat ≤ 0x12 := by
  simp only [Instr.WellFormed, Instr.defect, firstOf_cons, sysRegListed, Bool.not_eq_false', Bool.or_eq_true, Bool.and_eq_true,
    decide_eq_true_eq] at h
  exact h.2.1
theorem syswr_status (hn : o.val.toNat = 0x00) (hqueue : s.core.queue = []) : exec (.syswr o) s =
    .next (s.modSlot (fun x => { x with status := (x.status &&& ~~~statusRw) ||| (s.g o.d &&& statusRw) })).retire := by
  have hempty : s.older.isEmpty = true := by
    unfold State.older
    split <;> simp [hqueue]
  rw [exec_syswr, execSyswr, hn]
  exact commit_ok (if_pos hempty)
theorem syswr_cause (hn : o.val.toNat = 0x01) (hinh : s.slot.inh = true) : exec (.syswr o) s =
    .next (s.modSlot (fun x => { x with cause := s.g o.d &&& causeRw })).retire := by
  rw [exec_syswr, execSyswr, hn]
  exact commit_ok (by rw [hinh]; rfl)
theorem syswr_epc (hn : o.val.toNat = 0x02) (hinh : s.slot.inh = true) : exec (.syswr o) s =
    .next (s.modSlot (fun x => { x with epc := s.g o.d })).retire := by
  rw [exec_syswr, execSyswr, hn]
  exact commit_ok (by rw [hinh]; rfl)
theorem syswr_trapvec (hn : o.val.toNat = 0x03) : exec (.syswr o) s =
    .next (s.modSlot (fun x => { x with trapvec := setFld (s.g o.d) 0 6 0 })).retire := by
  rw [exec_syswr, execSyswr, hn]
  exact commit_ok rfl
theorem syswr_traceptr (hn : o.val.toNat = 0x09) : exec (.syswr o) s =
    .next (s.modCore (fun c => { c with traceptr := setFld c.traceptr 63 1 (fld (s.g o.d) 63 1) })).retire := by
  rw [exec_syswr, execSyswr, hn]
  exact commit_ok rfl
/-- A register that is RO is left as it is (R61). -/
theorem syswr_readOnly (hn : o.val.toNat ∈ [0x04, 0x05, 0x06, 0x08, 0x0A]) : exec (.syswr o) s = .next s.retire := by
  rw [exec_syswr, execSyswr]
  generalize o.val.toNat = n at hn
  fin_cases hn <;> exact commit_ok rfl
/-- CAUSE and EPC outside a handler, and the registers that have an instruction of their own (R61, R64). -/
theorem syswr_traps (hwf : Instr.WellFormed (.syswr o))
    (hn : (o.val.toNat = 0x01 ∨ o.val.toNat = 0x02) ∧ s.slot.status.getLsbD 3 = false ∨ 0x10 ≤ o.val.toNat) :
    exec (.syswr o) s = .next (s.takeTrap (Trap.ill 0x06)) := by
  rw [exec_syswr, execSyswr]
  rcases hn with ⟨hn | hn, hinh⟩ | hn
  · rw [hn]
    exact commit_trap (u := s) (by rw [show s.slot.inh = false from hinh]; rfl)
  · rw [hn]
    exact commit_trap (u := s) (by rw [show s.slot.inh = false from hinh]; rfl)
  · have hlisted : o.val.toNat ∈ [0x10, 0x11, 0x12] := by
      have hlisted := sysReg_number hwf
      simp only [List.mem_cons, List.not_mem_nil, or_false]
      omega
    generalize o.val.toNat = n at hlisted
    fin_cases hlisted <;> rfl

theorem getLsbD_bit63 (x v : Word) (k : Nat) : (setFld x 63 1 (fld v 63 1)).getLsbD k = if k = 63 then v.getLsbD 63 else x.getLsbD k := by
  rw [getLsbD_setFld]
  by_cases h : k = 63
  · subst h
    rw [if_pos (by omega), if_pos rfl, Nat.sub_self, testBit_fld]
    rfl
  · rw [if_neg (by omega), if_neg h]
theorem getLsbD_line (v : Word) (k : Nat) : (setFld v 0 6 0).getLsbD k = (decide (6 ≤ k) && v.getLsbD k) := by
  rw [getLsbD_setFld]
  by_cases h : 6 ≤ k
  · rw [if_neg (by omega)]; simp [h]
  · rw [if_pos (by omega)]; simp [h]

/-- A SYSWR that needs no queue entry: what it writes, and that it retires (R61, R62, R64). -/
theorem syswr_controlled (hwf : Instr.WellFormed (.syswr o)) (h7 : o.val.toNat ≠ 0x07) (hlt : o.val.toNat < 0x10)
    (hqueue : o.val.toNat = 0x00 → s.core.queue = []) (hinh : o.val.toNat = 0x01 ∨ o.val.toNat = 0x02 → s.slot.inh = true) :
    ∃ u status cause epc trapvec traceptr, exec (.syswr o) s = .next u.retire ∧ Leaves s u (controlled s status cause epc trapvec traceptr) ∧
      ControlValues o.val.toNat (s.g o.d) s status cause epc trapvec traceptr := by
  have hmod := fun f : Slot → Slot => (Leaves.refl s).modSlot f
  by_cases h0 : o.val.toNat = 0x00
  · refine ⟨_, (s.slot.status &&& ~~~statusRw) ||| (s.g o.d &&& statusRw), s.slot.cause, s.slot.epc, s.slot.trapvec, s.core.traceptr,
      syswr_status h0 (hqueue h0), hmod _, fun k => ?_, ?_⟩
    · rw [getLsbD_status_written]
      simp only [h0, true_and]
    · simp [h0]
  by_cases h1 : o.val.toNat = 0x01
  · refine ⟨_, s.slot.status, _, s.slot.epc, s.slot.trapvec, s.core.traceptr, syswr_cause h1 (hinh (.inl h1)), hmod _, ?_⟩
    simp [ControlValues, h1]
  by_cases h2 : o.val.toNat = 0x02
  · refine ⟨_, s.slot.status, s.slot.cause, _, s.slot.trapvec, s.core.traceptr, syswr_epc h2 (hinh (.inr h2)), hmod _, ?_⟩
    simp [ControlValues, h2]
  by_cases h3 : o.val.toNat = 0x03
  · refine ⟨_, s.slot.status, s.slot.cause, s.slot.epc, _, s.core.traceptr, syswr_trapvec h3, hmod _, ?_⟩
    simp [ControlValues, h3, getLsbD_line]
  by_cases h9 : o.val.toNat = 0x09
  · refine ⟨_, s.slot.status, s.slot.cause, s.slot.epc, s.slot.trapvec, setFld s.core.traceptr 63 1 (fld (s.g o.d) 63 1),
      syswr_traceptr h9, by rw [controlled_traceptr]; exact (Leaves.refl s).modCore _, ?_⟩
    simp [ControlValues, h9, getLsbD_bit63]
  · have hread : o.val.toNat ∈ [0x04, 0x05, 0x06, 0x08, 0x0A] := by
      have hlisted := sysReg_number hwf
      simp only [List.mem_cons, List.not_mem_nil, or_false]
      omega
    refine ⟨s, s.slot.status, s.slot.cause, s.slot.epc, s.slot.trapvec, s.core.traceptr, syswr_readOnly hread,
      by rw [controlled_same]; exact Leaves.refl s, ?_⟩
    simp [ControlValues, h0, h2, h3, h9]
end

/-! ### SYSWR of RNDSEED (R35, R65) -/

/-- A SYSWR of RNDSEED as it is committed. -/
def seedTicket (o : OpW2) (s : State) : Ticket := { eng := .vec, ins := .syswr o, ga := s.g o.d, wr := [.gens] }
/-- The state whose RNDSEED has been written. -/
def seeded (s : State) (v : Word) : State := s.modCore (fun c => { c with rndseed := v &&& 0xFFFF_FFFF })
/-- Both slots' generators, seeded. -/
def Core.reseeded (K : Core) (g : BitVec 16384) : Core := { K with s0 := { K.s0 with gens := g }, s1 := { K.s1 with gens := g } }

theorem syswr_rndseed {s : State} {o : OpW2} (hn : o.val.toNat = 0x07) (hqueue : s.core.queue = []) :
    exec (.syswr o) s = engine (seedTicket o s) effReseed (seeded s (s.g o.d)) := by
  rw [exec_syswr, execSyswr, hn]
  simp only [seeded, State.modCore_eq, hqueue, List.length_nil, show 0 < 256 by decide, if_true]
  rfl
theorem quiet_seeded {s : State} (h : s.Quiet) (v : Word) : (seeded s v).Quiet := by
  have hcore : (seeded s v).core = { s.core with rndseed := v &&& 0xFFFF_FFFF } := State.core_modCore _ _
  have hslot : (seeded s v).slot = s.slot := by rw [State.slot, hcore]; rfl
  exact ⟨h.eager, by rw [hslot]; exact h.running, by rw [State.Free, hslot]; exact h.free, by rw [hcore]; exact h.queue,
    by rw [hcore]; exact h.ranges⟩
theorem seed_eq (v : Word) : v &&& 0xFFFF_FFFF = word (v.toNat % 2 ^ 32) := by
  apply BitVec.eq_of_toNat_eq
  have hlt := Nat.mod_lt v.toNat (show 0 < 2 ^ 32 by decide)
  rw [BitVec.toNat_and, word, BitVec.toNat_ofNat, show (0xFFFF_FFFF : Word).toNat = 2 ^ 32 - 1 from rfl, Nat.and_two_pow_sub_one_eq_mod,
    Nat.mod_eq_of_lt (show v.toNat % 2 ^ 32 < 2 ^ 64 by omega)]
/-- The step of the command: an MDRAIN in progress apart, which the queue does not hold. -/
def seedStep : Run1 := fun c s =>
  .ok (s.modCore (fun k => { k.reseeded (seedGens (c.ga.toNat % 2 ^ 32)) with
    queue := k.queue.map (fun e => if e.tile.isSome && e.gens.isNone && !e.done then { e with gens := some (k.slot e.hi).gens } else e) }))
theorem effReseed_eq : effReseed = whole seedStep := rfl
theorem seedStep_eq (s : State) (K : Core) {c e : Cmd} (hK : K.queue = [e]) (he : e.tile = none) :
    seedStep c (s.setCore K) = .ok (s.setCore (K.reseeded (seedGens (c.ga.toNat % 2 ^ 32)))) := by
  rw [seedStep, State.modCore_eq, State.core_setCore, State.setCore_setCore, hK]
  simp only [List.map_cons, List.map_nil, he, Option.isSome_none, Bool.false_and, Bool.false_eq_true, if_false]
  rw [← hK]
  rfl
theorem slot_reseeded (K : Core) (g : BitVec 16384) (hi : Bool) : (K.reseeded g).slot hi = { K.slot hi with gens := g } := by
  cases hi <;> rfl

/-- The two slots of the core in which a command executes. -/
theorem Ticket.core_slot (t : Ticket) (s : State) (len : BitVec 3) (n : Nat) : (t.core s len n).slot s.hi = s.retire.slot :=
  Core.slot_setSlot _ _ _
theorem Ticket.core_slot_not (t : Ticket) (s : State) (len : BitVec 3) (n : Nat) : (t.core s len n).slot (!s.hi) = s.core.slot (!s.hi) := by
  rw [Ticket.core, Core.slot_setSlot_not, beginVec_core]
  cases s.hi <;> rfl
/-- Such a command keeps everything else of its core but the flits that the unit assembles and the queue. -/
theorem Ticket.core_eq (t : Ticket) (s : State) (len : BitVec 3) (n : Nat) : t.core s len n =
    ({ s.core with st := (s.beginVec t.eng t.ins).core.st, f := popF s.core.f len, queue := [t.cmd s len n],
                   qpos := (s.core.qpos + 1) % 65536 } : Core).setSlot s.hi s.retire.slot := by
  rw [Ticket.core, beginVec_core]

/-- A SYSWR of RNDSEED in a quiet core: what is left. -/
theorem rndseed_written {s : State} {o : OpW2} (hn : o.val.toNat = 0x07) (hq : s.Quiet) {g : BitVec 16384}
    (hg : g = seedGens ((s.g o.d).toNat % 2 ^ 32)) :
    Runs (.syswr o) s (fun t => t.core.rndseed = word ((s.g o.d).toNat % 2 ^ 32) ∧ t.slot = { s.slot.gone with gens := g } ∧
      t.core.slot (!s.hi) = { s.core.slot (!s.hi) with gens := g } ∧ SameBytes s t ∧ t.core.f = s.core.f ∧ t.core.queue = []) := by
  have hq' := quiet_seeded hq (s.g o.d)
  have hslot : (seeded s (s.g o.d)).slot = s.slot := by
    rw [State.slot, seeded, State.core_modCore]; rfl
  have hcore : (seeded s (s.g o.d)).core = { s.core with rndseed := word ((s.g o.d).toNat % 2 ^ 32) } := by
    rw [← seed_eq]
    exact State.core_modCore _ _
  have hback : ∀ K, (seeded s (s.g o.d)).setCore K = s.setCore K := fun K => State.setCore_setCore _ _ _
  have hret : (seeded s (s.g o.d)).retire.slot = s.slot.gone := by rw [State.slot_retire hq'.free, hslot]; rfl
  have hrun := engine_whole (t := seedTicket o s) (s := seeded s (s.g o.d)) (len := 0) (n := s.slot.vl) (f := seedStep) hq' (.inr ⟨rfl, rfl⟩) rfl
    (by rw [LenIs, if_pos (by decide), hslot]) rfl (fun _ _ h => by rw [State.copyReady, h]; rfl) (by simp [seedTicket]) (seedStep_eq _ _ (Ticket.core_queue _ _ _ _) rfl)
    (Ticket.core_queue _ _ _ _) rfl
  rw [← effReseed_eq, ← syswr_rndseed hn hq.queue, hback] at hrun
  generalize hT : (seedTicket o s).cmd (seeded s (s.g o.d)) 0 s.slot.vl = e at hrun
  have he : e.hi = s.hi ∧ e.ga = s.g o.d ∧ e.flags = 0 ∧ e.mrs = 0 := by subst hT; exact ⟨rfl, rfl, rfl, rfl⟩
  obtain ⟨hhi, hga, hflags, hmrs⟩ := he
  rw [hga, ← hg] at hrun
  refine ⟨_, hrun, ?_⟩
  generalize hK : (seedTicket o s).core (seeded s (s.g o.d)) 0 s.slot.vl = K
  have hthis : K.slot s.hi = s.slot.gone := by rw [← hK, ← hret]; exact Ticket.core_slot _ _ _ _
  have hother : K.slot (!s.hi) = s.core.slot (!s.hi) := by
    rw [← hK]
    exact (Ticket.core_slot_not _ _ _ _).trans (by rw [hcore]; rfl)
  have hslotT : ((K.reseeded g).ended e).slot s.hi = { s.slot.gone with gens := g } := by
    have h := (K.reseeded g).ended_slot e
    rw [hhi, slot_reseeded, hthis, hflags, hmrs, statusWith_zero] at h
    exact h
  have hotherT : ((K.reseeded g).ended e).slot (!s.hi) = { s.core.slot (!s.hi) with gens := g } := by
    have h := (K.reseeded g).ended_slot_not e
    rw [hhi, slot_reseeded, hother] at h
    exact h
  have hfields : K.rndseed = word ((s.g o.d).toNat % 2 ^ 32) ∧ K.f = s.core.f ∧ K.own = s.core.own ∧ K.w = s.core.w ∧ K.a = s.core.a ∧
      K.c = s.core.c := by
    rw [← hK, Ticket.core_eq, hcore]
    simp [popF]
  obtain ⟨hrnd, hf, hown, hw, ha, hc⟩ := hfields
  refine ⟨?_, ?_, ?_, sameBytes_of ⟨?_, ?_, ?_, ?_, ?_⟩, ?_, ?_⟩
  · rw [State.core_setCore, Core.ended_rndseed]; exact hrnd
  · rw [State.slot, State.core_setCore]; exact hslotT
  · rw [State.core_setCore]; exact hotherT
  · rw [Core.ended_own]; exact hown
  · rw [Core.ended_w]; exact hw
  · rw [Core.ended_a]; exact ha
  · rw [Core.ended_c]; exact hc
  · rw [hslotT]; exact ⟨rfl, rfl, rfl⟩
  · rw [State.core_setCore, Core.ended_f]; exact hf
  · rw [State.core_setCore, Core.ended_queue]

/-- R61, R62, R64, R65. -/
theorem syswrWritesTheRwFields : SyswrWritesTheRwFields := by
  intro s o hs hwf
  refine ⟨fun h7 hlt hqueue hinh => ?_, fun h7 hq => ?_, fun hn => ?_⟩
  · obtain ⟨u, status, cause, epc, trapvec, traceptr, hexec, hu, hst, hepc, htv, htp, hca⟩ := syswr_controlled hwf h7 hlt hqueue hinh
    obtain ⟨hadv, hframe, ⟨e1, e2, e3, e4⟩, e5, e6⟩ := controlWritten_of hs hu
    exact ⟨_, hexec, ⟨by rw [e1]; exact hst, by rw [e3]; exact hepc, by rw [e4]; exact htv, by rw [e5]; exact htp,
      fun h1 => by rw [e2]; exact hca h1, e6⟩, hadv, hframe⟩
  · obtain ⟨t, ht, hseed, hslot, hother, hbytes, hf, hqueue⟩ := rndseed_written (o := o) h7 hq rfl
    refine ⟨t, ht, hseed, by rw [hslot], by rw [hother], ?_, hbytes, hf, hqueue, by rw [hslot]; rfl, fun n => by rw [hslot]; rfl⟩
    rw [Advanced, hslot]; rfl
  · exact traps_of (code := 0x01) (sub := 0x06) (syswr_traps hwf hn) (by decide) (by decide)

/-- Settles O5: SYSRD is a form of one register; SYSWR writes the control registers of its number, seeds the generators or traps. -/
theorem controlRegistersAreReadAndWritten : Obligations.ControlRegistersAreReadAndWritten :=
  ⟨sysrdReturnsTheRegister, syswrWritesTheRwFields⟩

end Sys2Proof.Machine
end

section
/-! SUPPORT. The end of a thread keeps every core (R130, R284, R429). -/

namespace Sys2Proof.Machine

/-- `t` has the cores, the memory and the children of `s`, and runs the same slot. -/
structure SameCores (s t : State) : Prop where
  cores : t.cores = s.cores
  place : t.cl = s.cl ∧ t.co = s.co ∧ t.hi = s.hi
  mem : t.mem = s.mem
  born : t.hub.born = s.hub.born

namespace SameCores
variable {s t u : State}

theorem refl (s : State) : SameCores s s := ⟨rfl, ⟨rfl, rfl, rfl⟩, rfl, rfl⟩
theorem trans (h : SameCores s t) (k : SameCores t u) : SameCores s u := by
  obtain ⟨h1, ⟨h2, h3, h4⟩, h5, h6⟩ := h
  obtain ⟨k1, ⟨k2, k3, k4⟩, k5, k6⟩ := k
  exact ⟨k1.trans h1, ⟨k2.trans h2, k3.trans h3, k4.trans h4⟩, k5.trans h5, k6.trans h6⟩
theorem core (h : SameCores s t) : t.core = s.core := by
  obtain ⟨hcl, hco, -⟩ := h.place
  rw [State.core, State.core, State.coreAt, State.coreAt, h.cores, hcl, hco]
theorem withdraw (s : State) (cl p : Nat) : SameCores s (s.withdraw cl p) := by
  unfold State.withdraw
  simp only
  split <;> exact ⟨rfl, ⟨rfl, rfl, rfl⟩, rfl, rfl⟩
theorem swapPoint (s : State) (cl : Nat) : SameCores s (s.swapPoint cl) := by
  unfold State.swapPoint
  simp only
  split
  · exact refl s
  · generalize (s.clusAt cl).toSwap = l
    have hstart : SameCores s (s.setClusAt cl { s.clusAt cl with toSwap := [] }) := ⟨rfl, ⟨rfl, rfl, rfl⟩, rfl, rfl⟩
    generalize s.setClusAt cl { s.clusAt cl with toSwap := [] } = t at hstart
    induction l generalizing t with
    | nil => exact hstart
    | cons p l ih => exact ih _ (hstart.trans (withdraw t cl p))
theorem vacate (s : State) (cl : Nat) : SameCores s (s.vacate cl) :=
  trans (t := s.setClusAt cl (s.clusAt cl).vacate) ⟨rfl, ⟨rfl, rfl, rfl⟩, rfl, rfl⟩ (swapPoint _ cl)
theorem checkGroup (s : State) (cl : Nat) : SameCores s (s.checkGroup cl) := by
  unfold State.checkGroup
  simp only
  split
  · exact refl s
  · split
    · exact trans (t := s.modLaunch _ _) ⟨rfl, ⟨rfl, rfl, rfl⟩, rfl, rfl⟩ (vacate _ cl)
    · exact refl s
theorem closeStages (s : State) (cl : Nat) : SameCores s (s.closeStages cl) := ⟨rfl, ⟨rfl, rfl, rfl⟩, rfl, rfl⟩
end SameCores

/-- The state whose closing stage is shut when the thread that was to serve it ends (R284). -/
def State.shutOwn (s : State) : State :=
  if s.slot.closer && !s.slot.popped then s.modClus (fun k => k.shutStage s.slot.th.stage) else s
/-- The state whose current slot has ceased to exist, its thread forgotten by the hub (R44, R270). -/
def State.vacated (s : State) (tid : Nat) : State :=
  (s.setSlot (Slot.fresh s.hi)).modHub (fun h =>
    { h with born := h.born.filter (fun b => b.1 != tid), ended := h.ended.filter (fun b => b.tid != tid) })
theorem endThread_eq (s : State) : s.endThread =
    ((s.shutOwn.vacated s.slot.th.tid).closeStages (s.shutOwn.vacated s.slot.th.tid).cl).checkGroup (s.shutOwn.vacated s.slot.th.tid).cl := rfl
theorem SameCores.shutOwn (s : State) : SameCores s s.shutOwn := by
  unfold State.shutOwn
  split <;> exact ⟨rfl, ⟨rfl, rfl, rfl⟩, rfl, rfl⟩
/-- What is left when a thread ends (R44, R130). -/
theorem endThread_left (s : State) : s.endThread.core = s.core.setSlot s.hi (Slot.fresh s.hi) ∧ s.endThread.hi = s.hi ∧
    s.endThread.mem = s.mem ∧ ∀ b ∈ s.endThread.hub.born, b.1 ≠ s.slot.th.tid := by
  rw [endThread_eq]
  have hshut := SameCores.shutOwn s
  obtain ⟨-, -, hhi⟩ := hshut.place
  have hcore : (s.shutOwn.vacated s.slot.th.tid).core = s.core.setSlot s.hi (Slot.fresh s.hi) := by
    change (s.shutOwn.setSlot (Slot.fresh s.shutOwn.hi)).core = _
    rw [State.core_setSlot, hshut.core, hhi]
  have hend := (SameCores.closeStages (s.shutOwn.vacated s.slot.th.tid) (s.shutOwn.vacated s.slot.th.tid).cl).trans
    (SameCores.checkGroup _ (s.shutOwn.vacated s.slot.th.tid).cl)
  obtain ⟨-, -, hhi'⟩ := hend.place
  refine ⟨hend.core.trans hcore, hhi'.trans hhi, hend.mem.trans hshut.mem, fun b hb => ?_⟩
  rw [hend.born] at hb
  simpa using (List.mem_filter.mp hb).2

end Sys2Proof.Machine
end

section
/-! SUPPORT. Waits, the end of a thread, and the vector length and type (R56, R129, R130, R136, R137). -/

namespace Sys2Proof.Machine

/-- WAITEV with its latch set clears it (R129). -/
theorem waitev_latched {s : State} (hs : s.Free) (h : s.slot.latch = true) :
    Runs .waitev s (fun t => t.slot.latch = false ∧ Advanced s t ∧ ScalarFrame 0 (s.modSlot (fun x => { x with latch := false })) t) := by
  have hslot : (s.modSlot (fun x => { x with latch := false })).slot = { s.slot with latch := false } := State.slot_modSlot _ _
  obtain ⟨hadv, hframe⟩ := retire_frame (u := s.modSlot (fun x => { x with latch := false })) (by rw [State.Free, hslot]; exact hs)
  have hexec : exec .waitev s = .next (s.modSlot (fun x => { x with latch := false })).retire := by
    change execWaitev s = _
    exact commit_ok (if_pos h)
  refine ⟨_, hexec, ?_, ?_, hframe⟩
  · rw [hframe.slot, hslot]
  · rw [Advanced, hslot] at hadv
    exact hadv
/-- WAITEV with its latch clear waits, from the first time on that it is tried (R129). -/
theorem waitev_waits {s : State} (h : s.slot.latch = false) : Runs .waitev s (fun t =>
    t = { s.modSlot (fun x => { x with since := some (x.since.getD s.time) }) with time := s.time + 1 }) := by
  have hexec : exec .waitev s = .next { s.modSlot (fun x => { x with since := some (x.since.getD s.time) }) with time := s.time + 1 } := by
    change execWaitev s = _
    exact commit_stall (if_neg (by rw [h]; exact Bool.false_ne_true))
  exact ⟨_, hexec, rfl⟩
/-- The core on which a row acted, and every other. -/
theorem on_setSlot (s : State) (cl co : Nat) (hi : Bool) (x : Slot) :
    ((s.on cl co hi (fun s => s.setSlot x)).coreAt cl co) = (s.coreAt cl co).setSlot hi x ∧
    ∀ k, k ≠ 8 * cl + co → look k (s.on cl co hi (fun s => s.setSlot x)).cores = look k s.cores :=
  ⟨State.coreAt_setCoreAt _ _ _ _, fun _ hk => look_put_ne hk _ _⟩
/-- After 65,536 cycles of a wait the latch is set (R129). -/
theorem waitev_timeout {s : State} {cl core slot : Nat} {x : Slot} {t0 : Nat} (hx : x = (s.coreAt cl core).slot (slot != 0))
    (hsince : x.since = some t0) (ht : t0 + 65536 ≤ s.time) : Runs (.waitevTimeout cl core slot) s (fun t =>
      (t.coreAt cl core).slot (slot != 0) = { x with latch := true } ∧ (t.coreAt cl core).slot (slot == 0) = (s.coreAt cl core).slot (slot == 0) ∧
      (t.cl, t.co, t.hi) = (s.cl, s.co, s.hi) ∧ ∀ k, k ≠ 8 * cl + core → look k t.cores = look k s.cores) := by
  have hexec : exec (.waitevTimeout cl core slot) s = .next (s.on cl core (slot != 0) (fun s => s.setSlot { x with latch := true })) := by
    have hslot : (s.at_ cl core (slot != 0)).slot = x := hx.symm
    change execWaitevTimeout cl core slot s = _
    simp only [execWaitevTimeout, State.on]
    have hsince' : (s.at_ cl core (slot != 0)).slot.since = some t0 := by rw [hslot, hsince]
    rw [hsince']
    simp only
    rw [if_pos (show t0 + 65536 ≤ (s.at_ cl core (slot != 0)).time from ht), State.modSlot, hslot]
  obtain ⟨hcore, hother⟩ := on_setSlot s cl core (slot != 0) { x with latch := true }
  have hnot : (slot == 0) = !(slot != 0) := by simp [bne]
  refine ⟨_, hexec, ?_, ?_, rfl, hother⟩
  · rw [hcore, Core.slot_setSlot]
  · rw [hcore, hnot, Core.slot_setSlot_not]
/-- HALT of a thread that is in no gang and has no command in the queue (R130). -/
theorem halt_ends {s : State} (hgang : flag s.slot.gang 63 = false) (hqueue : ∀ c ∈ s.core.queue, c.hi ≠ s.hi) :
    exec .halt s = .next s.endThread := by
  have hnone : s.core.queue.any (fun e => e.hi == s.hi) = false := by
    rw [List.any_eq_false]
    intro e he
    simpa using hqueue e he
  change execHalt s = _
  simp only [execHalt, hgang, Bool.false_and, Bool.false_eq_true, if_false]
  simp only [pure, Except.pure, bind, Except.bind, hnone, Bool.false_eq_true, if_false, finish_ok]

/-- R129, R130. -/
theorem waitsAndTheEndOfAThread : WaitsAndTheEndOfAThread := by
  refine ⟨fun s hs h => waitev_latched hs h, fun s h => waitev_waits h, fun s cl core slot x t0 hx hsince ht => waitev_timeout hx hsince ht,
    fun s hs => plain_runs hs, fun s hgang hqueue => ?_⟩
  obtain ⟨hcore, hhi, hmem, hborn⟩ := endThread_left s
  refine ⟨_, halt_ends hgang hqueue, ?_, ?_, ?_, ?_, ?_, hborn, hmem⟩
  · rw [State.slot, hcore, hhi, Core.slot_setSlot]
  · rw [hcore, Core.setSlot_f]
  · rw [hcore, Core.setSlot_h]
  · rw [hcore, Core.setSlot_queue]
  · rw [hcore, Core.slot_setSlot_not]

/-! ### VSETL and VSETT (R56, R136, R137) -/

theorem vtVlmax_eq (vt : Word) : vtVlmax vt = elementsOf vt := by
  have h : fld vt 0 2 < 4 := fld_lt vt 0 2
  simp only [vtVlmax, vtSew, vtSewCode, elementsOf, vlmax]
  generalize fld vt 0 2 = n at h
  interval_cases n <;> rfl
/-- A form that sets the length, or the type, and writes a register. -/
theorem slotSet_runs {s : State} {i : Instr} {d : BitVec 6} {v : Word} {f : Slot → Slot} (hs : s.Free) (hd : d.toNat < 32)
    (hf : (f s.slot).stepping = s.slot.stepping ∧ (f s.slot).pc = s.slot.pc ∧ (f s.slot).npc = s.slot.npc ∧ (f s.slot).loops = s.slot.loops)
    (hi : exec i s = .next ((s.modSlot f).setG d v).retire) : Runs i s (fun t => t.slot.vl = (f s.slot).vl ∧ t.slot.vtype = (f s.slot).vtype ∧
      WroteG d.toNat v t ∧ Advanced s t ∧ ScalarFrame d.toNat (s.modSlot f) t) := by
  obtain ⟨hstep, hpc, hnpc, hloops⟩ := hf
  have hslot := State.slot_modSlot s f
  obtain ⟨hwrote, hadv, hframe⟩ := retire_setG_frame (u := s.modSlot f) (by rw [State.Free, hslot, hstep]; exact hs) hd v
  rw [Advanced, hslot, hpc, hnpc, hloops] at hadv
  exact ⟨_, hi, by rw [hframe.slot, hslot], by rw [hframe.slot, hslot], hwrote, hadv, hframe⟩
/-- The formats that have the width of SEW (R13, R51). -/
theorem format_fits (t : Word) : (0xD ≤ vtFmt t || fmtWidth (vtFmt t) != vtSew t) = false ↔
    (fld t 6 4, fld t 0 2) ∈ [(0, 3), (1, 2), (12, 2), (2, 1), (3, 1), (11, 1), (4, 0), (5, 0), (6, 0), (7, 0), (8, 0), (9, 0), (10, 0)] := by
  have hf : fld t 6 4 < 16 := fld_lt t 6 4
  have hw : fld t 0 2 < 4 := fld_lt t 0 2
  rw [vtFmt, vtSew, vtSewCode]
  generalize fld t 6 4 = f at hf
  generalize fld t 0 2 = w at hw
  revert f w
  decide
theorem blkBad_iff (b : Nat) : blkBad b = false ↔ b ∈ [0, 4, 5, 6] := by
  simp only [blkBad, Bool.not_eq_false', Bool.or_eq_true, beq_iff_eq, List.mem_cons, List.not_mem_nil, or_false, or_assoc]
theorem vtypeBad_iff (t : Word) : vtypeBad t = false ↔ legalType t := by
  have hbits : vtypeBad t = false ↔ fld t 2 4 = 0 ∧ (0xD ≤ vtFmt t || fmtWidth (vtFmt t) != vtSew t) = false ∧ blkBad (vtBlkA t) = false ∧
      blkBad (vtBlkB t) = false ∧ ¬5 ≤ vtRm t ∧ ¬vtPln t < 2 ∧ ¬8 < vtPln t := by
    simp only [vtypeBad, Bool.or_eq_false_iff, and_assoc, bne_eq_false_iff_eq, decide_eq_false_iff_not]
  rw [hbits, format_fits, blkBad_iff, blkBad_iff, not_lt, not_lt, not_le, Nat.lt_succ_iff]
  rfl

section Vsetl
variable {s : State} {o : OpA2}

theorem wellFormed_vsetl (h : Instr.WellFormed (.vsetl o)) : o.d.toNat < 32 := by
  simp only [Instr.WellFormed, Instr.defect, firstOf_cons, decide_eq_false_iff_not] at h
  omega
theorem wellFormed_vsetlLq (h : Instr.WellFormed (.vsetlLq o)) : o.d.toNat < 32 ∧ o.a.toNat < 4 := by
  simp only [Instr.WellFormed, Instr.defect, firstOf_cons, decide_eq_false_iff_not] at h
  omega
/-- VSETL of an empty length queue traps (R56). -/
theorem vsetlLq_traps (h : s.core.f.occ[o.a.toNat]?.getD 0 = 0) : Traps (.vsetlLq o) true 0x0B 0x00 s.slot.pc s := by
  have hexec : exec (.vsetlLq o) s = .next (s.takeTrap { code := 0x0B, sub := 0 }) := by
    change execVsetlLq o s = _
    have hpop : popOcc s [o.a.toNat] s = .error (.trap { code := 0x0B, sub := 0 } s) := by rw [popOcc, if_pos h]
    exact commit_trap (by simp only [hpop]; rfl)
  exact traps_of hexec (by decide) (by decide)
/-- The core whose length queue has been popped by the control thread. -/
def lqTaken (K : Core) (q k : Nat) (l : List Nat) : Core :=
  { K with f := { K.f with occ := K.f.occ.setIfInBounds q (k - 1), lq := K.f.lq.setIfInBounds q l }, qpos := (K.qpos + 1) % 65536 }
/-- The slot of a thread that has set its length and written it to a register. -/
def Slot.measured (x : Slot) (d n : Nat) : Slot := Slot.setG { x with vl := n } d (word n)
/-- The state whose length queue has been popped, its length set and written to a register. -/
def State.measured (s : State) (o : OpA2) (k n : Nat) (l : List Nat) : State :=
  ((((s.modF (fun f => { f with occ := f.occ.setIfInBounds o.a.toNat (k - 1) })).modF
    (fun f => { f with lq := f.lq.setIfInBounds o.a.toNat l })).takePos).modSlot (fun x => { x with vl := n })).setG o.d (word n)
theorem measured_leaves (s : State) (o : OpA2) (k n : Nat) (l : List Nat) :
    Leaves s (s.measured o k n l) ((lqTaken s.core o.a.toNat k l).setSlot s.hi (s.slot.measured o.d.toNat n)) := by
  have hleaves := (((((Leaves.refl s).modCore (fun K => { K with f := { K.f with occ := K.f.occ.setIfInBounds o.a.toNat (k - 1) } })).modCore
    (fun K => { K with f := { K.f with lq := K.f.lq.setIfInBounds o.a.toNat l } })).modCore
    (fun K => { K with qpos := (K.qpos + 1) % 65536 })).modSlot (fun x => { x with vl := n })).modSlot (fun x => x.setG o.d.toNat (word n))
  rw [Core.slot_setSlot, Core.setSlot_setSlot] at hleaves
  exact hleaves
theorem vsetlLq_exec {n : Nat} {l : List Nat} (hqueue : s.core.queue = []) (hlq : s.core.f.lq[o.a.toNat]? = some (n :: l))
    (hocc : 0 < s.core.f.occ[o.a.toNat]?.getD 0) : exec (.vsetlLq o) s =
      .next (s.measured o (s.core.f.occ[o.a.toNat]?.getD 0) (min n (elementsOf s.slot.vtype)) l).retire := by
  have hpop : popOcc s [o.a.toNat] s = .ok (s.modF (fun f => { f with occ := f.occ.setIfInBounds o.a.toNat (s.core.f.occ[o.a.toNat]?.getD 0 - 1) })) := by
    rw [popOcc, if_neg (by omega)]; rfl
  have holder : s.olderDone none [] [.lq o.a.toNat] = true := by
    have hnone : s.older = [] := by
      unfold State.older
      split <;> simp [hqueue]
    simp [State.olderDone, hnone]
  have hlen : ¬256 ≤ s.core.queue.length := by simp [hqueue]
  change execVsetlLq o s = _
  exact commit_ok (by simp only [hpop, bind, Except.bind, hlen, if_false, hlq, Option.getD_some, holder, if_true, vtVlmax_eq]; rfl)
/-- VSETL of a length queue (R136). -/
theorem vsetlLq_runs (hs : s.Free) (hwf : Instr.WellFormed (.vsetlLq o)) {n : Nat} {l : List Nat} (hqueue : s.core.queue = [])
    (hlq : s.core.f.lq[o.a.toNat]? = some (n :: l)) (hocc : 0 < s.core.f.occ[o.a.toNat]?.getD 0) :
    Runs (.vsetlLq o) s (fun t => t.slot.vl = min n (elementsOf s.slot.vtype) ∧
        WroteG o.d.toNat (word (min n (elementsOf s.slot.vtype))) t ∧ t.core.f.lq[o.a.toNat]? = some l ∧
        t.core.f.occ[o.a.toNat]?.getD 0 = s.core.f.occ[o.a.toNat]?.getD 0 - 1 ∧ t.core.qpos = (s.core.qpos + 1) % 65536 ∧
        Advanced s t ∧ t.core.f.v = s.core.f.v ∧ t.core.f.m = s.core.f.m ∧ SameBytes s t ∧
        ∀ k, k ≠ o.d.toNat → t.slot.getG k = s.slot.getG k) := by
  obtain ⟨hd, ha⟩ := wellFormed_vsetlLq hwf
  have hexec := vsetlLq_exec hqueue hlq hocc
  have hleaves := measured_leaves s o (s.core.f.occ[o.a.toNat]?.getD 0) (min n (elementsOf s.slot.vtype)) l
  generalize s.measured o (s.core.f.occ[o.a.toNat]?.getD 0) (min n (elementsOf s.slot.vtype)) l = u at hexec hleaves
  have hx : ((lqTaken s.core o.a.toNat (s.core.f.occ[o.a.toNat]?.getD 0) l).setSlot s.hi
      (s.slot.measured o.d.toNat (min n (elementsOf s.slot.vtype)))).slot s.hi = s.slot.measured o.d.toNat (min n (elementsOf s.slot.vtype)) :=
    Core.slot_setSlot _ _ _
  have hret := hleaves.goesOn (by rw [hx, Slot.measured, Slot.setG_stepping]; exact hs)
  rw [hx, Core.setSlot_setSlot] at hret
  generalize min n (elementsOf s.slot.vtype) = m at hret ⊢
  have hcore : u.retire.core = (lqTaken s.core o.a.toNat (s.core.f.occ[o.a.toNat]?.getD 0) l).setSlot s.hi (s.slot.measured o.d.toNat m).gone := by
    rw [hret, State.core_setCore]
  have hslot : u.retire.slot = (s.slot.measured o.d.toNat m).gone := by
    rw [hret, State.slot, State.core_setCore]
    exact Core.slot_setSlot _ _ _
  have hg (k : Nat) : u.retire.slot.getG k = (s.slot.measured o.d.toNat m).getG k := by rw [hslot]; rfl
  refine ⟨_, hexec, ?_, ?_, ?_, ?_, ?_, ?_, ?_, ?_, ?_, fun k hk => ?_⟩
  · rw [hslot]; simp [Slot.gone, Slot.measured]
  · rw [WroteG, hg, Slot.measured, Slot.getG_setG _ _ _ _ hd]
    by_cases h0 : o.d.toNat = 0
    · simp [h0, Slot.getG]
    · simp [h0]
  · rw [hcore, Core.setSlot_f]; simp [lqTaken, ha]
  · rw [hcore, Core.setSlot_f]; simp [lqTaken, ha]
  · rw [hcore]; simp [lqTaken]
  · rw [Advanced, hslot]; simp [Slot.gone, Slot.measured]
  · rw [hcore, Core.setSlot_f]; rfl
  · rw [hcore, Core.setSlot_f]; rfl
  · rw [hret]
    exact sameBytes_of ⟨by simp [lqTaken], by simp [lqTaken], by simp [lqTaken], by simp [lqTaken], by
      rw [Core.slot_setSlot]; simp [Slot.gone, Slot.measured]⟩
  · rw [hg, Slot.measured, Slot.getG_setG _ _ _ _ hd, if_neg (fun h => hk h.1)]; rfl
end Vsetl

section Vsett
variable {s : State} {o : OpW4}

theorem vsett_runs (hs : s.Free) (hwf : Instr.WellFormed (.vsett o)) (h : legalType (o.imm.setWidth 64)) :
    Runs (.vsett o) s (fun t => t.slot.vtype = o.imm.setWidth 64 ∧ t.slot.vl = min s.slot.vl (elementsOf (o.imm.setWidth 64)) ∧
      WroteG o.d.toNat (word (elementsOf (o.imm.setWidth 64))) t ∧ Advanced s t ∧
      ScalarFrame o.d.toNat (s.modSlot (fun x => { x with vtype := o.imm.setWidth 64, vl := min x.vl (elementsOf (o.imm.setWidth 64)) })) t) := by
  have hd : o.d.toNat < 32 := by
    simp only [Instr.WellFormed, Instr.defect, firstOf_cons, decide_eq_false_iff_not] at hwf
    omega
  obtain ⟨t, hrun, hvl, hvtype, hrest⟩ := slotSet_runs (i := .vsett o) (d := o.d) (v := word (elementsOf (o.imm.setWidth 64)))
    (f := fun x => { x with vtype := o.imm.setWidth 64, vl := min x.vl (elementsOf (o.imm.setWidth 64)) }) hs hd ⟨rfl, rfl, rfl, rfl⟩ (by
      change execVsett o s = _
      unfold execVsett
      refine commit_ok ?_
      rw [(vtypeBad_iff _).mpr h, vtVlmax_eq]
      rfl)
  exact ⟨t, hrun, hvtype, hvl, hrest⟩
theorem vsett_traps (h : ¬legalType (o.imm.setWidth 64)) : Traps (.vsett o) true 0x01 0x04 s.slot.pc s := by
  have hbad : vtypeBad (o.imm.setWidth 64) = true := by
    rw [← Bool.not_eq_false, vtypeBad_iff]
    exact h
  have hexec : exec (.vsett o) s = .next (s.takeTrap { code := 0x01, sub := 0x04 }) := by
    change execVsett o s = _
    unfold execVsett
    refine commit_trap ?_
    rw [hbad]
    rfl
  exact traps_of hexec (by decide) (by decide)
end Vsett

/-- R56, R136, R137. -/
theorem lengthAndTypeAreSet : LengthAndTypeAreSet := by
  refine fun s hs => ⟨fun o hwf => ?_, fun o n l hwf hqueue hlq hocc => vsetlLq_runs hs hwf hqueue hlq hocc,
    fun o _ h => vsetlLq_traps h, fun o hwf h => vsett_runs hs hwf h, fun o _ h => vsett_traps h⟩
  obtain ⟨t, hrun, hvl, -, hrest⟩ := slotSet_runs (i := .vsetl o) (d := o.d) (v := word (min (s.g o.a).toNat (elementsOf s.slot.vtype)))
    (f := fun x => { x with vl := min (s.g o.a).toNat (elementsOf s.slot.vtype) }) hs (wellFormed_vsetl hwf) ⟨rfl, rfl, rfl, rfl⟩ (by
      change execVsetl o s = _
      exact commit_ok (by simp only [vtVlmax_eq]))
  exact ⟨t, hrun, hvl, hrest⟩

/-- Settles O7: WAITEV, CEDE and HALT by what they do to the slot, VSETL and VSETT by the length and the type that they leave. -/
theorem waitsEndAndLengthsAreSet : Obligations.WaitsEndAndLengthsAreSet := ⟨waitsAndTheEndOfAThread, lengthAndTypeAreSet⟩

end Sys2Proof.Machine
end

section
/-! SUPPORT. Compares and mask forms: what is written to a mask register (R48, R145, R146). -/

namespace Sys2Proof.Machine

/-- The register files after a write of a mask register; m0 discards it (R48). -/
def maskWritten (f : Files) (d : Nat) (x : MReg) : Files := if d = 0 then f else { f with m := f.m.setIfInBounds d x }
theorem getLsbD_maskOf (n : Nat) (p : Nat → Bool) {k : Nat} (hk : k < 512) : (maskOf n p).getLsbD k = true ↔ k < n ∧ p k = true := by
  have h := flag_maskOf n p k hk
  rw [flag] at h
  simp [h]
/-- A form that leaves the files behind a write of md: what the register holds. -/
theorem FilesRun.maskResult {e : Engine} {i : Instr} {len l : BitVec 3} {d n fl : Nat} {p : Nat → Bool} {q : Nat → Prop} {s t : State}
    (h : FilesRun e i len (maskWritten (popF s.core.f l) d (maskOf n p)) fl 0 s t) (hd : d < 8) (hp : ∀ k, p k = true ↔ q k) :
    MaskResult s t d n q := by
  obtain ⟨-, hm, -⟩ := popF_v s.core.f l
  unfold MaskResult
  split
  · next h0 => rw [h.files, maskWritten, if_pos h0, hm]
  · next h0 =>
    intro k hk
    have hreg : t.mreg d = maskOf n p := by
      rw [State.mreg, if_neg h0, h.files, maskWritten, if_neg h0, getD_setIfInBounds _ _ _ _ _ hd, if_pos rfl]
    rw [hreg, getLsbD_maskOf n p hk, hp]

/-! ### Compares (R145) -/

/-- The step of a compare. -/
def cmpStep (o : OpV4) (f : Cmd → Nat → Nat → Nat → Bool × Nat) : Run1 := fun c s =>
  let w := vtSew c.vtype
  let n := c.len o.len (vlmax w)
  let m := s.mreg o.msk.toNat
  let s := s.note c n (active m n)
  let ab := v4Lanes o c s w n
  let r := fun i => f c w (ab.1 i) (ab.2 i)
  .ok ((s.setM o.d.toNat (maskOf n (fun i => flag m i && (r i).1))).raise c (orFlags m (fun i => (r i).2) n))
theorem cmpEff_eq (o : OpV4) (f : Cmd → Nat → Nat → Nat → Bool × Nat) : cmpEff o f = whole (cmpStep o f) := rfl
/-- A COMPARE IN A QUIET CORE: md takes the active positions below the length at which the relation holds, STATUS the flags of the active
lanes. -/
theorem cmp_runs {i : Instr} {o : OpV4} {f : Cmd → Nat → Nat → Nat → Bool × Nat} {s : State} {n : Nat} {p : Nat → Bool} {fl : Nat → Nat}
    (hw : waitsForNothing i = true) (hq : s.Quiet) (hn : LenIs s o.len n)
    (hf : ∀ c : Cmd, c.vtype = s.slot.vtype → ∀ e, f c (vtSew s.slot.vtype) (laneA s o (vtSew s.slot.vtype) (lengthOf s o.len n) e)
      (laneB s o (vtSew s.slot.vtype) (lengthOf s o.len n) e) = (p e, fl e)) :
    ∃ t, cmpForm o i (cmpEff o f) s = .next t ∧ FilesRun .vec i o.len (maskWritten (popF s.core.f o.len) o.d.toNat
      (maskOf (lengthOf s o.len n) (fun e => flag (s.mreg o.msk.toNat) e && p e))) (orFlags (s.mreg o.msk.toNat) fl (lengthOf s o.len n)) 0 s t := by
  refine engine_runs_from (t := v4Ticket o i s [.m o.d.toNat]) (f := cmpStep o f) (b := s) (m := n)
    (c := (v4Ticket o i s [.m o.d.toNat]).noted s o.len n (lengthOf s o.len n) (active (s.mreg o.msk.toNat) (lengthOf s o.len n)))
    hq (.inl rfl) rfl hn hw rfl (fun _ => rfl) hq.free rfl rfl rfl ?_
  have hcmd := hf ((v4Ticket o i s [.m o.d.toNat]).cmd s o.len n) rfl
  rw [lengthOf] at hcmd ⊢
  simp only [cmpStep, Ticket.cmd_vtype, len_popped _ _ _ _ _ hn, Ticket.core_mreg, note_working]
  rw [working, v4Lanes_eq o i s n _ _ _ _ (by exact (popF_v _ _).1), ← working]
  simp only [hcmd]
  rw [working_setM, working_raise _ _ _ _ _ _ (by exact rfl), Nat.zero_or]
  rfl

/-- What the first check of a form excludes. -/
theorem lt_of_firstOf {k n : Nat} {r : Reject} {l : List (Bool × Reject)} (h : firstOf ((decide (k ≤ n), r) :: l) = none) : n < k := by
  rw [firstOf_cons] at h
  simp only [decide_eq_false_iff_not] at h
  omega
theorem vtSew_pos (vt : Word) : 0 < vtSew vt := Nat.mul_pos (by decide) (Nat.two_pow_pos _)
/-- The operand elements lie in their width. -/
theorem laneA_lt (s : State) (o : OpV4) (w n e : Nat) : laneA s o w n e < 2 ^ w := by
  unfold laneA
  split
  · split
    · exact elem_lt _ _ _
    · exact Nat.two_pow_pos w
  · exact elem_lt _ _ _
theorem laneB_lt (s : State) (o : OpV4) (w n e : Nat) : laneB s o w n e < 2 ^ w := by
  unfold laneB
  split
  · exact Nat.mod_lt _ (Nat.two_pow_pos w)
  · split
    · split
      · exact elem_lt _ _ _
      · exact Nat.two_pow_pos w
    · exact elem_lt _ _ _
section
variable {s : State} {i : Instr} {o : OpV4} {n : Nat}

/-- An integer compare in a quiet core, by its code (R145). -/
theorem icmp_runs {code : Nat} {p : Nat → Nat → Nat → Prop} (he : exec i s = cmpForm o i (icmpEff o code) s) (hw : waitsForNothing i = true)
    (hq : s.Quiet) (hd : o.d.toNat < 8) (hn : LenIs s o.len n)
    (hp : ∀ a b, a < 2 ^ vtSew s.slot.vtype → b < 2 ^ vtSew s.slot.vtype →
      (cmpHolds code (BitVec.ofNat (vtSew s.slot.vtype) a) (BitVec.ofNat (vtSew s.slot.vtype) b) = true ↔ p (vtSew s.slot.vtype) a b)) :
    Runs i s (fun t => EngineFrame .vec i [] [o.d.toNat] [] [] [] o.len s t ∧ Advanced s t ∧ t.slot.status = s.slot.status ∧
      MaskResult s t o.d.toNat (lengthOf s o.len n) (fun e => (s.mreg o.msk.toNat).getLsbD e = true ∧
        p (vtSew s.slot.vtype) (laneA s o (vtSew s.slot.vtype) (lengthOf s o.len n) e)
          (laneB s o (vtSew s.slot.vtype) (lengthOf s o.len n) e))) := by
  obtain ⟨t, ht, hrun⟩ := cmp_runs (f := fun _ w a b => (cmpHolds code (BitVec.ofNat w a) (BitVec.ofNat w b), 0)) (fl := fun _ => 0) hw hq hn
    (fun _ _ _ => rfl)
  rw [orFlags_zero _ _ (fun _ => rfl)] at hrun
  refine ⟨t, he.trans ht, hrun.frame ((FilesFrame.popF _ _ _ _ _ _ _).setM _ (by simp)), hrun.advanced, hrun.status_same,
    hrun.maskResult hd (fun e => ?_)⟩
  rw [Bool.and_eq_true, hp _ _ (laneA_lt _ _ _ _ _) (laneB_lt _ _ _ _ _)]
  rfl
/-- A floating compare in a quiet core (R145). -/
theorem fcmp_runs {strict un : Bool} {p : FV → FV → Bool} (he : exec i s = fpCmpForm o i (fcmpEff o strict un p) s)
    (hw : waitsForNothing i = true) (hq : s.Quiet) (hd : o.d.toNat < 8) (hn : LenIs s o.len n) (hfmt : vtFmt s.slot.vtype ≤ 3) {x y : Nat → FV}
    (hx : x = (fun e => fval (fmtOf (vtFmt s.slot.vtype)) (laneA s o (vtSew s.slot.vtype) (lengthOf s o.len n) e)))
    (hy : y = (fun e => fval (fmtOf (vtFmt s.slot.vtype)) (laneB s o (vtSew s.slot.vtype) (lengthOf s o.len n) e))) :
    Runs i s (fun t => EngineFrame .vec i [] [o.d.toNat] [] [] [] o.len s t ∧ Advanced s t ∧
      FlagResult s t (lengthOf s o.len n) o.msk (fun e =>
        if (x e).isSig ∨ (y e).isSig ∨ (strict = true ∧ ((x e).isNan ∨ (y e).isNan)) then fNV else 0) ∧
      MaskResult s t o.d.toNat (lengthOf s o.len n) (fun e => (s.mreg o.msk.toNat).getLsbD e = true ∧
        (if (x e).isNan ∨ (y e).isNan then un = true else p (x e) (y e) = true))) := by
  rw [fpCmpForm, fpGuard_pass hfmt] at he
  obtain ⟨t, ht, hrun⟩ := cmp_runs (s := s) (o := o) (i := i) (n := n) (p := fun e => if (x e).isNan || (y e).isNan then un else p (x e) (y e))
    (fl := fun e => if (strict && ((x e).isNan || (y e).isNan)) || (x e).isSig || (y e).isSig then fNV else 0) (f := fun c _ a b =>
      let ff := fmtOf (vtFmt c.vtype)
      let x := fval ff a
      let y := fval ff b
      let nan := x.isNan || y.isNan
      (if nan then un else p x y, if (strict && nan) || x.isSig || y.isSig then fNV else 0)) hw hq hn
    (fun c hc e => by simp only [hc, hx, hy])
  refine ⟨t, he.trans ht, hrun.frame ((FilesFrame.popF _ _ _ _ _ _ _).setM _ (by simp)), hrun.advanced, ?_, hrun.maskResult hd (fun e => ?_)⟩
  · have hfl (e : Nat) : (if (x e).isSig ∨ (y e).isSig ∨ (strict = true ∧ ((x e).isNan ∨ (y e).isNan)) then fNV else 0) =
        if (strict && ((x e).isNan || (y e).isNan)) || (x e).isSig || (y e).isSig then fNV else 0 := by
      congr 1
      simp only [Bool.or_eq_true, Bool.and_eq_true, eq_iff_iff]
      tauto
    simp only [hfl]
    exact hrun.flagResult rfl
  · rw [Bool.and_eq_true]
    simp only [Bool.or_eq_true]
    split <;> rfl
end

theorem ofNat_inj {w a b : Nat} (ha : a < 2 ^ w) (hb : b < 2 ^ w) : BitVec.ofNat w a = BitVec.ofNat w b ↔ a = b := by
  rw [← BitVec.toNat_inj, BitVec.toNat_ofNat, BitVec.toNat_ofNat, Nat.mod_eq_of_lt ha, Nat.mod_eq_of_lt hb]
theorem ult_ofNat {w a b : Nat} (ha : a < 2 ^ w) (hb : b < 2 ^ w) : (BitVec.ofNat w a).ult (BitVec.ofNat w b) = true ↔ a < b := by
  rw [BitVec.ult, decide_eq_true_iff, BitVec.toNat_ofNat, BitVec.toNat_ofNat, Nat.mod_eq_of_lt ha, Nat.mod_eq_of_lt hb]
theorem slt_ofNat (w a b : Nat) : (BitVec.ofNat w a).slt (BitVec.ofNat w b) = true ↔ signedElem w a < signedElem w b := by
  rw [BitVec.slt, decide_eq_true_iff]; rfl

/-- R48, R145. -/
theorem comparesWriteMasks : ComparesWriteMasks := by
  refine ⟨fun s i o p n hq hi hwf hn => ?_, fun s i o un p strict n x y hq hi hwf hn hfmt hx hy => ?_⟩
  · unfold integerCompare at hi
    split at hi <;> cases hi
    case h_1 => exact icmp_runs (code := 0) (p := fun _ a b => a = b) (by rfl) (by rfl) hq (lt_of_firstOf hwf) hn (fun a b ha hb => beq_iff_eq.trans (ofNat_inj ha hb))
    case h_2 => exact icmp_runs (code := 1) (p := fun _ a b => a ≠ b) (by rfl) (by rfl) hq (lt_of_firstOf hwf) hn (fun a b ha hb => bne_iff_ne.trans (ofNat_inj ha hb).not)
    case h_3 => exact icmp_runs (code := 2) (p := fun w a b => signedElem w a < signedElem w b) (by rfl) (by rfl) hq (lt_of_firstOf hwf) hn (fun a b _ _ => slt_ofNat _ a b)
    case h_4 =>
      refine icmp_runs (code := 3) (p := fun w a b => signedElem w b ≤ signedElem w a) (by rfl) (by rfl) hq (lt_of_firstOf hwf) hn (fun a b _ _ => ?_)
      rw [← not_lt, ← slt_ofNat]
      simp [cmpHolds]
    case h_5 => exact icmp_runs (code := 4) (p := fun _ a b => a < b) (by rfl) (by rfl) hq (lt_of_firstOf hwf) hn (fun a b ha hb => ult_ofNat ha hb)
    case h_6 =>
      refine icmp_runs (code := 5) (p := fun _ a b => b ≤ a) (by rfl) (by rfl) hq (lt_of_firstOf hwf) hn (fun a b ha hb => ?_)
      rw [← not_lt, ← ult_ofNat ha hb]
      simp [cmpHolds]
  · unfold floatCompare at hi
    split at hi <;> cases hi
    case h_1 => exact fcmp_runs (p := feq) (by rfl) (by rfl) hq (lt_of_firstOf hwf) hn hfmt hx hy
    case h_2 => exact fcmp_runs (p := fun a b => !feq a b) (by rfl) (by rfl) hq (lt_of_firstOf hwf) hn hfmt hx hy
    case h_3 => exact fcmp_runs (p := flt) (by rfl) (by rfl) hq (lt_of_firstOf hwf) hn hfmt hx hy
    case h_4 => exact fcmp_runs (p := fun a b => !flt a b) (by rfl) (by rfl) hq (lt_of_firstOf hwf) hn hfmt hx hy
    case h_5 => exact fcmp_runs (p := fun _ _ => false) (by rfl) (by rfl) hq (lt_of_firstOf hwf) hn hfmt hx hy
    case h_6 => exact fcmp_runs (p := fun _ _ => true) (by rfl) (by rfl) hq (lt_of_firstOf hwf) hn hfmt hx hy

/-! ### Mask logic (R146) -/

/-- The step of a mask form. -/
def maskStep (o : OpA2) (f : Bool → Bool → Bool) : Run1 := fun c s =>
  let a := s.mreg o.a.toNat
  let b := s.mreg o.b.toNat
  .ok ((s.note c c.vl c.vl).setM o.d.toNat (maskOf c.vl (fun i => f (flag a i) (flag b i))))
theorem maskEff_eq (o : OpA2) (f : Bool → Bool → Bool) : maskEff o f = whole (maskStep o f) := rfl
theorem mask_runs {s : State} {i : Instr} {o : OpA2} {f : Bool → Bool → Bool} (he : exec i s = maskForm o i (maskEff o f) s)
    (hw : waitsForNothing i = true) (hq : s.Quiet) (hd : o.d.toNat < 8) :
    Runs i s (fun t => EngineFrame .vec i [] [o.d.toNat] [] [] [] 0 s t ∧ Advanced s t ∧ t.slot.status = s.slot.status ∧
      MaskResult s t o.d.toNat s.slot.vl (fun e => f ((s.mreg o.a.toNat).getLsbD e) ((s.mreg o.b.toNat).getLsbD e) = true)) := by
  have hn : LenIs s 0 s.slot.vl := rfl
  obtain ⟨t, ht, hrun⟩ := engine_runs_from (t := { eng := .vec, ins := i, rd := [.m o.a.toNat, .m o.b.toNat], wr := [.m o.d.toNat] })
    (f := maskStep o f) (s := s) (b := s) (m := s.slot.vl) (g := maskWritten (popF s.core.f 0) o.d.toNat
      (maskOf s.slot.vl (fun e => f ((s.mreg o.a.toNat).getLsbD e) ((s.mreg o.b.toNat).getLsbD e)))) (fl := 0) (mrs := 0)
    (c := ({ eng := .vec, ins := i, rd := [.m o.a.toNat, .m o.b.toNat], wr := [.m o.d.toNat] } : Ticket).noted s 0 s.slot.vl s.slot.vl s.slot.vl)
    hq (.inr ⟨rfl, rfl⟩) rfl hn hw rfl (fun _ => rfl) hq.free rfl rfl rfl (by
      simp only [maskStep, Ticket.core_mreg]
      rw [show (({ eng := .vec, ins := i, rd := [.m o.a.toNat, .m o.b.toNat], wr := [.m o.d.toNat] } : Ticket).cmd s 0 s.slot.vl).vl = s.slot.vl
        from rfl, note_working, working_setM]
      rfl)
  exact ⟨t, he.trans ht, hrun.frame ((FilesFrame.popF _ _ _ _ _ _ _).setM _ (by simp)), hrun.advanced, hrun.status_same,
    hrun.maskResult hd (fun _ => Iff.rfl)⟩
/-- R146. -/
theorem maskLogic_runs {s : State} {i : Instr} {o : OpA2} {f : Bool → Bool → Bool} (hq : s.Quiet) (hi : maskLogic i = some (o, f)) (hwf : i.WellFormed) :
    Runs i s (fun t => EngineFrame .vec i [] [o.d.toNat] [] [] [] 0 s t ∧ Advanced s t ∧ t.slot.status = s.slot.status ∧
      MaskResult s t o.d.toNat s.slot.vl (fun e => f ((s.mreg o.a.toNat).getLsbD e) ((s.mreg o.b.toNat).getLsbD e) = true)) := by
  unfold maskLogic at hi
  split at hi <;> cases hi
  case h_1 => exact mask_runs (f := fun a b => a && b) (by rfl) (by rfl) hq (lt_of_firstOf hwf)
  case h_2 => exact mask_runs (f := fun a b => a || b) (by rfl) (by rfl) hq (lt_of_firstOf hwf)
  case h_3 => exact mask_runs (f := fun a b => a != b) (by rfl) (by rfl) hq (lt_of_firstOf hwf)
  case h_4 => exact mask_runs (f := fun a b => a && !b) (by rfl) (by rfl) hq (lt_of_firstOf hwf)

/-! ### The count of a mask (R147) -/

theorem countBelow_eq (p : Nat → Bool) (n : Nat) : countBelow p n = ((List.range n).filter p).length := by
  induction n with
  | zero => rfl
  | succ n ih =>
    rw [countBelow, ih, List.range_succ, List.filter_append, List.length_append]
    cases hp : p n <;> simp [b2n, hp]
theorem active_eq (m : MReg) (n : Nat) : active m n = ((List.range n).filter (fun e => m.getLsbD e)).length := countBelow_eq _ n

/-- The register files after a count has been pushed. -/
def pushedF (f : Files) (q k : Nat) : Files :=
  { f with occ := f.occ.setIfInBounds q (f.occ[q]?.getD 0 + 1), lq := f.lq.setIfInBounds q ((f.lq[q]?.getD []) ++ [k]) }
section
variable {s : State} {o : OpA2}

/-- The ticket of MPOPC to a length queue. -/
def popcTicket (o : OpA2) : Ticket := { eng := .vec, ins := .mpopcLq o, push := some o.d.toNat, rd := [.m o.a.toNat] }
/-- The step of MPOPC to a length queue. -/
def popcStep (o : OpA2) : Run1 := fun c s =>
  let n := active (s.mreg o.a.toNat) c.vl
  .ok ((s.note c c.vl c.vl).modF (fun f => { f with lq := f.lq.setIfInBounds o.d.toNat ((f.lq[o.d.toNat]?.getD []) ++ [n]) }))
/-- The core in which the count is taken: the push has been counted at commit (R56). -/
def popcCore (o : OpA2) (s : State) : Core :=
  { (popcTicket o).core s 0 s.slot.vl with
    f := { s.core.f with occ := s.core.f.occ.setIfInBounds o.d.toNat (s.core.f.occ[o.d.toNat]?.getD 0 + 1) } }
theorem retire_modF_id {u : State} (h : u.slot.stepping = false) : u.retire.modF id = u.retire := by
  rw [State.retire_eq h, State.modSlot_eq, State.modF_eq, State.modCore_modCore]; rfl
theorem Core.setSlot_files (K : Core) (hi : Bool) (x : Slot) (g : Files) : { K.setSlot hi x with f := g } = { K with f := g }.setSlot hi x := by
  cases hi <;> rfl
theorem popc_launch (hq : s.Quiet) (h : s.core.f.occ[o.d.toNat]?.getD 0 < 16) : exec (.mpopcLq o) s =
    finish ((s.setCore (popcCore o s)).drive (whole (popcStep o)) s.core.qpos driveFuel) := by
  have hpush : pushOcc s (popcTicket o).push s = .ok (s.modF (fun f => { f with occ := f.occ.setIfInBounds o.d.toNat (s.core.f.occ[o.d.toNat]?.getD 0 + 1) })) := by
    simp only [popcTicket, pushOcc]
    rw [if_neg (by omega)]
  have hfree : ((s.modF (fun f => { f with occ := f.occ.setIfInBounds o.d.toNat (s.core.f.occ[o.d.toNat]?.getD 0 + 1) })).enqueue
      ((popcTicket o).entry s)).slot.stepping = false := by
    have hslot : ((s.modF (fun f => { f with occ := f.occ.setIfInBounds o.d.toNat (s.core.f.occ[o.d.toNat]?.getD 0 + 1) })).enqueue
        ((popcTicket o).entry s)).slot = s.slot := by
      simp only [State.enqueue, State.modF_eq, State.modCore_modCore, State.slot, State.core_modCore, State.modCore_hi]; rfl
    rw [hslot]
    exact hq.free
  have hrun := engine_quiet (t := popcTicket o) (run := whole (popcStep o)) (vls := []) hq (by rfl) hpush
    ⟨by simp, rfl, by simpa using hq.queue, by simp, by simpa [Core.heldRanges] using hq.ranges⟩ rfl
    (copyReady_of_waitsForNothing rfl) (Nat.zero_le _) (congrArg (fun u => Except.ok ([], u)) (retire_modF_id hfree).symm)
  rw [launch_eq hq _ id [] rfl] at hrun
  rw [popcCore, Ticket.core, Core.setSlot_files]
  exact hrun
/-- MPOPC to a length queue with a place in it (R56, R147). -/
theorem mpopcLq_runs (hq : s.Quiet) (h : s.core.f.occ[o.d.toNat]?.getD 0 < 16) :
    Runs (.mpopcLq o) s (fun t => t.core.f = pushedF s.core.f o.d.toNat (active (s.mreg o.a.toNat) s.slot.vl) ∧ t.core.queue = [] ∧
      t.slot.status = s.slot.status ∧ Advanced s t ∧ SameBytes s t ∧ ∀ k, t.slot.getG k = s.slot.getG k) := by
  have hcmd : (s.setCore (popcCore o s)).core.cmd s.core.qpos = some ((popcTicket o).cmd s 0 s.slot.vl) := by
    have := (popcTicket o).core_cmd s 0 s.slot.vl
    rw [State.core_setCore] at this ⊢
    exact this
  have hslot : (s.setCore (popcCore o s)).slot = s.retire.slot := by
    rw [State.slot, State.core_setCore]
    exact (popcTicket o).core_slot s 0 s.slot.vl
  have hstep : popcStep o ((popcTicket o).cmd s 0 s.slot.vl) (s.setCore (popcCore o s)) = .ok (s.setCore { (popcTicket o).core s 0 s.slot.vl with
      f := pushedF s.core.f o.d.toNat (active (s.mreg o.a.toNat) s.slot.vl),
      queue := [(popcTicket o).noted s 0 s.slot.vl s.slot.vl s.slot.vl] }) := by
    have hmask : (s.setCore (popcCore o s)).mreg o.a.toNat = s.mreg o.a.toNat := by rw [State.mreg, State.core_setCore]; rfl
    have hvl : ((popcTicket o).cmd s 0 s.slot.vl).vl = s.slot.vl := rfl
    simp only [popcStep, hmask, hvl]
    rw [note_setCore _ _ _ ((popcTicket o).cmd s 0 s.slot.vl) _ _ (by rw [popcCore]; exact (popcTicket o).core_queue s 0 s.slot.vl) rfl, modF_setCore]
    rfl
  have hep : ((popcTicket o).cmd s 0 s.slot.vl).ep = (s.setCore (popcCore o s)).slot.ep := by rw [hslot, State.slot_retire hq.free]; rfl
  have hend := drive_whole (n := driveFuel - 1) hcmd rfl hep rfl hstep rfl rfl
  obtain ⟨hadv, hst, hf⟩ := advanced_of (t := popcTicket o) (len := 0) (n := s.slot.vl) (g := pushedF s.core.f o.d.toNat (active (s.mreg o.a.toNat) s.slot.vl))
    (e := (popcTicket o).noted s 0 s.slot.vl s.slot.vl s.slot.vl) hq.free rfl rfl
  have hslot' : (Core.ended { (popcTicket o).core s 0 s.slot.vl with
      f := pushedF s.core.f o.d.toNat (active (s.mreg o.a.toNat) s.slot.vl), queue := [(popcTicket o).noted s 0 s.slot.vl s.slot.vl s.slot.vl] }
      ((popcTicket o).noted s 0 s.slot.vl s.slot.vl s.slot.vl)).slot s.hi = { s.slot.gone with status := statusWith s.slot.status 0 0 } := by
    have hx := (popcTicket o).core_slot s 0 s.slot.vl
    rw [State.slot_retire hq.free] at hx
    refine (Core.ended_slot _ _).trans ?_
    change { ((popcTicket o).core s 0 s.slot.vl).slot s.hi with status := statusWith (((popcTicket o).core s 0 s.slot.vl).slot s.hi).status 0 0 } = _
    rw [hx]
    rfl
  refine ⟨_, (popc_launch hq h).trans (congrArg finish hend), hf, ?_, hst.trans (statusWith_zero _), hadv, ?_, fun k => ?_⟩
  · rw [State.core_setCore, Core.ended_queue]
  · exact sameBytes_of ⟨by simp [Ticket.core_eq], by simp [Ticket.core_eq], by simp [Ticket.core_eq], by simp [Ticket.core_eq], by rw [hslot']; exact ⟨rfl, rfl, rfl⟩⟩
  · rw [State.slot, State.core_setCore, State.setCore_hi, hslot']
    rfl
end

end Sys2Proof.Machine
end

section
/-! SUPPORT. Forms that return a value to the control thread (R133). -/

namespace Sys2Proof.Machine

theorem Leaves.beginVec (s : State) (e : Engine) (i : Instr) : Leaves s (s.beginVec e i) { s.core with st := (s.beginVec e i).core.st } := by
  by_cases h : e = .vec
  · obtain ⟨F, hF⟩ := closeFlits_eq (pushesTo i)
    have hbegin : s.beginVec e i = s.modSt F := by rw [State.beginVec, if_pos h, hF]
    rw [hbegin, State.modSt, State.core_modCore]
    exact (Leaves.refl s).modCore _
  · rw [State.beginVec, if_neg h]
    exact Leaves.refl s
/-- A retire trace that takes an entry (R387). -/
theorem Leaves.traceCmd {s t : State} {K : Core} (h : Leaves s t K) (c : Cmd) (flt : Bool) :
    Leaves s (t.traceCmd c flt) (if c.traces then K.traced c flt else K) := by
  unfold State.traceCmd
  split
  · exact h.modCore _
  · exact h

/-- The core of a form that has returned a value, its retire trace aside. -/
def returnedCore (s : State) (e : Engine) (i : Instr) (x : Slot) (tr : List (Nat × BitVec 256)) (tp : Word) : Core :=
  { s.core with st := (s.beginVec e i).core.st, trace := tr, traceptr := tp, qpos := (s.core.qpos + 1) % 65536 }.setSlot s.hi x
theorem returned_leaves (s : State) (e : Engine) (i : Instr) (d : BitVec 6) (v : Word) (c : Cmd) : ∃ tr tp,
    Leaves s ((((s.beginVec e i).setG d v).traceCmd c false).takePos) (returnedCore s e i (s.slot.setG d.toNat v) tr tp) ∧
      (c.traces = true ∨ tr = s.core.trace ∧ tp = s.core.traceptr) := by
  have h := (((Leaves.beginVec s e i).modSlot (fun x => x.setG d.toNat v)).traceCmd c false).modCore (fun k => { k with qpos := (k.qpos + 1) % 65536 })
  have hx : ({ s.core with st := (s.beginVec e i).core.st } : Core).slot s.hi = s.slot := by
    rw [State.slot]
    cases s.hi <;> rfl
  rw [hx] at h
  cases hc : c.traces
  · refine ⟨s.core.trace, s.core.traceptr, ?_, .inr ⟨rfl, rfl⟩⟩
    rw [hc, if_neg Bool.false_ne_true] at h
    have hcore : returnedCore s e i (s.slot.setG d.toNat v) s.core.trace s.core.traceptr =
        { ({ s.core with st := (s.beginVec e i).core.st } : Core).setSlot s.hi (s.slot.setG d.toNat v) with qpos := (s.core.qpos + 1) % 65536 } := by
      rw [returnedCore]
      cases s.hi <;> rfl
    rw [hcore]
    rw [Core.setSlot_qpos] at h
    exact h
  · refine ⟨(s.core.traced c false).trace, (s.core.traced c false).traceptr, ?_, .inl rfl⟩
    rw [hc, if_pos rfl] at h
    have hcore : returnedCore s e i (s.slot.setG d.toNat v) (s.core.traced c false).trace (s.core.traced c false).traceptr =
        { (({ s.core with st := (s.beginVec e i).core.st } : Core).setSlot s.hi (s.slot.setG d.toNat v)).traced c false with
          qpos := (s.core.qpos + 1) % 65536 } := by
      rw [returnedCore]
      cases s.hi <;> rfl
    have hq : ((({ s.core with st := (s.beginVec e i).core.st } : Core).setSlot s.hi (s.slot.setG d.toNat v)).traced c false).qpos = s.core.qpos := by
      cases s.hi <;> rfl
    rw [hcore]
    rw [hq] at h
    exact h
/-- A FORM THAT RETURNS A VALUE, of a core with an empty queue (R133): it writes gd, and the thread goes on. -/
theorem returnForm_runs {e : Engine} {i : Instr} {rd wr : List Res} {f : State → M State} {d : BitVec 6} {v : Word} {s : State} (hs : s.Free)
    (hqueue : s.core.queue = []) (hd : d.toNat < 32) (hf : f (s.beginVec e i) = .ok ((s.beginVec e i).setG d v)) :
    ∃ t, returnForm e i rd wr s f = .next t ∧ ReturnFrame e i d.toNat s t ∧ Advanced s t ∧ WroteG d.toNat v t := by
  have hnone : s.older = [] := by
    unfold State.older
    split <;> simp [hqueue]
  have hdone : s.olderDone (some e) rd wr = true := by simp [State.olderDone, hnone]
  have hlen : ¬256 ≤ s.core.queue.length := by simp [hqueue]
  obtain ⟨c, hc⟩ : ∃ c : Cmd, c = { ({ eng := e, ins := i, rd := rd, wr := wr } : Ticket).entry s with tr := (s.slot.vl, s.slot.vl, 0, 0) } := ⟨_, rfl⟩
  have hexec : returnForm e i rd wr s f = .next (((((s.beginVec e i).setG d v).traceCmd c false).takePos).retire) := by
    rw [returnForm, if_neg hlen, if_pos hdone, hf, hc]
    rfl
  have hvec : e = .vec ∨ c.traces = false := by
    by_cases he : e = .vec
    · exact .inl he
    · exact .inr (by simp [hc, Cmd.traces, Ticket.entry, he])
  obtain ⟨tr, tp, hleaves, htr⟩ := returned_leaves s e i d v c
  have hx : (returnedCore s e i (s.slot.setG d.toNat v) tr tp).slot s.hi = s.slot.setG d.toNat v := Core.slot_setSlot _ _ _
  have hret := hleaves.goesOn (by rw [hx, Slot.setG_stepping]; exact hs)
  rw [hx, returnedCore, Core.setSlot_setSlot] at hret
  generalize ((((s.beginVec e i).setG d v).traceCmd c false).takePos).retire = t at hexec hret
  have hslot : t.slot = (s.slot.setG d.toNat v).gone := by
    rw [hret, State.slot, State.core_setCore]
    exact Core.slot_setSlot _ _ _
  have hg (k : Nat) : t.slot.getG k = (s.slot.setG d.toNat v).getG k := by rw [hslot]; rfl
  refine ⟨t, hexec, ⟨?_, ?_, ?_, ?_, fun k hk => ?_, ?_, ?_⟩, ?_, ?_⟩
  · rw [hret, State.core_setCore]
  · rw [hret, State.core_setCore]; cases s.hi <;> rfl
  · rw [hret, State.core_setCore, Core.slot_setSlot_not]; cases s.hi <;> rfl
  · rw [hslot]; unfold Slot.setG; split <;> rfl
  · rw [hg, Slot.getG_setG _ _ _ _ hd, if_neg (fun h => hk h.1)]
  · rcases hvec with h | h
    · exact .inl h
    · rw [h] at htr
      rw [hret, State.core_setCore]
      obtain ⟨rfl, rfl⟩ := htr.resolve_left Bool.false_ne_true
      exact .inr ⟨by simp, by simp⟩
  · rw [hret]
    exact sameBytes_of ⟨by simp, by simp, by simp, by simp, by rw [Core.slot_setSlot]; simp [Slot.gone]⟩
  · rw [Advanced, hslot]; simp [Slot.gone]
  · rw [WroteG, hg, Slot.getG_setG _ _ _ _ hd]
    by_cases h0 : d.toNat = 0
    · simp [h0, Slot.getG]
    · simp [h0]

/-! ### The count and one element to a g register (R147, R150) -/

theorem mreg_beginVec (s : State) (e : Engine) (i : Instr) (n : Nat) : (s.beginVec e i).mreg n = s.mreg n := by
  rw [State.mreg, beginVec_core]; rfl
theorem vreg_beginVec (s : State) (e : Engine) (i : Instr) (n : Nat) : (s.beginVec e i).vreg n = s.vreg n := by
  rw [State.vreg, beginVec_core]; rfl
theorem slot_beginVec (s : State) (e : Engine) (i : Instr) : (s.beginVec e i).slot = s.slot := by
  rw [(Leaves.beginVec s e i).slot, State.slot]
  cases s.hi <;> rfl
section
variable {s : State} {o : OpA2}

theorem mpopcG_runs (hs : s.Free) (hqueue : s.core.queue = []) (hd : o.d.toNat < 32) :
    Runs (.mpopcG o) s (fun t => ReturnFrame .vec (.mpopcG o) o.d.toNat s t ∧ Advanced s t ∧
      WroteG o.d.toNat (word ((List.range s.slot.vl).filter (fun e => (s.mreg o.a.toNat).getLsbD e)).length) t) := by
  obtain ⟨t, ht, h⟩ := returnForm_runs (e := .vec) (i := .mpopcG o) (rd := [.m o.a.toNat]) (wr := [])
    (f := fun s => do let v ← (Except.ok (word (active (s.mreg o.a.toNat) s.slot.vl)) : M Word); pure (s.setG o.d v))
    (v := word ((List.range s.slot.vl).filter (fun e => (s.mreg o.a.toNat).getLsbD e)).length) hs hqueue hd (by
      rw [mreg_beginVec, slot_beginVec, active_eq]; rfl)
  exact ⟨t, ht, h⟩
theorem vmvx_runs {uns : Bool} {i : Instr} (he : exec i s = vmvx i o uns s) (hs : s.Free) (hqueue : s.core.queue = []) (hd : o.d.toNat < 32)
    (h : (s.g o.b).toNat < vlmax (vtSew s.slot.vtype)) : Runs i s (fun t => ReturnFrame .vec i o.d.toNat s t ∧ Advanced s t ∧
      WroteG o.d.toNat (if uns then word (elem (s.vreg o.a.toNat) (vtSew s.slot.vtype) (s.g o.b).toNat)
        else int64 (signedElem (vtSew s.slot.vtype) (elem (s.vreg o.a.toNat) (vtSew s.slot.vtype) (s.g o.b).toNat))) t) := by
  obtain ⟨t, ht, hrest⟩ := returnForm_runs (e := .vec) (i := i) (rd := [.v o.a.toNat]) (wr := []) (f := fun u => do
      let v ← (Except.ok (if uns then word (elem (u.vreg o.a.toNat) (vtSew s.slot.vtype) (s.g o.b).toNat)
        else sextW (vtSew s.slot.vtype) (elem (u.vreg o.a.toNat) (vtSew s.slot.vtype) (s.g o.b).toNat)) : M Word)
      pure (u.setG o.d v)) (v := if uns then word (elem (s.vreg o.a.toNat) (vtSew s.slot.vtype) (s.g o.b).toNat)
        else int64 (signedElem (vtSew s.slot.vtype) (elem (s.vreg o.a.toNat) (vtSew s.slot.vtype) (s.g o.b).toNat))) hs hqueue hd (by
      rw [vreg_beginVec, sextW, sgn_eq_signedElem]; rfl)
  refine ⟨t, he.trans ?_, hrest⟩
  rw [vmvx, if_neg (by omega)]
  exact ht
theorem vmvx_traps {uns : Bool} {i : Instr} (he : exec i s = vmvx i o uns s) (h : vlmax (vtSew s.slot.vtype) ≤ (s.g o.b).toNat) :
    Traps i true 0x03 0x04 s.slot.pc s := by
  have hexec : exec i s = .next (s.takeTrap { code := 0x03, sub := 0x04 }) := by
    rw [he, vmvx, if_pos h]; rfl
  exact traps_of hexec (by decide) (by decide)
end

/-- R133, R146, R147, R150. -/
theorem masksCountsAndElements : MasksCountsAndElements := by
  refine ⟨fun s i o f hq hi hwf => maskLogic_runs hq hi hwf, fun s o hq hwf hocc => ?_,
    fun s o hs hqueue hwf => mpopcG_runs hs hqueue (lt_of_firstOf hwf), fun s o uns i hs hqueue hi hwf => ?_⟩
  · have hd : o.d.toNat < 4 := lt_of_firstOf hwf
    obtain ⟨t, ht, hf, hqu, hst, hadv, hbytes, hg⟩ := mpopcLq_runs hq hocc
    refine ⟨t, ht, ?_, ?_, ?_, ?_, hqu, hst, hadv, hbytes, hg⟩
    · rw [hf, active_eq]; simp [pushedF, hd]
    · rw [hf]; simp [pushedF, hd]
    · rw [hf]; rfl
    · rw [hf]; rfl
  · rcases hi with ⟨rfl, rfl⟩ | ⟨rfl, rfl⟩
    · exact ⟨fun h => vmvx_runs rfl hs hqueue (lt_of_firstOf hwf) h, fun h => vmvx_traps (o := o) (uns := false) rfl h⟩
    · exact ⟨fun h => vmvx_runs rfl hs hqueue (lt_of_firstOf hwf) h, fun h => vmvx_traps (o := o) (uns := true) rfl h⟩

/-- Settles O10: compares and mask logic as commands on the register files, the count by its push or as a value returned. -/
theorem comparesAndMasks : Obligations.ComparesAndMasks := ⟨comparesWriteMasks, masksCountsAndElements⟩

end Sys2Proof.Machine
end

section
/-! SUPPORT. A release keeps every core but its stores on their way and its views (R297, R300, R337). -/

namespace Sys2Proof.Machine

/-- `d` is `c` but for the stores on their way and for what its slots' views hold. -/
def Core.ViewsOf (c d : Core) : Prop :=
  d = { c with own := d.own, ownAge := d.ownAge, s0 := { c.s0 with view := d.s0.view, past := d.s0.past },
               s1 := { c.s1 with view := d.s1.view, past := d.s1.past } }

namespace Core.ViewsOf
variable {c d e : Core}

theorem refl (c : Core) : c.ViewsOf c := rfl
theorem trans (h : c.ViewsOf d) (k : d.ViewsOf e) : c.ViewsOf e := by
  unfold Core.ViewsOf at *
  rw [k, h]
theorem slot (h : c.ViewsOf d) (hi : Bool) : d.slot hi = { c.slot hi with view := (d.slot hi).view, past := (d.slot hi).past } := by
  unfold Core.ViewsOf at h
  rw [h]
  cases hi <;> rfl
theorem sees (c : Core) (loc : Nat) (b : Byte) : c.ViewsOf { c with s0 := c.s0.sees loc b, s1 := c.s1.sees loc b } := rfl
theorem notes (c : Core) (loc x n : Nat) : c.ViewsOf (c.notes loc x n) := by
  induction n generalizing c loc x with
  | zero => exact refl c
  | succ n ih =>
    rw [Core.notes]
    refine trans ?_ (ih _ _ _)
    split
    · exact refl c
    · exact sees c _ _
end Core.ViewsOf

/-- `t` has the place and the cores of `s`, but for stores on their way and views. -/
structure Settled (s t : State) : Prop where
  place : t.cl = s.cl ∧ t.co = s.co ∧ t.hi = s.hi
  cores : ∀ cl co, (s.coreAt cl co).ViewsOf (t.coreAt cl co)

namespace Settled
variable {s t u : State}

theorem refl (s : State) : Settled s s := ⟨⟨rfl, rfl, rfl⟩, fun _ _ => .refl _⟩
theorem trans (h : Settled s t) (k : Settled t u) : Settled s u := by
  obtain ⟨h1, h2, h3⟩ := h.place
  obtain ⟨k1, k2, k3⟩ := k.place
  exact ⟨⟨k1.trans h1, k2.trans h2, k3.trans h3⟩, fun cl co => (h.cores cl co).trans (k.cores cl co)⟩
/-- A change that touches no core. -/
theorem of_cores (hp : t.cl = s.cl ∧ t.co = s.co ∧ t.hi = s.hi) (hc : t.cores = s.cores) : Settled s t :=
  ⟨hp, fun cl co => by rw [State.coreAt, State.coreAt, hc]; exact .refl _⟩
theorem setCoreAt {cl co : Nat} {d : Core} (h : (s.coreAt cl co).ViewsOf d) : Settled s (s.setCoreAt cl co d) := by
  refine ⟨⟨rfl, rfl, rfl⟩, fun cl' co' => ?_⟩
  by_cases hk : 8 * cl' + co' = 8 * cl + co
  · rw [State.coreAt, State.coreAt, State.setCoreAt, hk, look_put_self]
    exact h
  · rw [State.coreAt_setCoreAt_ne _ _ hk]
    exact .refl _
theorem core (h : Settled s t) : s.core.ViewsOf t.core := by
  obtain ⟨h1, h2, -⟩ := h.place
  have := h.cores s.cl s.co
  rw [State.core, State.core, h1, h2]
  exact this
theorem slot (h : Settled s t) : t.slot = { s.slot with view := t.slot.view, past := t.slot.past } := by
  obtain ⟨-, -, hhi⟩ := h.place
  have := h.core.slot s.hi
  rw [State.slot, State.slot, hhi]
  exact this
theorem foldl {α : Type} (f : State → α → State) (hf : ∀ s x, Settled s (f s x)) (l : List α) (s : State) : Settled s (l.foldl f s) := by
  induction l generalizing s with
  | nil => exact refl s
  | cons x l ih => exact (hf s x).trans (ih _)

theorem performOp (s : State) (o : SliceOp) : Settled s (s.performOp o) := by
  unfold State.performOp
  simp only
  split
  · exact of_cores ⟨rfl, rfl, rfl⟩ rfl
  · have hmem : Settled s { s with mem := s.mem.write o.loc (amoNew o.op o.w (s.mem.read o.loc (o.w / 8)) o.x o.cmp) (o.w / 8) } :=
      of_cores ⟨rfl, rfl, rfl⟩ rfl
    exact hmem.trans (setCoreAt (.notes (s.coreAt o.cl o.core) _ _ _))
theorem fillLine (s : State) (line : Nat) : Settled s (s.fillLine line) :=
  (foldl _ performOp _ s).trans (of_cores ⟨rfl, rfl, rfl⟩ rfl)
theorem settle (s : State) (line : Nat) : Settled s (s.settle line) := by
  unfold State.settle
  simp only
  split
  · exact ((fillLine s line).trans (foldl _ performOp _ _)).trans (of_cores ⟨rfl, rfl, rfl⟩ rfl)
  · exact refl s
theorem drainCore (s : State) : Settled s s.drainCore := by
  have h := foldl _ settle s.core.own.lines s
  exact h.trans ((setCoreAt (d := { (s.core.own.lines.foldl State.settle s).core with own := [] }) rfl).trans (of_cores ⟨rfl, rfl, rfl⟩ rfl))
theorem setDie (s : State) (cl : Nat) (o : Overlay) : Settled s (s.setDie cl o) := by
  unfold State.setDie
  split <;> exact of_cores ⟨rfl, rfl, rfl⟩ rfl
theorem setDieAge (s : State) (cl a : Nat) : Settled s (s.setDieAge cl a) := by
  unfold State.setDieAge
  split <;> exact of_cores ⟨rfl, rfl, rfl⟩ rfl
theorem flushClus (s : State) (b : Bool) : Settled s (s.flushClus b) := by
  cases b
  · exact of_cores ⟨rfl, rfl, rfl⟩ rfl
  · unfold State.flushClus
    simp only [if_true]
    refine trans ?_ (setDie _ _ _)
    refine trans ?_ (setDieAge _ _ _)
    exact of_cores ⟨rfl, rfl, rfl⟩ rfl
theorem flushDie (s : State) : Settled s s.flushDie :=
  trans (t := { s with mem := (s.dieOf s.cl).toMem s.mem }) (of_cores ⟨rfl, rfl, rfl⟩ rfl) (setDie _ _ _)
/-- A RELEASE (R297). -/
theorem release (s : State) (scope : Nat) : Settled s (s.release scope) := by
  have hhome : Settled s ((s.drainCore.flushDie).flushClus false) := ((drainCore s).trans (flushDie _)).trans (flushClus _ _)
  unfold State.release
  split
  · exact refl s
  · exact drainCore s
  · split
    · exact (drainCore s).trans (flushClus _ _)
    · exact hhome
  · exact hhome
  · exact hhome.trans (of_cores ⟨rfl, rfl, rfl⟩ rfl)
end Settled

/-! ### PHASE and the fences (R261, R262) -/

/-- What PHASE leaves of the thread, before it looks at the errors. -/
theorem phased_slot (s : State) (scope : Nat) : (phased s scope).slot.pc = s.slot.pc ∧ (phased s scope).slot.npc = s.slot.npc ∧
    (phased s scope).slot.loops = s.slot.loops ∧ (phased s scope).slot.stepping = s.slot.stepping ∧ (phased s scope).slot.status = s.slot.status ∧
    (phased s scope).core.errmark = s.core.errmark ∧ (phased s scope).core.errcnt = s.core.errcnt := by
  have hrel := Settled.release s scope
  have hslot := hrel.slot
  have hcore := hrel.core
  unfold phased
  simp only
  unfold Core.ViewsOf at hcore
  generalize s.release scope = t at hslot hcore
  have hacq : t.acquire.slot = { s.slot with view := t.acquire.slot.view, ep := t.acquire.slot.ep, past := t.acquire.slot.past } := by
    rw [State.acquire, State.slot_modSlot, hslot]
    split <;> rfl
  have herr : t.acquire.core.errmark = s.core.errmark ∧ t.acquire.core.errcnt = s.core.errcnt := by
    rw [State.acquire, State.core_modSlot, Core.setSlot_errmark, Core.setSlot_errcnt, hcore]
    exact ⟨rfl, rfl⟩
  generalize t.acquire = u at hacq herr
  obtain ⟨hmark, hcnt⟩ := herr
  split
  · rw [State.slot_modSlot, State.core_modSlot, Core.setSlot_errmark, Core.setSlot_errcnt, hacq]
    exact ⟨rfl, rfl, rfl, rfl, rfl, hmark, hcnt⟩
  · rw [hacq]
    exact ⟨rfl, rfl, rfl, rfl, rfl, hmark, hcnt⟩

/-- The state in which PHASE looks at the errors, the mark moved. -/
def marked (s : State) (scope : Nat) : State := (phased s scope).modCore (fun c => { c with errmark := c.errcnt })
section
variable {s : State} {o : BitVec 3}

theorem phaseAct_eq (h : ∀ c ∈ s.core.queue, c.hi = s.hi → c.done = true ∨ s.transfers c = false) (scope : Nat) :
    phaseAct scope s = if (phased s scope).core.errmark != (phased s scope).core.errcnt && (phased s scope).slot.errpol then
      .error (.trap { code := 0x11, sub := 0, epc := some s.slot.npc, d0 := (phased s scope).core.errcnt, d1 := (phased s scope).core.errmark } (marked s scope))
    else .ok (marked s scope) := by
  have hnone : s.core.queue.any (fun e => e.hi == s.hi && !e.done && s.transfers e) = false := by
    rw [List.any_eq_false]
    intro e he
    have := h e he
    by_cases hhi : e.hi = s.hi
    · rcases this hhi with hd | ht
      · simp [hd]
      · simp [ht]
    · simp [hhi]
  rw [phaseAct, hnone, if_neg Bool.false_ne_true]
  rfl
/-- What is left when PHASE finds no new error, or is to report none (R262). -/
theorem phase_runs (hs : s.Free) (h : ∀ c ∈ s.core.queue, c.hi = s.hi → c.done = true ∨ s.transfers c = false)
    (hok : s.core.errmark = s.core.errcnt ∨ s.slot.status.getLsbD 9 = false) :
    Runs (.phase o) s (fun t => Advanced s t ∧ ScalarFrame 0 (marked s o.toNat) t) := by
  obtain ⟨hpc, hnpc, hloops, hstep, hstatus, hmark, hcnt⟩ := phased_slot s o.toNat
  have hexec : exec (.phase o) s = .next (marked s o.toNat).retire := by
    change execPhase o s = _
    refine commit_ok ?_
    rw [phaseAct_eq h, hmark, hcnt, Slot.errpol, flag, hstatus]
    refine if_neg ?_
    rcases hok with he | he
    · simp [he]
    · rw [he, Bool.and_false]
      exact Bool.false_ne_true
  have hslot : (marked s o.toNat).slot = (phased s o.toNat).slot := by
    rw [marked, State.slot, State.core_modCore]
    cases h : (phased s o.toNat).hi <;> simp [State.slot, Core.slot, h]
  obtain ⟨hadv, hframe⟩ := retire_frame (u := marked s o.toNat) (by rw [State.Free, hslot, hstep]; exact hs)
  rw [Advanced, hslot, hpc, hnpc, hloops] at hadv
  exact ⟨_, hexec, hadv, hframe⟩
/-- What is left when PHASE finds new errors and is to report them (R262). -/
theorem phase_traps (h : ∀ c ∈ s.core.queue, c.hi = s.hi → c.done = true ∨ s.transfers c = false)
    (hne : s.core.errmark ≠ s.core.errcnt) (hpol : s.slot.status.getLsbD 9 = true) :
    Runs (.phase o) s (fun t => t = (marked s o.toNat).takeTrap
      { code := 0x11, sub := 0, epc := some s.slot.npc, d0 := s.core.errcnt, d1 := s.core.errmark }) := by
  obtain ⟨-, -, -, -, hstatus, hmark, hcnt⟩ := phased_slot s o.toNat
  refine ⟨_, ?_, rfl⟩
  change execPhase o s = _
  refine commit_trap ?_
  rw [phaseAct_eq h, hmark, hcnt, Slot.errpol, flag, hstatus]
  exact if_pos (by simp [hne, hpol])
end

/-- R261, R262. -/
theorem phasesAndFences : PhasesAndFences := by
  refine ⟨fun s o hs _ h => ⟨fun hok => phase_runs hs h hok, fun hne hpol => phase_traps h hne hpol⟩, fun s hs h => ?_, fun s hs h0 h => ?_⟩
  · have hexec : exec .fenceE s = .next s.retire := by
      change execFenceE s = _
      exact commit_ok (if_pos (by rw [h]; rfl))
    exact ⟨_, hexec, retire_frame hs⟩
  · have hall : s.core.queue.all (fun e => e.hi != s.hi || e.done || !e.returnFree) = true := by
      rw [List.all_eq_true]
      intro e he
      by_cases hhi : e.hi = s.hi
      · rcases h e he hhi with hd | hr
        · simp [hd]
        · simp [hr]
      · simp [hhi]
    have hexec : exec .nmfence s = .next s.retire := by
      change execNmfence s = _
      exact commit_ok (if_pos (by rw [h0, hall]; rfl))
    exact ⟨_, hexec, retire_frame hs⟩

end Sys2Proof.Machine
end

section
/-! SUPPORT. Memory and buffers as a command reads and writes them (R106, R158, R299, R300): one rule per access, and the loops over the
elements of a command. -/

namespace Sys2Proof.Machine

/-! ### A step that leaves a state of its own (R66, R275) -/

/-- A command whose effect is one step and ends well, in a state that may differ from the first outside the core as well: it retires. -/
theorem drive_step {f : Run1} {s b : State} {L K : Core} {c e : Cmd} {q n : Nat} (hc : (s.setCore L).core.cmd q = some c) (hhi : c.hi = s.hi)
    (hv : c.ep = (s.setCore L).slot.ep) (hcq : c.qpos = q) (hf : f c (s.setCore L) = .ok (b.setCore K)) (hb : b.hi = s.hi) (hK : K.queue = [e])
    (he : e.qpos = q) : (s.setCore L).drive (whole f) q (n + 1) = .ok (b.setCore (K.ended e)) := by
  have hr : whole f c (s.setCore L) = .ok ((b.setCore K).finishCmd c) := by
    simp only [whole, hf, bind, Except.bind, pure, Except.pure]
  have hu : (b.setCore K).finishCmd c = b.setCore { K with queue := [{ e with done := true }] } := by
    rw [State.finishCmd, State.modCmd, State.modCore_eq, State.core_setCore, State.setCore_setCore, hK]
    simp [replFirst, hcq, he]
  have he' : ((b.setCore K).finishCmd c).core.cmd q = some { e with done := true } := by
    rw [hu, State.core_setCore]; simp [Core.cmd, firstSat, he]
  rw [drive_done hc hhi hv hr hb he' rfl, hu, retireCmd_single (e := { e with done := true }) (by simp) he rfl, traceCmd_setCore,
    State.modCore_eq, State.core_setCore, State.setCore_setCore]
  have ht : ({ e with done := true } : Cmd).traces = e.traces := rfl
  have hd : dropFirst (fun c : Cmd => c.qpos == q) [{ e with done := true }] = [] := by simp [dropFirst, he]
  rw [ht]
  unfold Core.ended
  cases e.traces
  · simp only [Bool.false_eq_true, if_false, hd]; rfl
  · simp only [if_true, Core.traced, hd]; rfl
/-- An engine form of a quiet core whose step leaves a state of its own. -/
theorem engine_step {t : Ticket} {f : Run1} {s b : State} {len : BitVec 3} {n : Nat} {K : Core} {e : Cmd} (hq : s.Quiet)
    (hl : t.lens = [len] ∨ (t.lens = [] ∧ len = 0)) (hp : t.push = none) (hn : LenIs s len n) (hk : fixedRanges t.ins = true)
    (hc : ∀ (u : State) (c : Cmd), c.ins = t.ins → u.copyReady c = true) (hr : t.ranges.length ≤ 64)
    (hf : f (t.cmd s len n) (s.setCore (t.core s len n)) = .ok (b.setCore K)) (hb : b.hi = s.hi) (hK : K.queue = [e]) (he : e.qpos = s.core.qpos) :
    engine t (whole f) s = .next (b.setCore (K.ended e)) := by
  have hv : (t.cmd s len n).ep = (s.setCore (t.core s len n)).slot.ep := by
    rw [State.slot, State.core_setCore, State.setCore_hi, Ticket.core_slot, State.slot_retire hq.free]; rfl
  rw [engine_len hq hl hp hn hk hc hr]
  exact congrArg finish (drive_step (n := driveFuel - 1) (t.core_cmd s len n) rfl hv rfl hf hb hK he)

/-! ### Translations held (R388, R393, R395) -/

/-- `K` holds the translations and the regions of the current core of `s`, in its context. -/
def Translates (s : State) (K : Core) : Prop := K.tlb = s.core.tlb ∧ K.ctxid = s.core.ctxid ∧ K.h = s.core.h

theorem lookup_held {s u : State} {tlb : List TlbEnt} {ctx va : Nat} {t : TlbEnt} (h : s.lookup tlb ctx va = .ok (t, false)) (hu : u.xl = s.xl) :
    u.lookup tlb ctx va = .ok (t, false) := by
  rw [State.lookup] at h ⊢
  rw [hu]
  generalize (look ctx s.xl.ctxtab).getD 0 = w at h ⊢
  generalize tlbFind tlb ctx va = f at h ⊢
  cases f with
  | some e => exact h
  | none =>
    generalize s.walk va 3 _ = r at h
    by_cases hreg : (!flag w 63 || decide (4096 ≤ ctx)) = true
    · rw [if_pos hreg] at h
      exact absurd h (by simp)
    · rw [if_neg hreg] at h
      cases r <;> exact absurd h (by simp)
/-- A translation that changed nothing was held. -/
theorem not_modTlbs (s : State) (t : TlbEnt) : s.modTlbs (fun l => t :: l) ≠ s := by
  intro h
  have hcore := congrArg (fun x => x.core.tlb) h
  simp only [State.modTlbs, State.core_modClus, State.core_modCore] at hcore
  exact absurd (congrArg List.length hcore) (by simp)
theorem xlate_held {s : State} {K : Core} {va loc : Nat} {acc : Acc} {form : Form} (hK : Translates s K)
    (h : s.xlate va acc form = .ok (.mem loc, s)) : (s.setCore K).xlate va acc form = .ok (.mem loc, s.setCore K) := by
  obtain ⟨htlb, hctx, -⟩ := hK
  have hclus : (s.setCore K).clus = s.clus := rfl
  have hxl : (s.setCore K).xl = s.xl := rfl
  unfold State.xlate at h ⊢
  rw [State.core_setCore, htlb, hctx, hclus, hxl]
  by_cases hva : 2 ^ 54 ≤ va
  · rw [if_pos hva] at h
    cases h
  · rw [if_neg hva] at h ⊢
    simp only at h ⊢
    generalize hl : s.lookup (s.core.tlb ++ s.clus.tlb) (fld s.core.ctxid 0 16) va = r at h
    cases r with
    | error w => cases w <;> exact absurd h (by simp)
    | ok p =>
      obtain ⟨t, new⟩ := p
      simp only at h
      generalize hleaf : leafCheck s.xl.up t.leaf acc form = l at h
      cases l with
      | some q => exact absurd h (by simp)
      | none =>
        simp only [Except.ok.injEq, Prod.mk.injEq] at h
        obtain ⟨hplace, hsame⟩ := h
        cases new with
        | true => exact absurd hsame (not_modTlbs s t)
        | false =>
          rw [lookup_held hl hxl]
          simp only [hleaf, hplace, Bool.false_eq_true, if_false]

/-! ### One access (R106) -/

/-- The place that an access reaches. -/
def spotOf (spc : BitVec 3) (ea loc : Nat) : Spot := if spc = 0 then .dev loc ea else .buf spc.toNat loc
theorem spc_toNat_eq_zero (spc : BitVec 3) : spc.toNat = 0 ↔ spc = 0 := by
  rw [← BitVec.toNat_inj]; rfl
/-- An access that the checks pass, whatever the core holds besides its translations. -/
theorem access_reaches {s : State} {K : Core} {spc : BitVec 3} {ea n loc : Nat} {acc : Acc} (hK : Translates s K) (h : Reaches s spc ea n acc loc) :
    (s.setCore K).access spc.toNat ea n n acc = .ok (spotOf spc ea loc, s.setCore K) := by
  obtain ⟨hal, hspc⟩ := h
  unfold State.access spotOf
  by_cases h0 : spc = 0
  · rw [if_pos h0] at hspc
    obtain ⟨h54, hx⟩ := hspc
    have hz : spc.toNat = 0 := (spc_toNat_eq_zero spc).mpr h0
    rw [if_pos hz, if_pos hz, if_pos h0, decide_eq_true h54, decide_eq_true hal, need_true, need_true, xlate_held hK hx]
    rfl
  · rw [if_neg h0] at hspc
    obtain ⟨-, hfit, hold, rfl⟩ := hspc
    obtain ⟨-, -, hh⟩ := hK
    have hz : spc.toNat ≠ 0 := fun hz => h0 ((spc_toNat_eq_zero spc).mp hz)
    have hold' : (s.setCore K).core.notHolder spc.toNat loc n = false := by
      rw [State.core_setCore, Core.notHolder, hh]
      exact hold
    rw [if_neg hz, if_neg hz, if_neg h0, decide_eq_true hfit, decide_eq_true hal, need_true, need_true, hold']
    rfl

/-- n bytes of a space as a little-endian number (R9). -/
def bytesOf (s : State) (spc : BitVec 3) (loc n : Nat) : Nat := leNat ((List.range n).map (fun k => byteOf s spc (loc + k)))
/-- A core whose slot has looked at memory: its view holds more. -/
def Core.looked (K : Core) (hi : Bool) (V : Overlay) : Core := K.setSlot hi { K.slot hi with view := V }

theorem Core.looked_looked (K : Core) (hi : Bool) (V W : Overlay) : (K.looked hi V).looked hi W = K.looked hi W := by
  cases hi <;> rfl
theorem Core.looked_same (K : Core) (hi : Bool) : K.looked hi (K.slot hi).view = K := by cases hi <;> rfl
theorem Core.buf_looked (K : Core) (hi : Bool) (V : Overlay) (b : Nat) : (K.looked hi V).buf b = K.buf b := by
  unfold Core.looked Core.buf
  split <;> simp
theorem translates_looked {s : State} {K : Core} (hK : Translates s K) (hi : Bool) (V : Overlay) : Translates s (K.looked hi V) := by
  obtain ⟨h1, h2, h3⟩ := hK
  exact ⟨by simp [Core.looked, h1], by simp [Core.looked, h2], by simp [Core.looked, h3]⟩
/-- A read at a place gives the bytes there, and what it fixes in the view changes no byte (R300). -/
theorem readSpot_eq {s : State} {spc : BitVec 3} {ea n loc : Nat} (K : Core) (h : Readable s spc n loc) : ∃ V,
    (s.setCore K).readSpot (spotOf spc ea loc) n = .ok (bytesOf (s.setCore K) spc loc n, s.setCore (K.looked s.hi V)) ∧
    ∀ a, (s.setCore (K.looked s.hi V)).seen a = (s.setCore K).seen a := by
  unfold spotOf
  by_cases h0 : spc = 0
  · rw [if_pos h0]
    obtain ⟨hnum, hst, hseen⟩ := viewRead_eq n (s.setCore K) loc
    have hadm : (decide (peerBase ≤ loc) && !(s.setCore K).peerAdmits loc n 0) = false := by
      have hsame : (s.setCore K).peerAdmits loc n 0 = s.peerAdmits loc n 0 := rfl
      rcases h h0 with hlt | hpeer
      · rw [decide_eq_false (by omega), Bool.false_and]
      · rw [hsame, hpeer, Bool.not_true, Bool.and_false]
    have hread : (s.setCore K).readSpot (.dev loc ea) n = .ok ((s.setCore K).viewRead loc n) := by
      change (s.setCore K).readPlace ea loc n 0 = _
      rw [State.readPlace, hadm, if_neg Bool.false_ne_true]
    have hbytes : bytesOf (s.setCore K) spc loc n = (s.setCore K).seenNum loc n := by
      unfold bytesOf State.seenNum byteOf
      simp only [if_pos h0]
    rw [hread, hbytes, ← hnum]
    rcases hst with he | ⟨V, he⟩
    · refine ⟨(K.slot s.hi).view, ?_, fun a => by rw [Core.looked_same]⟩
      rw [Core.looked_same]
      exact congrArg Except.ok (Prod.ext rfl he)
    · have hlook : (s.setCore K).setSlot { (s.setCore K).slot with view := V } = s.setCore (K.looked s.hi V) := by
        rw [State.setSlot, State.core_setCore, State.setCore_setCore, State.slot, State.core_setCore]; rfl
      rw [hlook] at he
      exact ⟨V, congrArg Except.ok (Prod.ext rfl he), fun a => by rw [← he]; exact hseen a⟩
  · rw [if_neg h0]
    refine ⟨(K.slot s.hi).view, ?_, fun a => by rw [Core.looked_same]⟩
    have hbytes : bytesOf (s.setCore K) spc loc n = (s.setCore K).heldNum spc.toNat loc n := by
      unfold bytesOf State.heldNum byteOf
      simp only [if_neg h0]
    rw [Core.looked_same, hbytes, ← bufRead_eq]
    rfl
theorem bytesOf_looked {s : State} {K : Core} {V : Overlay} (h : ∀ a, (s.setCore (K.looked s.hi V)).seen a = (s.setCore K).seen a)
    (spc : BitVec 3) (loc n : Nat) : bytesOf (s.setCore (K.looked s.hi V)) spc loc n = bytesOf (s.setCore K) spc loc n := by
  unfold bytesOf byteOf
  simp only [h, held_setCore, Core.buf_looked]

/-! ### The elements of a load (R158) -/

/-- What a load does for one element. -/
def loadOne (spc : BitVec 3) (ad : Nat → Nat) (n : Nat) (s : State) (e : Nat) : M (Nat × State) := do
  let (p, s) ← s.access spc.toNat (ad e) n n .rd
  s.readSpot p n
/-- The elements of a load whose accesses are admitted, in turn. -/
theorem loadElems_eq {s : State} {spc : BitVec 3} {ad loc : Nat → Nat} {n : Nat} (els : List Nat) :
    ∀ (K : Core), Translates s K → (∀ e ∈ els, Reaches s spc (ad e) n .rd (loc e) ∧ Readable s spc n (loc e)) → ∃ V,
      loadElems ad (loadOne spc ad n) els (s.setCore K) =
        .ok (els.map (fun e => (e, bytesOf (s.setCore K) spc (loc e) n)), s.setCore (K.looked s.hi V)) ∧
      ∀ a, (s.setCore (K.looked s.hi V)).seen a = (s.setCore K).seen a := by
  induction els with
  | nil => exact fun K _ _ => ⟨(K.slot s.hi).view, by rw [Core.looked_same]; rfl, fun a => by rw [Core.looked_same]⟩
  | cons e r ih =>
    intro K hK h
    obtain ⟨hreach, hread⟩ := h e (List.mem_cons_self ..)
    obtain ⟨V, hV, hseen⟩ := readSpot_eq (ea := ad e) K hread
    obtain ⟨W, hW, hseen'⟩ := ih (K.looked s.hi V) (translates_looked hK _ _) (fun x hx => h x (List.mem_cons_of_mem _ hx))
    rw [Core.looked_looked] at hW hseen'
    refine ⟨W, ?_, fun a => (hseen' a).trans (hseen a)⟩
    have hone : loadOne spc ad n (s.setCore K) e = .ok (bytesOf (s.setCore K) spc (loc e) n, s.setCore (K.looked s.hi V)) := by
      rw [loadOne, access_reaches hK hreach]
      exact hV
    rw [loadElems, hone]
    simp only [atElem, bind, Except.bind, hW, pure, Except.pure, List.map_cons, bytesOf_looked hseen]

/-! ### One write, and the elements of a store (R158, R299, R300) -/

/-- The core after a write of n bytes at a place. -/
def Core.wrote (K : Core) (age : Nat) (spc : BitVec 3) (loc x n : Nat) : Core :=
  if spc = 0 then K.storedAll age loc x n else K.setBuf spc.toNat ((K.buf spc.toNat).write loc x n)
theorem writeSpot_eq (s : State) (K : Core) (spc : BitVec 3) (ea loc x n : Nat) :
    (s.setCore K).writeSpot (spotOf spc ea loc) x n = s.setCore (K.wrote s.xl.age spc loc x n) := by
  unfold spotOf Core.wrote
  by_cases h0 : spc = 0
  · rw [if_pos h0, if_pos h0]
    exact viewWrite_setCore s n K loc x
  · rw [if_neg h0, if_neg h0]
    change (s.setCore K).bufWrite spc.toNat loc x n = _
    rw [bufWrite_eq, State.core_setCore, State.setCore_setCore]

/-- `L` is `K` but for the bytes of its buffers, its stores on their way and its slots' views. -/
def Core.Moved (K L : Core) : Prop :=
  L = { K with w := L.w, a := L.a, c := L.c, own := L.own, ownAge := L.ownAge, s0 := { K.s0 with view := L.s0.view, past := L.s0.past },
               s1 := { K.s1 with view := L.s1.view, past := L.s1.past } }
namespace Core.Moved
variable {K L M : Core}

theorem refl (K : Core) : K.Moved K := rfl
theorem trans (h : K.Moved L) (k : L.Moved M) : K.Moved M := by
  unfold Core.Moved at *
  rw [k, h]
theorem looked (K : Core) (hi : Bool) (V : Overlay) : K.Moved (K.looked hi V) := by cases hi <;> rfl
theorem setBuf (K : Core) (b : Nat) (m : Mem) : K.Moved (K.setBuf b m) := by
  unfold Core.setBuf
  split <;> rfl
theorem wrote (K : Core) (age : Nat) (spc : BitVec 3) (loc x n : Nat) : K.Moved (K.wrote age spc loc x n) := by
  unfold Core.wrote
  split
  · obtain ⟨o, a, v0, p0, v1, p1, h⟩ := storedAll_frame age n K loc x
    rw [h]; rfl
  · exact setBuf K _ _
theorem slot (h : K.Moved L) (hi : Bool) : L.slot hi = { K.slot hi with view := (L.slot hi).view, past := (L.slot hi).past } := by
  unfold Core.Moved at h
  rw [h]
  cases hi <;> rfl
theorem translates {s : State} (h : K.Moved L) (hK : Translates s K) : Translates s L := by
  unfold Core.Moved at h
  rw [h]
  exact hK
theorem f (h : K.Moved L) : L.f = K.f := by rw [h]
theorem queue (h : K.Moved L) : L.queue = K.queue := by rw [h]
/-- The same after both have retired their only command. -/
theorem ended (h : K.Moved L) (e : Cmd) : (K.ended e).Moved (L.ended e) := by
  unfold Core.Moved at h
  rw [h]
  unfold Core.ended Core.Moved
  cases e.traces <;> cases e.hi <;> rfl
/-- Registers written on both sides. -/
theorem withF (h : K.Moved L) (g : Files) : { K with f := g }.Moved { L with f := g } := by
  unfold Core.Moved at *
  rw [h]
theorem withQueue (h : K.Moved L) (l : List Cmd) : { K with queue := l }.Moved { L with queue := l } := by
  unfold Core.Moved at *
  rw [h]
end Core.Moved

/-- What a store does for one element. -/
def storeOne (spc : BitVec 3) (ad x : Nat → Nat) (n : Nat) (s : State) (e : Nat) : M State := do
  let (p, s) ← s.access spc.toNat (ad e) n n .wr
  pure (s.writeSpot p (x e) n)
/-- The core after the elements of a store. -/
def Core.wroteAll (K : Core) (age : Nat) (spc : BitVec 3) (n : Nat) (loc x : Nat → Nat) (els : List Nat) : Core :=
  els.foldl (fun K e => K.wrote age spc (loc e) (x e) n) K
theorem Core.Moved.wroteAll (age : Nat) (spc : BitVec 3) (n : Nat) (loc x : Nat → Nat) (els : List Nat) (K : Core) :
    K.Moved (K.wroteAll age spc n loc x els) := by
  induction els generalizing K with
  | nil => exact refl K
  | cons e r ih => exact (wrote K _ _ _ _ _).trans (ih _)
/-- The elements of a store whose accesses are admitted, in turn. -/
theorem storeElems_eq {s : State} {spc : BitVec 3} {ad loc x : Nat → Nat} {n q : Nat} (els : List Nat) :
    ∀ (K : Core), Translates s K → (∀ e ∈ els, Reaches s spc (ad e) n .wr (loc e)) →
      storeElems q ad (storeOne spc ad x n) els (s.setCore K) = .ok (s.setCore (K.wroteAll s.xl.age spc n loc x els)) := by
  induction els with
  | nil => exact fun K _ _ => rfl
  | cons e r ih =>
    intro K hK h
    have hone : storeOne spc ad x n (s.setCore K) e = .ok (s.setCore (K.wrote s.xl.age spc (loc e) (x e) n)) := by
      rw [storeOne, access_reaches hK (h e (List.mem_cons_self ..))]
      exact congrArg Except.ok (writeSpot_eq s K spc (ad e) (loc e) (x e) n)
    rw [storeElems, hone]
    exact ih _ ((Core.Moved.wrote K _ _ _ _ _).translates hK) (fun y hy => h y (List.mem_cons_of_mem _ hy))

/-! ### The bytes after a write -/

/-- Every buffer in canonical form. -/
def Core.BuffersWf (K : Core) : Prop := ∀ b, (K.buf b).wf = true
theorem Core.buf_storedAll (age : Nat) (K : Core) (loc x n b : Nat) : (K.storedAll age loc x n).buf b = K.buf b := by
  obtain ⟨o, a, v0, p0, v1, p1, h⟩ := storedAll_frame age n K loc x
  rw [h]
  unfold Core.buf
  split <;> rfl
theorem Core.BuffersWf.wrote {K : Core} (h : K.BuffersWf) (age : Nat) {spc : BitVec 3} (hs : spc.toNat ≤ 3) (loc x n : Nat) :
    (K.wrote age spc loc x n).BuffersWf := by
  intro b
  unfold Core.wrote
  split
  · rw [Core.buf_storedAll]
    exact h b
  · next h0 =>
    have hpos : spc.toNat ≠ 0 := fun hz => h0 ((spc_toNat_eq_zero spc).mp hz)
    rw [Core.buf_setBuf _ _ _ ⟨by omega, hs⟩]
    split
    · exact Mem.wf_write (h _) _ _ _
    · exact h b
/-- The bytes of a write are what is read there from now on; every other byte of every space reads as before. -/
theorem byteOf_wrote {s : State} {K : Core} (h : K.BuffersWf) {spc : BitVec 3} (hs : spc.toNat ≤ 3) (loc x n : Nat) (c : BitVec 3) (a : Nat) :
    byteOf (s.setCore (K.wrote s.xl.age spc loc x n)) c a =
      if c = spc ∧ loc ≤ a ∧ a < loc + n then BitVec.ofNat 8 (x / 256 ^ (a - loc)) else byteOf (s.setCore K) c a := by
  unfold byteOf Core.wrote
  by_cases h0 : spc = 0
  · rw [if_pos h0]
    by_cases hc : c = 0
    · rw [if_pos hc, if_pos hc, ← viewWrite_setCore, seen_viewWrite]
      simp only [hc, h0, true_and]
    · rw [if_neg hc, if_neg hc, if_neg (fun hh => hc (hh.1.trans h0)), held_setCore, held_setCore, Core.buf_storedAll]
  · rw [if_neg h0]
    have hpos : spc.toNat ≠ 0 := fun hz => h0 ((spc_toNat_eq_zero spc).mp hz)
    by_cases hc : c = 0
    · rw [if_pos hc, if_pos hc, if_neg (fun hh => h0 (hh.1.symm.trans hc))]
      have hown : (K.setBuf spc.toNat ((K.buf spc.toNat).write loc x n)).own = K.own := by
        unfold Core.setBuf; split <;> rfl
      have hslot (hi : Bool) : (K.setBuf spc.toNat ((K.buf spc.toNat).write loc x n)).slot hi = K.slot hi := by
        unfold Core.setBuf; split <;> cases hi <;> rfl
      exact seen_congr (by rw [hown]) (by rw [hslot])
    · rw [if_neg hc, if_neg hc, held_setCore, held_setCore, Core.buf_setBuf _ _ _ ⟨by omega, hs⟩]
      by_cases he : c = spc
      · rw [if_pos (congrArg BitVec.toNat he), he]
        by_cases hin : loc ≤ a ∧ a < loc + n
        · rw [if_pos ⟨rfl, hin⟩]
          have hget := Mem.get_write (h spc.toNat) loc x n (a - loc) (by omega)
          rw [show loc + (a - loc) = a by omega] at hget
          exact hget
        · rw [if_neg (fun hh => hin hh.2)]
          exact Mem.get_write_out (h _) loc x n a (by omega)
      · rw [if_neg (fun hh => he (BitVec.eq_of_toNat_eq hh)), if_neg (fun hh => he hh.1)]
/-- After the elements of a store a byte is that of the last element that covers it. -/
theorem byteOf_wroteAll {s : State} {spc : BitVec 3} (hs : spc.toNat ≤ 3) (n : Nat) (loc x : Nat → Nat) (c : BitVec 3) (a : Nat) (els : List Nat) :
    ∀ K : Core, K.BuffersWf → byteOf (s.setCore (K.wroteAll s.xl.age spc n loc x els)) c a =
      if c = spc then
        (match els.reverse.find? (fun e => decide (loc e ≤ a) && decide (a < loc e + n)) with
         | some e => BitVec.ofNat 8 (x e / 256 ^ (a - loc e))
         | none => byteOf (s.setCore K) c a)
      else byteOf (s.setCore K) c a := by
  induction els with
  | nil => intro K _; split <;> rfl
  | cons e r ih =>
    intro K hK
    have hstep := ih (K.wrote s.xl.age spc (loc e) (x e) n) (hK.wrote _ hs _ _ _)
    rw [byteOf_wrote hK hs] at hstep
    refine hstep.trans ?_
    by_cases hc : c = spc
    · rw [if_pos hc, if_pos hc, List.reverse_cons, List.find?_append]
      cases r.reverse.find? (fun e => decide (loc e ≤ a) && decide (a < loc e + n)) with
      | some y => rfl
      | none =>
        by_cases hin : loc e ≤ a ∧ a < loc e + n
        · simp [hc, hin]
        · rw [if_neg (fun hh => hin hh.2)]
          have hno : (decide (loc e ≤ a) && decide (a < loc e + n)) = false := by
            rw [Bool.and_eq_false_iff, decide_eq_false_iff_not, decide_eq_false_iff_not]
            tauto
          simp only [Option.none_or, List.find?_cons, hno, List.find?_nil]
    · rw [if_neg hc, if_neg hc, if_neg (fun hh => hc hh.1)]

/-! ### What a command that moves bytes leaves (R49, R66) -/

theorem memFrame_of {e : Engine} {i : Instr} {wv wa wk ww : List Nat} {len : BitVec 3} {s : State} {L M : Core}
    (h : EngineFrame e i wv [] wa wk ww len s (s.setCore L)) (hm : L.Moved M) : MemFrame e i wv wa wk ww len s (s.setCore M) := by
  obtain ⟨-, hkept, hcontrol, hqueue, hstreams, htrace, hother, hslot, hstatus, hv, hmask, ha, hk, hw, hlq, hmodq, -⟩ := h
  have hx := hm.slot s.hi
  have hy := hm.slot (!s.hi)
  have hslotL : (s.setCore L).slot = L.slot s.hi := by rw [State.slot, State.core_setCore, State.setCore_hi]
  have hslotM : (s.setCore M).slot = M.slot s.hi := by rw [State.slot, State.core_setCore, State.setCore_hi]
  have hf := hm.f
  unfold State.vreg at hv
  unfold State.mreg at hmask
  unfold State.areg at ha
  unfold State.kreg at hk
  unfold State.wreg at hw
  rw [hslotL] at hslot hstatus
  rw [State.core_setCore] at hkept hcontrol hqueue hstreams htrace hother hv hmask ha hk hw hlq hmodq
  refine ⟨?_, ?_, ?_, ?_, ?_, ?_, ?_, ?_, ?_, ?_, ?_, ?_, fun k hk => look_put_ne hk _ _, fun _ => rfl, ⟨rfl, rfl, rfl⟩,
    ⟨rfl, rfl, rfl, rfl, rfl, rfl, rfl, rfl, rfl, rfl⟩⟩
  · obtain ⟨-, -, -, h1, -, -, h2, h3⟩ := hkept
    obtain ⟨h4, h5, h6, h7, h8, h9⟩ := hcontrol
    obtain ⟨h10, h11⟩ := hqueue
    rw [State.core_setCore]
    refine Eq.trans hm ?_
    simp only [Core.mk.injEq]
    exact ⟨(congrArg Core.s0 hm).symm, (congrArg Core.s1 hm).symm, hf.symm, trivial, trivial, trivial, h1, hstreams, h4, h5, h6, h7,
      (congrArg Core.traceptr hm).symm, (congrArg Core.trace hm).symm, h10, h11, trivial, trivial, h2, h3, h8, h9⟩
  · rw [State.core_setCore, hy, hother]
  · rw [hslotM, hx, hslot]
  · rw [hslotM, hx]; exact hstatus
  · rw [State.core_setCore, hm]; exact htrace
  · intro n hn; rw [State.vreg, State.core_setCore, hf]; exact hv n hn
  · intro n hn; rw [State.kreg, State.core_setCore, hf]; exact hk n hn
  · intro n hn; rw [State.wreg, State.core_setCore, hf]; exact hw n hn
  · intro n; rw [State.mreg, State.core_setCore, hf]; exact hmask n (by simp)
  · intro n hn; rw [State.areg, State.core_setCore, hf]; exact ha n hn
  · intro n hn; rw [State.core_setCore, hf]; exact hlq n hn
  · rw [State.core_setCore, hf]; exact hmodq
/-- What an engine form leaves of a state `b` whose command ends with register files `g`, flags `fl`, `mrs` reduced residues and the bytes
that it had moved in the core `K`. -/
structure MemRun (e : Engine) (i : Instr) (len : BitVec 3) (g : Files) (fl mrs : Nat) (b u : State) (K : Core) : Prop where
  outside : u = b.setCore u.core
  frame : ∀ {wv wa wk ww : List Nat}, FilesFrame b.core.f g wv [] wa wk ww len → MemFrame e i wv wa wk ww len b u
  advanced : Advanced b u
  status : u.slot.status = statusWith b.slot.status fl mrs
  rfout : u.slot.rfout = b.slot.rfout
  files : u.core.f = g
  bytes : ∀ c a, byteOf u c a = byteOf (b.setCore K) c a
  held : ∀ n a, u.held n a = (b.setCore K).held n a

/-- Retirement keeps every byte. -/
theorem held_ended (s : State) (K : Core) (e : Cmd) (n a : Nat) : (s.setCore (K.ended e)).held n a = (s.setCore K).held n a := by
  have hbuf : (K.ended e).buf n = K.buf n := by
    unfold Core.buf
    split <;> simp
  rw [held_setCore, held_setCore, hbuf]
theorem byteOf_ended (s : State) (K : Core) {e : Cmd} (hhi : e.hi = s.hi) (c : BitVec 3) (a : Nat) :
    byteOf (s.setCore (K.ended e)) c a = byteOf (s.setCore K) c a := by
  unfold byteOf
  have hslot : (K.ended e).slot s.hi = { K.slot s.hi with status := statusWith (K.slot s.hi).status e.flags e.mrs } := by
    rw [← hhi]; exact K.ended_slot e
  have hseen : (s.setCore (K.ended e)).seen a = (s.setCore K).seen a := by
    refine seen_congr (by rw [Core.ended_own]) ?_
    rw [hslot]
    exact congrFun (Slot.fixed_congr ⟨rfl, rfl, rfl⟩) a
  rw [hseen, held_ended]
theorem memRun_ended {t : Ticket} {b : State} {len : BitVec 3} {n : Nat} {c : Cmd} {g : Files} {fl mrs : Nat} {K : Core} (hfree : b.Free)
    (heng : c.eng = t.eng) (hhi : c.hi = b.hi)
    (hK : Core.Moved { t.core b len n with f := g, queue := [{ c with flags := fl, mrs := mrs }] } K) :
    MemRun t.eng t.ins len g fl mrs b (b.setCore (K.ended { c with flags := fl, mrs := mrs })) K := by
  have hrun := filesRun_ended (t := t) (len := len) (n := n) g fl mrs hfree heng hhi
  have hended := hK.ended { c with flags := fl, mrs := mrs }
  have hrf : ((Core.ended { t.core b len n with f := g, queue := [{ c with flags := fl, mrs := mrs }] } { c with flags := fl, mrs := mrs }).slot b.hi).rfout =
      b.slot.rfout := by
    have hend := Core.ended_slot { t.core b len n with f := g, queue := [{ c with flags := fl, mrs := mrs }] } { c with flags := fl, mrs := mrs }
    have hcore := t.core_slot b len n
    rw [State.slot_retire hfree] at hcore
    rw [← hhi]
    refine (congrArg Slot.rfout hend).trans ?_
    change ((t.core b len n).slot c.hi).rfout = _
    rw [hhi, hcore]
  generalize Core.ended { t.core b len n with f := g, queue := [{ c with flags := fl, mrs := mrs }] } { c with flags := fl, mrs := mrs } = L at hrun hended hrf
  have hbytes := byteOf_ended b K (e := { c with flags := fl, mrs := mrs }) hhi
  have hheld := held_ended b K { c with flags := fl, mrs := mrs }
  generalize K.ended { c with flags := fl, mrs := mrs } = M at hended hbytes hheld
  have hslot := hended.slot b.hi
  have hslotL : (b.setCore L).slot = L.slot b.hi := by rw [State.slot, State.core_setCore, State.setCore_hi]
  have hslotM : (b.setCore M).slot = M.slot b.hi := by rw [State.slot, State.core_setCore, State.setCore_hi]
  refine ⟨by rw [State.core_setCore], fun h => memFrame_of (hrun.frame h) hended, ?_, ?_, ?_, ?_, hbytes, hheld⟩
  · have h := hrun.advanced
    rw [Advanced, hslotL] at h
    rw [Advanced, hslotM, hslot]
    exact h
  · have h := hrun.status
    rw [hslotL] at h
    rw [hslotM, hslot]
    exact h
  · rw [hslotM, hslot]
    exact hrf
  · have h := hrun.files
    rw [State.core_setCore] at h ⊢
    rw [hended.f, h]

end Sys2Proof.Machine
end

section
/-! SUPPORT. Gangs: the list of a cluster's gangs, and the strips that pass through them (R64, R259, R260, R277). -/

namespace Sys2Proof.Machine

/-! ### Lists of which the first match is replaced -/

section
variable {α : Type} {p q : α → Bool} {F G : α → α}

theorem firstSat_eq_none {l : List α} : firstSat p l = none ↔ ∀ x ∈ l, p x = false := by
  induction l with
  | nil => simp [firstSat]
  | cons a r ih =>
    rw [firstSat]
    by_cases h : p a = true
    · simp [h]
    · simp [h, ih]
theorem firstSat_some {l : List α} {a : α} (h : firstSat p l = some a) : p a = true ∧ a ∈ l := by
  induction l with
  | nil => exact absurd h (by simp [firstSat])
  | cons b r ih =>
    rw [firstSat] at h
    by_cases hb : p b = true
    · rw [if_pos hb] at h
      cases h
      exact ⟨hb, List.mem_cons_self ..⟩
    · rw [if_neg hb] at h
      exact ⟨(ih h).1, List.mem_cons_of_mem _ (ih h).2⟩
/-- What is found after the first match of another test was changed so that it alone is found. -/
theorem firstSat_replFirst (hF : ∀ x, p (F x) = true) {l : List α} (hno : ∀ x ∈ l, p x = false) :
    firstSat p (replFirst q F l) = (firstSat q l).map F := by
  induction l with
  | nil => rfl
  | cons a r ih =>
    rw [replFirst, firstSat]
    by_cases h : q a = true
    · rw [if_pos h, if_pos h, firstSat, if_pos (hF a)]
      rfl
    · rw [if_neg h, if_neg h, firstSat, hno a (List.mem_cons_self ..), if_neg Bool.false_ne_true, ih (fun x hx => hno x (List.mem_cons_of_mem _ hx))]
theorem replFirst_replFirst (hF : ∀ x, p (F x) = true) {l : List α} (hno : ∀ x ∈ l, p x = false) :
    replFirst p G (replFirst q F l) = replFirst q (fun x => G (F x)) l := by
  induction l with
  | nil => rfl
  | cons a r ih =>
    rw [replFirst, replFirst]
    by_cases h : q a = true
    · rw [if_pos h, if_pos h, replFirst, if_pos (hF a)]
    · rw [if_neg h, if_neg h, replFirst, hno a (List.mem_cons_self ..), if_neg Bool.false_ne_true, ih (fun x hx => hno x (List.mem_cons_of_mem _ hx))]
end

/-! ### GANGON (R259) -/

theorem modGangs_modGangs (s : State) (f g : List Gang → List Gang) : (s.modGangs f).modGangs g = s.modGangs (fun l => g (f l)) := by
  simp [State.modGangs, State.modClus, State.setClusAt, State.clus, State.clusAt]
theorem modGangs_congr {s : State} {f g : List Gang → List Gang} (h : f s.clus.gangs = g s.clus.gangs) : s.modGangs f = s.modGangs g :=
   congrArg (fun l => s.setClusAt s.cl { s.clus with gangs := l }) h
theorem clus_modGangs (s : State) (f : List Gang → List Gang) : (s.modGangs f).clus.gangs = f s.clus.gangs := by
  rw [State.modGangs, State.clus_modClus]
/-- The word of a gang passes its check exactly where it names the core and a length (R259). -/
theorem gangLegal_iff (s : State) (w : Word) :
    (decide (1 ≤ fld w 8 10) && decide (fld w 8 10 ≤ 512) && fld w 18 46 == 0 && flag w s.co) = true ↔ gangLegal s w := by
  simp [gangLegal, flag, and_assoc]
section
variable {s : State} {o : OpA2} {w : Word}

theorem gangon_traps (h : ¬gangLegal s (s.g o.a)) : Traps (.gangon o) true 0x03 0x04 s.slot.pc s := by
  refine traps_of (code := 0x03) (sub := 0x04) ?_ (by decide) (by decide)
  change execGangon o s = _
  unfold execGangon
  refine commit_trap ?_
  rw [Bool.eq_false_iff.mpr (fun hl => h ((gangLegal_iff s _).mp hl))]
  rfl
/-- What is left of GANGON, once it is known which gang its slot has come to. -/
theorem gangon_runs {v : State} {r : Word} (hs : s.Free) (hwf : Instr.WellFormed (.gangon o)) (hw : gangLegal s (s.g o.a))
    (hon : gangOn (s.g o.a) s = .ok (joined v (s.g o.a))) (hv : v.slot = s.slot) (hr : r = word (gangRank (s.g o.a) s.co)) :
    Runs (.gangon o) s (fun t => Advanced s t ∧ WroteG o.d.toNat r t ∧ ScalarFrame o.d.toNat (joined v (s.g o.a)) t) := by
  have hd : o.d.toNat < 32 := by
    simp [Instr.WellFormed, Instr.defect] at hwf
    exact hwf.1
  have hslot : (joined v (s.g o.a)).slot = { s.slot with gang := gangReg (s.g o.a) v.co, strips := 0 } := by
    rw [joined, State.slot_modSlot, hv]
  obtain ⟨hwrote, hadv, hframe⟩ := retire_setG_frame (u := joined v (s.g o.a)) (by rw [State.Free, hslot]; exact hs) hd r
  rw [Advanced, hslot] at hadv
  refine ⟨_, ?_, hadv, hwrote, hframe⟩
  change execGangon o s = _
  unfold execGangon
  refine commit_ok ?_
  simp only [(gangLegal_iff s _).mpr hw, need_true, hon, hr, bind, Except.bind, pure, Except.pure]

/-- A slot whose gang is complete joins it. -/
theorem gangOn_formed {g : Gang} (hout : flag s.slot.gang 63 = false) (hg : s.myGang = some g) (hf : g.formed = true) :
    gangOn w s = .ok (joined (s.modMyGang (fun g => { g with formed := true })) w) := by
  unfold gangOn
  simp only [hout, hg, hf, Option.isSome_some, if_true, Bool.true_or, Bool.false_eq_true, if_false]
  rfl
theorem has_appended (s : State) (g : Gang) : Gang.has { g with mem := g.mem ++ [(s.co, s.hi)] } s.co s.hi = true := by
  simp [Gang.has]
/-- The last member of a gang completes it. -/
theorem gangOn_completes {g : Gang} (hout : flag s.slot.gang 63 = false) (hnone : s.myGang = none)
    (hg : firstSat (fun g => !g.formed && g.wd == w) s.clus.gangs = some g) (hother : ∀ h ∈ s.clus.gangs, h.has s.co (!s.hi) = false)
    (hall : ∀ c ∈ gangCores w, c = s.co ∨ ∃ p ∈ g.mem, p.1 = c) :
    gangOn w s = .ok (joined (s.modGangs (replFirst (fun g => !g.formed && g.wd == w)
      (fun g => { g with mem := g.mem ++ [(s.co, s.hi)], formed := true }))) w) := by
  have hno : ∀ g ∈ s.clus.gangs, g.has s.co s.hi = false := firstSat_eq_none.mp hnone
  obtain ⟨hpg, hmem⟩ := firstSat_some hg
  have hany : s.clus.gangs.any (fun g => !g.formed && g.wd == w) = true := List.any_eq_true.mpr ⟨g, hmem, hpg⟩
  have hnot : s.clus.gangs.any (fun g => g.has s.co (!s.hi)) = false := by
    rw [List.any_eq_false]
    exact fun h hh => by simp [hother h hh]
  have hmine : (s.modGangs (replFirst (fun g => !g.formed && g.wd == w) (fun g => { g with mem := g.mem ++ [(s.co, s.hi)] }))).myGang =
      some { g with mem := g.mem ++ [(s.co, s.hi)] } := by
    unfold State.myGang
    rw [clus_modGangs]
    refine (firstSat_replFirst (p := fun g => g.has s.co s.hi) (fun x => has_appended s x) hno).trans ?_
    rw [hg]
    rfl
  have hready : (gangCores w).all (fun i => (g.mem ++ [(s.co, s.hi)]).any (fun p => p.1 == i)) = true := by
    rw [List.all_eq_true]
    intro i hi
    rw [List.any_eq_true]
    rcases hall i hi with rfl | ⟨p, hp, rfl⟩
    · exact ⟨(s.co, s.hi), by simp, by simp⟩
    · exact ⟨p, List.mem_append_left _ hp, by simp⟩
  unfold gangOn
  simp only [hout, hnone, hany, hnot, Option.isSome_none, Bool.false_eq_true, if_false, Bool.not_false, Bool.and_self, if_true, hmine, hready,
    Bool.or_true]
  refine congrArg (fun v => Except.ok (joined v w)) ?_
  exact (modGangs_modGangs s _ _).trans (modGangs_congr (replFirst_replFirst (p := fun g => g.has s.co s.hi) (fun x => has_appended s x) hno))
/-- A gang of one core is complete at once. -/
theorem gangOn_alone (hout : flag s.slot.gang 63 = false) (hempty : s.clus.gangs = []) (hw : gangCores w = [s.co]) :
    gangOn w s = .ok (joined (s.modGangs (fun _ => [⟨w, [(s.co, s.hi)], true, [], []⟩])) w) := by
  have hnone : s.myGang = none := by rw [State.myGang, hempty]; rfl
  have hmine : (s.modGangs (fun l => l ++ [⟨w, [(s.co, s.hi)], false, [], []⟩])).myGang = some ⟨w, [(s.co, s.hi)], false, [], []⟩ := by
    unfold State.myGang
    rw [clus_modGangs, hempty]
    simp [firstSat, Gang.has, State.modGangs, State.modClus]
  unfold gangOn
  simp only [hout, hnone, hempty, List.any_nil, Option.isSome_none, Bool.false_eq_true, if_false, Bool.false_and, hmine, hw, List.all_cons,
    List.all_nil, List.any_cons, beq_self_eq_true, Bool.true_or, Bool.and_self, Bool.or_true, if_true]
  refine congrArg (fun v => Except.ok (joined v w)) ?_
  refine (modGangs_modGangs s _ _).trans (modGangs_congr ?_)
  rw [hempty]
  simp [replFirst, Gang.has, State.modGangs, State.modClus]
theorem gangRank_alone {co : Nat} (hw : gangCores w = [co]) : gangRank w co = 0 := by
  simp [gangRank, hw]
end

/-! ### GANGOFF (R259) -/

/-- The gangs of a cluster after a member has left its own. -/
def withoutMember (me : Nat × Bool) (l : List Gang) : List Gang :=
  l.filterMap (fun g => if g.mem.contains me then
    (if (g.mem.filter (fun p => p != me)).isEmpty then none else some { g with mem := g.mem.filter (fun p => p != me) })
    else some g)
theorem withoutMember_has (co : Nat) (hi : Bool) (l : List Gang) : firstSat (fun g => g.has co hi) (withoutMember (co, hi) l) = none := by
  rw [firstSat_eq_none]
  intro g hg
  obtain ⟨h, -, hh⟩ := List.mem_filterMap.mp hg
  by_cases hm : h.mem.contains (co, hi) = true
  · rw [if_pos hm] at hh
    by_cases he : (h.mem.filter (fun p => p != (co, hi))).isEmpty = true
    · rw [if_pos he] at hh; cases hh
    · rw [if_neg he] at hh
      cases hh
      simp [Gang.has]
  · rw [if_neg hm] at hh
    cases hh
    exact Bool.eq_false_iff.mpr hm
/-- The members of a gang that have said that they leave, the current core with them. -/
def Gang.leavers (g : Gang) (co : Nat) : List Nat := if g.off.contains co then g.off else g.off ++ [co]
/-- The state of a slot that has left its gang `g`. -/
def State.leftGang (s : State) (g : Gang) : State :=
  ((s.modMyGang (fun h => { h with off := g.leavers s.co })).modGangs (withoutMember (s.co, s.hi))).clearGang
theorem leavers_all {g : Gang} {co : Nat} (h : ∀ c ∈ gangCores g.wd, c = co ∨ c ∈ g.off) :
    (gangCores g.wd).all (fun i => (g.leavers co).contains i) = true := by
  rw [List.all_eq_true]
  intro i hi
  rw [List.contains_iff_mem, Gang.leavers]
  split
  · next hin =>
    rcases h i hi with rfl | hoff
    · exact List.contains_iff_mem.mp hin
    · exact hoff
  · rcases h i hi with rfl | hoff
    · simp
    · exact List.mem_append_left _ hoff
theorem gangLeave_left {s : State} {g : Gang} (hg : s.myGang = some g) (hall : ∀ c ∈ gangCores g.wd, c = s.co ∨ c ∈ g.off)
    (hbusy : s.gangBusy g = false) : gangLeave s = .ok (s.leftGang g) := by
  have hsame : (s.modMyGang (fun h => { h with off := g.leavers s.co })).gangBusy g = s.gangBusy g := rfl
  have hcond : ((gangCores g.wd).all (fun i => (g.leavers s.co).contains i) &&
      !(s.modMyGang (fun h => { h with off := g.leavers s.co })).gangBusy g) = true := by
    rw [leavers_all hall, hsame, hbusy]
    rfl
  unfold gangLeave
  rw [hg]
  exact if_pos hcond
/-- What is left of GANGOFF when every member has said that it leaves. -/
theorem gangoff_runs {s : State} {o : OpA2} {g : Gang} (hs : s.Free) (hwf : Instr.WellFormed (.gangoff o)) (hin : s.slot.gang.getLsbD 63 = true)
    (hg : s.myGang = some g) (hall : ∀ c ∈ gangCores g.wd, c = s.co ∨ c ∈ g.off) (hbusy : s.gangBusy g = false) :
    Runs (.gangoff o) s (fun t => Advanced s t ∧ WroteG o.d.toNat (word (fld s.slot.gang 0 8)) t ∧ t.slot.gang = 0 ∧ t.myGang = none ∧
      (∀ n, n ≠ o.d.toNat → t.slot.getG n = s.slot.getG n) ∧ t.core.f = s.core.f ∧ t.mem = s.mem) := by
  have hd : o.d.toNat < 32 := by
    simp [Instr.WellFormed, Instr.defect] at hwf
    exact hwf.1
  have hslot : (s.leftGang g).slot = { s.slot with gang := 0, strips := 0 } := by
    rw [State.leftGang, State.clearGang, State.slot_modSlot]
    rfl
  have hcore : (s.leftGang g).core = s.core.setSlot s.hi (s.leftGang g).slot := by
    rw [hslot]
    exact State.core_setCore _ _
  have hgang : (s.leftGang g).clus.gangs = withoutMember (s.co, s.hi) (s.modMyGang (fun h => { h with off := g.leavers s.co })).clus.gangs :=
    clus_modGangs (s.modMyGang (fun h => { h with off := g.leavers s.co })) _
  obtain ⟨hwrote, hadv, ⟨hout, hframe, hregs, -⟩⟩ :=
    retire_setG_frame (u := s.leftGang g) (by rw [State.Free, hslot]; exact hs) hd (word (fld s.slot.gang 0 8))
  have hexec : exec (.gangoff o) s = .next ((s.leftGang g).setG o.d (word (fld s.slot.gang 0 8))).retire := by
    change execGangoff o s = _
    unfold execGangoff
    refine commit_ok ?_
    have hflag : flag s.slot.gang 63 = true := hin
    simp only [hflag, need_true, gangLeave_left hg hall hbusy, bind, Except.bind, pure, Except.pure]
  generalize ((s.leftGang g).setG o.d (word (fld s.slot.gang 0 8))).retire = t at *
  rw [Advanced, hslot] at hadv
  refine ⟨t, hexec, hadv, hwrote, ?_, ?_, fun n hn => ?_, ?_, ?_⟩
  · rw [hframe, hslot]
  · rw [hout]
    change firstSat (fun g => g.has s.co s.hi) (s.leftGang g).clus.gangs = none
    rw [hgang]
    exact withoutMember_has _ _ _
  · rw [hregs n hn, hslot]
    rfl
  · rw [hout, State.core_setSlot, Core.setSlot_f, hcore, Core.setSlot_f]
  · rw [hout]
    rfl

end Sys2Proof.Machine
end

section
/-! SUPPORT. A command whose base differs from the state before it in its slot and outside the core (R66, R275). -/

namespace Sys2Proof.Machine

/-! ### Bases (R66, R275) -/

/-- `b` is at the place of `s`, and of its core the slot alone, `x` in `b`, may differ. -/
structure Rebased (s b : State) (x : Slot) : Prop where
  hi : b.hi = s.hi
  core : b.core = s.core.setSlot s.hi x

namespace Rebased
variable {s b : State} {x : Slot}

theorem slot (h : Rebased s b x) : b.slot = x := by
  rw [State.slot, h.core, h.hi, Core.slot_setSlot]
/-- The core in which a command executes over a base. -/
theorem ticketCore (h : Rebased s b x) (hfree : x.stepping = false) (t : Ticket) (len : BitVec 3) (n m : Nat) :
    t.core b len m = { (t.core s len n).setSlot s.hi x.gone with queue := [t.cmd b len m] } := by
  have hst : (b.beginVec t.eng t.ins).core.st = (s.beginVec t.eng t.ins).core.st := by
    obtain ⟨F, hF⟩ := beginVec_modCore t.eng t.ins
    rw [(hF _).1, (hF _).1, h.core, Core.setSlot_st]
  rw [Ticket.core_eq, Ticket.core_eq, hst, State.slot_retire (by rw [h.slot]; exact hfree), h.slot, h.core, h.hi]
  change Core.setSlot _ s.hi x.gone = _
  cases s.hi <;> rfl
/-- A command at work whose slot has become that of the base works over the base. -/
theorem atWork (h : Rebased s b x) (hfree : x.stepping = false) (t : Ticket) (len : BitVec 3) (n m : Nat) (c : Cmd) (g : Files) (fl mrs : Nat) :
    b.setCore (({ t.core s len n with f := g, queue := [{ c with flags := fl, mrs := mrs }] } : Core).setSlot s.hi x.gone) =
      working b (t.core b len m) c g fl mrs := by
  rw [working, h.ticketCore hfree t len n m]
  cases s.hi <;> rfl
end Rebased

/-- An engine form whose command works on the register files over a base of its own: it completes and leaves them. -/
theorem engine_runs_base {t : Ticket} {f : Run1} {s b : State} {len : BitVec 3} {n m : Nat} {c : Cmd} {g : Files} {fl mrs : Nat}
    (hq : s.Quiet) (hl : t.lens = [len] ∨ (t.lens = [] ∧ len = 0)) (hp : t.push = none) (hn : LenIs s len n)
    (hw : waitsForNothing t.ins = true) (hr : t.ranges.length ≤ 64) (hb : b.hi = s.hi) (hfree : b.Free) (hqp : c.qpos = s.core.qpos)
    (heng : c.eng = t.eng) (hhi : c.hi = b.hi)
    (hf : f (t.cmd s len n) (s.setCore (t.core s len n)) = .ok (working b (t.core b len m) c g fl mrs)) :
    ∃ u, engine t (whole f) s = .next u ∧ FilesRun t.eng t.ins len g fl mrs b u :=
  ⟨_, engine_step hq hl hp hn (fixedRanges_of_waitsForNothing hw) (copyReady_of_waitsForNothing hw) hr hf hb rfl hqp,
    filesRun_ended g fl mrs hfree heng hhi⟩

/-! ### Numbers of bytes (R9) -/

theorem leNat_lt (l : List Byte) : leNat l < 256 ^ l.length := by
  induction l with
  | nil => exact Nat.one_pos
  | cons b r ih =>
    have := b.isLt
    rw [leNat, List.length_cons, Nat.pow_succ]
    omega
theorem bytesOf_lt (s : State) (spc : BitVec 3) (loc n : Nat) : bytesOf s spc loc n < 2 ^ (8 * n) := by
  have h := leNat_lt ((List.range n).map (fun k => byteOf s spc (loc + k)))
  rw [List.length_map, List.length_range] at h
  rw [Nat.pow_mul]
  exact h
theorem nthD_eq {α : Type} (d : α) (l : List α) (i : Nat) : nthD d l i = l[i]?.getD d := by
  induction l generalizing i with
  | nil => rfl
  | cons a r ih => cases i with
    | zero => rfl
    | succ i => simpa [nthD] using ih i
/-- An address at an unsigned stride (R156). -/
theorem placed_eq (base : Word) (e es : Nat) : placed base e (es : Nat) = (base + word (e * es)).toNat := by
  unfold placed int64 word
  congr 1
  rw [BitVec.ofInt_add, BitVec.ofInt_toInt]
  rfl

end Sys2Proof.Machine
end

section
/-! SUPPORT. VLDG: a gang's strips (R260). -/

namespace Sys2Proof.Machine

/-- The current slot with its strips counted to n. -/
def Slot.stripped (x : Slot) (n : Nat) : Slot := { x with strips := n + 1 }
/-- The state in which rank 0 has recorded strip n. -/
def State.recorded (s : State) (n : Nat) (key : Nat × Nat) (xs : List Nat) : State :=
  (s.modMyGang (fun g => { g with strips := put n (key, xs, []) g.strips })).tookStrip n
theorem tookStrip_setCore (s : State) (K : Core) (n : Nat) :
    (s.setCore K).tookStrip n = (s.tookStrip n).setCore (K.setSlot s.hi ((K.slot s.hi).stripped n)) := by
  have h (u : State) (f : Gang → Gang) : ((u.setCore K).modMyGang f).modSlot (fun x => x.stripped n) =
      ((u.modMyGang f).modSlot (fun x => x.stripped n)).setCore (K.setSlot u.hi ((K.slot u.hi).stripped n)) := by
    have hc : ((u.setCore K).modMyGang f).core = K := State.core_setCore u K
    rw [State.modSlot, State.setSlot, State.slot, hc, State.modSlot, State.setSlot, State.setCore_setCore]
    exact State.setCore_setCore (u.modMyGang f) K _
  exact h s _
theorem recorded_setCore (s : State) (K : Core) (n : Nat) (key : Nat × Nat) (xs : List Nat) :
    (s.setCore K).recorded n key xs = (s.recorded n key xs).setCore (K.setSlot s.hi ((K.slot s.hi).stripped n)) :=
  tookStrip_setCore (s.modMyGang (fun g => { g with strips := put n (key, xs, []) g.strips })) K n
theorem rebased_tookStrip (s : State) (n : Nat) : Rebased s (s.tookStrip n) (s.slot.stripped n) :=
  ⟨rfl, State.core_setCore _ _⟩
theorem rebased_recorded (s : State) (n : Nat) (key : Nat × Nat) (xs : List Nat) : Rebased s (s.recorded n key xs) (s.slot.stripped n) :=
  ⟨rfl, State.core_setCore _ _⟩
/-- The elements of a strip take the place of a register's first (R260). -/
theorem elem_stripWrite (old : VReg) {w e : Nat} {xs : List Nat} (hx : ∀ x ∈ xs, x < 2 ^ w) (he : e < vlmax w) :
    elem (stripWrite old w xs) w e = if e < xs.length then xs[e]?.getD 0 else elem old w e := by
  rw [stripWrite, elem_mapElems _ _ _ _ _ (elem_fits he)]
  split
  · next hlt =>
    rw [nthD_eq, List.getElem?_eq_getElem hlt]
    exact Nat.mod_eq_of_lt (hx _ (List.getElem_mem hlt))
  · rfl

/-- VLDG in one member, as one step (R260). -/
def vldgStep (o : OpM4) : Run1 := fun c s => do
  let x := s.slot
  if flag x.gang 63 && s.myGang.isNone then throw (gangGone s)
  need (flag x.gang 63) (Trap.opnd 0x07) s
  let w := vtSew c.vtype
  let gvl := fld x.gang 19 10
  let d := o.d.toNat
  let n := x.strips
  let s := s.note c gvl gvl
  let key := (d, vtSewCode c.vtype)
  if fld x.gang 16 3 = 0 then
    need (decide (gvl ≤ vlmax w)) (Trap.opndAt 0x05 gvl) (s.recorded n key [])
    let es := w / 8
    let ad := fun i => (c.ga + word (i * es)).toNat
    let els := List.range gvl
    let s := s.modCmd c.qpos (fun k => { k with tr := (gvl, gvl, (els.head?.map ad).getD 0, (els.getLast?.map ad).getD 0) })
    let (xs, s) ← loadElems ad (loadOne o.spc ad es) els s
    let xs := xs.map (·.2)
    pure ((s.recorded n key xs).setV d (stripWrite (s.vreg d) w xs))
  else
    need (decide (gvl ≤ vlmax w)) (Trap.opndAt 0x05 gvl) (s.tookStrip n)
    match s.myGang.bind (fun g => g.strip n) with
    | none => .error (.stall s)
    | some (k, xs, _) =>
      need (k == key) (Trap.opnd 0x07) (s.tookStrip n)
      pure ((s.tookStrip n).setV d (stripWrite (s.vreg d) w xs))
theorem effVldg_eq (o : OpM4) : effVldg o = whole (vldgStep o) := rfl

/-- The core of a member after a strip has landed in its register, its command noted as of n elements. -/
def Core.stripLanded (K : Core) (hi : Bool) (n d : Nat) (x : VReg) (e : Cmd) (tr : Nat × Nat × Nat × Nat) : Core :=
  { K.setSlot hi ((K.slot hi).stripped n) with f := { K.f with v := K.f.v.setIfInBounds d x }, queue := [{ e with tr := tr }] }
section
variable {s : State} {K : Core} {c e : Cmd} {o : OpM4} {gvl n : Nat} {key : Nat × Nat} {xs : List Nat}

/-- A member of another rank takes the strip that rank 0 has recorded. -/
theorem vldgStep_takes {took : List Nat} (hK : K.queue = [e]) (he : e.qpos = c.qpos) (hin : flag (K.slot s.hi).gang 63 = true)
    (hmine : s.myGang.isSome = true) (hgvl : gvl = fld (K.slot s.hi).gang 19 10) (hle : gvl ≤ vlmax (vtSew c.vtype))
    (hn : n = (K.slot s.hi).strips) (hkey : key = (o.d.toNat, vtSewCode c.vtype)) (hrank : fld (K.slot s.hi).gang 16 3 ≠ 0)
    (hstrip : s.myGang.bind (fun g => g.strip n) = some (key, xs, took)) :
    vldgStep o c (s.setCore K) = .ok ((s.tookStrip n).setCore (K.stripLanded s.hi n o.d.toNat
      (stripWrite (K.f.v[o.d.toNat]?.getD 0) (vtSew c.vtype) xs) e (gvl, gvl, e.tr.2.2.1, e.tr.2.2.2))) := by
  subst hgvl hn hkey
  have hslot : (s.setCore K).slot = K.slot s.hi := by rw [State.slot, State.core_setCore]; rfl
  have hmy (L : Core) : (s.setCore L).myGang = s.myGang := rfl
  have hnone : s.myGang.isNone = false := by rw [← Option.not_isSome, hmine]; rfl
  unfold vldgStep
  simp only [hslot, hmy, hin, hnone, Bool.and_false, Bool.false_eq_true, if_false, need_true, if_neg hrank, note_setCore s K c e _ _ hK he,
    decide_eq_true hle, hstrip, bind, Except.bind, pure, Except.pure, beq_self_eq_true]
  rw [tookStrip_setCore, setV_setCore, State.vreg, State.core_setCore]
  refine congrArg (fun L => Except.ok ((s.tookStrip _).setCore L)) ?_
  unfold Core.stripLanded
  cases s.hi <;> rfl
/-- Rank 0 loads a strip and records it. -/
theorem vldgStep_loads {spc : BitVec 3} {es : Nat} {loc : Nat → Nat} (hK : K.queue = [e]) (he : e.qpos = c.qpos)
    (hin : flag (K.slot s.hi).gang 63 = true) (hmine : s.myGang.isSome = true) (hgvl : gvl = fld (K.slot s.hi).gang 19 10)
    (hle : gvl ≤ vlmax (vtSew c.vtype)) (hn : n = (K.slot s.hi).strips) (hkey : key = (o.d.toNat, vtSewCode c.vtype))
    (hrank : fld (K.slot s.hi).gang 16 3 = 0) (hspc : spc = o.spc) (hes : es = vtSew c.vtype / 8) (htr : Translates s K)
    (hreach : ∀ i ∈ List.range gvl, Reaches s spc (c.ga + word (i * es)).toNat es .rd (loc i) ∧ Readable s spc es (loc i))
    (hxs : xs = (List.range gvl).map (fun i => bytesOf (s.setCore K) spc (loc i) es)) :
    ∃ V tr, (∀ a, (s.setCore (K.looked s.hi V)).seen a = (s.setCore K).seen a) ∧
      vldgStep o c (s.setCore K) = .ok ((s.recorded n key xs).setCore ((K.looked s.hi V).stripLanded s.hi n o.d.toNat
        (stripWrite (K.f.v[o.d.toNat]?.getD 0) (vtSew c.vtype) xs) e tr)) := by
  subst hgvl hn hkey hspc hes
  have hslot : (s.setCore K).slot = K.slot s.hi := by rw [State.slot, State.core_setCore]; rfl
  have hmy (L : Core) : (s.setCore L).myGang = s.myGang := rfl
  have hnone : s.myGang.isNone = false := by rw [← Option.not_isSome, hmine]; rfl
  have hmod (L : Core) (x : Cmd) (f : Cmd → Cmd) (hL : L.queue = [x]) (hx : x.qpos = c.qpos) :
      (s.setCore L).modCmd c.qpos f = s.setCore { L with queue := [f x] } := by
    rw [State.modCmd, State.modCore_eq, State.core_setCore, State.setCore_setCore, hL]
    simp [replFirst, hx]
  have hbytes (L : List Cmd) (i : Nat) : bytesOf (s.setCore { K with queue := L }) o.spc (loc i) (vtSew c.vtype / 8) =
      bytesOf (s.setCore K) o.spc (loc i) (vtSew c.vtype / 8) := by
    unfold bytesOf byteOf
    refine congrArg leNat (List.map_congr_left fun k _ => ?_)
    split
    · exact seen_congr rfl rfl
    · rw [held_setCore, held_setCore]; rfl
  generalize htrace : ((fld (K.slot s.hi).gang 19 10, fld (K.slot s.hi).gang 19 10,
    ((List.range (fld (K.slot s.hi).gang 19 10)).head?.map (fun i => (c.ga + word (i * (vtSew c.vtype / 8))).toNat)).getD 0,
    ((List.range (fld (K.slot s.hi).gang 19 10)).getLast?.map (fun i => (c.ga + word (i * (vtSew c.vtype / 8))).toNat)).getD 0) : Nat × Nat × Nat × Nat) = tr
  obtain ⟨V, hload, hseen⟩ := loadElems_eq (s := s) (spc := o.spc) (ad := fun i => (c.ga + word (i * (vtSew c.vtype / 8))).toNat) (loc := loc)
    (n := vtSew c.vtype / 8) (List.range (fld (K.slot s.hi).gang 19 10)) { K with queue := [{ e with tr := tr }] } htr hreach
  refine ⟨V, tr, fun a => ?_, ?_⟩
  · have h1 : (s.setCore (K.looked s.hi V)).seen a = (s.setCore (Core.looked { K with queue := [{ e with tr := tr }] } s.hi V)).seen a :=
      seen_congr (by cases s.hi <;> rfl) (by cases s.hi <;> rfl)
    have h2 : (s.setCore { K with queue := [{ e with tr := tr }] }).seen a = (s.setCore K).seen a := seen_congr rfl rfl
    exact h1.trans ((hseen a).trans h2)
  · have hlist : ((List.range (fld (K.slot s.hi).gang 19 10)).map (fun i => (i, bytesOf (s.setCore { K with queue := [{ e with tr := tr }] }) o.spc (loc i)
        (vtSew c.vtype / 8)))).map (·.2) = xs := by
      rw [List.map_map, hxs]
      exact List.map_congr_left fun i _ => hbytes _ i
    unfold vldgStep
    simp only [hslot, hmy, hin, hnone, Bool.and_false, Bool.false_eq_true, if_false, need_true, if_pos hrank, note_setCore s K c e _ _ hK he,
      hmod { K with queue := [{ e with tr := (fld (K.slot s.hi).gang 19 10, fld (K.slot s.hi).gang 19 10, e.tr.2.2.1, e.tr.2.2.2) }] } _ _ rfl he,
      decide_eq_true hle, bind, Except.bind, pure, Except.pure, htrace, hload, hlist]
    rw [recorded_setCore, setV_setCore, State.vreg, State.core_setCore]
    refine congrArg (fun L => Except.ok ((s.recorded _ _ xs).setCore L)) ?_
    unfold Core.stripLanded
    cases s.hi <;> rfl
end

end Sys2Proof.Machine
end

section
/-! SUPPORT. VLDG as an instruction, and the delivery of a strip (R260). -/

namespace Sys2Proof.Machine

theorem seen_modGangs (s : State) (f : List Gang → List Gang) (loc : Nat) : (s.modGangs f).seen loc = s.seen loc := by
  have hclus : (s.modGangs f).clus = { s.clus with gangs := f s.clus.gangs } := State.clus_modClus _ _
  rw [seen_eq, seen_eq]
  unfold State.newest
  rw [hclus]
  rfl
theorem seen_tookStrip_setCore (s : State) (n : Nat) (K : Core) (loc : Nat) : ((s.tookStrip n).setCore K).seen loc = (s.setCore K).seen loc := by
  have h (u : State) (f : List Gang → List Gang) (g : Slot → Slot) : (((u.modGangs f).modSlot g).setCore K).seen loc = (u.setCore K).seen loc := by
    rw [State.modSlot, State.setSlot, State.setCore_setCore]
    exact seen_modGangs (u.setCore K) f loc
  exact h s _ _
theorem seen_recorded_setCore (s : State) (n : Nat) (key : Nat × Nat) (xs : List Nat) (K : Core) (loc : Nat) :
    ((s.recorded n key xs).setCore K).seen loc = (s.setCore K).seen loc :=
  (seen_tookStrip_setCore _ n K loc).trans (seen_modGangs (s.setCore K) _ loc)

theorem seen_stripLanded (s : State) (K : Core) (n d : Nat) (x : VReg) (e : Cmd) (tr : Nat × Nat × Nat × Nat) (loc : Nat) :
    (s.setCore (K.stripLanded s.hi n d x e tr)).seen loc = (s.setCore K).seen loc := by
  unfold Core.stripLanded
  refine seen_congr ?_ ?_
  · cases s.hi <;> rfl
  · cases s.hi <;> rfl

/-- The command that VLDG commits. -/
def vldgTicket (o : OpM4) (s : State) : Ticket :=
  { eng := .vec, ins := .vldg o, ga := s.g o.base,
    ranges := if flag s.slot.gang 63 && fld s.slot.gang 16 3 == 0 then
      strideRange o.spc.toNat (s.g o.base).toNat (vtEs s.slot.vtype : Nat) (fld s.slot.gang 19 10) (vtEs s.slot.vtype) false else [],
    wr := [.v o.d.toNat] }
theorem vldgTicket_ranges (o : OpM4) (s : State) : (vldgTicket o s).ranges.length ≤ 64 := by
  change (if flag s.slot.gang 63 && fld s.slot.gang 16 3 == 0 then
      strideRange o.spc.toNat (s.g o.base).toNat (vtEs s.slot.vtype : Nat) (fld s.slot.gang 19 10) (vtEs s.slot.vtype) false else []).length ≤ 64
  split
  · unfold strideRange
    split
    · exact Nat.zero_le _
    · simp only
      split <;> exact Nat.le_of_ble_eq_true rfl
  · exact Nat.zero_le _
section
variable {s : State} {o : OpM4} {n gvl : Nat} {key : Nat × Nat} {xs : List Nat}

theorem exec_vldg (h : fld s.slot.gang 16 3 = 0 ∨ o.spc = 0 ∧ o.base = 0) (hin : flag s.slot.gang 63 = true) :
    exec (.vldg o) s = engine (vldgTicket o s) (whole (vldgStep o)) s := by
  have hok : (!flag s.slot.gang 63 || (flag s.slot.gang 63 && fld s.slot.gang 16 3 == 0) || (o.spc == 0#3 && o.base == 0#5)) = true := by
    rcases h with h | ⟨h1, h2⟩
    · simp [hin, h]
    · simp [h1, h2]
  change execVldg o s = _
  unfold execVldg
  simp only [hok, need_true]
  rfl
theorem slot_ticketCore (hs : s.Free) (t : Ticket) (m : Nat) : (t.core s 0 m).slot s.hi = s.slot.gone := by
  rw [Ticket.core_slot, State.slot_retire hs]
  rfl
theorem lenIs_vl (s : State) : LenIs s 0 s.slot.vl := rfl
theorem sameBytes_ticketCore (hs : s.Free) (t : Ticket) (len : BitVec 3) (m : Nat) : SameBytes s (s.setCore (t.core s len m)) := by
  refine sameBytes_of ⟨by simp [Ticket.core_eq], by simp [Ticket.core_eq], by simp [Ticket.core_eq], by simp [Ticket.core_eq], ?_⟩
  rw [Ticket.core_slot, State.slot_retire hs]
  exact ⟨rfl, rfl, rfl⟩
/-- What a member has in its register after a strip has landed. -/
theorem vreg_landed {xs : List Nat} {u : State} {vt : Word} {d : Nat} (hd : d < 64)
    (hu : u.core.f.v = s.core.f.v.setIfInBounds d (stripWrite (s.vreg d) (vtSew vt) xs))
    (hx : ∀ x ∈ xs, x < 2 ^ vtSew vt) (hlen : xs.length = gvl) : ∀ e, e < vlmax (vtSew vt) →
      elem (u.vreg d) (vtSew vt) e = if e < gvl then xs[e]?.getD 0 else elem (s.vreg d) (vtSew vt) e := by
  intro e he
  rw [State.vreg, hu, getD_setIfInBounds _ _ _ _ _ hd, if_pos rfl, elem_stripWrite _ hx he, hlen]
/-- The register files of a member in which a strip has landed. -/
def stripFiles (f : Files) (d : Nat) (x : VReg) : Files := { f with v := f.v.setIfInBounds d x }

theorem vldg_loads {loc : Nat → Nat} {u : State} (hq : s.Quiet) (hin : s.slot.gang.getLsbD 63 = true)
    (hmine : s.myGang.isSome = true) (hgvl : gvl = fld s.slot.gang 19 10) (hle : gvl ≤ vlmax (vtSew s.slot.vtype)) (hn : n = s.slot.strips)
    (hkey : key = (o.d.toNat, vtSewCode s.slot.vtype)) (hrank : fld s.slot.gang 16 3 = 0)
    (hreach : ∀ e, e < gvl → Reaches s o.spc (placed (s.g o.base) e (vtSew s.slot.vtype / 8 : Nat)) (vtSew s.slot.vtype / 8) .rd (loc e) ∧
        Readable s o.spc (vtSew s.slot.vtype / 8) (loc e))
    (hxs : xs = (List.range gvl).map (fun e => bytesOf s o.spc (loc e) (vtSew s.slot.vtype / 8))) (hu : u = s.recorded n key xs) :
    Runs (.vldg o) s (fun t => Advanced s t ∧ (∀ l, t.seen l = s.seen l) ∧ MemFrame .vec (.vldg o) [o.d.toNat] [] [] [] 0 u t ∧
      ∀ e, e < vlmax (vtSew s.slot.vtype) → elem (t.vreg o.d.toNat) (vtSew s.slot.vtype) e =
        if e < gvl then xs[e]?.getD 0 else elem (s.vreg o.d.toNat) (vtSew s.slot.vtype) e) := by
  have hfree := hq.free
  have hslot := slot_ticketCore hfree (vldgTicket o s) s.slot.vl
  have htr : Translates s ((vldgTicket o s).core s 0 s.slot.vl) := by
    rw [Ticket.core_eq]
    cases s.hi <;> exact ⟨rfl, rfl, rfl⟩
  have hbytes (i : Nat) : bytesOf (s.setCore ((vldgTicket o s).core s 0 s.slot.vl)) o.spc (loc i) (vtSew s.slot.vtype / 8) =
      bytesOf s o.spc (loc i) (vtSew s.slot.vtype / 8) := by
    obtain ⟨h1, h2⟩ := sameBytes_ticketCore hfree (vldgTicket o s) 0 s.slot.vl
    unfold bytesOf byteOf
    simp only [h1, h2]
  obtain ⟨V, tr, hseen, hstep⟩ := vldgStep_loads (s := s) (o := o) (K := (vldgTicket o s).core s 0 s.slot.vl) (c := (vldgTicket o s).cmd s 0 s.slot.vl)
    (n := n) (gvl := gvl) (key := key) (xs := xs) (loc := loc) (es := vtSew s.slot.vtype / 8) ((vldgTicket o s).core_queue s 0 s.slot.vl) rfl (by rw [hslot]; exact hin) hmine (by rw [hslot]; exact hgvl) hle
    (by rw [hslot]; exact hn) hkey (by rw [hslot]; exact hrank) rfl rfl htr
    (fun i hi => by rw [← placed_eq]; exact hreach i (List.mem_range.mp hi)) (by rw [hxs]; simp only [hbytes])
  have hw : (({ (vldgTicket o s).cmd s 0 s.slot.vl with tr := tr } : Cmd)).qpos = s.core.qpos := rfl
  have hbase := rebased_recorded s n key xs
  rw [← hu] at hstep hbase
  have hfreeu : u.Free := by rw [State.Free, hbase.slot]; exact hfree
  have hmoved : Core.Moved { (vldgTicket o s).core u 0 0 with
      f := stripFiles (popF s.core.f 0) o.d.toNat (stripWrite (s.vreg o.d.toNat) (vtSew s.slot.vtype) xs),
      queue := [{ (vldgTicket o s).cmd s 0 s.slot.vl with tr := tr }] }
      ((((vldgTicket o s).core s 0 s.slot.vl).looked s.hi V).stripLanded s.hi n o.d.toNat
        (stripWrite (((vldgTicket o s).core s 0 s.slot.vl).f.v[o.d.toNat]?.getD 0) (vtSew s.slot.vtype) xs) ((vldgTicket o s).cmd s 0 s.slot.vl) tr) := by
    rw [hbase.ticketCore hfree (vldgTicket o s) 0 s.slot.vl 0]
    have hgone : ((vldgTicket o s).core s 0 s.slot.vl).slot s.hi = s.slot.gone := hslot
    have hf := (vldgTicket o s).core_f s 0 s.slot.vl
    have hold : s.vreg o.d.toNat = ((vldgTicket o s).core s 0 s.slot.vl).f.v[o.d.toNat]?.getD 0 := by rw [hf, popF_vreg]
    rw [hold, ← hf]
    clear hrank hstep htr hbytes hseen hold hf
    unfold Core.stripLanded Core.looked Core.Moved
    generalize (vldgTicket o s).core s 0 s.slot.vl = K at hgone ⊢
    rw [Core.slot_setSlot, hgone]
    cases s.hi <;> rfl
  have hrun := memRun_ended (t := vldgTicket o s) (b := u) (len := 0) (n := 0) (fl := 0) (mrs := 0)
    (c := { (vldgTicket o s).cmd s 0 s.slot.vl with tr := tr }) hfreeu rfl hbase.hi.symm hmoved
  have hexec := engine_step (len := 0) (n := s.slot.vl) hq (.inr ⟨rfl, rfl⟩) rfl (lenIs_vl s) (by rfl) (copyReady_of_waitsForNothing (by rfl))
    (vldgTicket_ranges o s) hstep hbase.hi rfl hw
  have hv : (popF s.core.f 0).v = s.core.f.v := (popF_v _ _).1
  refine ⟨_, (exec_vldg (.inl hrank) hin).trans hexec, ?_, fun l => ?_, hrun.frame ?_, vreg_landed o.d.isLt (vt := s.slot.vtype) (xs := xs) ?_ ?_ ?_⟩
  · have h := hrun.advanced
    rw [Advanced, hbase.slot] at h
    exact h
  · have h := hrun.bytes 0 l
    unfold byteOf at h
    rw [if_pos rfl, if_pos rfl] at h
    refine h.trans ?_
    rw [hu, seen_recorded_setCore, seen_stripLanded, hseen, (sameBytes_ticketCore hfree (vldgTicket o s) 0 s.slot.vl).1]
  · rw [hbase.core, Core.setSlot_f]
    exact (FilesFrame.popF _ 0 _ _ _ _ _).setV _ (List.mem_singleton.mpr rfl)
  · refine (congrArg Files.v hrun.files).trans ?_
    rw [stripFiles, hv]
  · rw [hxs]
    intro x hx
    obtain ⟨e, -, rfl⟩ := List.mem_map.mp hx
    have h8 : 8 * (vtSew s.slot.vtype / 8) = vtSew s.slot.vtype := by unfold vtSew; omega
    have hlt := bytesOf_lt s o.spc (loc e) (vtSew s.slot.vtype / 8)
    rw [h8] at hlt
    exact hlt
  · rw [hxs, List.length_map, List.length_range]

theorem vldg_takes {took : List Nat} (hq : s.Quiet) (hin : s.slot.gang.getLsbD 63 = true) (hmine : s.myGang.isSome = true)
    (hgvl : gvl = fld s.slot.gang 19 10) (hle : gvl ≤ vlmax (vtSew s.slot.vtype)) (hn : n = s.slot.strips)
    (hkey : key = (o.d.toNat, vtSewCode s.slot.vtype)) (hrank : fld s.slot.gang 16 3 ≠ 0)
    (hstrip : s.myGang.bind (fun g => g.strip n) = some (key, xs, took)) (hlen : xs.length = gvl) (hx : ∀ x ∈ xs, x < 2 ^ vtSew s.slot.vtype)
    (hspc : o.spc = 0) (hb : o.base = 0) :
    Runs (.vldg o) s (fun t => Advanced s t ∧ EngineFrame .vec (.vldg o) [o.d.toNat] [] [] [] [] 0 (s.tookStrip n) t ∧
      ∀ e, e < vlmax (vtSew s.slot.vtype) → elem (t.vreg o.d.toNat) (vtSew s.slot.vtype) e =
        if e < gvl then xs[e]?.getD 0 else elem (s.vreg o.d.toNat) (vtSew s.slot.vtype) e) := by
  have hslot := slot_ticketCore hq.free (vldgTicket o s) s.slot.vl
  have hbase := rebased_tookStrip s n
  have hstep := vldgStep_takes (s := s) (o := o) (K := (vldgTicket o s).core s 0 s.slot.vl) (c := (vldgTicket o s).cmd s 0 s.slot.vl) (n := n)
    (gvl := gvl) (key := key) ((vldgTicket o s).core_queue s 0 s.slot.vl) rfl (by rw [hslot]; exact hin) hmine (by rw [hslot]; exact hgvl) hle
    (by rw [hslot]; exact hn) hkey (by rw [hslot]; exact hrank) hstrip
  have hwork : (s.tookStrip n).setCore (((vldgTicket o s).core s 0 s.slot.vl).stripLanded s.hi n o.d.toNat
      (stripWrite (((vldgTicket o s).core s 0 s.slot.vl).f.v[o.d.toNat]?.getD 0) (vtSew s.slot.vtype) xs) ((vldgTicket o s).cmd s 0 s.slot.vl)
      (gvl, gvl, 0, 0)) = working (s.tookStrip n) ((vldgTicket o s).core (s.tookStrip n) 0 0)
        { (vldgTicket o s).cmd s 0 s.slot.vl with tr := (gvl, gvl, 0, 0) }
        (stripFiles (popF s.core.f 0) o.d.toNat (stripWrite (s.vreg o.d.toNat) (vtSew s.slot.vtype) xs)) 0 0 := by
    have hf := (vldgTicket o s).core_f s 0 s.slot.vl
    rw [← hbase.atWork hq.free (vldgTicket o s) 0 s.slot.vl 0, Core.stripLanded, hslot, hf, popF_vreg]
    refine congrArg (State.setCore _) ?_
    cases s.hi <;> rfl
  obtain ⟨u, hexec, hrun⟩ := engine_runs_base (len := 0) (n := s.slot.vl) hq (.inr ⟨rfl, rfl⟩) rfl (lenIs_vl s) (by rfl) (vldgTicket_ranges o s)
    hbase.hi (by rw [State.Free, hbase.slot]; exact hq.free) (by rfl) (by rfl) (by rfl) (hstep.trans (congrArg Except.ok hwork))
  refine ⟨u, (exec_vldg (.inr ⟨hspc, hb⟩) hin).trans hexec, ?_, hrun.frame ?_, vreg_landed o.d.isLt (vt := s.slot.vtype) ?_ hx hlen⟩
  · have h := hrun.advanced
    rw [Advanced, hbase.slot] at h
    exact h
  · rw [hbase.core, Core.setSlot_f]
    exact (FilesFrame.popF _ 0 _ _ _ _ _).setV _ (List.mem_singleton.mpr rfl)
  · rw [hrun.files, stripFiles, (popF_v s.core.f 0).1]
end

end Sys2Proof.Machine
end

section
/-! SUPPORT. A step of a queued command in the view at which it was committed (R296), and VLDG_DELIVER (R260). -/

namespace Sys2Proof.Machine

theorem put_look {α : Type} {k : Nat} {a : α} {l : List (Nat × α)} (h : look k l = some a) : put k a l = l := by
  induction l with
  | nil => exact absurd h (by simp [look])
  | cons p r ih =>
    obtain ⟨j, b⟩ := p
    rw [look] at h
    rw [put]
    by_cases hj : j = k
    · rw [if_pos hj] at h ⊢
      cases h
      rw [hj]
    · rw [if_neg hj] at h ⊢
      rw [ih h]
/-- A core that holds a command is listed. -/
theorem setCore_core {s : State} (h : s.core.queue ≠ []) : s.setCore s.core = s := by
  have hlook : look (8 * s.cl + s.co) s.cores = some s.core := by
    unfold State.core State.coreAt at h ⊢
    cases hl : look (8 * s.cl + s.co) s.cores with
    | some c => rfl
    | none =>
      rw [hl] at h
      exact absurd rfl h
  exact congrArg (fun l => ({ s with cores := l } : State)) (put_look hlook)
theorem turnTo_kept (x : Slot) (n : Nat) : (x.turnTo n).gang = x.gang ∧ (x.turnTo n).strips = x.strips := by
  unfold Slot.turnTo
  split
  · exact ⟨rfl, rfl⟩
  · split <;> exact ⟨rfl, rfl⟩
/-- What a run in another view leaves of the register files and of the queue is what it leaves in any view, where it turns on the GANG
register and the count of strips alone. -/
theorem inView_ok {s b : State} {F : Files} {Q : List Cmd} {f : State → M State} (n : Nat) (hne : s.core.queue ≠ [])
    (h : ∀ x, x.gang = s.slot.gang → x.strips = s.slot.strips → ∃ M, f (s.setCore (s.core.setSlot s.hi x)) = .ok (b.setCore M) ∧ M.f = F ∧ M.queue = Q) :
    ∃ M, State.inView n f s = .ok (b.setCore M) ∧ M.f = F ∧ M.queue = Q := by
  unfold State.inView
  by_cases he : s.slot.ep = n
  · obtain ⟨M, hM, hrest⟩ := h s.slot rfl rfl
    have hself : s.core.setSlot s.hi s.slot = s.core := by unfold State.slot; cases s.hi <;> rfl
    rw [hself, setCore_core hne] at hM
    exact ⟨M, by simp only [he, if_true, hM], hrest⟩
  · obtain ⟨hgang, hstrips⟩ := turnTo_kept s.slot n
    obtain ⟨M, hM, hf, hq⟩ := h (s.slot.turnTo n) hgang hstrips
    refine ⟨M.setSlot b.hi ((M.slot b.hi).turnTo s.slot.ep), ?_, by rw [Core.setSlot_f, hf], by rw [Core.setSlot_queue, hq]⟩
    have hmod : s.modSlot (fun x => x.turnTo n) = s.setCore (s.core.setSlot s.hi (s.slot.turnTo n)) := rfl
    simp only [if_neg he, hmod, hM]
    refine congrArg Except.ok ?_
    rw [State.modSlot, State.setSlot, State.slot, State.core_setCore, State.setCore_setCore]
    rfl

/-- A command of one step that ends well has done its last step. -/
theorem whole_ok {f : Run1} {s b : State} {K : Core} {c e : Cmd} (hf : f c s = .ok (b.setCore K)) (hK : K.queue = [e]) (he : e.qpos = c.qpos) :
    whole f c s = .ok (b.setCore { K with queue := [{ e with done := true }] }) := by
  have hr : whole f c s = .ok ((b.setCore K).finishCmd c) := by
    simp only [whole, hf, bind, Except.bind, pure, Except.pure]
  rw [hr, State.finishCmd, State.modCmd, State.modCore_eq, State.core_setCore, State.setCore_setCore, hK]
  simp [replFirst, he]

section
variable {s u : State} {cl core : Nat} {o : OpM4} {c : Cmd} {n gvl : Nat} {key : Nat × Nat} {xs took : List Nat}

/-- What a queued command of VLDG does on behalf of another member's strip. -/
theorem deliver_pump (hqueue : u.core.queue = [c]) (hhi : c.hi = u.hi) (hins : c.ins = .vldg o) (hin : u.slot.gang.getLsbD 63 = true)
    (hmine : u.myGang.isSome = true) (hgvl : gvl = fld u.slot.gang 19 10) (hle : gvl ≤ vlmax (vtSew c.vtype)) (hn : n = u.slot.strips)
    (hkey : key = (o.d.toNat, vtSewCode c.vtype)) (hrank : fld u.slot.gang 16 3 ≠ 0)
    (hstrip : u.myGang.bind (fun g => g.strip n) = some (key, xs, took)) :
    ∃ M, u.pump (fun c s => match c.ins with | .vldg o => effVldg o c s | _ => .ok s) c.qpos = .ok ((u.tookStrip n).setCore M, false) ∧
      M.f = stripFiles u.core.f o.d.toNat (stripWrite (u.vreg o.d.toNat) (vtSew c.vtype) xs) ∧
      M.queue = [{ c with tr := (gvl, gvl, c.tr.2.2.1, c.tr.2.2.2), done := true }] := by
  have hne : u.core.queue ≠ [] := by rw [hqueue]; exact List.cons_ne_nil _ _
  have hcmd : u.core.cmd c.qpos = some c := by simp [Core.cmd, hqueue, firstSat]
  obtain ⟨M, hM, hf, hq⟩ := inView_ok (b := u.tookStrip n) (f := effVldg o c)
    (F := stripFiles u.core.f o.d.toNat (stripWrite (u.vreg o.d.toNat) (vtSew c.vtype) xs))
    (Q := [{ c with tr := (gvl, gvl, c.tr.2.2.1, c.tr.2.2.2), done := true }]) (c.viewNo (u.core.slot c.hi)) hne fun x hgang hstrips => by
      have hx : (u.core.setSlot u.hi x).slot u.hi = x := Core.slot_setSlot _ _ _
      have hstep := vldgStep_takes (s := u) (K := u.core.setSlot u.hi x) (e := c) (c := c) (o := o) (by rw [Core.setSlot_queue, hqueue]) rfl
        (by rw [hx, hgang]; exact hin) hmine (by rw [hx, hgang]; exact hgvl) hle (by rw [hx, hstrips]; exact hn) hkey
        (by rw [hx, hgang]; exact hrank) hstrip
      have hdone := whole_ok hstep rfl rfl
      exact ⟨_, hdone, congrArg (fun f : Files => stripFiles f o.d.toNat (stripWrite (f.v[o.d.toNat]?.getD 0) (vtSew c.vtype) xs))
        (Core.setSlot_f u.core u.hi x), rfl⟩
  refine ⟨M, ?_, hf, hq⟩
  have hdone : (((u.tookStrip n).setCore M).core.cmd c.qpos).elim true (·.done) = true := by
    rw [State.core_setCore, Core.cmd, hq]
    simp [firstSat]
  have hplace : ({ u with hi := c.hi } : State) = u := by rw [hhi]
  unfold State.pump
  simp only [hcmd, hplace, hins, hM, hdone, Bool.not_true]
  rfl
/-- R260: a strip that rank 0 has fetched lands in a member's register. -/
theorem vldgDeliver_runs (hu : u = s.at_ cl core false) (hqueue : u.core.queue = [c]) (hhi : c.hi = false) (hins : c.ins = .vldg o)
    (hena : c.ena = false) (hdisp : c.disp = true) (hdone : c.done = false) (hflt : c.faulted = false) (hin : u.slot.gang.getLsbD 63 = true)
    (hmine : u.myGang.isSome = true) (hgvl : gvl = fld u.slot.gang 19 10) (hle : gvl ≤ vlmax (vtSew c.vtype)) (hn : n = u.slot.strips)
    (hkey : key = (o.d.toNat, vtSewCode c.vtype)) (hrank : fld u.slot.gang 16 3 ≠ 0)
    (hstrip : u.myGang.bind (fun g => g.strip n) = some (key, xs, took)) (hlen : xs.length = gvl) (hx : ∀ x ∈ xs, x < 2 ^ vtSew c.vtype) :
    Runs (.vldgDeliver cl core) s (fun t => (t.cl, t.co, t.hi) = (s.cl, s.co, s.hi) ∧ (t.at_ cl core false).core.queue = [] ∧
      (∀ k, k ≠ o.d.toNat → (t.at_ cl core false).vreg k = u.vreg k) ∧ t.mem = s.mem ∧
      ∀ e, e < vlmax (vtSew c.vtype) → elem ((t.at_ cl core false).vreg o.d.toNat) (vtSew c.vtype) e =
        if e < gvl then xs[e]?.getD 0 else elem (u.vreg o.d.toNat) (vtSew c.vtype) e) := by
  obtain ⟨M, hpump, hf, hq⟩ := deliver_pump hqueue (hhi.trans (by rw [hu]; rfl)) hins hin hmine hgvl hle hn hkey hrank hstrip
  have htr : ({ c with tr := (gvl, gvl, c.tr.2.2.1, c.tr.2.2.2), done := true } : Cmd).traces = false := by
    simp [Cmd.traces, hena]
  have hret := retireCmd_single (s := (u.tookStrip n).setCore M) (q := c.qpos)
    (e := { c with tr := (gvl, gvl, c.tr.2.2.1, c.tr.2.2.2), done := true }) (by rw [State.core_setCore, hq]) rfl rfl
  rw [traceCmd_setCore, htr, if_neg Bool.false_ne_true, State.modCore_eq, State.core_setCore, State.setCore_setCore] at hret
  have hstep : u.stepCmd (fun c s => match c.ins with | .vldg o => effVldg o c s | _ => .ok s) c.qpos =
      .ok (((u.tookStrip n).setCore M).retireCmd c.qpos) := by
    rw [State.stepCmd, State.drive, hpump]
  have hexec : exec (.vldgDeliver cl core) s = .next ((((u.tookStrip n).setCore M).retireCmd c.qpos).at_ s.cl s.co s.hi) := by
    change execVldgDeliver cl core s = _
    unfold execVldgDeliver
    refine onCore_ok ?_
    rw [← hu]
    simp only [hqueue, firstSat, hdisp, hdone, hflt, hins, Bool.not_false, Bool.and_self, if_true]
    exact hstep
  have hpl : (u.tookStrip n).cl = cl ∧ (u.tookStrip n).co = core ∧ (u.tookStrip n).hi = false ∧ (u.tookStrip n).mem = s.mem := by
    rw [hu]
    exact ⟨rfl, rfl, rfl, rfl⟩
  rw [hret] at hexec
  generalize hR : Core.setSlot _ _ _ = R at hexec
  have hRf : R.f = M.f := by rw [← hR, Core.setSlot_f]
  have hRq : R.queue = [] := by
    rw [← hR, Core.setSlot_queue]
    simp [hq, dropFirst]
  generalize u.tookStrip n = b at hexec hpl
  obtain ⟨h1, h2, h3, h4⟩ := hpl
  have hcore : (((b.setCore R).at_ s.cl s.co s.hi).at_ cl core false).core = R := by
    rw [← h1, ← h2]
    exact State.core_setCore b R
  refine ⟨_, hexec, rfl, by rw [hcore, hRq], fun k hk => ?_, h4, vreg_landed (s := u) o.d.isLt ?_ hx hlen⟩
  · rw [State.vreg, hcore, hRf, hf, stripFiles, Vector.getElem?_setIfInBounds_ne (Ne.symm hk)]
    rfl
  · rw [hcore, hRf, hf]
    rfl
end

/-- R64, R259, R260, R277. -/
theorem gangsFormShareAndEnd : GangsFormShareAndEnd := by
  refine ⟨fun s o _ h => gangon_traps h, fun s o w hs hwf hw hlegal hout => ⟨fun g hg hf => ?_, fun g hnone hg hother hall => ?_, fun hempty hone => ?_⟩,
    fun s o g hs hwf hin hg hall hbusy => gangoff_runs hs hwf hin hg hall hbusy,
    fun s o n gvl key loc xs u hq _ hin hmine hgvl hle hn hkey => ⟨fun hrank hreach hxs hu => vldg_loads hq hin hmine hgvl hle hn hkey hrank hreach hxs hu,
      fun took hrank hstrip hlen hx hspc hbase => vldg_takes hq hin hmine hgvl hle hn hkey hrank hstrip hlen hx hspc hbase⟩,
    fun s u cl core o c n gvl key xs took hu hqueue hhi hins _ hena hdisp hdone hflt hin hmine hgvl hle hn hkey hrank hstrip hlen hx =>
      vldgDeliver_runs hu hqueue hhi hins hena hdisp hdone hflt hin hmine hgvl hle hn hkey hrank hstrip hlen hx⟩
  · subst hw
    exact gangon_runs hs hwf hlegal (gangOn_formed hout hg hf) rfl rfl
  · subst hw
    exact gangon_runs hs hwf hlegal (gangOn_completes hout hnone hg hother hall) rfl rfl
  · subst hw
    exact gangon_runs hs hwf hlegal (gangOn_alone hout hempty hone) rfl (by rw [gangRank_alone hone])

/-- Settles O31, from PHASE and the fences, and from the forms of the gangs. -/
theorem phasesFencesAndGangs : Obligations.PhasesFencesAndGangs := ⟨phasesAndFences, gangsFormShareAndEnd⟩

end Sys2Proof.Machine
end

section
/-! SUPPORT. Tiles: MZERO, the row and column moves (R170, R173). -/

namespace Sys2Proof.Machine

/-- The state in which a command begins to work. -/
theorem ticketCore_working (t : Ticket) (s : State) (len : BitVec 3) (n : Nat) :
    s.setCore (t.core s len n) = working s (t.core s len n) (t.cmd s len n) (popF s.core.f len) 0 0 := by
  have hq := t.core_queue s len n
  rw [← t.core_f s len n]
  unfold working
  refine congrArg s.setCore ?_
  generalize t.core s len n = K at hq ⊢
  cases K
  subst hq
  rfl
/-- A form without a length whose command works on the register files of a quiet core. -/
theorem engine_runs_plain {t : Ticket} {f : Run1} {s : State} {g : Files} {fl mrs : Nat} (hq : s.Quiet) (hl : t.lens = []) (hp : t.push = none)
    (hw : waitsForNothing t.ins = true) (hr : t.ranges = [])
    (hf : f (t.cmd s 0 s.slot.vl) (working s (t.core s 0 s.slot.vl) (t.cmd s 0 s.slot.vl) (popF s.core.f 0) 0 0) =
      .ok (working s (t.core s 0 s.slot.vl) (t.cmd s 0 s.slot.vl) g fl mrs)) :
    ∃ u, engine t (whole f) s = .next u ∧ FilesRun t.eng t.ins 0 g fl mrs s u := by
  refine engine_runs_from (m := s.slot.vl) (c := t.cmd s 0 s.slot.vl) (len := 0) (n := s.slot.vl) hq (.inr ⟨hl, rfl⟩) hp rfl hw hr (fun _ => rfl) hq.free rfl rfl rfl ?_
  rw [ticketCore_working]
  exact hf

/-- R170. -/
theorem mzero_runs {s : State} (d : BitVec 6) (hq : s.Quiet) : Runs (.mzero d) s (fun t =>
    EngineFrame .mat (.mzero d) [] [] [d.toNat] [] [] 0 s t ∧ Advanced s t ∧ t.slot.status = s.slot.status ∧
      t.areg d.toNat = if d.toNat < 4 then 0 else s.areg d.toNat) := by
  obtain ⟨u, hexec, hrun⟩ := engine_runs_plain (s := s) (t := { eng := .mat, ins := .mzero d, wr := [.a d.toNat] })
    (f := fun _ s => .ok (s.setA d.toNat 0)) hq rfl rfl (by rfl) rfl (by rw [working_setA])
  refine ⟨u, hexec, hrun.frame ((FilesFrame.popF _ _ _ _ _ _ _).setA _ (List.mem_singleton.mpr rfl)), hrun.advanced, hrun.status_same, ?_⟩
  rw [hrun.areg]
  by_cases hd : d.toNat < 4
  · rw [if_pos hd, getD_setIfInBounds _ _ _ _ _ hd, if_pos rfl]
  · rw [if_neg hd, State.areg]
    have hout : ∀ v : Vector Tile 4, v[d.toNat]? = none := fun v => Vector.getElem?_eq_none (by omega)
    rw [hout, hout]

/-! ### Row and column moves (R173) -/

/-- The command that a move commits. -/
def moveTicket (s : State) (i : Instr) (o : OpV4) (out : Bool) : Ticket :=
  { eng := .mat, ins := i, lens := [o.len], gb := s.g o.b, rd := [.m o.msk.toNat, .v o.d.toNat, .a o.a.toNat],
    wr := if out then [.v o.d.toNat] else [.a o.a.toNat] }
/-- A move out of a tile, and one into it, as one step. -/
def moveOutStep (o : OpV4) (ext : Nat) (at_ : Nat → Nat → Nat) : Run1 := fun c s =>
  let n := min (c.len o.len (vtVlmax c.vtype)) ext
  .ok (s.setV o.d.toNat (maskedWrite (s.vreg o.d.toNat) 32 (s.mreg o.msk.toNat) (min n 128) (fun j => elem (s.areg o.a.toNat) 32 (at_ c.gb.toNat j))))
/-- The tile after the active elements below n have been set. -/
def movedIn (m : MReg) (n : Nat) (at_ : Nat → Nat) (v : VReg) (t : Tile) : Tile :=
  (actives m n).foldl (fun t j => setElem t 32 (at_ j) (elem v 32 j)) t
def moveInStep (o : OpV4) (ext : Nat) (at_ : Nat → Nat → Nat) : Run1 := fun c s =>
  .ok (s.setA o.a.toNat (movedIn (s.mreg o.msk.toNat) (min (c.len o.len (vtVlmax c.vtype)) ext) (at_ c.gb.toNat) (s.vreg o.d.toNat) (s.areg o.a.toNat)))

theorem mem_actives {m : MReg} {n i : Nat} : i ∈ actives m n ↔ i < n ∧ flag m i = true := by
  simp [actives, below]
theorem elem_setWord (t : Tile) (v : VReg) (p a k : Nat) (hk : k < 12288) :
    elem (setElem t 32 p (elem v 32 a)) 32 k = if k = p then elem v 32 a else elem t 32 k := by
  rw [elem_setElem _ _ _ _ _ (by omega)]
  split
  · exact Nat.mod_eq_of_lt (Nat.mod_lt _ (Nat.two_pow_pos _))
  · rfl
/-- A word of the tile to which no active element goes. -/
theorem elem_foldl_miss {at_ : Nat → Nat} (v : VReg) {k : Nat} (hk : k < 12288) (l : List Nat) (hno : ∀ i ∈ l, k ≠ at_ i) :
    ∀ t : Tile, elem (l.foldl (fun t j => setElem t 32 (at_ j) (elem v 32 j)) t) 32 k = elem t 32 k := by
  induction l with
  | nil => exact fun t => rfl
  | cons a r ih =>
    exact fun t => (ih (fun i hi => hno i (List.mem_cons_of_mem _ hi)) _).trans
      ((elem_setWord t v _ a k hk).trans (if_neg (hno a (List.mem_cons_self ..))))
/-- A word of the tile to which one active element goes. -/
theorem elem_foldl_hit {at_ : Nat → Nat} (v : VReg) {j : Nat} (hk : at_ j < 12288) (l : List Nat) (hinj : ∀ i, at_ i = at_ j → i = j) (hj : j ∈ l) :
    ∀ t : Tile, elem (l.foldl (fun t j => setElem t 32 (at_ j) (elem v 32 j)) t) 32 (at_ j) = elem v 32 j := by
  induction l with
  | nil => exact absurd hj List.not_mem_nil
  | cons a r ih =>
    intro t
    by_cases hr : j ∈ r
    · exact ih hr _
    · have hja : j = a := (List.mem_cons.mp hj).resolve_right hr
      subst hja
      exact (elem_foldl_miss v hk r (fun i hi hij => hr (hinj i hij.symm ▸ hi)) _).trans ((elem_setWord t v _ j _ hk).trans (if_pos rfl))
section
variable {at_ : Nat → Nat} {m : MReg} {n : Nat} {v : VReg} {t : Tile}

theorem elem_movedIn {j : Nat} (hk : at_ j < 12288) (hinj : ∀ i, at_ i = at_ j → i = j) :
    elem (movedIn m n at_ v t) 32 (at_ j) = if j < n ∧ flag m j = true then elem v 32 j else elem t 32 (at_ j) := by
  split
  · next h => exact elem_foldl_hit v hk _ hinj (mem_actives.mpr h) t
  · next h => exact elem_foldl_miss v hk _ (fun i hi hij => h (hinj i hij.symm ▸ mem_actives.mp hi)) t
theorem elem_movedIn_other {k : Nat} (hk : k < 12288) (hno : ∀ i, i < n → k ≠ at_ i) : elem (movedIn m n at_ v t) 32 k = elem t 32 k :=
  elem_foldl_miss v hk _ (fun i hi => hno i (mem_actives.mp hi).1) t
end

/-! ### What is left of a move -/

section
variable {s : State} {i : Instr} {o : OpV4} {ext lim n : Nat} {out : Bool} {at_ : Nat → Nat → Nat}

theorem moveForm_eq {eff : Run1} (h : (s.g o.b).toNat < lim) : moveForm o i lim out eff s = engine (moveTicket s i o out) eff s := by
  unfold moveForm
  rw [decide_eq_true h]
  rfl
theorem moveForm_traps {eff : Run1} (he : exec i s = moveForm o i lim out eff s) (h : lim ≤ (s.g o.b).toNat) :
    Traps i true 0x03 0x04 s.slot.pc s := by
  refine traps_of (code := 0x03) (sub := 0x04) ?_ (by decide) (by decide)
  rw [he, moveForm, decide_eq_false (by omega)]
  rfl
theorem moveOut_runs (he : exec i s = moveForm o i lim true (whole (moveOutStep o ext at_)) s) (hw : waitsForNothing i = true) (hext : ext ≤ 128)
    (hq : s.Quiet) (h : (s.g o.b).toNat < lim) (hn : LenIs s o.len n) :
    Runs i s (fun t => EngineFrame .mat i [o.d.toNat] [] [] [] [] o.len s t ∧ Advanced s t ∧ t.slot.status = s.slot.status ∧
      LaneResult s t o.d.toNat 32 (min (lengthOf s o.len n) ext) o.msk (fun j => elem (s.areg o.a.toNat) 32 (at_ (s.g o.b).toNat j))) := by
  have hlen : ((moveTicket s i o true).cmd s o.len n).len o.len (vtVlmax s.slot.vtype) = lengthOf s o.len n := len_popped _ _ _ _ _ hn
  have hmin : min (min (lengthOf s o.len n) ext) 128 = min (lengthOf s o.len n) ext := by omega
  obtain ⟨u, hexec, hrun⟩ := engine_runs_from (m := n) (c := (moveTicket s i o true).cmd s o.len n)
    (g := { popF s.core.f o.len with v := (popF s.core.f o.len).v.setIfInBounds o.d.toNat (maskedWrite (s.vreg o.d.toNat) 32 (s.mreg o.msk.toNat)
      (min (lengthOf s o.len n) ext) (fun j => elem (s.areg o.a.toNat) 32 (at_ (s.g o.b).toNat j))) })
    (fl := 0) (mrs := 0) (f := moveOutStep o ext at_) hq (.inl rfl) rfl hn hw rfl (fun _ => rfl) hq.free rfl (by rfl) rfl (by
      have hc : ((moveTicket s i o true).cmd s o.len n).vtype = s.slot.vtype := rfl
      have hb : ((moveTicket s i o true).cmd s o.len n).gb = s.g o.b := rfl
      have hm := (moveTicket s i o true).core_mreg s o.len n o.msk.toNat
      unfold moveOutStep
      rw [hm, ticketCore_working, hc, hb, hlen]
      simp only [working_setV, working_vreg, working_areg, popF_vreg, popF_areg, hmin])
  refine ⟨u, he.trans ((moveForm_eq h).trans hexec), hrun.frame ((FilesFrame.popF _ _ _ _ _ _ _).setV _ (List.mem_singleton.mpr rfl)), hrun.advanced,
    hrun.status_same, laneResult_of ?_⟩
  rw [hrun.vreg, getD_setIfInBounds _ _ _ _ _ o.d.isLt, if_pos rfl]
theorem moveIn_runs (he : exec i s = moveForm o i lim false (whole (moveInStep o ext at_)) s) (hw : waitsForNothing i = true) (ha : o.a.toNat < 4)
    (hat : ∀ j, j < ext → at_ (s.g o.b).toNat j < 12288) (hinj : ∀ j k, at_ (s.g o.b).toNat j = at_ (s.g o.b).toNat k → j = k)
    (hq : s.Quiet) (h : (s.g o.b).toNat < lim) (hn : LenIs s o.len n) :
    Runs i s (fun t => EngineFrame .mat i [] [] [o.a.toNat] [] [] o.len s t ∧ Advanced s t ∧ t.slot.status = s.slot.status ∧
      (∀ j, j < ext → elem (t.areg o.a.toNat) 32 (at_ (s.g o.b).toNat j) =
        if j < lengthOf s o.len n ∧ (s.mreg o.msk.toNat).getLsbD j = true then elem (s.vreg o.d.toNat) 32 j
        else elem (s.areg o.a.toNat) 32 (at_ (s.g o.b).toNat j)) ∧
      ∀ k, k < 12288 → (∀ j, j < ext → k ≠ at_ (s.g o.b).toNat j) → elem (t.areg o.a.toNat) 32 k = elem (s.areg o.a.toNat) 32 k) := by
  have hlen : ((moveTicket s i o false).cmd s o.len n).len o.len (vtVlmax s.slot.vtype) = lengthOf s o.len n := len_popped _ _ _ _ _ hn
  obtain ⟨u, hexec, hrun⟩ := engine_runs_from (m := n) (c := (moveTicket s i o false).cmd s o.len n)
    (g := { popF s.core.f o.len with a := (popF s.core.f o.len).a.setIfInBounds o.a.toNat (movedIn (s.mreg o.msk.toNat)
      (min (lengthOf s o.len n) ext) (at_ (s.g o.b).toNat) (s.vreg o.d.toNat) (s.areg o.a.toNat)) })
    (fl := 0) (mrs := 0) (f := moveInStep o ext at_) hq (.inl rfl) rfl hn hw rfl (fun _ => rfl) hq.free rfl (by rfl) rfl (by
      have hc : ((moveTicket s i o false).cmd s o.len n).vtype = s.slot.vtype := rfl
      have hb : ((moveTicket s i o false).cmd s o.len n).gb = s.g o.b := rfl
      have hm := (moveTicket s i o false).core_mreg s o.len n o.msk.toNat
      unfold moveInStep
      rw [hm, ticketCore_working, hc, hb, hlen]
      simp only [working_setA, working_vreg, working_areg, popF_vreg, popF_areg])
  have htile : u.areg o.a.toNat = movedIn (s.mreg o.msk.toNat) (min (lengthOf s o.len n) ext) (at_ (s.g o.b).toNat) (s.vreg o.d.toNat) (s.areg o.a.toNat) := by
    rw [hrun.areg, getD_setIfInBounds _ _ _ _ _ ha, if_pos rfl]
  refine ⟨u, he.trans ((moveForm_eq h).trans hexec), hrun.frame ((FilesFrame.popF _ _ _ _ _ _ _).setA _ (List.mem_singleton.mpr rfl)), hrun.advanced,
    hrun.status_same, fun j hj => ?_, fun k hk hno => ?_⟩
  · rw [htile, elem_movedIn (hat j hj) (fun k hjk => hinj k j hjk)]
    have hiff : (j < min (lengthOf s o.len n) ext ∧ flag (s.mreg o.msk.toNat) j = true) ↔
        (j < lengthOf s o.len n ∧ (s.mreg o.msk.toNat).getLsbD j = true) := by
      exact ⟨fun ⟨h1, h2⟩ => ⟨by omega, h2⟩, fun ⟨h1, h2⟩ => ⟨by omega, h2⟩⟩
    exact if_congr hiff rfl rfl
  · rw [htile, elem_movedIn_other hk (fun i hi => hno i (by omega))]
end

/-- R173: the four moves. -/
theorem moves_run (s : State) (i : Instr) (o : OpV4) (ext lim : Nat) (out : Bool) (w : Nat → Nat → Nat) (n : Nat)
    (hi : tileMove i = some (o, ext, lim, out, w)) (hwf : i.WellFormed) :
    (lim ≤ (s.g o.b).toNat → Traps i true 0x03 0x04 s.slot.pc s) ∧
    (s.Quiet → (s.g o.b).toNat < lim → LenIs s o.len n → out = true →
      Runs i s (fun t => EngineFrame .mat i [o.d.toNat] [] [] [] [] o.len s t ∧ Advanced s t ∧ t.slot.status = s.slot.status ∧
        LaneResult s t o.d.toNat 32 (min (lengthOf s o.len n) ext) o.msk
          (fun j => elem (s.areg o.a.toNat) 32 (w (s.g o.b).toNat j)))) ∧
    (s.Quiet → (s.g o.b).toNat < lim → LenIs s o.len n → out = false →
      Runs i s (fun t => EngineFrame .mat i [] [] [o.a.toNat] [] [] o.len s t ∧ Advanced s t ∧ t.slot.status = s.slot.status ∧
        (∀ j, j < ext → elem (t.areg o.a.toNat) 32 (w (s.g o.b).toNat j) =
          if j < lengthOf s o.len n ∧ (s.mreg o.msk.toNat).getLsbD j = true then elem (s.vreg o.d.toNat) 32 j
          else elem (s.areg o.a.toNat) 32 (w (s.g o.b).toNat j)) ∧
        ∀ k, k < 12288 → (∀ j, j < ext → k ≠ w (s.g o.b).toNat j) →
          elem (t.areg o.a.toNat) 32 k = elem (s.areg o.a.toNat) 32 k)) := by
  have hrow : (fun x j : Nat => x * 96 + j) = fun x j => 96 * x + j := by funext x j; omega
  have hcol : (fun x j : Nat => j * 96 + x) = fun x j => 96 * j + x := by funext x j; omega
  unfold tileMove at hi
  split at hi <;> simp only [Option.some.injEq, Prod.mk.injEq, reduceCtorEq] at hi
  all_goals
    obtain ⟨rfl, rfl, rfl, rfl, rfl⟩ := hi
  next o =>
    have he : exec (.mrowv o) s = moveForm o (.mrowv o) 128 true (whole (moveOutStep o 96 (fun x j => 96 * x + j))) s := by
      rw [← hrow]; rfl
    exact ⟨moveForm_traps he, fun hq h hn _ => moveOut_runs he (by rfl) (by decide) hq h hn, fun _ _ _ h => absurd h (by decide)⟩
  next o =>
    have he : exec (.mvrow o) s = moveForm o (.mvrow o) 128 false (whole (moveInStep o 96 (fun x j => 96 * x + j))) s := by
      rw [← hrow]; rfl
    have ha : o.a.toNat < 4 := by
      simp [Instr.WellFormed, Instr.defect] at hwf
      obtain ⟨-, -, ha, -⟩ := hwf
      exact ha
    exact ⟨moveForm_traps he, fun _ _ _ h => absurd h (by decide),
      fun hq h hn _ => moveIn_runs he (by rfl) ha (fun j hj => by omega) (fun j k h => by omega) hq h hn⟩
  next o =>
    have he : exec (.mcolv o) s = moveForm o (.mcolv o) 96 true (whole (moveOutStep o 128 (fun x j => 96 * j + x))) s := by
      rw [← hcol]; rfl
    exact ⟨moveForm_traps he, fun hq h hn _ => moveOut_runs he (by rfl) (by decide) hq h hn, fun _ _ _ h => absurd h (by decide)⟩
  next o =>
    have he : exec (.mvcol o) s = moveForm o (.mvcol o) 96 false (whole (moveInStep o 128 (fun x j => 96 * j + x))) s := by
      rw [← hcol]; rfl
    have ha : o.a.toNat < 4 := by
      simp [Instr.WellFormed, Instr.defect] at hwf
      obtain ⟨-, -, ha, -⟩ := hwf
      exact ha
    exact ⟨moveForm_traps he, fun _ _ _ h => absurd h (by decide),
      fun hq h hn _ => moveIn_runs he (by rfl) ha (fun j hj => by omega) (fun j k h => by omega) hq h hn⟩

end Sys2Proof.Machine
end

section
/-! SUPPORT. Tile images in memory: the digits of a tile, the checks at commit, MLDT and MSTT (R164, R171, R172). -/

namespace Sys2Proof.Machine

/-! ### Digits of numbers (R9, R47) -/

theorem ofDigits_div_mod {b : Nat} (hb : 0 < b) (l : List Nat) (h : ∀ x ∈ l, x < b) : ∀ i, Nat.ofDigits b l / b ^ i % b = l[i]?.getD 0 := by
  induction l with
  | nil => intro i; simp
  | cons a r ih =>
    intro i
    have ha := h a (List.mem_cons_self ..)
    have hr := ih fun x hx => h x (List.mem_cons_of_mem _ hx)
    have hval : Nat.ofDigits b (a :: r) = a + b * Nat.ofDigits b r := by rw [Nat.ofDigits_cons]
    rw [hval]
    cases i with
    | zero => simp [Nat.add_mul_mod_self_left, Nat.mod_eq_of_lt ha]
    | succ i =>
      rw [Nat.pow_succ', ← Nat.div_div_eq_div_mul, Nat.add_mul_div_left _ _ hb, Nat.div_eq_of_lt ha, Nat.zero_add, hr i]
      rfl
theorem leNat_eq (l : List Byte) : leNat l = Nat.ofDigits 256 (l.map (·.toNat)) := by
  induction l with
  | nil => rfl
  | cons b r ih => rw [leNat, ih, List.map_cons, Nat.ofDigits_cons]
/-- A byte of a number read from memory. -/
theorem bytesOf_byte (s : State) (spc : BitVec 3) (loc : Nat) {n j : Nat} (hj : j < n) :
    bytesOf s spc loc n / 256 ^ j % 256 = (byteOf s spc (loc + j)).toNat := by
  have hsmall : ∀ x ∈ ((List.range n).map (fun k => byteOf s spc (loc + k))).map (·.toNat), x < 256 := by
    intro x hx
    obtain ⟨b, -, rfl⟩ := List.mem_map.mp hx
    exact b.isLt
  rw [bytesOf, leNat_eq, ofDigits_div_mod (by decide) _ hsmall]
  simp [hj]
/-- A byte of a line of a tile. -/
theorem elem_line {n : Nat} (r : BitVec n) (l j : Nat) (hj : j < 64) : elem r 8 (64 * l + j) = elem r 512 l / 256 ^ j % 256 := by
  apply Nat.eq_of_testBit_eq
  intro k
  have h256 : (256 : Nat) ^ j = 2 ^ (8 * j) := by rw [Nat.pow_mul]
  rw [h256, show (256 : Nat) = 2 ^ 8 by decide, Nat.testBit_mod_two_pow, Nat.testBit_div_two_pow, testBit_elem, testBit_elem]
  by_cases hk : k < 8
  · have hin : k + 8 * j < 512 := by omega
    simp [hk, hin, show 8 * (64 * l + j) + k = 512 * l + (k + 8 * j) by omega]
  · simp [hk]
theorem foldr_lines (l : List (Nat × Nat)) : l.foldr (fun x acc => x.2 + 2 ^ 512 * acc) 0 = Nat.ofDigits (2 ^ 512) (l.map (·.2)) := by
  induction l with
  | nil => rfl
  | cons x r ih => rw [List.foldr_cons, ih, List.map_cons, Nat.ofDigits_cons]
/-- A line of the tile that 768 lines make. -/
theorem elem_lines {x : Nat → Nat} (hx : ∀ l, x l < 2 ^ 512) {l : Nat} (hl : l < 768) :
    elem (BitVec.ofNat 393216 (((List.range 768).map (fun l => (l, x l))).foldr (fun x acc => x.2 + 2 ^ 512 * acc) 0)) 512 l = x l := by
  have hdig := ofDigits_div_mod (b := 2 ^ 512) (Nat.two_pow_pos 512) ((List.range 768).map x) (by
    intro y hy
    obtain ⟨k, -, rfl⟩ := List.mem_map.mp hy
    exact hx k) l
  have hfold : ((List.range 768).map (fun l => (l, x l))).foldr (fun x acc => x.2 + 2 ^ 512 * acc) 0 = Nat.ofDigits (2 ^ 512) ((List.range 768).map x) := by
    rw [foldr_lines, List.map_map]
    rfl
  have hget : ((List.range 768).map x)[l]?.getD 0 = x l := by simp [hl]
  rw [hfold, ← hget, ← hdig]
  generalize Nat.ofDigits (2 ^ 512) ((List.range 768).map x) = N
  apply Nat.eq_of_testBit_eq
  intro k
  rw [testBit_elem, BitVec.getLsbD_ofNat, ← Nat.pow_mul, Nat.testBit_mod_two_pow, Nat.testBit_div_two_pow]
  by_cases hk : k < 512
  · have hin : k + 512 * l < 393216 := by omega
    simp [hk, Nat.add_comm (512 * l) k, hin]
  · simp [hk]

/-! ### The checks at commit (R164, R171) -/

/-- A holder of every line of a range holds the range. -/
theorem notHolder_lines {K : Core} {spc ea m : Nat} (h : ∀ l, l < m → K.notHolder spc (ea + 64 * l) 64 = false) : K.notHolder spc ea (64 * m) = false := by
  rw [Core.notHolder, List.any_eq_false]
  intro e he
  by_cases hmeet : overlap e.off e.len ea (64 * m) = true
  · have hline (l : Nat) (hl : l < m) (ho : overlap e.off e.len (ea + 64 * l) 64 = true) :
        ¬(e.home.isNone && e.buf == spc && e.buf != 0 && !e.held && overlap e.off e.len ea (64 * m)) = true := by
      have := h l hl
      rw [Core.notHolder, List.any_eq_false] at this
      have := this e he
      rw [ho] at this
      rw [hmeet]
      exact this
    simp only [overlap, decide_eq_true_eq] at hmeet hline
    rcases Nat.lt_or_ge ea e.off with hlt | hge
    · exact hline ((e.off - ea) / 64) (by omega) (by omega)
    · exact hline 0 (by omega) (by omega)
  · simp [hmeet]
section
variable {s : State} {spc : BitVec 3} {base : Word} {m : Nat} {acc : Acc} {loc : Nat → Nat}

/-- The checks at commit of an image whose lines are all admitted. -/
theorem checkImage_ok (hm : 0 < m) (halign : base.toNat % 64 = 0) (hfit : spc ≠ 0 → base.toNat + 64 * m ≤ bufSize spc.toNat)
    (hreach : ∀ l, l < m → Reaches s spc (base.toNat + 64 * l) 64 acc (loc l)) : s.checkImage spc.toNat base.toNat (64 * m) acc = .ok () := by
  unfold State.checkImage
  by_cases h0 : spc = 0
  · obtain ⟨hal, hx⟩ := hreach (m - 1) (by omega)
    rw [if_pos h0] at hx
    obtain ⟨hlt, -⟩ := hx
    have hle : base.toNat + 64 * m ≤ 2 ^ 54 := by omega
    rw [if_pos ((spc_toNat_eq_zero spc).mpr h0), decide_eq_true hle, need_true, halign]
    rfl
  · rw [if_neg (fun hz => h0 ((spc_toNat_eq_zero spc).mp hz)), decide_eq_true (hfit h0), need_true, halign]
    rfl
/-- The check of an image's holder at dispatch. -/
theorem checkHolder_ok {K : Core} (hK : K.h = s.core.h) (hreach : ∀ l, l < m → Reaches s spc (base.toNat + 64 * l) 64 acc (loc l)) :
    (s.setCore K).checkHolder spc.toNat base.toNat (64 * m) = .ok () := by
  unfold State.checkHolder
  by_cases h0 : spc = 0
  · rw [(spc_toNat_eq_zero spc).mpr h0]
    rfl
  · have hhold : K.notHolder spc.toNat base.toNat (64 * m) = false := notHolder_lines fun l hl => by
      obtain ⟨-, hx⟩ := hreach l hl
      rw [if_neg h0] at hx
      obtain ⟨-, -, hno, -⟩ := hx
      rw [Core.notHolder, hK]
      exact hno
    rw [State.core_setCore, hhold, Bool.not_false, Bool.or_true, need_true]
end

/-! ### MLDT and MSTT (R171, R172) -/

/-- The command that a tile form commits. -/
def tileTicket (s : State) (i : Instr) (o : OpMT) (st : Bool) : Ticket :=
  { eng := .mat, ins := i, ga := s.g o.base, ranges := [⟨o.spc.toNat, (s.g o.base).toNat, (s.g o.base).toNat + tileBytes - 1, st⟩],
    rd := if st then [.a o.d.toNat] else [], wr := if st then [] else [.a o.d.toNat] }
def mldtStep (o : OpMT) : Run1 := fun c s => do
  s.checkHolder o.spc.toNat c.ga.toNat (64 * 768)
  let (xs, s) ← loadElems (fun i => c.ga.toNat + 64 * i) (loadOne o.spc (fun i => c.ga.toNat + 64 * i) 64) (List.range 768) s
  pure (s.setA o.d.toNat (BitVec.ofNat 393216 (xs.foldr (fun x acc => x.2 + 2 ^ 512 * acc) 0)))
theorem effMldt_eq (o : OpMT) : effMldt o = whole (mldtStep o) := rfl
def msttStep (o : OpMT) : Run1 := fun c s => do
  s.checkHolder o.spc.toNat c.ga.toNat (64 * 768)
  storeElems c.qpos (fun i => c.ga.toNat + 64 * i) (storeOne o.spc (fun i => c.ga.toNat + 64 * i) (elem (s.areg o.d.toNat) 512) 64)
    ((List.range 768).filter (fun i => decide (c.resume ≤ i))) s
theorem effMstt_eq (o : OpMT) : effMstt o = whole (msttStep o) := rfl
section
variable {s : State} {i : Instr} {o : OpMT} {st : Bool} {loc : Nat → Nat}

theorem tileForm_eq {eff : Run1} (hfull : s.full = true ∨ o.f64 = false) (halign : (s.g o.base).toNat % 64 = 0)
    (hfit : o.spc ≠ 0 → (s.g o.base).toNat + 49152 ≤ bufSize o.spc.toNat)
    (hreach : ∀ l, l < 768 → Reaches s o.spc ((s.g o.base).toNat + 64 * l) 64 (if st then .wr else .rd) (loc l)) :
    tileForm o i st eff s = engine (tileTicket s i o st) eff s := by
  have hunit : (s.full || !o.f64) = true := by
    rcases hfull with h | h <;> simp [h]
  have hok := checkImage_ok (m := 768) (by decide) halign hfit hreach
  unfold tileForm
  rw [hunit]
  simp only [need_true, show tileBytes = 64 * 768 from rfl, hok]
  rfl
theorem translates_ticketCore (t : Ticket) (s : State) (len : BitVec 3) (n : Nat) : Translates s (t.core s len n) := by
  rw [Ticket.core_eq]
  cases s.hi <;> exact ⟨rfl, rfl, rfl⟩
end

end Sys2Proof.Machine
end

section
/-! SUPPORT. MLDT and MSTT as instructions (R171, R172). -/

namespace Sys2Proof.Machine

/-- The core in which a command begins to work, its files and its queue said apart. -/
def Ticket.begun (t : Ticket) (s : State) (len : BitVec 3) (n : Nat) : Core :=
  { t.core s len n with f := popF s.core.f len, queue := [{ t.cmd s len n with flags := 0, mrs := 0 }] }
theorem Ticket.core_begun (t : Ticket) (s : State) (len : BitVec 3) (n : Nat) : t.core s len n = t.begun s len n := by
  have hq := t.core_queue s len n
  unfold Ticket.begun
  rw [← t.core_f s len n]
  generalize t.core s len n = K at hq ⊢
  cases K
  subst hq
  rfl
/-- An engine form whose command moves bytes over a base of its own: it completes and leaves them. -/
theorem engine_moves {t : Ticket} {f : Run1} {s b : State} {len : BitVec 3} {n m : Nat} {c : Cmd} {g : Files} {fl mrs : Nat} {K : Core}
    (hq : s.Quiet) (hl : t.lens = [len] ∨ (t.lens = [] ∧ len = 0)) (hp : t.push = none) (hn : LenIs s len n)
    (hw : waitsForNothing t.ins = true) (hr : t.ranges.length ≤ 64) (hb : b.hi = s.hi) (hfree : b.Free) (hqp : c.qpos = s.core.qpos)
    (heng : c.eng = t.eng) (hhi : c.hi = b.hi) (hmoved : Core.Moved { t.core b len m with f := g, queue := [{ c with flags := fl, mrs := mrs }] } K)
    (hf : f (t.cmd s len n) (s.setCore (t.core s len n)) = .ok (b.setCore K)) :
    ∃ u, engine t (whole f) s = .next u ∧ MemRun t.eng t.ins len g fl mrs b u K :=
  ⟨_, engine_step hq hl hp hn (fixedRanges_of_waitsForNothing hw) (copyReady_of_waitsForNothing hw) hr hf hb hmoved.queue hqp,
    memRun_ended hfree heng hhi hmoved⟩
/-- Every byte reads in the core of a command as before. -/
theorem byteOf_ticketCore {s : State} (hs : s.Free) (t : Ticket) (len : BitVec 3) (n : Nat) (c : BitVec 3) (a : Nat) :
    byteOf (s.setCore (t.core s len n)) c a = byteOf s c a := by
  obtain ⟨h1, h2⟩ := sameBytes_ticketCore hs t len n
  unfold byteOf
  rw [h1, h2]
theorem bytesOf_ticketCore {s : State} (hs : s.Free) (t : Ticket) (len : BitVec 3) (n : Nat) (c : BitVec 3) (loc m : Nat) :
    bytesOf (s.setCore (t.core s len n)) c loc m = bytesOf s c loc m := by
  unfold bytesOf
  simp only [byteOf_ticketCore hs]
/-- Register files hold no byte of memory. -/
theorem seen_withF (s : State) (K : Core) (g : Files) (l : Nat) : (s.setCore { K with f := g }).seen l = (s.setCore K).seen l := seen_congr rfl rfl
theorem held_withF (s : State) (K : Core) (g : Files) (b a : Nat) : (s.setCore { K with f := g }).held b a = (s.setCore K).held b a := by
  rw [held_setCore, held_setCore]
  rfl
section
variable {s : State} {o : OpMT} {loc : Nat → Nat}

/-- R171, R172: MLDT. -/
theorem mldt_runs (hq : s.Quiet) (hwf : Instr.WellFormed (.mldt o)) (hfull : s.full = true ∨ o.f64 = false)
    (halign : (s.g o.base).toNat % 64 = 0) (hfit : o.spc ≠ 0 → (s.g o.base).toNat + 49152 ≤ bufSize o.spc.toNat)
    (hreach : ∀ l, l < 768 → Reaches s o.spc ((s.g o.base).toNat + 64 * l) 64 .rd (loc l) ∧ Readable s o.spc 64 (loc l)) :
    Runs (.mldt o) s (fun t => t = s.setCore t.core ∧ SameBytes s t ∧ Advanced s t ∧ t.slot.status = s.slot.status ∧
      t.slot.rfout = s.slot.rfout ∧ MemFrame .mat (.mldt o) [] [o.d.toNat] [] [] 0 s t ∧
      ∀ k, k < 49152 → elem (t.areg o.d.toNat) 8 k = (byteOf s o.spc (loc (k / 64) + k % 64)).toNat) := by
  have hd : o.d.toNat < 4 := by
    simp [Instr.WellFormed, Instr.defect] at hwf
    exact hwf.1
  have hlines (l : Nat) (hl : l < 768) := (hreach l hl).1
  generalize ht : tileTicket s (.mldt o) o false = t
  have hga : (t.cmd s 0 s.slot.vl).ga = s.g o.base := by rw [← ht]; rfl
  have hcore := t.core_begun s 0 s.slot.vl
  have htr := translates_ticketCore t s 0 s.slot.vl
  have hhold := checkHolder_ok (m := 768) (K := t.core s 0 s.slot.vl) htr.2.2 hlines
  obtain ⟨V, hload, hseen⟩ := loadElems_eq (s := s) (spc := o.spc) (ad := fun i => (s.g o.base).toNat + 64 * i) (loc := loc) (n := 64)
    (List.range 768) (t.core s 0 s.slot.vl) htr (fun e he => hreach e (List.mem_range.mp he))
  simp only [bytesOf_ticketCore hq.free] at hload
  generalize htile : BitVec.ofNat 393216 (((List.range 768).map (fun e => (e, bytesOf s o.spc (loc e) 64))).foldr
    (fun x acc => x.2 + 2 ^ 512 * acc) 0) = tile
  have hstep : mldtStep o (t.cmd s 0 s.slot.vl) (s.setCore (t.core s 0 s.slot.vl)) =
      .ok (s.setCore { (t.begun s 0 s.slot.vl).looked s.hi V with
        f := { popF s.core.f 0 with a := (popF s.core.f 0).a.setIfInBounds o.d.toNat tile } }) := by
    unfold mldtStep
    rw [hga, hhold]
    simp only [bind, Except.bind, hload, pure, Except.pure, htile]
    rw [State.setA, modF_setCore, hcore]
    refine congrArg (fun K => Except.ok (s.setCore K)) ?_
    cases s.hi <;> rfl
  have hmoved : Core.Moved { t.core s 0 s.slot.vl with
      f := { popF s.core.f 0 with a := (popF s.core.f 0).a.setIfInBounds o.d.toNat tile }, queue := [{ t.cmd s 0 s.slot.vl with flags := 0, mrs := 0 }] }
      { (t.begun s 0 s.slot.vl).looked s.hi V with
        f := { popF s.core.f 0 with a := (popF s.core.f 0).a.setIfInBounds o.d.toNat tile } } :=
    (Core.Moved.looked (t.begun s 0 s.slot.vl) s.hi V).withF _
  have hexec : exec (.mldt o) s = engine t (whole (mldtStep o)) s := by
    rw [← ht]
    exact tileForm_eq hfull halign hfit hlines
  obtain ⟨u, hengine, hrun⟩ := engine_moves (t := t) (m := s.slot.vl) (c := t.cmd s 0 s.slot.vl) hq (.inr ⟨by rw [← ht]; rfl, rfl⟩) (by rw [← ht]; rfl)
    (lenIs_vl s) (by rw [← ht]; rfl) (by rw [← ht]; exact Nat.le_add_left 1 63) rfl hq.free rfl rfl rfl hmoved hstep
  have hins : t.ins = .mldt o := by rw [← ht]; rfl
  have heng : t.eng = .mat := by rw [← ht]; rfl
  rw [hins, heng] at hrun
  refine ⟨u, hexec.trans hengine, hrun.outside, ⟨fun l => ?_, fun b a => ?_⟩, hrun.advanced, hrun.status.trans (statusWith_zero _), hrun.rfout,
    hrun.frame ((FilesFrame.popF _ _ _ _ _ _ _).setA _ (List.mem_singleton.mpr rfl)), fun k hk => ?_⟩
  · refine (hrun.bytes 0 l).trans ?_
    change State.seen _ l = _
    rw [seen_withF, ← hcore, hseen, (sameBytes_ticketCore hq.free t 0 s.slot.vl).1]
  · rw [hrun.held, held_withF, ← hcore, held_setCore, Core.buf_looked, ← held_setCore s, (sameBytes_ticketCore hq.free t 0 s.slot.vl).2]
  · have hline (l : Nat) : bytesOf s o.spc (loc l) 64 < 2 ^ 512 := by
      have h := bytesOf_lt s o.spc (loc l) 64
      rwa [show 8 * 64 = 512 by decide] at h
    have hk' : 64 * (k / 64) + k % 64 = k := Nat.div_add_mod k 64
    rw [State.areg, hrun.files, getD_setIfInBounds _ _ _ _ _ hd, if_pos rfl, ← htile, ← hk', elem_line _ _ _ (by omega),
      elem_lines (x := fun e => bytesOf s o.spc (loc e) 64) hline (by omega), bytesOf_byte _ _ _ (by omega), hk']

theorem buffersWf_ticketCore (t : Ticket) {s : State} (h : ∀ b, (s.core.buf b).wf = true) (len : BitVec 3) (n : Nat) : (t.core s len n).BuffersWf := by
  intro b
  have hbuf : (t.core s len n).buf b = s.core.buf b := by
    rw [Ticket.core_eq]
    unfold Core.buf
    split <;> simp
  rw [hbuf]
  exact h b
/-- R171, R172: MSTT. -/
theorem mstt_runs (hq : s.Quiet) (hwf : Instr.WellFormed (.mstt o)) (hfull : s.full = true ∨ o.f64 = false)
    (halign : (s.g o.base).toNat % 64 = 0) (hfit : o.spc ≠ 0 → (s.g o.base).toNat + 49152 ≤ bufSize o.spc.toNat)
    (hbuf : ∀ spc, (s.core.buf spc).wf = true)
    (hreach : ∀ l, l < 768 → Reaches s o.spc ((s.g o.base).toNat + 64 * l) 64 .wr (loc l)) :
    Runs (.mstt o) s (fun t => t = s.setCore t.core ∧ Advanced s t ∧ t.slot.status = s.slot.status ∧
      t.slot.rfout = s.slot.rfout ∧ MemFrame .mat (.mstt o) [] [] [] [] 0 s t ∧
      (∀ x, byteOf t o.spc x = ((List.range 768).reverse.find? (fun l => decide (loc l ≤ x) && decide (x < loc l + 64))).elim (byteOf s o.spc x)
        (fun l => BitVec.ofNat 8 (elem (s.areg o.d.toNat) 8 (64 * l + (x - loc l))))) ∧
      ∀ spc x, spc ≠ o.spc → byteOf t spc x = byteOf s spc x) := by
  have hspc : o.spc.toNat ≤ 3 := by
    simp [Instr.WellFormed, Instr.defect] at hwf
    obtain ⟨-, h⟩ := hwf
    simp [spcBad] at h
    omega
  generalize ht : tileTicket s (.mstt o) o true = t
  have hga : (t.cmd s 0 s.slot.vl).ga = s.g o.base := by rw [← ht]; rfl
  have htr := translates_ticketCore t s 0 s.slot.vl
  have hhold := checkHolder_ok (m := 768) (K := t.core s 0 s.slot.vl) htr.2.2 hreach
  have hstore := storeElems_eq (s := s) (spc := o.spc) (ad := fun i => (s.g o.base).toNat + 64 * i) (loc := loc) (n := 64)
    (x := elem (s.areg o.d.toNat) 512) (q := (t.cmd s 0 s.slot.vl).qpos) (List.range 768) (t.core s 0 s.slot.vl) htr (fun e he => hreach e (List.mem_range.mp he))
  have htile : (s.setCore (t.core s 0 s.slot.vl)).areg o.d.toNat = s.areg o.d.toNat := by
    rw [State.areg, State.core_setCore, t.core_f, popF_areg]
  have hall : (List.range 768).filter (fun i => decide ((t.cmd s 0 s.slot.vl).resume ≤ i)) = List.range 768 :=
    List.filter_eq_self.mpr fun i _ => decide_eq_true (Nat.zero_le i)
  have hstep : msttStep o (t.cmd s 0 s.slot.vl) (s.setCore (t.core s 0 s.slot.vl)) =
      .ok (s.setCore ((t.begun s 0 s.slot.vl).wroteAll s.xl.age o.spc 64 loc (elem (s.areg o.d.toNat) 512) (List.range 768))) := by
    unfold msttStep
    simp only [hga, hhold, htile, hall, ← t.core_begun, bind, Except.bind, hstore]
  obtain ⟨u, hengine, hrun⟩ := engine_moves (t := t) (m := s.slot.vl) (c := t.cmd s 0 s.slot.vl) hq (.inr ⟨by rw [← ht]; rfl, rfl⟩) (by rw [← ht]; rfl)
    (lenIs_vl s) (by rw [← ht]; rfl) (by rw [← ht]; exact Nat.le_add_left 1 63) rfl hq.free rfl rfl rfl
    (Core.Moved.wroteAll s.xl.age o.spc 64 loc (elem (s.areg o.d.toNat) 512) (List.range 768) (t.begun s 0 s.slot.vl)) hstep
  have hexec : exec (.mstt o) s = engine t (whole (msttStep o)) s := by
    rw [← ht]
    exact tileForm_eq hfull halign hfit hreach
  have hins : t.ins = .mstt o := by rw [← ht]; rfl
  have heng : t.eng = .mat := by rw [← ht]; rfl
  rw [hins, heng] at hrun
  generalize List.range 768 = els at hrun ⊢
  have hbyte (c : BitVec 3) (x : Nat) := (hrun.bytes c x).trans (byteOf_wroteAll hspc 64 loc (elem (s.areg o.d.toNat) 512) c x els
    (t.begun s 0 s.slot.vl) (t.core_begun s 0 s.slot.vl ▸ buffersWf_ticketCore t hbuf 0 s.slot.vl))
  simp only [← t.core_begun, byteOf_ticketCore hq.free] at hbyte
  refine ⟨u, hexec.trans hengine, hrun.outside, hrun.advanced, hrun.status.trans (statusWith_zero _), hrun.rfout,
    hrun.frame (FilesFrame.popF _ _ _ _ _ _ _), fun x => ?_, fun c x hc => (hbyte c x).trans (if_neg hc)⟩
  refine (hbyte o.spc x).trans ((if_pos rfl).trans ?_)
  cases hfind : els.reverse.find? (fun l => decide (loc l ≤ x) && decide (x < loc l + 64)) with
  | none => rfl
  | some l =>
    have hin := List.find?_some hfind
    simp only [Bool.and_eq_true, decide_eq_true_eq] at hin
    refine BitVec.eq_of_toNat_eq ?_
    simp only [Option.elim_some]
    rw [BitVec.toNat_ofNat, BitVec.toNat_ofNat, elem_line _ _ _ (by omega)]
    exact (Nat.mod_mod _ _).symm
end

/-- R170 to R173. -/
theorem tilesMove : TilesMove :=
  ⟨fun _ d hq => mzero_runs d hq,
    fun _ _ _ hq hwf hfull halign hfit hreach => mldt_runs hq hwf hfull halign hfit hreach,
    fun s o loc hq hwf hfull halign hfit hbuf hreach => by
      obtain ⟨t, hexec, hout, hadv, hst, hrf, hframe, hbyte, hother⟩ := mstt_runs hq hwf hfull halign hfit hbuf hreach
      refine ⟨t, hexec, hout, hadv, hst, hrf, hframe, fun x => ?_, hother⟩
      rw [hbyte x]
      generalize (List.range 768).reverse.find? (fun l => decide (loc l ≤ x) && decide (x < loc l + 64)) = r
      cases r <;> rfl,
    fun s i o ext lim out w n hi hwf => moves_run s i o ext lim out w n hi hwf⟩

end Sys2Proof.Machine
end

section
/-! SUPPORT. The chain of a drain: MCHAIN and MSETC (R174, R177). -/

namespace Sys2Proof.Machine

/-! ### A change of the streams of a core (R66) -/

theorem free_modSt {s : State} (hs : s.Free) (f : Streams → Streams) : (s.modSt f).Free := by
  have h : (s.modSt f).slot = s.slot := by
    rw [State.modSt, State.slot, State.core_modCore]
    cases h : s.hi <;> simp [State.slot, Core.slot, h]
  rw [State.Free, h]
  exact hs
theorem slot_modSt (s : State) (f : Streams → Streams) : (s.modSt f).slot = s.slot := by
  rw [State.modSt, State.slot, State.core_modCore]
  cases h : s.hi <;> simp [State.slot, Core.slot, h]
/-- A command at work that changes the streams works over the state whose streams are changed. -/
theorem working_modSt {t : Ticket} (heng : t.eng = .mat) {s : State} (hs : s.Free) (f : Streams → Streams) (len : BitVec 3) (n m : Nat) (c : Cmd)
    (g : Files) (fl mrs : Nat) : (working s (t.core s len n) c g fl mrs).modSt f = working (s.modSt f) (t.core (s.modSt f) len m) c g fl mrs := by
  have hst (u : State) : (u.beginVec t.eng t.ins).core.st = u.core.st := by rw [heng]; rfl
  have hcore : (s.modSt f).core = { s.core with st := f s.core.st } := State.core_modCore _ _
  have hret : (s.modSt f).retire.slot = s.retire.slot := by
    rw [State.slot_retire (free_modSt hs f), State.slot_retire hs, slot_modSt]
  rw [Ticket.core_eq, Ticket.core_eq, hst, hst, hcore, hret, show (s.modSt f).hi = s.hi from rfl, State.modSt, State.modCore_eq, working_core, working, working, State.setCore_setCore,
    State.modSt, State.modCore_eq, State.setCore_setCore]
  refine congrArg s.setCore ?_
  cases s.hi <;> rfl

/-- An engine form of the matrix array whose command changes the streams alone. -/
theorem engine_runs_streams {t : Ticket} {step : Run1} {s : State} {f : Streams → Streams} (hq : s.Quiet) (heng : t.eng = .mat) (hl : t.lens = []) (hp : t.push = none)
    (hw : waitsForNothing t.ins = true) (hr : t.ranges = [])
    (hf : ∀ u : State, u.core.st = s.core.st → step (t.cmd s 0 s.slot.vl) u = .ok (u.modSt f)) :
    ∃ u, engine t (whole step) s = .next u ∧ FilesRun .mat t.ins 0 (popF s.core.f 0) 0 0 (s.modSt f) u := by
  have hst : (t.core s 0 s.slot.vl).st = s.core.st := by
    rw [Ticket.core_eq, Core.setSlot_st, heng]
    rfl
  rw [← heng]
  refine engine_runs_from (m := s.slot.vl) (c := t.cmd s 0 s.slot.vl) (len := 0) (n := s.slot.vl) hq (.inr ⟨hl, rfl⟩) hp rfl hw hr
    (fun K => (State.setCore_setCore s _ K).symm) (free_modSt hq.free f) rfl rfl rfl ?_
  rw [hf _ (by rw [State.core_setCore, hst]), ticketCore_working, working_modSt heng hq.free f 0 s.slot.vl s.slot.vl]
/-- MCHAIN and MSETC as one step. -/
def mchainStep (o : OpG8) : Run1 := fun _ s => do
  let ns := chainOf o.imm 8
  let running := s.core.st.graph.state == .running
  need (ns.all (fun n => (s.fnode n).elim false (fun x => decide (cfgMode x.cfg < 8) && !(running && cfgG x.cfg))))
    (Trap.opndAt 0x07 ((firstSat (fun n => !(s.fnode n).elim false (fun x => decide (cfgMode x.cfg < 8) && !(running && cfgG x.cfg))) ns).getD 0)) s
  pure (s.modSt (fun t => { t with chain := ns }))
def msetcStep (o : OpG8) : Run1 := fun c s => do
  need (s.fnode (16 + o.a.toNat)).isSome (Trap.opndAt 0x07 (16 + o.a.toNat)) s
  pure (s.modNode (16 + o.a.toNat) (fun x => { x with const := if o.c = 0 then o.imm.toNat else fld c.gb 0 32 }))
/-- The streams of a core whose node n has a constant set. -/
def constSet (n x : Nat) (t : Streams) : Streams :=
  { t with graph := { t.graph with nodes := put n { (look n t.graph.nodes).getD (Node.ofWord 0 0) with const := x } t.graph.nodes } }
section
variable {s : State} {o : OpG8}

/-- R174: MCHAIN. -/
theorem mchain_runs (hq : s.Quiet) {ns : List Nat} (hns : ns = chainOf o.imm 8)
    (hok : ∀ n ∈ ns, ∃ x, s.fnode n = some x ∧ cfgMode x.cfg < 8 ∧ ¬(s.core.st.graph.state = .running ∧ cfgG x.cfg = true)) :
    Runs (.mchain o) s (fun t => EngineFrame .mat (.mchain o) [] [] [] [] [] 0 (s.modSt (fun x => { x with chain := ns })) t ∧
      Advanced s t ∧ t.slot.status = s.slot.status) := by
  subst hns
  have hall : (chainOf o.imm 8).all (fun n => (s.fnode n).elim false (fun x => decide (cfgMode x.cfg < 8) &&
      !((s.core.st.graph.state == .running) && cfgG x.cfg))) = true := by
    rw [List.all_eq_true]
    intro n hn
    obtain ⟨x, hx, hmode, hrun⟩ := hok n hn
    rw [hx, Option.elim_some, decide_eq_true hmode, Bool.true_and, Bool.not_eq_true', Bool.eq_false_iff]
    intro h
    rw [Bool.and_eq_true, beq_iff_eq] at h
    exact hrun h
  obtain ⟨u, hexec, hrun⟩ := engine_runs_streams (s := s) (t := { eng := .mat, ins := .mchain o, wr := [.chain] }) (step := mchainStep o)
    (f := fun x => { x with chain := chainOf o.imm 8 }) hq rfl rfl rfl (by rfl) rfl fun u hu => by
      have hnode (n : Nat) : u.fnode n = s.fnode n := by rw [State.fnode, State.fnode, hu]
      unfold mchainStep
      simp only [hnode, hu, hall, need_true]
      rfl
  have hadv := hrun.advanced
  have hst := hrun.status_same
  rw [Advanced, slot_modSt] at hadv
  rw [slot_modSt] at hst
  refine ⟨u, hexec, hrun.frame ?_, hadv, hst⟩
  rw [State.modSt, State.core_modCore]
  exact FilesFrame.popF _ _ _ _ _ _ _
/-- R177: MSETC. -/
theorem msetc_runs (hq : s.Quiet) (hnode : (s.fnode (16 + o.a.toNat)).isSome = true) :
    Runs (.msetc o) s (fun t => EngineFrame .mat (.msetc o) [] [] [] [] [] 0
        (s.modNode (16 + o.a.toNat) (fun x => { x with const := if o.c = 0 then o.imm.toNat else (s.g o.b).toNat % 2 ^ 32 })) t ∧
      Advanced s t ∧ t.slot.status = s.slot.status) := by
  obtain ⟨u, hexec, hrun⟩ := engine_runs_streams (s := s) (t := { eng := .mat, ins := .msetc o, gb := s.g o.b, wr := [.chain] }) (step := msetcStep o)
    (f := constSet (16 + o.a.toNat) (if o.c = 0 then o.imm.toNat else (s.g o.b).toNat % 2 ^ 32)) hq rfl rfl rfl (by rfl) rfl fun u hu => by
      have hsame : u.fnode (16 + o.a.toNat) = s.fnode (16 + o.a.toNat) := by rw [State.fnode, State.fnode, hu]
      have hfld : fld (s.g o.b) 0 32 = (s.g o.b).toNat % 2 ^ 32 := by simp [fld]
      unfold msetcStep
      simp only [hsame, hnode, need_true]
      rw [← hfld]
      rfl
  have hadv := hrun.advanced
  have hst := hrun.status_same
  rw [Advanced, slot_modSt] at hadv
  rw [slot_modSt] at hst
  refine ⟨u, hexec, hrun.frame ?_, hadv, hst⟩
  rw [State.modSt, State.core_modCore]
  exact FilesFrame.popF _ _ _ _ _ _ _
end
end Sys2Proof.Machine
end

section
/-! SUPPORT. What a drain stores: its elements with their draws, its lines, and the core after some of its lines (R65, R175, R176). -/

namespace Sys2Proof.Machine

/-! ### The encodings of a drain lie within their format (R37) -/

/-- A result rounded once lies within its format, under SAT too. -/
theorem fround_lt_of_sound {f : FF} (hf : f.Sound) (rm : Nat) (sat : Bool) (draw : Nat) (x : FV) : (fround f rm sat draw x).1 < 2 ^ f.w := by
  have hw : 2 ^ f.w = 2 ^ (f.w - 1) + 2 ^ (f.w - 1) := by
    rw [← Nat.two_mul, ← Nat.pow_succ', Nat.succ_eq_add_one, Nat.sub_add_cancel hf.wide]
  have hnan := hf.nanFits
  have h0 : 0 < 2 ^ (f.w - 1) := Nat.two_pow_pos _
  cases x with
  | nan sig => simp only [fround, hf.nanIs, if_true]; omega
  | inf neg =>
    simp only [fround]
    split
    · exact signed_lt hf neg hf.infinity
    · split
      · change f.nan < 2 ^ f.w
        omega
      · exact signed_lt hf neg (overBits_lt hf rm true neg)
  | num neg m e =>
    simp only [fround]
    split
    · split <;> omega
    · next hm => exact roundRat_lt hf rm sat draw neg m e hm
theorem drainFormat_sound {fmt : Nat} (h : fmt < 6) : (fmtOf fmt).Sound := by
  interval_cases fmt <;> constructor <;> decide
theorem drainFormat_width {fmt : Nat} (h : fmt < 6) : (fmtOf fmt).w = 8 * fmtBytes fmt := by
  interval_cases fmt <;> rfl
theorem drained_lt (s : State) (a : Nat) {fmt : Nat} (h : fmt < 6) (e : Nat) : (drained s a fmt e).1 < 2 ^ (8 * fmtBytes fmt) := by
  rw [← drainFormat_width h]
  exact fround_lt_of_sound (drainFormat_sound h) _ _ _ _

/-! ### One element (R65, R175) -/

/-- A core whose slot's generators are replaced. -/
def Core.regen (K : Core) (hi : Bool) (g : BitVec 16384) : Core := K.setSlot hi { K.slot hi with gens := g }
theorem Core.regen_regen (K : Core) (hi : Bool) (g g' : BitVec 16384) : (K.regen hi g).regen hi g' = K.regen hi g' := by cases hi <;> rfl
theorem Core.regen_same (K : Core) (hi : Bool) : K.regen hi (K.slot hi).gens = K := by cases hi <;> rfl
theorem Core.regen_queue (K : Core) (hi : Bool) (g : BitVec 16384) : (K.regen hi g).queue = K.queue := Core.setSlot_queue _ _ _
theorem Core.regen_gens (K : Core) (hi : Bool) (g : BitVec 16384) : ((K.regen hi g).slot hi).gens = g := by
  rw [Core.regen, Core.slot_setSlot]
/-- The generators of a drain after its first n elements: they are drawn from under stochastic rounding alone. -/
def gensAfter (s : State) (fmt n : Nat) : BitVec 16384 := if vtRm s.slot.vtype = 4 then drainedGenerators s (fmt == 0) n else s.slot.gens
section
variable {s : State} {K : Core} {c e : Cmd} {a fmt : Nat}

theorem drainGens_at (hK : K.queue = [e]) (he : e.qpos = c.qpos) (hnone : e.gens = none) : (s.setCore K).drainGens c = (K.slot s.hi).gens := by
  have hcmd : (s.setCore K).core.cmd c.qpos = some e := by
    rw [State.core_setCore, Core.cmd, hK]
    simp [firstSat, he]
  rw [State.drainGens, hcmd, Option.bind_some, hnone, Option.getD_none, State.slot, State.core_setCore]
  rfl
theorem setDrainGens_at (hK : K.queue = [e]) (he : e.qpos = c.qpos) (hnone : e.gens = none) (g : BitVec 16384) :
    (s.setCore K).setDrainGens c g = s.setCore (K.regen s.hi g) := by
  have hcmd : (s.setCore K).core.cmd c.qpos = some e := by
    rw [State.core_setCore, Core.cmd, hK]
    simp [firstSat, he]
  rw [State.setDrainGens, hcmd, Option.bind_some, hnone, Option.isSome_none, if_neg Bool.false_ne_true, State.modSlot, State.setSlot, State.slot,
    State.core_setCore, State.setCore_setCore]
  rfl
theorem drain_generator (fmt j : Nat) : (j / (accShape (fmt == 0)).2 * 96 + j % (accShape (fmt == 0)).2) % 512 = drainGenerator (fmt == 0) j := by
  unfold drainGenerator accShape
  cases (fmt == 0)
  · change (j / 96 * 96 + j % 96) % 512 = j % 512
    rw [Nat.div_add_mod']
  · rfl
/-- Element j of a drain whose generators stand where its first j elements have left them. -/
theorem drainElem_at (hK : K.queue = [e]) (he : e.qpos = c.qpos) (hnone : e.gens = none) (hvt : c.vtype = s.slot.vtype) {j : Nat}
    (hg : (K.slot s.hi).gens = gensAfter s fmt j) :
    drainElem c fmt (s.areg a) (capturedChain s) j (s.setCore K) = (drained s a fmt j, s.setCore (K.regen s.hi (gensAfter s fmt (j + 1)))) := by
  have hw : (accShape (fmt == 0)).1 = accWidth (fmt == 0) := by cases (fmt == 0) <;> rfl
  unfold drainElem
  simp only [hvt, drain_generator, drainGens_at hK he hnone, setDrainGens_at hK he hnone, hg, hw]
  by_cases hrm : vtRm s.slot.vtype = 4
  · have hnow : gensAfter s fmt j = drainedGenerators s (fmt == 0) j := if_pos hrm
    have hnext : gensAfter s fmt (j + 1) = drainedGenerators s (fmt == 0) (j + 1) := if_pos hrm
    simp only [if_pos hrm, hnow, hnext]
    unfold drained
    simp only [if_pos hrm]
    rfl
  · have hsame : gensAfter s fmt (j + 1) = (K.slot s.hi).gens := by
      rw [hg]
      exact (if_neg hrm).trans (if_neg hrm).symm
    rw [hsame, Core.regen_same]
    simp only [if_neg hrm]
    unfold drained
    simp only [if_neg hrm]
    rfl

/-! ### One line (R176) -/

/-- The number that k elements of a drain from element j on make. -/
def lineFrom (s : State) (a fmt j k : Nat) : Nat := Nat.ofDigits (2 ^ (8 * fmtBytes fmt)) ((List.range' j k).map (fun e => (drained s a fmt e).1))
theorem drainLine_at (k : Nat) : ∀ (j : Nat) (K : Core), K.queue = [e] → e.qpos = c.qpos → e.gens = none → c.vtype = s.slot.vtype →
    (K.slot s.hi).gens = gensAfter s fmt j → ∃ fl, drainLine c fmt (s.areg a) (capturedChain s) (8 * fmtBytes fmt) k j (s.setCore K) =
      ((lineFrom s a fmt j k, fl), s.setCore (K.regen s.hi (gensAfter s fmt (j + k)))) := by
  induction k with
  | zero =>
    intro j K _ _ _ _ hg
    refine ⟨0, ?_⟩
    rw [Nat.add_zero, ← hg, Core.regen_same]
    rfl
  | succ k ih =>
    intro j K hK he hnone hvt hg
    obtain ⟨fl, hrest⟩ := ih (j + 1) (K.regen s.hi (gensAfter s fmt (j + 1))) ((Core.regen_queue _ _ _).trans hK) he hnone hvt (Core.regen_gens _ _ _)
    refine ⟨(drained s a fmt j).2 ||| fl, ?_⟩
    unfold drainLine
    rw [drainElem_at hK he hnone hvt hg]
    simp only [hrest, Core.regen_regen, lineFrom, List.range'_succ, List.map_cons, Nat.ofDigits_cons]
    rw [Nat.add_assoc, Nat.add_comm 1 k]
end
/-- A byte of a number is a byte of the digit in which it lies. -/
theorem byte_of_digit (N d : Nat) {es : Nat} (hes : 0 < es) : N / 256 ^ d % 256 = N / (2 ^ (8 * es)) ^ (d / es) % 2 ^ (8 * es) / 256 ^ (d % es) % 256 := by
  have h256 (k : Nat) : (256 : Nat) ^ k = 2 ^ (8 * k) := by rw [Nat.pow_mul]
  have hmod := Nat.mod_lt d hes
  have hd := Nat.div_add_mod d es
  apply Nat.eq_of_testBit_eq
  intro i
  rw [h256, h256, ← Nat.pow_mul, show (256 : Nat) = 2 ^ 8 by decide]
  simp only [Nat.testBit_mod_two_pow, Nat.testBit_div_two_pow]
  by_cases hi : i < 8
  · have hin : i + 8 * (d % es) < 8 * es := by omega
    have hpos : i + 8 * (d % es) + 8 * es * (d / es) = i + 8 * d := by
      rw [Nat.mul_assoc]
      omega
    simp only [hi, hin, hpos, decide_true, Bool.true_and]
  · simp only [hi, decide_false, Bool.false_and]
/-- A byte of a line is a byte of the element that lies there. -/
theorem lineFrom_byte (s : State) (a : Nat) {fmt : Nat} (h : fmt < 6) (j k : Nat) {d : Nat} (hd : d / fmtBytes fmt < k) :
    lineFrom s a fmt j k / 256 ^ d % 256 = (drained s a fmt (j + d / fmtBytes fmt)).1 / 256 ^ (d % fmtBytes fmt) % 256 := by
  have hes : 0 < fmtBytes fmt := by interval_cases fmt <;> decide
  have hsmall : ∀ x ∈ (List.range' j k).map (fun e => (drained s a fmt e).1), x < 2 ^ (8 * fmtBytes fmt) := by
    intro x hx
    obtain ⟨e, -, rfl⟩ := List.mem_map.mp hx
    exact drained_lt s a h e
  rw [byte_of_digit _ _ hes, lineFrom, ofDigits_div_mod (Nat.two_pow_pos _) _ hsmall]
  simp [hd]

end Sys2Proof.Machine
end

section
/-! SUPPORT. MDRAIN to memory: its lines in turn, and the instruction (R175, R176). -/

namespace Sys2Proof.Machine

/-- A store whose core passes, line by line, through the cores that `P` allows. -/
theorem storeElems_range {s : State} {q : Nat} {ad : Nat → Nat} {wr : State → Nat → M State} {P : Nat → Core → Prop} {m : Nat}
    (hstep : ∀ l K, l < m → P l K → ∃ K', wr (s.setCore K) l = .ok (s.setCore K') ∧ P (l + 1) K') (n : Nat) :
    ∀ (l : Nat) (K : Core), l + n = m → P l K → ∃ K', storeElems q ad wr (List.range' l n) (s.setCore K) = .ok (s.setCore K') ∧ P m K' := by
  induction n with
  | zero => exact fun l K hl hP => ⟨K, rfl, by rw [← hl]; exact hP⟩
  | succ n ih =>
    intro l K hl hP
    obtain ⟨K', hwr, hP'⟩ := hstep l K (by omega) hP
    obtain ⟨K'', hrest, hend⟩ := ih (l + 1) K' (by omega) hP'
    refine ⟨K'', ?_, hend⟩
    rw [List.range'_succ, storeElems, hwr]
    exact hrest

/-- What a drain does for one line. -/
def drainOne (c : Cmd) (spc : BitVec 3) (fmt : Nat) (t : Tile) (prog : List Nat) (ad : Nat → Nat) (s : State) (l : Nat) : M State := do
  let (p, s) ← s.access spc.toNat (ad l) 64 64 .wr
  let r := drainLine c fmt t prog (8 * fmtBytes fmt) (64 / fmtBytes fmt) (64 / fmtBytes fmt * l) s
  pure ((r.2.raise c r.1.2).writeSpot p r.1.1 64)

/-- The core `B` of a drain after l lines: its flags, its draws, and its bytes. -/
structure DrainedTo (s : State) (B : Core) (e : Cmd) (spc : BitVec 3) (a fmt : Nat) (loc : Nat → Nat) (l : Nat) (K : Core) : Prop where
  moved : ∃ fl, Core.Moved { B.regen s.hi (gensAfter s fmt (64 / fmtBytes fmt * l)) with queue := [{ e with flags := fl }] } K
  wf : K.BuffersWf
  bytes : ∀ c x, byteOf (s.setCore K) c x = if c = spc then
      ((List.range l).reverse.find? (fun l => decide (loc l ≤ x) && decide (x < loc l + 64))).elim (byteOf (s.setCore B) spc x)
        (fun l => BitVec.ofNat 8 (lineFrom s a fmt (64 / fmtBytes fmt * l) (64 / fmtBytes fmt) / 256 ^ (x - loc l)))
    else byteOf (s.setCore B) c x
section
variable {s : State} {B : Core} {c e : Cmd} {spc : BitVec 3} {a fmt m : Nat} {loc ad : Nat → Nat}

theorem Core.Moved.regen {K L : Core} (h : K.Moved L) (hi : Bool) (g : BitVec 16384) : (K.regen hi g).Moved (L.regen hi g) := by
  unfold Core.Moved Core.regen at *
  rw [h]
  cases hi <;> rfl
theorem buf_regen_queue (K : Core) (hi : Bool) (g : BitVec 16384) (l : List Cmd) (b : Nat) : Core.buf { K.regen hi g with queue := l } b = K.buf b := by
  unfold Core.regen Core.buf
  cases hi <;> rfl
/-- The generators and the queue hold no byte of memory. -/
theorem byteOf_regen_queue (s : State) (K : Core) (g : BitVec 16384) (l : List Cmd) (b : BitVec 3) (x : Nat) :
    byteOf (s.setCore { K.regen s.hi g with queue := l }) b x = byteOf (s.setCore K) b x := by
  have hseen : (s.setCore { K.regen s.hi g with queue := l }).seen x = (s.setCore K).seen x := by
    refine seen_congr ?_ ?_
    · unfold Core.regen
      cases s.hi <;> rfl
    · unfold Core.regen
      cases s.hi <;> rfl
  unfold byteOf
  rw [hseen, held_setCore, held_setCore, buf_regen_queue]
/-- One line of a drain. -/
theorem drainOne_next (htr : Translates s B) (he : e.qpos = c.qpos) (hnone : e.gens = none) (hvt : c.vtype = s.slot.vtype)
    (hspc : spc.toNat ≤ 3) (l : Nat) (K : Core) (hreach : Reaches s spc (ad l) 64 .wr (loc l)) (hK : DrainedTo s B e spc a fmt loc l K) :
    ∃ K', drainOne c spc fmt (s.areg a) (capturedChain s) ad (s.setCore K) l = .ok (s.setCore K') ∧ DrainedTo s B e spc a fmt loc (l + 1) K' := by
  obtain ⟨⟨fl, hmoved⟩, hwf, hbytes⟩ := hK
  have hqueue : K.queue = [{ e with flags := fl }] := hmoved.queue
  have htrB : Translates s { B.regen s.hi (gensAfter s fmt (64 / fmtBytes fmt * l)) with queue := [{ e with flags := fl }] } := by
    unfold Core.regen
    obtain ⟨h1, h2, h3⟩ := htr
    cases s.hi <;> exact ⟨h1, h2, h3⟩
  have hgens : (K.slot s.hi).gens = gensAfter s fmt (64 / fmtBytes fmt * l) := by
    rw [hmoved.slot s.hi]
    unfold Core.regen
    cases s.hi <;> rfl
  obtain ⟨f, hline⟩ := drainLine_at (s := s) (a := a) (fmt := fmt) (c := c) (64 / fmtBytes fmt) (64 / fmtBytes fmt * l) K hqueue he hnone hvt hgens
  have hnext : 64 / fmtBytes fmt * l + 64 / fmtBytes fmt = 64 / fmtBytes fmt * (l + 1) := rfl
  rw [hnext] at hline
  generalize hL : (K.regen s.hi (gensAfter s fmt (64 / fmtBytes fmt * (l + 1)))) = L at hline
  have hLqueue : L.queue = [{ e with flags := fl }] := by rw [← hL, Core.regen_queue, hqueue]
  have hone : drainOne c spc fmt (s.areg a) (capturedChain s) ad (s.setCore K) l =
      .ok (s.setCore (Core.wrote { L with queue := [{ e with flags := fl ||| f }] } s.xl.age spc (loc l)
        (lineFrom s a fmt (64 / fmtBytes fmt * l) (64 / fmtBytes fmt)) 64)) := by
    unfold drainOne
    rw [access_reaches (hmoved.translates htrB) hreach]
    simp only [bind, Except.bind, pure, Except.pure, hline]
    rw [raise_setCore _ _ _ _ _ hLqueue he, writeSpot_eq]
  have hLbytes (b : BitVec 3) (x : Nat) : byteOf (s.setCore { L with queue := [{ e with flags := fl ||| f }] }) b x = byteOf (s.setCore K) b x := by
    rw [← hL]
    exact byteOf_regen_queue s K _ _ b x
  have hLwf : Core.BuffersWf { L with queue := [{ e with flags := fl ||| f }] } := by
    intro b
    rw [← hL]
    exact (congrArg (fun m : Mem => m.wf) (buf_regen_queue K _ _ _ b)).trans (hwf b)
  refine ⟨_, hone, ⟨fl ||| f, Core.Moved.trans ?_ (Core.Moved.wrote _ _ _ _ _ _)⟩, hLwf.wrote _ hspc _ _ _, fun b x => ?_⟩
  · have hagain (g g' : BitVec 16384) (l l' : List Cmd) : ({ Core.regen { B.regen s.hi g with queue := l } s.hi g' with queue := l' } : Core) =
        { B.regen s.hi g' with queue := l' } := by
      unfold Core.regen
      cases s.hi <;> rfl
    have h := (hmoved.regen s.hi (gensAfter s fmt (64 / fmtBytes fmt * (l + 1)))).withQueue [{ e with flags := fl ||| f }]
    rw [hagain] at h
    rw [← hL]
    exact h
  · rw [byteOf_wrote hLwf hspc, hLbytes, hbytes b x, List.range_succ, List.reverse_append]
    by_cases hb : b = spc
    · by_cases hin : loc l ≤ x ∧ x < loc l + 64
      · simp [hb, hin]
      · have hno : (decide (loc l ≤ x) && decide (x < loc l + 64)) = false := by
          rw [Bool.and_eq_false_iff, decide_eq_false_iff_not, decide_eq_false_iff_not]
          tauto
        rw [if_neg (fun h => hin h.2)]
        simp [hb, hno]
    · rw [if_neg (fun h => hb h.1), if_neg hb, if_neg hb]
/-- The lines of a drain. -/
theorem drain_lines (htr : Translates s B) (he : e.qpos = c.qpos) (hnone : e.gens = none) (hvt : c.vtype = s.slot.vtype)
    (hspc : spc.toNat ≤ 3) (hreach : ∀ l, l < m → Reaches s spc (ad l) 64 .wr (loc l)) (hB : B.queue = [e]) (hBg : (B.slot s.hi).gens = s.slot.gens)
    (hwf : B.BuffersWf) : ∃ K, storeElems c.qpos ad (drainOne c spc fmt (s.areg a) (capturedChain s) ad) (List.range m) (s.setCore B) = .ok (s.setCore K) ∧
      DrainedTo s B e spc a fmt loc m K := by
  have hzero : DrainedTo s B e spc a fmt loc 0 B := by
    have hg : gensAfter s fmt (64 / fmtBytes fmt * 0) = (B.slot s.hi).gens := by
      rw [hBg]
      exact ite_self _
    refine ⟨⟨e.flags, ?_⟩, hwf, fun b x => ?_⟩
    · rw [hg, Core.regen_same, ← hB]
      exact Core.Moved.refl B
    · split
      · next h => rw [h]; rfl
      · rfl
  rw [List.range_eq_range']
  exact storeElems_range (m := m) (fun l K hl hK => drainOne_next htr he hnone hvt hspc l K (hreach l hl) hK) m 0 B (Nat.zero_add m) hzero
end

/-! ### MDRAIN as an instruction -/

/-- The command that MDRAIN commits. -/
def mdrainTicket (o : OpG8) (s : State) : Ticket :=
  { eng := .mat, ins := .mdrain o, gb := s.g o.b,
    ranges := [⟨fld o.imm 4 3, (s.g o.b).toNat, (s.g o.b).toNat + drainBytes (fld o.imm 0 4) - 1, true⟩],
    rd := [.a o.a.toNat, .chain] ++ (drainSr s.slot.vtype).1,
    wr := (if flag o.imm 8 then [.a o.a.toNat] else []) ++ (drainSr s.slot.vtype).2 }
/-- MDRAIN to memory as one step. -/
def mdrainStep (o : OpG8) : Run1 := fun c s => do
  s.checkHolder (o.imm.extractLsb' 4 3).toNat c.gb.toNat (drainBytes (fld o.imm 0 4))
  let (t, prog, s) ← drainStart o c s
  let s ← storeElems c.qpos (fun i => c.gb.toNat + 64 * i) (drainOne c (o.imm.extractLsb' 4 3) (fld o.imm 0 4) t prog (fun i => c.gb.toNat + 64 * i))
    ((List.range (drainBytes (fld o.imm 0 4) / 64)).filter (fun i => decide (c.resume ≤ i))) s
  pure (Sys2Proof.Machine.drainEnd o s)
theorem effMdrain_eq (o : OpG8) : effMdrain o = whole (mdrainStep o) := rfl

theorem drainBytes_lines {fmt : Nat} (h : fmt < 6) : 64 * (drainBytes fmt / 64) = drainBytes fmt ∧ 0 < drainBytes fmt / 64 ∧
    64 / fmtBytes fmt * (drainBytes fmt / 64) = drainBytes fmt / fmtBytes fmt ∧ 0 < fmtBytes fmt ∧ 64 / fmtBytes fmt * fmtBytes fmt = 64 := by
  interval_cases fmt <;> decide
theorem setCore_drainEnd (s : State) (K : Core) (o : OpG8) : Sys2Proof.Machine.drainEnd o (s.setCore K) = s.setCore (drainEnded o K) := by
  unfold Sys2Proof.Machine.drainEnd drainEnded
  split
  · exact modF_setCore _ _ _
  · rfl
/-- The register files after the end of a drain. -/
def drainEndedFiles (o : OpG8) (f : Files) : Files := if flag o.imm 8 then { f with a := f.a.setIfInBounds o.a.toNat 0 } else f
theorem drainEnded_eq (o : OpG8) (K : Core) : drainEnded o K = { K with f := drainEndedFiles o K.f } := by
  unfold drainEnded drainEndedFiles
  split <;> rfl
/-- Register files hold no byte of memory. -/
theorem byteOf_drainEnded (s : State) (K : Core) (o : OpG8) (b : BitVec 3) (x : Nat) :
    byteOf (s.setCore (drainEnded o K)) b x = byteOf (s.setCore K) b x := by
  rw [drainEnded_eq]
  unfold byteOf
  rw [seen_withF, held_withF]
section
variable {s : State} {o : OpG8} {loc : Nat → Nat} {fmt n : Nat} {spc : BitVec 3}

/-- What a drain fixes at its dispatch. -/
theorem drainStart_ok (hfit : ChainFits s fmt) (hfmt : fmt = fld o.imm 0 4) {K : Core} {c e : Cmd} (hK : K.queue = [e]) (he : e.qpos = c.qpos)
    (htile : c.tile = none) (hst : K.st = s.core.st) (ha : K.f.a[o.a.toNat]?.getD 0 = s.areg o.a.toNat) :
    drainStart o c (s.setCore K) = .ok (s.areg o.a.toNat, capturedChain s,
      s.setCore { K with queue := [{ e with tile := some (s.areg o.a.toNat), prog := capturedChain s }] }) := by
  subst hfmt
  obtain ⟨hnodes, hplain⟩ := hfit
  have hcore : (s.setCore K).core = K := State.core_setCore _ _
  have hfnode (m : Nat) : (s.setCore K).fnode m = s.fnode m := by rw [State.fnode, State.fnode, hcore, hst]
  have hnode (m : Nat) : (s.setCore K).node m = s.node m := by rw [State.node, State.node, hcore, hst]
  have harea : (s.setCore K).areg o.a.toNat = s.areg o.a.toNat := by rw [State.areg, hcore, ha]
  have hall : s.core.st.chain.all (fun m => (s.fnode m).elim false (fun x => decide (cfgMode x.cfg < 6))) = true := by
    rw [List.all_eq_true]
    intro m hm
    obtain ⟨x, hx, hmode⟩ := hnodes m hm
    rw [hx, Option.elim_some, decide_eq_true hmode]
  have hfirst : (fld o.imm 0 4 != 0 || s.core.st.chain.isEmpty) = true := by
    by_cases h0 : fld o.imm 0 4 = 0
    · rw [hplain h0]; simp
    · simp [h0]
  unfold drainStart
  simp only [htile, hcore, hst, hfnode, hnode, harea, hall, hfirst, Bool.and_self, need_true, bind, Except.bind, pure, Except.pure]
  rw [State.modCmd, State.modCore_eq, State.core_setCore, State.setCore_setCore, hK]
  simp [replFirst, he, capturedChain, hst]

theorem exec_mdrain (hfmt : fmt = fld o.imm 0 4) (hspc : spc = o.imm.extractLsb' 4 3) (hn : n = drainBytes fmt) (h6 : fmt < 6)
    (hfull : s.full = true ∨ fmt ≠ 0) (halign : (s.g o.b).toNat % 64 = 0) (hfit : spc ≠ 0 → (s.g o.b).toNat + n ≤ bufSize spc.toNat)
    (hreach : ∀ l, l < n / 64 → Reaches s spc ((s.g o.b).toNat + 64 * l) 64 .wr (loc l)) :
    exec (.mdrain o) s = engine (mdrainTicket o s) (whole (mdrainStep o)) s := by
  subst hn
  obtain ⟨hlines, hpos, -⟩ := drainBytes_lines h6
  have hok := checkImage_ok (m := drainBytes fmt / 64) hpos halign (by rw [hlines]; exact hfit) hreach
  rw [hlines] at hok
  subst hfmt hspc
  have hunit : (s.full || fld o.imm 0 4 != 0) = true := by
    rcases hfull with h | h <;> simp [h]
  change execMdrain o s = _
  unfold execMdrain
  have hfld : fld o.imm 4 3 = (o.imm.extractLsb' 4 3).toNat := rfl
  simp only [hunit, hfld, hok, need_true]
  rfl
theorem wellFormed_mdrain (h : Instr.WellFormed (.mdrain o)) : fld o.imm 0 4 < 6 ∧ (o.imm.extractLsb' 4 3).toNat ≤ 3 := by
  simp [Instr.WellFormed, Instr.defect, OpG8.defectMdrain, immf] at h
  obtain ⟨-, -, -, hfmt, -, hspc⟩ := h
  have h1 := of_decide_eq_false hfmt
  have h2 := of_decide_eq_false hspc
  simp only [fld, BitVec.extractLsb'_toNat]
  omega
/-- R175, R176: MDRAIN to memory. -/
theorem mdrain_runs {u : State} (hq : s.Quiet) (hwf : Instr.WellFormed (.mdrain o)) (hfmt : fmt = fld o.imm 0 4) (hspc : spc = o.imm.extractLsb' 4 3)
    (hn : n = drainBytes fmt) (hfull : s.full = true ∨ fmt ≠ 0) (hchain : ChainFits s fmt) (halign : (s.g o.b).toNat % 64 = 0)
    (hfit : spc ≠ 0 → (s.g o.b).toNat + n ≤ bufSize spc.toNat) (hbuf : ∀ b, (s.core.buf b).wf = true)
    (hreach : ∀ l, l < n / 64 → Reaches s spc ((s.g o.b).toNat + 64 * l) 64 .wr (loc l))
    (hu : u = (if vtRm s.slot.vtype = 4 then
      s.modSlot (fun x => { x with gens := drainedGenerators s (fmt == 0) (n / fmtBytes fmt) }) else s)) :
    Runs (.mdrain o) s (fun t => t = s.setCore t.core ∧ Advanced s t ∧ t.slot.rfout = s.slot.rfout ∧
      MemFrame .mat (.mdrain o) [] (if o.imm.getLsbD 8 then [o.a.toNat] else []) [] [] 0 u t ∧
      (o.imm.getLsbD 8 = true → o.a.toNat < 4 → t.areg o.a.toNat = 0) ∧
      (∀ x, byteOf t spc x = ((List.range (n / 64)).reverse.find? (fun l => decide (loc l ≤ x) && decide (x < loc l + 64))).elim (byteOf s spc x)
        (fun l => BitVec.ofNat 8 ((drained s o.a.toNat fmt ((64 * l + (x - loc l)) / fmtBytes fmt)).1 /
             256 ^ ((64 * l + (x - loc l)) % fmtBytes fmt)))) ∧
      ∀ b x, b ≠ spc → byteOf t b x = byteOf s b x) := by
  obtain ⟨h6, hspc3⟩ := wellFormed_mdrain hwf
  rw [← hfmt] at h6
  rw [← hspc] at hspc3
  obtain ⟨hbytes, hpos, htotal, hes, hpack⟩ := drainBytes_lines h6
  have hexec := exec_mdrain (loc := loc) hfmt hspc hn h6 hfull halign hfit hreach
  have hgens : gensAfter s fmt (64 / fmtBytes fmt * (n / 64)) =
      if vtRm s.slot.vtype = 4 then drainedGenerators s (fmt == 0) (n / fmtBytes fmt) else s.slot.gens := by
    rw [hn, htotal]
    rfl
  have hbase : Rebased s u { s.slot with gens := gensAfter s fmt (64 / fmtBytes fmt * (n / 64)) } := by
    rw [hgens, hu]
    split
    · exact ⟨rfl, State.core_setCore _ _⟩
    · refine ⟨rfl, ?_⟩
      unfold State.slot
      cases s.hi <;> rfl
  have hplace (K : Core) : u.setCore K = s.setCore K := by
    rw [hu]
    split
    · exact State.setCore_setCore _ _ _
    · rfl
  generalize ht : mdrainTicket o s = t at hexec
  have hgb : (t.cmd s 0 s.slot.vl).gb = s.g o.b := by rw [← ht]; rfl
  have heng : t.eng = .mat := by rw [← ht]; rfl
  have hins : t.ins = .mdrain o := by rw [← ht]; rfl
  have htr := translates_ticketCore t s 0 s.slot.vl
  have hhold := checkHolder_ok (m := n / 64) (K := t.core s 0 s.slot.vl) htr.2.2 hreach
  rw [hn, hbytes, ← hn] at hhold
  have hst : (t.core s 0 s.slot.vl).st = s.core.st := by
    rw [Ticket.core_eq, Core.setSlot_st, heng]
    rfl
  have hstart := drainStart_ok (K := t.core s 0 s.slot.vl) (c := t.cmd s 0 s.slot.vl) hchain hfmt (t.core_queue s 0 s.slot.vl) rfl rfl hst
    (by rw [t.core_f, popF_areg])
  generalize he : ({ t.cmd s 0 s.slot.vl with tile := some (s.areg o.a.toNat), prog := capturedChain s } : Cmd) = e at hstart
  generalize hB : ({ t.core s 0 s.slot.vl with queue := [e] } : Core) = B at hstart
  have hslot : B.slot s.hi = s.slot.gone := by
    rw [← hB]
    exact slot_ticketCore hq.free t s.slot.vl
  have hBf : B.f = popF s.core.f 0 := by rw [← hB]; exact t.core_f s 0 s.slot.vl
  have hsame (b : BitVec 3) (x : Nat) : byteOf (s.setCore B) b x = byteOf s b x := by
    rw [← byteOf_ticketCore hq.free t 0 s.slot.vl, ← hB, ← byteOf_regen_queue s (t.core s 0 s.slot.vl) ((t.core s 0 s.slot.vl).slot s.hi).gens [e],
      Core.regen_same]
  obtain ⟨K, hstore, ⟨⟨fl, hmoved⟩, -, hbyte⟩⟩ := drain_lines (s := s) (B := B) (c := t.cmd s 0 s.slot.vl) (e := e) (spc := spc) (a := o.a.toNat)
    (fmt := fmt) (m := n / 64) (loc := loc) (ad := fun i => (s.g o.b).toNat + 64 * i) (by rw [← hB]; exact htr) (by rw [← he]) (by rw [← he]; rfl) rfl hspc3 hreach
    (by rw [← hB]) (by rw [hslot]; rfl) (by rw [← hB]; exact buffersWf_ticketCore t hbuf 0 s.slot.vl)
  have hall : (List.range (n / 64)).filter (fun i => decide ((t.cmd s 0 s.slot.vl).resume ≤ i)) = List.range (n / 64) :=
    List.filter_eq_self.mpr fun i _ => decide_eq_true (Nat.zero_le i)
  have hstep : mdrainStep o (t.cmd s 0 s.slot.vl) (s.setCore (t.core s 0 s.slot.vl)) = .ok (u.setCore (drainEnded o K)) := by
    rw [hplace]
    unfold mdrainStep
    simp only [hgb, ← hspc, ← hfmt, ← hn, hall, hhold, hstart, hstore, bind, Except.bind, pure, Except.pure, setCore_drainEnd]
  have hKf : K.f = popF s.core.f 0 := hmoved.f.trans (by rw [← hBf]; exact Core.setSlot_f _ _ _)
  have hend : Core.Moved { t.core u 0 0 with f := drainEndedFiles o (popF s.core.f 0), queue := [{ e with flags := fl, mrs := 0 }] } (drainEnded o K) := by
    rw [drainEnded_eq, hKf]
    have h := hmoved.withF (drainEndedFiles o (popF s.core.f 0))
    rw [hbase.ticketCore hq.free t 0 s.slot.vl 0]
    refine Eq.mp (congrArg (fun X => Core.Moved X _) ?_) h
    rw [Core.regen, hslot, ← hB, ← he]
    cases s.hi <;> rfl
  obtain ⟨v, hengine, hrun⟩ := engine_moves (t := t) (m := 0) (c := e) hq (.inr ⟨by rw [← ht]; rfl, rfl⟩) (by rw [← ht]; rfl) (lenIs_vl s)
    (by rw [hins]; rfl) (by rw [← ht]; exact Nat.le_add_left 1 63) hbase.hi (by rw [State.Free, hbase.slot]; exact hq.free) (by rw [← he]; rfl)
    (by rw [← he]; rfl) (by rw [← he]; exact hbase.hi.symm) hend hstep
  rw [hins, heng] at hrun
  have hafter (b : BitVec 3) (x : Nat) := (hrun.bytes b x).trans ((byteOf_drainEnded u K o b x).trans ((congrArg (byteOf · b x) (hplace K)).trans (hbyte b x)))
  simp only [hsame] at hafter
  refine ⟨v, hexec.trans hengine, ?_, ?_, ?_, hrun.frame ?_, fun hz h4 => ?_, fun x => ?_, fun b x hb => ?_⟩
  · exact hrun.outside.trans (hplace _)
  · have h := hrun.advanced
    rw [Advanced, hbase.slot] at h
    exact h
  · exact hrun.rfout.trans (by rw [hbase.slot])
  · rw [hbase.core, Core.setSlot_f]
    unfold drainEndedFiles flag
    split
    · exact (FilesFrame.popF _ _ _ _ _ _ _).setA _ (List.mem_singleton.mpr rfl)
    · exact FilesFrame.popF _ _ _ _ _ _ _
  · have hf : v.core.f.a = (popF s.core.f 0).a.setIfInBounds o.a.toNat 0 := by
      rw [hrun.files, drainEndedFiles, flag, hz]
      rfl
    rw [State.areg, hf, getD_setIfInBounds _ _ _ _ _ h4, if_pos rfl]
  · refine (hafter spc x).trans ((if_pos rfl).trans ?_)
    cases hfind : (List.range (n / 64)).reverse.find? (fun l => decide (loc l ≤ x) && decide (x < loc l + 64)) with
    | none => rfl
    | some l =>
      have hin := List.find?_some hfind
      simp only [Bool.and_eq_true, decide_eq_true_eq] at hin
      refine BitVec.eq_of_toNat_eq ?_
      have hd : (x - loc l) / fmtBytes fmt < 64 / fmtBytes fmt := by
        rw [Nat.div_lt_iff_lt_mul hes, hpack]
        omega
      have hsplit : 64 * l + (x - loc l) = x - loc l + fmtBytes fmt * (64 / fmtBytes fmt * l) := by
        rw [← Nat.mul_assoc, Nat.mul_comm (fmtBytes fmt), hpack, Nat.add_comm]
      simp only [Option.elim_some]
      rw [BitVec.toNat_ofNat, BitVec.toNat_ofNat, show 2 ^ 8 = 256 by decide, lineFrom_byte s o.a.toNat h6 _ _ hd, hsplit, Nat.add_mul_div_left _ _ hes,
        Nat.add_mul_mod_self_left, Nat.add_comm (64 / fmtBytes fmt * l)]
  · exact (hafter b x).trans (if_neg hb)
end

/-- R66, R174 to R177. -/
theorem chainsAndDrains : ChainsAndDrains :=
  ⟨fun _ _ _ hq hns hok => mchain_runs hq hns hok, fun _ _ hq hnode => msetc_runs hq hnode,
    fun s o loc fmt spc n u hq hwf hfmt hspc hn hfull hchain halign hfit hbuf hreach hu => by
      obtain ⟨t, hexec, hout, hadv, hrf, hframe, hz, hbyte, hother⟩ := mdrain_runs hq hwf hfmt hspc hn hfull hchain halign hfit hbuf hreach hu
      refine ⟨t, hexec, hout, hadv, hrf, hframe, hz, fun x => ?_, hother⟩
      rw [hbyte x]
      generalize (List.range (n / 64)).reverse.find? (fun l => decide (loc l ≤ x) && decide (x < loc l + 64)) = r
      cases r <;> rfl⟩

/-- Settles O18, from the moves of tiles, and from the chain and its drains. -/
theorem tilesMoveAndDrain : Obligations.TilesMoveAndDrain := ⟨tilesMove, chainsAndDrains⟩

end Sys2Proof.Machine
end

section
/-! SUPPORT. HFREE of a handle as HALLOC leaves it (R242, R243, R129). -/

namespace Sys2Proof.Machine

/-- Handle 4 names a region of W and is held by its own core in state 0, as HALLOC leaves it; no event latch is set. -/
def freshlyAllocated : State := handleState 0 { Handle.free with buf := 1, held := true }

/-- The event latch of the current slot in a next state. -/
def latchAfter : Host.Outcome State Fault Refusal → Bool
  | .next t => t.slot.latch
  | _ => false

theorem latchCore_slot_latch (s : State) : s.latchCore.slot.latch = true := by
  cases h : s.hi <;> simp [State.latchCore, State.slot, Core.slot, h]

/-- The handle's state does not change, so HFREE sets no latch. -/
theorem hfree_freshlyAllocated_latch : latchAfter (exec (.hfree ⟨4, 0, 0⟩) freshlyAllocated) = false := by
  decide +kernel

/-- Refutes O29: the clause of HFREE sets the event latch always, and the model sets it only where the handle's state changes
or LANDED rises (R129). The handle of `freshlyAllocated` is in state 0 already. -/
theorem not_handlesPassRegions : ¬ Obligations.HandlesPassRegions := by
  unfold Obligations.HandlesPassRegions
  rintro ⟨-, hfree, -⟩
  obtain ⟨t, hexec, -, -, hframe⟩ := hfree freshlyAllocated ⟨4, 0, 0⟩ (quiet_of (by decide +kernel)) (wf_of (by decide +kernel))
    (by decide +kernel) (by decide +kernel) (by decide +kernel) (by decide +kernel)
  have hclear : t.slot.latch = false := by
    simpa only [hexec, latchAfter] using hfree_freshlyAllocated_latch
  have hset : t.slot.latch = true := by
    rw [hframe.slot]
    exact latchCore_slot_latch _
  exact Bool.false_ne_true (hclear.symm.trans hset)

end Sys2Proof.Machine
end

section
/-! SUPPORT. Every well-formed instruction is read back from its encoding (R67 to R70, R76 to R86): the form that each opcode map gives, by
the laws of the tail layouts. -/

namespace Sys2Proof

/-- A T4V form whose modifier bits are those that the major reads (R78, R81). -/
theorem OpV4.ofBits_enc_self {o : OpV4} {maj : BitVec 7} {op : BitVec 6} {q : BitVec 2} {h : BitVec 16} (hd : headD h = o.d) (hx : headX h = o.x)
    (hq : o.opx = q) : OpV4.ofBits h (o.enc maj op).tail q = o := by
  rw [OpV4.ofBits_enc o maj op q h hd hx, ← hq]
/-- A bit of IMM32 as a number and as a bit. -/
theorem immf_eq_one_iff (i : BitVec 32) (lo : Nat) : immf i lo 1 = 1 ↔ i.extractLsb' lo 1 = 1#1 := by
  rw [← BitVec.toNat_inj]
  rfl
/-- PHASE with each of its scopes (R84, R262). -/
theorem decode75_phase : ∀ o : BitVec 3, decode75 (mkHead 0 0x75 (0#4 ++ o)) 0 false = .ok (.phase o) := by
  decide

/-- R80: the instructions of majors 0x00 to 0x1F are read back. -/
theorem decodeRaw_encode_controlMap {i : Instr} {e : Encoded} (hw : i.defect = none) (he : i.encode = some e)
    (hhi : (headMaj e.head).toNat ≤ 0x1F) : decodeRaw e.head e.tail false = .ok i := by
  cases i with
  | nop =>
    cases he
    rw [decodeRaw, maj_mkHead]
    change decode00 _ _ false = _
    simp [decode00]
  | add o | sub o | and_ o | or_ o | xor_ o | sll o | srl o | sra o | slt o | sltu o | min o | max o | addW o | subW o
  | sllW o | srlW o | sraW o =>
    cases he
    simp [Instr.defect] at hw
    rw [decodeRaw, OpA2.enc_head, maj_mkHead]
    change decode01 _ _ false = _
    simp [decode01, hw]
  | addi o | andi o | ori o | xori o | slli o | srli o | srai o | slti o | addiW o | slliW o | srliW o | sraiW o =>
    cases he
    simp [Instr.defect] at hw
    rw [decodeRaw, OpI4.enc_head, maj_mkHead]
    change decode02 _ _ false = _
    simp [decode02, decode02.tail20, Nat.not_le.mpr hw.1]
  | mul o | mulh o | mulhu o | div o | divu o | rem o | remu o | mulW o | divW o | divuW o | remW o | remuW o =>
    cases he
    simp [Instr.defect] at hw
    rw [decodeRaw, OpA2.enc_head, maj_mkHead]
    change decode03 _ _ false = _
    simp [decode03, hw]
  | clz o | ctz o | popc o =>
    cases he
    simp [Instr.defect] at hw
    rw [decodeRaw, OpA2.enc_head, maj_mkHead]
    change decode04 _ _ false = _
    simp [decode04, hw]
  | sel o =>
    cases he
    simp [Instr.defect] at hw
    rw [decodeRaw, OpV4.enc_head, maj_mkHead]
    change decode05 _ _ false = _
    simp [decode05, hw, Nat.not_le.mpr hw.1, OpV4.ofBits_enc_self, -OpV4.ofBits_enc]
  | limmT4w o =>
    cases he
    rw [decodeRaw, OpW4.enc_head, maj_mkHead]
    change decode06 _ _ false = _
    simp [decode06]
  | limmT8w o =>
    cases he
    rw [decodeRaw, OpW8.enc_head, maj_mkHead]
    change decode06 _ _ false = _
    simp [decode06]
  | addpc o =>
    cases he
    simp [Instr.defect] at hw
    rw [decodeRaw, OpW4.enc_head, maj_mkHead]
    change decode07 _ _ false = _
    simp [decode07, hw]
  | ld o =>
    cases he
    simp [Instr.defect, OpL4.defect] at hw
    rw [decodeRaw, OpL4.enc_head, maj_mkHead]
    change decode08 _ _ false = _
    simp [decode08, hw]
  | st o =>
    cases he
    simp [Instr.defect, OpL4.defect] at hw
    rw [decodeRaw, OpL4.enc_head, maj_mkHead]
    change decode09 _ _ false = _
    simp [decode09, hw]
  | amoAdd o | amoAnd o | amoOr o | amoXor o | amoMin o | amoMax o | amoMinu o | amoMaxu o | amoFadd o | amoBfadd o
  | amoSwap o | amoCas o =>
    cases he
    simp [Instr.defect, OpAM.defect] at hw
    rw [decodeRaw, OpAM.enc_head, maj_mkHead]
    change decode0A _ _ false = _
    simp [decode0A, hw]
  | bEq o | bNe o | bLt o | bGe o | bLtu o | bGeu o =>
    cases he
    rw [decodeRaw, OpB4.enc_head, maj_mkHead]
    change decode0B _ _ false = _
    simp [decode0B]
  | jmp o =>
    cases he
    simp [Instr.defect] at hw
    rw [decodeRaw, OpJ4.enc_head, maj_mkHead]
    change decode0C _ _ false = _
    simp [decode0C, hw]
  | call o =>
    cases he
    simp [Instr.defect] at hw
    rw [decodeRaw, OpJ4.enc_head, maj_mkHead]
    change decode0D _ _ false = _
    simp [decode0D, hw]
  | jmpr o =>
    cases he
    simp [Instr.defect] at hw
    rw [decodeRaw, OpA2.enc_head, maj_mkHead]
    change decode0E _ _ false = _
    simp [decode0E, hw]
  | loop o =>
    cases he
    simp [Instr.defect] at hw
    rw [decodeRaw, OpJ4.enc_head, maj_mkHead]
    change decode0F _ _ false = _
    simp [decode0F, hw]
  | vfetch o =>
    cases he
    simp [Instr.defect] at hw
    rw [decodeRaw, OpJ4.enc_head, maj_mkHead]
    change decode10 _ _ false = _
    simp [decode10, hw]
  | vend =>
    cases he
    rw [decodeRaw, maj_mkHead]
    change decode11 _ _ false = _
    simp [decode11]
  | getid o =>
    cases he
    simp [Instr.defect] at hw
    rw [decodeRaw, OpW2.enc_head, maj_mkHead]
    change decode12 _ _ false = _
    simp [decode12, hw]
  | caps o =>
    cases he
    simp [Instr.defect] at hw
    rw [decodeRaw, maj_mkHead]
    change decode13 _ _ false = _
    simp [decode13, hw]
  | sysrd o | syswr o =>
    cases he
    simp [Instr.defect] at hw
    rw [decodeRaw, OpW2.enc_head, maj_mkHead]
    change decode14 _ _ false = _
    simp [decode14, hw]
  | hret | dstop | waitev | cede | halt =>
    cases he
    rw [decodeRaw, maj_mkHead]
    change decode1F _ _ false = _
    simp [decode1F]
  | trap o =>
    cases he
    simp [Instr.defect] at hw
    rw [decodeRaw, maj_mkHead]
    change decode1F _ _ false = _
    simp [decode1F, ← hw.1]
  | _ => cases he <;> simp at hhi

/-- R81: the instructions of majors 0x20 to 0x4F, of which those above 0x2F hold none are read back. -/
theorem decodeRaw_encode_vectorMap {i : Instr} {e : Encoded} (hw : i.defect = none) (he : i.encode = some e)
    (hlo : 0x20 ≤ (headMaj e.head).toNat) (hhi : (headMaj e.head).toNat ≤ 0x4F) : decodeRaw e.head e.tail false = .ok i := by
  cases i with
  | vsetl o | vsetlLq o =>
    cases he
    simp [Instr.defect] at hw
    rw [decodeRaw, OpA2.enc_head, maj_mkHead]
    change decode20 _ _ false = _
    simp [decode20, hw]
  | vsett o =>
    cases he
    simp [Instr.defect] at hw
    rw [decodeRaw, OpW4.enc_head, maj_mkHead]
    change decode21 _ _ false = _
    simp [decode21, hw]
  | vidx o =>
    cases he
    rw [decodeRaw, OpI8.enc_head, maj_mkHead]
    change decode22 _ _ false = _
    simp [decode22]
  | vadd o | vsub o | vmul o | vand o | vor o | vxor o | vsll o | vsrl o | vsra o | vmin o | vmax o | vsadd o | vssub o =>
    cases he
    simp [Instr.defect] at hw
    rw [decodeRaw, OpV4.enc_head, maj_mkHead]
    change decode23 _ _ false = _
    simp [decode23, hw, OpV4.ofBits_enc_self, -OpV4.ofBits_enc]
  | vfadd o | vfsub o | vfmul o | vfdiv o | vfma o | vfms o | vfmin o | vfmax o | vfsqrt o | vfabs o | vfexp o | vflog o
  | vfrcp o | vfrsq o | vftanh o =>
    cases he
    simp [Instr.defect] at hw
    rw [decodeRaw, OpV4.enc_head, maj_mkHead]
    change decode24 _ _ false = _
    simp [decode24, hw, OpV4.ofBits_enc_self, -OpV4.ofBits_enc]
  | vcvt o =>
    cases he
    rw [decodeRaw, OpG8.enc_head, maj_mkHead]
    change decode25 _ _ false = _
    simp [decode25]
  | vcmpEq o | vcmpNe o | vcmpLt o | vcmpGe o | vcmpLtu o | vcmpGeu o | vfcmpEq o | vfcmpNe o | vfcmpLt o | vfcmpGe o
  | vfcmpUn o | vfcmpOrd o =>
    cases he
    simp [Instr.defect] at hw
    rw [decodeRaw, OpV4.enc_head, maj_mkHead]
    change decode26 _ _ false = _
    simp [decode26, hw, OpV4.ofBits_enc_self, -OpV4.ofBits_enc]
  | mand o | mor o | mxor o | mandn o =>
    cases he
    simp [Instr.defect] at hw
    rw [decodeRaw, OpA2.enc_head, maj_mkHead]
    change decode27 _ _ false = _
    simp [decode27, hw]
  | mpopcLq o | mpopcG o =>
    cases he
    simp [Instr.defect] at hw
    rw [decodeRaw, OpA2.enc_head, maj_mkHead]
    change decode28 _ _ false = _
    simp [decode28, hw]
  | vcomp o | vexpd o | vslup o | vsldn o | vshuf o | vsperm o | vmerge o =>
    cases he
    simp [Instr.defect] at hw
    rw [decodeRaw, OpV4.enc_head, maj_mkHead]
    change decode29 _ _ false = _
    simp [decode29, hw, OpV4.ofBits_enc_self, -OpV4.ofBits_enc]
  | vmvx o | vmvxU o =>
    cases he
    simp [Instr.defect] at hw
    rw [decodeRaw, OpA2.enc_head, maj_mkHead]
    change decode2A _ _ false = _
    simp [decode2A, hw]
  | vredsum o | vredmax o | vredmin o | vfredsum o | vfredmax o | vfredmin o | vargmax o | vargmin o | vscan o | vsegsum o =>
    cases he
    simp [Instr.defect] at hw
    rw [decodeRaw, OpV4.enc_head, maj_mkHead]
    change decode2B _ _ false = _
    simp [decode2B, hw, OpV4.ofBits_enc_self, -OpV4.ofBits_enc]
  | vsortk o | vsortkP o | vuniq o =>
    cases he
    simp [Instr.defect] at hw
    rw [decodeRaw, OpV4.enc_head, maj_mkHead]
    change decode2C _ _ false = _
    simp [decode2C, hw, OpV4.ofBits_enc_self, -OpV4.ofBits_enc]
  | vld o | vlds o | vldx o | vldbp o | vldk o | vldw o =>
    cases he
    simp [Instr.defect] at hw
    rw [decodeRaw, OpM4.enc_head, maj_mkHead]
    change decode2D _ _ false = _
    simp [decode2D, hw]
  | vst o | vsts o | vstx o | vstbp o | vscadd o =>
    cases he
    rw [decodeRaw, OpM4.enc_head, maj_mkHead]
    change decode2E _ _ false = _
    simp [decode2E]
  | vamoAdd o | vamoAnd o | vamoOr o | vamoXor o | vamoMin o | vamoMax o | vamoMinu o | vamoMaxu o | vamoFadd o | vamoBfadd o
    | vamoSwap o | vamoCas o =>
    cases he
    rw [decodeRaw, OpVA.enc_head, maj_mkHead]
    change decode2F _ _ false = _
    simp [decode2F]
  | _ => cases he <;> simp at hlo hhi

/-- R82: the instructions of majors 0x50 to 0x5F are read back. -/
theorem decodeRaw_encode_matrixMap {i : Instr} {e : Encoded} (hw : i.defect = none) (he : i.encode = some e)
    (hlo : 0x50 ≤ (headMaj e.head).toNat) (hhi : (headMaj e.head).toNat ≤ 0x5F) : decodeRaw e.head e.tail false = .ok i := by
  cases i with
  | opacc o | opsub o =>
    cases he
    simp [Instr.defect, OpM8.defect] at hw
    rw [decodeRaw, OpM8.enc_head, maj_mkHead]
    change decode50 _ _ false = _
    simp [decode50, hw]
  | mzero o =>
    cases he
    simp [Instr.defect] at hw
    rw [decodeRaw, maj_mkHead]
    change decode51 _ _ false = _
    simp [decode51, hw]
  | mldt o | mstt o =>
    cases he
    simp [Instr.defect] at hw
    rw [decodeRaw, OpMT.enc_head, maj_mkHead]
    change decode52 _ _ false = _
    simp [decode52, hw]
  | mrowv o | mvrow o | mcolv o | mvcol o =>
    cases he
    simp [Instr.defect] at hw
    rw [decodeRaw, OpV4.enc_head, maj_mkHead]
    change decode53 _ _ false = _
    simp [decode53, hw, OpV4.ofBits_enc_self, -OpV4.ofBits_enc]
  | mchain o | mdrain o | mdrainStream o | msetc o =>
    cases he
    simp [Instr.defect, OpG8.defectMchain, OpG8.defectMdrain, OpG8.defectMsetc] at hw
    rw [decodeRaw, OpG8.enc_head, maj_mkHead]
    change decode54 _ _ false = _
    simp [decode54, hw]
  | mtile o =>
    cases he
    simp [Instr.defect, OpG8.defectMtile] at hw
    rw [decodeRaw, OpG8.enc_head, maj_mkHead]
    change decode55 _ _ false = _
    simp [decode55, hw]
  | bfy o | bpass o | bperm o | bpermRev o | twgenCplx o | twgenMod o | bfpnorm o =>
    cases he
    simp [Instr.defect, OpG8.defectBfy, OpG8.defectBpass, OpG8.defectBperm, OpG8.defectTwgen, OpG8.defectBfpnorm, immf_eq_one_iff] at hw
    rw [decodeRaw, OpG8.enc_head, maj_mkHead]
    change decode56 _ _ false = _
    simp [decode56, hw]
  | txf o =>
    cases he
    simp [Instr.defect, OpG8.defectTxf] at hw
    rw [decodeRaw, OpG8.enc_head, maj_mkHead]
    change decode57 _ _ false = _
    simp [decode57, hw]
  | nadd o | nsub o | nmul o | nmulW o | nbfy o | ncrt o | nfrom o | nto o =>
    cases he
    simp [Instr.defect] at hw
    rw [decodeRaw, OpV4.enc_head, maj_mkHead]
    change decode58 _ _ false = _
    simp [decode58, hw, OpV4.ofBits_enc_self, -OpV4.ofBits_enc]
  | nmodset o =>
    cases he
    simp [Instr.defect] at hw
    rw [decodeRaw, OpA2.enc_head, maj_mkHead]
    change decode59 _ _ false = _
    simp [decode59, hw]
  | nchk o =>
    cases he
    simp [Instr.defect] at hw
    rw [decodeRaw, OpA2.enc_head, maj_mkHead]
    change decode5A _ _ false = _
    simp [decode5A, hw]
  | vcmul o | vcmulCj o =>
    cases he
    simp [Instr.defect] at hw
    rw [decodeRaw, OpV4.enc_head, maj_mkHead]
    change decode5B _ _ false = _
    simp [decode5B, hw, OpV4.ofBits_enc_self, -OpV4.ofBits_enc]
  | _ => cases he <;> simp at hlo hhi

/-- R83: the instructions of majors 0x60 to 0x6F are read back. -/
theorem decodeRaw_encode_streamMap {i : Instr} {e : Encoded} (hw : i.defect = none) (he : i.encode = some e)
    (hlo : 0x60 ≤ (headMaj e.head).toNat) (hhi : (headMaj e.head).toNat ≤ 0x6F) : decodeRaw e.head e.tail false = .ok i := by
  cases i with
  | gcfg o | gstart o | gstop o | gwait o | greset o | gnode o =>
    cases he
    simp [Instr.defect, OpG8.defectGraph] at hw
    rw [decodeRaw, OpG8.enc_head, maj_mkHead]
    change decode60 _ _ false = _
    simp [decode60, hw]
  | gstat o | gquiet o =>
    cases he
    simp [Instr.defect] at hw
    rw [decodeRaw, OpA2.enc_head, maj_mkHead]
    change decode61 _ _ false = _
    simp [decode61, hw]
  | sunb o | sbindVec o | sbindPat o | sbindNin o | sbindNout o | sbindNbr o | sbindRtr o | sbindBfy o | sbindArr o =>
    cases he
    simp [Instr.defect, OpG8.defectSbind] at hw
    rw [decodeRaw, OpG8.enc_head, maj_mkHead]
    change decode62 _ _ false = _
    simp [decode62, hw]
  | spat o =>
    cases he
    simp [Instr.defect, OpG8.defectSpat] at hw
    rw [decodeRaw, OpG8.enc_head, maj_mkHead]
    change decode63 _ _ false = _
    simp [decode63, hw]
  | spushv o | spopv o | spopk o =>
    cases he
    simp [Instr.defect] at hw
    rw [decodeRaw, OpV4.enc_head, maj_mkHead]
    change decode64 _ _ false = _
    simp [decode64, hw, OpV4.ofBits_enc_self, -OpV4.ofBits_enc]
  | stok o | sdone o | srank o =>
    cases he
    simp [Instr.defect] at hw
    rw [decodeRaw, OpA2.enc_head, maj_mkHead]
    change decode65 _ _ false = _
    simp [decode65, hw]
  | spopg o =>
    cases he
    simp [Instr.defect] at hw
    rw [decodeRaw, OpA2.enc_head, maj_mkHead]
    change decode66 _ _ false = _
    simp [decode66, hw]
  | rstage o =>
    cases he
    simp [Instr.defect, OpG8.defectRstage] at hw
    rw [decodeRaw, OpG8.enc_head, maj_mkHead]
    change decode67 _ _ false = _
    simp [decode67, hw]
  | _ => cases he <;> simp at hlo hhi

/-- R84: the instructions of majors 0x70 to 0x7F are read back. -/
theorem decodeRaw_encode_engineMap {i : Instr} {e : Encoded} (hw : i.defect = none) (he : i.encode = some e)
    (hlo : 0x70 ≤ (headMaj e.head).toNat) : decodeRaw e.head e.tail false = .ok i := by
  cases i with
  | cpy o | cpyt o | cpyg o | cpyz o =>
    cases he
    simp [Instr.defect, OpG8.defectCopy] at hw
    rw [decodeRaw, OpG8.enc_head, maj_mkHead]
    change decode70 _ _ false = _
    simp [decode70, hw]
  | halloc o | hfree o | hgive o | htake o | hwait o | hstat o =>
    cases he
    simp [Instr.defect] at hw
    rw [decodeRaw, OpA2.enc_head, maj_mkHead]
    change decode71 _ _ false = _
    simp [decode71, hw]
  | binit o | bexpect o | barrive o | bwait o | btest o =>
    cases he
    simp [Instr.defect] at hw
    rw [decodeRaw, OpA2.enc_head, maj_mkHead]
    change decode72 _ _ false = _
    simp [decode72, hw]
  | gangon o | gangoff o =>
    cases he
    simp [Instr.defect] at hw
    rw [decodeRaw, OpA2.enc_head, maj_mkHead]
    change decode73 _ _ false = _
    simp [decode73, hw]
  | vldg o =>
    cases he
    rw [decodeRaw, OpM4.enc_head, maj_mkHead]
    change decode74 _ _ false = _
    simp [decode74]
  | phase o =>
    cases he
    rw [decodeRaw, maj_mkHead]
    exact decode75_phase o
  | fenceE | nmfence =>
    cases he
    rw [decodeRaw, maj_mkHead]
    change decode75 _ _ false = _
    simp [decode75]
  | coll o | ccwait o | ccread o =>
    cases he
    simp [Instr.defect] at hw
    rw [decodeRaw, OpA2.enc_head, maj_mkHead]
    change decode76 _ _ false = _
    simp [decode76, hw]
  | brule o | bwalk o =>
    cases he
    simp [Instr.defect, OpG8.defectBrule, OpG8.defectBwalk] at hw
    rw [decodeRaw, OpG8.enc_head, maj_mkHead]
    change decode77 _ _ false = _
    simp [decode77, hw]
  | tqpush o | tqpop o | launch o | join o =>
    cases he
    simp [Instr.defect] at hw
    rw [decodeRaw, OpA2.enc_head, maj_mkHead]
    change decode78 _ _ false = _
    simp [decode78, hw]
  | sqpost o | cqpoll o =>
    cases he
    simp [Instr.defect] at hw
    rw [decodeRaw, OpA2.enc_head, maj_mkHead]
    change decode79 _ _ false = _
    simp [decode79, hw]
  | _ => cases he <;> simp at hlo

end Sys2Proof

namespace Sys2Proof.Machine

/-- Settles O49: an instruction without a defect has the fields that the decoder of its major checks, and its layout is read back. -/
theorem encodedInstructionsDecode : Obligations.EncodedInstructionsDecode := by
  intro i e hw he
  refine decode_of ?_ hw
  by_cases hcontrol : (headMaj e.head).toNat ≤ 0x1F
  · exact decodeRaw_encode_controlMap hw he hcontrol
  by_cases hvector : (headMaj e.head).toNat ≤ 0x4F
  · exact decodeRaw_encode_vectorMap hw he (by omega) hvector
  by_cases hmatrix : (headMaj e.head).toNat ≤ 0x5F
  · exact decodeRaw_encode_matrixMap hw he (by omega) hmatrix
  by_cases hstream : (headMaj e.head).toNat ≤ 0x6F
  · exact decodeRaw_encode_streamMap hw he (by omega) hstream
  · exact decodeRaw_encode_engineMap hw he (by omega)

end Sys2Proof.Machine
end

section
/-! SUPPORT. The encoding of what each tail layout reads is the word that was read (R68, R76, R78). -/

namespace Sys2Proof

/-! ### Fields joined again (R68, R76, R78) -/

/-- Two fields that lie side by side are one. -/
theorem extractLsb'_join {n lo hi a b : Nat} (x : BitVec n) (h : hi = lo + b) :
    x.extractLsb' hi a ++ x.extractLsb' lo b = x.extractLsb' lo (a + b) :=
  BitVec.extractLsb'_append_extractLsb'_eq_extractLsb' h
/-- One bit as a flag and back. -/
theorem ite_bit (b : BitVec 1) : (if b == 1#1 then 1#1 else 0#1) = b := by
  revert b
  decide
theorem mkHead_fields (h : BitVec 16) : mkHead (headTc h) (headMaj h) (headF7 h) = h := by
  unfold mkHead headTc headMaj headF7
  simp (disch := decide) only [extractLsb'_join]
  exact extractLsb'_self h
theorem mkFD_fields (h : BitVec 16) : mkFD (headX h) (headD h) = headF7 h := by
  unfold mkFD headX headD headF7
  rw [ite_bit]
  simp (disch := decide) only [extractLsb'_join]
/-- A head of a known major, tail class and operand field. -/
theorem mkHead_eq {h : BitVec 16} {tc : BitVec 2} {maj f7 : BitVec 7} (hm : (headMaj h).toNat = maj.toNat) (htc : headTc h = tc)
    (hf : headF7 h = f7) : mkHead tc maj f7 = h := by
  rw [← BitVec.eq_of_toNat_eq hm, ← htc, ← hf, mkHead_fields]
/-- A head with fD of a known major, tail class and form bit. -/
theorem mkHead_mkFD {h : BitVec 16} {tc : BitVec 2} {maj : BitVec 7} {x : Bool} (hm : (headMaj h).toNat = maj.toNat) (htc : headTc h = tc)
    (hx : headX h = x) : mkHead tc maj (mkFD x (headD h)) = h :=
  mkHead_eq hm htc (by rw [← hx, mkFD_fields])

/-- The tail holds no bit above the size that its head claims (R68). -/
def TailFits (h : BitVec 16) (t : BitVec 64) : Prop := t.toNat < 2 ^ (8 * tailSize h)

theorem setWidth_extractLsb' {t : BitVec 64} {n : Nat} (h : t.toNat < 2 ^ n) : (t.extractLsb' 0 n).setWidth 64 = t := by
  apply BitVec.eq_of_toNat_eq
  rw [BitVec.toNat_setWidth, BitVec.extractLsb'_toNat, Nat.shiftRight_zero, Nat.mod_eq_of_lt h, Nat.mod_eq_of_lt t.isLt]
section
variable {h : BitVec 16} {t : BitVec 64}
theorem TailFits.tc0 (ht : TailFits h t) (htc : headTc h = 0#2) : 0 = t := by
  rw [TailFits, tailSize, htc] at ht
  exact BitVec.eq_of_toNat_eq (Nat.lt_one_iff.mp ht).symm
theorem TailFits.tc1 (ht : TailFits h t) (htc : headTc h = 1#2) : (t.extractLsb' 0 16).setWidth 64 = t := by
  rw [TailFits, tailSize, htc] at ht
  exact setWidth_extractLsb' ht
theorem TailFits.tc2 (ht : TailFits h t) (htc : headTc h = 2#2) : (t.extractLsb' 0 32).setWidth 64 = t := by
  rw [TailFits, tailSize, htc] at ht
  exact setWidth_extractLsb' ht

/-! ### The encoding of what a layout reads (R78): one law per tail layout -/

theorem OpA2.enc_ofBits {maj : BitVec 7} {x : Bool} {op : BitVec 4} (ht : TailFits h t) (hm : (headMaj h).toNat = maj.toNat) (htc : headTc h = 1#2)
    (hx : headX h = x) (hop : (t.extractLsb' 12 4).toNat = op.toNat) : (OpA2.ofBits h t).enc maj x op = ⟨h, t⟩ := by
  rw [OpA2.enc, OpA2.ofBits, ← BitVec.eq_of_toNat_eq hop]
  simp (disch := decide) only [extractLsb'_join]
  exact congrArg₂ _ (mkHead_mkFD hm htc hx) (ht.tc1 htc)
theorem OpW2.enc_ofBits {maj : BitVec 7} {x : Bool} (ht : TailFits h t) (hm : (headMaj h).toNat = maj.toNat) (htc : headTc h = 1#2)
    (hx : headX h = x) : (OpW2.ofBits h t).enc maj x = ⟨h, t⟩ :=
  congrArg₂ _ (mkHead_mkFD hm htc hx) (ht.tc1 htc)
theorem OpI4.enc_ofBits {maj : BitVec 7} {x : Bool} {op : BitVec 4} (ht : TailFits h t) (hm : (headMaj h).toNat = maj.toNat) (htc : headTc h = 2#2)
    (hx : headX h = x) (hop : (t.extractLsb' 28 4).toNat = op.toNat) (hz : t.extractLsb' 20 2 = 0#2) : (OpI4.ofBits h t).enc maj x op = ⟨h, t⟩ := by
  rw [OpI4.enc, OpI4.ofBits, ← BitVec.eq_of_toNat_eq hop, ← hz]
  simp (disch := decide) only [extractLsb'_join]
  exact congrArg₂ _ (mkHead_mkFD hm htc hx) (ht.tc2 htc)
theorem OpL4.enc_ofBits {maj : BitVec 7} (ht : TailFits h t) (hm : (headMaj h).toNat = maj.toNat) (htc : headTc h = 2#2)
    (hx : headX h = false) (hz : t.extractLsb' 20 1 = 0#1) : (OpL4.ofBits h t).enc maj = ⟨h, t⟩ := by
  rw [OpL4.enc, OpL4.ofBits, ← hz]
  simp (disch := decide) only [extractLsb'_join]
  exact congrArg₂ _ (mkHead_mkFD hm htc hx) (ht.tc2 htc)
theorem OpAM.enc_ofBits {op : BitVec 4} (ht : TailFits h t) (hm : (headMaj h).toNat = 0x0A) (htc : headTc h = 2#2) (hx : headX h = false)
    (hop : (t.extractLsb' 28 4).toNat = op.toNat) (hz : t.extractLsb' 0 8 = 0#8) : (OpAM.ofBits h t).enc op = ⟨h, t⟩ := by
  rw [OpAM.enc, OpAM.ofBits, ← BitVec.eq_of_toNat_eq hop, ← hz]
  simp (disch := decide) only [extractLsb'_join]
  exact congrArg₂ _ (mkHead_mkFD hm htc hx) (ht.tc2 htc)
theorem OpB4.enc_ofBits {c : BitVec 3} (ht : TailFits h t) (hm : (headMaj h).toNat = 0x0B) (htc : headTc h = 2#2)
    (hc : (h.extractLsb' 4 3).toNat = c.toNat) (hz : h.extractLsb' 0 4 = 0#4) : (OpB4.ofBits t).enc c = ⟨h, t⟩ := by
  rw [OpB4.enc, OpB4.ofBits, ← BitVec.eq_of_toNat_eq hc, ← hz]
  simp (disch := decide) only [extractLsb'_join]
  exact congrArg₂ _ (mkHead_eq hm htc rfl) (ht.tc2 htc)
theorem OpJ4.enc_ofBits {maj : BitVec 7} (ht : TailFits h t) (hm : (headMaj h).toNat = maj.toNat) (htc : headTc h = 2#2)
    (hx : headX h = false) : (OpJ4.ofBits h t).enc maj = ⟨h, t⟩ := by
  rw [OpJ4.enc, OpJ4.ofBits]
  simp (disch := decide) only [extractLsb'_join]
  exact congrArg₂ _ (mkHead_mkFD hm htc hx) (ht.tc2 htc)
theorem OpW4.enc_ofBits {maj : BitVec 7} (ht : TailFits h t) (hm : (headMaj h).toNat = maj.toNat) (htc : headTc h = 2#2)
    (hx : headX h = false) : (OpW4.ofBits h t).enc maj = ⟨h, t⟩ :=
  congrArg₂ _ (mkHead_mkFD hm htc hx) (ht.tc2 htc)
theorem OpW8.enc_ofBits {maj : BitVec 7} (hm : (headMaj h).toNat = maj.toNat) (htc : headTc h = 3#2) (hx : headX h = false) :
    (OpW8.ofBits h t).enc maj = ⟨h, t⟩ :=
  congrArg₂ _ (mkHead_mkFD hm htc hx) rfl
theorem OpV4.enc_ofBits {maj : BitVec 7} {op : BitVec 6} {q : BitVec 2} (ht : TailFits h t) (hm : (headMaj h).toNat = maj.toNat) (htc : headTc h = 2#2)
    (hop : (t.extractLsb' 26 6).toNat = op.toNat) : (OpV4.ofBits h t q).enc maj op = ⟨h, t⟩ := by
  rw [OpV4.enc, OpV4.ofBits, ← BitVec.eq_of_toNat_eq hop]
  simp (disch := decide) only [extractLsb'_join]
  exact congrArg₂ _ (mkHead_mkFD hm htc rfl) (ht.tc2 htc)
/-- OP[5:4] read as a modifier is encoded above the operation (R81). -/
theorem OpV4.enc_ofBits_opx {maj : BitVec 7} {op : BitVec 4} (ht : TailFits h t) (hm : (headMaj h).toNat = maj.toNat) (htc : headTc h = 2#2)
    (hop : (t.extractLsb' 26 4).toNat = op.toNat) :
    (OpV4.ofBits h t (t.extractLsb' 30 2)).enc maj (t.extractLsb' 30 2 ++ op) = ⟨h, t⟩ := by
  refine OpV4.enc_ofBits ht hm htc ?_
  rw [← BitVec.eq_of_toNat_eq hop, extractLsb'_join (lo := 26) (b := 4) t rfl]
theorem OpM4.enc_ofBits {maj : BitVec 7} {op : BitVec 6} (ht : TailFits h t) (hm : (headMaj h).toNat = maj.toNat) (htc : headTc h = 2#2)
    (hx : headX h = false) (hop : (t.extractLsb' 26 6).toNat = op.toNat) (hz : t.extractLsb' 8 4 = 0#4) (hz' : t.extractLsb' 0 2 = 0#2) :
    (OpM4.ofBits h t).enc maj op = ⟨h, t⟩ := by
  rw [OpM4.enc, OpM4.ofBits, ← BitVec.eq_of_toNat_eq hop, ← hz, ← hz']
  simp (disch := decide) only [extractLsb'_join]
  exact congrArg₂ _ (mkHead_mkFD hm htc hx) (ht.tc2 htc)
theorem OpMT.enc_ofBits {x : Bool} (ht : TailFits h t) (hm : (headMaj h).toNat = 0x52) (htc : headTc h = 2#2)
    (hx : headX h = x) (hz : t.extractLsb' 27 5 = 0#5) (hz' : t.extractLsb' 0 18 = 0#18) : (OpMT.ofBits h t).enc x = ⟨h, t⟩ := by
  rw [OpMT.enc, OpMT.ofBits, ← hz, ← hz', ite_bit]
  simp (disch := decide) only [extractLsb'_join]
  exact congrArg₂ _ (mkHead_mkFD hm htc hx) (ht.tc2 htc)
theorem OpI8.enc_ofBits {maj : BitVec 7} (hm : (headMaj h).toNat = maj.toNat) (htc : headTc h = 3#2) (hx : headX h = false)
    (hz : t.extractLsb' 8 8 = 0#8) (hz' : t.extractLsb' 0 2 = 0#2) : (OpI8.ofBits h t).enc maj = ⟨h, t⟩ := by
  rw [OpI8.enc, OpI8.ofBits, ← hz, ← hz']
  simp (disch := decide) only [extractLsb'_join]
  exact congrArg₂ _ (mkHead_mkFD hm htc hx) (extractLsb'_self t)
theorem OpM8.enc_ofBits {x : Bool} (hm : (headMaj h).toNat = 0x50) (htc : headTc h = 3#2) (hx : headX h = x)
    (hz : t.extractLsb' 0 24 = 0#24) : (OpM8.ofBits h t).enc x = ⟨h, t⟩ := by
  rw [OpM8.enc, OpM8.ofBits, ← hz]
  simp (disch := decide) only [extractLsb'_join]
  exact congrArg₂ _ (mkHead_mkFD hm htc hx) (extractLsb'_self t)
theorem OpG8.enc_ofBits {maj : BitVec 7} {op : BitVec 6} (hm : (headMaj h).toNat = maj.toNat) (htc : headTc h = 3#2) (hx : headX h = false)
    (hop : (t.extractLsb' 58 6).toNat = op.toNat) (hz : t.extractLsb' 32 2 = 0#2) : (OpG8.ofBits h t).enc maj op = ⟨h, t⟩ := by
  rw [OpG8.enc, OpG8.ofBits, ← BitVec.eq_of_toNat_eq hop, ← hz]
  simp (disch := decide) only [extractLsb'_join]
  exact congrArg₂ _ (mkHead_mkFD hm htc hx) (extractLsb'_self t)
theorem OpVA.enc_ofBits {op : BitVec 4} (hm : (headMaj h).toNat = 0x2F) (htc : headTc h = 3#2) (hx : headX h = false)
    (hop : (t.extractLsb' 11 4).toNat = op.toNat) (hz : t.extractLsb' 58 6 = 0#6) (hz' : t.extractLsb' 32 2 = 0#2)
    (hz'' : t.extractLsb' 15 17 = 0#17) : (OpVA.ofBits h t).enc op = ⟨h, t⟩ := by
  rw [OpVA.enc, OpVA.ofBits, ← BitVec.eq_of_toNat_eq hop, ← hz, ← hz', ← hz'', ite_bit]
  simp (disch := decide) only [extractLsb'_join]
  exact congrArg₂ _ (mkHead_mkFD hm htc hx) (extractLsb'_self t)
end

end Sys2Proof
end

section
/-! SUPPORT. What the decoder takes is the encoding of what it reads (R67 to R70, R76 to R86): one law for each shape of decoder, by the laws of
the tail layouts. -/

namespace Sys2Proof

/-- The decoder takes what passes a check. -/
theorem check_ok {α : Type} {c : Prop} [Decidable c] {r : Reject} {x : Except Reject α} {a : α} :
    (if c then Except.error r else x) = .ok a ↔ ¬ c ∧ x = .ok a := by
  by_cases h : c <;> simp [h]
theorem only_ok {α : Type} {c : Prop} [Decidable c] {r : Reject} {x : Except Reject α} {a : α} :
    (if c then x else Except.error r) = .ok a ↔ c ∧ x = .ok a := by
  by_cases h : c <;> simp [h]

section
variable {h : BitVec 16} {t : BitVec 64} {i : Instr} {n : Nat} {D : BitVec 16 → BitVec 64 → Bool → Decoded}

/-! ### Majors of one shape: their decoders differ in the forms alone -/

/-- T2A without a form bit. -/
theorem a2_encodes_back (hD : (n, D) ∈ [(0x04, decode04), (0x0E, decode0E), (0x20, decode20), (0x27, decode27), (0x59, decode59), (0x5A, decode5A),
      (0x61, decode61), (0x65, decode65), (0x66, decode66), (0x71, decode71), (0x72, decode72), (0x73, decode73), (0x76, decode76), (0x78, decode78),
      (0x79, decode79)])
    (ht : TailFits h t) (hm : (headMaj h).toNat = n) (hi : D h t false = .ok i) : i.encode = some ⟨h, t⟩ := by
  simp only [List.mem_cons, Prod.mk.injEq, List.not_mem_nil, or_false] at hD
  rcases hD with ⟨rfl, rfl⟩ | ⟨rfl, rfl⟩ | ⟨rfl, rfl⟩ | ⟨rfl, rfl⟩ | ⟨rfl, rfl⟩ | ⟨rfl, rfl⟩ | ⟨rfl, rfl⟩ | ⟨rfl, rfl⟩ | ⟨rfl, rfl⟩ | ⟨rfl, rfl⟩ |
    ⟨rfl, rfl⟩ | ⟨rfl, rfl⟩ | ⟨rfl, rfl⟩ | ⟨rfl, rfl⟩ | ⟨rfl, rfl⟩
  all_goals
    simp only [decode04, decode0E, decode20, decode27, decode59, decode5A, decode61, decode65, decode66, decode71, decode72, decode73, decode76, decode78,
      decode79, check_ok, bne_iff_ne, ne_eq, not_not, Bool.not_eq_true] at hi
    obtain ⟨htc, hx, -, hi⟩ := hi
    split at hi <;> cases hi
    all_goals exact congrArg some (OpA2.enc_ofBits ht hm htc hx ‹_›)
/-- T2A with a form bit. -/
theorem a2Form_encodes_back (hD : (n, D) ∈ [(0x01, decode01), (0x03, decode03), (0x28, decode28), (0x2A, decode2A)])
    (ht : TailFits h t) (hm : (headMaj h).toNat = n) (hi : D h t false = .ok i) : i.encode = some ⟨h, t⟩ := by
  simp only [List.mem_cons, Prod.mk.injEq, List.not_mem_nil, or_false] at hD
  rcases hD with ⟨rfl, rfl⟩ | ⟨rfl, rfl⟩ | ⟨rfl, rfl⟩ | ⟨rfl, rfl⟩
  all_goals
    simp only [decode01, decode03, decode28, decode2A, check_ok, bne_iff_ne, ne_eq, not_not] at hi
    obtain ⟨htc, -, hi⟩ := hi
    cases hx : headX h <;> simp only [hx] at hi <;> split at hi <;> cases hi
    all_goals exact congrArg some (OpA2.enc_ofBits ht hm htc hx ‹_›)
/-- T4V whose form bit is an operand. -/
theorem v4_encodes_back (hD : (n, D) ∈ [(0x24, decode24), (0x29, decode29), (0x5B, decode5B)])
    (ht : TailFits h t) (hm : (headMaj h).toNat = n) (hi : D h t false = .ok i) : i.encode = some ⟨h, t⟩ := by
  simp only [List.mem_cons, Prod.mk.injEq, List.not_mem_nil, or_false] at hD
  rcases hD with ⟨rfl, rfl⟩ | ⟨rfl, rfl⟩ | ⟨rfl, rfl⟩
  all_goals
    simp only [decode24, decode29, decode5B, check_ok, bne_iff_ne, ne_eq, not_not] at hi
    obtain ⟨htc, hi⟩ := hi
    split at hi <;> cases hi
    all_goals exact congrArg some (OpV4.enc_ofBits ht hm htc ‹_›)
/-- T4V without a form bit. -/
theorem v4Plain_encodes_back (hD : (n, D) ∈ [(0x2C, decode2C), (0x53, decode53)])
    (ht : TailFits h t) (hm : (headMaj h).toNat = n) (hi : D h t false = .ok i) : i.encode = some ⟨h, t⟩ := by
  simp only [List.mem_cons, Prod.mk.injEq, List.not_mem_nil, or_false] at hD
  rcases hD with ⟨rfl, rfl⟩ | ⟨rfl, rfl⟩
  all_goals
    simp only [decode2C, decode53, check_ok, bne_iff_ne, ne_eq, not_not, Bool.not_eq_true] at hi
    obtain ⟨htc, -, hi⟩ := hi
    split at hi <;> cases hi
    all_goals exact congrArg some (OpV4.enc_ofBits ht hm htc ‹_›)
/-- T4V without a form bit, with a limit on D. -/
theorem v4Checked_encodes_back (hD : (n, D) ∈ [(0x05, decode05), (0x64, decode64)])
    (ht : TailFits h t) (hm : (headMaj h).toNat = n) (hi : D h t false = .ok i) : i.encode = some ⟨h, t⟩ := by
  simp only [List.mem_cons, Prod.mk.injEq, List.not_mem_nil, or_false] at hD
  rcases hD with ⟨rfl, rfl⟩ | ⟨rfl, rfl⟩
  all_goals
    simp only [decode05, decode64, check_ok, bne_iff_ne, ne_eq, not_not, Bool.not_eq_true] at hi
    obtain ⟨htc, -, -, hi⟩ := hi
    split at hi <;> cases hi
    all_goals exact congrArg some (OpV4.enc_ofBits ht hm htc ‹_›)
/-- T4J. -/
theorem j4_encodes_back (hD : (n, D) ∈ [(0x0C, decode0C), (0x0D, decode0D), (0x0F, decode0F), (0x10, decode10)])
    (ht : TailFits h t) (hm : (headMaj h).toNat = n) (hi : D h t false = .ok i) : i.encode = some ⟨h, t⟩ := by
  simp only [List.mem_cons, Prod.mk.injEq, List.not_mem_nil, or_false] at hD
  rcases hD with ⟨rfl, rfl⟩ | ⟨rfl, rfl⟩ | ⟨rfl, rfl⟩ | ⟨rfl, rfl⟩
  all_goals
    simp only [decode0C, decode0D, decode0F, decode10, check_ok, bne_iff_ne, ne_eq, not_not, Bool.not_eq_true] at hi
    obtain ⟨htc, hx, -, hi⟩ := hi
    cases hi
    exact congrArg some (OpJ4.enc_ofBits ht hm htc hx)
/-- T4W. -/
theorem w4_encodes_back (hD : (n, D) ∈ [(0x07, decode07), (0x21, decode21)])
    (ht : TailFits h t) (hm : (headMaj h).toNat = n) (hi : D h t false = .ok i) : i.encode = some ⟨h, t⟩ := by
  simp only [List.mem_cons, Prod.mk.injEq, List.not_mem_nil, or_false] at hD
  rcases hD with ⟨rfl, rfl⟩ | ⟨rfl, rfl⟩
  all_goals
    simp only [decode07, decode21, check_ok, bne_iff_ne, ne_eq, not_not, Bool.not_eq_true] at hi
    obtain ⟨htc, hx, -, hi⟩ := hi
    cases hi
    exact congrArg some (OpW4.enc_ofBits ht hm htc hx)
/-- T4L. -/
theorem l4_encodes_back (hD : (n, D) ∈ [(0x08, decode08), (0x09, decode09)])
    (ht : TailFits h t) (hm : (headMaj h).toNat = n) (hi : D h t false = .ok i) : i.encode = some ⟨h, t⟩ := by
  simp only [List.mem_cons, Prod.mk.injEq, List.not_mem_nil, or_false] at hD
  rcases hD with ⟨rfl, rfl⟩ | ⟨rfl, rfl⟩
  all_goals
    simp only [decode08, decode09, check_ok, bne_iff_ne, ne_eq, not_not, Bool.not_eq_true] at hi
    obtain ⟨htc, hx, -, hz, hi⟩ := hi
    cases hi
    exact congrArg some (OpL4.enc_ofBits ht hm htc hx hz)
/-- T8G. -/
theorem g8_encodes_back (hD : (n, D) ∈ [(0x55, decode55), (0x57, decode57), (0x60, decode60), (0x62, decode62), (0x63, decode63),
      (0x67, decode67), (0x70, decode70), (0x77, decode77)])
    (hm : (headMaj h).toNat = n) (hi : D h t false = .ok i) : i.encode = some ⟨h, t⟩ := by
  simp only [List.mem_cons, Prod.mk.injEq, List.not_mem_nil, or_false] at hD
  rcases hD with ⟨rfl, rfl⟩ | ⟨rfl, rfl⟩ | ⟨rfl, rfl⟩ | ⟨rfl, rfl⟩ | ⟨rfl, rfl⟩ | ⟨rfl, rfl⟩ | ⟨rfl, rfl⟩ | ⟨rfl, rfl⟩
  all_goals
    simp only [decode55, decode57, decode60, decode62, decode63, decode67, decode70, decode77, check_ok, bne_iff_ne, ne_eq, not_not,
      Bool.not_eq_true] at hi
    obtain ⟨htc, hx, -, hz, hi⟩ := hi
    split at hi <;> cases hi
    all_goals exact congrArg some (OpG8.enc_ofBits hm htc hx ‹_› hz)
/-- T8G where a bit of IMM32 chooses the form too. -/
theorem g8Bit_encodes_back (hD : (n, D) ∈ [(0x54, decode54), (0x56, decode56)])
    (hm : (headMaj h).toNat = n) (hi : D h t false = .ok i) : i.encode = some ⟨h, t⟩ := by
  simp only [List.mem_cons, Prod.mk.injEq, List.not_mem_nil, or_false] at hD
  rcases hD with ⟨rfl, rfl⟩ | ⟨rfl, rfl⟩
  all_goals
    simp only [decode54, decode56, check_ok, bne_iff_ne, ne_eq, not_not, Bool.not_eq_true] at hi
    obtain ⟨htc, hx, -, hz, hi⟩ := hi
    split at hi <;> (try split at hi) <;> cases hi
    all_goals exact congrArg some (OpG8.enc_ofBits hm htc hx ‹_› hz)
/-- T4M. -/
theorem m4_encodes_back (hD : (n, D) ∈ [(0x2E, decode2E), (0x74, decode74)])
    (ht : TailFits h t) (hm : (headMaj h).toNat = n) (hi : D h t false = .ok i) : i.encode = some ⟨h, t⟩ := by
  simp only [List.mem_cons, Prod.mk.injEq, List.not_mem_nil, or_false] at hD
  rcases hD with ⟨rfl, rfl⟩ | ⟨rfl, rfl⟩
  all_goals
    simp only [decode2E, decode74, check_ok, bne_iff_ne, ne_eq, not_not, Bool.not_eq_true, Bool.or_eq_true, not_or] at hi
    obtain ⟨htc, hx, ⟨hz, hz'⟩, hi⟩ := hi
    split at hi <;> cases hi
    all_goals exact congrArg some (OpM4.enc_ofBits ht hm htc hx ‹_› hz hz')

/-! ### Majors of a shape of their own -/

/-- A head without a tail is the encoding of its operand field. -/
theorem encoded_tc0 {maj f7 : BitVec 7} (ht : TailFits h t) (hm : (headMaj h).toNat = maj.toNat) (htc : headTc h = 0#2) (hf : headF7 h = f7) :
    Encoded.mk (mkHead 0 maj f7) 0 = ⟨h, t⟩ := congrArg₂ _ (mkHead_eq hm htc hf) (ht.tc0 htc)
theorem decode00_encodes_back (ht : TailFits h t) (hm : (headMaj h).toNat = 0x00) (hi : decode00 h t false = .ok i) : i.encode = some ⟨h, t⟩ := by
  simp only [decode00, check_ok, only_ok, bne_iff_ne, ne_eq, not_not, beq_iff_eq] at hi
  obtain ⟨htc, hf, hi⟩ := hi
  cases hi
  exact congrArg some (encoded_tc0 ht hm htc hf)
theorem decode11_encodes_back (ht : TailFits h t) (hm : (headMaj h).toNat = 0x11) (hi : decode11 h t false = .ok i) : i.encode = some ⟨h, t⟩ := by
  simp only [decode11, check_ok, bne_iff_ne, ne_eq, not_not] at hi
  obtain ⟨htc, hf, hi⟩ := hi
  cases hi
  exact congrArg some (encoded_tc0 ht hm htc hf)
/-- CAPS and MZERO, whose operand is D. -/
theorem f7_encodes_back (hD : (n, D) ∈ [(0x13, decode13), (0x51, decode51)]) (ht : TailFits h t) (hm : (headMaj h).toNat = n)
    (hi : D h t false = .ok i) : i.encode = some ⟨h, t⟩ := by
  simp only [List.mem_cons, Prod.mk.injEq, List.not_mem_nil, or_false] at hD
  rcases hD with ⟨rfl, rfl⟩ | ⟨rfl, rfl⟩
  all_goals
    simp only [decode13, decode51, check_ok, bne_iff_ne, ne_eq, not_not, Bool.not_eq_true] at hi
    obtain ⟨htc, hx, -, hi⟩ := hi
    cases hi
    exact congrArg some (congrArg₂ _ (mkHead_mkFD hm htc hx) (ht.tc0 htc))
/-- The reserved bits of T4I. -/
theorem tail20_ok {j : Instr} : decode02.tail20 t j = .ok i ↔ t.extractLsb' 20 2 = 0#2 ∧ j = i := by
  simp [decode02.tail20, only_ok]
theorem decode02_encodes_back (ht : TailFits h t) (hm : (headMaj h).toNat = 0x02) (hi : decode02 h t false = .ok i) : i.encode = some ⟨h, t⟩ := by
  simp only [decode02, check_ok, bne_iff_ne, ne_eq, not_not] at hi
  obtain ⟨htc, -, hi⟩ := hi
  cases hx : headX h <;> simp only [hx, Bool.false_eq_true, if_false, if_true] at hi <;> split at hi <;> simp only [tail20_ok, reduceCtorEq] at hi
  all_goals
    obtain ⟨hz, rfl⟩ := hi
    exact congrArg some (OpI4.enc_ofBits ht hm htc hx ‹_› hz)
theorem decode06_encodes_back (ht : TailFits h t) (hm : (headMaj h).toNat = 0x06) (hi : decode06 h t false = .ok i) : i.encode = some ⟨h, t⟩ := by
  unfold decode06 at hi
  split at hi
  next htc =>
    simp only [check_ok, Bool.not_eq_true] at hi
    obtain ⟨hx, hi⟩ := hi
    cases hi
    exact congrArg some (OpW4.enc_ofBits ht hm (eq_of_beq htc) hx)
  next =>
    simp only [check_ok, only_ok, beq_iff_eq, Bool.not_eq_true] at hi
    obtain ⟨htc, hx, hi⟩ := hi
    cases hi
    exact congrArg some (OpW8.enc_ofBits hm htc hx)
theorem decode0A_encodes_back (ht : TailFits h t) (hm : (headMaj h).toNat = 0x0A) (hi : decode0A h t false = .ok i) : i.encode = some ⟨h, t⟩ := by
  simp only [decode0A, check_ok, bne_iff_ne, ne_eq, not_not, Bool.not_eq_true] at hi
  obtain ⟨htc, hx, -, hz, hi⟩ := hi
  split at hi <;> cases hi
  all_goals exact congrArg some (OpAM.enc_ofBits ht hm htc hx ‹_› hz)
theorem decode0B_encodes_back (ht : TailFits h t) (hm : (headMaj h).toNat = 0x0B) (hi : decode0B h t false = .ok i) : i.encode = some ⟨h, t⟩ := by
  simp only [decode0B, check_ok, bne_iff_ne, ne_eq, not_not] at hi
  obtain ⟨htc, hz, hi⟩ := hi
  split at hi <;> cases hi
  all_goals exact congrArg some (OpB4.enc_ofBits ht hm htc ‹_› hz)
theorem decode12_encodes_back (ht : TailFits h t) (hm : (headMaj h).toNat = 0x12) (hi : decode12 h t false = .ok i) : i.encode = some ⟨h, t⟩ := by
  simp only [decode12, check_ok, bne_iff_ne, ne_eq, not_not, Bool.not_eq_true] at hi
  obtain ⟨htc, hx, -, hi⟩ := hi
  cases hi
  exact congrArg some (OpW2.enc_ofBits ht hm htc hx)
theorem decode14_encodes_back (ht : TailFits h t) (hm : (headMaj h).toNat = 0x14) (hi : decode14 h t false = .ok i) : i.encode = some ⟨h, t⟩ := by
  simp only [decode14, check_ok, bne_iff_ne, ne_eq, not_not] at hi
  obtain ⟨htc, -, hi⟩ := hi
  cases hx : headX h <;> simp only [hx] at hi <;> cases hi
  all_goals exact congrArg some (OpW2.enc_ofBits ht hm htc hx)
theorem decode1F_encodes_back (ht : TailFits h t) (hm : (headMaj h).toNat = 0x1F) (hi : decode1F h t false = .ok i) : i.encode = some ⟨h, t⟩ := by
  unfold decode1F at hi
  split at hi <;> simp only [only_ok, beq_iff_eq, reduceCtorEq] at hi
  case h_6 hf =>
    obtain ⟨htc, hi⟩ := hi
    cases hi
    exact congrArg some (congrArg₂ _ (mkHead_eq hm htc (BitVec.eq_of_toNat_eq hf)) (ht.tc1 htc))
  all_goals
    obtain ⟨htc, hi⟩ := hi
    cases hi
    exact congrArg some (encoded_tc0 ht hm htc (BitVec.eq_of_toNat_eq ‹_›))
theorem decode22_encodes_back (hm : (headMaj h).toNat = 0x22) (hi : decode22 h t false = .ok i) : i.encode = some ⟨h, t⟩ := by
  simp only [decode22, check_ok, bne_iff_ne, ne_eq, not_not, Bool.not_eq_true, Bool.or_eq_true, not_or] at hi
  obtain ⟨htc, hx, ⟨hz, hz'⟩, hi⟩ := hi
  cases hi
  exact congrArg some (OpI8.enc_ofBits hm htc hx hz hz')
theorem decode23_encodes_back (ht : TailFits h t) (hm : (headMaj h).toNat = 0x23) (hi : decode23 h t false = .ok i) : i.encode = some ⟨h, t⟩ := by
  simp only [decode23, check_ok, bne_iff_ne, ne_eq, not_not] at hi
  obtain ⟨htc, hi⟩ := hi
  split at hi <;> cases hi
  all_goals exact congrArg some (OpV4.enc_ofBits_opx ht hm htc ‹_›)
theorem decode2B_encodes_back (ht : TailFits h t) (hm : (headMaj h).toNat = 0x2B) (hi : decode2B h t false = .ok i) : i.encode = some ⟨h, t⟩ := by
  simp only [decode2B, check_ok, bne_iff_ne, ne_eq, not_not] at hi
  obtain ⟨htc, -, hi⟩ := hi
  split at hi <;> cases hi
  all_goals exact congrArg some (OpV4.enc_ofBits_opx ht hm htc ‹_›)
theorem decode58_encodes_back (ht : TailFits h t) (hm : (headMaj h).toNat = 0x58) (hi : decode58 h t false = .ok i) : i.encode = some ⟨h, t⟩ := by
  simp only [decode58, check_ok, bne_iff_ne, ne_eq, not_not] at hi
  obtain ⟨htc, hi⟩ := hi
  cases hx : headX h <;> simp only [hx] at hi <;> split at hi <;> cases hi
  all_goals exact congrArg some (OpV4.enc_ofBits ht hm htc ‹_›)
theorem decode25_encodes_back (hm : (headMaj h).toNat = 0x25) (hi : decode25 h t false = .ok i) : i.encode = some ⟨h, t⟩ := by
  simp only [decode25, check_ok, bne_iff_ne, ne_eq, not_not, Bool.not_eq_true] at hi
  obtain ⟨htc, hx, hz, hi⟩ := hi
  split at hi <;> cases hi
  exact congrArg some (OpG8.enc_ofBits hm htc hx ‹_› hz)
theorem decode26_encodes_back (ht : TailFits h t) (hm : (headMaj h).toNat = 0x26) (hi : decode26 h t false = .ok i) : i.encode = some ⟨h, t⟩ := by
  simp only [decode26, check_ok, bne_iff_ne, ne_eq, not_not] at hi
  obtain ⟨htc, -, hi⟩ := hi
  split at hi <;> cases hi
  all_goals exact congrArg some (OpV4.enc_ofBits ht hm htc ‹_›)
theorem decode2D_encodes_back (ht : TailFits h t) (hm : (headMaj h).toNat = 0x2D) (hi : decode2D h t false = .ok i) : i.encode = some ⟨h, t⟩ := by
  simp only [decode2D, check_ok, bne_iff_ne, ne_eq, not_not, Bool.not_eq_true, Bool.or_eq_true, not_or] at hi
  obtain ⟨htc, hx, -, ⟨hz, hz'⟩, hi⟩ := hi
  split at hi <;> cases hi
  all_goals exact congrArg some (OpM4.enc_ofBits ht hm htc hx ‹_› hz hz')
theorem decode2F_encodes_back (hm : (headMaj h).toNat = 0x2F) (hi : decode2F h t false = .ok i) : i.encode = some ⟨h, t⟩ := by
  simp only [decode2F, check_ok, bne_iff_ne, ne_eq, not_not, Bool.not_eq_true, Bool.or_eq_true, not_or] at hi
  obtain ⟨htc, hx, ⟨⟨hz, hz'⟩, hz''⟩, hi⟩ := hi
  split at hi <;> cases hi
  all_goals exact congrArg some (OpVA.enc_ofBits hm htc hx ‹_› hz hz' hz'')
theorem decode50_encodes_back (hm : (headMaj h).toNat = 0x50) (hi : decode50 h t false = .ok i) : i.encode = some ⟨h, t⟩ := by
  simp only [decode50, check_ok, bne_iff_ne, ne_eq, not_not] at hi
  obtain ⟨htc, -, hz, hi⟩ := hi
  cases hx : headX h <;> simp only [hx] at hi <;> cases hi
  all_goals exact congrArg some (OpM8.enc_ofBits hm htc hx hz)
theorem decode52_encodes_back (ht : TailFits h t) (hm : (headMaj h).toNat = 0x52) (hi : decode52 h t false = .ok i) : i.encode = some ⟨h, t⟩ := by
  simp only [decode52, check_ok, bne_iff_ne, ne_eq, not_not, Bool.or_eq_true, not_or] at hi
  obtain ⟨htc, -, ⟨hz, hz'⟩, hi⟩ := hi
  cases hx : headX h <;> simp only [hx] at hi <;> cases hi
  all_goals exact congrArg some (OpMT.enc_ofBits ht hm htc hx hz hz')
/-- F7 of major 0x75: the form, a reserved bit, the scope (R84). -/
theorem headF7_sync (h : BitVec 16) : h.extractLsb' 4 3 ++ h.extractLsb' 3 1 ++ h.extractLsb' 0 3 = headF7 h := by
  unfold headF7
  simp (disch := decide) only [extractLsb'_join]
theorem decode75_encodes_back (ht : TailFits h t) (hm : (headMaj h).toNat = 0x75) (hi : decode75 h t false = .ok i) : i.encode = some ⟨h, t⟩ := by
  simp only [decode75, check_ok, bne_iff_ne, ne_eq, not_not] at hi
  obtain ⟨htc, hz, hi⟩ := hi
  have hf {k : BitVec 3} (hk : (h.extractLsb' 4 3).toNat = k.toNat) : k ++ 0#1 ++ h.extractLsb' 0 3 = headF7 h := by
    rw [← BitVec.eq_of_toNat_eq hk, ← hz, headF7_sync]
  split at hi
  case h_1 hk =>
    cases hi
    exact congrArg some (encoded_tc0 ht hm htc (hf (k := 0) hk).symm)
  case h_2 hk =>
    obtain ⟨hs, hi⟩ := only_ok.mp hi
    cases hi
    exact congrArg some (encoded_tc0 ht hm htc (by rw [← hf (k := 1) hk, eq_of_beq hs]; rfl))
  case h_3 hk =>
    obtain ⟨hs, hi⟩ := only_ok.mp hi
    cases hi
    exact congrArg some (encoded_tc0 ht hm htc (by rw [← hf (k := 2) hk, eq_of_beq hs]; rfl))
  case h_4 => cases hi

/-! ### Every major (R80 to R84) -/

/-- A head and a tail that a decoder of the opcode maps takes are the encoding of what it reads. -/
theorem encode_of_decodeRaw (ht : TailFits h t) (hi : decodeRaw h t false = .ok i) : i.encode = some ⟨h, t⟩ := by
  unfold decodeRaw at hi
  split at hi
  all_goals rename_i hm
  · exact decode00_encodes_back ht hm hi
  · exact a2Form_encodes_back (by simp) ht hm hi
  · exact decode02_encodes_back ht hm hi
  · exact a2Form_encodes_back (by simp) ht hm hi
  · exact a2_encodes_back (by simp) ht hm hi
  · exact v4Checked_encodes_back (by simp) ht hm hi
  · exact decode06_encodes_back ht hm hi
  · exact w4_encodes_back (by simp) ht hm hi
  · exact l4_encodes_back (by simp) ht hm hi
  · exact l4_encodes_back (by simp) ht hm hi
  · exact decode0A_encodes_back ht hm hi
  · exact decode0B_encodes_back ht hm hi
  · exact j4_encodes_back (by simp) ht hm hi
  · exact j4_encodes_back (by simp) ht hm hi
  · exact a2_encodes_back (by simp) ht hm hi
  · exact j4_encodes_back (by simp) ht hm hi
  · exact j4_encodes_back (by simp) ht hm hi
  · exact decode11_encodes_back ht hm hi
  · exact decode12_encodes_back ht hm hi
  · exact f7_encodes_back (by simp) ht hm hi
  · exact decode14_encodes_back ht hm hi
  · exact decode1F_encodes_back ht hm hi
  · exact a2_encodes_back (by simp) ht hm hi
  · exact w4_encodes_back (by simp) ht hm hi
  · exact decode22_encodes_back hm hi
  · exact decode23_encodes_back ht hm hi
  · exact v4_encodes_back (by simp) ht hm hi
  · exact decode25_encodes_back hm hi
  · exact decode26_encodes_back ht hm hi
  · exact a2_encodes_back (by simp) ht hm hi
  · exact a2Form_encodes_back (by simp) ht hm hi
  · exact v4_encodes_back (by simp) ht hm hi
  · exact a2Form_encodes_back (by simp) ht hm hi
  · exact decode2B_encodes_back ht hm hi
  · exact v4Plain_encodes_back (by simp) ht hm hi
  · exact decode2D_encodes_back ht hm hi
  · exact m4_encodes_back (by simp) ht hm hi
  · exact decode2F_encodes_back hm hi
  · exact decode50_encodes_back hm hi
  · exact f7_encodes_back (by simp) ht hm hi
  · exact decode52_encodes_back ht hm hi
  · exact v4Plain_encodes_back (by simp) ht hm hi
  · exact g8Bit_encodes_back (by simp) hm hi
  · exact g8_encodes_back (by simp) hm hi
  · exact g8Bit_encodes_back (by simp) hm hi
  · exact g8_encodes_back (by simp) hm hi
  · exact decode58_encodes_back ht hm hi
  · exact a2_encodes_back (by simp) ht hm hi
  · exact a2_encodes_back (by simp) ht hm hi
  · exact v4_encodes_back (by simp) ht hm hi
  · exact g8_encodes_back (by simp) hm hi
  · exact a2_encodes_back (by simp) ht hm hi
  · exact g8_encodes_back (by simp) hm hi
  · exact g8_encodes_back (by simp) hm hi
  · exact v4Checked_encodes_back (by simp) ht hm hi
  · exact a2_encodes_back (by simp) ht hm hi
  · exact a2_encodes_back (by simp) ht hm hi
  · exact g8_encodes_back (by simp) hm hi
  · exact g8_encodes_back (by simp) hm hi
  · exact a2_encodes_back (by simp) ht hm hi
  · exact a2_encodes_back (by simp) ht hm hi
  · exact a2_encodes_back (by simp) ht hm hi
  · exact m4_encodes_back (by simp) ht hm hi
  · exact decode75_encodes_back ht hm hi
  · exact a2_encodes_back (by simp) ht hm hi
  · exact g8_encodes_back (by simp) hm hi
  · exact a2_encodes_back (by simp) ht hm hi
  · exact a2_encodes_back (by simp) ht hm hi
  · cases hi
end

theorem decodeRaw_of_decode {h : BitVec 16} {t : BitVec 64} {i : Instr} (hi : decode h t = .ok i) : decodeRaw h t false = .ok i := by
  unfold decode at hi
  split at hi
  case h_1 => cases hi
  case h_2 j hraw =>
    split at hi <;> cases hi
    exact hraw

end Sys2Proof

namespace Sys2Proof.Machine

/-- Settles O50: of the majors' decoders each takes only the word that its layout writes for what was read. -/
theorem decodedWordsEncodeBack : Obligations.DecodedWordsEncodeBack :=
  fun _ _ _ ht hi => encode_of_decodeRaw ht (decodeRaw_of_decode hi)

/-- Settles O51: each word is the encoding of its instruction; a head of zeros is a reserved value of major 0x00. -/
theorem specWordsDecode : Obligations.SpecWordsDecode := by
  have hzero : decode 0x0000 0 = .error .badF7 := rfl
  refine ⟨encodedInstructionsDecode _ ⟨_, _⟩ rfl rfl, encodedInstructionsDecode _ ⟨_, _⟩ rfl rfl, encodedInstructionsDecode _ ⟨_, _⟩ rfl rfl,
    encodedInstructionsDecode _ ⟨_, _⟩ rfl rfl, encodedInstructionsDecode _ ⟨_, _⟩ rfl rfl, encodedInstructionsDecode _ ⟨_, _⟩ rfl rfl, ?_⟩
  rw [hzero]
  exact fun i => nofun

end Sys2Proof.Machine
end

section
/-! SUPPORT. A step of the machine as the turn of a slot: the line that it fetches, what its decoding leads to, and the turns that are due
before it (R69 to R74, R85, R394). -/

namespace Sys2Proof.Machine

/-! ### The turn of a slot -/

theorem State.mayRun_iff (s : State) : s.mayRun = true ↔ s.slot.run = .running ∧ s.clus.preempt = false := by
  simp [State.mayRun]
theorem runSlot_idle {s : State} (h : s.slot.run ≠ .running ∨ s.clus.preempt = true) : runSlot s = .next { s with time := s.time + 1 } := by
  refine if_neg fun hrun => ?_
  obtain ⟨hr, hp⟩ := s.mayRun_iff.mp hrun
  exact h.elim (· hr) (by simp [hp])
theorem step_of_agenda_nil {s : State} (h : s.agenda = []) : step s = runSlot s := by rw [step, h]

section
variable {s u : State} {l : Line} {h : BitVec 16} {x : BitVec 64}
/-- What a slot that may run does with the instruction at its address (R69 to R74). -/
theorem runSlot_ins (hrun : s.slot.run = .running) (hpre : s.clus.preempt = false) (hfetch : s.fetchLine (lineOf s.slot.pc) = .ok (l, u))
    (hgood : lineOf s.slot.pc ∉ u.slot.badLines) (hins : lineSlot l (slotOf s.slot.pc) = .ins h x) :
    (∀ i, decode h x = .ok i → runSlot s = exec i (u.modSlot (fun y => { y with npc := nextAddr l s.slot.pc }))) ∧
      ∀ r, decode h x = .error r → runSlot s = .next (u.takeTrap (Trap.ill r.sub.toNat)) := by
  have hnot : u.slot.badLines.contains (lineOf s.slot.pc) = false := by simpa using hgood
  have hrun : runSlot s = match s.nextIns with
      | .error e => finish (.error e)
      | .ok (i, t) => exec i t := if_pos (s.mayRun_iff.mpr ⟨hrun, hpre⟩)
  constructor
  · intro i hi
    rw [hrun, State.nextIns, hfetch]
    simp only [bind, Except.bind, hnot, hins, hi]
    rfl
  · intro r hr
    rw [hrun, State.nextIns, hfetch]
    simp only [bind, Except.bind, hnot, hins, hr]
    rfl
end

/-! ### The line that is fetched (R73, R394) -/

theorem fetchLine_kept {s : State} {la : Nat} {l : Line} (h : look la s.slot.lines = some l) : s.fetchLine la = .ok (l, s) := by
  rw [State.fetchLine, h]
theorem fetchLine_fresh {s : State} {la loc : Nat} (h : look la s.slot.lines = none) (hx : s.xlate la .fx .fetch = .ok (.mem loc, s)) :
    s.fetchLine la = .ok (BitVec.ofNat 512 (s.newestRead loc 64),
      s.modSlot (fun x => { x with lines := (la, BitVec.ofNat 512 (s.newestRead loc 64)) :: x.lines })) := by
  rw [State.fetchLine, h, hx]
  rfl
theorem newestRead_eq (s : State) (n : Nat) :
    ∀ loc, s.newestRead loc n = Nat.ofDigits 256 ((List.range n).map (fun k => (s.newest (loc + k)).toNat)) := by
  induction n with
  | zero => exact fun _ => rfl
  | succ n ih =>
    intro loc
    rw [State.newestRead, ih, List.range_succ_eq_map, List.map_cons, List.map_map, Nat.ofDigits_cons]
    simp [Function.comp_def, Nat.add_assoc, Nat.add_comm 1]
/-- Byte k of 64 bytes as an image of 512 bits. -/
theorem extractLsb'_ofNat_byte (x : Nat) {k : Nat} (hk : k < 64) : ((BitVec.ofNat 512 x).extractLsb' (8 * k) 8).toNat = x / 256 ^ k % 256 := by
  have hsplit : 2 ^ 512 = 256 ^ k * 256 ^ (64 - k) := by
    rw [← Nat.pow_add, Nat.add_sub_cancel' hk.le, show 256 = 2 ^ 8 by decide, ← Nat.pow_mul]
  rw [BitVec.extractLsb'_toNat, BitVec.toNat_ofNat, Nat.shiftRight_eq_div_pow, Nat.pow_mul, show 2 ^ 8 = 256 by decide, hsplit,
    Nat.mod_mul_right_div_self, Nat.mod_mod_of_dvd _ (dvd_pow_self 256 (by omega))]
/-- Byte k of a line's image is the byte that the core finds there. -/
theorem newestRead_byte (s : State) (loc : Nat) {k : Nat} (hk : k < 64) :
    (BitVec.ofNat 512 (s.newestRead loc 64)).extractLsb' (8 * k) 8 = s.newest (loc + k) := by
  have hsmall : ∀ y ∈ (List.range 64).map (fun k => (s.newest (loc + k)).toNat), y < 256 := by
    intro y hy
    obtain ⟨j, -, rfl⟩ := List.mem_map.mp hy
    exact (s.newest (loc + j)).isLt
  apply BitVec.eq_of_toNat_eq
  rw [extractLsb'_ofNat_byte _ hk, newestRead_eq, ofDigits_div_mod (by decide) _ hsmall]
  simp [hk]

/-- Settles O52: the turn of a slot by its decoding, the line by what the core finds, and the turns of the agenda by `step`. -/
theorem stepRunsTheDecodedInstruction : Obligations.StepRunsTheDecodedInstruction := by
  refine ⟨fun s l u h x hag hrun hpre hfetch hgood hins => ?_, fun _ _ _ => fetchLine_kept, fun s la loc hlook hx => ?_, fun s i r hag => ?_,
    fun s cl co hi r u hag hu hidle => ?_⟩
  · rw [step_of_agenda_nil hag]
    exact runSlot_ins hrun hpre hfetch hgood hins
  · exact ⟨_, fetchLine_fresh hlook hx, fun _ => newestRead_byte s loc⟩
  · rw [step, hag]
  · subst hu
    rw [step, hag]
    exact runSlot_idle hidle

/-! ### Majors that no map assigns (R85) -/

theorem decode_unassigned {h : BitVec 16} (x : BitVec 64) {m : Nat} (hm : m = h.toNat / 128 % 128)
    (hu : 0x15 ≤ m ∧ m ≤ 0x1E ∨ 0x30 ≤ m ∧ m ≤ 0x4F ∨ 0x5C ≤ m ∧ m ≤ 0x5F ∨ 0x68 ≤ m ∧ m ≤ 0x6F ∨ 0x7A ≤ m ∧ m ≤ 0x7F) :
    decode h x = .error .unassigned := by
  have hmaj : (headMaj h).toNat = m := by rw [hm, headMaj, BitVec.extractLsb'_toNat, Nat.shiftRight_eq_div_pow]
  have hraw : decodeRaw h x false = .error .unassigned := by
    rw [← hmaj] at hu
    unfold decodeRaw
    split
    case h_69 => rfl
    all_goals
      rename_i hassigned
      rw [hassigned] at hu
      exact absurd hu (by decide)
  rw [decode, hraw]

/-- Settles O56: the major is of no opcode map, and the turn of the slot takes what the decoder answers. -/
theorem unassignedMajorsTrap : Obligations.UnassignedMajorsTrap := by
  intro h x m hm hu
  have hdec := decode_unassigned x hm hu
  refine ⟨hdec, fun s l u hag hrun hpre hfetch hgood hins => ?_⟩
  have htrap : Trap.ill Reject.unassigned.sub.toNat = { code := 0x01, sub := 0x01 } := rfl
  rw [step_of_agenda_nil hag, (runSlot_ins hrun hpre hfetch hgood hins).2 _ hdec, htrap]

end Sys2Proof.Machine
end

section
/-! SUPPORT. The register forms of the control thread (R86, R97 to R104, R123, R124): each of the model's functions is the number that the rule names, so that a form writes that
number to its register (`WritesVal`). -/

namespace Sys2Proof.Machine

/-! ### Shifts, comparisons and the 32-bit forms (R97) -/

theorem int32_eq (z : Int) : int32 z = (BitVec.ofInt 32 z).signExtend 64 := by
  rw [int32, BitVec.signExtend, BitVec.toInt_ofInt]

theorem low32_eq (x : Word) : low32 x = (x.setWidth 32).toInt := by
  rw [low32, BitVec.toInt_setWidth, BitVec.toInt_eq_toNat_bmod]
  exact Int.bmod_bmod_of_dvd (Nat.pow_dvd_pow 2 (by decide : 32 ≤ 64))

theorem ulow32_eq (x : Word) : ulow32 x = (x.setWidth 32).toNat := rfl

theorem fld_low {n : Nat} (x : BitVec n) (w : Nat) : fld x 0 w = x.toNat % 2 ^ w := by
  rw [fld, BitVec.extractLsb'_toNat, Nat.shiftRight_zero]

theorem aluSll_eq (a b : Word) : aluSll a b = word (a.toNat * 2 ^ (b.toNat % 64)) := by
  apply BitVec.eq_of_toNat_eq
  rw [aluSll, fld_low, BitVec.toNat_shiftLeft, Nat.shiftLeft_eq]
  rfl

theorem aluSrl_eq (a b : Word) : aluSrl a b = word (a.toNat / 2 ^ (b.toNat % 64)) := by
  apply BitVec.eq_of_toNat_eq
  rw [aluSrl, fld_low, BitVec.toNat_ushiftRight, Nat.shiftRight_eq_div_pow, word, BitVec.toNat_ofNat]
  exact (Nat.mod_eq_of_lt ((Nat.div_le_self ..).trans_lt a.isLt)).symm

theorem aluSra_eq (a b : Word) : aluSra a b = int64 (a.toInt / 2 ^ (b.toNat % 64)) := by
  rw [aluSra, fld_low, int64, ← BitVec.ofInt_toInt (x := a.sshiftRight _), BitVec.toInt_sshiftRight, Int.shiftRight_eq_div_pow]
  simp

theorem aluSlt_eq (a b : Word) : aluSlt a b = truth (a.toInt < b.toInt) := by
  simp only [aluSlt, truth, BitVec.slt_iff_toInt_lt]

theorem aluSltu_eq (a b : Word) : aluSltu a b = truth (a.toNat < b.toNat) := by
  simp only [aluSltu, truth, BitVec.ult_iff_toNat_lt]

theorem int64_toInt (a : Word) : int64 a.toInt = a := BitVec.ofInt_toInt

theorem aluMin_eq (a b : Word) : aluMin a b = int64 (min a.toInt b.toInt) := by
  rw [aluMin]
  split <;> rename_i h <;> rw [BitVec.slt_iff_toInt_lt] at h
  · rw [min_eq_right h.le, int64_toInt]
  · rw [min_eq_left (not_lt.mp h), int64_toInt]

theorem aluMax_eq (a b : Word) : aluMax a b = int64 (max a.toInt b.toInt) := by
  rw [aluMax]
  split <;> rename_i h <;> rw [BitVec.slt_iff_toInt_lt] at h
  · rw [max_eq_right h.le, int64_toInt]
  · rw [max_eq_left (not_lt.mp h), int64_toInt]

theorem aluW_eq_int32 {f : BitVec 32 → BitVec 32 → BitVec 32} {a b : Word} {z : Int} (h : BitVec.ofInt 32 z = f (a.setWidth 32) (b.setWidth 32)) :
    aluW f a b = int32 z := by
  rw [aluW, int32_eq, h]

theorem ofInt_sub_toInt {n : Nat} (x y : BitVec n) : BitVec.ofInt n (x.toInt - y.toInt) = x - y := by
  apply BitVec.eq_of_toInt_eq
  rw [BitVec.toInt_ofInt, BitVec.toInt_sub]

theorem ofInt_mul_two_pow {n : Nat} (x : BitVec n) (k : Nat) : BitVec.ofInt n (x.toInt * 2 ^ k) = x <<< k := by
  rw [BitVec.ofInt_mul, BitVec.ofInt_toInt, BitVec.shiftLeft_eq_mul_twoPow]
  congr 1
  apply BitVec.eq_of_toNat_eq
  rw [show (2 : Int) ^ k = ((2 ^ k : Nat) : Int) by simp, BitVec.ofInt_natCast, BitVec.toNat_ofNat, BitVec.toNat_twoPow]

theorem ofInt_div_two_pow {n : Nat} (x : BitVec n) (k : Nat) : BitVec.ofInt n (x.toInt / 2 ^ k) = x.sshiftRight k := by
  rw [← BitVec.ofInt_toInt (x := x.sshiftRight k), BitVec.toInt_sshiftRight, Int.shiftRight_eq_div_pow]
  simp

theorem ofInt_toNat_div {n : Nat} (x : BitVec n) (k : Nat) : BitVec.ofInt n (x.toNat / 2 ^ k : Nat) = x >>> k := by
  apply BitVec.eq_of_toNat_eq
  rw [BitVec.ofInt_natCast, BitVec.toNat_ofNat, BitVec.toNat_ushiftRight, Nat.shiftRight_eq_div_pow]
  exact Nat.mod_eq_of_lt ((Nat.div_le_self ..).trans_lt x.isLt)

theorem fld_setWidth32 (b : Word) : fld (b.setWidth 32) 0 5 = b.toNat % 32 := by
  rw [fld_low, BitVec.toNat_setWidth]
  exact Nat.mod_mod_of_dvd _ (by decide)

theorem add_eq_int64 (a b : Word) : a + b = int64 (a.toInt + b.toInt) := by
  rw [int64, BitVec.ofInt_add, BitVec.ofInt_toInt, BitVec.ofInt_toInt]

theorem sub_eq_int64 (a b : Word) : a - b = int64 (a.toInt - b.toInt) := (ofInt_sub_toInt a b).symm

theorem mul_eq_int64 (a b : Word) : a * b = int64 (a.toInt * b.toInt) := by
  rw [int64, BitVec.ofInt_mul, BitVec.ofInt_toInt, BitVec.ofInt_toInt]

theorem aluW_add (a b : Word) : aluW (· + ·) a b = int32 (low32 a + low32 b) := by
  refine aluW_eq_int32 ?_
  rw [low32_eq, low32_eq, BitVec.ofInt_add, BitVec.ofInt_toInt, BitVec.ofInt_toInt]

theorem aluW_sub (a b : Word) : aluW (· - ·) a b = int32 (low32 a - low32 b) := by
  refine aluW_eq_int32 ?_
  rw [low32_eq, low32_eq, ofInt_sub_toInt]

theorem aluW_mul (a b : Word) : aluW (· * ·) a b = int32 (low32 a * low32 b) := by
  refine aluW_eq_int32 ?_
  rw [low32_eq, low32_eq, BitVec.ofInt_mul, BitVec.ofInt_toInt, BitVec.ofInt_toInt]

theorem aluW_sllW32 (a b : Word) : aluW sllW32 a b = int32 (low32 a * 2 ^ (b.toNat % 32)) := by
  refine aluW_eq_int32 ?_
  rw [low32_eq, ofInt_mul_two_pow, sllW32, fld_setWidth32]

theorem aluW_srlW32 (a b : Word) : aluW srlW32 a b = int32 (ulow32 a / 2 ^ (b.toNat % 32) : Nat) := by
  refine aluW_eq_int32 ?_
  rw [ulow32_eq, ofInt_toNat_div, srlW32, fld_setWidth32]

theorem aluW_sraW32 (a b : Word) : aluW sraW32 a b = int32 (low32 a / 2 ^ (b.toNat % 32)) := by
  refine aluW_eq_int32 ?_
  rw [low32_eq, ofInt_div_two_pow, sraW32, fld_setWidth32]

/-! ### The immediates (R98, R99) -/

theorem imm20_setWidth_signExtend (x : BitVec 20) {k : Nat} (hk : k ≤ 20) : (x.signExtend 64).setWidth k = x.setWidth k := by
  apply BitVec.eq_of_getLsbD_eq
  intro j hj
  rw [BitVec.getLsbD_setWidth, BitVec.getLsbD_setWidth, BitVec.getLsbD_signExtend, if_pos (show j < 20 by omega)]
  simp [hj, show j < 64 by omega]

theorem signExtend_toNat_mod (x : BitVec 20) {k : Nat} (hk : k ≤ 20) : (x.signExtend 64).toNat % 2 ^ k = x.toNat % 2 ^ k := by
  rw [← BitVec.toNat_setWidth, imm20_setWidth_signExtend x hk, BitVec.toNat_setWidth]

theorem imm20_setWidth32_signExtend (x : BitVec 20) : (x.signExtend 64).setWidth 32 = BitVec.ofInt 32 x.toInt := by
  apply BitVec.eq_of_toInt_eq
  rw [← low32_eq, low32, BitVec.toInt_signExtend_of_le (by decide), BitVec.toInt_ofInt]

theorem imm20_toInt_signExtend (x : BitVec 20) : (x.signExtend 64).toInt = x.toInt := BitVec.toInt_signExtend_of_le (by decide)

theorem signExtend_toNat_mod_64 (x : BitVec 20) : (x.signExtend 64).toNat % 64 = x.toNat % 64 := signExtend_toNat_mod x (k := 6) (by decide)

theorem signExtend_toNat_mod_32 (x : BitVec 20) : (x.signExtend 64).toNat % 32 = x.toNat % 32 := signExtend_toNat_mod x (k := 5) (by decide)

theorem aluW_add_signExtend (a : Word) (x : BitVec 20) : aluW (· + ·) a (x.signExtend 64) = int32 (low32 a + x.toInt) := by
  refine aluW_eq_int32 ?_
  rw [imm20_setWidth32_signExtend, low32_eq, BitVec.ofInt_add, BitVec.ofInt_toInt]

theorem getid_sel {o : OpW2} (hw : Instr.WellFormed (.getid o)) : o.val.toNat < 14 ∧ o.val.toNat ≠ 8 := by
  simp only [Instr.WellFormed, Instr.defect, firstOf_cons, Bool.or_eq_false_iff, decide_eq_false_iff_not, beq_eq_false_iff_ne] at hw
  obtain ⟨-, ⟨hlt, h8⟩, -⟩ := hw
  exact ⟨by omega, fun h => h8 (BitVec.eq_of_toNat_eq h)⟩

/-! ### Products and quotients (R100) -/

theorem aluMulh_eq (a b : Word) : aluMulh a b = int64 (a.toInt * b.toInt / 2 ^ 64) := by
  have h : a.signExtend 128 * b.signExtend 128 = BitVec.ofInt 128 (a.toInt * b.toInt) := by
    rw [BitVec.ofInt_mul]
    rfl
  rw [aluMulh, h]
  generalize a.toInt * b.toInt = z
  apply BitVec.eq_of_toNat_eq
  rw [int64, BitVec.extractLsb'_toNat, BitVec.toNat_ofInt, BitVec.toNat_ofInt, Nat.shiftRight_eq_div_pow]
  norm_num
  omega

theorem aluMulhu_eq (a b : Word) : aluMulhu a b = word (a.toNat * b.toNat / 2 ^ 64) := by
  apply BitVec.eq_of_toNat_eq
  have ha := a.isLt
  have hb := b.isLt
  have hlt : a.toNat * b.toNat < 2 ^ 128 := by
    calc a.toNat * b.toNat < 2 ^ 64 * 2 ^ 64 := Nat.mul_lt_mul'' ha hb
      _ = 2 ^ 128 := by norm_num
  rw [aluMulhu, BitVec.extractLsb'_toNat, BitVec.toNat_mul, BitVec.toNat_setWidth, BitVec.toNat_setWidth,
    Nat.mod_eq_of_lt (ha.trans (by norm_num)), Nat.mod_eq_of_lt (hb.trans (by norm_num)), Nat.mod_eq_of_lt hlt, Nat.shiftRight_eq_div_pow, word, BitVec.toNat_ofNat]

theorem allOnes_eq (n : Nat) : BitVec.allOnes n = BitVec.ofInt n (-1) := by
  rw [BitVec.ofInt_neg, ← BitVec.neg_one_eq_allOnes]
  rfl

theorem ofInt_tdiv {n : Nat} (x y : BitVec n) : BitVec.ofInt n (x.toInt.tdiv y.toInt) = x.sdiv y := by
  apply BitVec.eq_of_toInt_eq
  rw [BitVec.toInt_ofInt, BitVec.toInt_sdiv]

theorem ofInt_tmod {n : Nat} (x y : BitVec n) : BitVec.ofInt n (x.toInt.tmod y.toInt) = x.srem y := by
  rw [← BitVec.toInt_srem, BitVec.ofInt_toInt]

theorem ofNat_toNat_div {n : Nat} (x y : BitVec n) : BitVec.ofNat n (x.toNat / y.toNat) = x / y := by
  rw [← BitVec.toNat_udiv, BitVec.ofNat_toNat, BitVec.setWidth_eq]

theorem ofNat_toNat_mod {n : Nat} (x y : BitVec n) : BitVec.ofNat n (x.toNat % y.toNat) = x % y := by
  rw [← BitVec.toNat_umod, BitVec.ofNat_toNat, BitVec.setWidth_eq]

theorem low32_eq_zero_iff (x : Word) : low32 x = 0 ↔ x.setWidth 32 = 0 := by
  rw [low32_eq, ← BitVec.toInt_zero (w := 32), BitVec.toInt_inj]
  rfl

theorem ulow32_eq_zero_iff (x : Word) : ulow32 x = 0 ↔ x.setWidth 32 = 0 := by
  rw [ulow32_eq, ← BitVec.toNat_inj]
  rfl

theorem aluDiv_eq (a b : Word) : aluDiv a b = if b = 0 then int64 (-1) else int64 (a.toInt.tdiv b.toInt) := by
  rw [aluDiv, int64, int64, ofInt_tdiv, allOnes_eq]

theorem aluDivu_eq (a b : Word) : aluDivu a b = if b = 0 then int64 (-1) else word (a.toNat / b.toNat) := by
  rw [aluDivu, int64, word, ofNat_toNat_div, allOnes_eq]

theorem aluRem_eq (a b : Word) : aluRem a b = if b = 0 then a else int64 (a.toInt.tmod b.toInt) := by
  rw [aluRem, int64, ofInt_tmod]

theorem aluRemu_eq (a b : Word) : aluRemu a b = if b = 0 then a else word (a.toNat % b.toNat) := by
  rw [aluRemu, word, ofNat_toNat_mod]

/-- A .W form that sets its divisor 0 apart. -/
theorem aluW_ite {f : BitVec 32 → BitVec 32 → BitVec 32} {a b : Word} {p : Prop} [Decidable p] {y z : Int} (hp : p ↔ b.setWidth 32 = 0)
    (hf : f (a.setWidth 32) (b.setWidth 32) = if b.setWidth 32 = 0 then BitVec.ofInt 32 y else BitVec.ofInt 32 z) :
    aluW f a b = if p then int32 y else int32 z := by
  rw [aluW, hf, int32_eq, int32_eq, apply_ite (BitVec.signExtend 64)]
  exact if_congr hp.symm rfl rfl

theorem aluW_aluDiv (a b : Word) : aluW aluDiv a b = if low32 b = 0 then int32 (-1) else int32 ((low32 a).tdiv (low32 b)) := by
  refine aluW_ite (low32_eq_zero_iff b) ?_
  rw [aluDiv, low32_eq, low32_eq, ofInt_tdiv, allOnes_eq]

theorem aluW_aluDivu (a b : Word) : aluW aluDivu a b = if ulow32 b = 0 then int32 (-1) else int32 (ulow32 a / ulow32 b : Nat) := by
  refine aluW_ite (ulow32_eq_zero_iff b) ?_
  rw [aluDivu, ulow32_eq, ulow32_eq, BitVec.ofInt_natCast, ofNat_toNat_div, allOnes_eq]

theorem aluW_aluRem (a b : Word) : aluW aluRem a b = if low32 b = 0 then int32 (low32 a) else int32 ((low32 a).tmod (low32 b)) := by
  refine aluW_ite (low32_eq_zero_iff b) ?_
  rw [aluRem, low32_eq, low32_eq, ofInt_tmod, BitVec.ofInt_toInt]

theorem aluW_aluRemu (a b : Word) : aluW aluRemu a b = if ulow32 b = 0 then int32 (low32 a) else int32 (ulow32 a % ulow32 b : Nat) := by
  refine aluW_ite (ulow32_eq_zero_iff b) ?_
  rw [aluRemu, ulow32_eq, ulow32_eq, BitVec.ofInt_natCast, ofNat_toNat_mod, low32_eq, BitVec.ofInt_toInt]

/-! ### Bit counts, identity and addresses (R101 to R104, R123, R124) -/

theorem length_takeWhile_range {q : Nat → Bool} {n m : Nat} (hm : m ≤ n) (hbelow : ∀ k < m, q k = true) (hat : m < n → q m = false) :
    ((List.range n).takeWhile q).length = m := by
  obtain ⟨j, rfl⟩ := Nat.exists_eq_add_of_le hm
  rw [List.range_add, List.takeWhile_append_of_pos (fun k hk => hbelow k (List.mem_range.mp hk))]
  cases j with
  | zero => simp
  | succ j =>
    rw [List.range_succ_eq_map]
    simp [hat (by omega)]

theorem aluClz_eq (a : Word) : aluClz a = word ((List.range 64).takeWhile (fun k => !a.getLsbD (63 - k))).length := by
  rw [aluClz]
  split
  case isTrue h =>
    subst h
    rw [length_takeWhile_range (m := 64) le_rfl (by simp) (by simp)]
    rfl
  case isFalse h =>
    have h0 : a.toNat ≠ 0 := fun h' => h (BitVec.eq_of_toNat_eq h')
    have hlog : a.toNat.log2 < 64 := (Nat.log2_lt h0).mpr a.isLt
    rw [length_takeWhile_range (m := 63 - ilog2 a.toNat) (by omega)]
    · intro k hk
      have hbig : a.toNat < 2 ^ (63 - k) := (Nat.log2_lt h0).mp (by rw [ilog2] at hk; omega)
      simp [BitVec.getLsbD, Nat.testBit_lt_two_pow hbig]
    · intro _
      rw [ilog2, show 63 - (63 - a.toNat.log2) = a.toNat.log2 by omega, BitVec.getLsbD, Nat.testBit_log2 h0]
      rfl

theorem firstFrom_eq (p : Nat → Bool) (n : Nat) :
    ∀ i, (firstFrom p i n).getD (i + n) = i + ((List.range' i n).takeWhile (fun k => !p k)).length := by
  induction n with
  | zero => exact fun _ => rfl
  | succ n ih =>
    intro i
    have hnext := ih (i + 1)
    rw [Nat.add_right_comm] at hnext
    rw [firstFrom, List.range'_succ, List.takeWhile_cons]
    cases p i with
    | true => rfl
    | false => exact hnext.trans (by simp [Nat.add_assoc, Nat.add_comm 1])

theorem aluCtz_eq (a : Word) : aluCtz a = word ((List.range 64).takeWhile (fun k => !a.getLsbD k)).length := by
  have h := firstFrom_eq (fun i => a.getLsbD i) 64 0
  rw [Nat.zero_add, Nat.zero_add] at h
  rw [aluCtz, h, List.range_eq_range']

theorem aluPopc_eq (a : Word) : aluPopc a = word ((List.range 64).filter (fun k => a.getLsbD k)).length := by
  rw [aluPopc, countBelow_eq]

theorem caps_eq (s : State) : s.caps = if s.variant = .kwenulos then 0x0100_A221_2000_001F + word (s.stepping % 256 * 2 ^ 48)
    else 0x0200_5121_1000_0010 + word (s.stepping % 256 * 2 ^ 48) := by
  have hword (m n : Nat) : word (m + n) = word m + word n := BitVec.ofNat_add m n
  unfold State.caps State.full
  by_cases h : s.variant = .kwenulos
  · rw [h, beq_self_eq_true, if_pos rfl, if_pos rfl, if_pos rfl, Nat.shiftLeft_eq, Nat.shiftLeft_eq, hword, hword, add_right_comm]
    rfl
  · rw [beq_false_of_ne h, if_neg h, if_neg Bool.false_ne_true, if_neg Bool.false_ne_true, Nat.shiftLeft_eq, Nat.shiftLeft_eq, hword, hword, add_right_comm]
    rfl

theorem ident_eq (s : State) {sel : Nat} (h : sel < 14) (h8 : sel ≠ 8) : s.ident sel 0 = (identities s)[sel]?.getD 0 := by
  interval_cases sel <;> rfl

theorem add_signExtend32_eq (p : Word) (x : BitVec 32) : p + x.signExtend 64 = int64 (p.toNat + x.toInt) := by
  rw [int64, BitVec.ofInt_add, BitVec.ofInt_natCast, BitVec.ofNat_toNat, BitVec.setWidth_eq]
  rfl

/-! ### The forms: what each writes, and where -/

/-- The outcome is a write of the value to register gd, then retirement. -/
def WritesVal (d : BitVec 6) (v : Word) (s : State) (r : Host.Outcome State Fault Refusal) : Prop := ∃ f, r = putG d f s ∧ f s = v

theorem writesVal_putG {d : BitVec 6} {f : State → Word} {s : State} {v : Word} (h : f s = v) : WritesVal d v s (putG d f s) := ⟨f, rfl, h⟩

theorem writesVal_regOp {o : OpA2} {f : Word → Word → Word} {s : State} {v : Word} (h : f (s.g o.a) (s.g o.b) = v) : WritesVal o.d v s (regOp o f s) :=
  ⟨_, rfl, h⟩

theorem writesVal_immOp {o : OpI4} {f : Word → Word → Word} {s : State} {v : Word} (h : f (s.g o.a) (o.imm.signExtend 64) = v) :
    WritesVal o.d v s (immOp o f s) :=
  ⟨_, rfl, h⟩

theorem WritesVal.runs {d : BitVec 6} {v : Word} {s : State} {i : Instr} (hs : s.Free) (hd : d.toNat < 32) (h : WritesVal d v s (exec i s)) :
    Runs i s (fun t => WroteG d.toNat v t ∧ Advanced s t ∧ ScalarFrame d.toNat s t) := by
  obtain ⟨f, hexec, rfl⟩ := h
  rw [Runs, hexec]
  exact putG_runs hs hd f

/-- The first check of a form with fD. -/
theorem dest_lt {d : BitVec 6} {r : Reject} {l : List (Bool × Reject)} (h : firstOf ((decide (32 ≤ d.toNat), r) :: l) = none) : d.toNat < 32 := by
  simpa using ((firstOf_cons _ _ _).mp h).1

theorem integerForm_dest {s : State} {i : Instr} {d : BitVec 6} {v : Word} (hw : i.WellFormed) (h : integerForm s i = some (d, v)) : d.toNat < 32 := by
  unfold integerForm at h
  split at h <;> cases h
  all_goals exact dest_lt hw

theorem integerForm_writesVal {s : State} {i : Instr} {d : BitVec 6} {v : Word} (h : integerForm s i = some (d, v)) : WritesVal d v s (exec i s) := by
  unfold integerForm at h
  split at h <;> cases h
  · exact writesVal_regOp (add_eq_int64 _ _)
  · exact writesVal_regOp (sub_eq_int64 _ _)
  · exact writesVal_regOp rfl
  · exact writesVal_regOp rfl
  · exact writesVal_regOp rfl
  · exact writesVal_regOp (aluSll_eq _ _)
  · exact writesVal_regOp (aluSrl_eq _ _)
  · exact writesVal_regOp (aluSra_eq _ _)
  · exact writesVal_regOp (aluSlt_eq _ _)
  · exact writesVal_regOp (aluSltu_eq _ _)
  · exact writesVal_regOp (aluMin_eq _ _)
  · exact writesVal_regOp (aluMax_eq _ _)
  · exact writesVal_regOp (aluW_add _ _)
  · exact writesVal_regOp (aluW_sub _ _)
  · exact writesVal_regOp (aluW_sllW32 _ _)
  · exact writesVal_regOp (aluW_srlW32 _ _)
  · exact writesVal_regOp (aluW_sraW32 _ _)
  · exact writesVal_immOp (by rw [add_eq_int64, imm20_toInt_signExtend])
  · exact writesVal_immOp rfl
  · exact writesVal_immOp rfl
  · exact writesVal_immOp rfl
  · exact writesVal_immOp (by rw [aluSll_eq, signExtend_toNat_mod_64])
  · exact writesVal_immOp (by rw [aluSrl_eq, signExtend_toNat_mod_64])
  · exact writesVal_immOp (by rw [aluSra_eq, signExtend_toNat_mod_64])
  · exact writesVal_immOp (by rw [aluSlt_eq, imm20_toInt_signExtend])
  · exact writesVal_immOp (aluW_add_signExtend _ _)
  · exact writesVal_immOp (by rw [aluW_sllW32, signExtend_toNat_mod_32])
  · exact writesVal_immOp (by rw [aluW_srlW32, signExtend_toNat_mod_32])
  · exact writesVal_immOp (by rw [aluW_sraW32, signExtend_toNat_mod_32])

theorem productForm_writesVal {s : State} {i : Instr} {d : BitVec 6} {v : Word} (h : productForm s i = some (d, v)) : WritesVal d v s (exec i s) := by
  unfold productForm at h
  split at h <;> cases h
  · exact writesVal_regOp (mul_eq_int64 _ _)
  · exact writesVal_regOp (aluMulh_eq _ _)
  · exact writesVal_regOp (aluMulhu_eq _ _)
  · exact writesVal_regOp (aluDiv_eq _ _)
  · exact writesVal_regOp (aluDivu_eq _ _)
  · exact writesVal_regOp (aluRem_eq _ _)
  · exact writesVal_regOp (aluRemu_eq _ _)
  · exact writesVal_regOp (aluW_mul _ _)
  · exact writesVal_regOp (aluW_aluDiv _ _)
  · exact writesVal_regOp (aluW_aluDivu _ _)
  · exact writesVal_regOp (aluW_aluRem _ _)
  · exact writesVal_regOp (aluW_aluRemu _ _)

theorem productForm_dest {s : State} {i : Instr} {d : BitVec 6} {v : Word} (hw : i.WellFormed) (h : productForm s i = some (d, v)) : d.toNat < 32 := by
  unfold productForm at h
  split at h <;> cases h
  all_goals exact dest_lt hw

theorem plainForm_dest {s : State} {i : Instr} {d : BitVec 6} {v : Word} (hw : i.WellFormed) (h : plainForm s i = some (d, v)) : d.toNat < 32 := by
  unfold plainForm at h
  split at h <;> cases h
  · decide
  all_goals exact dest_lt hw

/-- What a form writes to g0 is nothing (R46). -/
theorem putG_zero (f g : State → Word) (s : State) : putG 0 f s = putG 0 g s := by
  simp only [putG, State.setG_zero]

theorem plainForm_writesVal {s : State} {i : Instr} {d : BitVec 6} {v : Word} (hs : s.Free) (hw : i.WellFormed) (h : plainForm s i = some (d, v)) :
    WritesVal d v s (exec i s) := by
  unfold plainForm at h
  split at h <;> cases h
  · obtain ⟨f, hnop⟩ := nop_writesReg hs
    refine ⟨fun _ => 0, ?_, rfl⟩
    rw [hnop]
    exact putG_zero f _ s
  all_goals dsimp only [exec, execClz, execCtz, execPopc, execSel, execLimmT4w, execLimmT8w, execAddpc, execGetid, execCaps]
  · exact writesVal_putG (aluClz_eq _)
  · exact writesVal_putG (aluCtz_eq _)
  · exact writesVal_putG (aluPopc_eq _)
  · exact writesVal_putG rfl
  · exact writesVal_putG rfl
  · exact writesVal_putG rfl
  · exact writesVal_putG (add_signExtend32_eq _ _)
  · obtain ⟨hsel, h8⟩ := getid_sel hw
    exact writesVal_putG (congrArg word (ident_eq s hsel h8))
  · exact writesVal_putG (caps_eq s)

/-- Settles O1: a form writes its value (`integerForm_writesVal` and its like), and a write of register gd retires with nothing else changed (`putG_runs`). -/
theorem registerFormsWriteOneRegister : Obligations.RegisterFormsWriteOneRegister :=
  ⟨fun _ _ _ _ hs hw h => (integerForm_writesVal h).runs hs (integerForm_dest hw h),
    fun _ _ _ _ hs hw h => (productForm_writesVal h).runs hs (productForm_dest hw h),
    fun _ _ _ _ hs hw h => (plainForm_writesVal hs hw h).runs hs (plainForm_dest hw h)⟩

end Sys2Proof.Machine
end

section
/-! SUPPORT. VP blocks: a VFETCH from its commit to the queue, a block without VPs, and one turn of a running block (R72, R74, R75, R116 to R121). -/

namespace Sys2Proof.Machine

/-! ### VFETCH at its commit (R72, R74, R116) -/

theorem lineTarget_eq_named {n : Nat} (s : State) (loff : BitVec n) (slot : BitVec 5) : lineTarget s.slot.pc loff slot = named s loff slot := by
  have hword (m : Nat) : word m = BitVec.ofInt 64 m := (BitVec.ofInt_natCast 64 m).symm
  rw [lineTarget, named, int64, hword, hword, ← BitVec.ofInt_add, ← BitVec.ofInt_add, lineOf, Nat.cast_mul 2]
  rfl

/-- What a VFETCH enqueues (R116, R117). -/
def vfetchTicket (o : OpJ4) : Ticket :=
  { eng := .vec, ins := .vfetch o, ranges := [wholeRange 1 true, wholeRange 2 true, wholeRange 3 true],
    rd := (List.range 32).map Res.v, wr := (List.range 32).map Res.v, snap := true }

theorem exec_vfetch (o : OpJ4) (s : State) :
    exec (.vfetch o) s = finish (do
      s.checkBlock (named s o.loff o.slot)
      issue (vfetchTicket o) (effVfetch o) s) := by
  rw [← lineTarget_eq_named]
  rfl

theorem checkBlock_of_namesInstruction {s : State} {a : Word} (h : NamesInstruction s a) : s.checkBlock a = .ok () := by
  unfold State.checkBlock
  cases hfetch : s.fetchLine (lineOf a) with
  | error e => rfl
  | ok r =>
    obtain ⟨l, u⟩ := r
    obtain ⟨hd, x, hins⟩ := h l u hfetch
    simp only [hins]

theorem exec_vfetch_engine {o : OpJ4} {s : State} (h : NamesInstruction s (named s o.loff o.slot)) :
    exec (.vfetch o) s = engine (vfetchTicket o) (effVfetch o) s := by
  rw [exec_vfetch, checkBlock_of_namesInstruction h]
  rfl

section
variable {s u : State} {a : Word} {l : Line} (hfetch : s.fetchLine (lineOf a) = .ok (l, u))
include hfetch

theorem checkBlock_overlaps (h : lineSlot l (slotOf a) = .overlaps) : s.checkBlock a = .error (.trap (Trap.line 0x01) s) := by
  simp only [State.checkBlock, hfetch, h]

theorem checkBlock_none (h : lineSlot l (slotOf a) = .none) :
    s.checkBlock a = .error (.trap (Trap.line (if lineSlot l 0 = .none then 0x03 else 0x02)) s) := by
  simp only [State.checkBlock, hfetch, h]

end

/-- The fault of the check is the trap of the VFETCH (R74). -/
theorem vfetch_traps {s : State} {o : OpJ4} {sub : Nat} (hsub : sub < 256)
    (hcheck : s.checkBlock (named s o.loff o.slot) = .error (.trap (Trap.line sub) s)) : Traps (.vfetch o) true 0x02 sub s.slot.pc s := by
  refine traps_of (code := 0x02) ?_ (by decide) hsub
  rw [exec_vfetch, hcheck]
  rfl

/-- A VFETCH that is not dispatched at once stands at the end of the queue (R116). -/
theorem vfetch_queued {s : State} {o : OpJ4} (hlen : s.core.queue.length < 256) (hwait : s.eager = false ∨ s.core.queue ≠ [])
    (hnames : NamesInstruction s (named s o.loff o.slot)) :
    exec (.vfetch o) s = .next (s.enqueue ((vfetchTicket o).entry s)).retire := by
  have hnot : (s.eager && s.core.queue.isEmpty) = false := by
    rcases hwait with h | h
    · rw [h, Bool.false_and]
    · rw [List.isEmpty_eq_false_iff.mpr h, Bool.and_false]
  have hissue : issue (vfetchTicket o) (effVfetch o) s = .ok (s.enqueue ((vfetchTicket o).entry s)).retire := by
    change (if 256 ≤ s.core.queue.length then _ else if (s.eager && s.core.queue.isEmpty) = true then _ else _) = _
    rw [if_neg (by omega), hnot]
    rfl
  rw [exec_vfetch_engine hnames, engine, hissue]
  rfl

/-! ### A block without VPs (R119) -/

/-- A command whose only step ends it. -/
theorem drive_finish {run : Run1} {s : State} {L K : Core} {c e : Cmd} {q n : Nat} (hc : (s.setCore L).core.cmd q = some c) (hhi : c.hi = s.hi)
    (hv : c.ep = (s.setCore L).slot.ep) (hcq : c.qpos = q) (hr : run c (s.setCore L) = .ok ((s.setCore K).finishCmd c)) (hK : K.queue = [e])
    (he : e.qpos = q) : (s.setCore L).drive run q (n + 1) = .ok (s.setCore (K.ended e)) := by
  have hend : ((s.setCore K).finishCmd c).core.cmd q = some { e with done := true } :=
    ((Leaves.setCore s K).finishCmd hK (he.trans hcq.symm)).cmd rfl he
  rw [drive_done hc hhi hv hr rfl hend rfl, ← drive_done (run := whole fun _ _ => .ok (s.setCore K)) (n := n) hc hhi hv rfl rfl hend rfl]
  exact drive_whole hc hhi hv hcq rfl hK he

/-- The register files with the working values of a block as v0 to v31 (R119). -/
def Files.withWork (f : Files) (work : Vector VReg 32) : Files :=
  { f with v := Vector.ofFn (fun (i : Fin 64) => if h : i.val < 32 then work[i.val] else f.v[i.val]) }

theorem withWork_start (s : State) (c : Cmd) (target : Word) : s.core.f.withWork (VpBlock.start s c target).work = s.core.f := by
  refine congrArg (fun v => ({ s.core.f with v := v } : Files)) (Vector.ext fun i hi => ?_)
  rw [Vector.getElem_ofFn]
  split
  · simp [VpBlock.start, State.vreg, hi]
  · rfl

/-- With every VP parked the working values become v0 to v31 and the block ends (R119). -/
theorem effVfetch_parked {o : OpJ4} {c : Cmd} {s u : State} {b : VpBlock} (hu : s.note c c.vl c.vl = u)
    (hb : c.block.getD (VpBlock.start u c (lineTarget c.addr o.loff o.slot)) = b) (h : standing b.pcs = []) :
    effVfetch o c s = .ok (((u.modF (fun f => f.withWork b.work)).keepBlock c none).finishCmd c) := by
  subst hu hb
  unfold effVfetch
  simp only [h]
  rfl

/-- A block without VPs ends in its first step and leaves the register files as they stand (R119). -/
theorem effVfetch_empty {o : OpJ4} {s u : State} {N : Core} {c e : Cmd} (hvl : c.vl = 0) (hblock : c.block = none) (hu : s.note c 0 0 = u.setCore N)
    (hN : N.queue = [e]) (he : e.qpos = c.qpos) (hnone : e.block = none) : effVfetch o c s = .ok ((u.setCore N).finishCmd c) := by
  have hfiles := withWork_start (u.setCore N) c (lineTarget c.addr o.loff o.slot)
  rw [State.core_setCore] at hfiles
  have hkeep : (u.setCore N).keepBlock c none = u.setCore N := by
    rw [State.keepBlock, (Leaves.setCore u N).modCmd_eq hN he, ← hnone, ← hN]
  rw [effVfetch_parked (u := u.setCore N) (by rw [hvl, hu]) (by rw [hblock, Option.getD_none]) (by rw [VpBlock.start, hvl]; rfl),
    modF_setCore, hfiles, hkeep]

/-- R116, R119: with VL = 0. -/
theorem vfetch_empty_runs {s : State} {o : OpJ4} (hq : s.Quiet) (hvl : s.slot.vl = 0) (hnames : NamesInstruction s (named s o.loff o.slot)) :
    Runs (.vfetch o) s (fun t => EngineFrame .vec (.vfetch o) [] [] [] [] [] 0 s t ∧ Advanced s t ∧ t.slot.status = s.slot.status) := by
  have heff := effVfetch_empty (o := o) hvl rfl (note_working (vfetchTicket o) s 0 0 0 0) rfl rfl rfl
  have hrun := filesRun_ended (t := vfetchTicket o) (len := 0) (n := 0) (c := (vfetchTicket o).noted s 0 0 0 0) (popF s.core.f 0) 0 0 hq.free rfl rfl
  have hview : ((vfetchTicket o).cmd s 0 0).ep = (s.setCore ((vfetchTicket o).core s 0 0)).slot.ep := by
    rw [State.slot, State.core_setCore, Ticket.core, State.setCore_hi, Core.slot_setSlot, State.slot_retire hq.free]
    rfl
  refine ⟨_, ?_, hrun.frame (FilesFrame.popF _ _ _ _ _ _ _), hrun.advanced, hrun.status_same⟩
  rw [exec_vfetch_engine hnames, engine_len (t := vfetchTicket o) hq (.inr ⟨rfl, rfl⟩) rfl hvl.symm rfl (fun _ c hc => ?_) (show 3 ≤ 64 by decide), driveFuel,
    drive_finish ((vfetchTicket o).core_cmd s 0 0) rfl hview rfl heff rfl rfl]
  · rfl
  · unfold State.copyReady
    rw [hc]
    rfl

/-- R116, R117: the queue entry of a VFETCH. -/
theorem vfetch_queued_runs {s : State} {o : OpJ4} (hs : s.Free) (hlen : s.core.queue.length < 256) (hwait : s.eager = false ∨ s.core.queue ≠ [])
    (hnames : NamesInstruction s (named s o.loff o.slot)) :
    Runs (.vfetch o) s (fun t => Advanced s t ∧ SameBytes s t ∧ t.core.f = s.core.f ∧ t.core.qpos = (s.core.qpos + 1) % 65536 ∧
      t.core.queue = s.core.queue ++ [(vfetchTicket o).entry s]) := by
  have hl := (Leaves.refl s).modCore (fun k => { k with queue := k.queue ++ [(vfetchTicket o).entry s], qpos := (k.qpos + 1) % 65536 })
  refine ⟨_, vfetch_queued hlen hwait hnames, ?_⟩
  rw [State.enqueue, hl.goesOn hs]
  generalize hK : (s.core.queue ++ [(vfetchTicket o).entry s]) = q
  have hslot : ({ s.core with queue := q, qpos := (s.core.qpos + 1) % 65536 } : Core).slot s.hi = s.slot := by
    cases hh : s.hi <;> simp [State.slot, Core.slot, hh]
  rw [hslot]
  refine ⟨?_, sameBytes_of ⟨?_, ?_, ?_, ?_, ?_⟩, ?_, ?_, ?_⟩
  · rw [Advanced, State.slot, State.core_setCore, State.setCore_hi, Core.slot_setSlot]
    rfl
  · exact Core.setSlot_own _ _ _
  · exact Core.setSlot_w _ _ _
  · exact Core.setSlot_a _ _ _
  · exact Core.setSlot_c _ _ _
  · rw [Core.slot_setSlot]
    exact ⟨rfl, rfl, rfl⟩
  · rw [State.core_setCore]
    exact Core.setSlot_f _ _ _
  · rw [State.core_setCore]
    exact Core.setSlot_qpos _ _ _
  · rw [State.core_setCore]
    exact Core.setSlot_queue _ _ _

/-! ### The group at the lowest address (R120) -/

theorem head?_standing_insert (a : Nat) (l : List Nat) : (standing.insert a l).head? = some (l.head?.elim a (min a)) := by
  cases l with
  | nil => rfl
  | cons b r =>
    rw [standing.insert]
    split
    · simp; omega
    · split
      · simp; omega
      · simp; omega

theorem head?_foldl_insert {a : Nat} (l : List Nat) : ∀ acc : List Nat, (∀ e ∈ l, a ≤ e) → (∀ e ∈ acc.head?, a ≤ e) → (a ∈ l ∨ acc.head? = some a) →
    (l.foldl (fun acc a => standing.insert a acc) acc).head? = some a := by
  induction l with
  | nil => exact fun acc _ _ h => by simpa using h
  | cons x r ih =>
    intro acc hl hacc hmem
    have hx := hl x List.mem_cons_self
    refine ih _ (fun e he => hl e (List.mem_cons_of_mem _ he)) ?_ ?_
    · rw [head?_standing_insert]
      cases h : acc.head? with
      | none => simpa using hx
      | some m => simpa using ⟨hx, hacc m h⟩
    · rw [head?_standing_insert]
      rcases hmem with hmem | hmem
      · rcases List.mem_cons.mp hmem with rfl | hr
        · right
          cases h : acc.head? with
          | none => rfl
          | some m => simpa using hacc m h
        · exact .inl hr
      · right
        rw [hmem]
        simpa using hx

/-- The lowest address at which a VP stands comes first. -/
theorem standing_lowest {pcs : List (Option Nat)} {a : Nat} (hmem : some a ∈ pcs) (hlow : ∀ e, some e ∈ pcs → a ≤ e) :
    ∃ rest, standing pcs = a :: rest := by
  have h := head?_foldl_insert (pcs.filterMap id) [] (a := a) (by simpa using hlow) (by simp) (.inl (by simpa using hmem))
  exact List.head?_eq_some_iff.mp h

theorem nodup_groupAt (pcs : List (Option Nat)) (a : Nat) : (groupAt pcs a).Nodup := List.nodup_range.filter _

theorem mem_groupAt_iff {pcs : List (Option Nat)} {a v : Nat} : v ∈ groupAt pcs a ↔ pcs[v]? = some (some a) := by
  simp only [groupAt, below, List.mem_filter, List.mem_range, beq_iff_eq]
  by_cases h : v < pcs.length
  · simp [h]
  · simp [h]

/-! ### What ADD does to one VP, and to a group (R117, R120, R121) -/

theorem setWidth_ofInt (w : Nat) (hw : w ≤ 64) (z : Int) : (BitVec.ofInt 64 z).setWidth w = BitVec.ofInt w z := by
  apply BitVec.eq_of_toInt_eq
  have hdvd : 2 ^ w ∣ 2 ^ 64 := Nat.pow_dvd_pow 2 hw
  rw [BitVec.toInt_setWidth, ← Int.bmod_bmod_of_dvd hdvd, ← BitVec.toInt_eq_toNat_bmod, BitVec.toInt_ofInt, BitVec.toInt_ofInt,
    Int.bmod_bmod_of_dvd hdvd]

theorem sextW_add_mod {w : Nat} (hw : w ≤ 64) (p q : Nat) : (sextW w p + sextW w q).toNat % 2 ^ w = (p + q) % 2 ^ w := by
  have hext (x : Nat) : (sextW w x).setWidth w = BitVec.ofNat w x := by
    rw [sextW, sgn_eq_signedElem, signedElem, setWidth_ofInt w hw, BitVec.ofInt_toInt]
  rw [← BitVec.toNat_setWidth, BitVec.setWidth_add _ _ hw, hext, hext, ← BitVec.ofNat_add, BitVec.toNat_ofNat]

theorem vtSew_le (vt : Word) : vtSew vt ≤ 64 := by
  have h : fld vt 0 2 < 4 := fld_lt vt 0 2
  rw [vtSew, vtSewCode]
  generalize fld vt 0 2 = n at h
  interval_cases n <;> decide

theorem vtSew_mul_add_le {vt : Word} {v : Nat} (h : v < elementsOf vt) : vtSew vt * v + vtSew vt ≤ 4096 := by
  have hmul := Nat.mul_le_mul_left (vtSew vt) (Nat.succ_le_of_lt h)
  rw [← vtVlmax_eq, vtVlmax, vlmax] at hmul
  exact hmul.trans (Nat.mul_div_le _ _)

theorem setNth_eq_set {α : Type} (x : α) : ∀ (l : List α) (i : Nat), setNth x l i = l.set i x
  | [], _ => rfl
  | _ :: _, 0 => rfl
  | a :: r, i + 1 => congrArg (a :: ·) (setNth_eq_set x r i)

/-- What a VP that adds lane registers x and y into d makes of its block. -/
def VpBlock.added (c : Cmd) (next : Word) (d x y : BitVec 6) (vp : Nat) (b : VpBlock) : VpBlock :=
  { b with
    pcs := setNth (some next.toNat) b.pcs vp
    work := b.work.setIfInBounds d.toNat (setElem (b.work[d.toNat]?.getD 0) (vtSew c.vtype) vp
      (sextW (vtSew c.vtype) (elem (b.work[x.toNat]?.getD 0) (vtSew c.vtype) vp) +
        sextW (vtSew c.vtype) (elem (b.work[y.toNat]?.getD 0) (vtSew c.vtype) vp)).toNat) }

section
variable {d x y : BitVec 6} (hx : x.toNat < 32) (hy : y.toNat < 32)
include hx hy

theorem lane1_add (c : Cmd) (snap : Vector Word 32) (a next : Word) (vp : Nat) (b : VpBlock) (s : State) :
    lane1 c snap (.add ⟨d, x, y⟩) a next vp b s = .ok (b.added c next d x y vp, s) := by
  have hread (n : BitVec 6) (hn : n.toNat < 32) :
      b.read snap (vtSew c.vtype) vp n.toNat = elem (b.work[n.toNat]?.getD 0) (vtSew c.vtype) vp := if_pos hn
  rw [VpBlock.added, ← hread x hx, ← hread y hy]
  rfl

theorem laneGroup_add (c : Cmd) (snap : Vector Word 32) (a next : Word) (s : State) : ∀ (vps : List Nat) (b : VpBlock),
    laneGroup c snap (.add ⟨d, x, y⟩) a next vps b s = .ok (vps.foldl (fun b vp => b.added c next d x y vp) b, s)
  | [], _ => rfl
  | vp :: r, b => by
    rw [laneGroup, lane1_add hx hy]
    exact laneGroup_add c snap a next s r _

end

section
variable (c : Cmd) (next : Word) (x y : BitVec 6) {d : BitVec 6} (hd : d.toNat < 32)
include hd

theorem elem_added (b : VpBlock) (vp v n : Nat) (hv : vtSew c.vtype * v + vtSew c.vtype ≤ 4096) :
    elem ((b.added c next d x y vp).work[n]?.getD 0) (vtSew c.vtype) v = if n = d.toNat ∧ v = vp then
        (elem (b.work[x.toNat]?.getD 0) (vtSew c.vtype) v + elem (b.work[y.toNat]?.getD 0) (vtSew c.vtype) v) % 2 ^ vtSew c.vtype
      else elem (b.work[n]?.getD 0) (vtSew c.vtype) v := by
  rw [VpBlock.added, getD_setIfInBounds _ _ _ _ _ hd]
  by_cases hn : n = d.toNat
  · subst hn
    rw [if_pos rfl, elem_setElem _ _ _ _ _ hv]
    by_cases hvp : v = vp
    · subst hvp
      rw [if_pos rfl, sextW_add_mod (vtSew_le _), if_pos ⟨rfl, rfl⟩]
    · simp [hvp]
  · simp [hn]

/-- A group that adds: each VP of it adds its elements of the block before, and stands at the next instruction (R120). -/
theorem foldl_added (v : Nat) (hv : vtSew c.vtype * v + vtSew c.vtype ≤ 4096) : ∀ (vps : List Nat) (b : VpBlock), vps.Nodup →
    elem ((vps.foldl (fun b vp => b.added c next d x y vp) b).work[d.toNat]?.getD 0) (vtSew c.vtype) v = if v ∈ vps then
        (elem (b.work[x.toNat]?.getD 0) (vtSew c.vtype) v + elem (b.work[y.toNat]?.getD 0) (vtSew c.vtype) v) % 2 ^ vtSew c.vtype
      else elem (b.work[d.toNat]?.getD 0) (vtSew c.vtype) v
  | [], _, _ => by simp
  | vp :: r, b, hnd => by
    obtain ⟨hnot, hr⟩ := List.nodup_cons.mp hnd
    rw [List.foldl_cons, foldl_added v hv r _ hr]
    simp only [elem_added c next x y hd _ _ _ _ hv]
    by_cases hvp : v = vp
    · subst hvp
      rw [if_neg hnot, if_pos ⟨trivial, rfl⟩, if_pos List.mem_cons_self]
    · simp only [hvp, and_false, if_false, List.mem_cons, false_or]
end

theorem foldl_added_pcs (c : Cmd) (next : Word) (d x y : BitVec 6) (v : Nat) : ∀ (vps : List Nat) (b : VpBlock), v < b.pcs.length →
    (vps.foldl (fun b vp => b.added c next d x y vp) b).pcs[v]? = if v ∈ vps then some (some next.toNat) else b.pcs[v]?
  | [], _, _ => by simp
  | vp :: r, b, hv => by
    have hpcs : (b.added c next d x y vp).pcs = b.pcs.set vp (some next.toNat) := setNth_eq_set _ _ _
    rw [List.foldl_cons, foldl_added_pcs c next d x y v r _ (by rw [hpcs, List.length_set]; exact hv), hpcs]
    by_cases hvp : v = vp
    · subst hvp
      simp [hv]
    · simp [hvp, List.getElem?_set_ne (Ne.symm hvp)]

theorem foldl_added_work (c : Cmd) (next : Word) (d x y : BitVec 6) {n : Nat} (hn : n ≠ d.toNat) : ∀ (vps : List Nat) (b : VpBlock),
    (vps.foldl (fun b vp => b.added c next d x y vp) b).work[n]? = b.work[n]?
  | [], _ => rfl
  | vp :: r, b => by
    rw [List.foldl_cons, foldl_added_work c next d x y hn r]
    exact Vector.getElem?_setIfInBounds_ne hn.symm

theorem laneIns_dest {l : Line} {a : Word} {d x y : BitVec 6} (h : laneIns l a = .ok (.add ⟨d, x, y⟩)) : d.toNat < 32 := by
  unfold laneIns at h
  split at h
  · cases h
  · cases h
  split at h
  · cases h
  split at h
  · cases h
  split at h
  · cases h
  split at h
  · cases h
  split at h
  next dest hdest =>
    split at h
    next hlt =>
      cases h
      cases hdest
      exact of_decide_eq_true hlt
    next => cases h
  next hdest =>
    cases h
    cases hdest

/-! ### One turn of a running block (R120) -/

/-- The block after the group at address a has added. -/
def VpBlock.turned (c : Cmd) (l : Line) (a : Nat) (d x y : BitVec 6) (b : VpBlock) : VpBlock :=
  (groupAt b.pcs a).foldl (fun b vp => b.added c (nextAddr l (word a)) d x y vp) { b with round := (standing b.pcs).drop 1 }

theorem effVfetch_add {o : OpJ4} {c : Cmd} {s : State} {b : VpBlock} {a : Nat} {l : Line} {d x y : BitVec 6} (hblock : c.block = some b)
    (hround : b.round = []) (hmem : some a ∈ b.pcs) (hlow : ∀ e, some e ∈ b.pcs → a ≤ e)
    (hline : look (lineOf (word a)) b.lines = some l) (hbad : (s.note c c.vl c.vl).slot.badLines.contains (lineOf (word a)) = false)
    (hins : laneIns l (word a) = .ok (.add ⟨d, x, y⟩)) (hx : x.toNat < 32) (hy : y.toNat < 32) :
    effVfetch o c s = .ok ((s.note c c.vl c.vl).keepBlock c (some (b.turned c l a d x y))) := by
  obtain ⟨rest, hstand⟩ := standing_lowest hmem hlow
  unfold effVfetch
  simp only [hblock, Option.getD_some, hstand, hround, List.filter_nil, List.headD_nil, List.isEmpty_nil, if_true]
  rw [State.blockLine]
  simp only [hline, hbad, hins]
  rw [laneGroup_add hx hy, VpBlock.turned, hstand]
  rfl

/-- The only command of a queue, under way and of the kind asked for, takes one step on the slot that committed it (R276). -/
theorem stepRunning_single {run : Run1} {s w : State} {c : Cmd} {p : Cmd → Bool} (hqueue : s.core.queue = [c]) (hunder : c.under = true) (hp : p c = true)
    (hep : c.ep = (s.core.slot c.hi).ep) (hrun : run c { s with hi := c.hi } = .ok w) : s.stepRunning run p = .ok { w with hi := s.hi } := by
  have hcmd : s.core.cmd c.qpos = some c := (Leaves.refl s).cmd hqueue rfl
  have hview : State.inView (c.viewNo (s.core.slot c.hi)) (run c) { s with hi := c.hi } = .ok w :=
    (inView_self (s := { s with hi := c.hi }) (viewNo_eq hep).symm).trans hrun
  have hfirst : firstSat (fun c => c.under && p c) s.core.queue = some c := by simp [hqueue, firstSat, hunder, hp]
  unfold State.stepRunning State.pump
  simp only [hfirst, hcmd, hview]
  rfl

/-- VP_GROUP_ISSUE with one block at work (R120). -/
theorem vpGroupIssue_steps {s w : State} {cl core : Nat} {c : Cmd} {o : OpJ4} (hqueue : (s.coreAt cl core).queue = [c]) (hins : c.ins = .vfetch o)
    (hunder : c.under = true) (hep : c.ep = ((s.coreAt cl core).slot c.hi).ep) (heff : effVfetch o c (s.at_ cl core c.hi) = .ok w) :
    exec (.vpGroupIssue cl core) s = .next (w.at_ s.cl s.co s.hi) := by
  have hrun : runCmd c (s.at_ cl core c.hi) = .ok w := by
    unfold runCmd
    rw [hins]
    exact heff
  change execVpGroupIssue cl core s = _
  unfold execVpGroupIssue
  refine onCore_ok (t := { w with hi := false }) (stepRunning_single (s := s.at_ cl core false) hqueue hunder ?_ hep hrun)
  rw [hins]

/-- R120, R121: one turn of a running block whose lowest group is at an ADD. -/
theorem vpGroupIssue_add {s : State} {cl core : Nat} {c : Cmd} {o : OpJ4} {b : VpBlock} {a : Nat} {l : Line} {d x y : BitVec 6}
    (hqueue : (s.coreAt cl core).queue = [c]) (hins : c.ins = .vfetch o) (hunder : c.under = true) (hep : c.ep = ((s.coreAt cl core).slot c.hi).ep)
    (hbad : ((s.coreAt cl core).slot c.hi).badLines.contains (lineOf (word a)) = false) (hblock : c.block = some b) (hround : b.round = [])
    (hmem : some a ∈ b.pcs) (hlow : ∀ e, some e ∈ b.pcs → a ≤ e) (hline : look (lineOf (word a)) b.lines = some l)
    (hadd : laneIns l (word a) = .ok (.add ⟨d, x, y⟩)) (hx : x.toNat < 32) (hy : y.toNat < 32) :
    Runs (.vpGroupIssue cl core) s (fun t => t.coreAt cl core = { s.coreAt cl core with
        queue := [{ c with tr := (c.vl, c.vl, c.tr.2.2.1, c.tr.2.2.2), block := some (b.turned c l a d x y) }] } ∧
      t.mem = s.mem ∧ (t.cl, t.co, t.hi) = (s.cl, s.co, s.hi)) := by
  have hnote := (Leaves.refl (s.at_ cl core c.hi)).modCmd hqueue rfl (fun e => { e with tr := (c.vl, c.vl, e.tr.2.2.1, e.tr.2.2.2) })
  have hkeep := hnote.modCmd (q := c.qpos) rfl rfl (fun e => { e with block := some (b.turned c l a d x y) })
  have hslot : ((s.at_ cl core c.hi).note c c.vl c.vl).slot = (s.coreAt cl core).slot c.hi := hnote.slot
  have heff := effVfetch_add (o := o) hblock hround hmem hlow hline (by rw [hslot]; exact hbad) hadd hx hy
  obtain ⟨hcl, hco, -, hm⟩ := hkeep.place
  refine ⟨_, vpGroupIssue_steps hqueue hins hunder hep heff, ?_, hm, rfl⟩
  exact (congrArg₂ (State.coreAt _) hcl.symm hco.symm).trans hkeep.core

/-- Settles O8: the check at commit, the entry in the queue, a block without VPs, and the turn of a group. -/
theorem vpBlocksRunInGroups : Obligations.VpBlocksRunInGroups := by
  refine ⟨fun s o _ hq hvl hnames => vfetch_empty_runs hq hvl hnames, fun s o _ hs hlen hwait hnames => ?_, fun s o l u _ hfetch => ⟨fun h => ?_, fun h => ?_⟩,
    ?_⟩
  · obtain ⟨t, ht, hadv, hbytes, hfiles, hpos, hqueue⟩ := vfetch_queued_runs hs hlen hwait hnames
    exact ⟨t, ht, hadv, hbytes, hfiles, hpos, _, hqueue, rfl, rfl, rfl, rfl, rfl, rfl, rfl, rfl, rfl, rfl, rfl⟩
  · exact vfetch_traps (by decide) (checkBlock_overlaps hfetch h)
  · exact vfetch_traps (by split <;> decide) (checkBlock_none hfetch h)
  · rintro s cl core k c o b a l d x y rfl hqueue hins hdisp hdone hfaulted hheld hpaused hep hbad hblock hround hlen _ hmem hlow hline hadd hx hy
    have hunder : c.under = true := by simp [Cmd.under, hdisp, hdone, hfaulted, hheld, hpaused]
    have hd := laneIns_dest hadd
    obtain ⟨t, ht, hcore, hm, hplace⟩ := vpGroupIssue_add hqueue hins hunder hep hbad hblock hround hmem hlow hline hadd hx hy
    refine ⟨t, ht, _, _, hcore, rfl, hins, hdone, rfl, fun v hv => ⟨?_, ?_⟩, fun n hn => foldl_added_work _ _ _ _ _ hn _ _, hm, hplace⟩
    · exact (foldl_added_pcs _ _ _ _ _ v _ { b with round := (standing b.pcs).drop 1 } hv).trans (if_congr mem_groupAt_iff rfl rfl)
    · exact (foldl_added _ _ _ _ hd v (vtSew_mul_add_le (hv.trans_le hlen)) _ { b with round := (standing b.pcs).drop 1 } (nodup_groupAt _ _)).trans
        (if_congr mem_groupAt_iff rfl rfl)

end Sys2Proof.Machine
end

section
/-! SUPPORT. Branches, jumps, calls and hardware loops: what a transfer that lands leaves, and the loop stack (R71, R72, R112 to R115). -/

namespace Sys2Proof.Machine

/-! ### The loop stack (R115) -/

/-- The recursion of `loopLeave` drops the entries in whose range the address does not lie. -/
theorem leavesLoops_loopLeave (a : Word) (l : List LoopEnt) : LeavesLoops a l (loopLeave a l) := by
  induction l with
  | nil => exact ⟨[], rfl, by simp, by simp [loopLeave]⟩
  | cons e r ih =>
    have hin : (e.s.ule a && a.ule e.e) = true ↔ e.s.toNat ≤ a.toNat ∧ a.toNat ≤ e.e.toNat := by simp [BitVec.ule]
    unfold loopLeave
    by_cases h : (e.s.ule a && a.ule e.e) = true
    · rw [if_pos h]
      exact ⟨[], rfl, by simp, by simpa using hin.mp h⟩
    · rw [if_neg h]
      obtain ⟨gone, hr, hout, hhead⟩ := ih
      refine ⟨e :: gone, by rw [List.cons_append, ← hr], ?_, hhead⟩
      rintro x (_ | ⟨_, hx⟩)
      · exact fun hc => h (hin.mpr hc)
      · exact hout x hx

/-- The recursion of `loopEnd` pops the entries that end here on their last pass. -/
theorem loopRule_loopEnd (pc npc : Word) (l : List LoopEnt) : LoopRule pc npc l (loopEnd pc npc l).1 (loopEnd pc npc l).2 := by
  induction l with
  | nil => exact ⟨[], [], rfl, by simp, rfl, rfl⟩
  | cons e r ih =>
    have hlast : e.r - 1 = 0 ↔ e.r = 1 := by rw [sub_eq_zero]
    unfold loopEnd
    by_cases he : e.e = pc
    · rw [if_pos he]
      by_cases h1 : e.r = 1
      · rw [if_pos (hlast.mpr h1)]
        obtain ⟨done, rest, hr, hdone, hrest⟩ := ih
        refine ⟨e :: done, rest, by rw [List.cons_append, ← hr], ?_, hrest⟩
        rintro x (_ | ⟨_, hx⟩)
        · exact ⟨he, h1⟩
        · exact hdone x hx
      · rw [if_neg (mt hlast.mp h1)]
        exact ⟨[], e :: r, rfl, by simp, by simpa [he] using h1⟩
    · rw [if_neg he]
      exact ⟨[], e :: r, rfl, by simp, by simp [he]⟩

/-- R115. -/
theorem loopEndCountsDown : LoopEndCountsDown := by
  have hrule (s t : State) (h : Advanced s t) : LoopRule s.slot.pc s.slot.npc s.slot.loops t.slot.loops t.slot.pc := by
    have hr := loopRule_loopEnd s.slot.pc s.slot.npc s.slot.loops
    rw [← h] at hr
    exact hr
  intro s hs
  obtain ⟨t, ht, hadv, -⟩ := plain_runs hs
  exact ⟨⟨t, ht, hrule s t hadv⟩, hrule s⟩

/-! ### A transfer that lands (R72, R112, R113) -/

section
variable {s u : State} {a : Word}

/-- Of the slot, a transfer that lands has changed the fetched lines alone. -/
theorem Lands.slot (h : Lands s a u) : u.slot = { s.slot with lines := u.slot.lines } := by
  obtain ⟨l, hd, x, hfetch, -⟩ := h
  exact fetchLine_slot hfetch
theorem Lands.npc (h : Lands s a u) : u.slot.npc = s.slot.npc := by rw [h.slot]
theorem Lands.g {w : Nat} (h : Lands s a u) (n : BitVec w) : u.g n = s.g n := by
  rw [State.g, State.g, h.slot]
  rfl

/-- The thread stands at an address with a register and the loop stack written. -/
theorem transferred_setSlot (u : State) (a : Word) {x : Slot} {d : Nat}
    (hx : x = { u.slot with g := x.g, pc := a, loops := x.loops, since := none, behind := none, popAt := none })
    (hregs : ∀ n, n ≠ d → x.getG n = u.slot.getG n) : Transferred d a u (u.setSlot x) := by
  refine ⟨?_, ?_, ?_⟩
  · rw [State.slot_setSlot, hx]
  · rw [State.slot_setSlot, ← hx]
  · rw [State.slot_setSlot]
    exact hregs

/-- A taken B or JMP to an address that lands. -/
theorem jumpTo_lands (hs : s.Free) (h : Lands s a u) :
    ∃ t, finish (s.jumpTo a) = .next t ∧ Transferred 0 a u t ∧ LeavesLoops a s.slot.loops t.slot.loops := by
  have hfree : u.slot.stepping = false := by rw [h.slot]; exact hs
  have hjump : s.jumpTo a = .ok ((u.modSlot (fun x => { x with loops := loopLeave a x.loops })).transfer a) := by
    rw [State.jumpTo, checkTarget_of_lands h]
    rfl
  refine ⟨_, by rw [hjump, finish_ok], ?_⟩
  rw [State.transfer, State.arrive_eq (by rw [State.slot_modSlot]; exact hfree), State.modSlot_modSlot]
  refine ⟨transferred_setSlot u a rfl (fun _ _ => rfl), ?_⟩
  rw [State.slot_modSlot, h.slot]
  exact leavesLoops_loopLeave a s.slot.loops

/-- A transfer that lands and links (R113). -/
theorem link_lands (hs : s.Free) (h : Lands s a u) {d : BitVec 6} (hd : d.toNat < 32) (v : Word) :
    Transferred d.toNat a u ((u.setG d v).transfer a) ∧ WroteG d.toNat v ((u.setG d v).transfer a) ∧
      ((u.setG d v).transfer a).slot.loops = s.slot.loops := by
  have hslot : (u.setG d v).slot = u.slot.setG d.toNat v := State.slot_setG u d v
  have hfree : (u.setG d v).slot.stepping = false := by rw [hslot, Slot.setG_stepping, h.slot]; exact hs
  have hread (n : Nat) := Slot.getG_setG u.slot d.toNat n v hd
  rw [State.transfer, State.arrive_eq hfree, State.setG, State.modSlot_modSlot]
  refine ⟨transferred_setSlot u a ?_ (fun n hn => ?_), ?_, ?_⟩
  · unfold Slot.setG; split <;> rfl
  · exact (hread n).trans (if_neg (fun hc => hn hc.1))
  · rw [WroteG, State.slot_modSlot]
    refine (hread d.toNat).trans ?_
    by_cases h0 : d.toNat = 0
    · rw [if_neg (fun hc => hc.2 h0), if_pos h0, h0]; rfl
    · rw [if_pos ⟨rfl, h0⟩, if_neg h0]
  · rw [State.slot_modSlot]
    exact (Slot.setG_loops _ _ _).trans (by rw [h.slot])

end

/-! ### Branches (R112) -/

/-- A branch is the comparison of its condition. -/
theorem exec_branch {s : State} {i : Instr} {p : Prop} {o : OpB4} (h : condition s i = some (p, o)) :
    ∃ code, exec i s = branch code o s ∧ (cmpHolds code (s.g o.a) (s.g o.b) = true ↔ p) := by
  unfold condition at h
  split at h <;> cases h
  · exact ⟨0, rfl, by simp [cmpHolds]⟩
  · exact ⟨1, rfl, by simp [cmpHolds]⟩
  · exact ⟨2, rfl, by simp [cmpHolds, BitVec.slt]⟩
  · exact ⟨3, rfl, by simp [cmpHolds, BitVec.slt]⟩
  · exact ⟨4, rfl, by simp [cmpHolds, BitVec.ult]⟩
  · exact ⟨5, rfl, by simp [cmpHolds, BitVec.ult]⟩

/-- R112. -/
theorem branchesTakeTheirTarget : BranchesTakeTheirTarget := by
  intro s i p o hs hcond
  obtain ⟨code, hexec, hcmp⟩ := exec_branch hcond
  rw [branch, lineTarget_eq_named] at hexec
  refine ⟨fun hp u hu => ?_, fun hp => ?_⟩
  · obtain ⟨t, ht, hrest⟩ := jumpTo_lands hs hu
    exact ⟨t, by rw [hexec, if_pos (hcmp.mpr hp), ht], hrest⟩
  · exact ⟨s.retire, by rw [hexec, if_neg (mt hcmp.mp hp)], retire_frame hs⟩

/-! ### Jumps and calls (R113) -/

/-- R113. -/
theorem jumpsTransferAndLink : JumpsTransferAndLink := by
  intro s u hs
  refine ⟨fun o _ hu => ?_, fun o hwf hu => ?_, fun o hwf heven hu => ?_⟩
  · have hexec : exec (.jmp o) s = finish (s.jumpTo (named s o.loff o.slot)) := by rw [← lineTarget_eq_named]; rfl
    obtain ⟨t, ht, hrest⟩ := jumpTo_lands hs hu
    exact ⟨t, hexec.trans ht, hrest⟩
  · have hd : o.d.toNat < 32 := dest_lt hwf
    refine ⟨_, ?_, link_lands hs hu hd s.slot.npc⟩
    change execCall o s = _
    rw [execCall, lineTarget_eq_named, checkTarget_of_lands hu, ← hu.npc]
    rfl
  · have hd : o.d.toNat < 32 := dest_lt hwf
    have hflag : (!flag (s.g o.a) 0) = true := by
      rw [Bool.not_eq_true', Bool.eq_false_iff, ne_eq, flag_zero_iff]
      omega
    refine ⟨_, ?_, link_lands hs hu hd s.slot.npc⟩
    change execJmpr o s = _
    rw [execJmpr, hflag, need_true, checkTarget_of_lands hu, ← hu.npc]
    rfl

/-! ### LOOP (R114) -/

/-- LOOP behind the check of its body's last address. -/
def State.loopTo (s : State) (d : BitVec 6) (a : Word) : M State :=
  if s.g d = 0 then do
    let (l, u) ← s.fetchLine (lineOf a)
    pure (u.arrive (nextAddr l a))
  else do
    need (decide (s.slot.loops.length < 4)) (Trap.opnd 0x03) s
    pure ((s.modSlot (fun x => { x with loops := ⟨x.npc, a, x.getG d.toNat⟩ :: x.loops })).arrive s.slot.npc)

section
variable {s u : State} {o : OpJ4}

theorem exec_loop (s : State) (o : OpJ4) : exec (.loop o) s = finish (do
    need (!(named s o.loff o.slot).ult s.slot.npc) (Trap.opnd 0x02) s
    let u ← s.checkTarget (named s o.loff o.slot)
    u.loopTo o.d (named s o.loff o.slot)) := by
  rw [← lineTarget_eq_named]
  rfl
theorem exec_loop_lands (hle : s.slot.npc.toNat ≤ (named s o.loff o.slot).toNat) (h : Lands s (named s o.loff o.slot) u) :
    exec (.loop o) s = finish (u.loopTo o.d (named s o.loff o.slot)) := by
  have hord : (!(named s o.loff o.slot).ult s.slot.npc) = true := by simpa [BitVec.ult] using hle
  rw [exec_loop, hord, need_true, checkTarget_of_lands h]
  rfl
theorem loop_pushes (hs : s.Free) (hle : s.slot.npc.toNat ≤ (named s o.loff o.slot).toNat) (h : Lands s (named s o.loff o.slot) u)
    (hg : s.g o.d ≠ 0) (hroom : s.slot.loops.length < 4) : Runs (.loop o) s (fun t => Transferred 0 s.slot.npc u t ∧
      t.slot.loops = ⟨s.slot.npc, named s o.loff o.slot, s.g o.d⟩ :: s.slot.loops) := by
  have hfree : u.slot.stepping = false := by rw [h.slot]; exact hs
  have hroom' : u.slot.loops.length < 4 := by rw [h.slot]; exact hroom
  refine ⟨_, by rw [exec_loop_lands hle h, State.loopTo, h.g, if_neg hg, decide_eq_true hroom', need_true, h.npc]; exact finish_ok _, ?_⟩
  rw [State.arrive_eq (by rw [State.slot_modSlot]; exact hfree), State.modSlot_modSlot]
  refine ⟨transferred_setSlot u _ rfl (fun _ _ => rfl), ?_⟩
  rw [State.slot_modSlot, h.slot]
  rfl
theorem loop_skips (hs : s.Free) (hle : s.slot.npc.toNat ≤ (named s o.loff o.slot).toNat) (h : Lands s (named s o.loff o.slot) u)
    (hg : s.g o.d = 0) {l : Line} (hl : look (lineOf (named s o.loff o.slot)) u.slot.lines = some l) :
    Runs (.loop o) s (fun t => Transferred 0 (nextAddr l (named s o.loff o.slot)) u t ∧ t.slot.loops = s.slot.loops) := by
  have hfree : u.slot.stepping = false := by rw [h.slot]; exact hs
  refine ⟨_, by rw [exec_loop_lands hle h, State.loopTo, h.g, if_pos hg, fetchLine_kept hl]; exact finish_ok _, ?_⟩
  rw [State.arrive_eq hfree]
  refine ⟨transferred_setSlot u _ rfl (fun _ _ => rfl), ?_⟩
  rw [State.slot_modSlot, h.slot]

end

/-- R114. -/
theorem loopPushesOrSkips : LoopPushesOrSkips := by
  intro s o hs _
  refine ⟨fun u hle hu => ⟨loop_pushes hs hle hu, fun hg l hl => loop_skips hs hle hu hg hl, fun hg hfull => ?_⟩, fun hlt => ?_⟩
  · refine ⟨_, ?_, rfl⟩
    have hfull' : ¬u.slot.loops.length < 4 := by rw [hu.slot]; exact hfull.not_lt
    rw [exec_loop_lands hle hu, State.loopTo, hu.g, if_neg hg, decide_eq_false hfull', need_false]
    exact finish_trap _ _
  · refine ⟨_, ?_, rfl⟩
    have hord : (!(named s o.loff o.slot).ult s.slot.npc) = false := by simpa [BitVec.ult] using hlt
    rw [exec_loop, hord, need_false]
    exact finish_trap _ _

/-- Settles O2: a transfer that lands stands at its target, and the loop stack follows the recursions of `loopLeave` and `loopEnd`. -/
theorem controlTransfersReachTheirTarget : Obligations.ControlTransfersReachTheirTarget :=
  ⟨branchesTakeTheirTarget, jumpsTransferAndLink, loopPushesOrSkips, loopEndCountsDown⟩

end Sys2Proof.Machine
end

section
/-! SUPPORT. What a memory access of the control thread leaves, before the thread goes on: a relation of states, closed under the
model's operations on memory, and the frame of a store or atomic that follows from it (R105 to R111, R299, R300, R395). -/

namespace Sys2Proof.Machine

/-! ### The core and the package behind an access -/

/-- `L` is `K` but for the bytes of its buffers, its stores on their way, its slots' views and its translations. -/
def Core.Accessed (K L : Core) : Prop :=
  L = { K with w := L.w, a := L.a, c := L.c, own := L.own, ownAge := L.ownAge, tlb := L.tlb,
               s0 := { K.s0 with view := L.s0.view, past := L.s0.past }, s1 := { K.s1 with view := L.s1.view, past := L.s1.past } }

namespace Core.Accessed
variable {K L M : Core}

theorem refl (K : Core) : K.Accessed K := rfl
theorem trans (h : K.Accessed L) (k : L.Accessed M) : K.Accessed M := by
  unfold Core.Accessed at *
  rw [k, h]
theorem of_moved (h : K.Moved L) : K.Accessed L := by
  unfold Core.Moved at h
  rw [h]
  rfl
theorem slot (h : K.Accessed L) (hi : Bool) : L.slot hi = { K.slot hi with view := (L.slot hi).view, past := (L.slot hi).past } := by
  unfold Core.Accessed at h
  rw [h]
  cases hi <;> rfl
end Core.Accessed

/-- `u` is `s` but for what an access of the current core may change there, in its cluster's TLB, in device memory and in the
combining stores. -/
structure Accessed (s u : State) : Prop where
  place : u.cl = s.cl ∧ u.co = s.co ∧ u.hi = s.hi
  core : s.core.Accessed u.core
  cores : ∀ k, k ≠ 8 * s.cl + s.co → look k u.cores = look k s.cores
  clusters : ∀ k, u.clusAt k = { s.clusAt k with tlb := (u.clusAt k).tlb }
  tlbs : ∀ k, k ≠ s.cl → (u.clusAt k).tlb = (s.clusAt k).tlb
  points : u.die0 = s.die0 ∧ u.die1 = s.die1 ∧ u.peer = s.peer
  hub : u.hub = s.hub ∧ u.xl = s.xl ∧ u.er = s.er ∧ u.bt = s.bt ∧ u.ex = s.ex ∧ u.time = s.time ∧
    u.agenda = s.agenda ∧ u.out = s.out ∧ u.eager = s.eager ∧ u.variant = s.variant ∧ u.stepping = s.stepping ∧ u.free = s.free

namespace Accessed
variable {s t u : State}

theorem refl (s : State) : Accessed s s :=
  ⟨⟨rfl, rfl, rfl⟩, .refl _, fun _ _ => rfl, fun _ => rfl, fun _ _ => rfl, ⟨rfl, rfl, rfl⟩,
    ⟨rfl, rfl, rfl, rfl, rfl, rfl, rfl, rfl, rfl, rfl, rfl, rfl⟩⟩
theorem trans (h : Accessed s t) (k : Accessed t u) : Accessed s u := by
  obtain ⟨⟨p1, p2, p3⟩, hcore, hcores, hclus, htlbs, ⟨d1, d2, d3⟩, h1, h2, h3, h4, h5, h6, h7, h8, h9, h10, h11, h12⟩ := h
  obtain ⟨⟨q1, q2, q3⟩, kcore, kcores, kclus, ktlbs, ⟨e1, e2, e3⟩, k1, k2, k3, k4, k5, k6, k7, k8, k9, k10, k11, k12⟩ := k
  rw [p1, p2] at kcores
  rw [p1] at ktlbs
  exact ⟨⟨q1.trans p1, q2.trans p2, q3.trans p3⟩, hcore.trans kcore, fun n hn => (kcores n hn).trans (hcores n hn),
    fun n => by rw [kclus n, hclus n], fun n hn => (ktlbs n hn).trans (htlbs n hn), ⟨e1.trans d1, e2.trans d2, e3.trans d3⟩,
    k1.trans h1, k2.trans h2, k3.trans h3, k4.trans h4, k5.trans h5, k6.trans h6, k7.trans h7, k8.trans h8, k9.trans h9,
    k10.trans h10, k11.trans h11, k12.trans h12⟩
/-- A change of the current core. -/
theorem setCore {K : Core} (h : s.core.Accessed K) : Accessed s (s.setCore K) := by
  refine ⟨⟨rfl, rfl, rfl⟩, by rw [State.core_setCore]; exact h, fun k hk => look_put_ne hk _ _, fun _ => rfl, fun _ _ => rfl, ⟨rfl, rfl, rfl⟩, ?_⟩
  exact ⟨rfl, rfl, rfl, rfl, rfl, rfl, rfl, rfl, rfl, rfl, rfl, rfl⟩
/-- A change of the current cluster's TLB. -/
theorem modClus (s : State) (f : List TlbEnt → List TlbEnt) : Accessed s (s.modClus (fun k => { k with tlb := f k.tlb })) := by
  have hat (k : Nat) : (s.modClus (fun k => { k with tlb := f k.tlb })).clusAt k = if k = s.cl then { s.clus with tlb := f s.clus.tlb } else s.clusAt k := by
    by_cases hk : k = s.cl
    · rw [if_pos hk, hk]
      exact State.clusAt_setClusAt _ _ _
    · rw [if_neg hk]
      exact congrArg (Option.getD · Cluster.fresh) (look_put_ne hk _ _)
  refine ⟨⟨rfl, rfl, rfl⟩, .refl _, fun _ _ => rfl, fun k => ?_, fun k hk => by rw [hat, if_neg hk], ⟨rfl, rfl, rfl⟩, ?_⟩
  · rw [hat]
    split
    · next hk => rw [hk]; rfl
    · rfl
  · exact ⟨rfl, rfl, rfl, rfl, rfl, rfl, rfl, rfl, rfl, rfl, rfl, rfl⟩
theorem modTlbs (s : State) (f : List TlbEnt → List TlbEnt) : Accessed s (s.modTlbs f) :=
  trans (setCore (K := { s.core with tlb := f s.core.tlb }) rfl) (modClus _ f)
/-- A change of device memory and of the combining stores. -/
theorem withHome (s : State) (b : BaseDie) (m : Mem) : Accessed s { s with bd := b, mem := m } :=
  ⟨⟨rfl, rfl, rfl⟩, .refl _, fun _ _ => rfl, fun _ => rfl, fun _ _ => rfl, ⟨rfl, rfl, rfl⟩,
    ⟨rfl, rfl, rfl, rfl, rfl, rfl, rfl, rfl, rfl, rfl, rfl, rfl⟩⟩

theorem slot (h : Accessed s u) : u.slot = { s.slot with view := u.slot.view, past := u.slot.past } := by
  obtain ⟨-, -, hhi⟩ := h.place
  have := h.core.slot s.hi
  rw [State.slot, State.slot, hhi]
  exact this
theorem free (h : Accessed s u) (hs : s.Free) : u.Free := by
  rw [State.Free, h.slot]
  exact hs
theorem advanced (h : Accessed s u) (hu : Advanced u t) : Advanced s t := by
  rw [Advanced, h.slot] at hu
  exact hu
/-- Behind an access, what an instruction leaves that writes at most register gd is the frame of a store or atomic. -/
theorem storeFrame {d : Nat} (h : Accessed s u) (hu : ScalarFrame d u t) : StoreFrame d s t := by
  have hslot := h.slot
  obtain ⟨⟨hcl, hco, hhi⟩, hcore, hcores, hclus, htlbs, hpoints, hhub⟩ := h
  obtain ⟨hout, hkeep, hregs, -⟩ := hu
  have htcore : t.core = u.core.setSlot s.hi t.slot := by
    rw [hout, State.core_setSlot, State.slot_setSlot, hhi]
  have htcores : t.cores = put (8 * s.cl + s.co) t.core u.cores := by
    rw [htcore, hout, ← hcl, ← hco, ← hhi, State.slot_setSlot]
    rfl
  have htclus (k : Nat) : t.clusAt k = u.clusAt k := by rw [hout]; rfl
  refine ⟨?_, ?_, ?_, fun n hn => ?_, fun k hk => ?_, fun k => ?_, fun k hk => ?_, ?_, ?_⟩
  · rw [htcore]
    unfold Core.Accessed at hcore
    rw [hcore]
    cases s.hi <;> rfl
  · rw [hkeep, hslot]
  · rw [htcore, Core.slot_setSlot_not]
    exact hcore.slot _
  · rw [hregs n hn, hslot]
    rfl
  · rw [htcores, look_put_ne hk]
    exact hcores k hk
  · rw [htclus]
    exact hclus k
  · rw [htclus]
    exact htlbs k hk
  · rw [hout]
    exact hpoints
  · rw [hout]
    exact hhub
/-- What is left when the thread writes a register behind an access and goes on. -/
theorem setG_retires (h : Accessed s u) (hs : s.Free) {d : BitVec 6} (hd : d.toNat < 32) (v : Word) :
    WroteG d.toNat v (u.setG d v).retire ∧ Advanced s (u.setG d v).retire ∧ StoreFrame d.toNat s (u.setG d v).retire ∧
      SameBytes u (u.setG d v).retire ∧ (u.setG d v).retire.bd = u.bd ∧ (u.setG d v).retire.mem = u.mem := by
  obtain ⟨hw, hadv, hframe⟩ := retire_setG_frame (h.free hs) hd v
  refine ⟨hw, h.advanced hadv, h.storeFrame hframe, hframe.bytes, ?_, ?_⟩ <;> rw [hframe.outside] <;> rfl
/-- What is left when the thread goes on behind an access. -/
theorem retires (h : Accessed s u) (hs : s.Free) :
    Advanced s u.retire ∧ StoreFrame 0 s u.retire ∧ SameBytes u u.retire ∧ u.retire.bd = u.bd ∧ u.retire.mem = u.mem := by
  obtain ⟨hadv, hframe⟩ := retire_frame (h.free hs)
  refine ⟨h.advanced hadv, h.storeFrame hframe, hframe.bytes, ?_, ?_⟩ <;> rw [hframe.outside] <;> rfl
end Accessed

/-! ### Bytes that read as before -/

/-- What a thread reads at a location depends on its views and on the points between its core and the home (R299, R300). -/
theorem seen_eq_of_points {s t : State} {loc : Nat} (hslot : t.slot = s.slot) (hown : t.core.own = s.core.own) (hclus : t.clus.dirty = s.clus.dirty)
    (hdie : t.dieOf t.cl = s.dieOf s.cl) (hpeer : t.peer = s.peer) (hmem : t.mem.get loc = s.mem.get loc) : t.seen loc = s.seen loc := by
  rw [seen_eq, seen_eq, hslot, State.newest, State.newest, hown, hclus, hdie, hpeer, hmem]

theorem SameBytes.refl (s : State) : SameBytes s s := ⟨fun _ => rfl, fun _ _ => rfl⟩
theorem SameBytes.trans {s t u : State} (h : SameBytes s t) (k : SameBytes t u) : SameBytes s u :=
  ⟨fun a => (k.1 a).trans (h.1 a), fun b a => (k.2 b a).trans (h.2 b a)⟩
theorem SameBytes.seenNum {s u : State} (h : SameBytes s u) (loc n : Nat) : u.seenNum loc n = s.seenNum loc n := by
  unfold State.seenNum
  simp only [h.1]
/-- A number written in the bytes behind an access that changed none is written in those before. -/
theorem HeldWrite.of_sameBytes {spc a n x : Nat} {s t u : State} (h : HeldWrite spc a n x s t) (k : SameBytes t u) : HeldWrite spc a n x s u :=
  ⟨fun i hi => (k.2 _ _).trans (h.1 i hi), fun b c hc => (k.2 b c).trans (h.2.1 b c hc), fun loc => (k.1 loc).trans (h.2.2 loc)⟩
theorem SeenWrite.of_sameBytes {loc n x : Nat} {s t u : State} (h : SeenWrite loc n x s t) (k : SameBytes t u) : SeenWrite loc n x s u :=
  ⟨fun i hi => (k.1 _).trans (h.1 i hi), fun c hc => (k.1 c).trans (h.2.1 c hc), fun b c => (k.2 b c).trans (h.2.2 b c)⟩
theorem SeenWrite.sameBytes_trans {loc n x : Nat} {s t u : State} (h : SeenWrite loc n x t u) (k : SameBytes s t) : SeenWrite loc n x s u :=
  ⟨h.1, fun c hc => (h.2.1 c hc).trans (k.1 c), fun b c => (h.2.2 b c).trans (k.2 b c)⟩

/-! ### A translation (R395) -/

/-- `u` is `s` but for the translations that the core and its cluster hold. -/
structure Translated (s u : State) : Prop where
  accessed : Accessed s u
  core : u.core = { s.core with tlb := u.core.tlb }
  bytes : SameBytes s u
  home : u.mem = s.mem ∧ u.bd = s.bd

theorem translated_modTlbs (s : State) (f : List TlbEnt → List TlbEnt) : Translated s (s.modTlbs f) := by
  have hcore : (s.modTlbs f).core = { s.core with tlb := f s.core.tlb } := by
    rw [State.modTlbs, State.core_modClus, State.core_modCore]
  have hclus : (s.modTlbs f).clus = { s.clus with tlb := f s.clus.tlb } := by
    rw [State.modTlbs, State.clus_modClus, State.clus_modCore]
  refine ⟨.modTlbs s f, by rw [hcore], ⟨fun loc => ?_, fun b a => ?_⟩, rfl, rfl⟩
  · exact seen_eq_of_points (State.slot_modTlbs s f) (by rw [hcore]) (by rw [hclus]) rfl rfl rfl
  · rw [State.held, hcore]
    unfold Core.buf
    split <;> simp [State.held, Core.buf]
/-- A translation that succeeds. -/
theorem xlate_translated {s u : State} {va : Nat} {acc : Acc} {form : Form} {p : Place} (h : s.xlate va acc form = .ok (p, u)) : Translated s u := by
  rcases xlate_ok h with rfl | ⟨t, rfl⟩
  · exact ⟨.refl _, rfl, .refl _, rfl, rfl⟩
  · exact translated_modTlbs _ _
/-- Which commands hold an access back does not depend on the translations held (R107). -/
theorem Translated.scalarWaits {s u : State} (h : Translated s u) (spc ea n : Nat) (wr : Bool) :
    u.scalarWaits spc ea n wr = s.scalarWaits spc ea n wr := by
  obtain ⟨-, -, hhi⟩ := h.accessed.place
  unfold State.scalarWaits State.rangesOf State.copyRanges
  rw [hhi, h.core]
  rfl

end Sys2Proof.Machine
end

section
/-! SUPPORT. LD and ST: the address and the value, the checks in their order, and the access to a buffer, to device memory and through a
drive's window (R105, R106, R299, R300, R392, R407). -/

namespace Sys2Proof.Machine

/-! ### Address, width and extension (R79, R105) -/

theorem eaL4_eq_address (s : State) (o : OpL4) : s.eaL4 o = address s o := by
  rw [State.eaL4, address, add_eq_int64, imm20_toInt_signExtend]
theorem widBytes_eq_width (wid : BitVec 3) : widBytes wid = width wid := by
  have hall : ∀ wid : BitVec 3, widBytes wid = width wid := by decide
  exact hall wid
theorem widExt_eq_extended (wid : BitVec 3) (x : Nat) : widExt wid x = extended wid x := by
  rw [widExt, extended, sextW, sgn_eq_signedElem, signedElem, BitVec.toInt_ofNat', widBytes_eq_width]
  rfl

/-! ### What LD and ST are, once their access has succeeded or failed -/

section
variable {s u : State} {o : OpL4} {x : Nat} {t : Trap}

theorem exec_ld (s : State) (o : OpL4) : exec (.ld o) s = commit s (fun s => do
    let (x, t) ← s.scalarRead o.spc.toNat (address s o) (width o.wid)
    pure (t.setG o.d (extended o.wid x))) := by
  simp only [← eaL4_eq_address, ← widBytes_eq_width, ← widExt_eq_extended]
  rfl
theorem exec_st (s : State) (o : OpL4) :
    exec (.st o) s = commit s (fun s => s.scalarWrite o.spc.toNat (address s o) (width o.wid) (s.g o.d).toNat) := by
  simp only [← eaL4_eq_address, ← widBytes_eq_width]
  rfl
theorem ld_ok (h : s.scalarRead o.spc.toNat (address s o) (width o.wid) = .ok (x, u)) :
    exec (.ld o) s = .next (u.setG o.d (extended o.wid x)).retire := by
  rw [exec_ld]
  exact commit_ok (by rw [h]; rfl)
theorem st_ok (h : s.scalarWrite o.spc.toNat (address s o) (width o.wid) (s.g o.d).toNat = .ok u) : exec (.st o) s = .next u.retire := by
  rw [exec_st]
  exact commit_ok h
/-- A check that fails before the access decides (R106). -/
theorem ld_traps (h : s.checkData o.spc.toNat (address s o) (width o.wid) .rd = .error (.trap t s)) : exec (.ld o) s = .next (s.takeTrap t) := by
  rw [exec_ld]
  exact commit_trap (by rw [State.scalarRead, h]; rfl)
theorem st_traps (h : s.checkData o.spc.toNat (address s o) (width o.wid) .wr = .error (.trap t s)) : exec (.st o) s = .next (s.takeTrap t) := by
  rw [exec_st]
  exact commit_trap (by rw [State.scalarWrite, h]; rfl)

end

/-! ### The checks (R106) -/

section
variable {s : State} {spc ea n : Nat} {acc : Acc}

/-- The address lies in its space (R106). -/
def InRange (spc ea n : Nat) : Prop := spc = 0 ∧ ea < 2 ^ 54 ∨ spc ≠ 0 ∧ ea + n ≤ bufSize spc

theorem checkData_inRange (h : InRange spc ea n) : s.checkData spc ea n acc = (do
    need (decide (ea % n = 0)) (Trap.align 0x02) s
    if spc ≠ 0 then need (!s.core.notHolder spc ea n) Trap.holder s) := by
  unfold State.checkData
  rcases h with ⟨h0, hlt⟩ | ⟨h0, hle⟩
  · rw [if_pos h0, decide_eq_true hlt, need_true]
    rfl
  · rw [if_neg h0, decide_eq_true hle, need_true]
    rfl
theorem checkData_device (hlt : ea < 2 ^ 54) (hal : ea % n = 0) : s.checkData 0 ea n acc = .ok () := by
  rw [checkData_inRange (.inl ⟨rfl, hlt⟩), decide_eq_true hal, need_true]
  rfl
theorem checkData_buffer (h0 : spc ≠ 0) (hle : ea + n ≤ bufSize spc) (hal : ea % n = 0) (hold : s.core.notHolder spc ea n = false) :
    s.checkData spc ea n acc = .ok () := by
  rw [checkData_inRange (.inr ⟨h0, hle⟩), decide_eq_true hal, need_true, if_pos h0, hold, Bool.not_false, need_true]
  rfl
theorem checkData_beyond_device (h : 2 ^ 54 ≤ ea) :
    s.checkData 0 ea n acc = .error (.trap { code := 0x07, sub := 0x01, d0 := word ea, d2 := word (accCode acc) } s) := by
  unfold State.checkData
  rw [if_pos rfl, decide_eq_false (by omega), need_false]
  rfl
theorem checkData_beyond_buffer (h0 : spc ≠ 0) (h : bufSize spc < ea + n) :
    s.checkData spc ea n acc = .error (.trap { code := 0x03, sub := 0x01 } s) := by
  unfold State.checkData
  rw [if_neg h0, decide_eq_false (by omega), need_false]
  rfl
theorem checkData_misaligned (h : InRange spc ea n) (hal : ea % n ≠ 0) :
    s.checkData spc ea n acc = .error (.trap { code := 0x05, sub := 0x02 } s) := by
  rw [checkData_inRange h, decide_eq_false hal, need_false]
  rfl
theorem checkData_notHeld (h : InRange spc ea n) (hal : ea % n = 0) (h0 : spc ≠ 0) (hold : s.core.notHolder spc ea n = true) :
    s.checkData spc ea n acc = .error (.trap { code := 0x09, sub := 0 } s) := by
  rw [checkData_inRange h, decide_eq_true hal, need_true, if_pos h0, hold, Bool.not_true, need_false]
  rfl

end

/-- R106. -/
theorem loadAndStoreChecks : LoadAndStoreChecks := by
  intro s i o hi
  have htrap {code sub : Nat} {d0 : Word} {f : Acc → Word}
      (h : ∀ acc, s.checkData o.spc.toNat (address s o) (width o.wid) acc = .error (.trap { code := code, sub := sub, d0 := d0, d2 := f acc } s)) :
      Runs i s (fun t => t = s.takeTrap { code := code, sub := sub, d0 := d0, d2 := if i = .ld o then f .rd else f .wr }) := by
    rcases hi with rfl | rfl
    · exact ⟨_, ld_traps (h .rd), by rw [if_pos rfl]⟩
    · exact ⟨_, st_traps (h .wr), by rw [if_neg (by simp)]⟩
  have hsame {code sub : Nat} (h : ∀ acc, s.checkData o.spc.toNat (address s o) (width o.wid) acc = .error (.trap { code := code, sub := sub } s)) :
      Runs i s (fun t => t = s.takeTrap { code := code, sub := sub }) := by
    have := htrap (f := fun _ => 0) h
    rwa [ite_self] at this
  refine ⟨fun h0 hbig => ?_, fun h0 hbig => hsame fun _ => checkData_beyond_buffer h0 hbig, fun hin => ?_⟩
  · refine htrap (f := fun acc => word (accCode acc)) fun acc => ?_
    rw [(spc_toNat_eq_zero _).mpr h0]
    exact checkData_beyond_device hbig
  · rw [← spc_toNat_eq_zero] at hin
    exact ⟨fun hal => hsame fun _ => checkData_misaligned hin hal, fun hal h0 hold => hsame fun _ => checkData_notHeld hin hal h0 hold⟩

/-! ### Buffers (R105, R107) -/

theorem waitRange_ok {s : State} {spc ea n : Nat} {wr : Bool} (h : s.scalarWaits spc ea n wr = false) : s.waitRange spc ea n wr = .ok () := by
  rw [State.waitRange, h]
  rfl

section
variable {s : State} {spc ea n x : Nat} {wr : Bool}

theorem BufferFree.space_ne_zero (h : BufferFree s spc ea n wr) : spc ≠ 0 := by
  have := h.space.1
  omega
theorem scalarRead_buffer (h : BufferFree s spc ea n false) : s.scalarRead spc ea n = .ok (s.heldNum spc ea n, s) := by
  rw [State.scalarRead, checkData_buffer h.space_ne_zero h.inside h.aligned h.holder, waitRange_ok h.ready, if_neg h.space_ne_zero, bufRead_eq]
  rfl
theorem scalarWrite_buffer (h : BufferFree s spc ea n true) : s.scalarWrite spc ea n x = .ok (s.bufWrite spc ea x n) := by
  rw [State.scalarWrite, checkData_buffer h.space_ne_zero h.inside h.aligned h.holder, waitRange_ok h.ready, if_neg h.space_ne_zero]
  rfl

/-- A write to a buffer of the current core. -/
theorem bufWrite_accessed (s : State) (spc a x n : Nat) : Accessed s (s.bufWrite spc a x n) := by
  rw [bufWrite_eq]
  exact .setCore (.of_moved (.setBuf _ _ _))
@[simp] theorem Core.buf_setSlot (K : Core) (hi : Bool) (x : Slot) (b : Nat) : (K.setSlot hi x).buf b = K.buf b := by
  unfold Core.buf
  split <;> simp
theorem bufWrite_buf (hspc : 1 ≤ spc ∧ spc ≤ 3) (s : State) (a x n b : Nat) :
    (s.bufWrite spc a x n).core.buf b = if b = spc then (s.core.buf spc).write a x n else s.core.buf b := by
  rw [bufWrite_eq, State.core_setCore, Core.buf_setBuf _ _ _ hspc]
theorem bufWrite_seen (s : State) (spc a x n loc : Nat) : (s.bufWrite spc a x n).seen loc = s.seen loc := by
  have hkept (K : Core) (m : Mem) : (K.setBuf spc m).own = K.own ∧ (K.setBuf spc m).slot s.hi = K.slot s.hi := by
    unfold Core.setBuf
    split <;> exact ⟨rfl, rfl⟩
  obtain ⟨hown, hslot⟩ := hkept s.core ((s.core.buf spc).write a x n)
  rw [bufWrite_eq, ← setCore_core_seen s]
  exact seen_congr (by rw [hown]) (by rw [hslot])
/-- The bytes of a number written to a buffer (R9). -/
theorem bufWrite_heldWrite (hspc : 1 ≤ spc ∧ spc ≤ 3) (hwf : (s.core.buf spc).wf = true) (a x n : Nat) :
    HeldWrite spc a n x s (s.bufWrite spc a x n) := by
  have hbuf := bufWrite_buf hspc s a x n
  refine ⟨fun k hk => ?_, fun b c hc => ?_, bufWrite_seen s spc a x n⟩
  · rw [State.held, hbuf, if_pos rfl]
    exact Mem.get_write hwf _ _ _ _ hk
  · rw [State.held, hbuf, State.held]
    split
    · next hb =>
      rw [hb]
      exact Mem.get_write_out hwf _ _ _ _ (hc.resolve_left (fun hne => hne hb))
    · rfl

end

/-- R105. -/
theorem bufferLoadsAndStores : BufferLoadsAndStores := by
  intro s o hs
  refine ⟨fun hwf hfree => ?_, fun hwf hfree hcanon => ?_⟩
  · exact ⟨_, ld_ok (scalarRead_buffer hfree), retire_setG_frame hs (dest_lt hwf) _⟩
  · have hacc := bufWrite_accessed s o.spc.toNat (address s o) (s.g o.d).toNat (width o.wid)
    obtain ⟨hadv, hframe, hbytes, hbd, -⟩ := hacc.retires hs
    refine ⟨_, st_ok (scalarWrite_buffer hfree), (bufWrite_heldWrite hfree.space hcanon _ _ _).of_sameBytes hbytes, hadv, hframe, hbd, ?_⟩
    rw [State.retire_setSlot (hacc.free hs), State.core_setSlot]
    rw [Core.buf_setSlot, bufWrite_buf hfree.space, if_pos rfl]
    exact Mem.wf_write hcanon _ _ _

/-! ### Device memory (R105, R299, R300) -/

section
variable {s u : State} {ea n loc x : Nat}

theorem scalarRead_device (h : DeviceFree s ea n .rd .scalar loc u) : s.scalarRead 0 ea n = u.readPlace ea loc n 0 := by
  obtain ⟨hin, hal, hready, hmaps⟩ := h
  rw [State.scalarRead, checkData_device hin hal, waitRange_ok (wr := false) hready, if_pos rfl, hmaps]
  rfl
theorem scalarWrite_device (h : DeviceFree s ea n .wr .scalar loc u) : s.scalarWrite 0 ea n x = .ok (u.viewWrite loc x n) := by
  obtain ⟨hin, hal, hready, hmaps⟩ := h
  rw [State.scalarWrite, checkData_device hin hal, waitRange_ok (wr := true) hready, if_pos rfl, hmaps]
  rfl

/-- A read of device memory: what it gives, and that it keeps every byte (R300). -/
theorem readPlace_reads (va : Nat) (e : Word) (h : loc < peerBase ∨ s.peerAdmits loc n 0 = true) :
    ∃ t, s.readPlace va loc n e = .ok (s.seenNum loc n, t) ∧ Accessed s t ∧ SameBytes s t ∧ t.bd = s.bd := by
  have hadmits : (decide (peerBase ≤ loc) && !s.peerAdmits loc n 0) = false := by
    rcases h with hlt | hpeer
    · rw [decide_eq_false (by omega), Bool.false_and]
    · rw [hpeer, Bool.not_true, Bool.and_false]
  obtain ⟨hnum, hst, hseen⟩ := viewRead_eq n s loc
  refine ⟨(s.viewRead loc n).2, by rw [State.readPlace, hadmits, ← hnum]; rfl, ?_⟩
  rcases hst with hst | ⟨V, hst⟩
  · rw [hst]
    exact ⟨.refl s, .refl s, rfl⟩
  · refine ⟨?_, ⟨hseen, fun b a => ?_⟩, by rw [hst]; rfl⟩
    · rw [hst]
      exact .setCore (.of_moved (.looked s.core s.hi V))
    · rw [hst]
      exact (held_setCore s (s.core.looked s.hi V) b a).trans (by rw [Core.buf_looked]; rfl)

/-- A store of n bytes waits in the core (R299). -/
theorem viewWrite_accessed (s : State) (loc x n : Nat) : Accessed s (s.viewWrite loc x n) := by
  cases n with
  | zero => exact .refl s
  | succ n =>
    rw [viewWrite_eq]
    exact .setCore (.of_moved (.wrote s.core s.xl.age 0 loc x (n + 1)))
theorem viewWrite_held (s : State) (loc x n b a : Nat) : (s.viewWrite loc x n).held b a = s.held b a := by
  cases n with
  | zero => rfl
  | succ n => rw [viewWrite_eq, held_setCore, Core.buf_storedAll, State.held]
theorem viewWrite_home (s : State) (loc x n : Nat) : (s.viewWrite loc x n).bd = s.bd ∧ (s.viewWrite loc x n).mem = s.mem := by
  cases n with
  | zero => exact ⟨rfl, rfl⟩
  | succ n =>
    rw [viewWrite_eq]
    exact ⟨rfl, rfl⟩
theorem viewWrite_seenWrite (s : State) (loc x n : Nat) : SeenWrite loc n x s (s.viewWrite loc x n) := by
  refine ⟨fun k hk => ?_, fun c hc => ?_, viewWrite_held s loc x n⟩
  · rw [seen_viewWrite, if_pos (by omega), Nat.add_sub_cancel_left]
  · rw [seen_viewWrite, if_neg (by omega)]

end

/-- R105, R299, R300. -/
theorem deviceLoadsAndStores : DeviceLoadsAndStores := by
  intro s o loc u hs h0
  rw [← spc_toNat_eq_zero] at h0
  refine ⟨fun hwf hfree hadmits => ?_, fun hwf hfree => ?_⟩
  · have hx := xlate_translated hfree.maps
    obtain ⟨t, ht, hacc, hsame, hbd⟩ := readPlace_reads (address s o) 0 hadmits
    obtain ⟨hw, hadv, hframe, hbytes, hbd', -⟩ := (hx.accessed.trans hacc).setG_retires hs (dest_lt hwf) (extended o.wid (s.seenNum loc (width o.wid)))
    rw [hx.bytes.seenNum] at ht
    refine ⟨_, ld_ok (by rw [h0, scalarRead_device hfree, ht]), hw, hadv, hframe, ?_, (hx.bytes.trans hsame).trans hbytes⟩
    rw [hbd', hbd, hx.home.2]
  · have hx := xlate_translated hfree.maps
    obtain ⟨hbd, hmem⟩ := viewWrite_home u loc (s.g o.d).toNat (width o.wid)
    obtain ⟨hadv, hframe, hbytes, hbd', hmem'⟩ := (hx.accessed.trans (viewWrite_accessed u loc (s.g o.d).toNat (width o.wid))).retires hs
    refine ⟨_, st_ok (by rw [h0, scalarWrite_device hfree]), ?_, hadv, hframe, ?_, ?_⟩
    · exact ((viewWrite_seenWrite u _ _ _).of_sameBytes hbytes).sameBytes_trans hx.bytes
    · rw [hbd', hbd, hx.home.2]
    · rw [hmem', hmem, hx.home.1]

/-! ### A drive's window (R392, R407) -/

/-- The state whose outputs and count of free values are given. -/
def State.sent (u : State) (l : List Out) (f : Nat) : State := { u with out := l, free := f }

section
variable {s u t : State} {ea n port a x : Nat}

theorem scalarRead_window (hin : ea < 2 ^ 54) (hal : ea % n = 0) (hready : s.scalarWaits 0 ea n false = false)
    (hmaps : s.xlate ea .rd .scalar = .ok (.drive port a, u)) : s.scalarRead 0 ea n =
      .ok (Config.freeValue s.free % 2 ^ (8 * n), u.sent (.driveLoad port a n :: s.out) (s.free + 1)) := by
  obtain ⟨-, -, -, -, -, -, -, hout, -, -, -, hfree⟩ := (xlate_translated hmaps).accessed.hub
  rw [State.scalarRead, checkData_device hin hal, waitRange_ok hready, if_pos rfl, hmaps, ← hout, ← hfree]
  rfl
theorem scalarWrite_window (hin : ea < 2 ^ 54) (hal : ea % n = 0) (hready : s.scalarWaits 0 ea n true = false)
    (hmaps : s.xlate ea .wr .scalar = .ok (.drive port a, u)) : s.scalarWrite 0 ea n x =
      .ok (u.sent (.driveStore port a n (x % 2 ^ (8 * n)) :: s.out) s.free) := by
  obtain ⟨-, -, -, -, -, -, -, hout, -, -, -, hfree⟩ := (xlate_translated hmaps).accessed.hub
  rw [State.scalarWrite, checkData_device hin hal, waitRange_ok hready, if_pos rfl, hmaps, ← hout, ← hfree]
  rfl
theorem sent_free (hx : Translated s u) (hs : s.Free) (l : List Out) (f : Nat) : (u.sent l f).Free := hx.accessed.free hs
/-- What is left when the thread goes on behind an access that left the package. -/
theorem sent_frame {d f : Nat} {l : List Out} (hx : Translated s u) (hadv : Advanced (u.sent l f) t) (h : ScalarFrame d (u.sent l f) t) :
    Advanced s t ∧ t.out = l ∧ t.free = f ∧ t.mem = s.mem ∧ SameBytes s t ∧ ∀ n, n ≠ d → t.slot.getG n = s.slot.getG n := by
  obtain ⟨hacc, -, hsame, hmem, -⟩ := hx
  have hsent : SameBytes u (u.sent l f) := ⟨fun _ => seen_eq_of_points rfl rfl rfl rfl rfl rfl, fun _ _ => rfl⟩
  obtain ⟨hout, -, hregs, hbytes⟩ := h
  refine ⟨hacc.advanced hadv, by rw [hout]; rfl, by rw [hout]; rfl, by rw [hout, ← hmem]; rfl, (hsame.trans hsent).trans hbytes, fun n hn => ?_⟩
  rw [hregs n hn, show (u.sent l f).slot = u.slot from rfl, hacc.slot]
  rfl

end

/-- R392, R407. -/
theorem windowLoadsAndStores : WindowLoadsAndStores := by
  intro s o port a u hs h0 hin hal
  rw [← spc_toNat_eq_zero] at h0
  refine ⟨fun hwf hready hmaps => ?_, fun hwf hready hmaps => ?_⟩
  · have hx := xlate_translated hmaps
    obtain ⟨hw, hadv, hframe⟩ := retire_setG_frame (sent_free hx hs (.driveLoad port a (width o.wid) :: s.out) (s.free + 1)) (dest_lt hwf)
      (extended o.wid (Config.freeValue s.free % 2 ^ (8 * width o.wid)))
    exact ⟨_, ld_ok (by rw [h0, scalarRead_window hin hal hready hmaps]), hw, sent_frame hx hadv hframe⟩
  · have hx := xlate_translated hmaps
    obtain ⟨hadv, hframe⟩ := retire_frame (sent_free hx hs
      (.driveStore port a (width o.wid) ((s.g o.d).toNat % 2 ^ (8 * width o.wid)) :: s.out) s.free)
    obtain ⟨hadv, hout, hfree, hmem, hsame, hregs⟩ := sent_frame hx hadv hframe
    refine ⟨_, st_ok (by rw [h0, scalarWrite_window hin hal hready hmaps]), hadv, hout, hfree, hmem, hsame, fun n => ?_⟩
    by_cases hn : n = 0
    · rw [hn]; rfl
    · exact hregs n hn

/-- Settles O3: the checks decide in order; an access that passes them leaves its bytes in a buffer, in the thread's view or on a root port. -/
theorem scalarLoadsAndStores : Obligations.ScalarLoadsAndStores :=
  ⟨bufferLoadsAndStores, deviceLoadsAndStores, loadAndStoreChecks, windowLoadsAndStores⟩

end Sys2Proof.Machine
end

section
/-! SUPPORT. Atomics: their value, the home of a location to which nothing is on its way, and the forms on a buffer and on device memory
(R109 to R111, R299, R300, R337, R338). -/

namespace Sys2Proof.Machine

/-! ### The value of an atomic (R110) -/

theorem amoNew_eq_atomicValue {op w old : Nat} (x cmp : Nat) (hold : old < 2 ^ w) :
    amoNew op w old x cmp = atomicValue op w old (x % 2 ^ w) (cmp % 2 ^ w) := by
  have hmod := Nat.mod_eq_of_lt hold
  have hsgn (z : Nat) : sgn w (z % 2 ^ w) = (BitVec.ofNat w (z % 2 ^ w)).toInt := sgn_eq_signedElem w _
  unfold amoNew atomicValue
  simp only [hmod]
  split
  case h_5 | h_6 => rw [hsgn x, ← hmod, hsgn old]
  case h_7 => rw [min_comm, min_def_lt]
  case h_8 => rw [max_def_lt]
  all_goals rfl

theorem atomicValue_lt {op w old x : Nat} (cmp : Nat) (hold : old < 2 ^ w) (hx : x < 2 ^ w) (hf : op = 8 → w = 32) (hb : op = 9 → w = 16) :
    atomicValue op w old x cmp < 2 ^ w := by
  unfold atomicValue
  split
  · exact Nat.mod_lt _ (Nat.two_pow_pos w)
  · exact Nat.and_lt_two_pow _ hx
  · exact Nat.or_lt_two_pow hold hx
  · exact Nat.xor_lt_two_pow hold hx
  · split <;> assumption
  · split <;> assumption
  · exact (min_le_left _ _).trans_lt hold
  · exact max_lt hold hx
  · rw [hf rfl]
    exact fround_lt_of_sound (drainFormat_sound (fmt := 1) (by decide)) _ _ _ _
  · rw [hb rfl]
    exact fround_lt_of_sound (drainFormat_sound (fmt := 3) (by decide)) _ _ _ _
  · exact hx
  · split <;> assumption

/-! ### The forms (R109) -/

section
variable {s u w : State} {i : Instr} {op : Nat} {o : OpAM}

theorem exec_amo (h : amoForm i = some (op, o)) : exec i s = commit s (fun s => do
    let (p, t) ← s.access o.spc.toNat (s.g o.base).toNat (amoWidth o.sz) (amoWidth o.sz) .atm
    t.waitRange o.spc.toNat (s.g o.base).toNat (amoWidth o.sz) true
    let (old, t) ← t.atomic p op (8 * amoWidth o.sz) (s.g o.val).toNat (s.g o.cmp).toNat
    pure (t.setG o.d (word old))) := by
  unfold amoForm at h
  split at h <;> cases h <;> rfl
theorem amo_ok {p : Spot} {old : Nat} (h : amoForm i = some (op, o))
    (hplace : s.access o.spc.toNat (s.g o.base).toNat (amoWidth o.sz) (amoWidth o.sz) .atm = .ok (p, u))
    (hready : u.scalarWaits o.spc.toNat (s.g o.base).toNat (amoWidth o.sz) true = false)
    (hnew : u.atomic p op (8 * amoWidth o.sz) (s.g o.val).toNat (s.g o.cmp).toNat = .ok (old, w)) :
    exec i s = .next (w.setG o.d (word old)).retire := by
  rw [exec_amo h]
  refine commit_ok ?_
  simp only [hplace, waitRange_ok hready, hnew, bind, Except.bind, pure, Except.pure]
theorem amo_defect (hwf : i.WellFormed) (h : amoForm i = some (op, o)) : o.defect op = none := by
  unfold amoForm at h
  split at h <;> cases h <;> exact hwf
/-- What R109 calls legal: the destination, and the width of the two sums. -/
theorem amo_legal (hwf : i.WellFormed) (h : amoForm i = some (op, o)) :
    o.d.toNat < 32 ∧ (op = 8 → 8 * amoWidth o.sz = 32) ∧ (op = 9 → 8 * amoWidth o.sz = 16) := by
  have hd := amo_defect hwf h
  have hlegal : amoLegal op o.sz o.spc = true := by
    simp only [OpAM.defect, firstOf_cons, Bool.or_eq_false_iff, Bool.not_eq_false'] at hd
    obtain ⟨-, ⟨-, hlegal⟩, -⟩ := hd
    exact hlegal
  refine ⟨dest_lt hd, ?_, ?_⟩
  · rintro rfl
    have hsz : o.sz = 1#2 := by simpa [amoLegal] using hlegal
    rw [hsz]
    rfl
  · rintro rfl
    have hsz : o.sz = 0#2 ∧ o.spc ≠ 0#3 := by simpa [amoLegal] using hlegal
    rw [hsz.1]
    rfl
theorem amoWidth_dvd (sz : BitVec 2) : amoWidth sz ∣ 64 := by
  have hall : ∀ sz : BitVec 2, amoWidth sz ∣ 64 := by decide
  exact hall sz

end

/-! ### A buffer (R106, R110) -/

section
variable {s : State} {spc ea n : Nat}

theorem access_buffer (h : BufferFree s spc ea n true) : s.access spc ea n n .atm = .ok (.buf spc ea, s) := by
  rw [State.access, if_neg h.space_ne_zero, if_neg h.space_ne_zero, decide_eq_true h.inside, decide_eq_true h.aligned, h.holder]
  rfl
theorem read_lt_two_pow (m : Mem) (a n : Nat) : m.read a n < 2 ^ (8 * n) := by
  rw [pow_mul]
  exact Mem.read_lt m a n
theorem heldNum_lt (s : State) (spc a n : Nat) : s.heldNum spc a n < 2 ^ (8 * n) := by
  rw [← bufRead_eq]
  exact read_lt_two_pow _ _ _
theorem atomic_buffer (s : State) (spc a op n x cmp : Nat) : s.atomic (.buf spc a) op (8 * n) x cmp =
    .ok (s.heldNum spc a n, s.bufWrite spc a (atomicValue op (8 * n) (s.heldNum spc a n) (x % 2 ^ (8 * n)) (cmp % 2 ^ (8 * n))) n) := by
  rw [← amoNew_eq_atomicValue _ _ (heldNum_lt s spc a n), ← bufRead_eq]
  simp only [State.atomic, Nat.mul_div_cancel_left n (show 0 < 8 by decide)]

end

/-! ### A home to which nothing is on its way (R111, R299, R337) -/

/-- A state that lists its current core and cluster. -/
def State.listed (s : State) : State := (s.modClus id).setCore s.core

/-- The state whose combining stores and device memory are given, its current core and cluster listed. -/
def State.homed (s : State) (b : BaseDie) (m : Mem) : State := { s.listed with bd := b, mem := m }

theorem drop_of_look_eq_none {α : Type} {k : Nat} {l : List (Nat × α)} (h : look k l = none) : drop k l = l := by
  induction l with
  | nil => rfl
  | cons p r ih =>
    obtain ⟨j, a⟩ := p
    rw [look] at h
    rw [drop]
    split at h
    · cases h
    · next hj => rw [if_neg hj, ih h]
theorem Overlay.get?_eq_none {x : Overlay} {a : Nat} (h : ∀ c ∈ x, c.1 ≠ a) : x.get? a = none := by
  induction x with
  | nil => rfl
  | cons c r ih =>
    obtain ⟨k, b⟩ := c
    rw [Overlay.get?, if_neg (h _ (List.mem_cons_self ..))]
    exact ih (fun c hc => h c (List.mem_cons_of_mem _ hc))
/-- An overlay without a byte of a line: none is taken out, and all are left. -/
theorem Overlay.part_line {x : Overlay} {line : Nat} (h : ∀ c ∈ x, c.1 / 64 ≠ line) :
    x.part (fun a => a / 64 == line) = [] ∧ x.part (fun a => !(a / 64 == line)) = x := by
  refine ⟨List.filter_eq_nil_iff.mpr fun c hc => ?_, List.filter_eq_self.mpr fun c hc => ?_⟩ <;> simp [h c hc]
theorem setDie_dieOf (s : State) (cl : Nat) : s.setDie cl (s.dieOf cl) = s := by
  unfold State.setDie State.dieOf
  split <;> rfl
theorem toHome_nil (s : State) : s.toHome [] = s := by
  simp [State.toHome, Overlay.part, Overlay.toMem]

section
variable {s u : State} {loc : Nat}

theorem Translated.lineHome (hx : Translated s u) (h : LineHome s loc) : LineHome u loc := by
  obtain ⟨hcl, -, -⟩ := hx.accessed.place
  obtain ⟨hdie0, hdie1, hpeer⟩ := hx.accessed.points
  have hclus : u.clus = { s.clus with tlb := u.clus.tlb } := by
    rw [State.clus, State.clus, hcl]
    exact hx.accessed.clusters s.cl
  obtain ⟨hnear, hown, hdirty, hwriter, hdie, hpeers, hops, hheld⟩ := h
  refine ⟨hnear, ?_, ?_, ?_, ?_, by rw [hpeer]; exact hpeers, by rw [hx.home.2]; exact hops, by rw [hx.home.2]; exact hheld⟩
  · rw [hx.core]
    exact hown
  · rw [hclus]
    exact hdirty
  · rw [hclus]
    exact hwriter
  · rw [State.dieOf, hcl, hdie0, hdie1]
    exact hdie
theorem settle_of_ops_nil (h : s.bd.ops = []) (line : Nat) : s.settle line = s := by
  unfold State.settle
  rw [h]
  rfl
theorem fillLine_of_ops_nil (h : s.bd.ops = []) {line : Nat} (hheld : ∀ e ∈ s.bd.held, e.line ≠ line) : s.fillLine line = s := by
  have hmap : s.bd.held.map (fun e => if e.line = line then { e with filled := true, since := s.time } else e) = s.bd.held :=
    (List.map_congr_left fun e he => if_neg (hheld e he)).trans (List.map_id _)
  unfold State.fillLine
  simp only [h, List.filter_nil, List.foldl_nil, List.map_nil, hmap]
  rw [← h]
theorem LineHome.lineHome_eq (h : LineHome s loc) : s.lineHome loc = s.listed := by
  obtain ⟨-, hown, hdirty, hwriter, hdie, hpeer, -, -⟩ := h
  have hany : s.core.own.any (fun c => c.1 / 64 == loc / 64) = false := List.any_eq_false.mpr fun c hc => by simp [hown c hc]
  have hclus : s.modClus (fun k => { k with dirty := k.dirty.part (fun a => !(a / 64 == loc / 64)), dirtyBy := drop (loc / 64) k.dirtyBy }) =
      s.modClus id := by
    rw [State.modClus, State.modClus, (Overlay.part_line hdirty).2, drop_of_look_eq_none hwriter]
    rfl
  have hcore : (s.modClus id).modCore (fun c => { c with own := c.own.part (fun a => !(a / 64 == loc / 64)) }) = s.listed := by
    rw [State.modCore, State.core_modClus, (Overlay.part_line hown).2]
    rfl
  unfold State.lineHome
  simp only [hany, Bool.false_eq_true, if_false, (Overlay.part_line hdie).1, (Overlay.part_line hdie).2, setDie_dieOf, hclus, hcore,
    (Overlay.part_line hown).1, (Overlay.part_line hdirty).1, (Overlay.part_line hpeer).1, toHome_nil]
  have hpeers : s.listed.peer = s.peer := rfl
  rw [hpeers, (Overlay.part_line hpeer).2]
  rfl
/-- The home as an operation that returns finds it (R338). -/
theorem LineHome.atHome_eq (h : LineHome s loc) {b : BaseDie} (hb : s.bd.entry (loc / 64) true s.time = some b) :
    s.atHome loc = .ok (s.homed b s.mem) := by
  have hfill : s.listed.fillLine (loc / 64) = s.listed := fillLine_of_ops_nil (s := s.listed) h.ops h.combining
  have hentry : s.listed.bd.entry (loc / 64) true s.listed.time = some b := hb
  unfold State.atHome
  simp only [settle_of_ops_nil h.ops, h.lineHome_eq, hfill, if_neg h.near.not_ge, hentry]
  rfl

end

/-! ### A write at the home (R110, R300) -/

/-- What both slots see where the core holds no younger store. -/
theorem notes_fixed (hi : Bool) (n : Nat) : ∀ (K : Core) (loc x a : Nat), (∀ k < n, K.own.get? (loc + k) = none) →
    ((K.notes loc x n).slot hi).fixed a = if loc ≤ a ∧ a < loc + n then some (BitVec.ofNat 8 (x / 256 ^ (a - loc))) else (K.slot hi).fixed a := by
  induction n with
  | zero => intro K loc x a _; simp [Core.notes]
  | succ n ih =>
    intro K loc x a hown
    have hhead : (K.own.get? loc).isSome = false := by rw [show K.own.get? loc = none from hown 0 (by omega)]; rfl
    rw [Core.notes, hhead, if_neg Bool.false_ne_true, ih _ _ _ _ (fun k hk => by
      rw [show loc + 1 + k = loc + (k + 1) by omega]
      exact hown (k + 1) (by omega))]
    have hslot : Core.slot { K with s0 := K.s0.sees loc (BitVec.ofNat 8 x), s1 := K.s1.sees loc (BitVec.ofNat 8 x) } hi =
        (K.slot hi).sees loc (BitVec.ofNat 8 x) := by cases hi <;> rfl
    by_cases h : loc + 1 ≤ a ∧ a < loc + 1 + n
    · rw [if_pos h, if_pos (by omega), Nat.div_div_eq_div_mul, ← Nat.pow_succ', show (a - (loc + 1)).succ = a - loc by omega]
    · rw [if_neg h, hslot, fixed_sees]
      by_cases ha : a = loc
      · rw [if_pos ha, if_pos (by omega), ha, Nat.sub_self, Nat.pow_zero, Nat.div_one]
      · rw [if_neg ha, if_neg (by omega)]
theorem notes_own (K : Core) (loc x n : Nat) : (K.notes loc x n).own = K.own := by
  induction n generalizing K loc x with
  | zero => rfl
  | succ n ih =>
    rw [Core.notes, ih]
    split <;> rfl
theorem notes_moved (K : Core) (loc x n : Nat) : K.Moved (K.notes loc x n) := by
  have h := Core.ViewsOf.notes K loc x n
  unfold Core.ViewsOf at h
  rw [h]
  rfl
theorem notes_buf (K : Core) (loc x n b : Nat) : (K.notes loc x n).buf b = K.buf b := by
  have h := Core.ViewsOf.notes K loc x n
  unfold Core.ViewsOf at h
  rw [h]
  unfold Core.buf
  split <;> rfl
theorem seen_noteOwn (s : State) {loc n : Nat} (x a : Nat) (hown : ∀ k < n, s.core.own.get? (loc + k) = none) :
    (s.noteOwn loc x n).seen a = if loc ≤ a ∧ a < loc + n then BitVec.ofNat 8 (x / 256 ^ (a - loc)) else s.seen a := by
  rw [State.noteOwn, State.modCore_eq]
  by_cases h : loc ≤ a ∧ a < loc + n
  · rw [if_pos h, seen_setCore, notes_fixed _ _ _ _ _ _ hown, if_pos h]
    rfl
  · rw [if_neg h, ← setCore_core_seen s a]
    exact seen_congr (by rw [notes_own]) (by rw [notes_fixed _ _ _ _ _ _ hown, if_neg h])

section
variable {s : State} {b : BaseDie} {m : Mem} {loc n : Nat}

theorem homed_core (s : State) (b : BaseDie) (m : Mem) : (s.homed b m).core = s.core := State.core_setCore (s.modClus id) s.core
theorem homed_accessed (s : State) (b : BaseDie) (m : Mem) : Accessed s (s.homed b m) :=
  ((Accessed.modClus s id).trans (.setCore (.refl s.core))).trans (.withHome _ b m)
theorem homed_seen {a : Nat} (h : m.get a = s.mem.get a) : (s.homed b m).seen a = s.seen a := by
  have hslot : (s.homed b m).slot = s.slot := congrArg (Core.slot · s.hi) (homed_core s b m)
  have hclus : (s.homed b m).clus = s.clus := State.clus_modClus s id
  exact seen_eq_of_points hslot (by rw [homed_core]) (by rw [hclus]) rfl rfl h

/-- The state behind an atomic at a home to which nothing was on its way. -/
def State.atomicDone (s : State) (b : BaseDie) (loc x n : Nat) : State := (s.homed b (s.mem.write loc x n)).noteOwn loc x n

theorem atomicDone_accessed (s : State) (b : BaseDie) (loc x n : Nat) : Accessed s (s.atomicDone b loc x n) :=
  (homed_accessed s b (s.mem.write loc x n)).trans (.setCore (.of_moved (notes_moved _ _ _ _)))
theorem atomicDone_home (s : State) (b : BaseDie) (loc x n : Nat) :
    (s.atomicDone b loc x n).bd = b ∧ (s.atomicDone b loc x n).mem = s.mem.write loc x n := ⟨rfl, rfl⟩
/-- The bytes of a number written at the home are what the thread reads there (R300). -/
theorem atomicDone_seenWrite (b : BaseDie) (x : Nat) (hmem : s.mem.wf = true) (hown : ∀ k < n, s.core.own.get? (loc + k) = none) :
    SeenWrite loc n x s (s.atomicDone b loc x n) := by
  have hseen (a : Nat) := seen_noteOwn (s.homed b (s.mem.write loc x n)) x a (by rw [homed_core]; exact hown)
  refine ⟨fun k hk => ?_, fun c hc => ?_, fun c a => ?_⟩
  · rw [State.atomicDone, hseen, if_pos (by omega), Nat.add_sub_cancel_left]
  · rw [State.atomicDone, hseen, if_neg (by omega), homed_seen (Mem.get_write_out hmem _ _ _ _ hc)]
  · rw [State.atomicDone, State.noteOwn, State.modCore_eq, held_setCore, notes_buf, homed_core, State.held]
theorem atomic_device (h : LineHome s loc) (hb : s.bd.entry (loc / 64) true s.time = some b) (va op x cmp : Nat) :
    s.atomic (.dev loc va) op (8 * n) x cmp = .ok (s.mem.read loc n,
      s.atomicDone b loc (atomicValue op (8 * n) (s.mem.read loc n) (x % 2 ^ (8 * n)) (cmp % 2 ^ (8 * n))) n) := by
  rw [← amoNew_eq_atomicValue _ _ (read_lt_two_pow s.mem loc n)]
  simp only [State.atomic, h.atHome_eq hb, decide_eq_false h.near.not_ge, Bool.false_and, Bool.false_eq_true, if_false,
    Nat.mul_div_cancel_left n (show 0 < 8 by decide)]
  rfl
theorem access_device {ea : Nat} {u : State} (h : DeviceFree s ea n .atm .other loc u) : s.access 0 ea n n .atm = .ok (.dev loc ea, u) := by
  obtain ⟨hin, hal, -, hmaps⟩ := h
  rw [State.access, if_pos rfl, if_pos rfl, decide_eq_true hin, decide_eq_true hal, hmaps]
  rfl
/-- An aligned operation lies in one line, of which the core holds no byte. -/
theorem LineHome.own_get? (h : LineHome s loc) (hn : n ∣ 64) (hal : loc % n = 0) {k : Nat} (hk : k < n) : s.core.own.get? (loc + k) = none := by
  refine Overlay.get?_eq_none fun c hc hck => h.own c hc ?_
  obtain ⟨m, hm⟩ := hn
  obtain ⟨q, rfl⟩ := Nat.dvd_of_mod_eq_zero hal
  have hn0 : 0 < n := by omega
  rw [hck, hm, ← Nat.div_div_eq_div_mul, ← Nat.div_div_eq_div_mul, Nat.mul_add_div hn0, Nat.div_eq_of_lt hk, Nat.mul_div_cancel_left _ hn0, Nat.add_zero]

end

/-- Settles O4: an atomic is one read and one write of its value, in the buffer or at a home to which nothing is on its way. -/
theorem atomicsUpdateTheirHome : Obligations.AtomicsUpdateTheirHome := by
  intro s i op o hs hwf hform
  obtain ⟨hd, hsum, hbsum⟩ := amo_legal hwf hform
  refine ⟨fun hfree hcanon => ?_, fun loc u b h0 hfree hal hhome hb hmem => ?_⟩
  · have hacc := bufWrite_accessed s o.spc.toNat (s.g o.base).toNat (atomicValue op (8 * amoWidth o.sz)
      (s.heldNum o.spc.toNat (s.g o.base).toNat (amoWidth o.sz)) ((s.g o.val).toNat % 2 ^ (8 * amoWidth o.sz))
      ((s.g o.cmp).toNat % 2 ^ (8 * amoWidth o.sz))) (amoWidth o.sz)
    obtain ⟨hw, hadv, hframe, hbytes, hbd, -⟩ := hacc.setG_retires hs hd (word (s.heldNum o.spc.toNat (s.g o.base).toNat (amoWidth o.sz)))
    exact ⟨_, amo_ok hform (access_buffer hfree) hfree.ready (atomic_buffer _ _ _ _ _ _ _), hw,
      (bufWrite_heldWrite hfree.space hcanon _ _ _).of_sameBytes hbytes, hadv, hframe, hbd⟩
  · rw [← spc_toNat_eq_zero] at h0
    have hx := xlate_translated hfree.maps
    obtain ⟨hm, hbd⟩ := hx.home
    obtain ⟨-, -, -, -, -, htime, -⟩ := hx.accessed.hub
    have hhome' := hx.lineHome hhome
    have hnew := atomic_device (n := amoWidth o.sz) hhome' (by rw [hbd, htime]; exact hb) (s.g o.base).toNat op (s.g o.val).toNat (s.g o.cmp).toNat
    rw [hm] at hnew
    have hval := atomicValue_lt ((s.g o.cmp).toNat % 2 ^ (8 * amoWidth o.sz)) (read_lt_two_pow s.mem loc (amoWidth o.sz))
      (Nat.mod_lt (s.g o.val).toNat (Nat.two_pow_pos _)) hsum hbsum
    generalize atomicValue op (8 * amoWidth o.sz) (s.mem.read loc (amoWidth o.sz)) ((s.g o.val).toNat % 2 ^ (8 * amoWidth o.sz))
      ((s.g o.cmp).toNat % 2 ^ (8 * amoWidth o.sz)) = new at hnew hval
    obtain ⟨hw, hadv, hframe, hbytes, hbd', hm'⟩ :=
      (hx.accessed.trans (atomicDone_accessed u b loc new (amoWidth o.sz))).setG_retires hs hd (word (s.mem.read loc (amoWidth o.sz)))
    have hseen := atomicDone_seenWrite (s := u) b new (by rw [hm]; exact hmem) (fun k hk => hhome'.own_get? (amoWidth_dvd o.sz) hal hk)
    refine ⟨_, amo_ok hform (by rw [h0]; exact access_device hfree) (by rw [h0, hx.scalarWaits]; exact hfree.ready) hnew, hbd', hw,
      (hseen.of_sameBytes hbytes).sameBytes_trans hx.bytes, ?_, hadv, hframe⟩
    rw [hm', (atomicDone_home _ _ _ _ _).2, hm, Mem.read_write hmem, Nat.mod_eq_of_lt]
    rw [pow_mul] at hval
    exact hval

end Sys2Proof.Machine
end

section
/-! SUPPORT. Integer and floating lanes, and the ramp: what each leaves in vD and in STATUS (R49, R132, R134, R138 to R142). -/

namespace Sys2Proof.Machine

/-! ### A form whose command reads what it captured at commit (R66, R134) -/

/-- A T4V form of the vector unit whose command works on the register files with what it captured at commit. -/
theorem v4_runs_captured {o : OpV4} {i : Instr} {wr : List Res} {F : Nat → Nat → MReg → Run1} {s : State} {n : Nat} {g : Files} {fl mrs : Nat}
    (hi : waitsForNothing i = true) (hq : s.Quiet) (hn : LenIs s o.len n)
    (hF : ∀ (B : Core) (e : Cmd), s.core.qpos = e.qpos → F (vtSew s.slot.vtype) (lengthOf s o.len n) (s.mreg o.msk.toNat)
      ((v4Ticket o i s wr).cmd s o.len n) (working s B e (popF s.core.f o.len) 0 0) = .ok (working s B e g fl mrs)) :
    ∃ u, engine (v4Ticket o i s wr) (vecEff o.len o.msk F) s = .next u ∧ FilesRun .vec i o.len g fl mrs s u := by
  refine engine_runs_from (t := v4Ticket o i s wr) (m := n)
    (c := (v4Ticket o i s wr).noted s o.len n (lengthOf s o.len n) (active (s.mreg o.msk.toNat) (lengthOf s o.len n))) hq (.inl rfl) rfl hn hi rfl
    (fun _ => rfl) hq.free rfl rfl rfl ?_
  simp only [Ticket.cmd_vtype, len_popped _ _ _ _ _ hn, Ticket.core_mreg, note_working]
  exact hF _ _ rfl
/-- The register files after the length operand has been popped and one vector register written. -/
def vectorWritten (f : Files) (len : BitVec 3) (d : Nat) (x : VReg) : Files := { popF f len with v := (popF f len).v.setIfInBounds d x }
theorem vectorWritten_frame (f : Files) (len : BitVec 3) (d : Nat) (x : VReg) : FilesFrame f (vectorWritten f len d x) [d] [] [] [] [] len :=
  (FilesFrame.popF _ _ _ _ _ _ _).setV x (List.mem_singleton.mpr rfl)
theorem FilesRun.vreg_written {e : Engine} {i : Instr} {len : BitVec 3} {d : BitVec 6} {x : VReg} {fl mrs : Nat} {f : Files} {s t : State}
    (h : FilesRun e i len (vectorWritten f len d.toNat x) fl mrs s t) : t.vreg d.toNat = x := by
  rw [h.vreg, vectorWritten, getD_setIfInBounds _ _ _ _ _ d.isLt, if_pos rfl]
/-- The lanes of a command that has done nothing before them. -/
theorem working_firstLanes (s : State) (B : Core) {c e : Cmd} (len : BitVec 3) (d w n : Nat) (m : MReg) (r : Lanes) (h : c.qpos = e.qpos) :
    (working s B e (popF s.core.f len) 0 0).putLanes c d w m n r =
      working s B e (vectorWritten s.core.f len d (maskedWrite (s.vreg d) w m n (fun k => (r k).1))) (orFlags m (fun k => (r k).2) n) 0 := by
  rw [working_putLanes _ _ _ _ _ _ _ _ _ _ _ _ h, popF_vreg, Nat.zero_or]
  rfl

section
variable {s : State} {i : Instr} {o : OpV4} {n : Nat}

/-! ### Integer lanes (R139) -/

/-- An integer form in a quiet core, whose lanes agree with `f` modulo 2^SEW. -/
theorem integerLane_runs {f h : Nat → Nat → Nat → Nat} (he : exec i s = vecForm o i (intEff o h) s) (hi : waitsForNothing i = true) (hq : s.Quiet)
    (hn : LenIs s o.len n) (hf : ∀ w a b, h w a b % 2 ^ w = f w a b % 2 ^ w) :
    Runs i s (fun t => EngineFrame .vec i [o.d.toNat] [] [] [] [] o.len s t ∧ Advanced s t ∧ t.slot.status = s.slot.status ∧
      LaneResult s t o.d.toNat (vtSew s.slot.vtype) (lengthOf s o.len n) o.msk (fun e =>
        f (vtSew s.slot.vtype) (laneA s o (vtSew s.slot.vtype) (lengthOf s o.len n) e)
          (laneB s o (vtSew s.slot.vtype) (lengthOf s o.len n) e))) := by
  obtain ⟨t, ht, hframe, hadv, hst, hv⟩ := lane_runs (f := fun _ w a b => (h w a b, 0)) (g := fun a b => (h (vtSew s.slot.vtype) a b, 0)) hq
    (fixedRanges_of_waitsForNothing hi) (copyReady_of_waitsForNothing hi) hn (fun _ _ => rfl)
  refine ⟨t, he.trans ht, hframe, hadv, ?_, fun e he => ?_⟩
  · rw [hst, laneFlags, orFlags_zero _ _ (fun _ => rfl), statusWith_zero]
  · rw [hv, elem_laneImage _ _ _ _ _ _ he, hf]
    rfl

theorem clampTo_eq_saturated (o : OpV4) (w : Nat) (z : Int) : clampTo (v4Uns o) w z = saturated o w z := by
  unfold clampTo saturated unsignedForm v4Uns flag clamped
  cases o.opx.getLsbD 1 <;> simp [unsgn_eq_encoded]
theorem valOf_eq_valued (o : OpV4) (w a : Nat) : valOf (v4Uns o) w a = valued o w a := valOf_eq _ _ _
theorem sraW_eq (w a b : Nat) : sraW w a b = encoded w (signedElem w a / 2 ^ (b % w)) := by
  rw [sraW, unsgn_eq_encoded, sgn_eq_signedElem, shAmt, Nat.cast_pow]
  rfl
/-- The command of each integer form gives the lanes of R139. -/
theorem integerLane_effect {f : Nat → Nat → Nat → Nat} (hi : integerLane i = some (o, f)) : ∃ h : Nat → Nat → Nat → Nat,
    exec i s = vecForm o i (intEff o h) s ∧ waitsForNothing i = true ∧ ∀ w a b, h w a b % 2 ^ w = f w a b % 2 ^ w := by
  unfold integerLane at hi
  split at hi <;> cases hi
  case h_1 | h_2 | h_3 => exact ⟨_, rfl, rfl, fun _ _ _ => (Nat.mod_mod _ _).symm⟩
  case h_4 | h_5 | h_6 => exact ⟨_, rfl, rfl, fun _ _ _ => rfl⟩
  case h_7 => exact ⟨_, rfl, rfl, fun _ _ _ => by rw [Nat.shiftLeft_eq, shAmt, Nat.mod_mod]⟩
  case h_8 => exact ⟨_, rfl, rfl, fun _ _ _ => by rw [Nat.shiftRight_eq_div_pow, shAmt]⟩
  case h_9 => exact ⟨_, rfl, rfl, fun _ _ _ => by rw [sraW_eq]⟩
  case h_10 => exact ⟨_, rfl, rfl, fun _ _ _ => by simp only [minOf, valOf_eq_valued]⟩
  case h_11 => exact ⟨_, rfl, rfl, fun _ _ _ => by simp only [maxOf, valOf_eq_valued]⟩
  case h_12 | h_13 => exact ⟨_, rfl, rfl, fun _ _ _ => by simp only [clampTo_eq_saturated, valOf_eq_valued]⟩

/-! ### Floating lanes (R132, R140 to R142) -/

/-- An element-wise form whose lanes may read C as well: its step. -/
def threeLaneStep (o : OpV4) (f : Cmd → Nat → Nat → Nat → Nat → Nat × Nat) (w n : Nat) (m : MReg) : Run1 := fun c s =>
  let ab := v4Lanes o c s w n
  .ok (s.putLanes c o.d.toNat w m n (fun i => f c w (ab.1 i) (ab.2 i) (elem (s.vreg o.c.toNat) w i)))
/-- Such a form in a quiet core. -/
theorem threeLane_runs {f : Cmd → Nat → Nat → Nat → Nat → Nat × Nat} {g : Nat → Nat → Nat → Nat × Nat}
    (he : exec i s = engine (v4Ticket o i s [.v o.d.toNat]) (vecEff o.len o.msk (threeLaneStep o f)) s) (hi : waitsForNothing i = true) (hq : s.Quiet)
    (hn : LenIs s o.len n) (hg : ∀ c : Cmd, c.vtype = s.slot.vtype → f c (vtSew s.slot.vtype) = g) :
    Runs i s (fun t => EngineFrame .vec i [o.d.toNat] [] [] [] [] o.len s t ∧ Advanced s t ∧
      FlagResult s t (lengthOf s o.len n) o.msk (fun e =>
        (g (laneA s o (vtSew s.slot.vtype) (lengthOf s o.len n) e) (laneB s o (vtSew s.slot.vtype) (lengthOf s o.len n) e)
          (elem (s.vreg o.c.toNat) (vtSew s.slot.vtype) e)).2) ∧
      LaneResult s t o.d.toNat (vtSew s.slot.vtype) (lengthOf s o.len n) o.msk (fun e =>
        (g (laneA s o (vtSew s.slot.vtype) (lengthOf s o.len n) e) (laneB s o (vtSew s.slot.vtype) (lengthOf s o.len n) e)
          (elem (s.vreg o.c.toNat) (vtSew s.slot.vtype) e)).1)) := by
  obtain ⟨t, ht, hrun⟩ := v4_runs_captured (wr := [.v o.d.toNat]) (F := threeLaneStep o f) hi hq hn (fun B e hqp => by
    have hops : v4Lanes o ((v4Ticket o i s [.v o.d.toNat]).cmd s o.len n) (working s B e (popF s.core.f o.len) 0 0) (vtSew s.slot.vtype)
        (lengthOf s o.len n) = _ := v4Lanes_eq o i s n _ _ _ _ (by exact (popF_v _ _).1)
    simp only [threeLaneStep, hops, working_vreg, popF_vreg, hg _ (Ticket.cmd_vtype _ _ _ _)]
    exact congrArg Except.ok (working_firstLanes s B o.len o.d.toNat _ _ _ _ hqp))
  exact ⟨t, he.trans ht, hrun.frame (vectorWritten_frame _ _ _ _), hrun.advanced, hrun.flagResult rfl, laneResult_of hrun.vreg_written⟩

theorem fabsE_eq {fmt : Nat} (h : fmt ≤ 3) (a : Nat) : fabsE (fmtOf fmt) a =
    if (fval (fmtOf fmt) a).isNan then ((fmtOf fmt).nan, if (fval (fmtOf fmt) a).isSig then fNV else 0) else (a % 2 ^ (fmtWidth fmt - 1), 0) := by
  have hw : (fmtOf fmt).w = fmtWidth fmt := by interval_cases fmt <;> rfl
  unfold fabsE
  rw [hw]
/-- The lanes of an arithmetic form, on the values of its operands under the captured format and rounding mode. -/
def arithLanes (r : FF → Nat → FV → FV → FV → Nat × Nat) (c : Cmd) (_ a b x : Nat) : Nat × Nat :=
  r (fmtOf (vtFmt c.vtype)) (arithRm (vtRm c.vtype)) (fval (fmtOf (vtFmt c.vtype)) a) (fval (fmtOf (vtFmt c.vtype)) b)
    (fval (fmtOf (vtFmt c.vtype)) x)
theorem arithLanes_at (r : FF → Nat → FV → FV → FV → Nat × Nat) {c : Cmd} {vt : Word} (hc : c.vtype = vt) : arithLanes r c (vtSew vt) =
    fun a b x => r (fmtOf (vtFmt vt)) (roundMode vt) (fval (fmtOf (vtFmt vt)) a) (fval (fmtOf (vtFmt vt)) b) (fval (fmtOf (vtFmt vt)) x) := by
  funext a b x
  rw [arithLanes, hc]
  rfl
/-- The lanes of a special function, on the encoding of its operand. -/
def specialLanes (r : Nat → Nat → Nat → Nat × Nat) (c : Cmd) (_ a _ _ : Nat) : Nat × Nat := r (vtFmt c.vtype) (vtRm c.vtype) a
theorem specialLanes_at (r : Nat → Nat → Nat → Nat × Nat) {c : Cmd} {vt : Word} (hc : c.vtype = vt) :
    specialLanes r c (vtSew vt) = fun a _ _ => r (vtFmt vt) (vtRm vt) a := by
  funext a _ _
  rw [specialLanes, hc]
/-- The command of each floating form gives the lanes of R140 to R142. -/
theorem floatLane_effect {vt : Word} {g : Nat → Nat → Nat → Nat × Nat} (hi : floatLane vt i = some (o, g)) :
    ∃ f : Cmd → Nat → Nat → Nat → Nat → Nat × Nat, exec i s = fpForm o i (vecEff o.len o.msk (threeLaneStep o f)) s ∧ waitsForNothing i = true ∧
      (vtFmt vt ≤ 3 → ∀ c : Cmd, c.vtype = vt → f c (vtSew vt) = g) := by
  unfold floatLane at hi
  split at hi <;> cases hi
  case h_1 => exact ⟨arithLanes (fun f rm a b _ => faddR f rm a b), rfl, rfl, fun _ _ hc => arithLanes_at _ hc⟩
  case h_2 => exact ⟨arithLanes (fun f rm a b _ => faddR f rm a b.neg), rfl, rfl, fun _ _ hc => arithLanes_at _ hc⟩
  case h_3 => exact ⟨arithLanes (fun f rm a b _ => fmulR f rm a b), rfl, rfl, fun _ _ hc => arithLanes_at _ hc⟩
  case h_4 => exact ⟨arithLanes (fun f rm a b _ => fdivR f rm a b), rfl, rfl, fun _ _ hc => arithLanes_at _ hc⟩
  case h_5 => exact ⟨arithLanes fmaR, rfl, rfl, fun _ _ hc => arithLanes_at _ hc⟩
  case h_6 => exact ⟨arithLanes (fun f rm a b c => fmaR f rm a b c.neg), rfl, rfl, fun _ _ hc => arithLanes_at _ hc⟩
  case h_7 => exact ⟨fun c _ a b _ => fpick false (fmtOf (vtFmt c.vtype)) a b, rfl, rfl, fun _ _ hc => by simp only [hc, fpick_eq_floatPick]⟩
  case h_8 => exact ⟨fun c _ a b _ => fpick true (fmtOf (vtFmt c.vtype)) a b, rfl, rfl, fun _ _ hc => by simp only [hc, fpick_eq_floatPick]⟩
  case h_9 => exact ⟨arithLanes (fun f rm a _ _ => fsqrtR f rm a), rfl, rfl, fun _ _ hc => arithLanes_at _ hc⟩
  case h_10 => exact ⟨fun c _ a _ _ => fabsE (fmtOf (vtFmt c.vtype)) a, rfl, rfl, fun hfmt _ hc => by simp only [hc, fabsE_eq hfmt]⟩
  case h_11 => exact ⟨specialLanes spExp, rfl, rfl, fun _ _ hc => specialLanes_at _ hc⟩
  case h_12 => exact ⟨specialLanes spLog, rfl, rfl, fun _ _ hc => specialLanes_at _ hc⟩
  case h_13 => exact ⟨specialLanes spRcp, rfl, rfl, fun _ _ hc => specialLanes_at _ hc⟩
  case h_14 => exact ⟨specialLanes spRsq, rfl, rfl, fun _ _ hc => specialLanes_at _ hc⟩
  case h_15 => exact ⟨specialLanes spTanh, rfl, rfl, fun _ _ hc => specialLanes_at _ hc⟩
end

/-! ### The lanes and the ramp -/

/-- R139. -/
theorem integerLanes : IntegerLanes := by
  intro s i o f n hq hi hn
  obtain ⟨h, he, hw, hf⟩ := integerLane_effect (s := s) hi
  exact integerLane_runs he hw hq hn hf
/-- The step of VIDX. -/
def vidxStep (o : OpI8) (w n : Nat) (m : MReg) : Run1 := fun c s =>
  .ok (s.putLanes c o.d.toNat w m n (fun k => (unsgn w (o.start.toInt + k * o.step.toInt), 0)))
/-- R138. -/
theorem rampOfIndices : RampOfIndices := by
  intro s o n hq hn
  obtain ⟨t, ht, hrun⟩ := vecEff_runs (F := vidxStep o) (msk := o.msk)
    (t := { eng := .vec, ins := .vidx o, lens := [o.len], rd := [.m o.msk.toNat], wr := [.v o.d.toNat] }) hq rfl rfl hn rfl rfl
    (fun B c e _ _ hqp => congrArg Except.ok (working_firstLanes s B o.len o.d.toNat _ _ _ _ hqp))
  rw [orFlags_zero _ _ (fun _ => rfl)] at hrun
  refine ⟨t, ht, hrun.frame (vectorWritten_frame _ _ _ _), hrun.advanced, hrun.status_same, laneResult_of ?_⟩
  rw [hrun.vreg_written]
  simp only [unsgn_eq_encoded]
/-- R132, R140 to R142. -/
theorem floatLanes : FloatLanes := by
  intro s i o g n hq hi hn
  obtain ⟨f, he, hw, hg⟩ := floatLane_effect (s := s) hi
  refine ⟨fun hfmt => ?_, fun hfmt => traps_of (he.trans (if_pos hfmt)) (by decide) (by decide)⟩
  rw [fpForm, fpGuard_pass hfmt] at he
  exact threeLane_runs he hw hq hn (hg hfmt)

/-- Settles O9: each form's command gives the lanes that the rules name, and a command that writes lanes leaves all else as it was. -/
theorem vectorLanes : Obligations.VectorLanes := ⟨integerLanes, rampOfIndices, floatLanes⟩

end Sys2Proof.Machine
end

section
/-! SUPPORT. Moves of elements: compaction, expansion, slides, shuffles, merges and the stride permutation (R148, R149). -/

namespace Sys2Proof.Machine

section
variable {s : State} {i : Instr} {o : OpV4} {n : Nat}

/-! ### Moves (R148) -/

/-- The step of a move. -/
def moveStep (o : OpV4) (f : Cmd → State → Nat → Nat → MReg → Nat → Option Nat) (w n : Nat) (m : MReg) : Run1 := fun c s =>
  .ok (s.setV o.d.toNat (mapElems (s.vreg o.d.toNat) w (f c s w n m) n))
theorem moveEff_eq (o : OpV4) (f : Cmd → State → Nat → Nat → MReg → Nat → Option Nat) : moveEff o f = vecEff o.len o.msk (moveStep o f) := rfl
/-- Under the scalar that `s` captures at commit and the vector registers of `s`, `f` answers what `g` says, modulo 2^SEW. -/
def Moves (s : State) (o : OpV4) (N : Nat) (f : Cmd → State → Nat → Nat → MReg → Nat → Option Nat) (g : Nat → Option Nat) : Prop :=
  ∀ (c : Cmd) (u : State), (o.x = true → c.gb = s.g o.b) → (∀ r, u.vreg r = s.vreg r) → ∀ k,
    (f c u (vtSew s.slot.vtype) N (s.mreg o.msk.toNat) k).map (· % 2 ^ vtSew s.slot.vtype) = g k
theorem v4Ticket_gb (o : OpV4) (i : Instr) (s : State) (wr : List Res) (n : Nat) (hx : o.x = true) : ((v4Ticket o i s wr).cmd s o.len n).gb = s.g o.b := by
  rw [(Ticket.cmd_g _ _ _ _).2.1, v4Ticket, if_pos hx]
/-- Elements are taken modulo 2^w as they are written (R47). -/
theorem mapElems_of_mod {b : Nat} {f g : Nat → Option Nat} (r : BitVec b) (w : Nat) {c : Nat} (h : ∀ k, (f k).map (· % 2 ^ w) = g k) :
    mapElems r w f c = mapElems r w g c := by
  induction c with
  | zero => rfl
  | succ c ih =>
    rw [mapElems, mapElems, ← h c, ih]
    cases f c with
    | none => rfl
    | some x => simp only [Option.map_some, setElem, setFld, Nat.mod_mod]
/-- A move in a quiet core. -/
theorem move_runs {f : Cmd → State → Nat → Nat → MReg → Nat → Option Nat} {g : Nat → Option Nat} (he : exec i s = vecForm o i (moveEff o f) s)
    (hi : waitsForNothing i = true) (hq : s.Quiet) (hn : LenIs s o.len n) (hf : Moves s o (lengthOf s o.len n) f g) :
    Runs i s (fun t => EngineFrame .vec i [o.d.toNat] [] [] [] [] o.len s t ∧ Advanced s t ∧ t.slot.status = s.slot.status ∧
      ∀ e, e < vlmax (vtSew s.slot.vtype) → elem (t.vreg o.d.toNat) (vtSew s.slot.vtype) e =
        (if e < lengthOf s o.len n then (g e).getD (elem (s.vreg o.d.toNat) (vtSew s.slot.vtype) e)
         else elem (s.vreg o.d.toNat) (vtSew s.slot.vtype) e)) := by
  obtain ⟨t, ht, hrun⟩ := v4_runs_captured (wr := [.v o.d.toNat]) (F := moveStep o f) (mrs := 0) (fl := 0) hi hq hn (fun B e _ => by
    rw [moveStep, working_vreg, popF_vreg, working_setV,
      mapElems_of_mod _ _ (hf _ _ (v4Ticket_gb o i s _ n) fun r => (working_vreg _ _ _ _ _ _ r).trans (popF_vreg s o.len r))])
  refine ⟨t, he.trans ht, hrun.frame (vectorWritten_frame _ _ _ _), hrun.advanced, hrun.status_same, fun e he => ?_⟩
  have hlow : ∀ x, g e = some x → x % 2 ^ vtSew s.slot.vtype = x := by
    intro x hx
    rw [← hf ((v4Ticket o i s []).cmd s o.len n) s (v4Ticket_gb o i s _ n) (fun _ => rfl) e] at hx
    obtain ⟨y, -, rfl⟩ := Option.map_eq_some_iff.mp hx
    exact Nat.mod_mod _ _
  rw [hrun.vreg_written, elem_mapElems _ _ _ _ _ (elem_fits he)]
  cases hg : g e with
  | none => rfl
  | some x => simp only [hlow x hg, Option.getD_some]

theorem map_mod_elem (x : Option Nat) (r : VReg) (w : Nat) : (x.map (elem r w)).map (· % 2 ^ w) = x.map (elem r w) := by
  rw [Option.map_map]
  exact congrArg (Option.map · x) (funext fun k => Nat.mod_eq_of_lt (elem_lt r w k))
theorem active_eq_length (s : State) (msk : BitVec 3) (n : Nat) : active (s.mreg msk.toNat) n = (activeBelow s msk n).length := active_eq _ _
/-- What the first check of a form with a scalar operand demands. -/
theorem scalar_of_firstOf {x : Bool} {r : Reject} {l : List (Bool × Reject)} (h : firstOf ((!x, r) :: l) = none) : x = true := by
  rw [firstOf_cons] at h
  simpa using h.1
/-- The command of each move takes the elements that R148 names. -/
theorem movedElem_effect {N : Nat} {g : Nat → Option Nat} (hwf : i.WellFormed) (hi : movedElem s N i = some (o, g)) :
    ∃ f, exec i s = vecForm o i (moveEff o f) s ∧ waitsForNothing i = true ∧ Moves s o N f g := by
  unfold movedElem at hi
  split at hi <;> cases hi
  case h_1 =>
    refine ⟨_, rfl, rfl, fun c u _ hu k => ?_⟩
    rw [map_mod_elem, hu]
    rfl
  case h_2 =>
    refine ⟨_, rfl, rfl, fun c u _ hu k => ?_⟩
    simp only [hu, active_eq_length, flag]
    split <;> simp [Nat.mod_eq_of_lt (elem_lt _ _ _)]
  case h_3 =>
    have hx : o.x = true := scalar_of_firstOf hwf
    refine ⟨_, rfl, rfl, fun c u hc hu k => ?_⟩
    simp only [hu, hc hx, flag, Bool.and_eq_true, decide_eq_true_eq]
    split <;> simp [Nat.mod_eq_of_lt (elem_lt _ _ _)]
  case h_4 =>
    have hx : o.x = true := scalar_of_firstOf hwf
    refine ⟨_, rfl, rfl, fun c u hc hu k => ?_⟩
    simp only [hu, hc hx, flag]
    split
    · split <;> simp [Nat.mod_eq_of_lt (elem_lt _ _ _)]
    · rfl
  case h_5 =>
    refine ⟨_, rfl, rfl, fun c u hc hu k => ?_⟩
    have hk : (if o.x then c.gb.toNat else elem (s.vreg o.b.toNat) (vtSew s.slot.vtype) k) =
        if o.x then (s.g o.b).toNat else elem (s.vreg o.b.toNat) (vtSew s.slot.vtype) k := by
      split
      · next hx => rw [hc hx]
      · rfl
    simp only [hu, hk, flag]
    generalize (if o.x then (s.g o.b).toNat else elem (s.vreg o.b.toNat) (vtSew s.slot.vtype) k) = j
    split
    · split <;> simp [Nat.mod_eq_of_lt (elem_lt _ _ _)]
    · rfl
  case h_6 =>
    refine ⟨_, rfl, rfl, fun c u hc hu k => ?_⟩
    simp only [hu, flag, Option.map_some]
    congr 1
    split
    · split
      · next hx => rw [hc hx]
      · exact Nat.mod_eq_of_lt (elem_lt _ _ _)
    · exact Nat.mod_eq_of_lt (elem_lt _ _ _)

/-! ### The stride permutation (R149) -/
theorem rotl_eq {b e : Nat} (x : Nat) (he : e < 2 ^ b) :
    rotl b e (x % b) = if b = 0 then e else e * 2 ^ (x % b) % 2 ^ b + e / 2 ^ (b - x % b) := by
  unfold rotl
  split
  · rfl
  · next hb =>
    have hr : x % b < b := Nat.mod_lt _ (Nat.pos_of_ne_zero hb)
    rw [Nat.mod_mod]
    generalize x % b = r at hr ⊢
    have hlow : e >>> (b - r) < 2 ^ r := by
      rw [Nat.shiftRight_eq_div_pow, Nat.div_lt_iff_lt_mul (Nat.two_pow_pos _), ← Nat.pow_add, show r + (b - r) = b by omega]
      exact he
    have hhigh : e <<< r % 2 ^ b = (e % 2 ^ (b - r)) <<< r := by
      rw [Nat.shiftLeft_eq, Nat.shiftLeft_eq, ← Nat.mul_mod_mul_right, ← Nat.pow_add, show b - r + r = b by omega]
    rw [Nat.or_mod_two_pow, Nat.mod_eq_of_lt (hlow.trans_le (Nat.pow_le_pow_right (by decide) hr.le)), hhigh, ← Nat.shiftLeft_add_eq_or_of_lt hlow,
      ← hhigh, Nat.shiftLeft_eq, Nat.shiftRight_eq_div_pow]
/-- The step of VSPERM. -/
def vspermStep (o : OpV4) (w n : Nat) (m : MReg) : Run1 := fun c s => do
  need (decide (0 < n) && 2 ^ ilog2 n == n) (Trap.opndAt 0x05 n) s
  let a := s.vreg o.a.toNat
  let b := ilog2 n
  pure (s.putLanes c o.d.toNat w m n (fun i => (elem a w (rotl b i (c.gb.toNat % b)), 0)))
theorem effVsperm_eq (o : OpV4) : effVsperm o = vecEff o.len o.msk (vspermStep o) := rfl
/-- R149. -/
theorem vsperm_runs {b : Nat} (hq : s.Quiet) (hwf : Instr.WellFormed (.vsperm o)) (hn : LenIs s o.len n) (hb : lengthOf s o.len n = 2 ^ b) :
    Runs (.vsperm o) s (fun t => EngineFrame .vec (.vsperm o) [o.d.toNat] [] [] [] [] o.len s t ∧ Advanced s t ∧
      t.slot.status = s.slot.status ∧
      LaneResult s t o.d.toNat (vtSew s.slot.vtype) (2 ^ b) o.msk (fun e =>
        elem (s.vreg o.a.toNat) (vtSew s.slot.vtype)
          (if b = 0 then e else e * 2 ^ ((s.g o.b).toNat % b) % 2 ^ b + e / 2 ^ (b - (s.g o.b).toNat % b)))) := by
  have hlog : ilog2 (2 ^ b) = b := Nat.log2_two_pow
  have hpow : (decide (0 < 2 ^ b) && 2 ^ b == 2 ^ b) = true := by simp
  obtain ⟨t, ht, hrun⟩ := v4_runs_captured (i := .vsperm o) (wr := [.v o.d.toNat]) (F := vspermStep o) rfl hq hn (fun B e hqp => by
    simp only [vspermStep, hb, hlog, hpow, need_true, working_vreg, popF_vreg, v4Ticket_gb o _ s _ n (scalar_of_firstOf hwf)]
    exact congrArg Except.ok (working_firstLanes s B o.len o.d.toNat _ _ _ _ hqp))
  rw [orFlags_zero _ _ (fun _ => rfl)] at hrun
  refine ⟨t, ht, hrun.frame (vectorWritten_frame _ _ _ _), hrun.advanced, hrun.status_same, fun e he => ?_⟩
  rw [hrun.vreg_written, elem_maskedWrite _ _ _ _ _ _ (elem_fits he)]
  refine ite_congr rfl (fun h => ?_) (fun _ => rfl)
  rw [rotl_eq _ h.1]
end

/-- Settles O11: each move's command takes the elements that its rule names, and the stride permutation rotates positions. -/
theorem elementMoves : Obligations.ElementMoves := by
  refine ⟨fun s i o f n hq hwf hn hi => ?_, fun s o n b hq hwf hn hb _ => vsperm_runs hq hwf hn hb⟩
  obtain ⟨g, he, hw, hf⟩ := movedElem_effect hwf hi
  exact move_runs he hw hq hn hf

end Sys2Proof.Machine
end

section
/-! SUPPORT. Two images of VTYPE that VSETT never leaves (R51, R137), under which a load of bit planes and a scatter-add do what the rules of
their forms do not say (R24, R157, R160). -/

namespace Sys2Proof.Machine

/-! ### Nine bit planes (R24, R157) -/

/-- VTYPE has SEW 8, the format BPI and a PLN of 9, where R51 has at most 8; VL is 8, and byte 0 of W is 0xFF. -/
def ninePlanes : State := vecState [] 0x00900280 8 (fun c => { c with w := Mem.write [] 0 0xFF 1 })
/-- A load into v3 whose planes all lie at byte 0 of W. -/
def loadOfPlanes : OpM4 := ⟨3, 1, 0, 0, 0, 0⟩

/-- Plane 8 adds a second bit 0 to the eight bits of the others. -/
theorem gathered_ninePlanes :
    gathered ninePlanes 1 (planeLayout (vtPln ninePlanes.slot.vtype) (ninePlanes.g loadOfPlanes.base) (ninePlanes.g loadOfPlanes.ix)) id 0 = 256 := by
  decide +kernel
/-- Refutes O14: the statement bounds PLN nowhere, and with the nine planes of `ninePlanes` the bits that lie at the address of element 0
come to 256, which no element of 8 bits holds. -/
theorem not_vectorLoadsAndStores : ¬ Obligations.VectorLoadsAndStores := by
  unfold Obligations.VectorLoadsAndStores
  rintro ⟨hloads, -⟩
  obtain ⟨t, -, -, -, -, -, -, -, hlanes⟩ := hloads ninePlanes (.vldbp loadOfPlanes) loadOfPlanes 8 _ 8 id (quiet_of (by decide +kernel))
    (wf_of (by decide +kernel)) rfl (len_vl (by decide)) (fun _ => ⟨nofun, nofun, nofun, nofun⟩) ⟨by decide +kernel, by decide +kernel⟩
    (reaches_buf (by decide) (by decide +kernel))
  have hzero := hlanes 0 (by decide)
  rw [if_pos (by decide +kernel)] at hzero
  have hfits : elem (t.vreg 3) 8 0 < 256 := elem_lt _ 8 0
  exact absurd (hzero.trans gathered_ninePlanes) hfits.ne

/-! ### A binary32 sum of elements of 16 bits (R160) -/

/-- VTYPE has SEW 16 and the format FP32, whose width R51 has SEW agree with; VL is 1; element 0 of v1 and the first 2 bytes of C are 0x3F80. -/
def narrowSingles : State :=
  vecState [] 0x00800041 1 (fun c => { c with c := Mem.write [] 0 0x3F80 2, f := { c.f with v := c.f.v.setIfInBounds 1 0x3F80 } })
/-- A scatter-add of v1 to C, where v2 holds the indices 0. -/
def scatterOfSingles : OpM4 := ⟨1, 3, 0, 2, 0, 0⟩
/-- The first 2 bytes of C in a next state. -/
def bankAfter : Host.Outcome State Fault Refusal → Nat
  | .next t => (t.core.buf 3).read 0 2
  | _ => 0

/-- The model takes a sum of elements that are not 32 bits wide in BF16: 1 + 1 = 2. -/
theorem bank_narrowSingles : bankAfter (exec (.vscadd scatterOfSingles) narrowSingles) = 0x4000 := by decide +kernel
/-- The update of the statement: FMT FP32 makes it the binary32 sum, of operands of SEW bits. -/
def sumOfSingles : VectorAtomic :=
  ⟨8, 16, fun e => placed (narrowSingles.g scatterOfSingles.base) (elem (narrowSingles.vreg 2) 16 e) 2, elem (narrowSingles.vreg 1) 16, fun _ => 0, 0, 0, 3, none⟩
theorem vectorAtomic_narrowSingles : vectorAtomic narrowSingles (.vscadd scatterOfSingles) = some sumOfSingles := rfl
/-- The one element, 0, lies at the first byte of C. -/
theorem reaches_narrowSingles : ∀ e ∈ activeBelow narrowSingles 0 1, Reaches narrowSingles 3 (sumOfSingles.ad e) 2 .atm 0 := by
  intro e he
  obtain rfl : e = 0 := by revert e; decide +kernel
  have haddress : sumOfSingles.ad 0 = 0 := by decide +kernel
  rw [haddress]
  exact (reaches_buf (s := narrowSingles) (spc := 3) (els := [0]) (acs := fun _ => [(0, 2)]) (by decide) (by decide +kernel) 0 (List.mem_singleton_self 0) _
    (List.mem_singleton_self _)).1
/-- 0x3F80 + 0x3F80, two subnormals of binary32. -/
theorem updates_narrowSingles :
    (updates sumOfSingles (fun _ => 0) (activeBelow narrowSingles 0 (lengthOf narrowSingles 0 1)) (narrowSingles.core.buf 3)).1.read 0 2 = 0x7F00 := by
  decide +kernel
/-- Refutes O15: the statement takes the sum by FMT and the model by SEW, which agree in a legal VTYPE alone. In `narrowSingles` the
statement adds two binary32 subnormals and the model two BF16 ones. -/
theorem not_vectorAtomics : ¬ Obligations.VectorAtomics := by
  unfold Obligations.VectorAtomics
  rintro ⟨hbuffers, -⟩
  obtain ⟨t, hexec, -, -, -, -, -, hbank, -⟩ := hbuffers narrowSingles (.vscadd scatterOfSingles) sumOfSingles 1 (fun _ => 0)
    (quiet_of (by decide +kernel)) (wf_of (by decide +kernel)) vectorAtomic_narrowSingles (len_vl (by decide)) (by decide) (by decide +kernel)
    reaches_narrowSingles
  have hmodel : (t.core.buf 3).read 0 2 = 0x4000 := by simpa only [hexec, bankAfter] using bank_narrowSingles
  have hstated : (t.core.buf 3).read 0 2 = 0x7F00 := (congrArg (Mem.read · 0 2) hbank).trans updates_narrowSingles
  exact absurd (hmodel.symm.trans hstated) (by decide)

end Sys2Proof.Machine
end

section
/-! SUPPORT. A command of several steps (R276, R287): its steps in turn in a quiet core, and the row of the table that runs one of them. -/

namespace Sys2Proof.Machine

/-! ### Its steps in turn -/

/-- The core `K` of a command before step k of m: its entry `e` alone stands in the queue, and it is done after step m. -/
structure AtStep (s : State) (q m k : Nat) (e : Cmd) (K : Core) : Prop where
  queue : K.queue = [e]
  qpos : e.qpos = q
  slot : e.hi = s.hi
  view : e.ep = (K.slot s.hi).ep
  done : e.done = decide (m ≤ k)

theorem AtStep.cmd {s : State} {q m k : Nat} {e : Cmd} {K : Core} (h : AtStep s q m k e K) : (s.setCore K).core.cmd q = some e :=
  (Leaves.setCore s K).cmd h.queue h.qpos
/-- A step after which the command is not done is followed by the next. -/
theorem drive_goesOn {run : Run1} {q n : Nat} {s u : State} {c e : Cmd} (hc : s.core.cmd q = some c) (hhi : c.hi = s.hi) (hv : c.ep = s.slot.ep)
    (hr : run c s = .ok u) (hu : u.hi = s.hi) (he : u.core.cmd q = some e) (hd : e.done = false) :
    s.drive run q (n + 1) = u.drive run q n := by
  have hs : ({ s with hi := c.hi } : State) = s := by rw [hhi]
  have hu' : ({ u with hi := s.hi } : State) = u := by rw [← hu]
  have hw : c.viewNo (s.core.slot c.hi) = s.slot.ep := by rw [hhi]; exact viewNo_eq hv
  have hpump : s.pump run q = .ok (u, true) := by
    unfold State.pump
    simp [hc, hs, hw, inView_self rfl, hr, hu', he, hd]
  rw [State.drive, hpump]
theorem drive_steps {run : Run1} {s : State} {q m : Nat} {P : Nat → Cmd → Core → Prop} (hat : ∀ k e K, P k e K → AtStep s q m k e K)
    (hstep : ∀ k e K, k < m → P k e K → ∃ e' K', run e (s.setCore K) = .ok (s.setCore K') ∧ P (k + 1) e' K') (n j : Nat) :
    ∀ k e K, k + (j + 1) = m → P k e K →
      ∃ e' K', (s.setCore K).drive run q (n + (j + 1)) = .ok ((s.setCore K').retireCmd q) ∧ P m e' K' := by
  induction j with
  | zero =>
    intro k e K hk hP
    obtain ⟨e', K', hrun, hP'⟩ := hstep k e K (by omega) hP
    have h := hat _ _ _ hP
    have h' := hat _ _ _ hP'
    rw [show k + 1 = m by omega] at hP'
    exact ⟨e', K', drive_done h.cmd h.slot (h.view.trans (by rw [State.slot, State.core_setCore]; rfl)) hrun rfl h'.cmd
      (h'.done.trans (decide_eq_true (by omega))), hP'⟩
  | succ j ih =>
    intro k e K hk hP
    obtain ⟨e', K', hrun, hP'⟩ := hstep k e K (by omega) hP
    have h := hat _ _ _ hP
    have h' := hat _ _ _ hP'
    obtain ⟨e'', K'', hrest, hend⟩ := ih (k + 1) e' K' (by omega) hP'
    refine ⟨e'', K'', Eq.trans ?_ hrest, hend⟩
    exact drive_goesOn h.cmd h.slot (h.view.trans (by rw [State.slot, State.core_setCore]; rfl)) hrun rfl h'.cmd
      (h'.done.trans (decide_eq_false (by omega)))
/-- The only command of a queue retires when it is done (R17, R62, R387). -/
theorem retireCmd_ended {s : State} {K : Core} {e : Cmd} {q : Nat} (hK : K.queue = [e]) (he : e.qpos = q) (hd : e.done = true) :
    (s.setCore K).retireCmd q = s.setCore (K.ended e) := by
  rw [retireCmd_single (by rw [State.core_setCore, hK]) he hd, traceCmd_setCore, State.modCore_eq, State.core_setCore, State.setCore_setCore]
  have hdrop : dropFirst (fun c : Cmd => c.qpos == q) [e] = [] := by simp [dropFirst, he]
  unfold Core.ended
  cases e.traces
  · simp only [Bool.false_eq_true, if_false, hK, hdrop]
  · simp only [if_true, Core.traced, hK, hdrop]
/-- AN ENGINE FORM WHOSE COMMAND TAKES m STEPS, in a quiet core: `P` holds before each step, and of the core in which the command retires. -/
theorem engine_steps {t : Ticket} {run : Run1} {s : State} {m : Nat} {P : Nat → Cmd → Core → Prop} (hq : s.Quiet) (hl : t.lens = [])
    (hp : t.push = none) (hw : waitsForNothing t.ins = true) (hr : t.ranges.length ≤ 64) (hpos : 0 < m) (hfuel : m ≤ driveFuel)
    (hat : ∀ k e K, P k e K → AtStep s s.core.qpos m k e K)
    (hstep : ∀ k e K, k < m → P k e K → ∃ e' K', run e (s.setCore K) = .ok (s.setCore K') ∧ P (k + 1) e' K')
    (h0 : P 0 (t.cmd s 0 s.slot.vl) (t.core s 0 s.slot.vl)) :
    ∃ e K, engine t run s = .next (s.setCore (K.ended e)) ∧ P m e K := by
  obtain ⟨e, K, hdrive, hend⟩ := drive_steps hat hstep (driveFuel - m) (m - 1) 0 _ _ (by omega) h0
  have h := hat _ _ _ hend
  rw [show driveFuel - m + (m - 1 + 1) = driveFuel by omega, retireCmd_ended h.queue h.qpos (h.done.trans (decide_eq_true (le_refl m)))] at hdrive
  refine ⟨e, K, ?_, hend⟩
  rw [engine_len hq (.inr ⟨hl, rfl⟩) hp (lenIs_vl s) (fixedRanges_of_waitsForNothing hw) (copyReady_of_waitsForNothing hw) hr, hdrive]
  rfl

/-- The buffers and the handles in the core of a command are those of the state at its commit. -/
theorem ticketCore_kept (t : Ticket) (s : State) (len : BitVec 3) (n : Nat) : (t.core s len n).w = s.core.w ∧ (t.core s len n).a = s.core.a ∧
    (t.core s len n).h = s.core.h := by simp [Ticket.core_eq]

/-! ### One step by a row of the table -/

/-- A row that runs one step of the only command of a core: the core is left as the step leaves it. -/
theorem onCore_step {run : Run1} {p : Cmd → Bool} {s u : State} {cl core : Nat} {c : Cmd} {K : Core} (hu : u = s.at_ cl core false)
    (hqueue : u.core.queue = [c]) (hunder : c.under = true) (hp : p c = true) (hep : c.ep = (u.core.slot c.hi).ep)
    (hrun : run c ({ u with hi := c.hi }.setCore u.core) = .ok ({ u with hi := c.hi }.setCore K)) :
    onCore cl core (fun s => s.stepRunning run p) s = .next (s.setCoreAt cl core K) := by
  subst hu
  have hself : ({ s.at_ cl core false with hi := c.hi } : State).setCore (s.at_ cl core false).core = { s.at_ cl core false with hi := c.hi } :=
    setCore_core (by
      change (s.at_ cl core false).core.queue ≠ []
      rw [hqueue]
      exact List.cons_ne_nil _ _)
  rw [hself] at hrun
  exact onCore_ok (f := fun s => s.stepRunning run p) (t := { { s.at_ cl core false with hi := c.hi }.setCore K with hi := false })
    (stepRunning_single hqueue hunder hp hep hrun)

end Sys2Proof.Machine
end

section
/-! SUPPORT. MTILE (R178 to R180): its k-steps in a quiet core, and MTILE_STEP. -/

namespace Sys2Proof.Machine

/-! ### One k-step (R178, R179) -/

/-- Step k of an MTILE on a tile, with its flags: the outer product of the panels of the step. -/
def tileStep (s : State) (o : OpG8) (vt ga gb : Word) (k : Nat) (t : Tile) : Tile × Nat :=
  outerStep ((mtileF o).fa == 0) false (roundMode vt) (List.range (mtileF o).m) (List.range (mtileF o).n)
    (fun i j => (List.range (outDepth (mtileF o).fa (mtileF o).fb 8)).map (panelTerm s o vt ga gb k i j)) t
/-- How many steps an MTILE takes. -/
def tileSteps (o : OpG8) (gc : Word) : Nat := gc.toNat / outDepth (mtileF o).fa (mtileF o).fb 8
/-- The bytes of the panels of A, and of B. -/
def panelA (o : OpG8) : Nat := panelBytes (mtileF o).m (outDepth (mtileF o).fa (mtileF o).fb 8) (mtileF o).fa
def panelB (o : OpG8) : Nat := panelBytes (mtileF o).n (outDepth (mtileF o).fa (mtileF o).fb 8) (mtileF o).fb
/-- The queue entry after step k of m. -/
def Cmd.stepped (c : Cmd) (m fl : Nat) : Cmd :=
  { c with resume := c.resume + 1, flags := c.flags ||| fl, done := c.done || decide (m ≤ c.resume + 1) }
/-- The core after a step that leaves tile d as `t`. -/
def tileCore (K : Core) (d : Nat) (t : Tile) (e : Cmd) : Core :=
  { K with f := { K.f with a := K.f.a.setIfInBounds d t }, queue := [e] }

section
variable {s t : State} {o : OpG8} {c : Cmd} {K : Core}

/-- What a step reads are the two buffers and the scale registers. -/
theorem panelTerm_congr (hw : t.core.w = s.core.w) (ha : t.core.a = s.core.a) (hk : ∀ n, t.kreg n = s.kreg n) (o : OpG8) (vt ga gb : Word)
    (k i j : Nat) : panelTerm t o vt ga gb k i j = panelTerm s o vt ga gb k i j := by
  have h1 : ∀ a n, t.heldNum 1 a n = s.heldNum 1 a n := fun a n => by simp only [← bufRead_eq, State.bufRead, Core.buf, hw]
  have h2 : ∀ a n, t.heldNum 2 a n = s.heldNum 2 a n := fun a n => by simp only [← bufRead_eq, State.bufRead, Core.buf, ha]
  funext kk
  simp only [panelTerm, h1, h2, hk]
theorem effMtile_eq (hhold : c.resume = 0 → s.core.notHolder 1 c.ga.toNat (tileSteps o c.gc * panelA o) = false ∧
      s.core.notHolder 2 c.gb.toNat (tileSteps o c.gc * panelB o) = false) :
    effMtile o c s =
      (let r := tileStep s o c.vtype c.ga c.gb c.resume (s.areg o.d.toNat)
       let u := ((s.setA o.d.toNat r.1).raise c r.2).modCmd c.qpos (fun e => { e with resume := c.resume + 1 })
       .ok (if tileSteps o c.gc ≤ c.resume + 1 then u.finishCmd c else u)) := by
  unfold effMtile tileStep
  simp only [bits, Nat.shiftRight_eq_div_pow, bufRead_eq]
  by_cases h0 : c.resume = 0
  · obtain ⟨h1, h2⟩ := hhold h0
    unfold tileSteps panelA at h1
    unfold tileSteps panelB at h2
    simp only [h0, State.checkHolder, h1, h2]
    rfl
  · simp only [h0, if_false]
    rfl
/-- One step of the only command of a core. -/
theorem effMtile_step (hK : K.queue = [c]) (hhold : c.resume = 0 → K.notHolder 1 c.ga.toNat (tileSteps o c.gc * panelA o) = false ∧
      K.notHolder 2 c.gb.toNat (tileSteps o c.gc * panelB o) = false)
    {r : Tile × Nat} (hr : r = tileStep (s.setCore K) o c.vtype c.ga c.gb c.resume ((s.setCore K).areg o.d.toNat)) :
    effMtile o c (s.setCore K) = .ok (s.setCore (tileCore K o.d.toNat r.1 (c.stepped (tileSteps o c.gc) r.2))) := by
  rw [effMtile_eq (by rw [State.core_setCore]; exact hhold), ← hr]
  have hset : Leaves s ((s.setCore K).setA o.d.toNat r.1) { K with f := { K.f with a := K.f.a.setIfInBounds o.d.toNat r.1 } } :=
    (Leaves.setCore s K).modCore (fun k => { k with f := { k.f with a := k.f.a.setIfInBounds o.d.toNat r.1 } })
  have hraise := hset.raise (c := c) hK rfl r.2
  have hnext := hraise.modCmd (q := c.qpos) rfl rfl (fun e => { e with resume := c.resume + 1 })
  refine congrArg Except.ok ?_
  by_cases hend : tileSteps o c.gc ≤ c.resume + 1
  · rw [if_pos hend, State.finishCmd, hnext.modCmd_eq rfl rfl, tileCore, Cmd.stepped, decide_eq_true hend, Bool.or_true]
  · rw [if_neg hend, hraise.modCmd_eq rfl rfl, tileCore, Cmd.stepped, decide_eq_false hend, Bool.or_false]

/-- R178: what MTILE's fields may hold. -/
theorem wellFormed_mtile (h : Instr.WellFormed (.mtile o)) :
    o.d.toNat < 4 ∧ (mtileF o).m ≤ 128 ∧ (mtileF o).n ≤ accColumns ((mtileF o).fa == 0) := by
  simp [Instr.WellFormed, Instr.defect, OpG8.defectMtile, immf] at h
  obtain ⟨hd, -, -, -, hn, h64⟩ := h
  have hcols := of_decide_eq_false hn
  refine ⟨hd, ?_, ?_⟩
  · simp only [mtileF, fld, BitVec.extractLsb'_toNat]
    omega
  · simp only [mtileF, fld, BitVec.extractLsb'_toNat, accColumns, beq_iff_eq]
    split
    · next hfa =>
      have := of_decide_eq_false (h64 hfa)
      omega
    · omega

/-- An element after a step (R179). -/
theorem elem_tileStep (hm : (mtileF o).m ≤ 128) (hn : (mtileF o).n ≤ accColumns ((mtileF o).fa == 0)) (vt ga gb : Word) (k : Nat) (T : Tile)
    {i j : Nat} (hi : i < 128) (hj : j < accColumns ((mtileF o).fa == 0)) :
    elem (tileStep s o vt ga gb k T).1 (accWidth ((mtileF o).fa == 0)) (i * accColumns ((mtileF o).fa == 0) + j) =
      if i < (mtileF o).m ∧ j < (mtileF o).n then
        (accumulated ((mtileF o).fa == 0) false vt (elem T (accWidth ((mtileF o).fa == 0)) (i * accColumns ((mtileF o).fa == 0) + j))
          ((List.range (outDepth (mtileF o).fa (mtileF o).fb 8)).map (panelTerm s o vt ga gb k i j))).1
      else elem T (accWidth ((mtileF o).fa == 0)) (i * accColumns ((mtileF o).fa == 0) + j) := by
  have hfit : ∀ c ∈ cellsOf (List.range (mtileF o).m) (List.range (mtileF o).n), accWidth ((mtileF o).fa == 0) *
      (c.1 * accColumns ((mtileF o).fa == 0) + c.2) + accWidth ((mtileF o).fa == 0) ≤ 393216 := by
    intro c hc
    obtain ⟨h1, h2⟩ := mem_cellsOf.mp hc
    exact cell_fits _ ((List.mem_range.mp h1).trans_le hm) ((List.mem_range.mp h2).trans_le hn)
  have hlt : ∀ x ∈ List.range (mtileF o).n, x < accColumns ((mtileF o).fa == 0) := fun x hx => (List.mem_range.mp hx).trans_le hn
  rw [tileStep, outerStep_eq]
  split
  · next hin =>
    have hmem : (i, j) ∈ cellsOf (List.range (mtileF o).m) (List.range (mtileF o).n) :=
      mem_cellsOf.mpr ⟨List.mem_range.mpr hin.1, List.mem_range.mpr hin.2⟩
    refine (elem_cells_mem _ (T, 0) hfit (cells_nodup List.nodup_range List.nodup_range hlt) hmem).trans ?_
    exact Nat.mod_eq_of_lt (accumulated_lt _ _ _ _ _)
  · next hout =>
    refine elem_cells_ne _ (T, 0) _ (cell_fits _ hi hj) (fun c hc hpos => hout ?_)
    obtain ⟨h1, h2⟩ := mem_cellsOf.mp hc
    obtain ⟨rfl, rfl⟩ := cell_inj (hlt _ h2) hj hpos
    exact ⟨List.mem_range.mp h1, List.mem_range.mp h2⟩
end

/-! ### MTILE in a quiet core (R178 to R180) -/

/-- What MTILE enqueues. -/
def mtileTicket (s : State) (o : OpG8) : Ticket :=
  { eng := .mat, ins := .mtile o, ga := s.g o.a, gb := s.g o.b, gc := s.g o.c,
    ranges := [⟨1, (s.g o.a).toNat, (s.g o.a).toNat + tileSteps o (s.g o.c) * panelA o - 1, false⟩,
      ⟨2, (s.g o.b).toNat, (s.g o.b).toNat + tileSteps o (s.g o.c) * panelB o - 1, false⟩],
    rd := [.k (mtileF o).ka, .k (mtileF o).kb, .a o.d.toNat], wr := [.a o.d.toNat] }

/-- Elements of 4 and of 6 bits that fill whole bytes come in the numbers that R178 asks for. -/
theorem panel_even {f n : Nat} (h : n * memBits f % 8 = 0) : (!(f == 8 && n % 2 != 0) && !((f == 6 || f == 7) && n % 4 != 0)) = true := by
  by_cases h8 : f = 8
  · subst h8
    simp only [memBits] at h
    simp; omega
  · by_cases h6 : f = 6 ∨ f = 7
    · have h4 : n % 4 = 0 := by
        rcases h6 with rfl | rfl <;> simp only [memBits] at h <;> omega
      simp [h8, h4]
    · simp only [not_or] at h6
      simp [h8, h6.1, h6.2]
/-- The bytes of all panels. -/
theorem panels_total {k kd r b : Nat} (hkd : k % kd = 0) (h8 : r * kd * b % 8 = 0) (hpos : 0 < kd) : k / kd * (r * kd * b / 8) = k * r * b / 8 := by
  obtain ⟨n, rfl⟩ := Nat.dvd_of_mod_eq_zero hkd
  obtain ⟨m, hm⟩ := Nat.dvd_of_mod_eq_zero h8
  rw [Nat.mul_div_cancel_left _ hpos, hm, Nat.mul_div_cancel_left _ (by decide), show kd * n * r * b = 8 * (n * m) by
    rw [Nat.mul_left_comm 8, ← hm]; ring, Nat.mul_div_cancel_left _ (by decide)]
theorem outDepth_pos (fa fb pln : Nat) : 0 < outDepth fa fb pln := by
  unfold outDepth
  simp only
  split
  · decide
  · split <;> decide

section
variable {s : State} {o : OpG8}

theorem TileReady.panels {k : Nat} (h : TileReady s o k) :
    k / outDepth (mtileF o).fa (mtileF o).fb 8 * panelA o = k * (mtileF o).m * memBits (mtileF o).fa / 8 ∧
      k / outDepth (mtileF o).fa (mtileF o).fb 8 * panelB o = k * (mtileF o).n * memBits (mtileF o).fb / 8 := by
  have hpos := outDepth_pos (mtileF o).fa (mtileF o).fb 8
  exact ⟨panels_total h.depth.2.2 h.bytes.1 hpos, panels_total h.depth.2.2 h.bytes.2 hpos⟩
theorem exec_mtile (h : TileReady s o (s.g o.c).toNat) : exec (.mtile o) s = engine (mtileTicket s o) (effMtile o) s := by
  obtain ⟨hA, hB⟩ := h.panels
  obtain ⟨hunit, hclash, ⟨hone, hmax, hmod⟩, ⟨hsa, hsb⟩, ⟨hba, hbb⟩, ⟨haa, hla, -⟩, ⟨hab, hlb, -⟩⟩ := h
  have h1 : (s.full || (mtileF o).fa != 0) = true := by simpa using hunit
  have h2 : (decide (1 ≤ (s.g o.c).toNat) && decide ((s.g o.c).toNat ≤ 65536) &&
      (s.g o.c).toNat % outDepth (mtileF o).fa (mtileF o).fb 8 == 0) = true := by simp [hone, hmax, hmod]
  have h3 : ((vtBlkA s.slot.vtype == 0 || decide (cdiv (s.g o.c).toNat (2 ^ vtBlkA s.slot.vtype) * (mtileF o).m ≤ 256)) &&
      (vtBlkB s.slot.vtype == 0 || decide (cdiv (s.g o.c).toNat (2 ^ vtBlkB s.slot.vtype) * (mtileF o).n ≤ 256))) = true := by
    simpa using ⟨hsa, hsb⟩
  have h4 := panel_even hba
  have h5 := panel_even hbb
  have h6 : (decide ((s.g o.a).toNat + (s.g o.c).toNat / outDepth (mtileF o).fa (mtileF o).fb 8 * panelA o ≤ 524288) &&
      decide ((s.g o.b).toNat + (s.g o.c).toNat / outDepth (mtileF o).fa (mtileF o).fb 8 * panelB o ≤ 393216)) = true := by
    rw [hA, hB]; simp [hla, hlb]
  have h7 : ((s.g o.a).toNat % 64 == 0 && (s.g o.b).toNat % 64 == 0) = true := by simp [haa, hab]
  unfold panelA at h6
  unfold panelB at h6
  change execMtile o s = _
  unfold execMtile
  simp only [h1, hclash, h2, h3, h4, h5, h6, h7, Bool.not_false, Bool.and_self, need_true]
  rfl

/-- The entry of an MTILE that executes at its commit, before step k. -/
def tileEntry (s : State) (o : OpG8) (k fl : Nat) : Cmd :=
  { (mtileTicket s o).cmd s 0 s.slot.vl with resume := k, flags := fl, done := decide (tileSteps o (s.g o.c) ≤ k) }
theorem tileEntry_stepped {k : Nat} (hk : k < tileSteps o (s.g o.c)) (fl x : Nat) :
    (tileEntry s o k fl).stepped (tileSteps o (s.g o.c)) x = tileEntry s o (k + 1) (fl ||| x) := by
  unfold Cmd.stepped tileEntry
  rw [decide_eq_false (Nat.not_le.mpr hk), Bool.false_or]
/-- The core before step k of an MTILE that executes at its commit, with the entry of the command. -/
def AtTileStep (s : State) (o : OpG8) (k : Nat) (e : Cmd) (K : Core) : Prop :=
  ∃ (g : Files) (fl : Nat), e = tileEntry s o k fl ∧ K = { (mtileTicket s o).core s 0 s.slot.vl with f := g, queue := [e] } ∧
    FilesFrame s.core.f g [] [] [o.d.toNat] [] [] 0 ∧
    ∀ r j, r < 128 → j < accColumns ((mtileF o).fa == 0) →
      elem (g.a[o.d.toNat]?.getD 0) (accWidth ((mtileF o).fa == 0)) (r * accColumns ((mtileF o).fa == 0) + j) =
        if r < (mtileF o).m ∧ j < (mtileF o).n then afterSteps s o r j k
        else elem (s.areg o.d.toNat) (accWidth ((mtileF o).fa == 0)) (r * accColumns ((mtileF o).fa == 0) + j)

theorem AtTileStep.at_ (hfree : s.Free) {k : Nat} {e : Cmd} {K : Core} (h : AtTileStep s o k e K) : AtStep s s.core.qpos (tileSteps o (s.g o.c)) k e K := by
  obtain ⟨g, fl, rfl, rfl, -, -⟩ := h
  refine ⟨rfl, rfl, rfl, ?_, rfl⟩
  change s.slot.ep = (((mtileTicket s o).core s 0 s.slot.vl).slot s.hi).ep
  rw [slot_ticketCore hfree]
  rfl
theorem AtTileStep.next (hwf : Instr.WellFormed (.mtile o)) (h : TileReady s o (s.g o.c).toNat) {k : Nat} {e : Cmd} {K : Core}
    (hk : k < tileSteps o (s.g o.c)) (hK : AtTileStep s o k e K) :
    ∃ e' K', effMtile o e (s.setCore K) = .ok (s.setCore K') ∧ AtTileStep s o (k + 1) e' K' := by
  obtain ⟨hd, hm, hn⟩ := wellFormed_mtile hwf
  obtain ⟨g, fl, he, hK, hframe, helem⟩ := hK
  obtain ⟨hw, ha, hh⟩ := ticketCore_kept (mtileTicket s o) s 0 s.slot.vl
  have hqueue : K.queue = [e] := by rw [hK]
  have hterm : ∀ i j, panelTerm (s.setCore K) o s.slot.vtype (s.g o.a) (s.g o.b) k i j = panelTerm s o s.slot.vtype (s.g o.a) (s.g o.b) k i j := by
    refine fun i j => panelTerm_congr ?_ ?_ (fun n => ?_) _ _ _ _ _ _ _
    · rw [State.core_setCore, hK, hw]
    · rw [State.core_setCore, hK, ha]
    · rw [State.kreg, State.core_setCore, hK, hframe.k n (List.not_mem_nil), State.kreg]
  have hhold : K.notHolder 1 (s.g o.a).toNat (tileSteps o (s.g o.c) * panelA o) = false ∧
      K.notHolder 2 (s.g o.b).toNat (tileSteps o (s.g o.c) * panelB o) = false := by
    rw [tileSteps, h.panels.1, h.panels.2, Core.notHolder, Core.notHolder, hK, hh]
    exact ⟨h.a.2.2, h.b.2.2⟩
  have hvalues : e.vtype = s.slot.vtype ∧ e.ga = s.g o.a ∧ e.gb = s.g o.b ∧ e.gc = s.g o.c ∧ e.resume = k := by
    rw [he]
    exact ⟨rfl, rfl, rfl, rfl, rfl⟩
  obtain ⟨hvt, hga, hgb, hgc, hres⟩ := hvalues
  have hareg : (s.setCore K).areg o.d.toNat = g.a[o.d.toNat]?.getD 0 := by rw [State.areg, State.core_setCore, hK]
  obtain ⟨r, hr⟩ : ∃ r, r = tileStep (s.setCore K) o e.vtype e.ga e.gb e.resume ((s.setCore K).areg o.d.toNat) := ⟨_, rfl⟩
  have hstep := effMtile_step hqueue (by rw [hga, hgb, hgc]; exact fun _ => hhold) hr
  rw [hvt, hga, hgb, hres, hareg] at hr
  rw [hgc, he, tileEntry_stepped hk] at hstep
  refine ⟨_, _, by rw [he]; exact hstep, _, fl ||| r.2, rfl, ?_, hframe.setA r.1 (List.mem_singleton.mpr rfl), fun i j hi hj => ?_⟩
  · rw [hK]
    rfl
  · rw [getD_setIfInBounds _ _ _ _ _ hd, if_pos rfl, hr, elem_tileStep hm hn _ _ _ _ _ hi hj, helem i j hi hj]
    split
    · rw [afterSteps, hterm]
    · rfl
theorem mtile_runs (hq : s.Quiet) (hwf : Instr.WellFormed (.mtile o)) (h : TileReady s o (s.g o.c).toNat) :
    Runs (.mtile o) s (fun t => EngineFrame .mat (.mtile o) [] [] [o.d.toNat] [] [] 0 s t ∧ Advanced s t ∧
      ∀ r j, r < 128 → j < accColumns ((mtileF o).fa == 0) →
        elem (t.areg o.d.toNat) (accWidth ((mtileF o).fa == 0)) (r * accColumns ((mtileF o).fa == 0) + j) =
          if r < (mtileF o).m ∧ j < (mtileF o).n then afterSteps s o r j (tileSteps o (s.g o.c))
          else elem (s.areg o.d.toNat) (accWidth ((mtileF o).fa == 0)) (r * accColumns ((mtileF o).fa == 0) + j)) := by
  obtain ⟨hd, -, -⟩ := wellFormed_mtile hwf
  have hpos : 0 < tileSteps o (s.g o.c) := by
    have hle := Nat.le_of_dvd h.depth.1 (Nat.dvd_of_mod_eq_zero h.depth.2.2)
    exact Nat.div_pos hle (outDepth_pos _ _ _)
  have hfuel : tileSteps o (s.g o.c) ≤ driveFuel := (Nat.div_le_self _ _).trans h.depth.2.1
  have hzero : AtTileStep s o 0 ((mtileTicket s o).cmd s 0 s.slot.vl) ((mtileTicket s o).core s 0 s.slot.vl) := by
    refine ⟨s.core.f, 0, ?_, (mtileTicket s o).core_begun s 0 s.slot.vl, FilesFrame.popF _ 0 _ _ _ _ _, fun r j _ _ => (ite_self _).symm⟩
    unfold tileEntry
    rw [decide_eq_false (Nat.not_le.mpr hpos)]
    rfl
  obtain ⟨e, K, hengine, g, fl, he, hK, hframe, helem⟩ := engine_steps (t := mtileTicket s o) hq rfl rfl rfl (Nat.le_add_left 2 62) hpos hfuel
    (fun _ _ _ => AtTileStep.at_ hq.free) (fun _ _ _ => AtTileStep.next hwf h) hzero
  have hrun := filesRun_ended (t := mtileTicket s o) (len := 0) (n := s.slot.vl) (c := e) g fl 0 hq.free (by rw [he]; rfl) (by rw [he]; rfl)
  have hsame : ({ e with flags := fl, mrs := 0 } : Cmd) = e := by rw [he]; rfl
  rw [hsame, ← hK] at hrun
  refine ⟨_, (exec_mtile h).trans hengine, hrun.frame hframe, hrun.advanced, fun r j hr hj => ?_⟩
  rw [hrun.areg]
  exact helem r j hr hj
end

/-! ### MTILE_STEP (R179) -/

theorem mtileStep_runs {s u : State} {cl core : Nat} {o : OpG8} {c : Cmd} (hu : u = s.at_ cl core false) (hwf : Instr.WellFormed (.mtile o))
    (hqueue : u.core.queue = [c]) (hins : c.ins = .mtile o) (hunder : c.under = true) (hep : c.ep = (u.core.slot c.hi).ep) (hpos : 0 < c.resume)
    (hlt : c.resume < tileSteps o c.gc) :
    Runs (.mtileStep cl core) s (fun t => ∃ (e : Cmd) (a : Vector Tile 4),
      t = s.setCoreAt cl core { u.core with queue := [e], f := { u.core.f with a := a } } ∧
      e = { c with resume := c.resume + 1, flags := e.flags, done := decide (c.resume + 1 = tileSteps o c.gc) } ∧
      (∀ n, n ≠ o.d.toNat → a[n]? = u.core.f.a[n]?) ∧
      ∀ r j, r < 128 → j < accColumns ((mtileF o).fa == 0) →
        elem (a[o.d.toNat]?.getD 0) (accWidth ((mtileF o).fa == 0)) (r * accColumns ((mtileF o).fa == 0) + j) =
          if r < (mtileF o).m ∧ j < (mtileF o).n then
            (accumulated ((mtileF o).fa == 0) false c.vtype
              (elem (u.areg o.d.toNat) (accWidth ((mtileF o).fa == 0)) (r * accColumns ((mtileF o).fa == 0) + j))
              ((List.range (outDepth (mtileF o).fa (mtileF o).fb 8)).map (panelTerm u o c.vtype c.ga c.gb c.resume r j))).1
          else elem (u.areg o.d.toNat) (accWidth ((mtileF o).fa == 0)) (r * accColumns ((mtileF o).fa == 0) + j)) := by
  obtain ⟨hd, hm, hn⟩ := wellFormed_mtile hwf
  have hdone : c.done = false := by
    cases hc : c.done with
    | false => rfl
    | true => simp [Cmd.under, hc] at hunder
  obtain ⟨r, hr⟩ : ∃ r, r = tileStep ({ u with hi := c.hi }.setCore u.core) o c.vtype c.ga c.gb c.resume
    (({ u with hi := c.hi }.setCore u.core).areg o.d.toNat) := ⟨_, rfl⟩
  have hstep := effMtile_step hqueue (fun h => absurd h (Nat.ne_of_gt hpos)) hr
  have hcore : ({ u with hi := c.hi }.setCore u.core).core = u.core := State.core_setCore _ _
  have hrow := onCore_step (p := fun c => match c.ins with | .mtile _ => true | _ => false)
    (run := fun c s => match c.ins with | .mtile o => effMtile o c s | _ => .ok s) hu hqueue hunder (by rw [hins]) hep
    (by simp only [hins]; exact hstep)
  refine ⟨_, hrow, c.stepped (tileSteps o c.gc) r.2, u.core.f.a.setIfInBounds o.d.toNat r.1, rfl, ?_, fun n hn => ?_, fun i j hi hj => ?_⟩
  · have heq : decide (tileSteps o c.gc ≤ c.resume + 1) = decide (c.resume + 1 = tileSteps o c.gc) := decide_eq_decide.mpr (by omega)
    rw [Cmd.stepped, hdone, heq]
    rfl
  · exact Vector.getElem?_setIfInBounds_ne (Ne.symm hn)
  · rw [getD_setIfInBounds _ _ _ _ _ hd, if_pos rfl, hr, elem_tileStep hm hn _ _ _ _ _ hi hj]
    have hterm := panelTerm_congr (s := u) (t := { u with hi := c.hi }.setCore u.core) (by rw [hcore]) (by rw [hcore])
      (fun n => by rw [State.kreg, hcore, State.kreg]) o c.vtype c.ga c.gb c.resume i j
    rw [hterm, State.areg, hcore, State.areg]

/-- Settles O17, from the steps of an MTILE in a quiet core and from the row that runs one of them. -/
theorem mtileAccumulatesItsSteps : Obligations.MtileAccumulatesItsSteps := by
  refine ⟨fun s o hq hwf h => mtile_runs hq hwf h, ?_⟩
  intro s u cl core o c hu hwf hqueue hins hdisp hdone hfaulted hheld hpaused hep hpos hlt _
  have hunder : c.under = true := by simp [Cmd.under, hdisp, hdone, hfaulted, hheld, hpaused]
  exact mtileStep_runs hu hwf hqueue hins hunder hep hpos hlt

end Sys2Proof.Machine
end

section
/-! SUPPORT. Arrays in the A buffer (R181): the bytes of a number written to it, and how long the arrays are that the butterfly unit makes. -/

namespace Sys2Proof.Machine

/-! ### Numbers as bytes (R9, R181) -/

theorem packNat_lt (w : Nat) (xs : List Nat) : packNat w xs < 2 ^ (w * xs.length) := by
  induction xs with
  | nil => exact Nat.one_pos
  | cons x r ih =>
    rw [packNat, List.length_cons, Nat.mul_succ, Nat.add_comm (w * _), Nat.pow_add]
    have hx := Nat.mod_lt x (Nat.two_pow_pos w)
    calc x % 2 ^ w + 2 ^ w * packNat w r < 2 ^ w * (packNat w r + 1) := by rw [Nat.mul_succ]; omega
      _ ≤ 2 ^ w * 2 ^ (w * r.length) := Nat.mul_le_mul_left _ ih
theorem Mem.read_append (m : Mem) (a n k : Nat) : m.read a (n + k) = m.read a n + 256 ^ n * m.read (a + n) k := by
  induction n generalizing a with
  | zero => simp [Mem.read]
  | succ n ih => rw [Nat.succ_add, Mem.read, ih, Mem.read, Nat.pow_succ, Nat.add_right_comm a 1 n, Nat.add_assoc a]; ring

/-- `m'` is `m` but for the n bytes from `base`, which are those of the number x. -/
structure Wrote (base n x : Nat) (m m' : Mem) : Prop where
  wf : m'.wf = true
  read : m'.read base n = x
  out : ∀ a, a < base ∨ base + n ≤ a → m'.get a = m.get a

theorem Wrote.trans {base n x y : Nat} {m m' m'' : Mem} (h : Wrote base n x m m') (k : Wrote base n y m' m'') : Wrote base n y m m'' :=
  ⟨k.wf, k.read, fun a ha => (k.out a ha).trans (h.out a ha)⟩

/-- The bytes of an array with elements of w bits: n of them. -/
def Fits (w n : Nat) (a : List Nat × List Nat) : Prop := w % 8 = 0 ∧ w * a.1.length + 8 * a.2.length = 8 * n
/-- A store with an array written to it. -/
def Mem.putArr (m : Mem) (base w : Nat) (a : List Nat × List Nat) : Mem :=
  (m.write base (packNat w a.1) (a.1.length * w / 8)).write (base + a.1.length * w / 8) (packNat 8 a.2) a.2.length
theorem Mem.putArr_wrote {m : Mem} (hm : m.wf = true) {w n : Nat} {a : List Nat × List Nat} (base : Nat) (h : Fits w n a) :
    Wrote base n (arrayNumber w a) m (m.putArr base w a) := by
  obtain ⟨hw, hn⟩ := h
  have hlen : 8 * (a.1.length * w / 8) = w * a.1.length := by
    rw [Nat.mul_comm w, Nat.mul_div_cancel' ((Nat.dvd_of_mod_eq_zero hw).mul_left _)]
  obtain ⟨k, hk⟩ : ∃ k, k = a.1.length * w / 8 := ⟨_, rfl⟩
  rw [← hk] at hlen
  have hsplit : n = k + a.2.length := by omega
  have h1 := Mem.wf_write hm base (packNat w a.1) k
  unfold Mem.putArr
  rw [← hk]
  refine ⟨Mem.wf_write h1 _ _ _, ?_, fun b hb => ?_⟩
  · have hpow : 256 ^ k = 2 ^ (w * a.1.length) := by rw [← hlen, Nat.pow_mul]
    have hx : packNat w a.1 < 256 ^ k := by rw [hpow]; exact packNat_lt w a.1
    have hy : packNat 8 a.2 < 256 ^ a.2.length := by
      have := packNat_lt 8 a.2
      rwa [Nat.pow_mul] at this
    rw [hsplit, Mem.read_append, Mem.read_write_out h1 _ _ _ _ _ (.inl (le_refl _)), Mem.read_write hm, Mem.read_write h1,
      Nat.mod_eq_of_lt hx, Nat.mod_eq_of_lt hy, hpow]
    rfl
  · rw [Mem.get_write_out h1 _ _ _ _ (by omega), Mem.get_write_out hm _ _ _ _ (by omega)]

/-! ### A command at work on the A buffer -/

theorem popF_w (f : Files) (len : BitVec 3) : (popF f len).w = f.w := by
  obtain ⟨-, -, -, -, hw, -⟩ := popF_v f len
  exact hw
/-- The twiddle table lies in the twiddle registers alone. -/
theorem twEntry_congr {s t : State} (h : t.core.f.w = s.core.f.w) : t.twEntry = s.twEntry := by
  funext k x
  rw [State.twEntry, State.twEntry, State.wreg, State.wreg, h]

/-- A core with an array written to its A buffer. -/
def Core.withArr (K : Core) (base w : Nat) (a : List Nat × List Nat) : Core := { K with a := K.a.putArr base w a }

section
variable (s : State) (B : Core) (c : Cmd) (g : Files) (fl mrs : Nat)

@[simp] theorem working_arr (base n : Nat) : (working s B c g fl mrs).arr base n = B.a.read base n := by
  rw [State.arr, State.bufRead, working_core]
  rfl
theorem working_putArr (base w : Nat) (xs es : List Nat) :
    (working s B c g fl mrs).putArr base w xs es = working s (B.withArr base w (xs, es)) c g fl mrs := by
  unfold State.putArr working
  simp only [bufWrite_eq, State.core_setCore, State.setCore_setCore]
  rfl
theorem working_modCmd {q : Nat} (h : q = c.qpos) (f : Cmd → Cmd) :
    (working s B c g fl mrs).modCmd q f = s.setCore { B with f := g, queue := [f { c with flags := fl, mrs := mrs }] } :=
  (Leaves.setCore s { B with f := g, queue := [{ c with flags := fl, mrs := mrs }] }).modCmd_eq (e := { c with flags := fl, mrs := mrs })
    rfl h.symm f
/-- A command that holds its region may work on it. -/
theorem working_checkHolder {base n : Nat} (h : B.notHolder 2 base n = false) : (working s B c g fl mrs).checkHolder 2 base n = .ok () := by
  have hk : (working s B c g fl mrs).core.notHolder 2 base n = false := by
    rw [working_core]
    exact h
  rw [State.checkHolder, hk]
  rfl
end

/-! ### The lengths of arrays (R181) -/

theorem blkPts_dvd {cpx : Bool} {n : Nat} (h : blkPts cpx ≤ 2 ^ n) : blkPts cpx ∣ 2 ^ n := by
  have hpow : blkPts cpx = 2 ^ (if cpx then 4 else 5) := by cases cpx <;> rfl
  rw [hpow] at h ⊢
  exact pow_dvd_pow 2 ((Nat.pow_le_pow_iff_right (by decide)).mp h)
/-- A BFP16 array: its blocks of 32 components. -/
theorem compN_blocks {cpx : Bool} {n : Nat} (h : blkPts cpx ≤ 2 ^ n) : compN 0xB cpx (2 ^ n) = 32 * (2 ^ n / blkPts cpx) := by
  have hd := Nat.mul_div_cancel' (blkPts_dvd h)
  cases cpx
  · exact hd.symm
  · change 16 * (2 ^ n / 16) = 2 ^ n at hd
    change 2 * 2 ^ n = 32 * (2 ^ n / 16)
    omega
theorem compN_div {cpx : Bool} {n : Nat} (h : blkPts cpx ≤ 2 ^ n) : compN 0xB cpx (2 ^ n) / 32 = 2 ^ n / blkPts cpx := by
  rw [compN_blocks h, Nat.mul_div_cancel_left _ (by decide)]
theorem arrBytes_blocks {cpx : Bool} {n : Nat} (h : blkPts cpx ≤ 2 ^ n) : arrBytes 0xB cpx (2 ^ n) = 65 * (2 ^ n / blkPts cpx) := by
  have hd := Nat.mul_div_cancel' (blkPts_dvd h)
  cases cpx
  · change 32 * (2 ^ n / 32) = 2 ^ n at hd
    change 2 ^ n * 2 + 2 ^ n / 32 = 65 * (2 ^ n / 32)
    omega
  · change 16 * (2 ^ n / 16) = 2 ^ n at hd
    change 2 ^ n * 4 + 2 ^ n / 16 = 65 * (2 ^ n / 16)
    omega
/-- A BFP16 array of blocks of 32 mantissas with an exponent each. -/
theorem fits_blocks {cpx : Bool} {n : Nat} (h : blkPts cpx ≤ 2 ^ n) {α : Type} (f : Nat → α) (ms : α → List Nat) (e : α → Nat)
    (hlen : ∀ b, (ms (f b)).length = 32) : Fits 16 (arrBytes 0xB cpx (2 ^ n))
      (((List.range (compN 0xB cpx (2 ^ n) / 32)).map f).flatMap ms, ((List.range (compN 0xB cpx (2 ^ n) / 32)).map f).map e) := by
  have hsum : (((List.range (compN 0xB cpx (2 ^ n) / 32)).map f).flatMap ms).length = compN 0xB cpx (2 ^ n) / 32 * 32 := by
    rw [List.length_flatMap, List.map_map]
    simp [Function.comp_def, hlen]
  refine ⟨rfl, ?_⟩
  simp only [hsum, List.length_map, List.length_range]
  rw [arrBytes_blocks h, compN_div h]
  omega
theorem length_bfpBlock (e : Option Nat) (ys : List (FV × Nat)) : (bfpBlock e ys).2.1.length = ys.length := by
  unfold bfpBlock
  split
  · exact List.length_map _
  · extract_lets u sh r
    split
    · exact List.length_map _
    · split <;> simp [r]
theorem length_normBlock (e : Nat) (ms : List Int) : (normBlock e ms).2.1.length = ms.length := by
  unfold normBlock
  simp only
  split
  · exact List.length_map _
  · split
    · exact List.length_map _
    · split
      · split <;> simp
      · exact List.length_map _

/-- A pass keeps the length of its array (R186). -/
theorem fits_passedArray (s : State) (vt : Word) (modq : Nat) {q : Pass} (h : q.fmt = 0xB → blkPts (!q.g2) ≤ 2 ^ q.n) (img : Nat) :
    Fits (compW q.fmt) (arrBytes q.fmt (!q.g2) (2 ^ q.n)) (passedArray s vt modq q img) := by
  unfold passedArray
  split
  · next hC =>
    refine ⟨by rw [hC]; rfl, ?_⟩
    simp [Pass.residues, hC, compW, arrBytes, ptBytes]
    omega
  · next hC =>
    split
    · next hB =>
      unfold Pass.blocks
      rw [hB]
      exact fits_blocks (h hB) _ _ _ (fun b => (length_bfpBlock _ _).trans (by simp))
    · next hB =>
      refine ⟨by unfold compW; split <;> rfl, ?_⟩
      simp [Pass.floats, compW, arrBytes, ptBytes, compN, hB, hC]
      cases q.g2 <;> simp <;> split <;> omega
theorem fits_normalisedArray {cpx : Bool} {n : Nat} (h : blkPts cpx ≤ 2 ^ n) (img : Nat) :
    Fits 16 (arrBytes 0xB cpx (2 ^ n)) (normalisedArray cpx n img) :=
  fits_blocks h _ _ _ (fun _ => (length_normBlock _ _).trans (by simp))
theorem fits_permutedArray {fmt : Nat} {cpx : Bool} {n : Nat} (h : fmt = 0xB → blkPts cpx ≤ 2 ^ n) (f : Nat → Nat) (img : Nat) :
    Fits (movedWidth fmt cpx) (arrBytes fmt cpx (2 ^ n)) (permutedArray fmt cpx n f img) := by
  unfold permutedArray movedWidth
  split
  · next hB =>
    rw [hB]
    refine ⟨rfl, ?_⟩
    simp only [List.length_map, List.length_range]
    rw [arrBytes_blocks (h hB), compN_div (h hB), compN_blocks (h hB)]
    omega
  · next hB =>
    refine ⟨Nat.mul_mod_right 8 _, ?_⟩
    simp only [List.length_map, List.length_range, arrBytes, if_neg hB]
    simp
    ring

end Sys2Proof.Machine
end

section
/-! SUPPORT. What the butterfly unit does to an array in the A buffer (R181 to R191): a pass, a permutation and a normalisation, each as an array written. -/

namespace Sys2Proof.Machine

/-! ### Permutations of BFP16 blocks (R189) -/

theorem map_range_blocks {α : Type} (w : Nat) (F : Nat → α) (m : Nat) :
    (List.range (w * m)).map F = (List.range m).flatMap (fun b => (List.range w).map (fun i => F (w * b + i))) := by
  induction m with
  | zero => rfl
  | succ m ih => simp [Nat.mul_succ, List.range_add, List.range_succ, ih, Function.comp_def]
theorem foldl_max_eq_iff {t : Nat} {l : List Nat} : ∀ {a : Nat}, a ≤ t → (∀ x ∈ l, x ≤ t) → (l.foldl max a = t ↔ a = t ∨ t ∈ l) := by
  induction l with
  | nil => simp
  | cons x l ih =>
    intro a ha hl
    have hx := hl x (List.mem_cons_self ..)
    rw [List.foldl_cons, ih (max_le ha hx) (fun y hy => hl y (List.mem_cons_of_mem _ hy)), List.mem_cons]
    constructor
    · rintro (h | h)
      · omega
      · exact .inr (.inr h)
    · rintro (h | h | h)
      · exact .inl (by omega)
      · exact .inl (by omega)
      · exact .inr h
/-- The largest exponent of a block is that of a NaN block where a source lies in one. -/
theorem top_eq_nan {ex : Nat → Nat} (hex : ∀ k, ex k ≤ 255) (l : List Nat) : (l.map ex).foldl max 0 = 255 ↔ l.any (fun k => ex k == 255) = true := by
  rw [foldl_max_eq_iff (Nat.zero_le _) (by simp [hex])]
  simp
theorem shiftedMantissa_eq (m : Int) (k : Nat) :
    (let r := if m = 0 then 0 else (roundUnits 0 (decide (m < 0)) 0 m.natAbs 1 0 (k : Int)).1
     unsgn 16 (if m < 0 then -(r : Int) else r)) = shiftedMantissa m k := by
  unfold shiftedMantissa
  by_cases hneg : m < 0
  · simp [hneg, hneg.ne]
  · by_cases h0 : m = 0 <;> simp [hneg, h0]
/-- One block of a permutation: as the model makes it. -/
def permBlock (ex : Nat → Nat) (mant : Nat → Int) (is : List Nat) : Nat × List Nat :=
  if is.any (fun k => ex k == 255) then (255, is.map (fun _ => 0))
  else
    let e := is.foldl (fun m k => max m (ex k)) 0
    (e, is.map (fun k =>
      let m := mant k
      let r := if m = 0 then 0 else (roundUnits 0 (decide (m < 0)) 0 m.natAbs 1 0 ((e - ex k : Nat) : Int)).1
      unsgn 16 (if m < 0 then -(r : Int) else r)))
theorem permBlock_eq {ex : Nat → Nat} (hex : ∀ k, ex k ≤ 255) (mant : Nat → Int) (is : List Nat) :
    permBlock ex mant is = ((is.map ex).foldl max 0,
      is.map (fun k => if (is.map ex).foldl max 0 = 255 then 0 else shiftedMantissa (mant k) ((is.map ex).foldl max 0 - ex k))) := by
  unfold permBlock
  by_cases h : is.any (fun k => ex k == 255) = true
  · simp only [if_pos h, (top_eq_nan hex is).mpr h, if_true]
  · have hne := mt (top_eq_nan hex is).mp h
    rw [if_neg h]
    simp only [shiftedMantissa_eq, ← List.foldl_map (f := ex) (g := max), if_neg hne]

/-- The largest exponent of the sources of a block. -/
def topOf (ex source : Nat → Nat) (b : Nat) : Nat := ((List.range 32).map (fun i => ex (source (32 * b + i)))).foldl max 0
theorem permBlocks_eq {ex : Nat → Nat} (hex : ∀ k, ex k ≤ 255) (mant : Nat → Int) (source : Nat → Nat) (m : Nat) {bs : List (Nat × List Nat)}
    (hbs : bs = (List.range m).map (fun b => permBlock ex mant ((List.range 32).map (fun i => source (32 * b + i))))) :
    (bs.flatMap (·.2), bs.map (·.1)) =
      ((List.range (32 * m)).map (fun i => if topOf ex source (i / 32) = 255 then 0
        else shiftedMantissa (mant (source i)) (topOf ex source (i / 32) - ex (source i))), (List.range m).map (topOf ex source)) := by
  have hone : bs = (List.range m).map (fun b => (topOf ex source b, (List.range 32).map (fun i =>
      if topOf ex source ((32 * b + i) / 32) = 255 then 0
      else shiftedMantissa (mant (source (32 * b + i))) (topOf ex source ((32 * b + i) / 32) - ex (source (32 * b + i)))))) := by
    rw [hbs]
    refine List.map_congr_left fun b _ => ?_
    rw [permBlock_eq hex, List.map_map, List.map_map]
    refine congrArg (Prod.mk (topOf ex source b)) (List.map_congr_left fun i hi => ?_)
    have hi := List.mem_range.mp hi
    have hdiv : (32 * b + i) / 32 = b := by omega
    simp only [Function.comp_apply, hdiv, topOf, Function.comp_def]
  rw [hone, map_range_blocks, List.flatMap_map, List.map_map]
  simp only [Function.comp_def]

section
variable (s : State) (B : Core) (c : Cmd) (g : Files) (fl mrs : Nat)

/-- A permutation of an array (R188, R189). -/
theorem permute_working {fmt : Nat} {cpx : Bool} {n : Nat} (hblk : fmt = 0xB → blkPts cpx ≤ 2 ^ n) (f : Nat → Nat) (src dst : Nat) :
    (working s B c g fl mrs).permute fmt cpx n f src dst =
      working s (B.withArr dst (movedWidth fmt cpx) (permutedArray fmt cpx n f (B.a.read src (arrBytes fmt cpx (2 ^ n))))) c g fl mrs := by
  unfold State.permute permutedArray movedWidth
  rw [working_arr]
  by_cases hB : fmt = 0xB
  · subst hB
    have hcount : compN 0xB cpx (2 ^ n) = 32 * (compN 0xB cpx (2 ^ n) / 32) := by rw [compN_div (hblk rfl), compN_blocks (hblk rfl)]
    generalize B.a.read src (arrBytes 0xB cpx (2 ^ n)) = img
    generalize compN 0xB cpx (2 ^ n) = cs at hcount ⊢
    have hle : ∀ k, bits img (16 * cs + 8 * (k / 32)) 8 ≤ 255 := fun k => Nat.le_of_lt_succ (Nat.mod_lt _ (by decide))
    have hblocks := permBlocks_eq hle (fun k => sgn 16 (bits img (16 * k) 16)) (fun i => if cpx then 2 * f (i / 2) + i % 2 else f i) (cs / 32) rfl
    rw [← hcount] at hblocks
    rw [if_pos rfl, if_pos rfl, if_pos rfl, working_putArr]
    exact congrArg (fun a => working s (B.withArr dst 16 a) c g fl mrs) hblocks
  · simp only [if_neg hB, working_putArr]
/-- An array normalised in place (R191). -/
theorem normalise_working {c' : Cmd} (hc : c'.qpos = c.qpos) (cpx : Bool) (n base : Nat) :
    ∃ fl', (working s B c g fl mrs).normalise c' cpx n base =
      working s (B.withArr base 16 (normalisedArray cpx n (B.a.read base (arrBytes 0xB cpx (2 ^ n))))) c g fl' mrs := by
  unfold State.normalise
  simp only [working_arr, working_putArr, working_raise _ _ _ _ _ _ hc]
  exact ⟨_, rfl⟩
/-- A pass reads the twiddle registers alone of the state. -/
theorem passedArray_congr {s t : State} (h : t.core.f.w = s.core.f.w) (vt : Word) (modq : Nat) (q : Pass) (img : Nat) :
    passedArray t vt modq q img = passedArray s vt modq q img := by
  rw [passedArray, passedArray, twEntry_congr h]
/-- A pass in place (R186). -/
theorem pass_working {c' : Cmd} (hc : c'.qpos = c.qpos) (hw : g.w = s.core.f.w) (q : Pass) (base : Nat) :
    ∃ fl' mrs', (working s B c g fl mrs).pass c' q base = working s (B.withArr base (compW q.fmt)
      (passedArray s c'.vtype c'.modq q (B.a.read base (arrBytes q.fmt (!q.g2) (2 ^ q.n))))) c g fl' mrs' := by
  have hsame := passedArray_congr (s := s) (t := working s B c g fl mrs) (by rw [working_core]; exact hw) c'.vtype c'.modq q
  simp only [← hsame]
  unfold State.pass passedArray
  rw [working_arr]
  by_cases hC : q.fmt = 0xC
  · simp only [if_pos hC, working_putArr, working_reduced _ _ _ _ _ _ hc]
    rw [hC]
    exact ⟨_, _, rfl⟩
  · by_cases hB : q.fmt = 0xB
    · simp only [if_neg hC, if_pos hB, working_putArr, working_raise _ _ _ _ _ _ hc]
      rw [hB]
      exact ⟨_, _, rfl⟩
    · simp only [if_neg hC, if_neg hB, working_putArr, working_raise _ _ _ _ _ _ hc]
      exact ⟨_, _, rfl⟩
end
end Sys2Proof.Machine
end

section
/-! SUPPORT. The forms that move an array of the A buffer in one step: BPASS in place, BPERM, BFPNORM (R185 to R191). -/

namespace Sys2Proof.Machine

/-! ### What a command on arrays leaves -/

/-- The core in which a command has come so far that the A buffer holds `m`. -/
def Ticket.arrCore (t : Ticket) (s : State) (m : Mem) : Core := { t.core s 0 s.slot.vl with a := m }
/-- What a command of the butterfly unit leaves that has written an array. -/
structure ArrayRun (i : Instr) (base n x : Nat) (fl mrs : Nat) (s u : State) : Prop where
  outside : u = s.setCore u.core
  advanced : Advanced s u
  rfout : u.slot.rfout = s.slot.rfout
  status : u.slot.status = statusWith s.slot.status fl mrs
  frame : MemFrame .bfy i [] [] [] [] 0 s u
  region : RegionWrite base n x s u

/-- A number in a buffer is read from its bytes. -/
theorem heldNum_of_bytes {u : State} {m : Mem} (h : ∀ a, u.held 2 a = m.get a) (base n : Nat) : u.heldNum 2 base n = m.read base n := by
  have hread : (u.setCore { u.core with a := m }).bufRead 2 base n = m.read base n := by
    rw [State.bufRead, State.core_setCore]
    rfl
  rw [← hread, bufRead_eq]
  simp only [State.heldNum, h, held_setCore]
  rfl

theorem held_sameWC (s : State) {K L : Core} (hw : L.w = K.w) (hc : L.c = K.c) (b a : Nat) :
    (s.setCore L).held b a = if b = 2 then L.a.get a else (s.setCore K).held b a := by
  rw [held_setCore, held_setCore]
  split
  · next h => subst h; rfl
  · next h =>
    unfold Core.buf
    split
    · rw [hw]
    · exact absurd rfl h
    · rw [hc]
    · rfl

section
variable {s u : State} {t : Ticket} {m : Mem} {base n x : Nat}

/-- A state that holds the bytes of another but for an array. -/
theorem regionWrite_of (hw : Wrote base n x s.core.a m) (hheld : ∀ b a, u.held b a = if b = 2 then m.get a else s.held b a)
    (hseen : ∀ l, u.seen l = s.seen l) : RegionWrite base n x s u := by
  refine ⟨?_, fun b a hout => ?_, hseen⟩
  · rw [← hw.read]
    exact heldNum_of_bytes (hheld 2) base n
  · rw [hheld]
    split
    · next h2 =>
      subst h2
      exact hw.out a (hout.resolve_left (fun h => h rfl))
    · rfl
/-- A command that has written an array and retires. -/
theorem arrayRun_ended {c : Cmd} {fl mrs : Nat} (hfree : s.Free) (heng : t.eng = .bfy) (hceng : c.eng = t.eng) (hhi : c.hi = s.hi)
    (hw : Wrote base n x s.core.a m) : ArrayRun t.ins base n x fl mrs s (s.setCore (Core.ended
      { t.arrCore s m with f := popF s.core.f 0, queue := [{ c with flags := fl, mrs := mrs }] } { c with flags := fl, mrs := mrs })) := by
  obtain ⟨K, hK⟩ : ∃ K : Core, K = { t.arrCore s m with f := popF s.core.f 0, queue := [{ c with flags := fl, mrs := mrs }] } := ⟨_, rfl⟩
  have hrun := memRun_ended (t := t) (len := 0) (n := s.slot.vl) (g := popF s.core.f 0) (fl := fl) (mrs := mrs) (K := K) hfree hceng hhi
    (by rw [hK]; rfl)
  rw [← hK]
  have hframe := hrun.frame (FilesFrame.popF _ _ [] [] [] [] [])
  rw [heng] at hframe
  obtain ⟨hs, hb⟩ := sameBytes_ticketCore hfree t 0 s.slot.vl
  refine ⟨hrun.outside, hrun.advanced, hrun.rfout, hrun.status, hframe, regionWrite_of hw (fun b a => ?_) (fun l => ?_)⟩
  · rw [hrun.held, ← hb, held_sameWC s (K := t.core s 0 s.slot.vl) (L := K) (by rw [hK]; rfl) (by rw [hK]; rfl), hK]
    rfl
  · rw [← hs]
    exact (hrun.bytes 0 l).trans (seen_congr (by rw [hK]; rfl) (by rw [hK]; rfl))
/-- A FORM THAT WRITES AN ARRAY IN ONE STEP, in a quiet core. -/
theorem engine_array {f : Run1} {fl mrs : Nat} (hq : s.Quiet) (heng : t.eng = .bfy) (hl : t.lens = []) (hp : t.push = none)
    (hw : waitsForNothing t.ins = true) (hr : t.ranges.length ≤ 64) (hm : Wrote base n x s.core.a m)
    (hf : f (t.cmd s 0 s.slot.vl) (working s (t.core s 0 s.slot.vl) (t.cmd s 0 s.slot.vl) (popF s.core.f 0) 0 0) =
      .ok (working s (t.arrCore s m) (t.cmd s 0 s.slot.vl) (popF s.core.f 0) fl mrs)) :
    ∃ u, engine t (whole f) s = .next u ∧ ArrayRun t.ins base n x fl mrs s u := by
  rw [← ticketCore_working] at hf
  exact ⟨_, engine_step hq (.inr ⟨hl, rfl⟩) hp (lenIs_vl s) (fixedRanges_of_waitsForNothing hw) (copyReady_of_waitsForNothing hw) hr hf rfl rfl rfl,
    arrayRun_ended (c := t.cmd s 0 s.slot.vl) hq.free heng rfl rfl hm⟩

end
end Sys2Proof.Machine
end

section
/-! SUPPORT. BPASS in place, BPERM and BFPNORM as instructions (R185 to R191). -/

namespace Sys2Proof.Machine

/-! ### The checks at commit and at execution (R164, R185, R188) -/

section
variable {s : State} {base src dst n : Nat}

theorem Region.checkArr (h : Region s base n) : checkArr s base n = .ok () := by
  unfold Machine.checkArr
  rw [decide_eq_true h.inside, h.aligned]
  rfl
theorem Region.checkTwo (h : Region s src n) (k : Region s dst n) (hover : overlap src n dst n = false) : checkTwo s src dst n = .ok () := by
  unfold Machine.checkTwo
  rw [decide_eq_true h.inside, decide_eq_true k.inside, h.aligned, k.aligned, hover]
  rfl
/-- A command that may work on a region. -/
theorem Region.holds (h : Region s base n) (t : Ticket) (g : Files) (c : Cmd) (fl mrs : Nat) :
    (working s (t.core s 0 s.slot.vl) c g fl mrs).checkHolder 2 base n = .ok () := by
  refine working_checkHolder _ _ _ _ _ _ ?_
  rw [Core.notHolder, (ticketCore_kept t s 0 s.slot.vl).2.2]
  exact h.holder
/-- The bytes of a region as a command reads them. -/
theorem read_ticketCore (s : State) (t : Ticket) (base n : Nat) : (t.core s 0 s.slot.vl).a.read base n = s.heldNum 2 base n := by
  rw [(ticketCore_kept t s 0 s.slot.vl).2.1, ← bufRead_eq]
  rfl
end
theorem withArr_ticketCore {s : State} {t : Ticket} (base w : Nat) (a : List Nat × List Nat) :
    (t.core s 0 s.slot.vl).withArr base w a = t.arrCore s (s.core.a.putArr base w a) := by
  rw [Core.withArr, (ticketCore_kept t s 0 s.slot.vl).2.1]
  rfl

/-! ### BPASS in place (R186) -/

/-- What BPASS enqueues. -/
def bpassTicket (s : State) (o : OpG8) : Ticket :=
  { eng := .bfy, ins := .bpass o, ga := s.g o.a, gb := s.g o.b,
    ranges := [⟨2, (s.g o.a).toNat, (s.g o.a).toNat + arrBytes (bpassOf o (s.g o.b)).fmt (!(bpassOf o (s.g o.b)).g2) (2 ^ (bpassOf o (s.g o.b)).n) - 1,
      !o.imm.getLsbD 14⟩],
    rd := allW ++ (if o.imm.getLsbD 14 then [.s (fld o.imm 15 4)] else []) }

section
variable {s : State} {o : OpG8}

theorem exec_bpass {q : Pass} (hq : q = bpassOf o (s.g o.b)) (hix : s.g o.b &&& 0xFFFF_FC00_FC00_FC00 = 0)
    (hblk : q.fmt = 0xB → blkPts (!q.g2) ≤ 2 ^ q.n) (hreg : Region s (s.g o.a).toNat (arrBytes q.fmt (!q.g2) (2 ^ q.n))) :
    exec (.bpass o) s = engine (bpassTicket s o) (effBpass o) s := by
  subst hq
  have hb : ((bpassOf o (s.g o.b)).fmt != 0xB || decide (blkPts (!(bpassOf o (s.g o.b)).g2) ≤ 2 ^ (bpassOf o (s.g o.b)).n)) = true := by
    simp only [Bool.or_eq_true, bne_iff_ne, decide_eq_true_eq]
    exact (Decidable.not_or_of_imp hblk)
  change execBpass o s = _
  unfold execBpass
  simp only [hix, beq_self_eq_true, hb, hreg.checkArr, need_true]
  rfl
theorem bpass_runs {q : Pass} {n : Nat} (hquiet : s.Quiet) (hout : o.imm.getLsbD 14 = false) (hq : q = bpassOf o (s.g o.b))
    (hix : s.g o.b &&& 0xFFFF_FC00_FC00_FC00 = 0) (hblk : q.fmt = 0xB → blkPts (!q.g2) ≤ 2 ^ q.n)
    (hn : n = arrBytes q.fmt (!q.g2) (2 ^ q.n)) (hreg : Region s (s.g o.a).toNat n) (hwf : s.core.a.wf = true) :
    ∃ u fl mrs, exec (.bpass o) s = .next u ∧ ArrayRun (.bpass o) (s.g o.a).toNat n (arrayNumber (compW q.fmt)
      (passedArray s s.slot.vtype (fld s.core.f.modq 0 32) q (s.heldNum 2 (s.g o.a).toNat n))) fl mrs s u := by
  subst hn
  have hpass := pass_working s ((bpassTicket s o).core s 0 s.slot.vl) ((bpassTicket s o).cmd s 0 s.slot.vl) (popF s.core.f 0) 0 0
    (c' := (bpassTicket s o).cmd s 0 s.slot.vl) rfl (popF_w s.core.f 0) q (s.g o.a).toNat
  rw [withArr_ticketCore, read_ticketCore] at hpass
  obtain ⟨fl, mrs, hpass⟩ := hpass
  have hfits := fits_passedArray s s.slot.vtype (fld s.core.f.modq 0 32) hblk (s.heldNum 2 (s.g o.a).toNat (arrBytes q.fmt (!q.g2) (2 ^ q.n)))
  refine Exists.imp (fun u hu => ⟨fl, mrs, (exec_bpass hq hix hblk hreg).trans hu.1, hu.2⟩) (engine_array (t := bpassTicket s o)
    (fl := fl) (mrs := mrs) hquiet rfl rfl rfl rfl (Nat.le_add_left 1 63) (Mem.putArr_wrote hwf (s.g o.a).toNat hfits) ?_)
  have hpassOf : bpassOf o ((bpassTicket s o).cmd s 0 s.slot.vl).gb = q := hq.symm
  have hholds := hreg.holds (bpassTicket s o) (popF s.core.f 0) ((bpassTicket s o).cmd s 0 s.slot.vl) 0 0
  have hga : ((bpassTicket s o).cmd s 0 s.slot.vl).ga = s.g o.a := rfl
  simp only [hpassOf, hga, hholds, flag, hout]
  exact congrArg Except.ok hpass

/-! ### BPERM (R188, R189) -/

/-- What a BPERM enqueues. -/
def permTicket (s : State) (o : OpG8) (i : Instr) : Ticket :=
  { eng := .bfy, ins := i, ga := s.g o.a, gb := s.g o.b, gc := s.g o.c, ranges := twoRanges (s.g o.a).toNat (s.g o.b).toNat (bpermF o).2.2.2 }
theorem immf_bit (i : BitVec 32) (lo : Nat) : (immf i lo 1 == 1) = i.getLsbD lo := by
  rw [Bool.eq_iff_iff, beq_iff_eq]
  simp [immf, BitVec.extractLsb'_toNat, BitVec.getLsbD, Nat.testBit_eq_decide_div_mod_eq, Nat.shiftRight_eq_div_pow]
theorem blkPts_le {cpx : Bool} {n : Nat} (h : (if cpx then 4 else 5) ≤ n) : blkPts cpx ≤ 2 ^ n := by
  cases cpx
  · exact Nat.pow_le_pow_right (n := 2) (by decide) h
  · exact Nat.pow_le_pow_right (n := 2) (by decide) h
/-- R189: the blocks of a BPERM lie whole in its array. -/
theorem blocks_of_defect {rev : Bool} (h : o.defectBperm rev = none) : (bpermF o).1 = 0xB → blkPts (bpermF o).2.1 ≤ 2 ^ (bpermF o).2.2.1 := by
  intro hB
  change immf o.imm 0 4 = 0xB at hB
  simp [OpG8.defectBperm, hB, immf_bit] at h
  obtain ⟨-, -, -, -, hn⟩ := h
  exact blkPts_le hn
theorem permForm_runs {i : Instr} {f : Nat → Nat} {F : Cmd → Nat → Nat → Nat} {rev : Bool} (hi : waitsForNothing i = true) (hquiet : s.Quiet)
    (hdefect : o.defectBperm rev = none) (hF : F ((permTicket s o i).cmd s 0 s.slot.vl) (bpermF o).2.2.1 = f)
    (hsrc : Region s (s.g o.a).toNat (bpermF o).2.2.2) (hdst : Region s (s.g o.b).toNat (bpermF o).2.2.2)
    (hover : overlap (s.g o.a).toNat (bpermF o).2.2.2 (s.g o.b).toNat (bpermF o).2.2.2 = false) (hwf : s.core.a.wf = true) :
    ∃ u, permForm o i (permEff o F) s = .next u ∧ ArrayRun i (s.g o.b).toNat (bpermF o).2.2.2
      (arrayNumber (movedWidth (bpermF o).1 (bpermF o).2.1)
        (permutedArray (bpermF o).1 (bpermF o).2.1 (bpermF o).2.2.1 f (s.heldNum 2 (s.g o.a).toNat (bpermF o).2.2.2))) 0 0 s u := by
  have hblk := blocks_of_defect hdefect
  have hform : permForm o i (permEff o F) s = engine (permTicket s o i) (permEff o F) s := by
    unfold permForm
    simp only [hsrc.checkTwo hdst hover]
    rfl
  have hperm := permute_working s ((permTicket s o i).core s 0 s.slot.vl) ((permTicket s o i).cmd s 0 s.slot.vl) (popF s.core.f 0) 0 0
    hblk f (s.g o.a).toNat (s.g o.b).toNat
  rw [withArr_ticketCore, read_ticketCore] at hperm
  rw [hform]
  refine engine_array (t := permTicket s o i) (fl := 0) (mrs := 0) hquiet rfl rfl rfl hi (Nat.le_add_left 2 62)
    (Mem.putArr_wrote hwf (s.g o.b).toNat (fits_permutedArray hblk f _)) ?_
  have hheld := hsrc.holds (permTicket s o i) (popF s.core.f 0) ((permTicket s o i).cmd s 0 s.slot.vl) 0 0
  have hheld' := hdst.holds (permTicket s o i) (popF s.core.f 0) ((permTicket s o i).cmd s 0 s.slot.vl) 0 0
  have hga : ((permTicket s o i).cmd s 0 s.slot.vl).ga = s.g o.a := rfl
  have hgb : ((permTicket s o i).cmd s 0 s.slot.vl).gb = s.g o.b := rfl
  simp only [hga, hgb, hheld, hheld', hF]
  exact congrArg Except.ok hperm

/-! ### BFPNORM (R191) -/

/-- What BFPNORM enqueues. -/
def bfpnormTicket (s : State) (o : OpG8) : Ticket :=
  { eng := .bfy, ins := .bfpnorm o, ga := s.g o.a,
    ranges := [⟨2, (s.g o.a).toNat, (s.g o.a).toNat + arrBytes 0xB (o.imm.getLsbD 4) (2 ^ fld o.imm 5 4) - 1, true⟩] }
theorem bfpnorm_runs {cpx : Bool} {n by_ : Nat} (hquiet : s.Quiet) (hcpx : cpx = o.imm.getLsbD 4) (hn : n = fld o.imm 5 4) (hblk : blkPts cpx ≤ 2 ^ n)
    (hby : by_ = arrBytes 0xB cpx (2 ^ n)) (hreg : Region s (s.g o.a).toNat by_) (hwf : s.core.a.wf = true) :
    ∃ u fl mrs, exec (.bfpnorm o) s = .next u ∧ ArrayRun (.bfpnorm o) (s.g o.a).toNat by_
      (arrayNumber 16 (normalisedArray cpx n (s.heldNum 2 (s.g o.a).toNat by_))) fl mrs s u := by
  subst hcpx hn hby
  have hform : exec (.bfpnorm o) s = engine (bfpnormTicket s o) (effBfpnorm o) s := by
    have hb : decide (blkPts (flag o.imm 4) ≤ 2 ^ fld o.imm 5 4) = true := decide_eq_true hblk
    have hc : checkArr s (s.g o.a).toNat (arrBytes 0xB (flag o.imm 4) (2 ^ fld o.imm 5 4)) = .ok () := hreg.checkArr
    change execBfpnorm o s = _
    unfold execBfpnorm
    simp only [hb, hc, need_true]
    rfl
  have hnorm := normalise_working s ((bfpnormTicket s o).core s 0 s.slot.vl) ((bfpnormTicket s o).cmd s 0 s.slot.vl) (popF s.core.f 0) 0 0
    (c' := (bfpnormTicket s o).cmd s 0 s.slot.vl) rfl (o.imm.getLsbD 4) (fld o.imm 5 4) (s.g o.a).toNat
  rw [withArr_ticketCore, read_ticketCore] at hnorm
  obtain ⟨fl, hnorm⟩ := hnorm
  refine Exists.imp (fun u hu => ⟨fl, 0, hform.trans hu.1, hu.2⟩) (engine_array (t := bfpnormTicket s o) (fl := fl) (mrs := 0) hquiet rfl rfl
    rfl rfl (Nat.le_add_left 1 63) (Mem.putArr_wrote hwf (s.g o.a).toNat (fits_normalisedArray hblk _)) ?_)
  have hheld := hreg.holds (bfpnormTicket s o) (popF s.core.f 0) ((bfpnormTicket s o).cmd s 0 s.slot.vl) 0 0
  have hga : ((bfpnormTicket s o).cmd s 0 s.slot.vl).ga = s.g o.a := rfl
  simp only [flag, hga, hheld]
  exact congrArg Except.ok hnorm
end
end Sys2Proof.Machine
end

section
/-! SUPPORT. TXF and TXF_STAGE (R192, R193): the permutation, then one pass for each stage. -/

namespace Sys2Proof.Machine

/-! ### One step of a TXF -/

/-- The pass of stage k (R193). -/
def txfPass (o : OpG8) (k : Nat) : Pass :=
  ⟨(txfF o).1, (txfF o).2.1, false, false, (txfF o).2.2, k - 1, 0, 2 ^ ((txfF o).2.2 - k), 0, o.c.toNat⟩

section
variable {o : OpG8}

/-- R192: what the fields of a TXF may hold. -/
theorem wellFormed_txf (h : Instr.WellFormed (.txf o)) :
    0 < (txfF o).2.2 ∧ (txfF o).2.2 ≤ 11 ∧ ((txfF o).1 = 0xB → blkPts true ≤ 2 ^ (txfF o).2.2) := by
  simp [Instr.WellFormed, Instr.defect, OpG8.defectTxf] at h
  obtain ⟨-, -, -, ⟨⟨hn, hmax⟩, -⟩, hblk⟩ := h
  exact ⟨Nat.pos_of_ne_zero hn, hmax, fun hB => blkPts_le (hblk hB)⟩
theorem bytes_real (fmt N : Nat) : arrBytes fmt (fmt != 0xC) N = arrBytes fmt true N := by
  unfold arrBytes ptBytes
  by_cases hC : fmt = 0xC
  · subst hC; rfl
  · have hne : (fmt != 0xC) = true := by simpa using hC
    rw [hne]
theorem txfBytes_eq (o : OpG8) : txfBytes o = arrBytes (txfF o).1 true (2 ^ (txfF o).2.2) := bytes_real _ _

section
variable (s : State) (B : Core) (c : Cmd) (g : Files) (fl mrs : Nat)

theorem working_resume {q : Nat} (h : q = c.qpos) (k : Nat) : (working s B c g fl mrs).modCmd q (fun e => { e with resume := k }) =
    working s B { c with resume := k } g fl mrs := working_modCmd s B c g fl mrs h _
theorem working_finishCmd {c' : Cmd} (h : c'.qpos = c.qpos) : (working s B c g fl mrs).finishCmd c' = working s B { c with done := true } g fl mrs :=
  working_modCmd s B c g fl mrs h _

/-- Step 0: the permutation, under BFP16 with the normalisation after it. -/
theorem effTxf_zero {s : State} {c : Cmd} (h0 : c.resume = 0) (hsrc : s.checkHolder 2 c.ga.toNat (txfBytes o) = .ok ())
    (hdst : s.checkHolder 2 c.gb.toNat (txfBytes o) = .ok ()) : effTxf o c s =
      (let u := s.permute (txfF o).1 ((txfF o).1 != 0xC) (txfF o).2.2 (bitrev (txfF o).2.2) c.ga.toNat c.gb.toNat
       let v := if (txfF o).1 = 0xB then u.normalise c ((txfF o).1 != 0xC) (txfF o).2.2 c.gb.toNat else u
       .ok (v.modCmd c.qpos (fun e => { e with resume := 1 }))) := by
  unfold effTxf
  simp only [h0, if_true, hsrc, hdst]
  rfl
/-- Step k: the pass of stage k, the last of which ends the command. -/
theorem effTxf_succ {s : State} {c : Cmd} (h0 : c.resume ≠ 0) : effTxf o c s =
      (let u := (s.pass c (txfPass o c.resume) c.gb.toNat).modCmd c.qpos (fun e => { e with resume := c.resume + 1 })
       .ok (if (txfF o).2.2 ≤ c.resume then u.finishCmd c else u)) := by
  unfold effTxf
  simp only [if_neg h0]
  rfl
/-- After the permutation: the normalisation under BFP16, and the next step. -/
theorem txf_normalises {c' : Cmd} {m : Mem} {dst x : Nat} (hwf : Instr.WellFormed (.txf o)) (hc : c'.qpos = c.qpos)
    (h : Wrote dst (txfBytes o) x m B.a) : ∃ fl' m',
      (if (txfF o).1 = 0xB then (working s B c g fl mrs).normalise c' ((txfF o).1 != 0xC) (txfF o).2.2 dst
        else working s B c g fl mrs).modCmd c'.qpos (fun e => { e with resume := 1 }) =
          working s { B with a := m' } { c with resume := 1 } g fl' mrs ∧
      Wrote dst (txfBytes o) (if (txfF o).1 = 0xB then arrayNumber 16 (normalisedArray true (txfF o).2.2 x) else x) m m' := by
  obtain ⟨-, -, hblk⟩ := wellFormed_txf hwf
  by_cases hB : (txfF o).1 = 0xB
  · have hcpx : ((txfF o).1 != 0xC) = true := by rw [hB]; rfl
    have hbytes : arrBytes 0xB true (2 ^ (txfF o).2.2) = txfBytes o := by rw [txfBytes_eq, hB]
    obtain ⟨fl', hnorm⟩ := normalise_working s B c g fl mrs hc true (txfF o).2.2 dst
    have hwrote := Mem.putArr_wrote h.wf dst (fits_normalisedArray (hblk hB) x)
    rw [hbytes] at hwrote
    rw [hbytes, h.read] at hnorm
    rw [if_pos hB, if_pos hB, hcpx, hnorm, working_resume _ _ _ _ _ _ hc]
    exact ⟨fl', _, rfl, h.trans hwrote⟩
  · rw [if_neg hB, if_neg hB, working_resume _ _ _ _ _ _ hc 1]
    exact ⟨fl, _, rfl, h⟩
theorem txf_permutes {c' : Cmd} (hwf : Instr.WellFormed (.txf o)) (hc : c'.qpos = c.qpos) (h0 : c'.resume = 0) (hm : B.a.wf = true)
    (hsrc : B.notHolder 2 c'.ga.toNat (txfBytes o) = false) (hdst : B.notHolder 2 c'.gb.toNat (txfBytes o) = false) :
    ∃ fl' m, effTxf o c' (working s B c g fl mrs) = .ok (working s { B with a := m } { c with resume := 1 } g fl' mrs) ∧
      Wrote c'.gb.toNat (txfBytes o) (stageImage s o c'.vtype c'.modq (B.a.read c'.ga.toNat (txfBytes o)) 0) B.a m := by
  obtain ⟨-, -, hblk⟩ := wellFormed_txf hwf
  have hpts : (txfF o).1 = 0xB → blkPts ((txfF o).1 != 0xC) ≤ 2 ^ (txfF o).2.2 := fun hB => by
    rw [hB]
    exact hblk hB
  have hmoved := Mem.putArr_wrote hm c'.gb.toNat (fits_permutedArray hpts (bitrev (txfF o).2.2) (B.a.read c'.ga.toNat (txfBytes o)))
  obtain ⟨fl', m, hstate, hwrote⟩ := txf_normalises s (B.withArr c'.gb.toNat _ _) c g fl mrs hwf hc hmoved
  rw [effTxf_zero h0 (working_checkHolder s B c g fl mrs hsrc) (working_checkHolder s B c g fl mrs hdst), permute_working s B c g fl mrs hpts]
  exact ⟨fl', m, congrArg Except.ok hstate, hwrote⟩
theorem txf_passes {c' : Cmd} (hc : c'.qpos = c.qpos) (h0 : c'.resume ≠ 0) (hw : g.w = s.core.f.w) :
    ∃ fl' mrs', effTxf o c' (working s B c g fl mrs) = .ok (working s (B.withArr c'.gb.toNat (compW (txfF o).1)
      (passedArray s c'.vtype c'.modq (txfPass o c'.resume) (B.a.read c'.gb.toNat (txfBytes o))))
      { c with resume := c'.resume + 1, done := c.done || decide ((txfF o).2.2 ≤ c'.resume) } g fl' mrs') := by
  obtain ⟨fl', mrs', hpass⟩ := pass_working s B c g fl mrs hc hw (txfPass o c'.resume) c'.gb.toNat
  refine ⟨fl', mrs', ?_⟩
  rw [effTxf_succ h0, hpass, working_resume _ _ _ _ _ _ hc, txfBytes_eq]
  refine congrArg Except.ok ?_
  by_cases hend : (txfF o).2.2 ≤ c'.resume
  · rw [if_pos hend, decide_eq_true hend, Bool.or_true]
    exact working_finishCmd s _ { c with resume := c'.resume + 1 } g fl' mrs' hc
  · rw [if_neg hend, decide_eq_false hend, Bool.or_false]
    rfl
/-- What the pass of a stage leaves in the store. -/
theorem txfPass_wrote {m : Mem} (hwf : Instr.WellFormed (.txf o)) (hm : m.wf = true) (vt : Word) (modq dst k img : Nat) :
    Wrote dst (txfBytes o) (arrayNumber (compW (txfF o).1) (passedArray s vt modq (txfPass o k) img)) m
      (m.putArr dst (compW (txfF o).1) (passedArray s vt modq (txfPass o k) img)) := by
  rw [txfBytes_eq]
  exact Mem.putArr_wrote hm dst (fits_passedArray s vt modq (q := txfPass o k) (wellFormed_txf hwf).2.2 img)
end

/-! ### TXF in a quiet core (R192, R193) -/

/-- What TXF enqueues. -/
def txfTicket (s : State) (o : OpG8) : Ticket :=
  { eng := .bfy, ins := .txf o, ga := s.g o.a, gb := s.g o.b, ranges := twoRanges (s.g o.a).toNat (s.g o.b).toNat (txfBytes o), rd := allW }
/-- The entry of a TXF that executes at its commit, before step k of its permutation and its stages. -/
def txfEntry (s : State) (o : OpG8) (k fl mrs : Nat) : Cmd :=
  { (txfTicket s o).cmd s 0 s.slot.vl with resume := k, flags := fl, mrs := mrs, done := decide ((txfF o).2.2 + 1 ≤ k) }
/-- The image of the source array. -/
def txfSource (s : State) (o : OpG8) : Nat := s.heldNum 2 (s.g o.a).toNat (txfBytes o)
/-- The core before step k of a TXF that executes at its commit, with the entry of the command: the destination holds the array after
the stage before. -/
def AtTxfStage (s : State) (o : OpG8) (k : Nat) (e : Cmd) (K : Core) : Prop :=
  ∃ (m : Mem) (fl mrs : Nat), e = txfEntry s o k fl mrs ∧
    K = { (txfTicket s o).arrCore s m with f := popF s.core.f 0, queue := [e] } ∧
    (k = 0 → m = s.core.a) ∧ ∀ j, k = j + 1 → Wrote (s.g o.b).toNat (txfBytes o)
      (stageImage s o s.slot.vtype (fld s.core.f.modq 0 32) (txfSource s o) j) s.core.a m

section
variable {s : State}

theorem arrCore_same (t : Ticket) (s : State) : t.arrCore s s.core.a = t.core s 0 s.slot.vl := by
  rw [Ticket.arrCore, ← (ticketCore_kept t s 0 s.slot.vl).2.1]
theorem exec_txf (hsrc : Region s (s.g o.a).toNat (txfBytes o)) (hdst : Region s (s.g o.b).toNat (txfBytes o))
    (hover : overlap (s.g o.a).toNat (txfBytes o) (s.g o.b).toNat (txfBytes o) = false) :
    exec (.txf o) s = engine (txfTicket s o) (effTxf o) s := by
  change execTxf o s = _
  unfold execTxf
  simp only [hsrc.checkTwo hdst hover]
  rfl
/-- The entry before the first stage, and before the step after a stage. -/
theorem txfEntry_one (hwf : Instr.WellFormed (.txf o)) (fl mrs fl' mrs' : Nat) :
    ({ txfEntry s o 0 fl mrs with resume := 1, flags := fl', mrs := mrs' } : Cmd) = txfEntry s o 1 fl' mrs' := by
  have hn := (wellFormed_txf hwf).1
  unfold txfEntry
  rw [decide_eq_false (Nat.not_succ_le_zero _), decide_eq_false (by omega : ¬(txfF o).2.2 + 1 ≤ 1)]
theorem txfEntry_next {k : Nat} (hk : k < (txfF o).2.2 + 1) (fl mrs fl' mrs' : Nat) :
    ({ txfEntry s o k fl mrs with resume := k + 1, done := (txfEntry s o k fl mrs).done || decide ((txfF o).2.2 ≤ k), flags := fl', mrs := mrs' } : Cmd) =
      txfEntry s o (k + 1) fl' mrs' := by
  unfold txfEntry
  rw [decide_eq_false (Nat.not_le.mpr hk), Bool.false_or, decide_eq_decide.mpr (Nat.succ_le_succ_iff (a := (txfF o).2.2) (b := k))]
theorem AtTxfStage.at_ (hfree : s.Free) {k : Nat} {e : Cmd} {K : Core} (h : AtTxfStage s o k e K) :
    AtStep s s.core.qpos ((txfF o).2.2 + 1) k e K := by
  obtain ⟨m, fl, mrs, rfl, rfl, -, -⟩ := h
  refine ⟨rfl, rfl, rfl, ?_, rfl⟩
  change s.slot.ep = (((txfTicket s o).core s 0 s.slot.vl).slot s.hi).ep
  rw [slot_ticketCore hfree]
  rfl
theorem AtTxfStage.next (hwf : Instr.WellFormed (.txf o)) (hsrc : Region s (s.g o.a).toNat (txfBytes o))
    (hdst : Region s (s.g o.b).toNat (txfBytes o)) (hm : s.core.a.wf = true) {k : Nat} {e : Cmd} {K : Core}
    (hk : k < (txfF o).2.2 + 1) (h : AtTxfStage s o k e K) :
    ∃ e' K', effTxf o e (s.setCore K) = .ok (s.setCore K') ∧ AtTxfStage s o (k + 1) e' K' := by
  obtain ⟨m, fl, mrs, rfl, rfl, hzero, hsucc⟩ := h
  change ∃ e' K', effTxf o (txfEntry s o k fl mrs) (working s ((txfTicket s o).arrCore s m) (txfEntry s o k fl mrs) (popF s.core.f 0) fl mrs) = _ ∧ _
  cases k with
  | zero =>
    have hholds : ∀ {b : Nat}, Region s b (txfBytes o) → ((txfTicket s o).arrCore s m).notHolder 2 b (txfBytes o) = false := fun hb => by
      rw [Core.notHolder, Ticket.arrCore, (ticketCore_kept (txfTicket s o) s 0 s.slot.vl).2.2]
      exact hb.holder
    have hma := hzero rfl
    obtain ⟨fl', m', hstep, hwrote⟩ := txf_permutes (o := o) s ((txfTicket s o).arrCore s m) (txfEntry s o 0 fl mrs) (popF s.core.f 0) fl mrs
      (c' := txfEntry s o 0 fl mrs) hwf rfl rfl (by rw [hma]; exact hm) (hholds hsrc) (hholds hdst)
    refine ⟨txfEntry s o 1 fl' mrs, _, hstep.trans (congrArg Except.ok ?_), m', fl', mrs, rfl, rfl, fun h => absurd h (by decide), fun j hj => ?_⟩
    · rw [← txfEntry_one hwf fl mrs fl' mrs]
      rfl
    · obtain rfl : j = 0 := by omega
      have hread : m.read (s.g o.a).toNat (txfBytes o) = txfSource s o := by
        rw [hma, txfSource, ← bufRead_eq]
        rfl
      rw [← hread, ← hma]
      exact hwrote
  | succ j =>
    have hbefore := hsucc j rfl
    obtain ⟨fl', mrs', hstep⟩ := txf_passes (o := o) s ((txfTicket s o).arrCore s m) (txfEntry s o (j + 1) fl mrs) (popF s.core.f 0) fl mrs
      (c' := txfEntry s o (j + 1) fl mrs) rfl (Nat.succ_ne_zero j) (popF_w s.core.f 0)
    refine ⟨txfEntry s o (j + 2) fl' mrs', _, hstep.trans (congrArg Except.ok ?_), m.putArr (s.g o.b).toNat (compW (txfF o).1)
      (passedArray s s.slot.vtype (fld s.core.f.modq 0 32) (txfPass o (j + 1)) (m.read (s.g o.b).toNat (txfBytes o))),
      fl', mrs', rfl, rfl, fun h => absurd h (Nat.succ_ne_zero _), fun i hi => ?_⟩
    · rw [← txfEntry_next hk fl mrs fl' mrs']
      rfl
    · obtain rfl : i = j + 1 := by omega
      rw [hbefore.read, stageImage]
      exact hbefore.trans (txfPass_wrote s hwf hbefore.wf s.slot.vtype (fld s.core.f.modq 0 32) (s.g o.b).toNat (j + 1) _)
theorem txf_runs (hquiet : s.Quiet) (hwf : Instr.WellFormed (.txf o)) (hsrc : Region s (s.g o.a).toNat (txfBytes o))
    (hdst : Region s (s.g o.b).toNat (txfBytes o)) (hover : overlap (s.g o.a).toNat (txfBytes o) (s.g o.b).toNat (txfBytes o) = false)
    (hm : s.core.a.wf = true) : ∃ u fl mrs, exec (.txf o) s = .next u ∧ ArrayRun (.txf o) (s.g o.b).toNat (txfBytes o)
      (stageImage s o s.slot.vtype (fld s.core.f.modq 0 32) (txfSource s o) (txfF o).2.2) fl mrs s u := by
  obtain ⟨-, hmax, -⟩ := wellFormed_txf hwf
  have hfuel : (txfF o).2.2 + 1 ≤ driveFuel := (Nat.succ_le_succ hmax).trans (by decide)
  have hzero : AtTxfStage s o 0 ((txfTicket s o).cmd s 0 s.slot.vl) ((txfTicket s o).core s 0 s.slot.vl) := by
    refine ⟨s.core.a, 0, 0, ?_, ?_, fun _ => rfl, fun j hj => absurd hj (Nat.succ_ne_zero j).symm⟩
    · unfold txfEntry
      rw [decide_eq_false (Nat.not_succ_le_zero _)]
      rfl
    · rw [arrCore_same]
      exact (txfTicket s o).core_begun s 0 s.slot.vl
  obtain ⟨e, K, hengine, m, fl, mrs, he, hK, -, hend⟩ := engine_steps (t := txfTicket s o) hquiet rfl rfl rfl (Nat.le_add_left 2 62)
    (Nat.succ_pos _) hfuel (fun _ _ _ => AtTxfStage.at_ hquiet.free) (fun _ _ _ => AtTxfStage.next hwf hsrc hdst hm) hzero
  have hrun := arrayRun_ended (t := txfTicket s o) (c := e) (fl := fl) (mrs := mrs) hquiet.free rfl (by rw [he]; rfl) (by rw [he]; rfl) (hend _ rfl)
  have hsame : ({ e with flags := fl, mrs := mrs } : Cmd) = e := by rw [he]; rfl
  rw [hsame, ← hK] at hrun
  exact ⟨_, fl, mrs, (exec_txf hsrc hdst hover).trans hengine, hrun⟩
end
end

/-! ### TXF_STAGE (R192, R193) -/

theorem setCore_working {u : State} {K : Core} {c : Cmd} (h : K.queue = [c]) : u.setCore K = working u K c K.f c.flags c.mrs := by
  unfold working
  refine congrArg u.setCore ?_
  cases K
  subst h
  rfl
/-- The bytes that a core without its array is left with. -/
theorem regionWrite_setCore {u : State} {K : Core} {base n x : Nat} (hw : Wrote base n x u.core.a K.a) (hK : K = { u.core with queue := K.queue, a := K.a }) :
    RegionWrite base n x u (u.setCore K) := by
  refine regionWrite_of hw (fun b a => ?_) (fun l => ?_)
  · exact (held_sameWC u (K := u.core) (by rw [hK]) (by rw [hK]) b a).trans (by rw [held_setCore]; rfl)
  · refine Eq.trans (seen_congr (L := u.core) (by rw [hK]) ?_) (setCore_core_seen u l)
    rw [hK]
    rfl
theorem txfStage_runs {s u : State} {cl core : Nat} {o : OpG8} {c : Cmd} (hu : u = s.at_ cl core false) (hwf : Instr.WellFormed (.txf o))
    (hqueue : u.core.queue = [c]) (hins : c.ins = .txf o) (hunder : c.under = true) (hdone : c.done = false) (hep : c.ep = (u.core.slot c.hi).ep)
    (hpos : 0 < c.resume) (hle : c.resume ≤ (txfF o).2.2) (hm : u.core.a.wf = true) :
    Runs (.txfStage cl core) s (fun t => ∃ (e : Cmd) (a : Mem),
      t = s.setCoreAt cl core { u.core with queue := [e], a := a } ∧
      e = { c with resume := c.resume + 1, flags := e.flags, mrs := e.mrs, done := decide (c.resume = (txfF o).2.2) } ∧
      RegionWrite c.gb.toNat (txfBytes o) (arrayNumber (compW (txfF o).1) (passedArray u c.vtype c.modq (txfPass o c.resume)
        (u.heldNum 2 c.gb.toNat (txfBytes o)))) u (t.at_ cl core false)) := by
  obtain ⟨v, hv⟩ : ∃ v : State, v = { u with hi := c.hi } := ⟨_, rfl⟩
  have hcore : v.core = u.core := by rw [hv]; rfl
  obtain ⟨fl, mrs, hstep⟩ := txf_passes (o := o) v u.core c u.core.f c.flags c.mrs (c' := c) rfl (Nat.ne_of_gt hpos) (by rw [hcore])
  rw [← setCore_working hqueue] at hstep
  have hrow := onCore_step (p := fun c => match c.ins with | .txf _ => true | _ => false)
    (run := fun c s => match c.ins with | .txf o => effTxf o c s | _ => .ok s) hu hqueue hunder (by rw [hins]) hep
    (by simp only [hins]; rw [← hv]; exact hstep)
  have hread : u.core.a.read c.gb.toNat (txfBytes o) = u.heldNum 2 c.gb.toNat (txfBytes o) := by
    rw [← bufRead_eq]
    rfl
  have hpass := passedArray_congr (s := u) (t := v) (by rw [hcore]) c.vtype c.modq (txfPass o c.resume) (u.core.a.read c.gb.toNat (txfBytes o))
  have hwrote := txfPass_wrote (k := c.resume) u hwf hm c.vtype c.modq c.gb.toNat (u.core.a.read c.gb.toNat (txfBytes o))
  rw [hpass] at hrow
  rw [hread] at hwrote hrow
  have heq : decide ((txfF o).2.2 ≤ c.resume) = decide (c.resume = (txfF o).2.2) := decide_eq_decide.mpr (by omega)
  refine ⟨_, hrow, _, _, rfl, ?_, ?_⟩
  · rw [hdone, Bool.false_or, heq]
  · have hat : ∀ K : Core, (s.setCoreAt cl core K).at_ cl core false = u.setCore K := fun K => by rw [hu]; rfl
    rw [hat]
    exact regionWrite_setCore hwrote rfl

/-- R192, R193. -/
theorem transformsRunTheirStages : TransformsRunTheirStages := by
  constructor
  · intro s o n hquiet hwf hn hsrc hdst hover hm
    subst hn
    obtain ⟨u, fl, mrs, hexec, hrun⟩ := txf_runs hquiet hwf hsrc hdst hover hm
    exact ⟨u, hexec, hrun.outside, hrun.advanced, hrun.rfout, hrun.frame, hrun.region⟩
  · intro s u cl core o c n hu hwf hqueue hins hdisp hdone hfaulted hheld hpaused hep hpos hle hn _ hm
    subst hn
    have hunder : c.under = true := by simp [Cmd.under, hdisp, hdone, hfaulted, hheld, hpaused]
    exact txfStage_runs hu hwf hqueue hins hunder hdone hep hpos hle hm

end Sys2Proof.Machine
end

section
/-! SUPPORT. TWGEN (R190): the entries of a twiddle register, as angles and as powers. -/

namespace Sys2Proof.Machine

/-! ### Powers by squaring (R190) -/

theorem powQ_go_eq {q : Nat} (n : Nat) : ∀ {b e acc : Nat}, e < 2 ^ n → acc < q → powQ.go q n b e acc = acc * b ^ e % q := by
  induction n with
  | zero =>
    intro b e acc he hacc
    obtain rfl : e = 0 := by omega
    rw [powQ.go, Nat.pow_zero, Nat.mul_one, Nat.mod_eq_of_lt hacc]
  | succ n ih =>
    intro b e acc he hacc
    have hacc' : (if e % 2 = 1 then acc * b % q else acc) < q := by
      split
      · exact Nat.mod_lt _ (by omega)
      · exact hacc
    rw [powQ.go, ih (by omega) hacc', Nat.mul_mod, ← Nat.pow_mod, ← Nat.mul_mod, ← Nat.pow_two, ← Nat.pow_mul]
    have hsplit := Nat.div_add_mod e 2
    rcases Nat.mod_two_eq_zero_or_one e with h | h <;> rw [h] at hsplit ⊢
    · rw [if_neg (by decide), show 2 * (e / 2) = e by omega]
    · rw [if_pos rfl, Nat.mod_mul_mod, Nat.mul_assoc, ← Nat.pow_succ', show (2 * (e / 2)).succ = e by omega]
/-- A power by squaring. -/
theorem powQ_eq {q : Nat} (hq : 1 < q) (b : Nat) {e : Nat} (he : e < 2 ^ 64) : powQ q b e = b ^ e % q := by
  rw [powQ, Nat.mod_eq_of_lt hq, powQ_go_eq 64 he hq, Nat.one_mul]
/-- The product of two powers of a reduced base. -/
theorem powQ_mul {q : Nat} (hq : 1 < q) (b : Nat) {i j : Nat} (hi : i < 2 ^ 64) (hj : j < 2 ^ 64) :
    powQ q (b % q) i * powQ q (b % q) j % q = b ^ (i + j) % q := by
  rw [powQ_eq hq _ hi, powQ_eq hq _ hj, ← Nat.mul_mod, ← Nat.pow_add, ← Nat.pow_mod]
/-- A residue and its factor make an entry of 64 bits. -/
theorem residue_entry_lt {q v : Nat} (hq : q < 2 ^ 31) (hv : v < q) : v + 2 ^ 32 * (v * 2 ^ 32 / q) < 2 ^ 64 := by
  have hdiv : v * 2 ^ 32 / q < 2 ^ 32 := Nat.div_lt_of_lt_mul (Nat.mul_lt_mul_of_pos_right hv (by decide))
  omega

/-! ### A twiddle register written -/

@[simp] theorem working_setW (s : State) (B : Core) (c : Cmd) (g : Files) (fl mrs d : Nat) (x : WReg) :
    (working s B c g fl mrs).setW d x = working s B c { g with w := g.w.setIfInBounds d x } fl mrs := modF_setCore _ _ _
theorem FilesFrame.setW {f g : Files} {wv wm wa wk ww : List Nat} {len : BitVec 3} (h : FilesFrame f g wv wm wa wk ww len) {d : Nat} (x : WReg)
    (hd : d ∈ ww) : FilesFrame f { g with w := g.w.setIfInBounds d x } wv wm wa wk ww len :=
  { h with w := fun n hn => (Vector.getElem?_setIfInBounds_ne (ne_of_mem_of_not_mem hd hn)).trans (h.w n hn) }
theorem FilesRun.wreg {e : Engine} {i : Instr} {len : BitVec 3} {g : Files} {fl mrs : Nat} {b u : State} (h : FilesRun e i len g fl mrs b u) (n : Nat) :
    u.wreg n = g.w[n]?.getD 0 := by rw [State.wreg, h.files]
theorem elem_putEntries (w : WReg) (f : Nat → Nat) (n : Nat) {j : Nat} (hj : j < 128) :
    elem (putEntries w f n) 64 j = if j < n then f j % 2 ^ 64 else elem w 64 j := by
  rw [putEntries, elem_mapElems _ _ _ _ _ (by omega)]

/-! ### TWGEN (R190) -/

section
variable {s : State} {o : OpG8}

/-- What a TWGEN enqueues. -/
def twgenTicket (s : State) (o : OpG8) (i : Instr) : Ticket :=
  { eng := .bfy, ins := i, gb := s.g o.b, gc := s.g o.c, wr := [.w o.a.toNat] }
/-- The register files after a TWGEN. -/
def twgenFiles (s : State) (o : OpG8) (f : Nat → Nat) : Files :=
  { popF s.core.f 0 with w := (popF s.core.f 0).w.setIfInBounds o.a.toNat (putEntries (s.wreg o.a.toNat) f (twCount o)) }
/-- R190: the register of a TWGEN. -/
theorem twgen_register {modular : Bool} (h : o.defectTwgen modular = none) : o.a.toNat < 8 := by
  simp [OpG8.defectTwgen] at h
  obtain ⟨-, h, -⟩ := h
  omega
theorem twgen_written {i : Instr} {f : Nat → Nat} {fl mrs : Nat} {u : State} (ha : o.a.toNat < 8)
    (hrun : FilesRun .bfy i 0 (twgenFiles s o f) fl mrs s u) :
    EngineFrame .bfy i [] [] [] [] [o.a.toNat] 0 s u ∧ Advanced s u ∧ ∀ j, j < 128 →
      elem (u.wreg o.a.toNat) 64 j = if j ≤ fld o.imm 8 7 then f j % 2 ^ 64 else elem (s.wreg o.a.toNat) 64 j := by
  refine ⟨hrun.frame ((FilesFrame.popF _ _ _ _ _ _ _).setW _ (List.mem_singleton.mpr rfl)), hrun.advanced, fun j hj => ?_⟩
  rw [hrun.wreg, twgenFiles, getD_setIfInBounds _ _ _ _ _ ha, if_pos rfl, elem_putEntries _ _ _ hj, twCount]
  simp only [Nat.lt_succ_iff]
theorem exec_twgenCplx (hb : s.g o.b ≠ 0) : exec (.twgenCplx o) s = engine (twgenTicket s o (.twgenCplx o)) (effTwgenCplx o) s := by
  have hne : (s.g o.b != 0) = true := bne_iff_ne.mpr hb
  change execTwgenCplx o s = _
  unfold execTwgenCplx
  simp only [hne, need_true]
  rfl
theorem exec_twgenCplx_zero (hb : s.g o.b = 0) : exec (.twgenCplx o) s = .next (s.takeTrap (Trap.opnd 0x04)) := by
  change execTwgenCplx o s = _
  unfold execTwgenCplx
  rw [hb]
  rfl
theorem twgenCplx_runs (hquiet : s.Quiet) (hwf : Instr.WellFormed (.twgenCplx o)) (hb : s.g o.b ≠ 0) :
    Runs (.twgenCplx o) s (fun t => EngineFrame .bfy (.twgenCplx o) [] [] [] [] [o.a.toNat] 0 s t ∧ Advanced s t ∧
      t.slot.status = s.slot.status ∧
      ∀ j, j < 128 → elem (t.wreg o.a.toNat) 64 j =
        if j ≤ fld o.imm 8 7 then
          (trigOf true false ((s.g o.c).toNat + j) (s.g o.b).toNat + 2 ^ 32 * trigOf false true ((s.g o.c).toNat + j) (s.g o.b).toNat) % 2 ^ 64
        else elem (s.wreg o.a.toNat) 64 j) := by
  have hengine : ∃ u, engine (twgenTicket s o (.twgenCplx o)) (effTwgenCplx o) s = .next u ∧ FilesRun .bfy (.twgenCplx o) 0
      (twgenFiles s o (fun j => trigOf true false ((s.g o.c).toNat + j) (s.g o.b).toNat + 2 ^ 32 * trigOf false true ((s.g o.c).toNat + j) (s.g o.b).toNat))
      0 0 s u := by
    refine engine_runs_from (t := twgenTicket s o (.twgenCplx o)) (m := s.slot.vl) (c := (twgenTicket s o (.twgenCplx o)).cmd s 0 s.slot.vl) hquiet
      (.inr ⟨rfl, rfl⟩) rfl (lenIs_vl s) rfl rfl (fun _ => rfl) hquiet.free rfl rfl rfl ?_
    simp only [ticketCore_working, working_setW, working_wreg, popF_wreg]
    rfl
  obtain ⟨u, hu, hrun⟩ := hengine
  obtain ⟨hframe, hadv, helem⟩ := twgen_written (twgen_register hwf) hrun
  exact ⟨u, (exec_twgenCplx hb).trans hu, hframe, hadv, hrun.status_same, helem⟩
/-- Entry j of a TWGEN in residues. -/
def residueEntry (q b t j : Nat) : Nat :=
  powQ q (b % q) t * powQ q (b % q) j % q + 2 ^ 32 * (powQ q (b % q) t * powQ q (b % q) j % q * 2 ^ 32 / q)
theorem twgenMod_runs {q : Nat} (hquiet : s.Quiet) (hwf : Instr.WellFormed (.twgenMod o)) (hq : q = fld s.core.f.modq 0 32) (hlegal : legalModulus q) :
    Runs (.twgenMod o) s (fun t => EngineFrame .bfy (.twgenMod o) [] [] [] [] [o.a.toNat] 0 s t ∧ Advanced s t ∧
      ResidueCount s t (if q ≤ (s.g o.b).toNat then 1 else 0) ∧
      ∀ j, j < 128 → elem (t.wreg o.a.toNat) 64 j =
        if j ≤ fld o.imm 8 7 then (s.g o.b).toNat ^ ((s.g o.c).toNat + j) % q +
          2 ^ 32 * ((s.g o.b).toNat ^ ((s.g o.c).toNat + j) % q * 2 ^ 32 / q)
        else elem (s.wreg o.a.toNat) 64 j) := by
  obtain ⟨-, h3, h31⟩ := hlegal
  obtain ⟨cnt, hcnt⟩ : ∃ cnt, cnt = b2n (decide (q ≤ (s.g o.b).toNat)) := ⟨_, rfl⟩
  have hengine : ∃ u, engine (twgenTicket s o (.twgenMod o)) (effTwgenMod o) s = .next u ∧ FilesRun .bfy (.twgenMod o) 0
      (twgenFiles s o (residueEntry q (s.g o.b).toNat (s.g o.c).toNat)) (if cnt = 0 then 0 else fMOD) cnt s u := by
    refine engine_runs_from (t := twgenTicket s o (.twgenMod o)) (m := s.slot.vl) (c := (twgenTicket s o (.twgenMod o)).cmd s 0 s.slot.vl) hquiet
      (.inr ⟨rfl, rfl⟩) rfl (lenIs_vl s) rfl rfl (fun _ => rfl) hquiet.free rfl rfl rfl ?_
    have hmodq : ((twgenTicket s o (.twgenMod o)).cmd s 0 s.slot.vl).modq = q := hq.symm
    have hgb : ((twgenTicket s o (.twgenMod o)).cmd s 0 s.slot.vl).gb = s.g o.b := rfl
    have hgc : ((twgenTicket s o (.twgenMod o)).cmd s 0 s.slot.vl).gc = s.g o.c := rfl
    simp only [ticketCore_working, working_setW, working_wreg, popF_wreg, hmodq, hgb, hgc, reduceQ_eq, ← hcnt]
    rw [working_reduced _ _ _ _ _ _ rfl, Nat.zero_or, Nat.zero_add]
    rfl
  obtain ⟨u, hu, hrun⟩ := hengine
  obtain ⟨hframe, hadv, helem⟩ := twgen_written (twgen_register hwf) hrun
  have hcount : cnt = if q ≤ (s.g o.b).toNat then 1 else 0 := by
    rw [hcnt, b2n]
    simp only [decide_eq_true_eq]
  refine ⟨u, hu, hframe, hadv, hcount ▸ hrun.residueCount, fun j hj => (helem j hj).trans ?_⟩
  have hv := Nat.mod_lt ((s.g o.b).toNat ^ ((s.g o.c).toNat + j)) (show 0 < q by omega)
  rw [residueEntry, powQ_mul (by omega) _ (s.g o.c).isLt (hj.trans (by decide)), Nat.mod_eq_of_lt (residue_entry_lt h31 hv)]
end

/-! ### The statement -/

/-- R188 to R191. -/
theorem arraysAreMovedAndTwiddlesMade : ArraysAreMovedAndTwiddlesMade := by
  refine ⟨?_, ?_, fun s o hwf => ⟨fun hb => ?_, fun hquiet hb => twgenCplx_runs hquiet hwf hb⟩,
    fun s o q hquiet hwf hq hlegal => twgenMod_runs hquiet hwf hq hlegal⟩
  · intro s i o fmt cpx n by_ f hquiet hwf hF hi hsrc hdst hover hm
    obtain ⟨rfl, rfl, rfl, rfl⟩ : fmt = (bpermF o).1 ∧ cpx = (bpermF o).2.1 ∧ n = (bpermF o).2.2.1 ∧ by_ = (bpermF o).2.2.2 := by
      rw [← hF]
      exact ⟨rfl, rfl, rfl, rfl⟩
    have hruns : ∃ u, exec i s = .next u ∧ ArrayRun i (s.g o.b).toNat (bpermF o).2.2.2
        (arrayNumber (movedWidth (bpermF o).1 (bpermF o).2.1)
          (permutedArray (bpermF o).1 (bpermF o).2.1 (bpermF o).2.2.1 f (s.heldNum 2 (s.g o.a).toNat (bpermF o).2.2.2))) 0 0 s u := by
      rcases hi with ⟨rfl, rfl⟩ | ⟨rfl, rfl⟩
      · exact permForm_runs rfl hquiet (rev := false) hwf rfl hsrc hdst hover hm
      · exact permForm_runs rfl hquiet (rev := true) hwf rfl hsrc hdst hover hm
    obtain ⟨u, hexec, hrun⟩ := hruns
    exact ⟨u, hexec, hrun.outside, hrun.advanced, hrun.rfout, hrun.status.trans (statusWith_zero _), hrun.frame, hrun.region⟩
  · intro s o cpx n by_ hquiet _ hcpx hn hblk hby hreg hm
    obtain ⟨u, fl, mrs, hexec, hrun⟩ := bfpnorm_runs hquiet hcpx hn hblk hby hreg hm
    exact ⟨u, hexec, hrun.outside, hrun.advanced, hrun.rfout, hrun.frame, hrun.region⟩
  · exact traps_of (exec_twgenCplx_zero hb) (by decide) (by decide)

/-- Settles O20, from the runs of BPERM, BFPNORM, TWGEN and TXF in a quiet core, and from the row that runs one stage of a TXF. -/
theorem arraysMoveAndTransform : Obligations.ArraysMoveAndTransform :=
  ⟨arraysAreMovedAndTwiddlesMade, transformsRunTheirStages⟩

end Sys2Proof.Machine
end

section
/-! SUPPORT. BFY (R183, R184): the sums and the differences of two registers of points. -/

namespace Sys2Proof.Machine

section
variable {s : State} {o : OpG8} {n : Nat}

/-! ### The command -/

/-- What BFY enqueues. -/
def bfyTicket (o : OpG8) : Ticket :=
  let vs : List Res := [.v o.a.toNat, .v o.b.toNat]
  let ks : List Res := if fld o.imm 0 4 = 0xB then [.k (fld o.imm 19 4)] else []
  { eng := .bfy, ins := .bfy o, lens := [o.len], rd := .w o.c.toNat :: .m o.msk.toNat :: vs ++ ks, wr := vs ++ ks }
/-- R184: what the fields of a BFY may hold. -/
theorem wellFormed_bfy (h : Instr.WellFormed (.bfy o)) :
    o.a.toNat ≠ o.b.toNat ∧ (fld o.imm 0 4 = 1 ∨ fld o.imm 0 4 = 2 ∨ fld o.imm 0 4 = 3 ∨ fld o.imm 0 4 = 0xB) := by
  simp [Instr.WellFormed, Instr.defect, OpG8.defectBfy] at h
  obtain ⟨-, ⟨⟨hne, -⟩, -⟩, hfmt, -⟩ := h
  refine ⟨fun heq => hne (BitVec.eq_of_toNat_eq heq), ?_⟩
  change ¬fld o.imm 0 4 = 1 → ¬fld o.imm 0 4 = 2 → ¬fld o.imm 0 4 = 3 → fld o.imm 0 4 = 0xB at hfmt
  tauto
theorem bfy_runs {g : Files} {fl : Nat} (hquiet : s.Quiet) (hlen : LenIs s o.len n)
    (hcount : lengthOf s o.len n ≤ if fld o.imm 0 4 = 1 then 64 else 128) (hblocks : fld o.imm 0 4 = 0xB → lengthOf s o.len n % 16 = 0)
    (hf : (if fld o.imm 0 4 = 0xB then bfyBfp o ((bfyTicket o).cmd s o.len n) (s.setCore ((bfyTicket o).core s o.len n)) (lengthOf s o.len n)
      else bfyFloat o ((bfyTicket o).cmd s o.len n) (s.setCore ((bfyTicket o).core s o.len n)) (fld o.imm 0 4) (lengthOf s o.len n)) =
        working s ((bfyTicket o).core s o.len n) ((bfyTicket o).cmd s o.len n) g fl 0) :
    ∃ u, exec (.bfy o) s = .next u ∧ FilesRun .bfy (.bfy o) o.len g fl 0 s u := by
  refine engine_runs_from (t := bfyTicket o) (m := n) (c := (bfyTicket o).cmd s o.len n) hquiet (.inl rfl) rfl hlen rfl rfl (fun _ => rfl) hquiet.free
    rfl rfl rfl ?_
  have hlength : ((bfyTicket o).cmd s o.len n).len o.len (vtVlmax ((bfyTicket o).cmd s o.len n).vtype) = lengthOf s o.len n :=
    len_popped (bfyTicket o) s o.len n (vtSew s.slot.vtype) hlen
  have hb : (fld o.imm 0 4 != 0xB || lengthOf s o.len n % 16 == 0) = true := by
    simp only [Bool.or_eq_true, bne_iff_ne, beq_iff_eq]
    exact Decidable.not_or_of_imp hblocks
  simp only [hlength, decide_eq_true hcount, hb, Bool.and_self, need_true]
  exact congrArg Except.ok hf

/-! ### Floating points (R183, R184) -/

/-- The active components of n points. -/
def pointsMask (s : State) (o : OpG8) (n : Nat) : MReg := maskOf (min 512 (2 * n)) (fun i => flag (s.mreg o.msk.toNat) (i / 2))
/-- A register after a BFY on floating points. -/
def bfyReg (s : State) (o : OpG8) (n : Nat) (bottom : Bool) (v : VReg) : VReg :=
  maskedWrite v (fmtWidth (fld o.imm 0 4)) (pointsMask s o n) (2 * n) (fun e => (bfyComponent s o (fld o.imm 0 4) bottom e).1)
/-- The register files after a BFY on floating points. -/
def bfyFiles (s : State) (o : OpG8) (n : Nat) : Files :=
  { popF s.core.f o.len with
    v := ((popF s.core.f o.len).v.setIfInBounds o.a.toNat (bfyReg s o n false (s.vreg o.a.toNat))).setIfInBounds o.b.toNat
      (bfyReg s o n true (s.vreg o.b.toNat)) }
theorem bfyFloat_working (hne : o.a.toNat ≠ o.b.toNat) (B : Core) (c : Cmd) (hc : c.vtype = s.slot.vtype) (n : Nat) :
    ∃ fl, bfyFloat o c (working s B c (popF s.core.f o.len) 0 0) (fld o.imm 0 4) n = working s B c (bfyFiles s o n) fl 0 := by
  unfold bfyFloat
  simp only [hc, working_vreg, popF_vreg, working_wreg, popF_wreg, working_mreg, popF_mreg, working_putLanes _ _ _ _ _ _ _ _ _ _ _ _ rfl]
  rw [getD_setIfInBounds _ _ _ _ _ o.a.isLt, if_neg hne.symm, popF_vreg]
  exact ⟨_, rfl⟩
theorem elem_bfyReg (hw : vlmax (fmtWidth (fld o.imm 0 4)) ≤ 512) (bottom : Bool) (v : VReg) {e : Nat} (he : e < vlmax (fmtWidth (fld o.imm 0 4))) :
    elem (bfyReg s o n bottom v) (fmtWidth (fld o.imm 0 4)) e =
      if e < 2 * n ∧ (s.mreg o.msk.toNat).getLsbD (e / 2) = true then
        (bfyComponent s o (fld o.imm 0 4) bottom e).1 % 2 ^ fmtWidth (fld o.imm 0 4)
      else elem v (fmtWidth (fld o.imm 0 4)) e := by
  have he512 : e < 512 := he.trans_le hw
  rw [bfyReg, elem_maskedWrite _ _ _ _ _ _ (elem_fits he), pointsMask, flag_maskOf _ _ _ he512]
  by_cases h2 : e < 2 * n
  · simp [h2, he512, flag]
  · simp [h2]
theorem bfy_floats {fmt : Nat} (hquiet : s.Quiet) (hwf : Instr.WellFormed (.bfy o)) (hlen : LenIs s o.len n) (hfmt : fmt = fld o.imm 0 4)
    (hB : fmt ≠ 0xB) (hcount : lengthOf s o.len n ≤ if fmt = 1 then 64 else 128) :
    Runs (.bfy o) s (fun t => EngineFrame .bfy (.bfy o) [o.a.toNat, o.b.toNat] [] [] [] [] o.len s t ∧ Advanced s t ∧
      ∀ e, e < vlmax (fmtWidth fmt) →
        elem (t.vreg o.a.toNat) (fmtWidth fmt) e =
          (if e < 2 * lengthOf s o.len n ∧ (s.mreg o.msk.toNat).getLsbD (e / 2) = true then (bfyComponent s o fmt false e).1 % 2 ^ fmtWidth fmt
           else elem (s.vreg o.a.toNat) (fmtWidth fmt) e) ∧
        elem (t.vreg o.b.toNat) (fmtWidth fmt) e =
          (if e < 2 * lengthOf s o.len n ∧ (s.mreg o.msk.toNat).getLsbD (e / 2) = true then (bfyComponent s o fmt true e).1 % 2 ^ fmtWidth fmt
           else elem (s.vreg o.b.toNat) (fmtWidth fmt) e)) := by
  subst hfmt
  obtain ⟨hne, hformats⟩ := wellFormed_bfy hwf
  have hw : vlmax (fmtWidth (fld o.imm 0 4)) ≤ 512 := by
    rcases hformats with h | h | h | h <;> rw [h] <;> decide
  obtain ⟨fl, hfloat⟩ := bfyFloat_working (s := s) hne ((bfyTicket o).core s o.len n) ((bfyTicket o).cmd s o.len n) rfl (lengthOf s o.len n)
  rw [← ticketCore_working] at hfloat
  obtain ⟨u, hexec, hrun⟩ := bfy_runs hquiet hlen hcount (fun h => absurd h hB) ((if_neg hB).trans hfloat)
  refine ⟨u, hexec, hrun.frame (((FilesFrame.popF _ _ _ _ _ _ _).setV _ (by simp)).setV _ (by simp)), hrun.advanced, fun e he => ⟨?_, ?_⟩⟩
  · rw [hrun.vreg, bfyFiles, getD_setIfInBounds _ _ _ _ _ o.b.isLt, if_neg hne, getD_setIfInBounds _ _ _ _ _ o.a.isLt, if_pos rfl,
      elem_bfyReg hw _ _ he]
  · rw [hrun.vreg, bfyFiles, getD_setIfInBounds _ _ _ _ _ o.b.isLt, if_pos rfl, elem_bfyReg hw _ _ he]
end

end Sys2Proof.Machine
end

section
/-! SUPPORT. BFY on BFP16 points (R27, R28, R184): block after block, with the exponents in the k register. -/

namespace Sys2Proof.Machine

theorem elem_putList {n : Nat} (w : Nat) (l : List Nat) : ∀ (r : BitVec n) (p : Nat) {e : Nat}, w * e + w ≤ n →
    elem (putList r w p l) w e = if p ≤ e ∧ e < p + l.length then l[e - p]?.getD 0 % 2 ^ w else elem r w e := by
  induction l with
  | nil =>
    intro r p e _
    rw [putList, if_neg (fun h => by simp at h; omega)]
  | cons x l ih =>
    intro r p e he
    rw [putList, ih _ _ he, elem_setElem _ _ _ _ _ he, List.length_cons]
    by_cases hx : e = p
    · subst hx
      simp
    · by_cases hin : p ≤ e ∧ e < p + (l.length + 1)
      · rw [if_pos hin, if_pos (by omega), show e - p = e - (p + 1) + 1 by omega, List.getElem?_cons_succ]
      · rw [if_neg hin, if_neg (by omega), if_neg hx]

section
variable {s : State} {o : OpG8} {n : Nat}

theorem length_bfyBlock (s : State) (o : OpG8) (bottom : Bool) (b : Nat) : (bfyBlock s o bottom b).2.1.length = 32 :=
  (length_bfpBlock _ _).trans (by simp)
/-- The register files after the first blocks of a BFY. -/
def blockFiles (s : State) (o : OpG8) : Nat → Files
  | 0 => popF s.core.f o.len
  | b + 1 =>
    let g := blockFiles s o b
    { g with
      v := (g.v.setIfInBounds o.a.toNat (putList (g.v[o.a.toNat]?.getD 0) 16 (32 * b) (bfyBlock s o false b).2.1)).setIfInBounds o.b.toNat
        (putList (g.v[o.b.toNat]?.getD 0) 16 (32 * b) (bfyBlock s o true b).2.1)
      k := g.k.setIfInBounds (fld o.imm 19 4)
        (setElem (setElem (g.k[fld o.imm 19 4]?.getD 0) 8 b (bfyBlock s o false b).1) 8 (8 + b) (bfyBlock s o true b).1) }
theorem blockFiles_frame (s : State) (o : OpG8) (b : Nat) :
    FilesFrame s.core.f (blockFiles s o b) [o.a.toNat, o.b.toNat] [] [] [fld o.imm 19 4] [] o.len := by
  induction b with
  | zero => exact FilesFrame.popF _ _ _ _ _ _ _
  | succ b ih => exact ((ih.setV _ (by simp)).setV _ (by simp)).setK _ (by simp)
/-- What one block of a BFY does. -/
def blockStep (s : State) (o : OpG8) (c : Cmd) (u : State) (b : Nat) : State :=
  let x := bfyBlock s o false b
  let y := bfyBlock s o true b
  let u := u.setV o.a.toNat (putList (u.vreg o.a.toNat) 16 (32 * b) x.2.1)
  let u := u.setV o.b.toNat (putList (u.vreg o.b.toNat) 16 (32 * b) y.2.1)
  (u.setK (fld o.imm 19 4) (setElem (setElem (u.kreg (fld o.imm 19 4)) 8 b x.1) 8 (8 + b) y.1)).raise c (x.2.2 ||| y.2.2)
theorem blockStep_working (hne : o.a.toNat ≠ o.b.toNat) (B : Core) (c : Cmd) (fl b : Nat) :
    ∃ fl', blockStep s o c (working s B c (blockFiles s o b) fl 0) b = working s B c (blockFiles s o (b + 1)) fl' 0 := by
  unfold blockStep
  simp only [working_setV, working_vreg, working_setK, working_kreg, working_raise _ _ _ _ _ _ rfl]
  rw [getD_setIfInBounds _ _ _ _ _ o.a.isLt, if_neg hne.symm]
  exact ⟨_, rfl⟩
theorem blocks_working (hne : o.a.toNat ≠ o.b.toNat) (B : Core) (c : Cmd) (n : Nat) :
    ∃ fl, (List.range n).foldl (blockStep s o c) (working s B c (popF s.core.f o.len) 0 0) = working s B c (blockFiles s o n) fl 0 := by
  induction n with
  | zero => exact ⟨0, rfl⟩
  | succ n ih =>
    obtain ⟨fl, ih⟩ := ih
    rw [List.range_succ, List.foldl_append, ih, List.foldl_cons, List.foldl_nil]
    exact blockStep_working hne B c fl n
theorem bfyBfp_working (hne : o.a.toNat ≠ o.b.toNat) (B : Core) (c : Cmd) (n : Nat) :
    ∃ fl, bfyBfp o c (working s B c (popF s.core.f o.len) 0 0) n = working s B c (blockFiles s o (n / 16)) fl 0 := by
  have hloop : bfyBfp o c (working s B c (popF s.core.f o.len) 0 0) n =
      (List.range (n / 16)).foldl (blockStep s o c) (working s B c (popF s.core.f o.len) 0 0) := by
    unfold bfyBfp
    simp only [working_vreg, popF_vreg, working_kreg, popF_kreg, working_wreg, popF_wreg]
    rfl
  rw [hloop]
  exact blocks_working hne B c (n / 16)

/-- The points of the first blocks, in either register. -/
theorem blockFiles_points (hne : o.a.toNat ≠ o.b.toNat) (m : Nat) {e : Nat} (he : e < 256) (hm : m ≤ 8) :
    elem ((blockFiles s o m).v[o.a.toNat]?.getD 0) 16 e =
      (if e < 32 * m then (bfyBlock s o false (e / 32)).2.1[e % 32]?.getD 0 % 65536 else elem (s.vreg o.a.toNat) 16 e) ∧
    elem ((blockFiles s o m).v[o.b.toNat]?.getD 0) 16 e =
      (if e < 32 * m then (bfyBlock s o true (e / 32)).2.1[e % 32]?.getD 0 % 65536 else elem (s.vreg o.b.toNat) 16 e) := by
  induction m with
  | zero => simp only [Nat.mul_zero, Nat.not_lt_zero, if_false, blockFiles, popF_vreg, and_self]
  | succ m ih =>
    obtain ⟨iha, ihb⟩ := ih (by omega)
    have hblock : ∀ bottom (r r0 : VReg), elem r 16 e =
          (if e < 32 * m then (bfyBlock s o bottom (e / 32)).2.1[e % 32]?.getD 0 % 65536 else elem r0 16 e) →
        elem (putList r 16 (32 * m) (bfyBlock s o bottom m).2.1) 16 e =
          if e < 32 * (m + 1) then (bfyBlock s o bottom (e / 32)).2.1[e % 32]?.getD 0 % 65536 else elem r0 16 e := by
      intro bottom r r0 h
      rw [elem_putList _ _ _ _ (by omega), length_bfyBlock, h, show 2 ^ 16 = 65536 by decide]
      by_cases hin : 32 * m ≤ e ∧ e < 32 * m + 32
      · rw [if_pos hin, if_pos (by omega), show e / 32 = m by omega, show e % 32 = e - 32 * m by omega]
      · rw [if_neg hin]
        by_cases hlt : e < 32 * m
        · rw [if_pos hlt, if_pos (by omega)]
        · rw [if_neg hlt, if_neg (by omega)]
    unfold blockFiles
    constructor
    · rw [getD_setIfInBounds _ _ _ _ _ o.b.isLt, if_neg hne, getD_setIfInBounds _ _ _ _ _ o.a.isLt, if_pos rfl]
      exact hblock _ _ _ iha
    · rw [getD_setIfInBounds _ _ _ _ _ o.b.isLt, if_pos rfl]
      exact hblock _ _ _ ihb
/-- The exponents of the first blocks. -/
theorem blockFiles_exponents (m : Nat) {b : Nat} (hb : b < 256) (hm : m ≤ 8) :
    elem ((blockFiles s o m).k[fld o.imm 19 4]?.getD 0) 8 b =
      (if b < m then (bfyBlock s o false b).1 % 256
       else if 8 ≤ b ∧ b < 8 + m then (bfyBlock s o true (b - 8)).1 % 256
       else elem (s.kreg (fld o.imm 19 4)) 8 b) := by
  induction m with
  | zero =>
    rw [if_neg (Nat.not_lt_zero b), if_neg (by omega), blockFiles, popF_kreg]
  | succ m ih =>
    unfold blockFiles
    rw [getD_setIfInBounds _ _ _ _ _ (fld_lt o.imm 19 4), if_pos rfl, elem_setElem _ _ _ _ _ (by omega), elem_setElem _ _ _ _ _ (by omega), ih (by omega),
      show 2 ^ 8 = 256 by decide]
    by_cases htop : b = m
    · subst htop
      rw [if_neg (by omega), if_pos rfl, if_pos (by omega)]
    · by_cases hbottom : b = 8 + m
      · rw [if_pos hbottom, if_neg (by omega), if_pos (by omega), show b - 8 = m by omega]
      · rw [if_neg hbottom, if_neg htop]
        by_cases h1 : b < m
        · rw [if_pos h1, if_pos (by omega)]
        · by_cases h2 : 8 ≤ b ∧ b < 8 + m
          · rw [if_neg h1, if_pos h2, if_neg (by omega), if_pos (by omega)]
          · rw [if_neg h1, if_neg h2, if_neg (by omega), if_neg (by omega)]
theorem bfy_blocks (hquiet : s.Quiet) (hwf : Instr.WellFormed (.bfy o)) (hlen : LenIs s o.len n) (hB : fld o.imm 0 4 = 0xB)
    (hcount : lengthOf s o.len n ≤ 128) (h16 : lengthOf s o.len n % 16 = 0) :
    Runs (.bfy o) s (fun t =>
      EngineFrame .bfy (.bfy o) [o.a.toNat, o.b.toNat] [] [] [fld o.imm 19 4] [] o.len s t ∧ Advanced s t ∧
      (∀ e, e < 256 →
        elem (t.vreg o.a.toNat) 16 e = (if e < 2 * lengthOf s o.len n then (bfyBlock s o false (e / 32)).2.1[e % 32]?.getD 0 % 65536
          else elem (s.vreg o.a.toNat) 16 e) ∧
        elem (t.vreg o.b.toNat) 16 e = (if e < 2 * lengthOf s o.len n then (bfyBlock s o true (e / 32)).2.1[e % 32]?.getD 0 % 65536
          else elem (s.vreg o.b.toNat) 16 e)) ∧
      ∀ b, b < 256 → elem (t.kreg (fld o.imm 19 4)) 8 b =
        (if b < lengthOf s o.len n / 16 then (bfyBlock s o false b).1 % 256
         else if 8 ≤ b ∧ b < 8 + lengthOf s o.len n / 16 then (bfyBlock s o true (b - 8)).1 % 256
         else elem (s.kreg (fld o.imm 19 4)) 8 b)) := by
  obtain ⟨hne, -⟩ := wellFormed_bfy hwf
  obtain ⟨fl, hbfp⟩ := bfyBfp_working (s := s) hne ((bfyTicket o).core s o.len n) ((bfyTicket o).cmd s o.len n) (lengthOf s o.len n)
  rw [← ticketCore_working] at hbfp
  obtain ⟨u, hexec, hrun⟩ := bfy_runs hquiet hlen (by rw [hB]; exact hcount) (fun _ => h16) ((if_pos hB).trans hbfp)
  have hm : lengthOf s o.len n / 16 ≤ 8 := by omega
  have hpoints : 2 * lengthOf s o.len n = 32 * (lengthOf s o.len n / 16) := by omega
  refine ⟨u, hexec, hrun.frame (blockFiles_frame s o _), hrun.advanced, fun e he => ?_, fun b hb => ?_⟩
  · rw [hrun.vreg, hrun.vreg, hpoints]
    exact blockFiles_points hne _ he hm
  · rw [hrun.kreg]
    exact blockFiles_exponents _ hb hm

/-- R183, R184. -/
theorem butterfliesOnRegisters : ButterfliesOnRegisters :=
  ⟨fun _ _ _ _ hquiet hwf hlen hfmt hB hcount => bfy_floats hquiet hwf hlen hfmt hB hcount,
    fun _ _ _ hquiet hwf hlen hB hcount h16 => bfy_blocks hquiet hwf hlen hB hcount h16⟩
end

end Sys2Proof.Machine
end

section
/-! SUPPORT. BPASS to a port (R165, R187): the tokens of a pass, sent to a FIFO that holds nothing. -/

namespace Sys2Proof.Machine

/-! ### Tokens sent by the butterfly unit (R165, R187) -/

theorem port_pushPort {u : State} {p : Nat} (hp : p < 16) (x : Token) :
    (u.pushPort p x).port p = { u.port p with fifo := fifoPush u.coreId x (u.port p).fifo } := by
  rw [((Leaves.refl u).pushPort p x).port, Streams.push, Streams.at_, getD_setIfInBounds _ _ _ _ _ hp, if_pos rfl]
  rfl
/-- A FIFO with room for all of them takes all tokens. -/
theorem sendTokens_all {c : Cmd} {p : Nat} (hp : p < 16) (ts : List Token) : ∀ {u : State} (k : Nat) {m : Nat}, (u.port p).kind = 7 →
    Packed m (u.port p).fifo → m + ts.length ≤ 128 → sendTokens c p k ts u = .ok (sentTo u p ts) := by
  induction ts with
  | nil =>
    intros
    rfl
  | cons x ts ih =>
    intro u k m hkind hpacked hlen
    rw [List.length_cons] at hlen
    have hroom : u.engineRoom 7 p = true := by
      rw [State.engineRoom, State.portRoom, fifoRoom_packed hpacked (by omega), decide_eq_true (by omega), Bool.or_true]
    have hport := port_pushPort (u := u) hp x
    rw [sendTokens, if_pos hroom, State.enginePush, if_pos hkind]
    exact ih (k + 1) (by rw [hport]; exact hkind) (by rw [hport]; exact packed_push _ x hpacked) (by omega)

/-! ### A state in which the streams alone differ -/

section
variable {s : State} {t : Ticket}

/-- The core of a command of the butterfly unit. -/
theorem bfyCore_eq (heng : t.eng = .bfy) (s : State) (m : Nat) : t.core s 0 m =
    ({ s.core with f := popF s.core.f 0, queue := [t.cmd s 0 m], qpos := (s.core.qpos + 1) % 65536 } : Core).setSlot s.hi s.retire.slot := by
  have hst : s.beginVec t.eng t.ins = s := by
    rw [State.beginVec, heng]
    exact if_neg (by decide)
  rw [Ticket.core_eq, hst]
/-- A command at work that has sent tokens, over the state to which they were sent. -/
theorem sentTo_working (hfree : s.Free) (heng : t.eng = .bfy) (p : Nat) (ts : List Token) (c : Cmd) (fl : Nat) :
    sentTo (working s (t.core s 0 s.slot.vl) c (popF s.core.f 0) fl 0) p ts =
      working (sentTo s p ts) (t.core (sentTo s p ts) 0 s.slot.vl) c (popF s.core.f 0) fl 0 := by
  have hbase := (Leaves.refl s).sentTo p ts
  have hwork := (Leaves.setCore s { t.core s 0 s.slot.vl with f := popF s.core.f 0, queue := [{ c with flags := fl, mrs := 0 }] }).sentTo p ts
  generalize hb : sentTo s p ts = b at hbase
  have hslot : b.slot = s.slot := hbase.slot
  obtain ⟨-, -, hhi, -⟩ := hbase.place
  have hself := setCore_core (s := sentTo (working s (t.core s 0 s.slot.vl) c (popF s.core.f 0) fl 0) p ts) (by
    rw [working, hwork.core]
    exact List.cons_ne_nil _ _)
  rw [← hself, working, hwork.core, hwork.same, working, hbase.same]
  refine congrArg s.setCore ?_
  rw [bfyCore_eq heng, bfyCore_eq heng, State.slot_retire hfree, State.slot_retire (by rw [hslot]; exact hfree), hslot, hhi, hbase.core]
  cases s.hi <;> rfl
end

/-! ### BPASS to a port -/

section
variable {s : State} {o : OpG8}

/-- R185: a pass to a port is one of floating points. -/
theorem bpass_toPort (hwf : Instr.WellFormed (.bpass o)) (hout : o.imm.getLsbD 14 = true) : fld o.imm 0 4 ≠ 0xB ∧ fld o.imm 0 4 ≠ 0xC := by
  simp [Instr.WellFormed, Instr.defect, OpG8.defectBpass, immf_bit, hout] at hwf
  obtain ⟨-, -, -, -, -, -, -, hfmt⟩ := hwf
  change ¬fld o.imm 0 4 = 1 → ¬fld o.imm 0 4 = 2 → fld o.imm 0 4 = 3 at hfmt
  omega
/-- The components of a floating pass. -/
theorem passedArray_floats {q : Pass} (hB : q.fmt ≠ 0xB) (hC : q.fmt ≠ 0xC) (s : State) (vt : Word) (modq img : Nat) :
    (passedArray s vt modq q img).1 = (q.floats (roundMode vt) (s.twEntry q.c) img).map (·.1) := by
  rw [passedArray, if_neg hC, if_neg hB]
theorem working_port (s : State) (B : Core) (c : Cmd) (g : Files) (fl mrs p : Nat) : (working s B c g fl mrs).port p = B.st.at_ p :=
  (Leaves.setCore s { B with f := g, queue := [{ c with flags := fl, mrs := mrs }] }).port p
theorem working_bound (s : State) (B : Core) (c : Cmd) (g : Files) (fl mrs : Nat) {q : Nat} (h : q = c.qpos) (r : Nat) :
    (working s B c g fl mrs).modCmd q (fun e => { e with prog := [r] }) = working s B { c with prog := [r] } g fl mrs :=
  working_modCmd s B c g fl mrs h _
/-- A port in the core of a command of the butterfly unit. -/
theorem port_bfyCore {t : Ticket} (heng : t.eng = .bfy) (s : State) (m p : Nat) : (t.core s 0 m).st.at_ p = s.port p := by
  rw [bfyCore_eq heng, Core.setSlot_st]
  rfl
/-- The entry of a BPASS that has found its port. -/
def bpassBound (s : State) (o : OpG8) : Cmd :=
  { (bpassTicket s o).cmd s 0 s.slot.vl with prog := [(s.port (fld o.imm 15 4)).rank] }
/-- A BPASS at work that has found its port and collected flags. -/
def bpassOut (s : State) (o : OpG8) (fl : Nat) : State :=
  working s ((bpassTicket s o).core s 0 s.slot.vl) (bpassBound s o) (popF s.core.f 0) fl 0

theorem bpassOut_bind (s : State) (o : OpG8) :
    (working s ((bpassTicket s o).core s 0 s.slot.vl) ((bpassTicket s o).cmd s 0 s.slot.vl) (popF s.core.f 0) 0 0).modCmd
      ((bpassTicket s o).cmd s 0 s.slot.vl).qpos (fun e => { e with prog := [(s.port (fld o.imm 15 4)).rank] }) = bpassOut s o 0 :=
  working_bound _ _ _ _ _ _ rfl _
theorem bpassOut_raise (s : State) (o : OpG8) (fl : Nat) : (bpassOut s o 0).raise ((bpassTicket s o).cmd s 0 s.slot.vl) fl = bpassOut s o fl := by
  have hqpos : ((bpassTicket s o).cmd s 0 s.slot.vl).qpos = (bpassBound s o).qpos := rfl
  rw [bpassOut, working_raise _ _ _ _ _ _ hqpos, Nat.zero_or, bpassOut]
theorem bpassOut_twEntry (s : State) (o : OpG8) : (bpassOut s o 0).twEntry = s.twEntry :=
  twEntry_congr (by rw [bpassOut, working_core]; exact popF_w s.core.f 0)
theorem bpassOut_arr (s : State) (o : OpG8) (base n : Nat) : (bpassOut s o 0).arr base n = s.heldNum 2 base n := by
  rw [bpassOut, working_arr, read_ticketCore]
/-- The tokens leave over the state to which they are sent. -/
theorem bpassOut_sends (hfree : s.Free) {p : Nat} (hp : p = fld o.imm 15 4) (hkind : (s.port p).kind = 7) (hfifo : (s.port p).fifo = [])
    {ts : List Token} (hlen : ts.length ≤ 128) (fl : Nat) : sendTokens ((bpassTicket s o).cmd s 0 s.slot.vl) p 0 ts (bpassOut s o fl) =
      .ok (working (sentTo s p ts) ((bpassTicket s o).core (sentTo s p ts) 0 s.slot.vl) (bpassBound s o) (popF s.core.f 0) fl 0) := by
  have hport : (bpassOut s o fl).port p = s.port p := by rw [bpassOut, working_port, port_bfyCore rfl]
  rw [← sentTo_working hfree rfl]
  refine sendTokens_all (by rw [hp]; exact fld_lt o.imm 15 4) ts 0 (m := 0) (by rw [hport]; exact hkind) ?_ (by omega)
  rw [hport, hfifo]
  exact .inl ⟨rfl, rfl⟩
theorem bpassOut_runs {q : Pass} {n p : Nat} {ts : List Token} (hquiet : s.Quiet) (hout : o.imm.getLsbD 14 = true)
    (hq : q = bpassOf o (s.g o.b)) (hix : s.g o.b &&& 0xFFFF_FC00_FC00_FC00 = 0) (hB : q.fmt ≠ 0xB) (hC : q.fmt ≠ 0xC)
    (hn : n = arrBytes q.fmt (!q.g2) (2 ^ q.n)) (hreg : Region s (s.g o.a).toNat n)
    (hp : p = fld o.imm 15 4) (hkind : (s.port p).kind = 7) (hdir : (s.port p).dir = 1) (hfifo : (s.port p).fifo = [])
    (hts : ts = passTokens q (passedArray s s.slot.vtype (fld s.core.f.modq 0 32) q (s.heldNum 2 (s.g o.a).toNat n)).1
      (if o.imm.getLsbD 20 then some (s.port p).rank else none)) (hlen : ts.length ≤ 128) :
    ∃ u fl, exec (.bpass o) s = .next u ∧ FilesRun .bfy (.bpass o) 0 (popF s.core.f 0) fl 0 (sentTo s p ts) u := by
  have hbase := (Leaves.refl s).sentTo p ts
  have hslot : (sentTo s p ts).slot = s.slot := hbase.slot
  obtain ⟨-, -, hhi, -⟩ := hbase.place
  obtain ⟨fl, hfl⟩ : ∃ fl, fl = (q.floats (roundMode s.slot.vtype) (s.twEntry q.c) (s.heldNum 2 (s.g o.a).toNat n)).foldl (fun a x => a ||| x.2) 0 := ⟨_, rfl⟩
  have hsend := bpassOut_sends hquiet.free hp hkind hfifo hlen fl
  rw [passedArray_floats hB hC] at hts
  refine Exists.imp (fun u hu => ⟨fl, (exec_bpass hq hix (fun h => absurd h hB) (hn ▸ hreg)).trans hu.1, hu.2⟩)
    (engine_runs_base (t := bpassTicket s o) (m := s.slot.vl) (c := bpassBound s o) hquiet (.inr ⟨rfl, rfl⟩) rfl (lenIs_vl s) rfl
      (Nat.le_add_left 1 63) hhi (by rw [State.Free, hslot]; exact hquiet.free) rfl rfl hhi.symm ?_)
  generalize hc : (bpassTicket s o).cmd s 0 s.slot.vl = c at hsend ⊢
  have hheld := hreg.holds (bpassTicket s o) (popF s.core.f 0) c 0 0
  have hentry : bpassOf o c.gb = q ∧ c.ga = s.g o.a ∧ c.resume = 0 ∧ c.prog = [] ∧ arithRm (vtRm c.vtype) = roundMode s.slot.vtype := by
    rw [← hc, hq]
    exact ⟨rfl, rfl, rfl, rfl, rfl⟩
  obtain ⟨hpass, hga, hresume, hprog, hrm⟩ := hentry
  have hbind := bpassOut_bind s o
  have hraise := bpassOut_raise s o
  have hport : ((bpassTicket s o).core s 0 s.slot.vl).st.at_ p = s.port p := port_bfyCore rfl s _ p
  have hready : (!([] : List Nat).isEmpty || ((s.port p).kind == 7 && (s.port p).dir == 1)) = true := by
    rw [hkind, hdir]
    rfl
  rw [hc, ← hp] at hbind
  rw [hc] at hraise
  rw [ticketCore_working, hc]
  simp only [hpass, hga, ← hn, hheld, flag, hout, if_true, ← hp, working_port, hport, hprog, hready, need_true, hbind, bpassOut_twEntry, bpassOut_arr,
    hrm, hresume, nthD, List.drop_zero, ← hts, ← hfl, hraise]
  exact hsend
end

/-! ### The statement -/

/-- R181 to R187. -/
theorem passesOverArrays : PassesOverArrays := by
  constructor
  · intro s o q n hquiet _ hout hq hix hblk hn hreg hm
    obtain ⟨u, fl, mrs, hexec, hrun⟩ := bpass_runs hquiet hout hq hix hblk hn hreg hm
    exact ⟨u, hexec, hrun.outside, hrun.advanced, hrun.rfout, hrun.frame, hrun.region⟩
  · intro s o q n p ts hquiet hwf hout hq hix hn hreg hp hkind hdir hfifo hts hlen
    obtain ⟨hB, hC⟩ : q.fmt ≠ 0xB ∧ q.fmt ≠ 0xC := by
      rw [hq]
      exact bpass_toPort hwf hout
    obtain ⟨u, fl, hexec, hrun⟩ := bpassOut_runs hquiet hout hq hix hB hC hn hreg hp hkind hdir hfifo hts hlen
    have hbase := (Leaves.refl s).sentTo p ts
    have hslot : (sentTo s p ts).slot = s.slot := hbase.slot
    have hfiles : (sentTo s p ts).core.f = s.core.f := by rw [hbase.core]
    refine ⟨u, hexec, hrun.frame (by rw [hfiles]; exact FilesFrame.popF _ _ _ _ _ _ _), ?_⟩
    have hadv := hrun.advanced
    rw [Advanced, hslot] at hadv
    exact hadv

/-- Settles O19, from the runs of BFY in a quiet core and from those of BPASS, in place and to a port. -/
theorem butterfliesAndPasses : Obligations.ButterfliesAndPasses :=
  ⟨butterfliesOnRegisters, passesOverArrays⟩

end Sys2Proof.Machine
end
